-- ==== Sys2Proof/Word.lean ====
section
/-! DEFINITION. The word types of the Vilid VC2 and their plainest arithmetic. -/

namespace Sys2Proof

/-- A 64-bit general-register value. -/
abbrev Word := BitVec 64

/-- One byte of memory. -/
abbrev Byte := BitVec 8

/-- A 512-bit vector register (R147). -/
abbrev Vec := BitVec 512

/-- Bits `[hi:lo]` of a word as a number. -/
def bits (x : Nat) (hi lo : Nat) : Nat := (x >>> lo) % 2 ^ (hi + 1 - lo)

/-- Bit `i` of a word. -/
def bit (x : Nat) (i : Nat) : Bool := x.testBit i

/-- `v` placed at bit `lo`, as a field. -/
def field (v lo : Nat) : Nat := v <<< lo

/-- One or zero. -/
def b2n (b : Bool) : Nat := if b then 1 else 0

/-- A word from a number, modulo 2^64 (R7). -/
def w64 (n : Nat) : Word := BitVec.ofNat 64 n

/-- A word from a signed number, modulo 2^64 (R7). -/
def i64 (n : Int) : Word := BitVec.ofInt 64 n

/-- Sign extension of the low `n` bits of a word. -/
def signExt (n : Nat) (x : Word) : Word := ((x.truncate n : BitVec n)).signExtend 64

/-- Zero extension of the low `n` bits of a word. -/
def zeroExt (n : Nat) (x : Word) : Word := ((x.truncate n : BitVec n)).zeroExtend 64

end Sys2Proof
end

