-- ==== Sys2Proof/Syntax.lean ====
section
/-! DEFINITION. The steps of the part: the instruction forms of Cricy-2 and the device's own events, one
constructor for each row of the table of operations and events. -/

namespace Sys2Proof

/-- A general-register field (R48). -/
abbrev GReg := Fin 32
/-- A vector-register field (R48). -/
abbrev FReg := Fin 32
/-- A mask-register field (R37, R48). -/
abbrev MReg := Fin 8
/-- A ring-handle field (R37, R48). -/
abbrev Handle := Fin 16
/-- An accumulator field (R37, R48). -/
abbrev AccReg := Fin 2
/-- A stream-bound register field (R37). -/
abbrev SReg := Fin 8

/-- The scopes of Table 9.2. -/
inductive Scope where
  | act | core | tile | cluster | group | die | package | pair | host | system
  deriving DecidableEq, Repr

/-- The rounding modes of VFP's param (Table 2.7). -/
inductive Rnd where
  | rne | rtz | rdn | rup | dyn
  deriving DecidableEq, Repr

/-- The lane formats of VFP's param (Table 2.7). -/
inductive Lanes where
  | f32 | bf16 | f16
  deriving DecidableEq, Repr

/-- The lane formats of VCMP's param (Table 2.7). -/
inductive CmpLanes where
  | f32 | i32 | u32 | bf16
  deriving DecidableEq, Repr

/-- The conditions of VCMP's param (Table 2.7). -/
inductive Cond where
  | eq | ne | lt | le | gt | ge | un
  deriving DecidableEq, Repr

/-- The operations of VRED, VSCAN, RED and SCAN (Table 2.7). -/
inductive RedOp where
  | fadd | fmin | fmax | iadd
  deriving DecidableEq, Repr

/-- The widths of an atomic (Table 2.7). -/
inductive AmoW where
  | word | double | quad
  deriving DecidableEq, Repr

/-- The acquire and release bits of an atomic, with its width (Table 2.7). -/
structure AmoP where
  w : AmoW
  acq : Bool
  rel : Bool
  deriving DecidableEq, Repr

/-- The element sizes of a stream (Table 7.2). -/
inductive StreamSize where
  | w32 | h16 | b8
  deriving DecidableEq, Repr

/-- The field word of CPY (Table 13.2). -/
structure CpyField where
  mcast : Bool
  ring : Bool
  bar : BitVec 9
  done : BitVec 2
  ab : Bool
  df : BitVec 4
  sf : BitVec 4
  deriving DecidableEq, Repr

/-- The field word of CONV (Table 13.10). -/
structure ConvField where
  nm1 : BitVec 8
  bar : BitVec 9
  ben : Bool
  sr : Bool
  dstr : Bool
  srcr : Bool
  df : BitVec 4
  sf : BitVec 4
  deriving DecidableEq, Repr

/-- The field word of MATRIX (Table 12.4); `gm1` and `acc` are 0 outside MMA.G. -/
structure MmaField where
  gm1 : BitVec 3
  acc : BitVec 1
  bar : BitVec 9
  bph : Bool
  ben : Bool
  relB : Bool
  takeB : Bool
  relA : Bool
  takeA : Bool
  fb : BitVec 3
  fa : BitVec 3
  deriving DecidableEq, Repr

/-- The field word of ACC.RD and ACC.WR (Table 12.6); `sr` is false in ACC.WR. -/
structure AccField where
  bar : BitVec 9
  ben : Bool
  ring : Bool
  sr : Bool
  fmt : BitVec 4
  deriving DecidableEq, Repr

/-- Who issues bundles: a tile core by its logical number (R10) or a firmware core (R15). -/
inductive Agent where
  | tile (n : Nat)
  | fw (k : Nat)
  deriving DecidableEq, Repr

/-- A context: an agent and a slot of it (R81). A firmware core has slot 0 only. -/
structure CtxKey where
  agent : Agent
  slot : Nat
  deriving DecidableEq, Repr

/-- A register of a context that a write in flight may name (R110). -/
inductive RegName where
  | g (r : GReg)
  | f (r : FReg)
  | m (r : MReg)
  deriving DecidableEq, Repr

/-- A received frame after the port's checks of its stages (R328, R329): the stream that identifies it, or
none; its payload; its end time in ns; its port; its 802.1CB sequence number; and the filter that dropped it,
with the kind of drop of R422, when one did. -/
structure Frame where
  stream : Option Nat
  payload : List Byte
  endNs : Nat
  port : Nat
  seqNo : BitVec 16
  fcsOk : Bool
  duplicate : Bool
  drop : Option (Nat × Nat)
  deriving DecidableEq, Repr

/-- What one side of the pair knows of the other when it tries to pair (R358). -/
structure PartnerView where
  linkUp : Bool
  role : Bool
  epoch : Word
  period : Nat
  egress : Nat
  guard : Nat
  configDigest : List Byte
  deriving DecidableEq, Repr

/-- An access that the guest or the host makes to package memory (R369, R375): its virtual address, its size
in bytes, and the bytes it stores, none for a load. -/
structure OutsideAccess where
  va : Nat
  size : Nat
  store : Option (List Byte)
  deriving DecidableEq, Repr

/-- The steps of the part. -/
inductive Instr where
  -- SYS (major 0x00), R44, R77, R80, R208 to R211, R344 to R353
  | nop
  | anop
  | hint (d a b n : Fin 32)
  | endAct
  | yield
  | fenceRel (sc : Scope)
  | fenceAcq (sc : Scope)
  | fenceAr (sc : Scope)
  | ifence (sc : Scope)
  | tret
  | syscall (n : BitVec 10)
  | brk (n : BitVec 10)
  | snap (d : GReg)
  | sysr (d : GReg) (num : BitVec 10)
  | sysw (num : BitVec 10) (src : GReg)
  | gate (d : GReg) (i : BitVec 10)
  | gret
  | slateMin (d a : GReg)
  | slateSet (d a : GReg)
  | slateRgn (d a : GReg)
  | slateRd (d : GReg)
  | slateFold (d a : GReg)
  | slchk (d a : GReg)
  | slchkTrap (d a : GReg)
  | time (d : GReg)
  | timeSinceClapper (d : GReg)
  | timeToEgress (d : GReg)
  | kill (d a : GReg)
  | invpg (d a b : GReg)
  -- ALU-R (major 0x01), R112, R113
  | add (d a b : GReg)
  | sub (d a b : GReg)
  | and (d a b : GReg)
  | or (d a b : GReg)
  | xor (d a b : GReg)
  | shl (d a b : GReg)
  | shr (d a b : GReg)
  | sra (d a b : GReg)
  | rotl (d a b : GReg)
  | mul (d a b : GReg)
  | mulh (d a b : GReg)
  | mulhu (d a b : GReg)
  | div (d a b : GReg)
  | divu (d a b : GReg)
  | rem (d a b : GReg)
  | remu (d a b : GReg)
  | min (d a b : GReg)
  | max (d a b : GReg)
  | minu (d a b : GReg)
  | maxu (d a b : GReg)
  | slt (d a b : GReg)
  | sltu (d a b : GReg)
  | clz (d a : GReg)
  | ctz (d a : GReg)
  | popc (d a : GReg)
  | bswap (d a : GReg)
  | sextb (d a : GReg)
  | sexth (d a : GReg)
  | sextw (d a : GReg)
  | zextb (d a : GReg)
  | zexth (d a : GReg)
  | zextw (d a : GReg)
  | sel (d a b : GReg)
  -- immediates (majors 0x02 to 0x09), R114 to R116
  | addi (d a : GReg) (imm : BitVec 15)
  | addiLong (d a : GReg) (imm : BitVec 32)
  | andi (d a : GReg) (imm : BitVec 15)
  | andiLong (d a : GReg) (imm : BitVec 32)
  | ori (d a : GReg) (imm : BitVec 15)
  | oriLong (d a : GReg) (imm : BitVec 32)
  | xori (d a : GReg) (imm : BitVec 15)
  | xoriLong (d a : GReg) (imm : BitVec 32)
  | slti (d a : GReg) (imm : BitVec 15)
  | sltiLong (d a : GReg) (imm : BitVec 32)
  | sltiu (d a : GReg) (imm : BitVec 15)
  | sltiuLong (d a : GReg) (imm : BitVec 32)
  | shli (d a : GReg) (n : BitVec 6)
  | shliLong (d a : GReg) (n : BitVec 6)
  | shri (d a : GReg) (n : BitVec 6)
  | shriLong (d a : GReg) (n : BitVec 6)
  | srai (d a : GReg) (n : BitVec 6)
  | sraiLong (d a : GReg) (n : BitVec 6)
  | rotli (d a : GReg) (n : BitVec 6)
  | rotliLong (d a : GReg) (n : BitVec 6)
  | movhi (d : GReg) (imm : BitVec 20)
  -- LEA and GADDR (major 0x0A), R117, R119
  | leaScale1 (d a b : GReg)
  | leaScale2 (d a b : GReg)
  | leaScale4 (d a b : GReg)
  | leaScale8 (d a b : GReg)
  | gaddr (d a b : GReg)
  -- branches and jumps (majors 0x0B to 0x12), R121, R122
  | beq (a b : GReg) (off : BitVec 15)
  | beqLong (a b : GReg) (off : BitVec 32)
  | bne (a b : GReg) (off : BitVec 15)
  | bneLong (a b : GReg) (off : BitVec 32)
  | blt (a b : GReg) (off : BitVec 15)
  | bltLong (a b : GReg) (off : BitVec 32)
  | bge (a b : GReg) (off : BitVec 15)
  | bgeLong (a b : GReg) (off : BitVec 32)
  | bltu (a b : GReg) (off : BitVec 15)
  | bltuLong (a b : GReg) (off : BitVec 32)
  | bgeu (a b : GReg) (off : BitVec 15)
  | bgeuLong (a b : GReg) (off : BitVec 32)
  | jal (d : GReg) (off : BitVec 20)
  | jalLong (d : GReg) (off : BitVec 32)
  | jalr (d a : GReg) (imm : BitVec 15)
  | jalrLong (d a : GReg) (imm : BitVec 32)
  -- NUM (major 0x20), R124 to R126
  | rand (d a b : GReg)
  | cvtfx (d a b : GReg)
  | cvtxf (d a b : GReg)
  -- LOAD and STORE (majors 0x13, 0x14), R194
  | ldb (d a : GReg) (off : BitVec 12)
  | ldbLong (d a : GReg) (off : BitVec 32)
  | ldh (d a : GReg) (off : BitVec 12)
  | ldhLong (d a : GReg) (off : BitVec 32)
  | ldw (d a : GReg) (off : BitVec 12)
  | ldwLong (d a : GReg) (off : BitVec 32)
  | ldd (d a : GReg) (off : BitVec 12)
  | lddLong (d a : GReg) (off : BitVec 32)
  | ldbu (d a : GReg) (off : BitVec 12)
  | ldbuLong (d a : GReg) (off : BitVec 32)
  | ldhu (d a : GReg) (off : BitVec 12)
  | ldhuLong (d a : GReg) (off : BitVec 32)
  | ldwu (d a : GReg) (off : BitVec 12)
  | ldwuLong (d a : GReg) (off : BitVec 32)
  | ldq (d a : GReg) (off : BitVec 12)
  | ldqLong (d a : GReg) (off : BitVec 32)
  | stb (src a : GReg) (off : BitVec 12)
  | stbLong (src a : GReg) (off : BitVec 32)
  | sth (src a : GReg) (off : BitVec 12)
  | sthLong (src a : GReg) (off : BitVec 32)
  | stw (src a : GReg) (off : BitVec 12)
  | stwLong (src a : GReg) (off : BitVec 32)
  | std (src a : GReg) (off : BitVec 12)
  | stdLong (src a : GReg) (off : BitVec 32)
  | stq (src a : GReg) (off : BitVec 12)
  | stqLong (src a : GReg) (off : BitVec 32)
  -- full/empty (major 0x15), R195, R196
  | ldf (d a : GReg) (off : BitVec 12)
  | ldfLong (d a : GReg) (off : BitVec 32)
  | ldc (d a : GReg) (off : BitVec 12)
  | ldcLong (d a : GReg) (off : BitVec 32)
  | stf (src a : GReg) (off : BitVec 12)
  | stfLong (src a : GReg) (off : BitVec 32)
  | stfo (src a : GReg) (off : BitVec 12)
  | stfoLong (src a : GReg) (off : BitVec 32)
  | empty (a : GReg) (off : BitVec 12)
  | emptyLong (a : GReg) (off : BitVec 32)
  | feq (d a : GReg) (off : BitVec 12)
  | feqLong (d a : GReg) (off : BitVec 32)
  | feWaitDone (ag : Agent) (i : Nat)
  -- vector memory (major 0x16), R197, R198
  | vld (d : FReg) (a : GReg) (off : BitVec 12)
  | vldLong (d : FReg) (a : GReg) (off : BitVec 32)
  | vst (src : FReg) (a : GReg) (off : BitVec 12)
  | vstLong (src : FReg) (a : GReg) (off : BitVec 32)
  | vlds (d : FReg) (a b : GReg) (off : BitVec 7)
  | vldsLong (d : FReg) (a b : GReg) (off : BitVec 32)
  | vsts (src : FReg) (a b : GReg) (off : BitVec 7)
  | vstsLong (src : FReg) (a b : GReg) (off : BitVec 32)
  | vgath (d : FReg) (a : GReg) (b : FReg) (off : BitVec 7)
  | vgathLong (d : FReg) (a : GReg) (b : FReg) (off : BitVec 32)
  | vscat (src : FReg) (a : GReg) (b : FReg) (off : BitVec 7)
  | vscatLong (src : FReg) (a : GReg) (b : FReg) (off : BitVec 32)
  -- atomics (major 0x17), R199
  | amoadd (p : AmoP) (d a b : GReg)
  | amoand (p : AmoP) (d a b : GReg)
  | amoor (p : AmoP) (d a b : GReg)
  | amoxor (p : AmoP) (d a b : GReg)
  | amomin (p : AmoP) (d a b : GReg)
  | amomax (p : AmoP) (d a b : GReg)
  | amominu (p : AmoP) (d a b : GReg)
  | amomaxu (p : AmoP) (d a b : GReg)
  | amoswap (p : AmoP) (d a b : GReg)
  | amocas (p : AmoP) (d a b : GReg)
  -- cache (major 0x18), R200
  | pref (a : GReg) (off : BitVec 12)
  | prefLong (a : GReg) (off : BitVec 32)
  | cwb (a : GReg) (off : BitVec 12)
  | cwbLong (a : GReg) (off : BitVec 32)
  | cinv (a : GReg) (off : BitVec 12)
  | cinvLong (a : GReg) (off : BitVec 32)
  | cwbinv (a : GReg) (off : BitVec 12)
  | cwbinvLong (a : GReg) (off : BitVec 32)
  | cwbL2 (a : GReg) (off : BitVec 12)
  | cwbL2Long (a : GReg) (off : BitVec 32)
  -- VFP (major 0x28), R163
  | vadd (l : Lanes) (r : Rnd) (d a b : FReg)
  | vsub (l : Lanes) (r : Rnd) (d a b : FReg)
  | vmul (l : Lanes) (r : Rnd) (d a b : FReg)
  | vmin (l : Lanes) (d a b : FReg)
  | vmax (l : Lanes) (d a b : FReg)
  | vabs (l : Lanes) (d a : FReg)
  | vneg (l : Lanes) (d a : FReg)
  | vdiv (l : Lanes) (r : Rnd) (d a b : FReg)
  | vsqrt (l : Lanes) (r : Rnd) (d a : FReg)
  -- VFMA (major 0x29), R164
  | vfma (d a b c : FReg)
  | vfms (d a b c : FReg)
  | vfnma (d a b c : FReg)
  | vfnms (d a b c : FReg)
  -- VINT (major 0x2A), R165
  | vaddI (d a b : FReg)
  | vsubI (d a b : FReg)
  | vmulI (d a b : FReg)
  | vmulhI (d a b : FReg)
  | vand (d a b : FReg)
  | vor (d a b : FReg)
  | vxor (d a b : FReg)
  | vshl (d a b : FReg)
  | vshr (d a b : FReg)
  | vsra (d a b : FReg)
  | vminI (d a b : FReg)
  | vmaxI (d a b : FReg)
  | vminuI (d a b : FReg)
  | vmaxuI (d a b : FReg)
  | vdot4I8 (d a b : FReg)
  -- VCMP (major 0x2B), R166
  | vcmp (l : CmpLanes) (c : Cond) (d : MReg) (a b : FReg)
  | vsel (d a : FReg) (b : MReg)
  | mand (d a b : MReg)
  | mor (d a b : MReg)
  | mxor (d a b : MReg)
  | mnot (d a : MReg)
  | mmov (d a : MReg)
  | mset (d : MReg) (a : GReg)
  | mpopc (d : GReg) (a : MReg)
  -- VSFU (major 0x2C), R167
  | vrcp (d a : FReg)
  | vrsq (d a : FReg)
  | vexp2 (d a : FReg)
  | vlog2 (d a : FReg)
  | vtanh (d a : FReg)
  | vsigm (d a : FReg)
  -- VCVT (major 0x2D), R168; VRAND (0x2E), R169
  | vcvt (code : Fin 26) (d a : FReg)
  | vcvtSr (code : Fin 26) (d a b : FReg)
  | vrand (d : FReg) (a b : GReg)
  -- VMOVE (major 0x2F), R170
  | vmov (d a : FReg)
  | vbcast (d : FReg) (a : GReg)
  | vext (d : GReg) (a : FReg) (lane : Fin 16)
  | vins (d : FReg) (a : GReg) (lane : Fin 16)
  | vperm (d a b : FReg)
  | vred (op : RedOp) (d : GReg) (a : FReg)
  | vscan (op : RedOp) (d a : FReg)
  -- VSEQ (major 0x30), R158 to R162
  | vseq (a : GReg) (n1 : Fin 16)
  | vseqS (a : SReg) (n1 : Fin 16)
  | vseqStop (a : MReg)
  | sequencerReplayStep (k : CtxKey)
  -- MSG (major 0x19), R243 to R249
  | send (a b : GReg) (n : BitVec 4)
  | sendq (a b : GReg) (n : BitVec 4)
  | sendr (a b : GReg) (k : Fin 32)
  | reply (a b : GReg)
  | replyQ (a b : GReg)
  | cut (a : GReg)
  | putn (d a b : GReg) (n : BitVec 4)
  | getr (d a b : GReg)
  | getrArm (d : GReg)
  | getrDis (d : GReg)
  | qpop (d a b : GReg)
  | qpeek (d a b : GReg)
  | qstat (d a : GReg)
  | qstatClr (d a : GReg)
  -- SCHED (major 0x1A), R98 to R102
  | spawn (j a b : GReg) (n : Fin 32)
  | forkR (j a b : GReg) (n : Fin 32)
  | join (d a b : GReg)
  | joinOpen (d a b : GReg)
  | joinSeal (d a : GReg)
  | joinWait (d a : GReg)
  | budgetAct (d a : GReg)
  | budgetTake (d a : GReg)
  -- SYNC (major 0x1B), R255 to R268
  | barInit (a b : GReg)
  | barArr (sc : Scope) (d a : GReg)
  | barWait (sc : Scope) (a b : GReg)
  | barArw (sc : Scope) (d a : GReg)
  | barTx (a b : GReg)
  | barQry (d a : GReg)
  | ringWaitf (d : GReg) (h : Handle) (k : Fin 32)
  | ringWaite (d : GReg) (h : Handle) (k : Fin 32)
  | ringAdvp (h : Handle) (k : Fin 32)
  | ringAdvc (h : Handle) (k : Fin 32)
  | ringQry (d : GReg) (h : Handle)
  | grpMem (d a : GReg)
  -- TREE (major 0x1C), R263 to R269
  | red (op : RedOp) (d a : FReg) (b : GReg)
  | scan (op : RedOp) (d a : FReg) (b : GReg)
  | bcast (d a : FReg) (b : GReg)
  | treeWait (d a : GReg)
  -- POOL (major 0x1D), R144 to R146
  | poolSet (d a : GReg)
  | poolQry (d a : GReg)
  | poolPin (d a : GReg)
  | poolUnpin (d a : GReg)
  -- COPY (major 0x1E), R297 to R307
  | cpy (d a : GReg) (fw : CpyField)
  | cpyCancel (d a : GReg)
  | cpyStat (d a : GReg) (sel : Bool)
  -- STREAM (major 0x1F), R155 to R157
  | scfg (d : SReg) (a b : GReg) (wr : Bool) (size : StreamSize)
  | sclose (a : SReg)
  | sstat (d : GReg) (a : SReg)
  -- Cricy-1 (major 0x27), R46, R47
  | ldm (d a : GReg) (n1 : Fin 32)
  | stm (src a : GReg) (n1 : Fin 32)
  | vdotI8 (d a b : GReg)
  | maca (d a b : GReg)
  -- CONV (major 0x31), R308 to R310
  | cvtMx (d a b : GReg) (fw : ConvField)
  | cvtUnmx (d a b : GReg) (fw : ConvField)
  | rescaleMx (d a b : GReg) (fw : ConvField)
  | transp (d a b : GReg) (fw : ConvField)
  | convOpStart (ag : Agent)
  | convOpComplete (ag : Agent)
  -- MATRIX and ACC (majors 0x32, 0x33), R271 to R291
  | mma (d : AccReg) (a b : Handle) (fw : MmaField)
  | mmaG (d : GReg) (a b : Handle) (fw : MmaField)
  | mmrot (d : AccReg) (a b : Handle) (fw : MmaField)
  | accClr (d : AccReg)
  | accAnch (d : AccReg) (a : GReg)
  | accRd (d : AccReg) (a b : GReg) (fw : AccField)
  | accWr (d : AccReg) (a : GReg) (fw : AccField)
  | accStat (d : GReg) (a : AccReg)
  | matrixOpStart (ag : Agent) (i : Nat)
  | matrixOpComplete (ag : Agent) (i : Nat)
  | mmrotForward (ag : Agent) (isB : Bool)
  -- LINK (major 0x34), R311 to R314
  | linkCfg (d a : GReg)
  | linkStat (d : GReg)
  | linkVectorArrival (n : Nat)
  -- streams, traps and gates, R151, R340 to R351
  | streamFetch (k : CtxKey) (r : SReg)
  | streamDrain (k : CtxKey) (r : SReg)
  | trapEntry (k : CtxKey) (code : BitVec 6) (tval : Word)
  | asyncCauseDelivery (k : CtxKey)
  | copyCompletionInterrupt (k : CtxKey)
  | singleStep (k : CtxKey)
  | gateUnwind (k : CtxKey) (code : BitVec 6) (tval : Word)
  -- activations, R82 to R97
  | activationStart (ag : Agent)
  | contextLoad (k : CtxKey)
  | contextWriteback (k : CtxKey)
  | activationBudgetExpiry (k : CtxKey)
  | budgetGraceExpiry (k : CtxKey)
  | deadlockSuspected (k : CtxKey)
  | takeBudgetSpent (ag : Agent) (q : Fin 64)
  | slotExhaustion (ag : Agent)
  | spilledContextReturn (k : CtxKey)
  | absentContextMessage (n : Nat)
  | quiesceAck (k : CtxKey)
  | spawnArrival (n : Nat)
  | spawnRetry (n : Nat)
  | joinArrival (n : Nat)
  | depositArrival (n : Nat)
  | depositLanding (ag : Agent) (i : Nat)
  | parkedReturn (ag : Agent)
  | messageArrival (n : Nat)
  | replyArrival (n : Nat)
  | remoteAccessArrival (n : Nat)
  | accessReplyArrival (n : Nat)
  | storeAckArrival (n : Nat)
  | refusalArrival (n : Nat)
  | journalTimeout (ag : Agent) (e : Fin 64)
  | linkReroute (src dst : Nat) (up : Bool)
  | barrierEvent (n : Nat)
  | barrierHoldRetry (n : Nat)
  | ringOperationAtOwner (ag : Agent) (h : Handle)
  | treeResult (ag : Agent) (i : Nat)
  | reshapeComplete (ag : Agent)
  | copyTransferStart (ag : Agent)
  | copyTransferDone (ag : Agent)
  | copyTransferFault (ag : Agent)
  -- time, takes and the process image, R317 to R332
  | clapper (dtime : Word)
  | egressSwap (dtime : Word)
  | frameTransmit (i : Nat)
  | frameIngress (f : Frame)
  | callSheetEntryFire (i : Nat)
  | oneShotFire (i : Nat) (dtime : Word)
  -- the pair, R358 to R364
  | heartbeatSend
  | heartbeatArrival (take : Nat) (driving : Bool) (term : BitVec 16)
  | heartbeatMiss
  | mirrorWrite (entry : Nat) (data : List Byte) (seqNo : BitVec 16)
  | mirrorMarkerSend
  | unreconciledTake
  | takeDigestSend
  | takeDigestArrival (take : Nat) (digest : Word)
  | digestTimeout
  | pairForm (v : PartnerView)
  -- the guest, R365 to R373
  | guestSubmit (n : Nat)
  | guestCompletion (q : Fin 64) (seqNo : BitVec 16) (status : Word)
  | guestFault (q : Fin 64) (seqNo : BitVec 16) (status : Word)
  | guestDrained (q : Fin 64)
  | guestSaved (q : Fin 64)
  | guestAccess (asid : BitVec 12) (acc : OutsideAccess)
  | guestRequestTimeout (q : Fin 64) (seqNo : BitVec 16)
  | guestPreemptRequest (q : Fin 64)
  | guestPreemptTimeout (q : Fin 64)
  -- the host, R374, R375, R393 to R396, R414
  | hostDoorbell (q : Fin 16)
  | launch (tag : BitVec 32) (addr : Word)
  | activeMessage (tag : BitVec 32) (la : BitVec 16) (ty : BitVec 16) (role : Fin 4) (data : Word)
      (payload : List Word)
  | loadCallSheet (tag : BitVec 32) (addr : Word) (count : Nat) (sheet : BitVec 16)
  | releaseQueue (tag : BitVec 32) (core : Nat) (q : Fin 64)
  | endLaunch (tag : BitVec 32) (la : BitVec 16)
  | loadImageMaps (tag : BitVec 32) (inAddr outAddr : Word)
  | openAperture (tag : BitVec 32) (asid : BitVec 12) (gib : Nat)
  | claimOwnership (tag : BitVec 32) (key : List Byte)
  | transferOwnership (tag : BitVec 32) (sig : List Byte)
  | advanceVersion (tag : BitVec 32) (svn : BitVec 8) (sig : List Byte)
  | attestationQuote (tag : BitVec 32) (nonce : List Byte) (addr : Word)
  | storeImage (tag : BitVec 32) (addr : Word) (size : Nat)
  | splitDomain (tag : BitVec 32) (n m : Fin 16) (g : Nat) (slices : Word)
  | hostApertureAccess (acc : OutsideAccess)
  -- domains, pages, errors and tiles, R188 to R191, R219, R220, R385
  | hashmaskWrite (n : Fin 16) (v : Word)
  | domselWrite (j : Fin 30) (v : Word)
  | l2ctlWrite (v : Word)
  | domainSwitchApply
  | losingSliceSignal
  | domainSwitchEnd
  | domstatRead
  | pageMigration (asid : BitVec 12) (va : Word) (newPa : Word)
  | invpgAck (k : CtxKey)
  | uncorrectableError (home : Nat) (sram : Bool) (by_ : Option CtxKey)
  | tileRetire (x : Fin 32) (y : Fin 16)
  -- watchpoints and snapshots, R224, R354, R355
  | watchpointTrigger (ag : Agent) (n : Fin 4) (kind : Fin 11) (writer : BitVec 11) (addr : BitVec 48)
  | wpctlWrite (k : CtxKey) (n : Fin 4) (v : Word)
  | wpctlRead (k : CtxKey) (n : Fin 4)
  | snapshotTrigger (src : BitVec 4)
  | snapshotPin
  | snaptimeReached (dtime : Word)
  | rearm
  -- device registers of time and image, R315, R316, R327, R331, R408
  | timectlWrite (v : Word)
  | takecfgWrite (v : Word)
  | servoStep (v : BitVec 32)
  | lockedChange (v : Bool)
  | timestatErrClear
  | dtimeDivergence (diff : BitVec 32)
  | mapsw
  | csstatRead
  | detstatRead
  | pairstatClear (mismatch unrec : Bool)
  | statusLostaClear (k : CtxKey)
  -- power and heat, R378 to R384
  | governorSample (w0 w1 : Nat)
  | thermalSample (sensor : Fin 128) (reading : BitVec 16)
  | clrtrip (die : Fin 2)
  | throttleStepChange (die : Fin 2)
  | pwrctlWrite (v : Word)
  | powerFailWarning
  | drainExpiry
  | reelWrite
  | reelRestart
  -- boot, firmware and mailboxes, R387 to R393, R404
  | coldReset
  | recoveryMode (fromPartner : Bool) (image : List Byte)
  | firmwareWatchdog (k : Fin 8)
  | mbxgo (k : Fin 8) (tgt : Fin 8)
  | mbxpop (k : Fin 8)
  | kick (k : Fin 8)
  | mailboxEntryArrival (k : Fin 8)
  | handlerPublish (la : BitVec 16) (h : BitVec 9) (addr : Option Word)
  -- control cores, R334 to R336
  | vtakenoRead (c : Fin 8)
  | vcauseRead (c : Fin 8)
  | voutdone (c : Fin 8)
  | messagePortSend (c : Fin 8) (v : Word)
  | pops (c : Fin 8) (q : Fin 4)
  | popv (c : Fin 8) (q : Fin 4)
  | messagePortStatusRead (c : Fin 8)
  | resultQueueAppend (c : Fin 8) (q : Fin 4) (value slate : Word)
  -- links to the outside and remaining landings
  | continuityLinkDown
  | guestLinkTraining (up : Bool)
  | epochWrite (v : Word)
  | slewComplete
  | mirrorMarkerArrival (take : Nat)
  | sendQueueEntryFreed (ag : Agent) (vn : Fin 4)
  | inFlightWriteLands (k : CtxKey) (r : RegName)
  | writeBackAck (n : Nat)
  | killAcceptance (n : Nat)
  | hostAccessTimeout (n : Nat)
  | recruitmentAnswer (ag : Agent) (i : Nat)
  deriving DecidableEq, Repr

end Sys2Proof
end

