-- ==== Sys2Proof/WellFormed.lean ====
section
/-! DEFINITION. The limits that the spec sets on an instruction's operands beyond the ranges of its fields
(R37, R39, R42, R43 and the entries). An event of the device has none. -/

namespace Sys2Proof

/-- A fault of an encoding: its cause, its subcode, and whether the offending word is the extension (R42). -/
structure EncFault where
  cause : Nat
  sub : Nat
  ext : Bool
  deriving DecidableEq, Repr

/-- An even register index (R37). -/
def evenReg (r : Fin 32) : Bool := r.val % 2 == 0

/-- The fault with subcode 3 of cause 0x01 when the limit does not hold (R37). -/
def limit (ok : Bool) : Option EncFault := if ok then none else some ⟨1, 3, false⟩

/-- The same limit on a field of the extension (R42). -/
def limitExt (ok : Bool) : Option EncFault := if ok then none else some ⟨1, 3, true⟩

/-- A code of the word that no row assigns (Table 2.9, subcode 0). -/
def assigned (ok : Bool) : Option EncFault := if ok then none else some ⟨1, 0, false⟩

/-- A code of the extension that no row assigns (Table 2.9, subcode 0). -/
def assignedExt (ok : Bool) : Option EncFault := if ok then none else some ⟨1, 0, true⟩

/-- A register field that a form does not use and that is not 0 (R37). -/
def unused (ok : Bool) : Option EncFault := if ok then none else some ⟨2, 0, false⟩

/-- A reserved bit of a field word that is not 0 (Table 2.10, subcode 3). -/
def unusedExt (ok : Bool) : Option EncFault := if ok then none else some ⟨2, 3, true⟩

/-- The first of several checks that fails. -/
def firstFault : List (Option EncFault) → Option EncFault
  | [] => none
  | some e :: _ => some e
  | none :: l => firstFault l

/-- Format codes of Table 13.3 that are assigned. -/
def cpyCodeOk (c : BitVec 4) : Bool := c.toNat ≤ 6 || (8 ≤ c.toNat && c.toNat ≤ 13)

/-- Format codes of CONV that are assigned (R308). -/
def convCodeOk (c : BitVec 4) : Bool := c.toNat ≤ 2 || (8 ≤ c.toNat && c.toNat ≤ 13)

/-- Accumulator data layouts of ACC.RD that are assigned (Table 12.7). -/
def accRdCodeOk (c : BitVec 4) : Bool := c.toNat ≤ 3 || (8 ≤ c.toNat && c.toNat ≤ 13) || c.toNat == 15

/-- Accumulator data layouts of ACC.WR that are assigned (Table 12.7). -/
def accWrCodeOk (c : BitVec 4) : Bool := c.toNat == 0 || c.toNat == 15

/-- Conversion codes with a stochastic form (Table 7.10). -/
def srCodeOk (c : Fin 26) : Bool := (2 ≤ c.val && c.val ≤ 5) || (10 ≤ c.val && c.val ≤ 17)

/-- The limits of CONV's operands (R308, R309). Where a handle of word 0 and NM1 of the extension are both outside their
limits, word 0 is the offending word (DESIGN CHOICE, log entry 125: R42 does not say which). -/
def convFault (isT : Bool) (d a b : GReg) (fw : ConvField) : Option EncFault :=
  firstFault [assignedExt (convCodeOk fw.df && convCodeOk fw.sf),
    limit (!fw.dstr || d.val < 16), limit (!fw.srcr || a.val < 16),
    limitExt (!isT || fw.nm1.toNat < 8), unused (fw.sr || b.val == 0)]

/-- The limits of a payload range (Table 10.7). -/
def payloadFault (lo : Nat) (b : GReg) (n : BitVec 4) : Option EncFault :=
  limit (lo ≤ n.toNat && n.toNat ≤ 8 && (n.toNat == 0 || b.val + n.toNat ≤ 32))

/-- The limits of an atomic's registers (R199). -/
def amoFault (p : AmoP) (d b : GReg) : Option EncFault :=
  limit (p.w ≠ .quad || (evenReg d && evenReg b))

/-- Atomics that have no quad width (Table 2.7). -/
def amoNoQuad (p : AmoP) : Option EncFault := assigned (p.w ≠ .quad)

/-- The first fault that an instruction's operands have, in the order of R31; none when they are admitted. -/
def operandFault : Instr → Option EncFault
  | .rand d a _ => limit (!(d == a && d.val != 0))
  | .cvtfx d _ _ => limit (d.val != 0 && evenReg d)
  | .cvtxf _ a _ => limit (evenReg a)
  | .ldq d _ _ => limit (d.val != 0 && evenReg d)
  | .ldqLong d _ _ => limit (d.val != 0 && evenReg d)
  | .stq r _ _ => limit (evenReg r)
  | .stqLong r _ _ => limit (evenReg r)
  | .amoadd p d _ b => amoFault p d b
  | .amoand p d _ b => amoFault p d b
  | .amoor p d _ b => amoFault p d b
  | .amoxor p d _ b => amoFault p d b
  | .amomin p _ _ _ => amoNoQuad p
  | .amomax p _ _ _ => amoNoQuad p
  | .amominu p _ _ _ => amoNoQuad p
  | .amomaxu p _ _ _ => amoNoQuad p
  | .amoswap p d _ b => amoFault p d b
  | .amocas p d _ b => amoFault p d b
  | .send _ b n => payloadFault 0 b n
  | .sendq _ b n => payloadFault 0 b n
  | .putn _ _ b n => payloadFault 1 b n
  | .getr d _ _ => limit (d.val != 0)
  | .getrArm d => limit (d.val != 0)
  | .getrDis d => limit (d.val != 0)
  | .spawn j _ _ n => limit (j.val == 0 || n.val ≤ 30)
  | .forkR _ _ _ n => limit (n.val ≤ 28)
  | .ringWaitf _ _ k => limit (k.val != 0)
  | .ringWaite _ _ k => limit (k.val != 0)
  | .ringAdvp _ k => limit (k.val != 0)
  | .ringAdvc _ k => limit (k.val != 0)
  | .gate d i => limit (i.toNat ≤ 255 && d.val != 0 && !(4 ≤ d.val && d.val ≤ 11))
  | .ldm d a n1 => limit (1 ≤ d.val && d.val + n1.val ≤ 31 && !(d.val ≤ a.val && a.val ≤ d.val + n1.val))
  | .stm r _ n1 => limit (r.val + n1.val ≤ 31)
  | .cpy _ _ fw => assignedExt (cpyCodeOk fw.df && cpyCodeOk fw.sf)
  | .vcmp l c _ _ _ => assigned (!(c == .un && (l == .i32 || l == .u32)))
  | .vcvtSr c _ _ _ => assigned (srCodeOk c)
  | .cvtMx d a b fw => convFault false d a b fw
  | .cvtUnmx d a b fw => convFault false d a b fw
  | .rescaleMx d a b fw => convFault false d a b fw
  | .transp d a b fw => convFault true d a b fw
  | .mma _ _ _ fw => unusedExt (fw.gm1.toNat == 0 && fw.acc.toNat == 0)
  | .mmaG _ _ _ fw => limitExt fw.takeB
  | .mmrot _ _ _ fw => firstFault [limitExt (fw.takeA && fw.relA && fw.takeB && fw.relB),
      unusedExt (fw.gm1.toNat == 0 && fw.acc.toNat == 0)]
  | .accRd _ a b fw => firstFault [assignedExt (accRdCodeOk fw.fmt), limit (!fw.ring || a.val < 16),
      unused (fw.sr || b.val == 0)]
  | .accWr _ a fw => firstFault [assignedExt (accWrCodeOk fw.fmt), limit (!fw.ring || a.val < 16),
      unusedExt (!fw.sr)]
  | _ => none

/-- An instruction whose operands the spec admits. -/
def Instr.wf (i : Instr) : Bool := operandFault i == none

end Sys2Proof
end

