-- ==== Sys2Proof/Decode.lean ====
section
/-! DEFINITION. Reading the words of a bundle (R26 to R47, Tables 2.5 to 2.7 and the entries' encoding tables),
and writing them. -/

namespace Sys2Proof

noncomputable section

/-- What a word reads as: an instruction, or the first fault of its encoding in the order of R31. -/
abbrev DecRes := Except EncFault Instr

/-- Field d [24:20]. -/
def wd (w : Nat) : Nat := w / 2 ^ 20 % 32
/-- Field a [19:15]. -/
def wa (w : Nat) : Nat := w / 2 ^ 15 % 32
/-- Field b [14:10]. -/
def wb (w : Nat) : Nat := w / 2 ^ 10 % 32
/-- Field op [9:5], the field c of format F. -/
def wop (w : Nat) : Nat := w / 2 ^ 5 % 32
/-- Field param [4:0], the minor of format F. -/
def wpar (w : Nat) : Nat := w % 32
/-- Field minor [9:0]. -/
def wmin (w : Nat) : Nat := w % 1024
/-- Field size [14:12]. -/
def wsize (w : Nat) : Nat := w / 2 ^ 12 % 8

/-- A register field from a number. -/
def r5 (n : Nat) : Fin 32 := Fin.ofNat 32 n

/-- Cause 0x01 with subcode 0: an unassigned code (Table 2.9). -/
def bad0 : DecRes := .error ⟨1, 0, false⟩
/-- Cause 0x01 with subcode 4: the form does not exist (Table 2.9). -/
def bad4 : DecRes := .error ⟨1, 4, false⟩

/-- Subcode 3 of cause 0x01 unless the limit holds (R37). -/
def lim (ok : Bool) (k : DecRes) : DecRes := if ok then k else .error ⟨1, 3, false⟩
/-- Subcode 0 of cause 0x02 unless the reserved field is 0 (R43). -/
def zer (n : Nat) (k : DecRes) : DecRes := if n = 0 then k else .error ⟨2, 0, false⟩
/-- Subcode 3 of cause 0x02 unless the reserved bits of the extension are 0 (R43). -/
def zerX (n : Nat) (k : DecRes) : DecRes := if n = 0 then k else .error ⟨2, 3, true⟩
/-- Subcode 1 of cause 0x02 unless the replaced short immediate is 0 (R35). -/
def zer1 (n : Nat) (k : DecRes) : DecRes := if n = 0 then k else .error ⟨2, 1, false⟩
/-- Subcode 0 of cause 0x01 unless the code is assigned. -/
def asg (ok : Bool) (k : DecRes) : DecRes := if ok then k else bad0
/-- Subcode 0 of cause 0x01 on the extension unless the code is assigned. -/
def asgX (ok : Bool) (k : DecRes) : DecRes := if ok then k else .error ⟨1, 0, true⟩

/-- The operand limits of the well-formedness check, before the reserved fields that `k` checks: a limit whose
cause is 0x01 comes first (R31). -/
def chk (i : Instr) (k : DecRes → DecRes) : DecRes :=
  match operandFault i with
  | some e => if e.cause = 1 then .error e else k (.error e)
  | none => k (.ok i)

/-- A scope from its code (Table 2.7). -/
def scopeOf : Nat → Option Scope
  | 0 => some .act | 1 => some .core | 2 => some .tile | 3 => some .cluster | 4 => some .group
  | 5 => some .die | 6 => some .package | 7 => some .pair | 8 => some .host | 9 => some .system
  | _ => none

/-- The code of a scope. -/
def scopeCode : Scope → Nat
  | .act => 0 | .core => 1 | .tile => 2 | .cluster => 3 | .group => 4
  | .die => 5 | .package => 6 | .pair => 7 | .host => 8 | .system => 9

/-- An instruction that names a scope, refused with subcode 0 for codes 10 to 31. -/
def withScope (n : Nat) (k : Scope → DecRes) : DecRes :=
  match scopeOf n with
  | some s => k s
  | none => bad0

/-- A rounding mode from its code (Table 2.7). -/
def rndOf : Nat → Option Rnd
  | 0 => some .rne | 1 => some .rtz | 2 => some .rdn | 3 => some .rup | 4 => some .dyn | _ => none
/-- The code of a rounding mode. -/
def rndCode : Rnd → Nat
  | .rne => 0 | .rtz => 1 | .rdn => 2 | .rup => 3 | .dyn => 4
/-- A lane format from its code (Table 2.7). -/
def lanesOf : Nat → Option Lanes
  | 0 => some .f32 | 1 => some .bf16 | 2 => some .f16 | _ => none
/-- The code of a lane format. -/
def lanesCode : Lanes → Nat
  | .f32 => 0 | .bf16 => 1 | .f16 => 2
/-- A compare's lane format from its code (Table 2.7). -/
def cmpLanesOf : Nat → CmpLanes
  | 0 => .f32 | 1 => .i32 | 2 => .u32 | _ => .bf16
/-- The code of a compare's lane format. -/
def cmpLanesCode : CmpLanes → Nat
  | .f32 => 0 | .i32 => 1 | .u32 => 2 | .bf16 => 3
/-- A condition from its code (Table 2.7). -/
def condOf : Nat → Option Cond
  | 0 => some .eq | 1 => some .ne | 2 => some .lt | 3 => some .le | 4 => some .gt | 5 => some .ge
  | 6 => some .un | _ => none
/-- The code of a condition. -/
def condCode : Cond → Nat
  | .eq => 0 | .ne => 1 | .lt => 2 | .le => 3 | .gt => 4 | .ge => 5 | .un => 6
/-- A reduction operation from its code (Table 2.7). -/
def redOf : Nat → Option RedOp
  | 0 => some .fadd | 1 => some .fmin | 2 => some .fmax | 3 => some .iadd | _ => none
/-- The code of a reduction operation. -/
def redCode : RedOp → Nat
  | .fadd => 0 | .fmin => 1 | .fmax => 2 | .iadd => 3
/-- An atomic width from its code (Table 2.7). -/
def amoWOf : Nat → Option AmoW
  | 0 => some .word | 1 => some .double | 2 => some .quad | _ => none
/-- The code of an atomic width. -/
def amoWCode : AmoW → Nat
  | .word => 0 | .double => 1 | .quad => 2

/-- The field word of CPY (Table 13.2). -/
def cpyFieldOf (x : Nat) : CpyField :=
  { mcast := x / 2 ^ 21 % 2 == 1, ring := x / 2 ^ 20 % 2 == 1, bar := BitVec.ofNat 9 (x / 2 ^ 11),
    done := BitVec.ofNat 2 (x / 2 ^ 9), ab := x / 2 ^ 8 % 2 == 1, df := BitVec.ofNat 4 (x / 2 ^ 4),
    sf := BitVec.ofNat 4 x }
/-- The word of a CPY field word. -/
def cpyFieldWord (f : CpyField) : Nat :=
  b2n f.mcast * 2 ^ 21 + b2n f.ring * 2 ^ 20 + f.bar.toNat * 2 ^ 11 + f.done.toNat * 2 ^ 9 + b2n f.ab * 2 ^ 8
    + f.df.toNat * 2 ^ 4 + f.sf.toNat

/-- The field word of CONV (Table 13.10). -/
def convFieldOf (x : Nat) : ConvField :=
  { nm1 := BitVec.ofNat 8 (x / 2 ^ 24), bar := BitVec.ofNat 9 (x / 2 ^ 12), ben := x / 2 ^ 11 % 2 == 1,
    sr := x / 2 ^ 10 % 2 == 1, dstr := x / 2 ^ 9 % 2 == 1, srcr := x / 2 ^ 8 % 2 == 1,
    df := BitVec.ofNat 4 (x / 2 ^ 4), sf := BitVec.ofNat 4 x }
/-- The word of a CONV field word. -/
def convFieldWord (f : ConvField) : Nat :=
  f.nm1.toNat * 2 ^ 24 + f.bar.toNat * 2 ^ 12 + b2n f.ben * 2 ^ 11 + b2n f.sr * 2 ^ 10 + b2n f.dstr * 2 ^ 9
    + b2n f.srcr * 2 ^ 8 + f.df.toNat * 2 ^ 4 + f.sf.toNat

/-- The field word of MATRIX (Table 12.4). -/
def mmaFieldOf (x : Nat) : MmaField :=
  { gm1 := BitVec.ofNat 3 (x / 2 ^ 23), acc := BitVec.ofNat 1 (x / 2 ^ 22), bar := BitVec.ofNat 9 (x / 2 ^ 12),
    bph := x / 2 ^ 11 % 2 == 1, ben := x / 2 ^ 10 % 2 == 1, relB := x / 2 ^ 9 % 2 == 1,
    takeB := x / 2 ^ 8 % 2 == 1, relA := x / 2 ^ 7 % 2 == 1, takeA := x / 2 ^ 6 % 2 == 1,
    fb := BitVec.ofNat 3 (x / 2 ^ 3), fa := BitVec.ofNat 3 x }
/-- The word of a MATRIX field word. -/
def mmaFieldWord (f : MmaField) : Nat :=
  f.gm1.toNat * 2 ^ 23 + f.acc.toNat * 2 ^ 22 + f.bar.toNat * 2 ^ 12 + b2n f.bph * 2 ^ 11 + b2n f.ben * 2 ^ 10
    + b2n f.relB * 2 ^ 9 + b2n f.takeB * 2 ^ 8 + b2n f.relA * 2 ^ 7 + b2n f.takeA * 2 ^ 6
    + f.fb.toNat * 2 ^ 3 + f.fa.toNat

/-- The field word of ACC.RD and ACC.WR (Table 12.6). -/
def accFieldOf (x : Nat) : AccField :=
  { bar := BitVec.ofNat 9 (x / 2 ^ 7), ben := x / 2 ^ 6 % 2 == 1, ring := x / 2 ^ 5 % 2 == 1,
    sr := x / 2 ^ 4 % 2 == 1, fmt := BitVec.ofNat 4 x }
/-- The word of an ACC field word. -/
def accFieldWord (f : AccField) : Nat :=
  f.bar.toNat * 2 ^ 7 + b2n f.ben * 2 ^ 6 + b2n f.ring * 2 ^ 5 + b2n f.sr * 2 ^ 4 + f.fmt.toNat

/-- SYS, major 0x00 (Tables 2.6, 2.7, 9.3, 14.11, 15.8). -/
def decSys (w : Nat) : DecRes :=
  let d := wd w; let a := wa w; let b := wb w; let p := wpar w
  match wop w with
  | 0 => zer (d + a + b + p) (.ok .nop)
  | 1 => zer (d + a + b + p) (.ok .endAct)
  | 2 => zer (d + a + b + p) (.ok .yield)
  | 3 => withScope p fun s =>
      lim (d % 4 != 0) (zer (d / 4 + a + b)
        (.ok (if d % 4 = 1 then .fenceAcq s else if d % 4 = 2 then .fenceRel s else .fenceAr s)))
  | 4 => withScope p fun s => zer (d + a + b) (.ok (.ifence s))
  | 5 => zer (d + a + b + p) (.ok .tret)
  | 6 => zer (d + p) (.ok (.syscall (BitVec.ofNat 10 (a * 32 + b))))
  | 7 => zer (d + p) (.ok (.brk (BitVec.ofNat 10 (a * 32 + b))))
  | 8 => zer (a + b + p) (.ok (.snap (r5 d)))
  | 9 => zer p (.ok (.sysr (r5 d) (BitVec.ofNat 10 (a * 32 + b))))
  | 10 => zer p (.ok (.sysw (BitVec.ofNat 10 (a * 32 + b)) (r5 d)))
  | 11 => chk (.gate (r5 d) (BitVec.ofNat 10 (a * 32 + b))) (zer p)
  | 12 => zer (d + a + b + p) (.ok .gret)
  | 13 =>
    match b with
    | 0 => zer p (.ok (.slateMin (r5 d) (r5 a)))
    | 1 => zer p (.ok (.slateSet (r5 d) (r5 a)))
    | 2 => zer p (.ok (.slateRgn (r5 d) (r5 a)))
    | 3 => zer (a + p) (.ok (.slateRd (r5 d)))
    | 4 => zer p (.ok (.slateFold (r5 d) (r5 a)))
    | _ => .error ⟨1, 3, false⟩
  | 14 =>
    match b with
    | 0 => zer p (.ok (.slchk (r5 d) (r5 a)))
    | 1 => zer p (.ok (.slchkTrap (r5 d) (r5 a)))
    | _ => .error ⟨1, 3, false⟩
  | 15 =>
    match b with
    | 0 => zer (a + p) (.ok (.time (r5 d)))
    | 1 => zer (a + p) (.ok (.timeSinceClapper (r5 d)))
    | 2 => zer (a + p) (.ok (.timeToEgress (r5 d)))
    | _ => .error ⟨1, 3, false⟩
  | 16 => zer (b + p) (.ok (.kill (r5 d) (r5 a)))
  | 17 => zer p (.ok (.invpg (r5 d) (r5 a) (r5 b)))
  | 31 => .ok (.hint (r5 d) (r5 a) (r5 b) (r5 p))
  | _ => bad0

/-- ALU-R, major 0x01 (Table 5.6). -/
def decAlu (w : Nat) : DecRes :=
  let d := r5 (wd w); let a := r5 (wa w); let b := r5 (wb w)
  match wmin w with
  | 0 => .ok (.add d a b) | 1 => .ok (.sub d a b) | 2 => .ok (.and d a b) | 3 => .ok (.or d a b)
  | 4 => .ok (.xor d a b) | 5 => .ok (.shl d a b) | 6 => .ok (.shr d a b) | 7 => .ok (.sra d a b)
  | 8 => .ok (.rotl d a b) | 9 => .ok (.mul d a b) | 10 => .ok (.mulh d a b) | 11 => .ok (.mulhu d a b)
  | 12 => .ok (.div d a b) | 13 => .ok (.divu d a b) | 14 => .ok (.rem d a b) | 15 => .ok (.remu d a b)
  | 16 => .ok (.min d a b) | 17 => .ok (.max d a b) | 18 => .ok (.minu d a b) | 19 => .ok (.maxu d a b)
  | 20 => .ok (.slt d a b) | 21 => .ok (.sltu d a b)
  | 22 => zer b.val (.ok (.clz d a)) | 23 => zer b.val (.ok (.ctz d a)) | 24 => zer b.val (.ok (.popc d a))
  | 25 => zer b.val (.ok (.bswap d a)) | 26 => zer b.val (.ok (.sextb d a)) | 27 => zer b.val (.ok (.sexth d a))
  | 28 => zer b.val (.ok (.sextw d a)) | 29 => zer b.val (.ok (.zextb d a)) | 30 => zer b.val (.ok (.zexth d a))
  | 31 => zer b.val (.ok (.zextw d a)) | 32 => .ok (.sel d a b)
  | _ => bad0

/-- SHIFTI, major 0x06 (R115). -/
def decShift (w : Nat) : DecRes :=
  let d := r5 (wd w); let a := r5 (wa w); let n := BitVec.ofNat 6 w; let res := w / 2 ^ 6 % 64
  match wsize w with
  | 0 => zer res (.ok (.shli d a n)) | 1 => zer res (.ok (.shri d a n))
  | 2 => zer res (.ok (.srai d a n)) | 3 => zer res (.ok (.rotli d a n))
  | _ => bad0

/-- SHIFTI with S = 1 (R115). Where the short immediate and a reserved bit of the extension are both not 0, subcode 1 of
cause 0x02 is reported (DESIGN CHOICE, log entry 125: R31 does not order the subcodes of one cause). -/
def decShiftLong (w x : Nat) : DecRes :=
  let d := r5 (wd w); let a := r5 (wa w); let n := BitVec.ofNat 6 x
  let k (i : Instr) : DecRes := zer1 (w % 2 ^ 15) (zerX (x / 2 ^ 15 + x / 2 ^ 6 % 64) (.ok i))
  match x / 2 ^ 12 % 8 with
  | 0 => k (.shliLong d a n) | 1 => k (.shriLong d a n) | 2 => k (.sraiLong d a n) | 3 => k (.rotliLong d a n)
  | _ => .error ⟨1, 0, true⟩

/-- LEA and GADDR, major 0x0A. -/
def decLea (w : Nat) : DecRes :=
  let d := r5 (wd w); let a := r5 (wa w); let b := r5 (wb w)
  match wmin w with
  | 0 => .ok (.leaScale1 d a b) | 1 => .ok (.leaScale2 d a b) | 2 => .ok (.leaScale4 d a b)
  | 3 => .ok (.leaScale8 d a b) | 4 => .ok (.gaddr d a b)
  | _ => bad0

/-- LOAD, major 0x13 (Table 2.4). -/
def decLoad (w : Nat) : DecRes :=
  let d := r5 (wd w); let a := r5 (wa w); let o := BitVec.ofNat 12 w
  match wsize w with
  | 0 => .ok (.ldb d a o) | 1 => .ok (.ldh d a o) | 2 => .ok (.ldw d a o) | 3 => .ok (.ldd d a o)
  | 4 => .ok (.ldbu d a o) | 5 => .ok (.ldhu d a o) | 6 => .ok (.ldwu d a o) | _ => chk (.ldq d a o) id

/-- LOAD with S = 1. -/
def decLoadLong (w x : Nat) : DecRes :=
  let d := r5 (wd w); let a := r5 (wa w); let o := BitVec.ofNat 32 x; let z := zer1 (w % 2 ^ 12)
  match wsize w with
  | 0 => z (.ok (.ldbLong d a o)) | 1 => z (.ok (.ldhLong d a o)) | 2 => z (.ok (.ldwLong d a o))
  | 3 => z (.ok (.lddLong d a o)) | 4 => z (.ok (.ldbuLong d a o)) | 5 => z (.ok (.ldhuLong d a o))
  | 6 => z (.ok (.ldwuLong d a o)) | _ => chk (.ldqLong d a o) z

/-- STORE, major 0x14 (Table 2.4). -/
def decStore (w : Nat) : DecRes :=
  let d := r5 (wd w); let a := r5 (wa w); let o := BitVec.ofNat 12 w
  match wsize w with
  | 0 => .ok (.stb d a o) | 1 => .ok (.sth d a o) | 2 => .ok (.stw d a o) | 3 => .ok (.std d a o)
  | 7 => chk (.stq d a o) id
  | _ => bad0

/-- STORE with S = 1. -/
def decStoreLong (w x : Nat) : DecRes :=
  let d := r5 (wd w); let a := r5 (wa w); let o := BitVec.ofNat 32 x; let z := zer1 (w % 2 ^ 12)
  match wsize w with
  | 0 => z (.ok (.stbLong d a o)) | 1 => z (.ok (.sthLong d a o)) | 2 => z (.ok (.stwLong d a o))
  | 3 => z (.ok (.stdLong d a o)) | 7 => chk (.stqLong d a o) z
  | _ => bad0

/-- Full/empty operations, major 0x15 (Table 8.11). -/
def decFe (w : Nat) : DecRes :=
  let d := r5 (wd w); let a := r5 (wa w); let o := BitVec.ofNat 12 w
  match wsize w with
  | 0 => .ok (.ldf d a o) | 1 => .ok (.ldc d a o) | 2 => .ok (.stf d a o) | 3 => .ok (.stfo d a o)
  | 4 => zer d.val (.ok (.empty a o)) | 5 => .ok (.feq d a o)
  | _ => bad0

/-- Full/empty operations with S = 1. -/
def decFeLong (w x : Nat) : DecRes :=
  let d := r5 (wd w); let a := r5 (wa w); let o := BitVec.ofNat 32 x; let z := zer1 (w % 2 ^ 12)
  match wsize w with
  | 0 => z (.ok (.ldfLong d a o)) | 1 => z (.ok (.ldcLong d a o)) | 2 => z (.ok (.stfLong d a o))
  | 3 => z (.ok (.stfoLong d a o)) | 4 => zer d.val (z (.ok (.emptyLong a o))) | 5 => z (.ok (.feqLong d a o))
  | _ => bad0

/-- Vector memory, major 0x16 (Table 8.12). -/
def decVmem (w : Nat) : DecRes :=
  let d := r5 (wd w); let a := r5 (wa w); let o := BitVec.ofNat 12 w
  let b := r5 (w / 2 ^ 7 % 32); let o7 := BitVec.ofNat 7 w
  match wsize w with
  | 0 => .ok (.vld d a o) | 1 => .ok (.vst d a o) | 2 => .ok (.vlds d a b o7) | 3 => .ok (.vsts d a b o7)
  | 4 => .ok (.vgath d a b o7) | 5 => .ok (.vscat d a b o7)
  | _ => bad0

/-- Vector memory with S = 1. -/
def decVmemLong (w x : Nat) : DecRes :=
  let d := r5 (wd w); let a := r5 (wa w); let o := BitVec.ofNat 32 x
  let b := r5 (w / 2 ^ 7 % 32); let z := zer1 (w % 2 ^ 12); let z7 := zer1 (w % 2 ^ 7)
  match wsize w with
  | 0 => z (.ok (.vldLong d a o)) | 1 => z (.ok (.vstLong d a o)) | 2 => z7 (.ok (.vldsLong d a b o))
  | 3 => z7 (.ok (.vstsLong d a b o)) | 4 => z7 (.ok (.vgathLong d a b o)) | 5 => z7 (.ok (.vscatLong d a b o))
  | _ => bad0

/-- Atomics, major 0x17 (Table 2.7). -/
def decAmo (w : Nat) : DecRes :=
  let d := r5 (wd w); let a := r5 (wa w); let b := r5 (wb w); let p := wpar w
  match amoWOf (p % 4) with
  | none => bad0
  | some wi =>
    let q : AmoP := ⟨wi, p / 4 % 2 == 1, p / 8 % 2 == 1⟩
    let z := zer (p / 16)
    match wop w with
    | 0 => chk (.amoadd q d a b) z | 1 => chk (.amoand q d a b) z | 2 => chk (.amoor q d a b) z
    | 3 => chk (.amoxor q d a b) z | 4 => chk (.amomin q d a b) z | 5 => chk (.amomax q d a b) z
    | 6 => chk (.amominu q d a b) z | 7 => chk (.amomaxu q d a b) z | 8 => chk (.amoswap q d a b) z
    | 9 => chk (.amocas q d a b) z
    | _ => bad0

/-- Cache instructions, major 0x18 (Table 8.13). -/
def decCache (w : Nat) : DecRes :=
  let d := wd w; let a := r5 (wa w); let o := BitVec.ofNat 12 w
  match wsize w with
  | 0 => zer d (.ok (.pref a o)) | 1 => zer d (.ok (.cwb a o)) | 2 => zer d (.ok (.cinv a o))
  | 3 => zer d (.ok (.cwbinv a o)) | 4 => zer d (.ok (.cwbL2 a o))
  | _ => bad0

/-- Cache instructions with S = 1. Where several conditions of cause 0x02 hold in one word, the lower subcode is reported,
here as in EMPTY, COPY and ACC.WR (DESIGN CHOICE, log entry 125: R31 does not order the subcodes of one cause). -/
def decCacheLong (w x : Nat) : DecRes :=
  let d := wd w; let a := r5 (wa w); let o := BitVec.ofNat 32 x
  let z (i : Instr) : DecRes := zer d (zer1 (w % 2 ^ 12) (.ok i))
  match wsize w with
  | 0 => z (.prefLong a o) | 1 => z (.cwbLong a o) | 2 => z (.cinvLong a o)
  | 3 => z (.cwbinvLong a o) | 4 => z (.cwbL2Long a o)
  | _ => bad0

/-- MSG, major 0x19 (Table 10.7). -/
def decMsg (w : Nat) : DecRes :=
  let d := r5 (wd w); let a := r5 (wa w); let b := r5 (wb w); let p := wpar w; let n := BitVec.ofNat 4 p
  match wop w with
  | 0 => chk (.send a b n) (zer (d.val + p / 16))
  | 1 => chk (.sendq a b n) (zer (d.val + p / 16))
  | 2 => zer d.val (.ok (.sendr a b (r5 p)))
  | 3 => zer (d.val + p / 2) (.ok (if p % 2 = 1 then .replyQ a b else .reply a b))
  | 4 => zer (d.val + b.val + p) (.ok (.cut a))
  | 5 => chk (.putn d a b n) (zer (p / 16))
  | 6 =>
    match p with
    | 0 => chk (.getr d a b) id
    | 1 => chk (.getrArm d) (zer (a.val + b.val))
    | 2 => chk (.getrDis d) (zer (a.val + b.val))
    | _ => bad0
  | 7 => zer p (.ok (.qpop d a b))
  | 8 => zer p (.ok (.qpeek d a b))
  | 9 => zer (b.val + p / 2) (.ok (if p % 2 = 1 then .qstatClr d a else .qstat d a))
  | _ => bad0

/-- SCHED, major 0x1A (Table 4.6). -/
def decSched (w : Nat) : DecRes :=
  let d := r5 (wd w); let a := r5 (wa w); let b := r5 (wb w); let p := wpar w
  match wop w with
  | 0 => chk (.spawn d a b (r5 p)) id
  | 1 => chk (.forkR d a b (r5 p)) id
  | 2 =>
    match p with
    | 0 => .ok (.join d a b) | 1 => .ok (.joinOpen d a b)
    | 2 => zer b.val (.ok (.joinSeal d a)) | 3 => zer b.val (.ok (.joinWait d a))
    | _ => bad0
  | 3 =>
    match p with
    | 0 => zer b.val (.ok (.budgetAct d a)) | 1 => zer b.val (.ok (.budgetTake d a))
    | _ => bad0
  | _ => bad0

/-- SYNC, major 0x1B (Table 11.5). -/
def decSync (w : Nat) : DecRes :=
  let d := r5 (wd w); let a := r5 (wa w); let b := r5 (wb w); let p := wpar w; let h := Fin.ofNat 16 (wa w)
  match wop w with
  | 0 => zer (d.val + p) (.ok (.barInit a b))
  | 1 => withScope p fun s => zer b.val (.ok (.barArr s d a))
  | 2 => withScope p fun s => zer d.val (.ok (.barWait s a b))
  | 3 => withScope p fun s => zer b.val (.ok (.barArw s d a))
  | 4 => zer (d.val + p) (.ok (.barTx a b))
  | 5 => zer (b.val + p) (.ok (.barQry d a))
  | 6 => lim (wa w < 16) (chk (.ringWaitf d h (r5 p)) (zer b.val))
  | 7 => lim (wa w < 16) (chk (.ringWaite d h (r5 p)) (zer b.val))
  | 8 => lim (wa w < 16) (chk (.ringAdvp h (r5 p)) (zer (d.val + b.val)))
  | 9 => lim (wa w < 16) (chk (.ringAdvc h (r5 p)) (zer (d.val + b.val)))
  | 10 => lim (wa w < 16) (zer (b.val + p) (.ok (.ringQry d h)))
  | 11 => zer (b.val + p) (.ok (.grpMem d a))
  | _ => bad0

/-- TREE, major 0x1C (Table 11.6). -/
def decTree (w : Nat) : DecRes :=
  let d := r5 (wd w); let a := r5 (wa w); let b := r5 (wb w)
  match redOf (wpar w) with
  | none => bad0
  | some op =>
    match wop w with
    | 0 => .ok (.red op d a b) | 1 => .ok (.scan op d a b) | 2 => zer (wpar w) (.ok (.bcast d a b))
    | 3 => zer (b.val + wpar w) (.ok (.treeWait d a))
    | _ => bad0

/-- POOL, major 0x1D (Table 6.7). -/
def decPool (w : Nat) : DecRes :=
  let d := r5 (wd w); let a := r5 (wa w)
  match wmin w with
  | 0 => zer (wb w) (.ok (.poolSet d a)) | 1 => zer (wb w) (.ok (.poolQry d a))
  | 2 => zer (wb w) (.ok (.poolPin d a)) | 3 => zer (wb w) (.ok (.poolUnpin d a))
  | _ => bad0

/-- COPY, major 0x1E (Table 13.7). -/
def decCopy (w x : Nat) : DecRes :=
  let d := r5 (wd w); let a := r5 (wa w)
  match wmin w with
  | 0 => chk (.cpy d a (cpyFieldOf x)) fun k => zer (wb w) (zerX (x / 2 ^ 22) k)
  | 1 => zer (wb w) (zerX x (.ok (.cpyCancel d a)))
  | 2 => zer (wb w) (zerX (x / 2) (.ok (.cpyStat d a (x % 2 == 1))))
  | _ => bad0

/-- STREAM in the pair form, major 0x1F (Table 7.2). -/
def decStream (w : Nat) : DecRes :=
  match wmin w with
  | 0 => bad4
  | 1 => lim (wa w < 8) (zer (wd w + wb w) (.ok (.sclose (Fin.ofNat 8 (wa w)))))
  | 2 => lim (wa w < 8) (zer (wb w) (.ok (.sstat (r5 (wd w)) (Fin.ofNat 8 (wa w)))))
  | _ => bad0

/-- STREAM with S = 1 (Table 7.2). DESIGN CHOICE: an unassigned field code of the extension word, subcode 0, is reported before
a number in word 0 that is too large, subcode 3 (log entry 125). -/
def decStreamLong (w x : Nat) : DecRes :=
  match wmin w with
  | 0 => asgX (x % 4 < 2 && x / 4 % 4 < 3) (lim (wd w < 8) (zerX (x / 2 ^ 4)
      (.ok (.scfg (Fin.ofNat 8 (wd w)) (r5 (wa w)) (r5 (wb w)) (x % 2 == 1)
        (if x / 4 % 4 = 0 then .w32 else if x / 4 % 4 = 1 then .h16 else .b8)))))
  | 1 => bad4
  | 2 => bad4
  | _ => bad0

/-- NUM, major 0x20 (Table 5.11). -/
def decNum (w : Nat) : DecRes :=
  let d := r5 (wd w); let a := r5 (wa w); let b := r5 (wb w)
  match wmin w with
  | 0 => chk (.rand d a b) id | 1 => chk (.cvtfx d a b) id | 2 => chk (.cvtxf d a b) id
  | _ => bad0

/-- The deprecated forms, major 0x27 (Table 2.11); `anop` says that word 1 is ANOP (R46). -/
def decOld (compat anop : Bool) (w : Nat) : DecRes :=
  let d := r5 (wd w); let a := r5 (wa w); let b := r5 (wb w)
  let k (i : Instr) : DecRes :=
    if !compat then .error ⟨0x3E, 0, false⟩ else if !anop then .error ⟨1, 5, false⟩ else chk i id
  match wmin w with
  | 0 => k (.ldm d a b) | 1 => k (.stm d a b) | 2 => k (.vdotI8 d a b) | 3 => k (.maca d a b)
  | _ => bad0

/-- VFP, major 0x28 (Table 7.5). -/
def decVfp (w : Nat) : DecRes :=
  let d := r5 (wd w); let a := r5 (wa w); let b := r5 (wb w); let p := wpar w
  match lanesOf (p / 8) with
  | none => bad0
  | some l =>
    let rnd (k : Rnd → DecRes) : DecRes := match rndOf (p % 8) with | some r => k r | none => bad0
    match wop w with
    | 0 => rnd fun r => .ok (.vadd l r d a b)
    | 1 => rnd fun r => .ok (.vsub l r d a b)
    | 2 => rnd fun r => .ok (.vmul l r d a b)
    | 3 => zer (p % 8) (.ok (.vmin l d a b))
    | 4 => zer (p % 8) (.ok (.vmax l d a b))
    | 5 => zer (p % 8 + b.val) (.ok (.vabs l d a))
    | 6 => zer (p % 8 + b.val) (.ok (.vneg l d a))
    | 7 => rnd fun r => .ok (.vdiv l r d a b)
    | 8 => rnd fun r => zer b.val (.ok (.vsqrt l r d a))
    | _ => bad0

/-- VFMA, major 0x29 (Table 7.6). -/
def decVfma (w : Nat) : DecRes :=
  let d := r5 (wd w); let a := r5 (wa w); let b := r5 (wb w); let c := r5 (wop w)
  match wpar w with
  | 0 => .ok (.vfma d a b c) | 1 => .ok (.vfms d a b c) | 2 => .ok (.vfnma d a b c) | 3 => .ok (.vfnms d a b c)
  | _ => bad0

/-- VINT, major 0x2A (Table 7.7). -/
def decVint (w : Nat) : DecRes :=
  let d := r5 (wd w); let a := r5 (wa w); let b := r5 (wb w)
  match wmin w with
  | 0 => .ok (.vaddI d a b) | 1 => .ok (.vsubI d a b) | 2 => .ok (.vmulI d a b) | 3 => .ok (.vmulhI d a b)
  | 4 => .ok (.vand d a b) | 5 => .ok (.vor d a b) | 6 => .ok (.vxor d a b) | 7 => .ok (.vshl d a b)
  | 8 => .ok (.vshr d a b) | 9 => .ok (.vsra d a b) | 10 => .ok (.vminI d a b) | 11 => .ok (.vmaxI d a b)
  | 12 => .ok (.vminuI d a b) | 13 => .ok (.vmaxuI d a b) | 14 => .ok (.vdot4I8 d a b)
  | _ => bad0

/-- VCMP, major 0x2B (Table 7.8). -/
def decVcmp (w : Nat) : DecRes :=
  let d := r5 (wd w); let a := r5 (wa w); let b := r5 (wb w); let p := wpar w
  let md := Fin.ofNat 8 (wd w); let ma := Fin.ofNat 8 (wa w); let mb := Fin.ofNat 8 (wb w)
  let dm := decide (wd w < 8); let am := decide (wa w < 8); let bm := decide (wb w < 8)
  match wop w with
  | 0 =>
    match condOf (p % 8) with
    | none => bad0
    | some c => chk (.vcmp (cmpLanesOf (p / 8)) c md a b) fun k => lim dm k
  | 1 => lim bm (zer p (.ok (.vsel d a mb)))
  | 2 => lim (dm && am && bm) (zer p (.ok (.mand md ma mb)))
  | 3 => lim (dm && am && bm) (zer p (.ok (.mor md ma mb)))
  | 4 => lim (dm && am && bm) (zer p (.ok (.mxor md ma mb)))
  | 5 => lim (dm && am) (zer (b.val + p) (.ok (.mnot md ma)))
  | 6 => lim (dm && am) (zer (b.val + p) (.ok (.mmov md ma)))
  | 7 => lim dm (zer (b.val + p) (.ok (.mset md a)))
  | 8 => lim am (zer (b.val + p) (.ok (.mpopc d ma)))
  | _ => bad0

/-- VSFU, major 0x2C (Table 7.9). -/
def decVsfu (w : Nat) : DecRes :=
  let d := r5 (wd w); let a := r5 (wa w); let z (i : Instr) : DecRes := zer (wb w) (.ok i)
  match wmin w with
  | 0 => z (.vrcp d a) | 1 => z (.vrsq d a) | 2 => z (.vexp2 d a) | 3 => z (.vlog2 d a) | 4 => z (.vtanh d a)
  | 5 => z (.vsigm d a)
  | _ => bad0

/-- VCVT, major 0x2D (R168). -/
def decVcvt (w : Nat) : DecRes :=
  let d := r5 (wd w); let a := r5 (wa w); let b := r5 (wb w)
  match wop w with
  | 0 => asg (wpar w < 26) (zer b.val (.ok (.vcvt (Fin.ofNat 26 (wpar w)) d a)))
  | 1 => asg (wpar w < 26) (chk (.vcvtSr (Fin.ofNat 26 (wpar w)) d a b) id)
  | _ => bad0

/-- VMOVE, major 0x2F (Table 7.11). -/
def decVmove (w : Nat) : DecRes :=
  let d := r5 (wd w); let a := r5 (wa w); let b := r5 (wb w); let p := wpar w; let ln := Fin.ofNat 16 p
  match wop w with
  | 0 => zer (b.val + p) (.ok (.vmov d a))
  | 1 => zer (b.val + p) (.ok (.vbcast d a))
  | 2 => zer (b.val + p / 16) (.ok (.vext d a ln))
  | 3 => zer (b.val + p / 16) (.ok (.vins d a ln))
  | 4 => zer p (.ok (.vperm d a b))
  | 5 => match redOf p with | some o => zer b.val (.ok (.vred o d a)) | none => bad0
  | 6 => match redOf p with | some o => zer b.val (.ok (.vscan o d a)) | none => bad0
  | _ => bad0

/-- VSEQ, major 0x30 (Table 7.4). -/
def decVseq (w : Nat) : DecRes :=
  let p := wpar w; let n := Fin.ofNat 16 p
  match wop w with
  | 0 =>
    if p / 16 = 0 then zer (wd w + wb w) (.ok (.vseq (r5 (wa w)) n))
    else lim (wa w < 8) (zer (wd w + wb w) (.ok (.vseqS (Fin.ofNat 8 (wa w)) n)))
  | 1 => lim (wa w < 8) (zer (wd w + wb w + p) (.ok (.vseqStop (Fin.ofNat 8 (wa w)))))
  | _ => bad0

/-- CONV, major 0x31 (Table 13.11). -/
def decConv (w x : Nat) : DecRes :=
  let d := r5 (wd w); let a := r5 (wa w); let b := r5 (wb w); let f := convFieldOf x
  let z := zerX (x / 2 ^ 21 % 8)
  match wmin w with
  | 0 => chk (.cvtMx d a b f) z | 1 => chk (.cvtUnmx d a b f) z | 2 => chk (.rescaleMx d a b f) z
  | 3 => chk (.transp d a b f) z
  | _ => bad0

/-- MATRIX, major 0x32 (Tables 12.3, 12.4). -/
def decMatrix (w x : Nat) : DecRes :=
  let f := mmaFieldOf x; let ha := Fin.ofNat 16 (wa w); let hb := Fin.ofNat 16 (wb w)
  let hs := decide (wa w < 16 ∧ wb w < 16); let z := zerX (x / 2 ^ 26 + x / 2 ^ 21 % 2)
  match wmin w with
  | 0 => lim (hs && wd w < 2) (chk (.mma (Fin.ofNat 2 (wd w)) ha hb f) z)
  | 1 => lim hs (chk (.mmaG (r5 (wd w)) ha hb f) z)
  | 2 => lim (hs && wd w < 2) (chk (.mmrot (Fin.ofNat 2 (wd w)) ha hb f) z)
  | _ => bad0

/-- ACC in the pair form, major 0x33 (Table 12.5). -/
def decAcc (w : Nat) : DecRes :=
  match wmin w with
  | 0 => lim (wd w < 2) (zer (wa w + wb w) (.ok (.accClr (Fin.ofNat 2 (wd w)))))
  | 1 => lim (wd w < 2) (zer (wb w) (.ok (.accAnch (Fin.ofNat 2 (wd w)) (r5 (wa w)))))
  | 2 => bad4
  | 3 => bad4
  | 4 => lim (wa w < 2) (zer (wb w) (.ok (.accStat (r5 (wd w)) (Fin.ofNat 2 (wa w)))))
  | _ => bad0

/-- ACC with S = 1 (Tables 12.5, 12.6). -/
def decAccLong (w x : Nat) : DecRes :=
  let f := accFieldOf x
  match wmin w with
  | 2 => asgX (accRdCodeOk f.fmt) (lim (wd w < 2)
      (chk (.accRd (Fin.ofNat 2 (wd w)) (r5 (wa w)) (r5 (wb w)) f) (zerX (x / 2 ^ 16))))
  | 3 => asgX (accWrCodeOk f.fmt) (lim (wd w < 2)
      (chk (.accWr (Fin.ofNat 2 (wd w)) (r5 (wa w)) f) fun k => zer (wb w) (zerX (x / 2 ^ 16) k)))
  | 0 => bad4
  | 1 => bad4
  | 4 => bad4
  | _ => bad0

/-- LINK, major 0x34 (Table 13.12). -/
def decLink (w : Nat) : DecRes :=
  match wmin w with
  | 0 => zer (wb w) (.ok (.linkCfg (r5 (wd w)) (r5 (wa w))))
  | 1 => zer (wa w + wb w) (.ok (.linkStat (r5 (wd w))))
  | _ => bad0

/-- A 32-bit instruction word, whatever its class (Table 2.6). `compat` is STATUS.COMPAT, and `anop` says that
the other word of the pair is ANOP. -/
def decode32 (compat anop : Bool) (w : Nat) : DecRes :=
  let d := r5 (wd w); let a := r5 (wa w); let i15 := BitVec.ofNat 15 w
  match w / 2 ^ 25 % 64 with
  | 0x00 => decSys w
  | 0x01 => decAlu w
  | 0x02 => .ok (.addi d a i15) | 0x03 => .ok (.andi d a i15) | 0x04 => .ok (.ori d a i15)
  | 0x05 => .ok (.xori d a i15)
  | 0x06 => decShift w
  | 0x07 => .ok (.slti d a i15) | 0x08 => .ok (.sltiu d a i15)
  | 0x09 => .ok (.movhi d (BitVec.ofNat 20 w))
  | 0x0A => decLea w
  | 0x0B => .ok (.beq d a i15) | 0x0C => .ok (.bne d a i15) | 0x0D => .ok (.blt d a i15)
  | 0x0E => .ok (.bge d a i15) | 0x0F => .ok (.bltu d a i15) | 0x10 => .ok (.bgeu d a i15)
  | 0x11 => .ok (.jal d (BitVec.ofNat 20 w))
  | 0x12 => .ok (.jalr d a i15)
  | 0x13 => decLoad w
  | 0x14 => decStore w
  | 0x15 => decFe w
  | 0x16 => decVmem w
  | 0x17 => decAmo w
  | 0x18 => decCache w
  | 0x19 => decMsg w
  | 0x1A => decSched w
  | 0x1B => decSync w
  | 0x1C => decTree w
  | 0x1D => decPool w
  | 0x1E => if wmin w < 3 then bad4 else bad0
  | 0x1F => decStream w
  | 0x20 => decNum w
  | 0x27 => decOld compat anop w
  | 0x28 => decVfp w
  | 0x29 => decVfma w
  | 0x2A => decVint w
  | 0x2B => decVcmp w
  | 0x2C => decVsfu w
  | 0x2D => decVcvt w
  | 0x2E => if wmin w = 0 then .ok (.vrand d a (r5 (wb w))) else bad0
  | 0x2F => decVmove w
  | 0x30 => decVseq w
  | 0x31 => if wmin w < 4 then bad4 else bad0
  | 0x32 => if wmin w < 3 then bad4 else bad0
  | 0x33 => decAcc w
  | 0x34 => decLink w
  | 0x3F => zer (w % 2 ^ 25) (.ok .anop)
  | _ => bad0

/-- The fault of an S = 1 word of a major with no such form: its code is unassigned, or the instruction has no 64-bit form
(Table 2.9). DESIGN CHOICE: an unassigned major, minor or op reports subcode 0 and not 4; R31 lists both in one step (log
entry 125). -/
def noLong (w : Nat) : DecRes := match decode32 true true w with
  | .error e => if e.cause = 1 ∧ e.sub = 0 then bad0 else bad4
  | .ok _ => bad4

/-- A 64-bit instruction: word 0 and its extension (R28, R35). -/
def decode64 (w x : Nat) : DecRes :=
  let d := r5 (wd w); let a := r5 (wa w); let i32 := BitVec.ofNat 32 x; let z := zer1 (w % 2 ^ 15)
  match w / 2 ^ 25 % 64 with
  | 0x02 => z (.ok (.addiLong d a i32)) | 0x03 => z (.ok (.andiLong d a i32)) | 0x04 => z (.ok (.oriLong d a i32))
  | 0x05 => z (.ok (.xoriLong d a i32))
  | 0x06 => decShiftLong w x
  | 0x07 => z (.ok (.sltiLong d a i32)) | 0x08 => z (.ok (.sltiuLong d a i32))
  | 0x0B => z (.ok (.beqLong d a i32)) | 0x0C => z (.ok (.bneLong d a i32)) | 0x0D => z (.ok (.bltLong d a i32))
  | 0x0E => z (.ok (.bgeLong d a i32)) | 0x0F => z (.ok (.bltuLong d a i32)) | 0x10 => z (.ok (.bgeuLong d a i32))
  | 0x11 => zer1 (w % 2 ^ 20) (.ok (.jalLong d i32))
  | 0x12 => z (.ok (.jalrLong d a i32))
  | 0x13 => decLoadLong w x
  | 0x14 => decStoreLong w x
  | 0x15 => decFeLong w x
  | 0x16 => decVmemLong w x
  | 0x18 => decCacheLong w x
  | 0x1E => decCopy w x
  | 0x1F => decStreamLong w x
  | 0x31 => decConv w x
  | 0x32 => decMatrix w x
  | 0x33 => decAccLong w x
  | _ => noLong w

/-- What a bundle reads as: a 64-bit instruction, a pair, or a fault of the bundle's form in the word given
(R27, R31). -/
inductive BundleDec where
  | one (r : DecRes)
  | two (r0 r1 : DecRes)
  | malformed (cause sub word : Nat)

/-- The bundle of two words, checked in the order of R31, items 1 and 2. -/
def decodeBundle (compat : Bool) (w0 w1 : Nat) : BundleDec :=
  if w0 / 2 ^ 31 % 2 = 1 then .one (decode64 w0 w1)
  else if w1 / 2 ^ 31 % 2 = 1 then .malformed 2 2 1
  else if w0 / 2 ^ 25 % 64 ≥ 0x28 then .malformed 1 2 0
  else if w1 / 2 ^ 25 % 64 < 0x28 then .malformed 1 2 1
  else .two (decode32 compat (w1 == 0x7E000000) w0) (decode32 compat true w1)

/-- Where an instruction stands in its bundle, with its words. -/
inductive Enc where
  | c (w : Nat)
  | a (w : Nat)
  | x (w0 ext : Nat)
  deriving DecidableEq, Repr

/-- A word of format R (Table 2.2), with the minor. -/
def wR (major d a b minor : Nat) : Nat := major * 2 ^ 25 + d * 2 ^ 20 + a * 2 ^ 15 + b * 2 ^ 10 + minor
/-- A word of format R, op:param. -/
def wP (major d a b op par : Nat) : Nat := wR major d a b (op * 32 + par)
/-- A word of format M. -/
def wM (major d a size off : Nat) : Nat := major * 2 ^ 25 + d * 2 ^ 20 + a * 2 ^ 15 + size * 2 ^ 12 + off
/-- A word of format I or B. -/
def wI (major d a imm : Nat) : Nat := major * 2 ^ 25 + d * 2 ^ 20 + a * 2 ^ 15 + imm
/-- A word of format J or U. -/
def wU (major d imm : Nat) : Nat := major * 2 ^ 25 + d * 2 ^ 20 + imm

/-- The pair form in word 0 of an R-format instruction. -/
def cR (major : Nat) (d a b : Fin 32) (minor : Nat) : Option Enc := some (.c (wR major d a b minor))
/-- The pair form in word 1 of an R-format instruction. -/
def aR (major : Nat) (d a b minor : Nat) : Option Enc := some (.a (wR major d a b minor))
/-- The S = 1 form. -/
def xW (w ext : Nat) : Option Enc := some (.x (2 ^ 31 + w) ext)
/-- The param of an atomic (Table 2.7). -/
def amoPar (p : AmoP) : Nat := amoWCode p.w + 4 * b2n p.acq + 8 * b2n p.rel
/-- An atomic's word. -/
def amoEnc (op : Nat) (p : AmoP) (d a b : GReg) : Option Enc := some (.c (wP 0x17 d a b op (amoPar p)))
/-- A VFP word. -/
def vfpEnc (op : Nat) (l : Lanes) (r : Nat) (d a b : Nat) : Option Enc :=
  some (.a (wP 0x28 d a b op (lanesCode l * 8 + r)))
/-- A system register or table number split over fields a and b. -/
def sysEnc (op d n : Nat) : Option Enc := some (.c (wP 0 d (n / 32) (n % 32) op 0))

/-- The words of an instruction; none for an event of the device, which has no encoding. -/
def encode : Instr → Option Enc
  | .nop => some (.c 0)
  | .anop => some (.a (0x3F * 2 ^ 25))
  | .hint d a b n => some (.c (wP 0 d a b 31 n))
  | .endAct => some (.c (wP 0 0 0 0 1 0))
  | .yield => some (.c (wP 0 0 0 0 2 0))
  | .fenceRel s => some (.c (wP 0 2 0 0 3 (scopeCode s)))
  | .fenceAcq s => some (.c (wP 0 1 0 0 3 (scopeCode s)))
  | .fenceAr s => some (.c (wP 0 3 0 0 3 (scopeCode s)))
  | .ifence s => some (.c (wP 0 0 0 0 4 (scopeCode s)))
  | .tret => some (.c (wP 0 0 0 0 5 0))
  | .syscall n => sysEnc 6 0 n.toNat
  | .brk n => sysEnc 7 0 n.toNat
  | .snap d => some (.c (wP 0 d 0 0 8 0))
  | .sysr d n => sysEnc 9 d n.toNat
  | .sysw n r => sysEnc 10 r n.toNat
  | .gate d n => sysEnc 11 d n.toNat
  | .gret => some (.c (wP 0 0 0 0 12 0))
  | .slateMin d a => some (.c (wP 0 d a 0 13 0))
  | .slateSet d a => some (.c (wP 0 d a 1 13 0))
  | .slateRgn d a => some (.c (wP 0 d a 2 13 0))
  | .slateRd d => some (.c (wP 0 d 0 3 13 0))
  | .slateFold d a => some (.c (wP 0 d a 4 13 0))
  | .slchk d a => some (.c (wP 0 d a 0 14 0))
  | .slchkTrap d a => some (.c (wP 0 d a 1 14 0))
  | .time d => some (.c (wP 0 d 0 0 15 0))
  | .timeSinceClapper d => some (.c (wP 0 d 0 1 15 0))
  | .timeToEgress d => some (.c (wP 0 d 0 2 15 0))
  | .kill d a => some (.c (wP 0 d a 0 16 0))
  | .invpg d a b => some (.c (wP 0 d a b 17 0))
  | .add d a b => cR 1 d a b 0 | .sub d a b => cR 1 d a b 1 | .and d a b => cR 1 d a b 2
  | .or d a b => cR 1 d a b 3 | .xor d a b => cR 1 d a b 4 | .shl d a b => cR 1 d a b 5
  | .shr d a b => cR 1 d a b 6 | .sra d a b => cR 1 d a b 7 | .rotl d a b => cR 1 d a b 8
  | .mul d a b => cR 1 d a b 9 | .mulh d a b => cR 1 d a b 10 | .mulhu d a b => cR 1 d a b 11
  | .div d a b => cR 1 d a b 12 | .divu d a b => cR 1 d a b 13 | .rem d a b => cR 1 d a b 14
  | .remu d a b => cR 1 d a b 15 | .min d a b => cR 1 d a b 16 | .max d a b => cR 1 d a b 17
  | .minu d a b => cR 1 d a b 18 | .maxu d a b => cR 1 d a b 19 | .slt d a b => cR 1 d a b 20
  | .sltu d a b => cR 1 d a b 21 | .clz d a => cR 1 d a 0 22 | .ctz d a => cR 1 d a 0 23
  | .popc d a => cR 1 d a 0 24 | .bswap d a => cR 1 d a 0 25 | .sextb d a => cR 1 d a 0 26
  | .sexth d a => cR 1 d a 0 27 | .sextw d a => cR 1 d a 0 28 | .zextb d a => cR 1 d a 0 29
  | .zexth d a => cR 1 d a 0 30 | .zextw d a => cR 1 d a 0 31 | .sel d a b => cR 1 d a b 32
  | .addi d a i => some (.c (wI 2 d a i.toNat)) | .addiLong d a i => xW (wI 2 d a 0) i.toNat
  | .andi d a i => some (.c (wI 3 d a i.toNat)) | .andiLong d a i => xW (wI 3 d a 0) i.toNat
  | .ori d a i => some (.c (wI 4 d a i.toNat)) | .oriLong d a i => xW (wI 4 d a 0) i.toNat
  | .xori d a i => some (.c (wI 5 d a i.toNat)) | .xoriLong d a i => xW (wI 5 d a 0) i.toNat
  | .slti d a i => some (.c (wI 7 d a i.toNat)) | .sltiLong d a i => xW (wI 7 d a 0) i.toNat
  | .sltiu d a i => some (.c (wI 8 d a i.toNat)) | .sltiuLong d a i => xW (wI 8 d a 0) i.toNat
  | .shli d a n => some (.c (wM 6 d a 0 n.toNat)) | .shliLong d a n => xW (wI 6 d a 0) n.toNat
  | .shri d a n => some (.c (wM 6 d a 1 n.toNat)) | .shriLong d a n => xW (wI 6 d a 0) (2 ^ 12 + n.toNat)
  | .srai d a n => some (.c (wM 6 d a 2 n.toNat)) | .sraiLong d a n => xW (wI 6 d a 0) (2 * 2 ^ 12 + n.toNat)
  | .rotli d a n => some (.c (wM 6 d a 3 n.toNat)) | .rotliLong d a n => xW (wI 6 d a 0) (3 * 2 ^ 12 + n.toNat)
  | .movhi d i => some (.c (wU 9 d i.toNat))
  | .leaScale1 d a b => cR 0x0A d a b 0 | .leaScale2 d a b => cR 0x0A d a b 1
  | .leaScale4 d a b => cR 0x0A d a b 2 | .leaScale8 d a b => cR 0x0A d a b 3
  | .gaddr d a b => cR 0x0A d a b 4
  | .beq a b o => some (.c (wI 0x0B a b o.toNat)) | .beqLong a b o => xW (wI 0x0B a b 0) o.toNat
  | .bne a b o => some (.c (wI 0x0C a b o.toNat)) | .bneLong a b o => xW (wI 0x0C a b 0) o.toNat
  | .blt a b o => some (.c (wI 0x0D a b o.toNat)) | .bltLong a b o => xW (wI 0x0D a b 0) o.toNat
  | .bge a b o => some (.c (wI 0x0E a b o.toNat)) | .bgeLong a b o => xW (wI 0x0E a b 0) o.toNat
  | .bltu a b o => some (.c (wI 0x0F a b o.toNat)) | .bltuLong a b o => xW (wI 0x0F a b 0) o.toNat
  | .bgeu a b o => some (.c (wI 0x10 a b o.toNat)) | .bgeuLong a b o => xW (wI 0x10 a b 0) o.toNat
  | .jal d o => some (.c (wU 0x11 d o.toNat)) | .jalLong d o => xW (wU 0x11 d 0) o.toNat
  | .jalr d a i => some (.c (wI 0x12 d a i.toNat)) | .jalrLong d a i => xW (wI 0x12 d a 0) i.toNat
  | .rand d a b => cR 0x20 d a b 0 | .cvtfx d a b => cR 0x20 d a b 1 | .cvtxf d a b => cR 0x20 d a b 2
  | .ldb d a o => some (.c (wM 0x13 d a 0 o.toNat)) | .ldbLong d a o => xW (wM 0x13 d a 0 0) o.toNat
  | .ldh d a o => some (.c (wM 0x13 d a 1 o.toNat)) | .ldhLong d a o => xW (wM 0x13 d a 1 0) o.toNat
  | .ldw d a o => some (.c (wM 0x13 d a 2 o.toNat)) | .ldwLong d a o => xW (wM 0x13 d a 2 0) o.toNat
  | .ldd d a o => some (.c (wM 0x13 d a 3 o.toNat)) | .lddLong d a o => xW (wM 0x13 d a 3 0) o.toNat
  | .ldbu d a o => some (.c (wM 0x13 d a 4 o.toNat)) | .ldbuLong d a o => xW (wM 0x13 d a 4 0) o.toNat
  | .ldhu d a o => some (.c (wM 0x13 d a 5 o.toNat)) | .ldhuLong d a o => xW (wM 0x13 d a 5 0) o.toNat
  | .ldwu d a o => some (.c (wM 0x13 d a 6 o.toNat)) | .ldwuLong d a o => xW (wM 0x13 d a 6 0) o.toNat
  | .ldq d a o => some (.c (wM 0x13 d a 7 o.toNat)) | .ldqLong d a o => xW (wM 0x13 d a 7 0) o.toNat
  | .stb r a o => some (.c (wM 0x14 r a 0 o.toNat)) | .stbLong r a o => xW (wM 0x14 r a 0 0) o.toNat
  | .sth r a o => some (.c (wM 0x14 r a 1 o.toNat)) | .sthLong r a o => xW (wM 0x14 r a 1 0) o.toNat
  | .stw r a o => some (.c (wM 0x14 r a 2 o.toNat)) | .stwLong r a o => xW (wM 0x14 r a 2 0) o.toNat
  | .std r a o => some (.c (wM 0x14 r a 3 o.toNat)) | .stdLong r a o => xW (wM 0x14 r a 3 0) o.toNat
  | .stq r a o => some (.c (wM 0x14 r a 7 o.toNat)) | .stqLong r a o => xW (wM 0x14 r a 7 0) o.toNat
  | .ldf d a o => some (.c (wM 0x15 d a 0 o.toNat)) | .ldfLong d a o => xW (wM 0x15 d a 0 0) o.toNat
  | .ldc d a o => some (.c (wM 0x15 d a 1 o.toNat)) | .ldcLong d a o => xW (wM 0x15 d a 1 0) o.toNat
  | .stf r a o => some (.c (wM 0x15 r a 2 o.toNat)) | .stfLong r a o => xW (wM 0x15 r a 2 0) o.toNat
  | .stfo r a o => some (.c (wM 0x15 r a 3 o.toNat)) | .stfoLong r a o => xW (wM 0x15 r a 3 0) o.toNat
  | .empty a o => some (.c (wM 0x15 0 a 4 o.toNat)) | .emptyLong a o => xW (wM 0x15 0 a 4 0) o.toNat
  | .feq d a o => some (.c (wM 0x15 d a 5 o.toNat)) | .feqLong d a o => xW (wM 0x15 d a 5 0) o.toNat
  | .vld d a o => some (.c (wM 0x16 d a 0 o.toNat)) | .vldLong d a o => xW (wM 0x16 d a 0 0) o.toNat
  | .vst r a o => some (.c (wM 0x16 r a 1 o.toNat)) | .vstLong r a o => xW (wM 0x16 r a 1 0) o.toNat
  | .vlds d a b o => some (.c (wM 0x16 d a 2 (b.val * 128 + o.toNat)))
  | .vldsLong d a b o => xW (wM 0x16 d a 2 (b.val * 128)) o.toNat
  | .vsts r a b o => some (.c (wM 0x16 r a 3 (b.val * 128 + o.toNat)))
  | .vstsLong r a b o => xW (wM 0x16 r a 3 (b.val * 128)) o.toNat
  | .vgath d a b o => some (.c (wM 0x16 d a 4 (b.val * 128 + o.toNat)))
  | .vgathLong d a b o => xW (wM 0x16 d a 4 (b.val * 128)) o.toNat
  | .vscat r a b o => some (.c (wM 0x16 r a 5 (b.val * 128 + o.toNat)))
  | .vscatLong r a b o => xW (wM 0x16 r a 5 (b.val * 128)) o.toNat
  | .amoadd p d a b => amoEnc 0 p d a b | .amoand p d a b => amoEnc 1 p d a b
  | .amoor p d a b => amoEnc 2 p d a b | .amoxor p d a b => amoEnc 3 p d a b
  | .amomin p d a b => amoEnc 4 p d a b | .amomax p d a b => amoEnc 5 p d a b
  | .amominu p d a b => amoEnc 6 p d a b | .amomaxu p d a b => amoEnc 7 p d a b
  | .amoswap p d a b => amoEnc 8 p d a b | .amocas p d a b => amoEnc 9 p d a b
  | .pref a o => some (.c (wM 0x18 0 a 0 o.toNat)) | .prefLong a o => xW (wM 0x18 0 a 0 0) o.toNat
  | .cwb a o => some (.c (wM 0x18 0 a 1 o.toNat)) | .cwbLong a o => xW (wM 0x18 0 a 1 0) o.toNat
  | .cinv a o => some (.c (wM 0x18 0 a 2 o.toNat)) | .cinvLong a o => xW (wM 0x18 0 a 2 0) o.toNat
  | .cwbinv a o => some (.c (wM 0x18 0 a 3 o.toNat)) | .cwbinvLong a o => xW (wM 0x18 0 a 3 0) o.toNat
  | .cwbL2 a o => some (.c (wM 0x18 0 a 4 o.toNat)) | .cwbL2Long a o => xW (wM 0x18 0 a 4 0) o.toNat
  | .send a b n => some (.c (wP 0x19 0 a b 0 n.toNat))
  | .sendq a b n => some (.c (wP 0x19 0 a b 1 n.toNat))
  | .sendr a b k => some (.c (wP 0x19 0 a b 2 k))
  | .reply a b => some (.c (wP 0x19 0 a b 3 0))
  | .replyQ a b => some (.c (wP 0x19 0 a b 3 1))
  | .cut a => some (.c (wP 0x19 0 a 0 4 0))
  | .putn d a b n => some (.c (wP 0x19 d a b 5 n.toNat))
  | .getr d a b => some (.c (wP 0x19 d a b 6 0))
  | .getrArm d => some (.c (wP 0x19 d 0 0 6 1))
  | .getrDis d => some (.c (wP 0x19 d 0 0 6 2))
  | .qpop d a b => some (.c (wP 0x19 d a b 7 0))
  | .qpeek d a b => some (.c (wP 0x19 d a b 8 0))
  | .qstat d a => some (.c (wP 0x19 d a 0 9 0))
  | .qstatClr d a => some (.c (wP 0x19 d a 0 9 1))
  | .spawn j a b n => some (.c (wP 0x1A j a b 0 n))
  | .forkR j a b n => some (.c (wP 0x1A j a b 1 n))
  | .join d a b => some (.c (wP 0x1A d a b 2 0))
  | .joinOpen d a b => some (.c (wP 0x1A d a b 2 1))
  | .joinSeal d a => some (.c (wP 0x1A d a 0 2 2))
  | .joinWait d a => some (.c (wP 0x1A d a 0 2 3))
  | .budgetAct d a => some (.c (wP 0x1A d a 0 3 0))
  | .budgetTake d a => some (.c (wP 0x1A d a 0 3 1))
  | .barInit a b => some (.c (wP 0x1B 0 a b 0 0))
  | .barArr s d a => some (.c (wP 0x1B d a 0 1 (scopeCode s)))
  | .barWait s a b => some (.c (wP 0x1B 0 a b 2 (scopeCode s)))
  | .barArw s d a => some (.c (wP 0x1B d a 0 3 (scopeCode s)))
  | .barTx a b => some (.c (wP 0x1B 0 a b 4 0))
  | .barQry d a => some (.c (wP 0x1B d a 0 5 0))
  | .ringWaitf d h k => some (.c (wP 0x1B d h 0 6 k))
  | .ringWaite d h k => some (.c (wP 0x1B d h 0 7 k))
  | .ringAdvp h k => some (.c (wP 0x1B 0 h 0 8 k))
  | .ringAdvc h k => some (.c (wP 0x1B 0 h 0 9 k))
  | .ringQry d h => some (.c (wP 0x1B d h 0 10 0))
  | .grpMem d a => some (.c (wP 0x1B d a 0 11 0))
  | .red o d a b => some (.c (wP 0x1C d a b 0 (redCode o)))
  | .scan o d a b => some (.c (wP 0x1C d a b 1 (redCode o)))
  | .bcast d a b => some (.c (wP 0x1C d a b 2 0))
  | .treeWait d a => some (.c (wP 0x1C d a 0 3 0))
  | .poolSet d a => cR 0x1D d a 0 0 | .poolQry d a => cR 0x1D d a 0 1
  | .poolPin d a => cR 0x1D d a 0 2 | .poolUnpin d a => cR 0x1D d a 0 3
  | .cpy d a f => xW (wR 0x1E d a 0 0) (cpyFieldWord f)
  | .cpyCancel d a => xW (wR 0x1E d a 0 1) 0
  | .cpyStat d a s => xW (wR 0x1E d a 0 2) (b2n s)
  | .scfg d a b wr sz => xW (wR 0x1F d a b 0)
      (b2n wr + 4 * (match sz with | .w32 => 0 | .h16 => 1 | .b8 => 2))
  | .sclose a => some (.c (wR 0x1F 0 a 0 1))
  | .sstat d a => some (.c (wR 0x1F d a 0 2))
  | .ldm d a n => cR 0x27 d a n 0 | .stm d a n => cR 0x27 d a n 1
  | .vdotI8 d a b => cR 0x27 d a b 2 | .maca d a b => cR 0x27 d a b 3
  | .vadd l r d a b => vfpEnc 0 l (rndCode r) d a b
  | .vsub l r d a b => vfpEnc 1 l (rndCode r) d a b
  | .vmul l r d a b => vfpEnc 2 l (rndCode r) d a b
  | .vmin l d a b => vfpEnc 3 l 0 d a b
  | .vmax l d a b => vfpEnc 4 l 0 d a b
  | .vabs l d a => vfpEnc 5 l 0 d a 0
  | .vneg l d a => vfpEnc 6 l 0 d a 0
  | .vdiv l r d a b => vfpEnc 7 l (rndCode r) d a b
  | .vsqrt l r d a => vfpEnc 8 l (rndCode r) d a 0
  | .vfma d a b c => aR 0x29 d a b (c.val * 32) | .vfms d a b c => aR 0x29 d a b (c.val * 32 + 1)
  | .vfnma d a b c => aR 0x29 d a b (c.val * 32 + 2) | .vfnms d a b c => aR 0x29 d a b (c.val * 32 + 3)
  | .vaddI d a b => aR 0x2A d a b 0 | .vsubI d a b => aR 0x2A d a b 1 | .vmulI d a b => aR 0x2A d a b 2
  | .vmulhI d a b => aR 0x2A d a b 3 | .vand d a b => aR 0x2A d a b 4 | .vor d a b => aR 0x2A d a b 5
  | .vxor d a b => aR 0x2A d a b 6 | .vshl d a b => aR 0x2A d a b 7 | .vshr d a b => aR 0x2A d a b 8
  | .vsra d a b => aR 0x2A d a b 9 | .vminI d a b => aR 0x2A d a b 10 | .vmaxI d a b => aR 0x2A d a b 11
  | .vminuI d a b => aR 0x2A d a b 12 | .vmaxuI d a b => aR 0x2A d a b 13 | .vdot4I8 d a b => aR 0x2A d a b 14
  | .vcmp l c d a b => some (.a (wP 0x2B d a b 0 (cmpLanesCode l * 8 + condCode c)))
  | .vsel d a b => some (.a (wP 0x2B d a b 1 0))
  | .mand d a b => some (.a (wP 0x2B d a b 2 0))
  | .mor d a b => some (.a (wP 0x2B d a b 3 0))
  | .mxor d a b => some (.a (wP 0x2B d a b 4 0))
  | .mnot d a => some (.a (wP 0x2B d a 0 5 0))
  | .mmov d a => some (.a (wP 0x2B d a 0 6 0))
  | .mset d a => some (.a (wP 0x2B d a 0 7 0))
  | .mpopc d a => some (.a (wP 0x2B d a 0 8 0))
  | .vrcp d a => aR 0x2C d a 0 0 | .vrsq d a => aR 0x2C d a 0 1 | .vexp2 d a => aR 0x2C d a 0 2
  | .vlog2 d a => aR 0x2C d a 0 3 | .vtanh d a => aR 0x2C d a 0 4 | .vsigm d a => aR 0x2C d a 0 5
  | .vcvt c d a => some (.a (wP 0x2D d a 0 0 c))
  | .vcvtSr c d a b => some (.a (wP 0x2D d a b 1 c))
  | .vrand d a b => aR 0x2E d a b 0
  | .vmov d a => some (.a (wP 0x2F d a 0 0 0))
  | .vbcast d a => some (.a (wP 0x2F d a 0 1 0))
  | .vext d a l => some (.a (wP 0x2F d a 0 2 l))
  | .vins d a l => some (.a (wP 0x2F d a 0 3 l))
  | .vperm d a b => some (.a (wP 0x2F d a b 4 0))
  | .vred o d a => some (.a (wP 0x2F d a 0 5 (redCode o)))
  | .vscan o d a => some (.a (wP 0x2F d a 0 6 (redCode o)))
  | .vseq a n => some (.a (wP 0x30 0 a 0 0 n))
  | .vseqS a n => some (.a (wP 0x30 0 a 0 0 (16 + n.val)))
  | .vseqStop a => some (.a (wP 0x30 0 a 0 1 0))
  | .cvtMx d a b f => xW (wR 0x31 d a b 0) (convFieldWord f)
  | .cvtUnmx d a b f => xW (wR 0x31 d a b 1) (convFieldWord f)
  | .rescaleMx d a b f => xW (wR 0x31 d a b 2) (convFieldWord f)
  | .transp d a b f => xW (wR 0x31 d a b 3) (convFieldWord f)
  | .mma d a b f => xW (wR 0x32 d a b 0) (mmaFieldWord f)
  | .mmaG d a b f => xW (wR 0x32 d a b 1) (mmaFieldWord f)
  | .mmrot d a b f => xW (wR 0x32 d a b 2) (mmaFieldWord f)
  | .accClr d => aR 0x33 d 0 0 0
  | .accAnch d a => aR 0x33 d a 0 1
  | .accRd d a b f => xW (wR 0x33 d a b 2) (accFieldWord f)
  | .accWr d a f => xW (wR 0x33 d a 0 3) (accFieldWord f)
  | .accStat d a => aR 0x33 d a 0 4
  | .linkCfg d a => aR 0x34 d a 0 0
  | .linkStat d => aR 0x34 d 0 0 1
  | _ => none

/-- The 32-bit word that names the instruction in TVAL (R42): word 0 of a 64-bit instruction. -/
def encWord (i : Instr) : Nat :=
  match encode i with
  | some (.c w) => w
  | some (.a w) => w
  | some (.x w _) => w
  | none => 0

/-- The two words of a bundle that holds the instruction alone, with NOP or ANOP beside it (R50). -/
def encBundle (i : Instr) : Option (Nat × Nat) :=
  match encode i with
  | some (.c w) => some (w, 0x7E000000)
  | some (.a w) => some (0, w)
  | some (.x w e) => some (w, e)
  | none => none

/-- The instruction that the decoder reads from a word. -/
def decRight : DecRes → Option Instr
  | .ok i => some i
  | .error _ => none

/-- The two words that an instruction of the table is laid out as: a word of a pair stands in its slot beside
NOP or ANOP, and a 64-bit instruction's extension is the second word. -/
def tableWords (w : Nat) : Nat × Nat :=
  let w0 := w % 2 ^ 32
  if w0 / 2 ^ 31 = 1 then (w0, w / 2 ^ 32 % 2 ^ 32)
  else if w0 / 2 ^ 25 ≥ 0x28 then (0, w0) else (w0, 0x7E000000)

/-- The instruction that the decoder reads from a word of the table, its bits above `nbits` being 0. -/
def decodeTableWord (nbits w : Nat) : Option Instr :=
  let ws := tableWords (w % 2 ^ nbits)
  match decodeBundle true ws.1 ws.2 with
  | .one r => decRight r
  | .two r0 r1 => if ws.1 = 0 ∧ w % 2 ^ nbits ≠ 0 then decRight r1 else decRight r0
  | .malformed _ _ _ => none

end

end Sys2Proof
end

