-- ==== Sys2Proof/Machine/Float.lean ====
section
/-! DEFINITION. Numbers: the floating-point formats, exact values and their rounding, the operations on exact
values, the anchored grid, the random function CMIX32, and the special functions (R54 to R57, R61 to R67, R73,
R163 to R168). -/

namespace Sys2Proof.Machine

/-! ### Formats (Table 3.1) -/

/-- What the codes of the largest exponent stand for. -/
inductive Tops where
  /-- infinities and NaNs -/
  | ieee
  /-- the NaN codes 0x7F and 0xFF only -/
  | e4m3
  /-- finite values only -/
  | finite
  deriving DecidableEq, Repr

/-- A floating-point format: exponent bits, mantissa bits, bias, and its special values. -/
structure Fmt where
  eb : Nat
  mb : Nat
  bias : Nat
  tops : Tops
  /-- whether FTZ bears on it (R64) -/
  wide : Bool
  deriving DecidableEq, Repr

def fp32 : Fmt := ⟨8, 23, 127, .ieee, true⟩
def fp16 : Fmt := ⟨5, 10, 15, .ieee, true⟩
def bf16 : Fmt := ⟨8, 7, 127, .ieee, true⟩
def e4m3 : Fmt := ⟨4, 3, 7, .e4m3, false⟩
def e5m2 : Fmt := ⟨5, 2, 15, .ieee, false⟩
def e3m2 : Fmt := ⟨3, 2, 3, .finite, false⟩
def e2m3 : Fmt := ⟨2, 3, 1, .finite, false⟩
def e2m1 : Fmt := ⟨2, 1, 1, .finite, false⟩

/-- Bits of a code without its sign. -/
def Fmt.low (f : Fmt) : Nat := f.eb + f.mb
/-- The exponent of the smallest normal value. -/
def Fmt.emin (f : Fmt) : Int := 1 - (f.bias : Int)
/-- The code of the largest finite value (Table 3.1). -/
def Fmt.maxCode (f : Fmt) : Nat :=
  match f.tops with
  | .ieee => (2 ^ f.eb - 2) * 2 ^ f.mb + (2 ^ f.mb - 1)
  | .e4m3 => 2 ^ f.low - 2
  | .finite => 2 ^ f.low - 1
/-- The code of +∞. -/
def Fmt.infCode (f : Fmt) : Nat := (2 ^ f.eb - 1) * 2 ^ f.mb
/-- The canonical NaN (R56). -/
def Fmt.canon (f : Fmt) : Nat :=
  match f.tops with
  | .ieee => f.infCode + 2 ^ (f.mb - 1)
  | .e4m3 => 2 ^ f.low - 1
  | .finite => 0

/-- A value: finite, ±m × 2^e; infinite; or a NaN, with its payload left-aligned in 32 bits. -/
inductive Num where
  | fin (neg : Bool) (m : Nat) (e : Int)
  | inf (neg : Bool)
  | nan (neg sig : Bool) (pay : Nat)
  deriving DecidableEq, Repr

/-- The value of a code (R55). With `ftz` a subnormal of a wide format counts as a zero of its sign (R64). -/
def decodeNum (f : Fmt) (ftz : Bool) (code : Nat) : Num :=
  let neg := bit code f.low
  let ex := code / 2 ^ f.mb % 2 ^ f.eb
  let man := code % 2 ^ f.mb
  if f.tops = .ieee ∧ ex = 2 ^ f.eb - 1 then
    if man = 0 then .inf neg else .nan neg (!bit man (f.mb - 1)) (man * 2 ^ (32 - f.mb))
  else if f.tops = .e4m3 ∧ ex = 2 ^ f.eb - 1 ∧ man = 2 ^ f.mb - 1 then .nan neg false 0
  else if ex = 0 then
    if ftz ∧ f.wide then .fin neg 0 0 else .fin neg man (f.emin - f.mb)
  else .fin neg (2 ^ f.mb + man) ((ex : Int) - f.bias - f.mb)

/-! ### Rounding (R61 to R65) -/

/-- Flags of a result, as a number: 1 inexact, 2 underflow, 4 overflow, 8 invalid. -/
abbrev FpFlags := Nat

/-- The rounding modes: 0 RNE, 1 RTZ, 2 RDN, 3 RUP, and the stochastic one with its random word (R61). -/
inductive RMode where
  | rne | rtz | rdn | rup
  | sr (rnd : Nat)
  deriving DecidableEq, Repr

/-- The mode of a code of FPCTL.RM. -/
def rmode (n : Nat) : RMode :=
  match n % 4 with
  | 0 => .rne
  | 1 => .rtz
  | 2 => .rdn
  | _ => .rup

/-- Whether a magnitude moves up to the next multiple: `k` and `rem / 2^r` of the spacing (R61, R63). -/
def roundsUp (mode : RMode) (neg : Bool) (k rem r : Nat) : Bool :=
  match mode with
  | .rne => decide (2 ^ r < 2 * rem) || (decide (2 * rem = 2 ^ r) && k % 2 == 1)
  | .rtz => false
  | .rdn => neg && decide (rem ≠ 0)
  | .rup => !neg && decide (rem ≠ 0)
  | .sr rnd => decide (2 ^ 16 ≤ rem * 2 ^ 16 / 2 ^ r + rnd % 2 ^ 16)

/-- `m × 2^e` in units of `2^q`: the whole part, and the rest in units of `2^(q-r)`, with `r`. -/
def inUnits (m : Nat) (e q : Int) : Nat × Nat × Nat :=
  if q ≤ e then (m * 2 ^ (e - q).toNat, 0, 0)
  else
    let r := (q - e).toNat
    (m / 2 ^ r, m % 2 ^ r, r)

/-- ⌊log₂⌋ of `m × 2^e`, m not 0. -/
def topBit (m : Nat) (e : Int) : Int := Nat.log2 m + e

/-- `k × 2^q` against `k' × 2^q'`: whether the first is less. -/
def magLt (k : Nat) (q : Int) (k' : Nat) (q' : Int) : Bool :=
  if q' ≤ q then decide (k * 2 ^ (q - q').toNat < k') else decide (k < k' * 2 ^ (q' - q).toNat)

/-- The code of `k × 2^q`, a magnitude that the format represents. -/
def packMag (f : Fmt) (k : Nat) (q : Int) : Nat :=
  if k = 0 then 0
  else
    let t := topBit k q
    if t < f.emin then (inUnits k q (f.emin - f.mb)).1
    else ((t + f.bias).toNat) * 2 ^ f.mb + ((inUnits k q (t - f.mb)).1 - 2 ^ f.mb)

/-- Rounding of a finite value into a format: the code and the flags (R61 to R65). `sat` says that an overflow
gives the largest finite value whatever the mode. In RTZ a value below 2^(emax + 1) does not overflow: where no code
lies between the largest finite value and that bound, as in E4M3, it rounds to the largest finite value (R62). -/
def roundFin (f : Fmt) (mode : RMode) (ftz sat : Bool) (neg : Bool) (m : Nat) (e : Int) : Nat × FpFlags :=
  let sign := b2n neg * 2 ^ f.low
  if m = 0 then (sign, 0)
  else
    let t := topBit m e
    let q := max t f.emin - f.mb
    let (k, rem, r) := inUnits m e q
    let k' := if roundsUp mode neg k rem r then k + 1 else k
    let inexact := decide (rem ≠ 0)
    let fl := if inexact then 1 + (if t < f.emin then 2 else 0) else 0
    let top := decodeNum f false f.maxCode
    let big := match top with
      | .fin _ tm te => magLt tm te k' q
      | _ => false
    let emax := match top with
      | .fin _ tm te => topBit tm te
      | _ => 0
    if big && decide (mode = .rtz ∧ t ≤ emax) then (sign + f.maxCode, 1)
    else if big then
      let up : Bool := match mode with
        | .rne => true
        | .sr _ => true
        | .rtz => false
        | .rdn => neg
        | .rup => !neg
      (sign + (if f.tops = .ieee ∧ up ∧ !sat then f.infCode else f.maxCode), fl ||| 5)
    else if ftz ∧ f.wide ∧ k' ≠ 0 ∧ topBit k' q < f.emin then (sign, fl ||| 3)
    else (sign + packMag f k' q, fl)

/-- The result of an operation: a value, or invalid. -/
abbrev OpRes := Option Num

/-- Rounding of an arithmetic result (R56, R61): none is an invalid operation. -/
def roundNum (f : Fmt) (mode : RMode) (ftz : Bool) (r : OpRes) : Nat × FpFlags :=
  match r with
  | none => (f.canon, 8)
  | some (.fin neg m e) => roundFin f mode ftz false neg m e
  | some (.inf neg) => (b2n neg * 2 ^ f.low + f.infCode, 0)
  | some (.nan _ sig _) => (f.canon, if sig then 8 else 0)

/-- A value converted into a format (R56, R57, R63): NaN and infinity map as the destination can hold them. -/
def convertNum (f : Fmt) (mode : RMode) (ftz : Bool) (v : Num) : Nat × FpFlags :=
  match v with
  | .fin neg m e => roundFin f mode ftz false neg m e
  | .inf neg =>
    let sign := b2n neg * 2 ^ f.low
    match f.tops with
    | .ieee => (sign + f.infCode, 0)
    | .e4m3 => (sign + (2 ^ f.low - 1), 8)
    | .finite => (sign + f.maxCode, 8)
  | .nan neg sig pay =>
    let sign := b2n neg * 2 ^ f.low
    let fl := if sig then 8 else 0
    match f.tops with
    | .ieee => (sign + f.infCode + (pay / 2 ^ (32 - f.mb) ||| 2 ^ (f.mb - 1)), fl)
    | .e4m3 => (sign + (2 ^ f.low - 1), fl)
    | .finite => (0, 8)

/-! ### Exact operations (R61, R163, R164) -/

def Num.isNan : Num → Bool
  | .nan _ _ _ => true
  | _ => false
def Num.isSig : Num → Bool
  | .nan _ s _ => s
  | _ => false
def Num.neg? : Num → Bool
  | .fin n _ _ => n
  | .inf n => n
  | .nan n _ _ => n
def Num.flip : Num → Num
  | .fin n m e => .fin (!n) m e
  | .inf n => .inf (!n)
  | .nan n s p => .nan (!n) s p
def Num.isZero : Num → Bool
  | .fin _ m _ => m == 0
  | _ => false

/-- The signed integer of a finite value in units of `2^q`, where `q` does not exceed its exponent. -/
def scaled (neg : Bool) (m : Nat) (e q : Int) : Int :=
  let x : Int := (m : Int) * 2 ^ (e - q).toNat
  if neg then -x else x

/-- The exact sum; a zero sum of opposite signs is +0, and −0 in RDN (R61). -/
def addNum (mode : RMode) : Num → Num → OpRes
  | .nan n s p, _ => some (.nan n s p)
  | _, .nan n s p => some (.nan n s p)
  | .inf a, .inf b => if a = b then some (.inf a) else none
  | .inf a, _ => some (.inf a)
  | _, .inf b => some (.inf b)
  | .fin a m e, .fin b n g =>
    let q := min e g
    let x := scaled a m e q + scaled b n g q
    if x = 0 then
      some (.fin (if m = 0 ∧ n = 0 ∧ a = b then a else decide (mode = .rdn)) 0 0)
    else some (.fin (decide (x < 0)) x.natAbs q)

/-- The exact product. -/
def mulNum : Num → Num → OpRes
  | .nan n s p, _ => some (.nan n s p)
  | _, .nan n s p => some (.nan n s p)
  | .inf a, y => if y.isZero then none else some (.inf (a != y.neg?))
  | x, .inf b => if x.isZero then none else some (.inf (x.neg? != b))
  | .fin a m e, .fin b n g => some (.fin (a != b) (m * n) (e + g))

/-- A quotient of naturals to 96 bits beyond the divisor's length, with a last bit that tells an inexact one. -/
def divMag (m n : Nat) : Nat × Int :=
  let k := 96 + Nat.log2 n
  let q := m * 2 ^ k / n
  if m * 2 ^ k % n = 0 then (q, -(k : Int)) else (2 * q + 1, -(k : Int) - 1)

/-- The exact quotient, as far as a rounding can tell (R163). -/
def divNum : Num → Num → OpRes
  | .nan n s p, _ => some (.nan n s p)
  | _, .nan n s p => some (.nan n s p)
  | .inf _, .inf _ => none
  | .inf a, y => some (.inf (a != y.neg?))
  | x, .inf b => some (.fin (x.neg? != b) 0 0)
  | .fin a m e, .fin b n g =>
    if n = 0 then (if m = 0 then none else some (.inf (a != b)))
    else
      let (q, k) := divMag m n
      some (.fin (a != b) q (e - g + k))

/-- One step of a binary square root: the bit `i` is kept when the square does not exceed `n`. -/
def isqrtStep (n : Nat) (x i : Nat) : Nat := if (x + 2 ^ i) * (x + 2 ^ i) ≤ n then x + 2 ^ i else x
/-- ⌊√n⌋ of a number below 4^k. -/
def isqrt (n : Nat) : Nat → Nat → Nat
  | 0, x => x
  | i + 1, x => isqrt n i (isqrtStep n x i)

/-- √(m × 2^e), with a last bit that tells an inexact root. -/
def sqrtMag (m : Nat) (e : Int) : Nat × Int :=
  let e' := if e % 2 = 0 then e else e - 1
  let m' := (if e % 2 = 0 then m else 2 * m) * 2 ^ 192
  let r := isqrt m' (Nat.log2 m' / 2 + 1) 0
  let h := e' / 2 - 96
  if r * r = m' then (r, h) else (2 * r + 1, h - 1)

/-- The exact square root, as far as a rounding can tell (R163). -/
def sqrtNum : Num → OpRes
  | .nan n s p => some (.nan n s p)
  | .inf a => if a then none else some (.inf false)
  | .fin a m e =>
    if m = 0 then some (.fin a 0 0)
    else if a then none
    else
      let (r, k) := sqrtMag m e
      some (.fin false r k)

/-- The comparison of values that are not NaN: less, equal or greater as −1, 0, 1. -/
def cmpNum : Num → Num → Int
  | .fin a m e, .fin b n g =>
    let q := min e g
    let x := scaled a m e q - scaled b n g q
    if x < 0 then -1 else if x = 0 then 0 else 1
  | .inf a, .inf b => if a = b then 0 else if a then -1 else 1
  | .inf a, _ => if a then -1 else 1
  | _, .inf b => if b then 1 else -1
  | _, _ => 0

/-! ### Integers and the grid (R54, R73) -/

/-- A value rounded to an integer within bounds (R54). -/
def toIntNum (mode : RMode) (lo hi : Int) : Num → Int × FpFlags
  | .nan _ _ _ => (0, 8)
  | .inf a => (if a then lo else hi, 8)
  | .fin a m e =>
    let (k, rem, r) := inUnits m e 0
    let k' := if roundsUp mode a k rem r then k + 1 else k
    let x : Int := if a then -(k' : Int) else k'
    if x < lo then (lo, 8) else if hi < x then (hi, 8) else (x, if rem ≠ 0 then 1 else 0)

/-- The value of an integer. -/
def ofIntNum (x : Int) : Num := .fin (decide (x < 0)) x.natAbs 0

/-- Whether a signed anchor's grid splits a value, and the floored multiple (R70, R73). -/
def floorGrid (neg : Bool) (m : Nat) (e anch : Int) : Int × Bool :=
  let (k, rem, _) := inUnits m e anch
  if neg then (-(k : Int) - (if rem = 0 then 0 else 1), decide (rem ≠ 0)) else (k, decide (rem ≠ 0))

/-- FloorToGrid (R73), with whether a part lay below the grid. -/
def floorToGrid (x : Nat) (anch : Int) : Int × FpFlags × Bool :=
  let lo : Int := -(2 ^ 127)
  let hi : Int := 2 ^ 127 - 1
  match decodeNum fp32 false x with
  | .nan _ _ _ => (0, 8, false)
  | .inf a => (if a then lo else hi, 8, false)
  | .fin a m e =>
    let (k, loss) := floorGrid a m e anch
    if k < lo then (lo, 4, loss) else if hi < k then (hi, 4, loss) else (k, 0, loss)

/-- RoundFromFixed (R73): FTZ has no effect. -/
def roundFromFixed (a : Int) (anch : Int) (mode : RMode) : Nat × FpFlags :=
  roundFin fp32 mode false false (decide (a < 0)) a.natAbs anch

/-! ### CMIX32 (R67) -/

/-- CMix32. -/
def cmix32 (c k : BitVec 32) : BitVec 32 :=
  let x := c ^^^ k
  let x := x ^^^ (x >>> 15)
  let x := x * 0x2C1B3C6D#32
  let x := x ^^^ (x >>> 12)
  let x := x * 0x297A2D39#32
  x ^^^ (x >>> 15)

/-! ### Special functions (R167)

The exact value is formed in fixed point with 256 bits below the point and a last bit that tells an inexact one
(log entry 8). -/

/-- ln 2 and 1 / ln 2 in units of 2^-256. -/
def ln2Fix : Nat := 80260960185991308862233904206310070533990667611589946606122867505419956976171
def log2eFix : Nat := 167052672916848388242985626561247531987276682633131050150846402744536260568207

/-- Σ yⁱ/i! from the term `t` on, `n` terms, y in units of 2^-256. -/
def expTail (y : Nat) : Nat → Nat → Nat → Nat
  | 0, _, _ => 0
  | n + 1, i, t => t + expTail y n (i + 1) (t * y / 2 ^ 256 / (i + 1))

/-- 2^f for a fraction f in units of 2^-256, in the same units. -/
def exp2Frac (f : Nat) : Nat := expTail (f * ln2Fix / 2 ^ 256) 80 0 (2 ^ 256)

/-- Σ z^(2i+1)/(2i+1) from the power `t` on. -/
def atanhTail (z2 : Nat) : Nat → Nat → Nat → Nat
  | 0, _, _ => 0
  | n + 1, i, t => t / (2 * i + 1) + atanhTail z2 n (i + 1) (t * z2 / 2 ^ 256)

/-- log₂ t for t in [1, 2), t in units of 2^-256. -/
def log2Frac (t : Nat) : Nat :=
  let z := (t - 2 ^ 256) * 2 ^ 256 / (t + 2 ^ 256)
  2 * atanhTail (z * z / 2 ^ 256) 100 0 z * 2 ^ 256 / ln2Fix

/-- A magnitude `x` in units of 2^-256 that is known not to be exact. -/
def jammed (neg : Bool) (x : Nat) (e : Int) : Num := .fin neg (2 * x + 1) (e - 257)

/-- 2^(m × 2^e), or 2^-(m × 2^e). -/
def exp2Num (neg : Bool) (m : Nat) (e : Int) : Num :=
  if m = 0 then .fin false 1 0
  else if 10 ≤ topBit m e then (if neg then .fin false 1 (-1000) else .fin false 1 1000)
  else
    let (n, rem, r) := inUnits m e 0
    if rem = 0 then .fin false 1 (if neg then -(n : Int) else n)
    else
      let f := rem * 2 ^ 256 / 2 ^ r
      if neg then jammed false (exp2Frac (2 ^ 256 - f)) (-(n : Int) - 1) else jammed false (exp2Frac f) n

/-- log₂ (m × 2^e), m not 0. -/
def log2Num (m : Nat) (e : Int) : Num :=
  let k := topBit m e
  if m = 2 ^ Nat.log2 m then ofIntNum k
  else
    let t := m * 2 ^ 256 / 2 ^ Nat.log2 m
    let x : Int := k * 2 ^ 256 + log2Frac t
    jammed (decide (x < 0)) x.natAbs 0

/-- e^(m × 2^e) in units of 2^-256, for values up to 256. -/
def expFix (m : Nat) (e : Int) : Nat :=
  let y := (inUnits m e (-512)).1 * log2eFix / 2 ^ 512
  exp2Frac (y % 2 ^ 256) * 2 ^ (y / 2 ^ 256)

/-- tanh of a magnitude, m not 0. -/
def tanhMag (neg : Bool) (m : Nat) (e : Int) : Num :=
  if topBit m e < -30 then .fin neg (m * 2 ^ 300 - 1) (e - 300)
  else if 6 ≤ topBit m e then .fin neg (2 ^ 200 - 1) (-200)
  else
    let x := expFix m (e + 1)
    jammed neg ((x - 2 ^ 256) * 2 ^ 256 / (x + 2 ^ 256)) 0

/-- The logistic function, m not 0. -/
def sigmMag (neg : Bool) (m : Nat) (e : Int) : Num :=
  if 8 ≤ topBit m e then (if neg then .fin false 1 (-300) else .fin false (2 ^ 300 - 1) (-300))
  else
    let x := expFix m e
    if neg then jammed false (2 ^ 512 / (x + 2 ^ 256)) 0 else jammed false (x * 2 ^ 256 / (x + 2 ^ 256)) 0

/-- 1 / √(m × 2^e), m not 0. -/
def rsqMag (m : Nat) (e : Int) : Num :=
  let e' := if e % 2 = 0 then e else e - 1
  let m' := if e % 2 = 0 then m else 2 * m
  let k := 128 + Nat.log2 m'
  let a := 2 ^ (2 * k) / m'
  let r := isqrt a (Nat.log2 a / 2 + 1) 0
  if r * r * m' = 2 ^ (2 * k) then .fin false r (-(k : Int) - e' / 2)
  else .fin false (2 * r + 1) (-(k : Int) - e' / 2 - 1)

/-- The functions of Table 7.9. -/
inductive Sfu where
  | rcp | rsq | exp2 | log2 | tanh | sigm
  deriving DecidableEq, Repr

/-- The exact value of a special function (R167); none is invalid. -/
def sfuNum (op : Sfu) (x : Num) : OpRes :=
  match x with
  | .nan n s p => some (.nan n s p)
  | .inf a =>
    match op with
    | .rcp => some (.fin a 0 0)
    | .rsq => if a then none else some (.fin false 0 0)
    | .exp2 => if a then some (.fin false 0 0) else some (.inf false)
    | .log2 => if a then none else some (.inf false)
    | .tanh => some (.fin a 1 0)
    | .sigm => if a then some (.fin false 0 0) else some (.fin false 1 0)
  | .fin a m e =>
    if m = 0 then
      match op with
      | .rcp => some (.inf a)
      | .rsq => some (.inf a)
      | .exp2 => some (.fin false 1 0)
      | .log2 => some (.inf true)
      | .tanh => some (.fin a 0 0)
      | .sigm => some (.fin false 1 (-1))
    else
      match op with
      | .rcp => let (q, k) := divMag 1 m; some (.fin a q (k - e))
      | .rsq => if a then none else some (rsqMag m e)
      | .exp2 => some (exp2Num a m e)
      | .log2 => if a then none else some (log2Num m e)
      | .tanh => some (tanhMag a m e)
      | .sigm => some (sigmMag a m e)

end Sys2Proof.Machine
end

