-- ==== Sys2Proof/Config.lean ====
section
/-! DEFINITION. What the spec leaves to the implementation: the free values. Each is opaque, so a statement
that holds of the model holds whatever the value is. -/

namespace Sys2Proof.Config

/-- The choice among several steps that may come next (R205, R87 between cores): a number for each use.
Log entry 2. -/
opaque pick : Nat → Nat

/-- Whether a fetch returns the bundle that the fetch cache holds, when its home holds another (R211).
Log entry 11. -/
opaque fetchStale : Nat → Bool

/-- Nanoseconds by which disciplined time has moved on at a read (R315, R325): a number for each use.
Log entry 6. -/
opaque elapsed : Nat → Nat

/-- Cycles that have passed for an activation since its budget was last counted, beyond the cycle of the bundle that
counts (R90): a number for each use. Log entry 5. -/
opaque cycles : Nat → Nat

/-- A 64-bit value that an effect of the spec writes and that no rule states: a number for each use.
Log entry 16. -/
opaque openWord : Nat → Word

/-- The SHAKE256 digest of a byte string, with an output of the given number of bytes (R390, R395). The
spec names the function and does not define it. Log entry 9. -/
opaque shake256 : Nat → List Byte → List Byte

/-- Whether an Ed448 signature (second argument) of a message (third) verifies under a public key (first)
(R390). Log entry 9. -/
opaque ed448Verify : List Byte → List Byte → List Byte → Bool

/-- The Ed448 signature that the device identity key gives to a message (R396). Log entry 9. -/
opaque ed448Sign : List Byte → List Byte

/-- The device serial, 16 bytes, and the boot ROM's, the identity key's and the certificate's bytes, as the
fuses hold them (R392, R394, R396). Log entry 9. -/
opaque deviceSerial : List Byte
opaque bootRomDigest : List Byte
opaque identityKey : List Byte
opaque makerCertificate : List Byte
opaque makerKeyDigest : List Byte

/-- Which of the old and the new value a copy reads when its source overlaps its own destination (R302).
Log entry 28. -/
opaque overlapNew : Nat → Bool

/-- The bytes of room in the code heap, and the body that the translator writes for a handler of a module by its key (R403,
R405). Log entry 107. -/
opaque heapBytes : Nat
opaque bodyCode : List Byte → Nat → List Byte

end Sys2Proof.Config
end

