-- ==== Sys2Proof/Machine/State.lean ====
section
/-! DEFINITION. The state of the part: contexts, cores, memory, the packets on the networks and the device's
blocks, all as plain data; the reasons a step can stop; and the state after reset. -/

namespace Sys2Proof.Machine

/-- A 16-bit generation. -/
abbrev Gen := BitVec 16

/-- Why the machine stops. -/
inductive Fault where
  /-- No meaning raises it: every cause of the spec is taken as the spec describes. Safe. -/
  | unused
  deriving DecidableEq, Repr

/-- Why a step has no meaning. -/
inductive Refusal where
  /-- `exec` raises it in the arm of an instruction without a meaning. Safe. -/
  | notModelled (mnemonic : String)
  deriving DecidableEq, Repr

/-- A place that sends and receives packets: a tile core, a firmware core, an L2 slice, and the ports and
front ends of R421. -/
inductive Node where
  | core (n : Nat)
  | fw (k : Nat)
  | slice (n : Nat)
  | host
  | guest
  | partner
  | image
  | ctrl (c : Nat)
  | hostFront
  | callFront
  deriving DecidableEq, Repr

/-- What an atomic computes (R199). -/
inductive AmoK where
  | add | and | or | xor | min | max | minu | maxu | swap | cas
  deriving DecidableEq, Repr

/-- What an access does at its home (R201). -/
inductive AOp where
  /-- reads `size` bytes -/
  | ld (size : Nat)
  /-- writes bytes -/
  | st (data : List Byte)
  /-- an atomic of `w` bytes with operand `v` and expected value `e` -/
  | amo (k : AmoK) (w : Nat) (v e : Nat)
  | ldf
  | ldc
  | stf (v : Word)
  | stfo (v : Word)
  | empty
  | feq
  /-- fetches a 32-byte sector into the issuing core's L1 -/
  | fill
  /-- writes back the masked bytes of a sector -/
  | wb (data : List (Nat × Byte))
  /-- CWB.L2 at the home slice -/
  | wbL2
  /-- PREF's fetch of a line into its home slice (R200) -/
  | pref
  deriving DecidableEq, Repr

/-- An access to a home (R175, R201): who issued it, at which gate depth, its home address (a physical
address, or a core-local one), its virtual address, the launch it carries (R238), and the journal entry of a
posted store. -/
structure Access where
  id : Nat
  src : Agent
  ctx : CtxKey
  gen : Gen
  depth : Nat
  op : AOp
  addr : Nat
  va : Nat
  launch : Option Nat
  jn : Option Nat
  /-- the writer's kind of R224 -/
  kind : Nat
  /-- the issuing context's send slate, which a guest request packet takes (R367) -/
  slate : Word
  /-- the policy of the page that the access went through (Table 8.5) -/
  pol : Nat
  deriving DecidableEq, Repr

/-- A message for an input queue (R225): its type, the type it is matched by (R227), its slate and reply
token, its payload in g4 and up, and the queues that may admit it: the sender, and the launch that it names. -/
structure Message where
  ty : BitVec 16
  route : BitVec 16
  slate : Word
  token : Word
  payload : List Word
  src : Node
  launch : Option Nat
  /-- The handler that a front end's command names (R242). -/
  handler : Option Nat
  deriving DecidableEq, Repr

/-- A deposit for a register of a context (R105). -/
structure Deposit where
  slot : Nat
  gen : Gen
  reg : GReg
  value : Word
  src : Nat
  deriving DecidableEq, Repr

/-- A child of SPAWN or FORK.R on its way or in a spawn list (R98, R99): its registers g1..g31, its start
address, priority, ASID, launch, path and slate. -/
structure Child where
  g : List Word
  pc : Nat
  pri : Nat
  asid : BitVec 12
  launch : Option Nat
  path : BitVec 32
  slate : Word
  deriving DecidableEq, Repr

/-- A context that asks, waits or is answered: the context, its generation and gate depth, and the request. -/
structure Who where
  ctx : CtxKey
  gen : Gen
  depth : Nat
  /-- the request's number, 0 where nothing is answered -/
  id : Nat
  deriving DecidableEq, Repr

/-- What travels to a barrier's owner, and back (R256, R257, R267). -/
inductive BarMsg where
  /-- an arrival, of BAR.ARW where it waits too -/
  | arrive (wait : Bool)
  | tx (v : Int)
  | query
  /-- a child's report that its subtree has arrived: the group of its barrier, and the child's place among its
  parent's children -/
  | report (tag child : Nat)
  /-- a parent's release of the phase -/
  | release (tag : Nat)
  /-- an arrival refused at a full hold list, on its way back to its source -/
  | refused (wait : Bool)
  deriving DecidableEq, Repr

/-- A ring operation that travels to the ring's owner (R261). -/
inductive RingOp where
  | waitf | waite | advp | advc | qry
  deriving DecidableEq, Repr

/-- What a packet carries. -/
inductive Body where
  | access (a : Access)
  /-- a load, atomic or full/empty reply: the request, its value and whether it was refused with 0 -/
  | reply (w : Who) (id : Nat) (value : Nat)
  /-- an L1 sector and its bytes, for a fill -/
  | fillReply (w : Who) (id : Nat) (addr : Nat) (value : Nat)
  /-- the acknowledgement of a journal entry -/
  | ack (jn : Nat)
  /-- the acknowledgement of an L1 or CWB.L2 write-back -/
  | wbAck (id : Nat)
  /-- a refusal: the request or the journal entry it ends, the cause and its TVAL -/
  | refusal (w : Who) (id : Option Nat) (jn : Option Nat) (cause : Nat) (tval : Word)
  | message (m : Message) (w : Option Who) (jn : Option Nat)
  | putn (w : Who) (jn : Option Nat) (addr : Nat) (va : Word) (data : List Word) (m : Message) (launch : Option Nat)
  | deposit (d : Deposit) (w : Who) (jn : Option Nat)
  /-- a REPLY to a sink -/
  | sinkReply (sink : Nat) (gen : Gen) (value : Word)
  | spawn (c : Child) (src : Nat) (id : Nat)
  /-- an arrival at a join cell (kind 0), a seal (1) or a wait (2), and its result -/
  | join (w : Who) (kind : Nat) (word : Word) (value : Word)
  | barrier (src : Nat) (w : Option Who) (bar : Nat) (m : BarMsg)
  | ring (w : Who) (op : RingOp) (owner ring k : Nat)
  | kill (w : Who) (id : Nat) (target : Word) (noWait : Bool)
  deriving DecidableEq, Repr

/-- A packet on one of the four virtual networks; packets of one source, destination and network stay in
order (R204). `seq` is the number that the source's interface gives to its requests on VN0 and VN2, per
destination (R217), and `fwd` says that an old home has forwarded it (R190). -/
structure Packet where
  src : Node
  dst : Node
  vn : Fin 4
  body : Body
  seq : BitVec 12
  fwd : Bool
  deriving DecidableEq, Repr

/-- Where a context stands (R81 to R83). -/
inductive Place where
  | free
  | parked
  /-- on its way from its slot into a live position (R82) -/
  | loading (pos : Fin 4)
  | live (pos : Fin 4)
  deriving DecidableEq, Repr

/-- A wait of Table 4.2: its kind, the awaited object as TVAL[63:32] of cause 0x13 gives it, the owner (R96),
and when it began. -/
structure Wait where
  kind : Nat
  obj : Nat
  owner : Nat
  since : Nat
  deriving DecidableEq, Repr

/-- A result that comes back to a context later, and what it writes. -/
inductive Awaited where
  /-- a load: register, size code of Table 2.4 -/
  | load (d : GReg) (code : Nat)
  /-- `n` bytes of a vector load, from byte `lo` of the register -/
  | lane (d : FReg) (lo n : Nat)
  /-- an atomic's old value: its width in bytes -/
  | amo (d : GReg) (w : Nat)
  /-- a general register from the event that completes the operation -/
  | reg (d : GReg)
  /-- a vector register, by a tree result: the group and its root (R96) -/
  | vec (d : FReg) (group root : Nat)
  /-- nothing: an operation whose return a release waits for -/
  | none
  deriving DecidableEq, Repr

/-- An outstanding request of a context: its number, and what its return writes. -/
structure Await where
  id : Nat
  what : Awaited
  deriving DecidableEq, Repr

/-- An entry of the cause queue (R342): code, TVAL, the gate depth of the frame that raised it, for cause 0x28
the transfer and its handler (R343), and the homes that it concerns: of a refused or timed-out store (R216),
or of the transfer's destinations (R214). -/
structure CauseEntry where
  code : BitVec 6
  tval : Word
  depth : Nat
  handler : Word
  xfer : Word
  homes : List Node
  deriving DecidableEq, Repr

/-- A request that a bundle of the context has sent to an owner before the bundle could issue: the bundle's
address, the request's number, and the owner's answer once it has come. -/
structure Grant where
  pc : Nat
  id : Nat
  value : Option Word
  deriving DecidableEq, Repr

/-- The sequencer of a context (R158 to R162). -/
structure Seqr where
  /-- the captured A-slot instructions, with the address of each bundle -/
  body : List (Instr × Nat)
  /-- instructions that remain to be captured -/
  capture : Nat
  /-- replays that remain, for the count form -/
  left : Nat
  /-- the stream that ends the replay, for the stream form -/
  until? : Option SReg
  /-- the body instruction that replays next -/
  at_ : Nat
  /-- the sequence has ended, and its results land -/
  stop : Bool
  /-- an instruction of the sequence has faulted, and cause 0x26 waits to be delivered -/
  faulted : Bool := false
  deriving DecidableEq, Repr

/-- What trap entry banks and freezes (R162, R340): g24..g31, the presence and arm bits of all registers, FPCTL,
the send slate and the sequencer. -/
structure TrapBank where
  g : List Word
  p : BitVec 32
  a : BitVec 32
  fpctl : Word
  slate : Word
  seqr : Option Seqr
  deriving DecidableEq, Repr

/-- What a user-level interrupt banks (R162, R343): g28..g31 with their bits, FPCTL and the sequencer. -/
structure UiBank where
  g : List Word
  p : BitVec 32
  a : BitVec 32
  fpctl : Word
  seqr : Option Seqr
  deriving DecidableEq, Repr

/-- A gate frame (R349). -/
structure GateFrame where
  ret : Nat
  d : GReg
  status : Word
  asid : BitVec 12
  gate : Nat
  nret : Nat
  fpctl : Word
  slate : Word
  actLeft : Nat
  actLoaded : Nat
  /-- the caller runs in the grace of R91 -/
  inGrace : Bool
  m : Vector (BitVec 16) 8
  g : List Word
  p : BitVec 32
  a : BitVec 32
  deriving DecidableEq, Repr

/-- Where an address resolves to (R175): the issuing core's own pool, another core's, or a physical address with
its policy and the level of its leaf. -/
inductive Target where
  | own (off : Nat)
  | pool (core off : Nat)
  | phys (pa pol level : Nat)
  deriving DecidableEq, Repr

/-- A bound stream (R151 to R157): direction, element size, the stream block, the elements already fetched or
issued, the buffered vectors, and the fault that a pop of the missing vector raises. -/
structure Stream where
  write : Bool
  size : StreamSize
  base : Word
  counts : List Nat
  strides : List Int
  /-- elements the stream unit has performed so far -/
  next : Nat
  /-- total elements -/
  total : Nat
  /-- buffered vectors, oldest first -/
  buf : List Vec
  /-- vectors popped or pushed -/
  done : Nat
  fault : Option (BitVec 6 × Word)
  /-- elements pushed and not issued as stores, with where each resolved to -/
  outq : List (Nat × Target)
  asid : BitVec 12
  /-- whether the binding ran at user level (R180) -/
  user : Bool
  deriving DecidableEq, Repr

/-- An accumulator tile (R277): the running sums A + W × 2^128 modulo 2^144 that are not 0 (R69), as (index
64i + j, 144 bits), the indices whose N is set, the anchor, and the sticky flags. -/
structure AccTile where
  elems : List (Nat × BitVec 144)
  nans : List Nat
  anch : Int
  loss : Bool
  wrap : Bool
  deriving DecidableEq, Repr

/-- A tile as an activation starts with it (R78). -/
def AccTile.zero : AccTile := ⟨[], [], 0, false, false⟩

/-- A context: the registers of Tables 2.12 and 2.13 and the state of its activation. -/
structure Ctx where
  place : Place
  -- register files (R103, R104, R108)
  g : Vector Word 32
  p : BitVec 32
  a : BitVec 32
  f : Vector Vec 32
  m : Vector (BitVec 16) 8
  /-- the ring-handle file: the descriptor that each handle names -/
  h : Vector (Fin 16) 16
  pc : Nat
  -- system registers
  fpctl : Word
  uepc : Word
  cause : Word
  epc : Word
  tval : Word
  tvec : Word
  status : Word
  asid : BitVec 12
  arena : Word
  cpyid : Word
  slate : Word
  -- gate frames (R349)
  frames : List GateFrame
  -- the activation (R77, R99, R109)
  gen : Gen
  pri : Nat
  spawned : Bool
  queue : Option (Fin 64)
  launch : Option Nat
  path : BitVec 32
  spawnCount : BitVec 32
  actLeft : Nat
  actLoaded : Nat
  inGrace : Bool
  /-- cause 0x12 is due and waits for the end of a handler (R342) -/
  due12 : Bool
  killed : Bool
  /-- who waits for the kill's answer, and its request number -/
  killers : List (Who × Nat)
  -- traps (R340 to R343)
  trap : Option TrapBank
  ui : Option UiBank
  causes : List CauseEntry
  -- waits and results on their way (R83, R110)
  wait : Option Wait
  /-- when its last wait was satisfied, as a request number (R86) -/
  readyAt : Nat
  /-- the bundle that committed under STATUS.SS, until cause 0x34 is raised (R345) -/
  stepped : Option Nat
  /-- the registers of ports that are owned no longer and into which a load is still on its way (R312) -/
  portLoads : List FReg
  grants : List Grant
  busy : List RegName
  awaits : List Await
  /-- the scope of an atomic's acquire that has not invalidated the L1 yet (R212) -/
  acquire : Option Scope
  -- units bound to the context
  streams : List (SReg × Stream)
  /-- the write streams whose pushed vectors have not issued as stores, in the order of the pushing bundles (R151) -/
  pushes : List FReg
  seqr : Option Seqr
  pins : List Nat
  acc : Vector AccTile 2
  /-- MATRIX, ACC and CONV instructions that the activation has issued (R273) -/
  opno : BitVec 16
  engineUsed : Bool
  /-- completion interrupts that are outstanding (wait kind 9) -/
  cpyOpen : Nat
  /-- whether it has written to the host since its last release there (R375) -/
  hostWrites : Bool
  /-- neighbour-link ports that the activation owns, and those that forward (R312) -/
  ports : List Nat
  forwards : List Nat
  deriving DecidableEq, Repr

/-- STATUS at an activation's start: UIE and COMPAT (Table 15.6). -/
def Ctx.status0 : Word := 0x300#64

/-- A context that holds no activation. Registers: R78; log entry 14 for a firmware core's. -/
def Ctx.idle : Ctx where
  place := .free
  g := Vector.replicate 32 0
  p := BitVec.allOnes 32
  a := 0
  f := Vector.replicate 32 0
  m := Vector.replicate 8 0
  h := Vector.ofFn id
  pc := 0
  fpctl := 0
  uepc := 0
  cause := 0
  epc := 0
  tval := 0
  tvec := 0
  status := Ctx.status0
  asid := 0
  arena := 0
  cpyid := 0
  slate := 0
  frames := []
  gen := 0
  pri := 0
  spawned := false
  queue := none
  launch := none
  path := 0
  spawnCount := 0
  actLeft := 0
  actLoaded := 0
  inGrace := false
  due12 := false
  killed := false
  killers := []
  trap := none
  ui := none
  causes := []
  wait := none
  readyAt := 0
  stepped := none
  portLoads := []
  hostWrites := false
  grants := []
  busy := []
  awaits := []
  acquire := none
  streams := []
  pushes := []
  seqr := none
  pins := []
  acc := Vector.replicate 2 AccTile.zero
  opno := 0
  engineUsed := false
  cpyOpen := 0
  ports := []
  forwards := []

/-- An input queue: its descriptor (Tables 10.1, 10.2), the launch that bound it, its messages in the message
store, and what the core keeps beside it (R80, R88, R92). -/
structure Queue where
  valid : Bool
  serial : Bool
  pri : Nat
  budgetHold : Bool
  /-- who has asked for a hold: 0 FW2, 1 FW5, 2 power fail, 3 the pair -/
  holdReqs : List Nat
  deadHold : Bool
  resume : Bool
  ask : Bool
  sinken : Bool
  staleq : Nat
  maxage : Nat
  depth : Nat
  tmask : BitVec 16
  type : BitVec 16
  stalecnt : Nat
  handler : Nat
  launch : Option Nat
  msgs : List Message
  /-- which of `msgs` a stale sink received: no age test applies to them again (R228) -/
  aged : List Bool
  resumeSlate : Word
  /-- the per-take budget, 0 where it is unlimited, and what remains of it, 0xFFFFFFFF where it is unlimited (R92) -/
  takeBudget : Nat
  takeLeft : Nat
  /-- the activation budget of the handler (R90) -/
  actBudget : Nat
  /-- the slot that runs the task's activation -/
  running : Option Nat
  deriving DecidableEq, Repr

/-- An unbound queue. -/
def Queue.free : Queue := ⟨false, false, 0, false, [], false, false, false, false, 0, 0, 0, 0, 0, 0, 0, none, [], [], 0, 0, 0,
  0, none⟩

/-- A record of the overflow store (R95, R106, R227). -/
inductive Parked where
  | message (q : Fin 64) (m : Message) (aged : Bool)
  | deposit (d : Deposit)
  | absent (slot : Nat) (d : Deposit)
  deriving DecidableEq, Repr

/-- A named region's header (R137), with words 1 and 2. -/
structure Region where
  valid : Bool
  moving : Bool
  lost : Bool
  mob : Nat
  ckpt : Bool
  pins : Nat
  size : Nat
  base : Nat
  slate : Word
  age : Word
  deriving DecidableEq, Repr

/-- A header that holds no region. -/
def Region.none : Region := ⟨false, false, false, 0, false, 0, 0, 0, 0, 0⟩

/-- A launch's block of region headers on a core (R135). -/
structure RegionBlock where
  launch : Nat
  first : Nat
  count : Nat
  deriving DecidableEq, Repr

/-- A join cell (Table 4.4). -/
structure Cell where
  isOpen : Bool
  sealed : Bool
  det : Bool
  orphan : Bool
  opener : Nat
  openerGen : Gen
  spawned : Nat
  arrived : Nat
  ren : Bool
  rbase : Nat
  rerr : Bool
  /-- the opener that waits in JOIN.WAIT -/
  waiter : Option Who
  deriving DecidableEq, Repr

/-- A closed cell. -/
def Cell.closed : Cell := ⟨false, false, false, false, 0, 0, 0, 0, false, 0, false, none⟩

/-- A reply sink (R240): its generation, the context and register that it is bound to, the server of the
request (R96), and a value that has arrived and not yet landed. -/
structure Sink where
  gen : Gen
  bound : Option (Who × GReg)
  server : Nat
  value : Option Word
  deriving DecidableEq, Repr

/-- An entry of the posted-store journal (R216, R236): its index, the context that issued it, the home, the
virtual address, the packet, and the number of retransmissions. -/
structure JEntry where
  idx : Nat
  who : Who
  home : Node
  va : Word
  packet : Packet
  tries : Nat
  /-- the bound register whose stream pushed the store (R157) -/
  stream : Option SReg
  deriving DecidableEq, Repr

/-- A write-back on its way (R208): its number, its home, and its line's physical address. -/
structure WriteBack where
  id : Nat
  home : Node
  addr : Nat
  deriving DecidableEq, Repr

/-- A sector of an L1 line (R183). -/
structure Sector where
  valid : Bool
  dirty : Bool
  mask : BitVec 32
  data : BitVec 256
  deriving DecidableEq, Repr

/-- A line of the L1: its way (the cache bank), its line number PA[46:8], and its eight sectors. -/
structure Line where
  way : Nat
  line : Nat
  sectors : Vector Sector 8
  deriving DecidableEq, Repr

/-- A sector on its way into the L1 (R184): the request, the sector's physical address, whether its line still
waits for it, the bytes that stores had put into the sector and that have left for the home since, and the
bytes that the sector already held when the load issued, which the load sees (R206). -/
structure Fill where
  id : Nat
  pa : Nat
  live : Bool
  mask : BitVec 32
  data : BitVec 256
  own : BitVec 32
  ownData : BitVec 256
  deriving DecidableEq, Repr

/-- A translation (R181): a valid leaf, tagged by ASID or global. -/
structure Tlb where
  asid : BitVec 12
  global : Bool
  /-- virtual page number and log2 of the page's bytes -/
  vpn : Nat
  shift : Nat
  ppn : Nat
  pol : Nat
  u : Bool
  x : Bool
  w : Bool
  rd : Bool
  deriving DecidableEq, Repr

/-- A full/empty operation that waits at its owner (R196). -/
structure FeWait where
  a : Access
  deriving DecidableEq, Repr

/-- A window register (Table 10.4) and WINCTL (Table 10.5). -/
structure Windows where
  expen : Bool
  default_ : Nat
  win : Vector Word 8
  deriving DecidableEq, Repr

/-- A watchpoint of a core (Tables 15.11, 15.12): its registers, and the home range and context that a
registration holds. -/
structure Watch where
  addr : BitVec 48
  en : Bool
  deliv : Nat
  err : Nat
  hits : Nat
  size : Nat
  lo : Nat
  who : Option Who
  deriving DecidableEq, Repr

/-- A cleared watchpoint. -/
def Watch.off : Watch := ⟨0, false, 0, 0, 0, 3, 0, none⟩

/-- A reshape that has been accepted (R138, R139): the new counts, who waits for it, and the new places of the
regions that move, by header (R136). -/
structure Reshape where
  counts : Nat × Nat × Nat × Nat
  who : Who
  id : Nat
  places : List (Nat × Nat)
  deriving DecidableEq, Repr

/-- A spilled context (R94, R95): its slot, the context, and whether its return is pending. -/
structure Spilled where
  slot : Nat
  ctx : Ctx
  pending : Bool
  deriving DecidableEq, Repr

/-- A spawn request that has left neither its core nor its send entry: the child, its target once it is
known, the requested role, the journal entries and write-backs that its release waits for, and its context. -/
structure SpawnOut where
  id : Nat
  child : Child
  target : Option Nat
  role : Nat
  waitFor : List Nat
  wbFor : List Nat
  /-- the earlier accesses, and the sinks of earlier GETRs, whose return the release waits for (R208) -/
  accFor : List Nat
  sinkFor : List (Nat × Gen)
  who : Who
  sent : Bool
  retry : Bool
  deriving DecidableEq, Repr

/-- A recruitment of FORK.R that has not answered: the chunks, the trip, and the children's template. -/
structure Recruit where
  who : Who
  template : Child
  trip : Nat
  chunk : Nat
  count : Nat
  word : Option Word
  firstSpawn : BitVec 32
  parentPath : BitVec 32
  waitFor : List Nat
  wbFor : List Nat
  accFor : List Nat
  sinkFor : List (Nat × Gen)
  deriving DecidableEq, Repr

/-- A barrier (Table 11.1) with its tag and the launch whose groups the tag names, its child reports, its wait
list, and its hold list, whose entries say whether they wait too (R254 to R257). -/
structure Barrier where
  live : Bool
  rep : Bool
  ovr : Bool
  txerr : Bool
  scope : Bool
  phase : Bool
  pend : Int
  arrived : Nat
  expect : Nat
  tag : Nat
  launch : Option Nat
  /-- bit `i`: the child at position `i` has reported -/
  children : BitVec 4
  waiters : List Who
  holds : List (Who × Bool)
  /-- the homes that engines' completions of this phase, and of the last complete one, have written (R214) -/
  homes : List Node
  lastHomes : List Node
  deriving DecidableEq, Repr

/-- A barrier as it stands after reset. -/
def Barrier.off : Barrier := ⟨false, false, false, false, false, false, 0, 0, 0, 0, none, 0, [], [], [], []⟩

/-- Who waits on a ring (R261): a context, or an operation of an engine of an agent, by its number. -/
inductive RingUser where
  | ctx (w : Who)
  /-- an operation of a matrix engine, for its A operand, its ACC ring (false) or its B operand -/
  | matrix (ag : Agent) (id : Nat) (isB : Bool)
  /-- an operation of a conversion unit, for its source or its destination -/
  | conv (ag : Agent) (id : Nat) (isDst : Bool)
  /-- a transfer of a copy engine, for its destination on the ring's tile -/
  | copy (ag : Agent) (id : BitVec 16)
  | forward (ag : Agent) (isB : Bool)
  deriving DecidableEq, Repr

/-- A waiter of a ring. -/
structure RingWaiter where
  user : RingUser
  op : RingOp
  k : Nat
  deriving DecidableEq, Repr

/-- A ring descriptor (Tables 11.3, 11.4) and its waiters in order of arrival. -/
structure Ring where
  valid : Bool
  owner : Nat
  prod : Nat
  cons : Nat
  isAlias : Bool
  slots : Nat
  slotb : Nat
  base : Nat
  nfree : Nat
  claim : Nat
  filled : Nat
  held : Nat
  pidx : Nat
  cidx : Nat
  launch : Option Nat
  waiters : List RingWaiter
  deriving DecidableEq, Repr

/-- A descriptor that is not valid. -/
def Ring.off : Ring := ⟨false, 0, 0, 0, false, 0, 0, 0, 0, 0, 0, 0, 0, 0, none, []⟩

/-- How far an operation of an engine has come (R281, R310). -/
inductive OpPhase where
  | queued
  /-- in a barrier's wait list -/
  | atBarrier
  /-- past its barrier -/
  | past
  /-- among the waiters of its rings -/
  | atRings
  | running
  deriving DecidableEq, Repr

/-- An operation of the matrix engine (KIND 0 to 7) or the conversion unit (KIND 8 to 11) (R271, R310): its
operands as read at issue, and the slots granted so far. -/
structure EngOp where
  id : Nat
  who : Who
  opno : BitVec 16
  kind : Nat
  /-- the accumulator, 0 or 1 -/
  acc : Nat
  /-- the handles of rings A and B -/
  ra : Nat
  rb : Nat
  /-- the handle or the local offset of what is read: the list of MMA.G, the source of ACC.WR or of a conversion -/
  src : Nat
  /-- the handle or the local offset of what is written -/
  dst : Nat
  /-- gb of ACC.RD or a conversion, and ga of ACC.ANCH -/
  seed : Word
  mma : MmaField
  accF : AccField
  conv : ConvField
  launch : Option Nat
  /-- whether a trap handler, or a user-level interrupt's, has issued it -/
  inTrap : Bool
  inUi : Bool
  phase : OpPhase
  /-- the row counts of MMA.G, once the list is read -/
  rows : List Nat
  /-- the slots of ring A, or of a conversion's source, or of ACC.RD's or ACC.WR's ring -/
  slotsA : List Nat
  /-- the slots of ring B, or of a conversion's destination -/
  slotsB : List Nat
  /-- the bytes written, and the flags -/
  bytes : Nat
  flags : Nat
  /-- ACC.RD has set WRAP -/
  wrapped : Bool
  /-- what ACC.STAT returns -/
  value : Word
  deriving DecidableEq, Repr

/-- A forward buffer of MMROT (R285): the bytes, the ring, the neighbour, the operation that forwards, and a granted
slot. -/
structure Forward where
  data : List Byte
  ring : Nat
  dest : Nat
  op : EngOp
  /-- it stands among the waiters of the neighbour's ring -/
  asked : Bool
  slot : Option Nat
  deriving DecidableEq, Repr

/-- Whose operation forwards. -/
def Forward.who (f : Forward) : Who := f.op.who

/-- A destination of a copy transfer (R303): its core, none for the single destination of DST; whether the
transfer stands among the waiters of the core's ring, and the slot granted; and the elements written. -/
structure XferDest where
  core : Option Nat
  asked : Bool
  slot : Option Nat
  next : Nat
  /-- the next element, read and not yet written -/
  elem : Option Nat
  deriving DecidableEq, Repr

/-- A copy transfer (R297): its id, the parameter block, and what it has done. STATE is that of Table 13.8. -/
structure Xfer where
  id : BitVec 16
  who : Who
  asid : BitVec 12
  /-- whether it was issued at user level (R180) -/
  user : Bool
  block : List Word
  fw : CpyField
  launch : Option Nat
  state : Nat
  flags : Nat
  bytes : Nat
  reason : Nat
  faultVa : Nat
  faultCause : Nat
  dests : List XferDest
  /-- destination elements computed so far, which every destination receives -/
  cache : List Nat
  /-- the bytes that the transfer's own writes have replaced (R302) -/
  shadow : List Host.Cell
  /-- the homes that it has written (R214) -/
  homes : List Node
  deriving DecidableEq, Repr

/-- An ended activation whose operations an engine still holds: its tiles and its live position (R274). -/
structure Drain where
  ctx : CtxKey
  gen : Gen
  pos : Fin 4
  acc : Vector AccTile 2
  /-- the numbers of those operations whose code had FPCTL.AWE set as the activation ended (R71, R274) -/
  awe : List Nat
  deriving DecidableEq, Repr

/-- A member's part in a tree operation (R263). -/
structure TreePart where
  core : Nat
  op : Nat
  redOp : Nat
  value : Vec
  who : Who
  d : FReg
  id : Nat
  landed : Bool
  deriving DecidableEq, Repr

/-- The k-th tree operation of a group of a launch. -/
structure Tree where
  launch : Nat
  group : Nat
  count : BitVec 16
  parts : List TreePart
  deriving DecidableEq, Repr

/-- An entry of a send queue (R235): the activation whose message it holds, whether the message has left
while a kill keeps the entry (R97), and the message itself, but for a spawn request, which stands in `spawnOut`. -/
structure SendEntry where
  ctx : CtxKey
  gen : Gen
  left : Bool
  packet : Option Packet
  deriving DecidableEq, Repr

/-- A tile core, and the parts of it that a firmware core has too. -/
structure Core where
  -- the pool (R128, R139)
  counts : Nat × Nat × Nat × Nat
  reshape : Option Reshape
  regions : Vector Region 64
  regionBlocks : List RegionBlock
  -- the run queue (R85, R86)
  queues : Vector Queue 64
  spawnList : List Child
  last : Vector Nat 4
  rrPos : Nat
  gens : Vector Gen 64
  spilled : List Spilled
  overflow : List Parked
  -- messages (R106, R235, R240)
  recvQ : List Deposit
  sinks : Vector Sink 16
  sendq : Vector (List SendEntry) 4
  spawnOut : List SpawnOut
  recruits : List Recruit
  journal : List JEntry
  loads : List Nat
  writeBacks : List WriteBack
  feWaits : List FeWait
  windows : Windows
  -- join cells, barriers and rings
  cells : Vector Cell 256
  barriers : List (Nat × Barrier)
  rings : Vector Ring 16
  treeCounts : List (Nat × Nat × BitVec 16)
  -- caches
  l1 : List Line
  fills : List Fill
  tlb : List Tlb
  icache : List (Nat × Nat)
  /-- the handler table of each launch as the core's last start of an activation found it: the launch, the table's
  address, and its doublewords as one number (R222; log entry 122) -/
  entries : List (Nat × Nat × Nat)
  -- engines
  xferNext : BitVec 16
  xfers : List Xfer
  xfersDone : List Xfer
  convOps : List EngOp
  matOps : List EngOp
  /-- the slots that the engine has taken and holds, by ring, most recent first (R281) -/
  engHeld : List (Nat × List Nat)
  draining : List Drain
  forwards : List (Bool × Forward)
  linkIn : Vector (List Vec) 4
  linkOut : Vector (List Vec) 4
  -- watchpoints (R354)
  watches : Vector Watch 4
  /-- POOL.PINs that wait for a moving region: the operand, the context and the request (R143) -/
  pinWaits : List (Nat × Who)
  /-- accumulator tiles with an error that cannot be corrected: the context's slot and the tile (R294) -/
  badTiles : List (CtxKey × Gen × Nat)
  deriving DecidableEq, Repr

/-- WINCTL and the windows at reset (Tables 10.4, 10.5). -/
def Windows.reset : Windows :=
  ⟨false, 0, (Vector.replicate 8 0#64).set 0 0xF000_0000_FFF0_0000#64⟩

/-- A tile core after cold reset (R128, and the tables that each field's structure cites). DESIGN CHOICE: the round
robin of R87 starts from live position 0, so that position 1 comes first; the spec gives no start. -/
def Core.reset : Core where
  counts := (6, 33, 8, 16)
  reshape := none
  regions := Vector.replicate 64 Region.none
  regionBlocks := []
  queues := Vector.replicate 64 Queue.free
  spawnList := []
  last := Vector.replicate 4 64
  rrPos := 0
  gens := Vector.replicate 64 0
  spilled := []
  overflow := []
  recvQ := []
  sinks := Vector.replicate 16 ⟨0, none, 0, none⟩
  sendq := Vector.replicate 4 []
  spawnOut := []
  recruits := []
  journal := []
  loads := []
  writeBacks := []
  feWaits := []
  windows := Windows.reset
  cells := Vector.replicate 256 Cell.closed
  barriers := []
  rings := Vector.replicate 16 Ring.off
  treeCounts := []
  l1 := []
  fills := []
  tlb := []
  icache := []
  entries := []
  xferNext := 1
  xfers := []
  xfersDone := []
  convOps := []
  matOps := []
  engHeld := []
  draining := []
  forwards := []
  linkIn := Vector.replicate 4 []
  linkOut := Vector.replicate 4 []
  watches := Vector.replicate 4 Watch.off
  pinWaits := []
  badTiles := []

/-- A mailbox entry (R388, Table 18.1). -/
structure Mail where
  w0 : Word
  w1 : Word
  w2 : Word
  w3 : Word
  deriving DecidableEq, Repr

/-- A firmware core's mailbox, the entries that raising blocks hold while it is full, its send registers, and
whether it has failed, has been started, or has stopped at END or YIELD (R387 to R389). -/
structure FwCore where
  mailbox : List Mail
  held : List Mail
  send : Vector Word 4
  failed : Bool
  started : Bool
  asleep : Bool
  /-- the ns of its own clock since the watchdog was last restarted (R389) -/
  idle : Nat
  /-- the body of the image that it runs (R387, R390; log entry 88) -/
  body : List Byte
  deriving DecidableEq, Repr

/-- The time block (Tables 14.1 to 14.7). `epochNow` is the DTIME of clapper 0 that is in force (R6), `slewLeft`
is in ns, `first` is the number of the next clapper, and `fired` says that one has fired. -/
structure TimeBlock where
  /-- die 1's copy of DTIME; `dtime` is die 0's (R315) -/
  dtime1 : Nat
  /-- ns of DTIME since the servo last slewed by 1 ns -/
  slewAcc : Nat
  expen : Bool
  run : Bool
  guardNs : Nat
  phase : Nat
  egress : Nat
  period : Nat
  epoch : Word
  epochNow : Nat
  dtime : Nat
  freq : BitVec 32
  locked : Bool
  err : Bool
  slewLeft : Int
  takeno : Nat
  first : Nat
  fired : Bool
  /-- the host-visible time-lost status (R316) -/
  timeLost : Bool
  deriving DecidableEq, Repr

/-- A domain switch in progress (R190): the values before and after, who applies, and how far each step is. -/
structure Switch where
  oldMask : Vector Word 16
  oldSel : Vector Word 30
  newMask : Vector Word 16
  newSel : Vector Word 30
  dom : Nat
  applied : Bool
  signalled : Bool
  /-- lines written back, for MOVED -/
  count : Nat
  deriving DecidableEq, Repr

/-- A write of SPLIT_DOMAIN that is still to come (R414): of a HASHMASK, or of a DOMSEL. -/
inductive DomWrite where
  | mask (n : Fin 16) (v : Word)
  | sel (j : Fin 30) (v : Word)
  deriving DecidableEq, Repr

/-- A line that an L2 slice holds (R186): the slice, the line's number PA[46:8], and its sectors that are valid and
dirty. Its bytes stand in memory, which is the home's. -/
structure L2Line where
  slice : Nat
  line : Nat
  valid : BitVec 8
  dirty : BitVec 8
  deriving DecidableEq, Repr

/-- The interleave domains (Tables 8.6 to 8.9), and what the L2 slices hold: their lines in order of use, the
latest first, and the ways that are retired, one entry for each (R186, R191). -/
structure Domains where
  expen : Bool
  ndom : Nat
  mask : Vector Word 16
  sel : Vector Word 30
  moved : Nat
  err : Nat
  lastDom : Nat
  switch : Option Switch
  /-- the command SPLIT_DOMAIN that is under way: its tag, and the writes that remain (R414) -/
  split : Option (BitVec 32 × List DomWrite)
  l2 : List L2Line
  lostWays : List Nat
  deriving DecidableEq, Repr

/-- What a tile core latches at a snapshot (R355): for each of its four live positions the PC, slot, wait kind and priority
of the context there, if any; the candidates of each priority; the journal's and send queues' fills; and TAKENO. -/
structure Latched where
  core : Nat
  live : List (Option (Nat × Nat × Nat × Nat))
  cands : List Nat
  journal : Nat
  sendq : List Nat
  take : Nat
  deriving DecidableEq, Repr

/-- The snapshot block (Tables 15.13, 15.14). -/
structure Snapshots where
  held : Bool
  last : BitVec 4
  timeEn : Bool
  watchEn : Bool
  pinEn : Bool
  swEn : Bool
  time : Word
  armed : Bool
  ignored : Nat
  seq : BitVec 32
  latched : List Latched
  deriving DecidableEq, Repr

/-- A mirrored write of an input-map entry (R359). -/
structure Mirrored where
  entry : Nat
  data : List Byte
  seqNo : BitVec 16
  deriving DecidableEq, Repr

/-- The pair block (Tables 16.1 to 16.3), the link, and what reconciliation and the digests keep. -/
structure PairBlock where
  expen : Bool
  enable : Bool
  role : Bool
  hbtol : Nat
  /-- EXPEN has gone from 1 to 0: HBTOL is derived again at the next clapper (R6) -/
  hbtolBack : Bool
  paired : Bool
  driving : Bool
  mismatch : Bool
  unrec : Bool
  misses : Nat
  reason : Nat
  term : BitVec 16
  mmtake : BitVec 32
  linkUp : Bool
  /-- the role that was fixed at pairing, MEMBER of R319 -/
  member : Bool
  /-- the package has restarted from a reel, and rejoins a pair as silent (R383) -/
  rejoin : Bool
  mirrorOut : List Mirrored
  /-- mirrored writes that belong to the take after the next -/
  mirrorLate : List Mirrored
  markerSent : List Nat
  /-- takes whose marker has arrived, or has been given up (R360) -/
  markerGot : List Nat
  mirroring : Bool
  /-- the half-take whose heartbeat went out last, as 2n for the first half of take n (R23) -/
  lastBeat : Option Nat
  /-- the half-take for which the partner's heartbeat was last heard or missed (R362) -/
  judged : Option Nat
  /-- the DTIME of a switchover: egress is enabled in the Qbv windows that open after it (R23) -/
  openAfter : Option Nat
  beats : List (Nat × Bool × BitVec 16)
  ownDigests : List (Nat × Word)
  /-- The latest take whose digest FW6 has sent (R361). -/
  digestSent : Option Nat
  peerDigests : List (Nat × Word)
  deriving DecidableEq, Repr

/-- A guest queue (Table 16.5). -/
structure GuestQueue where
  valid : Bool
  held : Bool
  block : Bool
  asid : BitVec 12
  depth : Nat
  launch : Nat
  seq : BitVec 16
  preempting : Bool
  deriving DecidableEq, Repr

/-- An outstanding guest request (R367): its queue and SEQ, its issuer, and the fields that its answer uses. -/
structure GuestReq where
  q : Fin 64
  seq : BitVec 16
  who : Who
  packet : List Word
  deriving DecidableEq, Repr

/-- The guest port (Table 16.4). -/
structure GuestPort where
  expen : Bool
  en : Bool
  up : Bool
  preempt : Nat
  tmo : Nat
  queues : Vector GuestQueue 64
  /-- the port's own 256 translations, most recent first (R369) -/
  tlb : List Tlb
  reqs : List GuestReq
  /-- packets sent to the guest, newest first -/
  sent : List (List Word)
  /-- the words that a Completion has filled and whose waiters its release is to reach (R372) -/
  released : List Nat
  deriving DecidableEq, Repr

/-- A write that has met a watchpoint, until the trigger is delivered (R224): the watching core and its
watchpoint, the writer's kind and number, and the address. -/
structure Trig where
  ag : Agent
  n : Nat
  kind : Nat
  writer : Nat
  addr : Nat
  deriving DecidableEq, Repr

/-- A page that its old home has blocked for a migration (R219): its old and new addresses, and its size. -/
structure Migration where
  old : Nat
  new : Nat
  size : Nat
  deriving DecidableEq, Repr

/-- Power and heat (Tables 17.1 to 17.5), for die 0 and die 1. -/
structure Power where
  expen : Bool
  floor : Nat × Nat
  plimit : Nat
  down : Nat
  hyst : Nat
  gstep : Nat × Nat
  /-- the step in force (R378) -/
  step : Nat × Nat
  below : Nat
  tcrit : Nat
  talert : Nat
  temps : List (Nat × Int)
  trip : Bool × Bool
  trips : Nat × Nat
  alerted : Bool × Bool
  sel : Nat
  /-- when FW5's next tick falls (R417) -/
  tick : Option Nat
  /-- 0 normal; 1 draining; 2 drained; 3 the reel's sections are written; 4 the reel is complete (R381) -/
  failing : Nat
  deriving DecidableEq, Repr

/-- The exceptions of a control core that R335 names. -/
inductive CtrlTrap where
  | loadAccess | storeAccess | illegal
  deriving DecidableEq, Repr

/-- The machine-level CSRs of RISC-V that a trap of a control core writes, and mtvec (R14, R335; log entry 118). -/
structure CtrlCsrs where
  mstatus : Word
  mtvec : Word
  mepc : Word
  mcause : Word
  mscratch : Word
  deriving DecidableEq, Repr

/-- A control core (R14, R334 to R336): result queues, message port and CSRs; its integer and floating-point registers,
program counter, mode, machine-level CSRs, physical memory protection and tightly coupled memory, in memory's canonical
form. -/
structure CtrlCore where
  x : Vector Word 32
  f : Vector Word 32
  fcsr : BitVec 8
  pc : Word
  csrs : CtrlCsrs
  user : Bool
  /-- the configuration byte and the address register of each PMP entry -/
  pmp : Vector (BitVec 8 × Word) 16
  tcm : List Host.Cell
  /-- the enables of platform interrupts 16, 17 and 18 in mie -/
  mie : BitVec 3
  results : Vector (List (Word × Word)) 4
  maxage : Vector Nat 4
  stale : Vector Nat 4
  tested : Vector Bool 4
  data : Vector Word 8
  err : Nat
  busy : Bool
  mpslate : Word
  vcause : Word
  takeIrq : Bool
  devIrq : Bool
  outdone : Bool
  deriving DecidableEq, Repr

/-- A reel (Table 17.6): its header with the size and the digest of the other sections, none until it has been written, and
those sections. -/
structure ReelImage where
  seq : BitVec 16
  take : Nat
  size : Nat
  dropped : Nat
  digest : Option (List Byte)
  image : List Host.Cell
  ctrl : List CtrlCore
  tasks : List (Nat × Nat × Queue)
  regions : List (Nat × Nat × Region × List Host.Cell)
  deriving DecidableEq, Repr

/-- The reel store (Table 17.7, R383). -/
structure Reels where
  en : Bool
  drain : Nat
  slot0 : Option ReelImage
  slot1 : Option ReelImage
  deriving DecidableEq, Repr

/-- The fuses (R394) and the boot (R392, R395). -/
structure Security where
  /-- owner slots: the key digest and the revoke fuse, slot 0 first -/
  owners : List (List Byte × Bool)
  svn : Nat
  /-- the command ADVANCE_VERSION that blows fuses: its tag and the count that it ends at (R394) -/
  advance : Option (BitVec 32 × Nat)
  mrs : Vector (List Byte) 16
  /-- the images of the store: class and bytes -/
  store : List (Nat × List Byte)
  mcrev : BitVec 16
  /-- the image that boot stopped at, in recovery mode -/
  recovery : Option Nat
  booted : Bool
  library : Bool
  translator : Bool
  /-- what FUSESTAT shows, as FW0 loaded it -/
  usedShown : Nat
  deriving DecidableEq, Repr

/-- An entry of an image map (Table 14.15, R331): the stream or the frame, and for the output map STAMP. -/
structure MapEntry where
  valid : Bool
  stream : Nat
  imgOff : Nat
  len : Nat
  payOff : Nat
  stamp : Bool
  /-- the stream carries an 802.1CB R-TAG (R359) -/
  rtag : Bool
  deriving DecidableEq, Repr

/-- An egress frame descriptor (R331). -/
structure FrameDesc where
  port : Nat
  cls : Nat
  header : List Byte
  len : Nat
  deriving DecidableEq, Repr

/-- Both image maps. -/
structure Maps where
  inMap : List MapEntry
  outMap : List MapEntry
  descs : List FrameDesc
  deriving DecidableEq, Repr

/-- A gate control list (R328): the divisor k of its cycle time PERIOD / k, and from each offset in the cycle, in ns, the
traffic classes whose gate is open. -/
structure PortGates where
  k : Nat
  list : List (Nat × BitVec 8)
  deriving DecidableEq, Repr

/-- The 802.1Qci filter of a stream: its number, the list of its stream gate (a frame passes while bit 0 is set), and the
maximum SDU size in bytes (R328, R422). -/
structure StreamFilter where
  filter : Nat
  gate : PortGates
  maxSdu : Nat
  deriving DecidableEq, Repr

/-- What last wrote an entry of the input map in the take being received (R329, R359). -/
structure Arrival where
  entry : Nat
  endNs : Nat
  port : Nat
  seqNo : BitVec 16
  deriving DecidableEq, Repr

/-- The ingress/egress engine (Table 14.16, R328 to R333). -/
structure ImageEngine where
  expen : Bool
  mapPend : Bool
  outmask : BitVec 8
  /-- the Qbv gates of ports 0 to 9, and the filters of the streams that have one (R328) -/
  gates : Vector PortGates 10
  qci : List (Nat × StreamFilter)
  /-- frames that reached FW7: PTP frames, and those that no stream identification entry matched (R328) -/
  toFw7 : Nat
  maps : Maps
  /-- the maps that MAPSW made active last, and whether they come back at the next clapper, since EXPEN has gone from 1 to
  0 (R6) -/
  basicMaps : Maps
  mapsBack : Bool
  /-- the maps whose output part the frames of the last egress swap follow (R331) -/
  egMaps : Maps
  loaded : Option Maps
  arrivals : List Arrival
  /-- frames of the take after the next, held until the swap: the guard of R18 -/
  late : List Frame
  egressDone : Bool
  sent : List Nat
  /-- frames that left: header and payload, newest first -/
  wire : List (List Byte)
  drops : List (Nat × Nat)
  dropTake : List Nat
  deriving DecidableEq, Repr

/-- A call-sheet entry (Table 14.13), words 0 to 10, and whether it has fired in this take. -/
structure SheetEntry where
  words : List Word
  fired : Bool
  deriving DecidableEq, Repr

/-- The call sheet (Table 14.14). -/
structure CallSheet where
  active : List SheetEntry
  sheet : BitVec 16
  pending : Option (BitVec 16 × List SheetEntry)
  late : Nat
  /-- the DTIME at which FW2 last posted an entry (R327) -/
  posted : Nat
  deriving DecidableEq, Repr

/-- A group of a launch (R251): its index, address space, and members with the root first. -/
structure Group where
  idx : Nat
  asid : BitVec 12
  members : List Nat
  deriving DecidableEq, Repr

/-- A distribution table (Tables 5.8, 5.9): header and dimension words. -/
structure DistTable where
  idx : Nat
  head : Word
  dims : List Word
  deriving DecidableEq, Repr

/-- A translated body in the code heap (R403 to R405). -/
structure Translation where
  key : List Byte
  handler : Nat
  addr : Nat
  size : Nat
  deriving DecidableEq, Repr

/-- An entry of a module's handler table (R402): the message type, the role (3 for any), whether it is serial, its priority,
maximum age and activation budget, and, where it is eager, where the translator has written its body. -/
structure ModEntry where
  ty : BitVec 16
  role : Fin 4
  serial : Bool
  eager : Option Nat
  pri : Fin 4
  maxage : BitVec 8
  budget : BitVec 32
  deriving DecidableEq, Repr

/-- A live launch (R399 to R401). -/
structure Launch where
  la : Nat
  tag : BitVec 32
  asid : BitVec 12
  cores : List Nat
  det : Bool
  compat : Bool
  tvec : Word
  htable : Nat
  budget : Nat
  tokens : Nat
  arena : Word
  groups : List Group
  dists : List DistTable
  gates : List Nat
  /-- the guest-queue records of its image, from which FW2 binds guest queues (Table 16.5) -/
  guestQueues : List Nat
  regionSizes : List Nat
  digests : List Nat
  /-- the bytes of its image, which the configuration digest covers (R358), and the key of its module's translations
  (R403) -/
  image : List Byte
  key : List Byte
  ending : Bool
  /-- the host command that waits for the end -/
  endTag : Option (BitVec 32)
  deriving DecidableEq, Repr

/-- A gate table entry (Table 15.9), and the launch that declared it. -/
structure Gate where
  valid : Bool
  level : Bool
  callers : Nat
  grp : Nat
  narg : Nat
  nret : Nat
  asid : BitVec 12
  akind : BitVec 16
  handler : Nat
  budget : Nat
  fails : Nat
  launch : Option Nat
  deriving DecidableEq, Repr

/-- An entry that is not valid. -/
def Gate.off : Gate := ⟨false, false, 0, 0, 0, 0, 0, 0, 0, 0, 0, none⟩

/-- A record of the event log, the dailies: its cause or kind, the core it concerns, and its values. -/
structure Daily where
  code : Nat
  core : Nat
  vals : List Nat
  deriving DecidableEq, Repr

/-- An INVPG that has not been acknowledged (R353). -/
structure Invpg where
  who : Who
  id : Nat
  va : Nat
  asid : BitVec 12
  mode : Nat
  globals : Bool
  deriving DecidableEq, Repr

/-- A command queue of the host (R374): where it and its completion queue stand in host memory, how many entries each has,
the next command that FW1 reads, the next completion, and how many commands are new. -/
structure HostQueue where
  base : Nat
  done : Nat
  size : Nat
  head : Nat
  tail : Nat
  new : Nat
  deriving DecidableEq, Repr

/-- The host port (R374, R375). -/
structure HostPort where
  queues : Vector HostQueue 16
  /-- commands of a queue that have been read and are not completed, by tag -/
  open_ : List (BitVec 32 × Nat)
  doorbells : List Nat
  completions : List (BitVec 32 × Nat)
  aperture : Option (BitVec 12 × Nat)
  /-- data returned to the host or the guest by their last access; none when it was refused -/
  returned : Option (List Byte)
  /-- bytes of quotes and responses are written to the host window, in memory -/
  terminated : List Nat
  /-- REPLACE as FW7 last advertised it in a management frame (R386) -/
  advertised : BitVec 6
  deriving DecidableEq, Repr

/-- The device blocks. -/
structure Device where
  time : TimeBlock
  dom : Domains
  ptroot : Word
  snap : Snapshots
  pair : PairBlock
  guest : GuestPort
  power : Power
  reels : Reels
  replace : BitVec 6
  sec : Security
  slips : Nat
  lastSlip : Nat
  image : ImageEngine
  sheet : CallSheet
  ctrl : Vector CtrlCore 8
  host : HostPort
  launches : List Launch
  gates : List (Nat × Gate)
  trees : List Tree
  /-- the code heap, least recently used first: key, handler, address and size of a translation (R403, R405) -/
  heap : List Translation
  requests : List (Nat × Nat × Who)
  dailies : List Daily
  invpg : Option Invpg
  clusterTlb : List (Nat × Tlb)
  /-- writes that have met a watchpoint -/
  trigs : List Trig
  /-- sectors that cannot be corrected, by home address, with whether the error is one of SRAM (R191), and the
  pages being retired -/
  failed : List (Nat × Bool)
  blocked : List Nat
  /-- pages on their way to a new place (R219), and correctable errors that FW4 has counted (R191) -/
  migrations : List Migration
  corrected : Nat
  sparePages : Nat
  retired : List Nat
  spareTiles : Nat × Nat
  /-- tiles, by x and y, that are retired once the launches that hold them have ended (R385) -/
  retiring : List (Nat × Nat)
  tileMap : List (Nat × Nat)
  linksDown : List (Nat × Nat)
  /-- packets that a failing link has lost and that are still to be sent again, the pairs in repair, and the
  numbers that the next requests of each pair take (R217) -/
  lost : List Packet
  repair : List (Node × Node)
  seqs : List ((Node × Node) × BitVec 12)
  /-- the next page and ASID that FW3 hands out (log entry 10) -/
  nextPage : Nat
  nextAsid : Nat
  deriving DecidableEq, Repr

/-- What the world outside does to the machine that no row of the opcode table names (log entry 118). -/
inductive Outer where
  /-- a control core computes in its registers (R14): the RISC-V instruction set is its own -/
  | ctrlCompute (c : Fin 8) (rd : Fin 32) (v : Word)
  /-- a control core changes its mode -/
  | ctrlMode (c : Fin 8) (user : Bool)
  | ctrlPmp (c : Fin 8) (i : Fin 16) (cfg : BitVec 8) (addr : Word)
  /-- a control core's load of 1, 2, 4 or 8 bytes, and its store (R335, R336) -/
  | ctrlLoad (c : Fin 8) (rd : Fin 32) (addr : Word) (n : Fin 9)
  | ctrlStore (c : Fin 8) (rs : Fin 32) (addr : Word) (n : Fin 9)
  /-- a control core's atomic of 4 or 8 bytes in the process image window (R333) -/
  | ctrlAmo (c : Fin 8) (rd rs : Fin 32) (addr : Word) (k : AmoK) (wide : Bool)
  /-- a control core's read and write of a CSR of Table 14.18, and of the enables in mie -/
  | ctrlCsrRead (c : Fin 8) (rd : Fin 32) (num : BitVec 12)
  | ctrlCsrWrite (c : Fin 8) (rs : Fin 32) (num : BitVec 12)
  | ctrlMie (c : Fin 8) (v : BitVec 3)
  /-- a control core computes in its floating-point registers, goes on at another address, leaves its trap handler, or takes
  an interrupt that is enabled -/
  | ctrlFloat (c : Fin 8) (rd : Fin 32) (v : Word) (fcsr : BitVec 8)
  | ctrlJump (c : Fin 8) (pc : Word)
  | ctrlMret (c : Fin 8)
  | ctrlInterrupt (c : Fin 8)
  /-- a control core's FENCE (R202) -/
  | ctrlFence (c : Fin 8)
  /-- the partner's access to a home of this package, through the continuity port (R202, R224) -/
  | partnerAccess (op : AOp) (addr : Nat)
  /-- a hold request of FW2 (false) or FW5 (true) for a queue, and its end (R88) -/
  | holdQueue (fw5 : Bool) (core : Nat) (q : Fin 64) (on : Bool)
  /-- the end of the hold of a power-fail warning (2) or of a pair switchover (3), by its requester (R88) -/
  | endHolds (power : Bool)
  /-- FW7 configures the gate list of a port, or the filter of a stream (R328) -/
  | portGates (port : Fin 10) (g : PortGates)
  | streamFilter (stream : Fin 2048) (f : StreamFilter)
  /-- a frame for FW7: a PTP frame, or one that no stream identification entry matches (R328) -/
  | fw7Frame
  /-- FW7's configuration port writes an entry of the input map, of the output map, or a frame descriptor (R331) -/
  | inEntry (i : Fin 4096) (e : MapEntry)
  | outEntry (i : Fin 2048) (e : MapEntry)
  | frameDesc (i : Fin 512) (f : FrameDesc)
  /-- the translator has built the launch image of a module for a launch command, or finds no room for it (R402, R405) -/
  | translated (tag : BitVec 32) (module_ : List Byte) (table : List ModEntry) (image : Option Word)
  /-- the own clock of a firmware core moves on by some ns (R389) -/
  | fwClock (k : Fin 8) (ns : Nat)
  /-- the host writes the registers of a command queue, or rings its doorbell for some new commands (R374) -/
  | hostQueue (q : Fin 16) (base done size : Nat)
  | hostCommands (q : Fin 16) (n : Nat)
  /-- the host reads REPLACE through the vendor-specific capability; FW7 advertises it (R386) -/
  | hostReplace
  | advertise
  /-- a packet of the guest of a kind that Table 16.7 does not give (R368) -/
  | guestOther (kind : BitVec 8) (q : Fin 64) (seq : BitVec 16)
  /-- FW2 clears HELD and BLOCK of a guest queue (R371) -/
  | guestRelease (q : Fin 64)
  /-- a byte of a reel slot of the store is lost (R383) -/
  | reelError (slot1 : Bool) (a : Nat) (b : Byte)
  /-- an error that cannot be corrected in an accumulator of a context (R191, R294) -/
  | accError (k : CtxKey) (acc : Fin 2)
  /-- an error of DRAM that its code corrects (R191) -/
  | corrected
  /-- a lost packet is sent again (R217) -/
  | resend (n : Nat)
  deriving DecidableEq, Repr

/-- How the last bundle that `exec` ran ended: a field of the model (log entry 15). -/
inductive IssueResult where
  | committed
  | trapped
  | waiting
  | held
  | event
  deriving DecidableEq, Repr

/-- What a step runs next when it is fixed: an instruction's context, or an event (log entry 1). -/
inductive Turn where
  | issue (k : CtxKey)
  | event (i : Instr)
  deriving DecidableEq, Repr

/-- The machine. `cores` and `ctxs` list the cores and contexts that differ from their reset values by agent
and slot; `mem` holds every byte that is not 0, by home address; `full` the full 8-byte words. `cur` names the
context whose bundle issues, and `last`, `latch`, `turn`, `inputs`, `fresh` and `devRead` are the model's own:
how the bundle ended, the registers that both slots of a pair read, what runs next, the events that the outside
world has offered (`inputs` those of the opcode table, `outer` the others), the count that the free values take,
and what the last read of a device register by an event returned. -/
structure State where
  cur : CtxKey
  ctxs : List (CtxKey × Ctx)
  cores : List (Agent × Core)
  fws : Vector FwCore 8
  mem : List Host.Cell
  full : List Nat
  net : List Packet
  dev : Device
  last : IssueResult
  latch : Option Ctx
  turn : Option Turn
  inputs : List Instr
  outer : List Outer
  fresh : Nat
  ids : Nat
  devRead : Word
  deriving DecidableEq, Repr

/-- A control core at reset (Tables 14.18, 14.19). -/
def CtrlCore.reset : CtrlCore where
  x := Vector.replicate 32 0
  f := Vector.replicate 32 0
  fcsr := 0
  pc := 0
  csrs := ⟨0, 0, 0, 0, 0⟩
  user := false
  pmp := Vector.replicate 16 (0, 0)
  tcm := []
  mie := 0
  results := Vector.replicate 4 []
  maxage := Vector.replicate 4 255
  stale := Vector.replicate 4 0
  tested := Vector.replicate 4 false
  data := Vector.replicate 8 0
  err := 0
  busy := false
  mpslate := 0
  vcause := 0
  takeIrq := false
  devIrq := false
  outdone := false

/-- A guest queue at reset (Table 16.5). -/
def GuestQueue.reset : GuestQueue := ⟨false, false, false, 0, 0, 0, 0, false⟩

/-- The device blocks at reset, as their register maps give. -/
def Device.reset : Device where
  time := { dtime1 := 0, slewAcc := 0, expen := false, run := false, guardNs := 500, phase := 0, egress := 500000, period := 1000000, epoch := 0, epochNow := 0, dtime := 0, freq := 0, locked := false, err := false, slewLeft := 0, takeno := 0, first := 0, fired := false, timeLost := false }
  dom := { expen := false, ndom := 0, mask := (Vector.replicate 16 0#64).set 0 (BitVec.allOnes 64), sel := Vector.replicate 30 0, moved := 0, err := 0, lastDom := 0, switch := none, split := none, l2 := [], lostWays := [] }
  ptroot := 0
  snap := { held := false, last := 0, timeEn := false, watchEn := false, pinEn := false, swEn := true, time := 0, armed := false, ignored := 0, seq := 0, latched := [] }
  pair := { expen := false, enable := false, role := false, hbtol := 5000, hbtolBack := false, paired := false, driving := false, mismatch := false, unrec := false, misses := 0, reason := 0, term := 0, mmtake := 0, linkUp := false, member := false, rejoin := false, mirrorOut := [], mirrorLate := [], markerSent := [], markerGot := [], mirroring := false, lastBeat := none, judged := none, openAfter := none, beats := [], ownDigests := [], digestSent := none, peerDigests := [] }
  guest := { expen := false, en := false, up := false, preempt := 50, tmo := 100, queues := Vector.replicate 64 GuestQueue.reset, tlb := [], reqs := [], sent := [], released := [] }
  power := { expen := false, floor := (0, 0), plimit := 600, down := 10, hyst := 20, gstep := (0, 0), step := (0, 0), below := 0, tcrit := 440, talert := 380, temps := [], trip := (false, false), trips := (0, 0), alerted := (false, false), sel := 0, tick := none, failing := 0 }
  reels := { en := true, drain := 500, slot0 := none, slot1 := none }
  replace := 0
  sec := { owners := [], svn := 0, advance := none, mrs := Vector.replicate 16 (List.replicate 64 0), store := [], mcrev := 0, recovery := none, booted := false, library := false, translator := false, usedShown := 0 }
  slips := 0
  lastSlip := 0
  image := { expen := false, mapPend := false, outmask := 0xFF, gates := Vector.replicate 10 ⟨1, [(0, 0xFF)]⟩, qci := [], toFw7 := 0, maps := ⟨[], [], []⟩, basicMaps := ⟨[], [], []⟩, mapsBack := false, egMaps := ⟨[], [], []⟩, loaded := none, arrivals := [], late := [], egressDone := true, sent := [], wire := [], drops := [], dropTake := [] }
  sheet := { active := [], sheet := 0, pending := none, late := 0, posted := 0 }
  ctrl := Vector.replicate 8 CtrlCore.reset
  host := { queues := Vector.replicate 16 ⟨0, 0, 0, 0, 0, 0⟩, open_ := [], doorbells := [], completions := [], aperture := none, returned := none, terminated := [], advertised := 0 }
  launches := []
  gates := []
  trees := []
  heap := []
  requests := []
  dailies := []
  invpg := none
  clusterTlb := []
  trigs := []
  failed := []
  blocked := []
  migrations := []
  corrected := 0
  sparePages := 4096
  retired := []
  spareTiles := (16, 16)
  retiring := []
  tileMap := []
  linksDown := []
  lost := []
  repair := []
  seqs := []
  nextPage := 0
  nextAsid := 1

/-- The context of a firmware core at reset: live, at firmware level (R15, Table 15.6). -/
def Ctx.fwReset : Ctx := { Ctx.idle with place := .live 0, status := 0x301#64 }

/-- The machine right after cold reset, before any step of boot (R392). -/
def State.reset : State where
  cur := ⟨.tile 0, 0⟩
  ctxs := (List.range 8).map fun k => (⟨.fw k, 0⟩, Ctx.fwReset)
  cores := []
  fws := Vector.replicate 8 ⟨[], [], Vector.replicate 4 0, false, false, false, 0, []⟩
  mem := []
  full := []
  net := []
  dev := Device.reset
  last := .event
  latch := none
  turn := none
  inputs := []
  outer := []
  fresh := 0
  ids := 0
  devRead := 0

end Sys2Proof.Machine
end

