-- ==== Sys2Proof/Machine/Ops.lean ====
section
/-! DEFINITION. The named operations over contexts, registers, memory, causes and packets that the meanings
share: trap entry and the return from one, and the end and the kill of an activation. -/

namespace Sys2Proof.Machine

/-- The three outcomes of a step. -/
abbrev Out := Host.Outcome State Fault Refusal

/-! ### Association lists -/

/-- The value listed for a key, or a default. -/
def aget {κ ν : Type} [DecidableEq κ] (d : ν) (k : κ) : List (κ × ν) → ν
  | [] => d
  | (k', v) :: l => if k = k' then v else aget d k l

/-- The list with a key's value replaced, or added at the end. -/
def aset {κ ν : Type} [DecidableEq κ] (k : κ) (v : ν) : List (κ × ν) → List (κ × ν)
  | [] => [(k, v)]
  | (k', v') :: l => if k = k' then (k, v) :: l else (k', v') :: aset k v l

/-! ### Contexts and cores -/

/-- The context of a slot; an idle one where nothing is listed. -/
def getCtx (s : State) (k : CtxKey) : Ctx := aget Ctx.idle k s.ctxs
/-- The state with a context replaced. -/
def setCtx (s : State) (k : CtxKey) (c : Ctx) : State := { s with ctxs := aset k c s.ctxs }
/-- The state with a context changed. -/
def modCtx (s : State) (k : CtxKey) (f : Ctx → Ctx) : State := setCtx s k (f (getCtx s k))

/-- The core of an agent. -/
def getCore (s : State) (a : Agent) : Core := aget Core.reset a s.cores
/-- The state with a core replaced. -/
def setCore (s : State) (a : Agent) (c : Core) : State := { s with cores := aset a c s.cores }
/-- The state with a core changed. -/
def modCore (s : State) (a : Agent) (f : Core → Core) : State := setCore s a (f (getCore s a))

/-- The state with the device blocks changed. -/
def modDev (s : State) (f : Device → Device) : State := { s with dev := f s.dev }

/-- The issuing context. -/
def curCtx (s : State) : Ctx := getCtx s s.cur
/-- The state with the issuing context changed. -/
def modCur (s : State) (f : Ctx → Ctx) : State := modCtx s s.cur f
/-- The registers that a bundle reads: those at its issue (R29). -/
def opCtx (s : State) : Ctx := s.latch.getD (curCtx s)
/-- The issuing core. -/
def curCore (s : State) : Core := getCore s s.cur.agent
/-- The state with the issuing core changed. -/
def modCurCore (s : State) (f : Core → Core) : State := modCore s s.cur.agent f

/-- The issuing core's ring descriptor that a handle of a bundle names (R108). -/
def handle (s : State) (i : Nat) : Nat := ((opCtx s).h[Fin.ofNat 16 i]).val

/-- The logical number that stands for an agent in CORE fields (R109): a tile core's own, and [2:0] of a
firmware core. -/
def agentNo : Agent → Nat
  | .tile n => n
  | .fw k => k

/-- Whether an agent is a firmware core. -/
def isFw : Agent → Bool
  | .tile _ => false
  | .fw _ => true

/-- The role of an agent: 0 M, 1 C, 2 A; 3 for a firmware core (R10). -/
def roleOf : Agent → Nat
  | .tile n => n % 4
  | .fw _ => 3

/-- The place of an agent on the networks. -/
def nodeOf : Agent → Node
  | .tile n => .core n
  | .fw k => .fw k

/-- Tile x of a logical number (Table 1.1). -/
def tileX (n : Nat) : Nat := n / 64 % 32
/-- Tile y of a logical number. -/
def tileY (n : Nat) : Nat := n / 4 % 16
/-- A logical number from its fields. -/
def coreNo (x y r : Nat) : Nat := x % 32 * 64 + y % 16 * 4 + r % 4
/-- The die of a logical core (R9). -/
def dieOf (n : Nat) : Nat := tileX n / 16
/-- The cluster number of a logical core (R11). -/
def clusterOf (n : Nat) : Nat := tileX n / 2 * 8 + tileY n / 2
/-- The router tile of a block outside the array (R421). -/
def routerX : Node → Nat
  | .core n => tileX n
  | .fw k => 4 * k + 1
  | .slice n => 2 * (n % 16) + n / 16 % 2
  | .host => 0
  | .guest => 31
  | .partner => 16
  | .image => 15
  | .ctrl c => 4 * c + 2
  | .hostFront => 5
  | .callFront => 9
/-- The row of a block's router: that of a tile core, y = 4 × Floor(n / 16) + 1 for slice n (R186), and that of
Table 1.8. -/
def routerY : Node → Nat
  | .core n => tileY n
  | .slice n => 4 * (n / 16) + 1
  | .host => 8
  | .guest => 8
  | .partner => 8
  | .image => 8
  | _ => 7
/-- The distance between two places on a ring of `n`. -/
def ringDist (n a b : Nat) : Nat := let d := (a + n - b) % n; Nat.min d (n - d)
/-- The hop distance between two places (R12). -/
def hops (a b : Node) : Nat := ringDist 32 (routerX a) (routerX b) + ringDist 16 (routerY a) (routerY b)
/-- Whether the way from `a` to `b` on a ring of `n` goes towards the increasing coordinate: where that is the shorter way, or
both are as long (R232). -/
def ringUp (n a b : Nat) : Bool := decide (2 * ((b + n - a) % n) ≤ n)
/-- The next place on a ring of `n` in one of its two directions. -/
def ringNext (n : Nat) (up : Bool) (a : Nat) : Nat := if up then (a + 1) % n else (a + n - 1) % n
/-- The route mode of a pair (R232): the other way round the ring in x, or in y, or y first. -/
structure RouteMode where
  otherX : Bool
  otherY : Bool
  yFirst : Bool
  deriving DecidableEq, Repr
/-- The next tile of a route to a tile, with the directions that its source has chosen. -/
def nextTile (m : RouteMode) (upX upY : Bool) (a b : Nat × Nat) : Nat × Nat :=
  let stepX : Nat × Nat := (ringNext 32 upX a.1, a.2)
  let stepY : Nat × Nat := (a.1, ringNext 16 upY a.2)
  if a.1 = b.1 then stepY else if a.2 = b.2 then stepX else if m.yFirst then stepY else stepX
/-- The links of a route of at most `n` hops. -/
def linksFrom (m : RouteMode) (upX upY : Bool) (b : Nat × Nat) : Nat → Nat × Nat → List ((Nat × Nat) × (Nat × Nat))
  | 0, _ => []
  | n + 1, a => if a = b then [] else let c := nextTile m upX upY a b; (a, c) :: linksFrom m upX upY b n c
/-- The links of the route of a pair of tiles in a route mode (R232). -/
def routeLinks (m : RouteMode) (a b : Nat × Nat) : List ((Nat × Nat) × (Nat × Nat)) :=
  linksFrom m (ringUp 32 a.1 b.1 != m.otherX) (ringUp 16 a.2 b.2 != m.otherY) b 48 a
/-- The route modes, in the order in which FW4 tries them. DESIGN CHOICE: R232 gives no order between the other way round and y
first (log entry 135). -/
def routeModes : List RouteMode :=
  [⟨false, false, false⟩, ⟨true, false, false⟩, ⟨false, true, false⟩, ⟨true, true, false⟩, ⟨false, false, true⟩]
/-- A tile from its number 16x + y. -/
def tileOfNo (t : Nat) : Nat × Nat := (t / 16, t % 16)
/-- The route mode of a pair of tiles: the first whose route avoids every failed link (R232); none where no route does. -/
def routeMode (down : List (Nat × Nat)) (a b : Nat × Nat) : Option RouteMode :=
  routeModes.find? fun m => (routeLinks m a b).all fun l => !down.any fun d => (tileOfNo d.1, tileOfNo d.2) == l
/-- The router tile of a place. -/
def routerOf (n : Node) : Nat × Nat := (routerX n, routerY n)
/-- Whether the route between two places, under the failed links, crosses a link between tiles numbered 16x + y (R217, R232). -/
def routeCrosses (down : List (Nat × Nat)) (src dst : Nat) (a b : Node) : Bool :=
  match routeMode down (routerOf a) (routerOf b) with
  | some m => (routeLinks m (routerOf a) (routerOf b)).contains (tileOfNo src, tileOfNo dst)
  | none => false
/-- The die of a place on the networks (R186, R421). -/
def dieOfNode (n : Node) : Nat := routerX n / 16

/-- A fresh request number, and the state that has taken it. -/
def newId (s : State) : Nat × State := (s.ids + 1, { s with ids := s.ids + 1 })

/-! ### Registers -/

/-- A general register as the bundle reads it; g0 reads 0 (R103). -/
def rg (s : State) (r : GReg) : Word := if r = 0 then 0 else (opCtx s).g[r]
/-- Writing a general register of a context sets its presence bit; g0 discards it (R103, R104). -/
def Ctx.wg (c : Ctx) (r : GReg) (v : Word) : Ctx :=
  if r = 0 then c else { c with g := c.g.set r v, p := c.p ||| BitVec.ofNat 32 (2 ^ r.val) }
/-- Writing a general register. -/
def wg (s : State) (r : GReg) (v : Word) : State := modCur s (·.wg r v)
/-- The register after `r`. -/
def nextReg (r : GReg) : GReg := r + 1
/-- A 128-bit operand in an even-odd pair, bits [63:0] in the even register (R1). -/
def rgPair (s : State) (r : GReg) : Nat := (rg s r).toNat + (rg s (nextReg r)).toNat * 2 ^ 64
/-- Writing a 128-bit result to a pair. -/
def wgPair (s : State) (r : GReg) (v : Nat) : State := wg (wg s r (w64 v)) (nextReg r) (w64 (v / 2 ^ 64))
/-- A mask register. -/
def rm (s : State) (r : MReg) : BitVec 16 := (opCtx s).m[r]
/-- Writing a mask register. -/
def wm (s : State) (r : MReg) (v : BitVec 16) : State := modCur s fun c => { c with m := c.m.set r v }
/-- The value of a vector register, streams and ports apart. -/
def rfRaw (s : State) (r : FReg) : Vec := (opCtx s).f[r]
/-- Writing a vector register, streams and ports apart. -/
def wfRaw (s : State) (r : FReg) (v : Vec) : State := modCur s fun c => { c with f := c.f.set r v }

/-- Bit `i` of STATUS. -/
def Ctx.st (c : Ctx) (i : Nat) : Bool := c.status.getLsbD i
/-- STATUS with bit `i` set to `b` (Table 15.6). -/
def stSet (w : Word) (i : Nat) (b : Bool) : Word :=
  let one : Word := w64 (2 ^ i)
  if b then w ||| one else w &&& ~~~one
/-- In a trap handler. -/
def Ctx.inTrap (c : Ctx) : Bool := c.st 3
/-- In a user-level interrupt handler. -/
def Ctx.inUi (c : Ctx) : Bool := c.st 4
/-- The absolute level: 0 user, 1 supervisor, 2 firmware (R337). -/
def levelOf (a : Agent) (c : Ctx) : Nat := (if isFw a then 1 else 0) + b2n (c.st 0)
/-- The level of the issuing context. -/
def curLevel (s : State) : Nat := levelOf s.cur.agent (opCtx s)
/-- The gate depth of a context (Table 15.15). -/
def Ctx.depth (c : Ctx) : Nat := c.frames.length
/-- The gate that a context runs in. -/
def Ctx.gateIdx (c : Ctx) : Nat := match c.frames with | [] => 0 | f :: _ => f.gate
/-- The context address of Table 5.2. -/
def ctxAddr (k : CtxKey) (gen : Gen) : Word := w64 (gen.toNat * 2 ^ 32 + k.slot * 2 ^ 16 + agentNo k.agent)
/-- The issuing context as one who asks. -/
def curWho (s : State) (id : Nat) : Who := ⟨s.cur, (curCtx s).gen, (curCtx s).depth, id⟩
/-- The live position that a context holds. -/
def Ctx.position (c : Ctx) : Option (Fin 4) := match c.place with
  | .live p => some p
  | .loading p => some p
  | _ => none
/-- Whether a slot holds an activation. -/
def Ctx.used (c : Ctx) : Bool := c.place ≠ .free

/-! ### Memory -/

/-- The home address of a core-local byte (R173). -/
def localAddr (core off : Nat) : Nat := 0xF * 2 ^ 44 + core * 2 ^ 33 + off

/-- The byte at a home address; a byte that nothing lists reads 0 (R132; log entry 3). -/
def readByte : List Host.Cell → Nat → Byte
  | [], _ => 0
  | (a, b) :: l, x => if x < a then 0 else if x = a then b else readByte l x

/-- Memory with one byte written, in the same canonical form. -/
def writeByte : List Host.Cell → Nat → Byte → List Host.Cell
  | [], x, v => if v = 0 then [] else [(x, v)]
  | (a, b) :: l, x, v =>
    if x < a then (if v = 0 then (a, b) :: l else (x, v) :: (a, b) :: l)
    else if x = a then (if v = 0 then l else (x, v) :: l)
    else (a, b) :: writeByte l x v

/-- Addresses rise strictly from a bound and no byte listed is 0. -/
def cellsFrom : Nat → List Host.Cell → Bool
  | _, [] => true
  | n, (a, b) :: l => decide (n ≤ a) && decide (b ≠ 0) && cellsFrom (a + 1) l

/-- The canonical form of memory. -/
def Memory.wf (m : List Host.Cell) : Bool := cellsFrom 0 m

/-- `n` bytes at an address as a little-endian number (R1). -/
def readN (m : List Host.Cell) (a : Nat) : Nat → Nat
  | 0 => 0
  | n + 1 => (readByte m a).toNat + 256 * readN m (a + 1) n

/-- Writing bytes at an address. -/
def writeBytes (m : List Host.Cell) (a : Nat) : List Byte → List Host.Cell
  | [] => m
  | b :: l => writeBytes (writeByte m a b) (a + 1) l

/-- The `n` little-endian bytes of a number (R1). -/
def bytesOf (v : Nat) : Nat → List Byte
  | 0 => []
  | n + 1 => BitVec.ofNat 8 v :: bytesOf (v / 256) n

/-- The number of little-endian bytes. -/
def natOf : List Byte → Nat
  | [] => 0
  | b :: l => b.toNat + 256 * natOf l

/-- `n` bytes at an address. -/
def readBytes (m : List Host.Cell) (a : Nat) : Nat → List Byte
  | 0 => []
  | n + 1 => readByte m a :: readBytes m (a + 1) n

/-- Writing bytes with the given value at an address to `n` bytes. -/
def writeN (m : List Host.Cell) (a n v : Nat) : List Host.Cell := writeBytes m a (bytesOf v n)

/-- Writing bytes wherever the mask of a sector has them (R184). -/
def writeMasked (m : List Host.Cell) (a : Nat) : List (Nat × Byte) → List Host.Cell
  | [] => m
  | (o, b) :: l => writeMasked (writeByte m (a + o) b) a l

/-- Whether the word that holds an address is full (R132). -/
def isFull (s : State) (a : Nat) : Bool := s.full.contains (a / 8 * 8)

/-- A strictly rising list with one number added. -/
def addSorted (x : Nat) : List Nat → List Nat
  | [] => [x]
  | y :: l => if x < y then x :: y :: l else if x = y then y :: l else y :: addSorted x l

/-- An element placed before those of a list, sorted by a key, whose keys are not smaller. -/
def insertBy {α : Type} (key : α → Nat) (x : α) : List α → List α
  | [] => [x]
  | y :: l => if key x ≤ key y then x :: y :: l else y :: insertBy key x l

/-- A list in ascending order of a key; elements of one key keep their order. -/
def sortBy {α : Type} (key : α → Nat) (l : List α) : List α := l.foldr (insertBy key) []

/-- The state with the word at an address set full or empty. -/
def setFe (s : State) (a : Nat) (b : Bool) : State :=
  let w := a / 8 * 8
  { s with full := if b then addSorted w s.full else s.full.filter (· ≠ w) }

/-- Setting the words of `n` bytes from an address full (R214). -/
def fillWords (s : State) (a n : Nat) : State :=
  if n = 0 then s
  else (List.range ((a + n - 1) / 8 - a / 8 + 1)).foldl (fun t i => setFe t (a / 8 * 8 + 8 * i) true) s

/-- Bytes written without touching full/empty bits (R193). -/
def storeMem (s : State) (a : Nat) (bs : List Byte) : State := { s with mem := writeBytes s.mem a bs }

/-- Bytes written by an engine, which set their words full (R214). -/
def engineStore (s : State) (a : Nat) (bs : List Byte) : State := fillWords (storeMem s a bs) a bs.length

/-- Memory and full/empty bits of a range cleared (R132, R135). -/
def clearRange (s : State) (lo n : Nat) : State :=
  { s with mem := s.mem.filter (fun c => c.1 < lo || lo + n ≤ c.1),
           full := s.full.filter (fun a => a < lo || lo + n ≤ a) }

/-! ### Causes -/

/-- A record of the dailies, by FW4, or FW0 when FW4 has failed (R15). -/
def record (s : State) (code core : Nat) (vals : List Nat) : State :=
  modDev s fun d => { d with dailies := d.dailies ++ [⟨code, core, vals⟩] }

/-- An entry for a firmware core's mailbox: kept, or held by its source while 64 are there (R388). -/
def postMail (s : State) (k : Nat) (m : Mail) : State :=
  let k := Fin.ofNat 8 k
  let f := s.fws[k]
  let idle := if f.mailbox = [] then 0 else f.idle
  let f' := if f.mailbox.length < 64 ∧ f.held = [] then
      { f with mailbox := f.mailbox ++ [m], asleep := false, idle := idle }
    else { f with held := f.held ++ [m] }
  { s with fws := s.fws.set k f' }

/-- Word 0 of a mailbox entry (Table 18.1). -/
def mailWord0 (s : State) (kind code : Nat) (fwsrc : Bool) (src : Nat) : Word :=
  w64 (kind * 2 ^ 56 + code * 2 ^ 48 + b2n fwsrc * 2 ^ 43 + src % 2 ^ 11 * 2 ^ 32 + s.dev.time.takeno % 2 ^ 32)

/-- A cause that goes to a firmware core: its mailbox receives the cause, TVAL and the raising core (R339). -/
def raiseFw (s : State) (k code : Nat) (tval : Word) (src : Agent) : State :=
  postMail s k ⟨mailWord0 s 0 code (isFw src) (agentNo src), tval, 0, 0⟩

/-- The firmware core that keeps the event log: FW4, or FW0 when FW4 has failed (R15). -/
def logCore (s : State) : Nat := if (s.fws[4]).failed then 0 else 4

/-- Cause 0x3F with a reason (R422). -/
def machineCheck (s : State) (reason fw inner pc : Nat) : State :=
  let tval : Word := w64 (reason + fw * 16 + inner * 2 ^ 8 + pc % 2 ^ 48 * 2 ^ 16)
  record (raiseFw s (logCore s) 0x3F tval (.fw fw)) 0x3F fw [tval.toNat]

/-- A firmware core fails (R15): its function stops, and the failure goes to FW4, or to FW0 when FW4 has failed. -/
def failFw (s : State) (n reason inner pc : Nat) : State :=
  let k := Fin.ofNat 8 n
  machineCheck { s with fws := s.fws.set k { s.fws[k] with failed := true } } reason n inner pc

/-- Whether a firmware core performs its function: it has not failed (R15). -/
def fwWorks (s : State) (n : Nat) : Bool := !(s.fws[Fin.ofNat 8 n]).failed

/-- The TVAL of an encoding cause: the offending word, whether it is the extension, and the subcode (R42). -/
def encTval (word sub : Nat) (ext : Bool) : Word := w64 (word % 2 ^ 32 * 2 ^ 32 + b2n ext * 256 + sub)

/-- Changing the activation of a generation in a slot, wherever it stands: in the slot, or spilled (R105). -/
def modActivation (s : State) (k : CtxKey) (gen : Gen) (f : Ctx → Ctx) : State :=
  let c := getCtx s k
  if c.used && c.gen == gen then setCtx s k (f c)
  else modCore s k.agent fun co =>
    { co with spilled := co.spilled.map fun sp =>
        if sp.slot = k.slot ∧ sp.ctx.gen = gen then { sp with ctx := f sp.ctx } else sp }

/-- The activation of a generation in a slot, wherever it stands. -/
def findActivation (s : State) (k : CtxKey) (gen : Gen) : Option Ctx :=
  let c := getCtx s k
  if c.used && c.gen == gen then some c
  else ((getCore s k.agent).spilled.find? fun sp => sp.slot == k.slot && sp.ctx.gen == gen).map (·.ctx)

/-- An asynchronous cause joins the cause queue of its context, tagged with the depth of the frame that raised
it; a full queue drops it (R342). A cause for an activation that has ended is recorded. -/
def queueCause (s : State) (w : Who) (e : CauseEntry) : State :=
  match findActivation s w.ctx w.gen with
  | none => record s e.code.toNat (agentNo w.ctx.agent) [e.tval.toNat]
  | some c =>
    if c.causes.length < 16 then modActivation s w.ctx w.gen fun c => { c with causes := c.causes ++ [e] }
    else record (modActivation s w.ctx w.gen fun c => { c with status := stSet c.status 15 true })
      e.code.toNat (agentNo w.ctx.agent) [e.tval.toNat]

/-- An asynchronous cause with a code and TVAL, which concerns some homes. -/
def raiseAt (s : State) (w : Who) (code : Nat) (tval : Word) (homes : List Node) : State :=
  queueCause s w ⟨BitVec.ofNat 6 code, tval, w.depth, 0, 0, homes⟩

/-- An asynchronous cause with a code and TVAL. -/
def raiseAsync (s : State) (w : Who) (code : Nat) (tval : Word) : State := raiseAt s w code tval []

/-- A wait that has ended: the context is ready. A spilled context's wait raises cause 0x10 when the filter of 64
entries records its object (R95). -/
def wakeCtx (s : State) (k : CtxKey) (gen : Gen) : State :=
  let c := getCtx s k
  let (n, s) := newId s
  if c.used && c.gen == gen then setCtx s k { c with wait := none, readyAt := n }
  else
    let co := getCore s k.agent
    if co.spilled.any (fun sp => sp.slot == k.slot && sp.ctx.gen == gen && sp.ctx.wait != none) then
      let seen := (co.spilled.take 64).any fun sp => sp.slot == k.slot && sp.ctx.gen == gen
      let s := modCore s k.agent fun co => { co with spilled := co.spilled.map fun sp =>
        if sp.slot = k.slot ∧ sp.ctx.gen = gen then
          { sp with pending := sp.pending || seen, ctx := { sp.ctx with wait := none, readyAt := n } } else sp }
      if seen then
        raiseFw s 2 0x10 (w64 (agentNo k.agent + 2 * 2 ^ 11 + k.slot * 2 ^ 16 + gen.toNat * 2 ^ 32)) k.agent
      else s
    else s

/-- Every context of a core whose wait meets a test is ready, in its slot or spilled. -/
def wakeWaiting (s : State) (a : Agent) (p : Wait → Bool) : State :=
  let waits (c : Ctx) : Bool := !c.killed && match c.wait with
    | some w => p w
    | none => false
  let here := (s.ctxs.filter fun x => x.1.agent == a && waits x.2).map fun x => (x.1, x.2.gen)
  let gone := ((getCore s a).spilled.filter fun x => waits x.ctx).map fun x => ((⟨a, x.slot⟩ : CtxKey), x.ctx.gen)
  (here ++ gone).foldl (fun s k => wakeCtx s k.1 k.2) s

/-- An owner's answer to the request of a bundle: the value is kept for the bundle's reissue, and the wait
ends. -/
def answer (s : State) (w : Who) (v : Word) : State :=
  wakeCtx (modActivation s w.ctx w.gen fun c => { c with grants := c.grants.map fun g =>
    if g.id = w.id then { g with value := some v } else g }) w.ctx w.gen

/-- A request of a bundle is taken back: the bundle issues anew. -/
def reissue (s : State) (w : Who) : State :=
  wakeCtx (modActivation s w.ctx w.gen fun c => { c with grants := c.grants.filter (·.id != w.id) }) w.ctx w.gen

/-! ### Packets -/

/-- Whether a network's requests are numbered (R217). -/
def numbered (vn : Fin 4) : Bool := vn == 0 || vn == 2

/-- The number that the next request of a pair takes: one sequence for VN0 and VN2 (R217). -/
def nextSeq (s : State) (src dst : Node) : BitVec 12 := aget 0 (src, dst) s.dev.seqs

/-- The packet that enters the network next. -/
def mkPkt (s : State) (src dst : Node) (vn : Fin 4) (b : Body) : Packet :=
  ⟨src, dst, vn, b, if numbered vn then nextSeq s src dst else 0, false⟩

/-- A packet enters the network behind the earlier ones, with the next number of its pair. -/
def sendPkt (s : State) (src dst : Node) (vn : Fin 4) (b : Body) : State :=
  let p := mkPkt s src dst vn b
  { s with
    net := s.net ++ [p]
    dev := if numbered vn then { s.dev with seqs := aset (src, dst) (p.seq + 1) s.dev.seqs } else s.dev }

/-- Whether two packets have one source, destination and network. -/
def Packet.sameWay (p q : Packet) : Bool := q.src == p.src && q.dst == p.dst && q.vn == p.vn

/-- Whether a number comes after another, modulo 2^12. -/
def seqAfter (a b : BitVec 12) : Bool := decide ((b - a).toNat < 2048)

/-- Whether a core has turned its VN0 input off: its overflow store of 512 records is full (R227). -/
def inputOff (s : State) (p : Packet) : Bool :=
  p.vn == 0 && match p.dst with
    | .core n => decide (512 ≤ (getCore s (.tile n)).overflow.length)
    | _ => false

/-- Whether two packets are numbered requests of one pair (R217). -/
def Packet.samePair (p q : Packet) : Bool := q.src == p.src && q.dst == p.dst && numbered q.vn

/-- Whether a packet's flits have not left its core: an entry of the core's send queue holds it (R235). -/
def stillQueued (s : State) (p : Packet) : Bool :=
  s.cores.any fun c => (c.2.sendq[p.vn]).any fun e => !e.left && e.packet == some p

/-- Whether no route of a pair avoids the failed links (R232, R386): nothing of it arrives until one works again. -/
def cutOff (s : State) (a b : Node) : Bool :=
  !s.dev.linksDown.isEmpty && (routeMode s.dev.linksDown (routerOf a) (routerOf b)).isNone

/-- Whether packet `n` is the first of its source, destination and network (R204) that may arrive. In a pair in
repair a request follows every lower number of its pair, and one that has been lost leaves a gap (R217). -/
def isFirst (s : State) (n : Nat) : Bool :=
  match s.net[n]? with
  | none => false
  | some p =>
    !inputOff s p && !stillQueued s p && !cutOff s p.src p.dst &&
    if numbered p.vn && !p.fwd && s.dev.repair.contains (p.src, p.dst) then
      (s.net.eraseIdx n ++ s.dev.lost).all fun q => !p.samePair q || q.fwd || seqAfter p.seq q.seq
    else (s.net.take n).all fun q => !p.sameWay q

/-- The state in which a request of an engine or a stream on VN2 reaches its home: it has taken its pair's next number. None
while no route works, or while the pair is in repair and an earlier request of it is outstanding (R204, R217). -/
def overVn2 (s : State) (src dst : Node) : Option State :=
  let before := s.dev.repair.contains (src, dst) && (s.net ++ s.dev.lost).any fun q =>
    q.src == src && q.dst == dst && numbered q.vn && !q.fwd
  if src = dst then some s
  else if cutOff s src dst || before then none
  else some { s with dev := { s.dev with seqs := aset (src, dst) (nextSeq s src dst + 1) s.dev.seqs } }

/-- The packet that may arrive next at index `n`, and the state without it. -/
def takePkt (s : State) (n : Nat) : Option (Packet × State) :=
  if isFirst s n then (s.net[n]?).map fun p => (p, { s with net := s.net.eraseIdx n }) else none

/-! ### Traps (R340 to R344) -/

/-- The eight registers from g24, or the four from g28. -/
def regsFrom (c : Ctx) (lo n : Nat) : List Word := (List.range n).map fun i => c.g[Fin.ofNat 32 (lo + i)]

/-- The general registers with a list of values placed from register `lo`. -/
def placeRegs (g : Vector Word 32) (lo : Nat) : List Word → Vector Word 32
  | [] => g
  | v :: l => placeRegs (g.set (Fin.ofNat 32 lo) v) (lo + 1) l

/-- The mask of registers `lo` to 31. -/
def maskFrom (lo : Nat) : BitVec 32 := BitVec.ofNat 32 (2 ^ 32 - 2 ^ lo)

/-- A sequencer whose fault has been delivered (R162). -/
def Seqr.clear (q : Option Seqr) : Option Seqr := q.map fun q => { q with faulted := false }

/-- The registers and status of trap entry (R340): g24..g31, all presence and arm bits, FPCTL, the send slate and
the sequencer (R162) are banked; the handler's copies are 0 with P set and A clear; the level rises. A fault that
a stream has met is met again when the vector is fetched again (R152). -/
def Ctx.enterTrap (c : Ctx) (code : Nat) (tval : Word) (epc : Nat) (async : Bool) : Ctx :=
  { c with
    cause := w64 (code % 64 + b2n async * 128 + c.depth * 256)
    epc := w64 epc
    tval := tval
    trap := some ⟨regsFrom c 24 8, c.p, c.a, c.fpctl, c.slate, if code = 0x26 then Seqr.clear c.seqr else c.seqr⟩
    ui := if code = 0x26 then c.ui.map fun b => { b with seqr := Seqr.clear b.seqr } else c.ui
    seqr := none
    streams := c.streams.map fun x => (x.1, { x.2 with fault := none })
    g := placeRegs c.g 24 (List.replicate 8 0)
    p := BitVec.allOnes 32
    a := 0
    fpctl := 0
    slate := 0
    status := stSet (stSet (stSet c.status 1 (c.st 0)) 0 true) 3 true
    grants := c.grants.filter (·.id != 0)
    wait := none
    pc := c.tvec.toNat }

/-- Whether a context is inside the expansion of a deprecated form: some of its micro-steps have been committed
(R33, R47). They are kept beside the context's requests, under the number 0. -/
def Ctx.inExpansion (c : Ctx) : Bool := c.grants.any fun g => g.id == 0 && g.pc == c.pc && g.value != some 0

/-- Whether no write of a context is in flight (R110, R340). -/
def Ctx.quiet (c : Ctx) : Bool := c.busy.isEmpty && c.awaits.all fun a => a.what == .none

/-- Whether a cell is open, unsealed and opened by an activation. -/
def Cell.ofOpener (c : Cell) (slot : Nat) (gen : Gen) : Bool :=
  c.isOpen && !c.sealed && c.opener == slot && c.openerGen == gen

/-- Cells that the activation opened become orphaned (R97, R100). -/
def orphanCells (co : Core) (slot : Nat) (gen : Gen) : Core :=
  { co with cells := co.cells.map fun c =>
      if c.ofOpener slot gen then { c with orphan := true, waiter := none } else c }

/-- Orphaned cells of an activation close when every child has arrived (R101). -/
def closeCells (co : Core) (slot : Nat) (gen : Gen) : Core :=
  { co with cells := co.cells.map fun c =>
      if c.ofOpener slot gen && c.orphan && c.arrived == c.spawned then Cell.closed else c }

/-- A region header with one pin fewer. -/
def unpinRegion (r : Vector Region 64) (i : Nat) : Vector Region 64 :=
  let x := r[Fin.ofNat 64 i]
  r.set (Fin.ofNat 64 i) { x with pins := x.pins - 1 }

/-- A task's queue may start again once its slot's activation has ended (R79). -/
def clearRunning (qs : Vector Queue 64) (q : Option (Fin 64)) (slot : Nat) : Vector Queue 64 :=
  match q with
  | none => qs
  | some q =>
    let x := qs[q]
    qs.set q { x with running := if x.running = some slot then none else x.running }

/-- Contexts that wait for a free reply sink, or for an entry of a send queue (Table 4.2). -/
def wantsSink (w : Wait) : Bool := w.kind == 6 && w.obj == 0
def wantsSend (w : Wait) : Bool := w.kind == 7

/-- What ends with an activation (R97, R143, R240, R101): its sinks and, where it was killed, its send-queue
entries are freed, for which other contexts of the core may wait; its cells are orphaned, its pins released, and
its task's queue may start again. -/
def releaseParts (s : State) (k : CtxKey) (c : Ctx) : State :=
  let sinks := (getCore s k.agent).sinks.toList.any fun x => match x.bound with
    | some (w, _) => w.ctx == k && w.gen == c.gen
    | none => false
  let entry (e : SendEntry) : Bool := c.killed && e.ctx == k && e.gen == c.gen
  let sends := (getCore s k.agent).sendq.toList.any fun l => l.any entry
  let mine (o : EngOp) : Bool := o.who.ctx == k && o.who.gen == c.gen
  let drains := (getCore s k.agent).matOps.any mine
  let s := modCore s k.agent fun co =>
    let co := closeCells (orphanCells co k.slot c.gen) k.slot c.gen
    { co with
      sendq := co.sendq.map fun l => l.filter fun e => !entry e
      pinWaits := co.pinWaits.filter fun w => !(w.2.ctx == k && w.2.gen == c.gen)
      badTiles := co.badTiles.filter fun t => drains || t.1 != k
      sinks := co.sinks.map fun x => match x.bound with
        | some (w, _) => if w.ctx = k ∧ w.gen = c.gen then { x with bound := none, value := none } else x
        | none => x
      regions := c.pins.foldl unpinRegion co.regions
      queues := clearRunning co.queues c.queue k.slot
      feWaits := co.feWaits.filter fun w => !(w.a.ctx == k && w.a.gen == c.gen && !w.a.jn.isSome)
      rings := co.rings.map fun r => { r with waiters := r.waiters.filter fun w => match w.user with
        | .ctx w => !(w.ctx == k && w.gen == c.gen)
        | _ => true }
      barriers := co.barriers.map fun b =>
        (b.1, { b.2 with waiters := b.2.waiters.filter fun w => !(w.ctx == k && w.gen == c.gen) }) }
  let s := if sinks then wakeWaiting s k.agent wantsSink else s
  if sends then wakeWaiting s k.agent wantsSend else s

/-- The end of the activation in a slot: its context leaves the slot. -/
def releaseCtx (s : State) (k : CtxKey) : State :=
  let c := getCtx s k
  setCtx (releaseParts s k c) k { Ctx.idle with gen := c.gen }

/-- Which bank holds the FPCTL of the code that issued an operation: 0 none, its context's own; 1 the trap bank, 2
the user-level interrupt's. -/
def fpBank (c : Ctx) (o : EngOp) : Nat :=
  if c.trap.isSome ∧ !o.inTrap then (if c.ui.isSome ∧ !o.inUi then 2 else 1)
  else if c.ui.isSome ∧ !o.inUi ∧ !o.inTrap then 2
  else 0

/-- The FPCTL of the code that issued an operation (R290): a handler's own, or the one that entry into a handler has
banked. -/
def Ctx.fpctlAt (c : Ctx) (o : EngOp) : Word :=
  match fpBank c o, c.trap, c.ui with
  | 1, some b, _ => b.fpctl
  | 2, _, some u => u.fpctl
  | _, _, _ => c.fpctl

/-- While an engine holds operations of an activation that ends, its accumulator tiles and its live position stay
(R274). -/
def keepTiles (s : State) (k : CtxKey) : State :=
  let c := getCtx s k
  let mine (o : EngOp) : Bool := o.who.ctx == k && o.who.gen == c.gen
  modCore s k.agent fun co =>
    match c.place with
    | .live p =>
      let awe := ((co.matOps.filter mine).filter fun o => (c.fpctlAt o).getLsbD 20).map (·.id)
      if co.matOps.any mine || co.convOps.any mine then { co with draining := co.draining ++ [⟨k, c.gen, p, c.acc, awe⟩] } else co
    | _ => co

/-- END's effect after its bundle (R77): the slot and the live position are free. On a firmware core the core
stops until its mailbox holds a message (R387). -/
def endActivation (s : State) (k : CtxKey) : State :=
  match k.agent with
  | .fw n =>
    let f := s.fws[Fin.ofNat 8 n]
    { s with fws := s.fws.set (Fin.ofNat 8 n) { f with asleep := f.mailbox.isEmpty } }
  | .tile _ => releaseCtx (keepTiles s k) k

/-- A killed activation issues no further bundle; its gate frames and queued causes are discarded (R97, R352). -/
def Ctx.kill (c : Ctx) : Ctx := { c with killed := true, frames := [], causes := [], wait := none, grants := [] }

/-- A kill (R97, R352) of the activation in a slot, whose open cells become orphaned. -/
def killCtx (s : State) (k : CtxKey) : State :=
  modCore (modCtx s k Ctx.kill) k.agent fun co => orphanCells co k.slot (getCtx s k).gen

/-- Trap entry (R340). A handler that is already running, or a TVEC of 0, kills the activation, or is a
machine check on a firmware core. -/
def takeTrap (s : State) (k : CtxKey) (code : Nat) (tval : Word) (epc : Nat) (async : Bool) : State :=
  let c := getCtx s k
  if c.inTrap || c.tvec == 0 then
    match k.agent with
    | .fw n => failFw s n 2 code (epc / 8 * 8)
    | .tile n => killCtx (record s code n [tval.toNat, epc / 8 * 8]) k
  else setCtx s k (c.enterTrap code tval epc async)

/-- The return from a trap handler (R344). The stream unit fetches again a vector that met a fault (R152). -/
def Ctx.leaveTrap (c : Ctx) (b : TrapBank) : Ctx :=
  { c with
    streams := c.streams.map fun x => (x.1, { x.2 with fault := none })
    g := placeRegs c.g 24 b.g
    p := b.p
    a := b.a
    fpctl := b.fpctl
    slate := b.slate
    seqr := b.seqr
    status := stSet (stSet c.status 0 (c.st 1)) 3 false
    trap := none
    pc := c.epc.toNat / 8 * 8 }

/-- Entry of a user-level interrupt (R343). -/
def Ctx.enterUi (c : Ctx) (xfer handler : Word) : Ctx :=
  { c with
    uepc := w64 (c.pc % 2 ^ 48)
    cpyid := xfer
    ui := some ⟨regsFrom c 28 4, c.p, c.a, c.fpctl, c.seqr⟩
    seqr := none
    g := placeRegs c.g 28 (List.replicate 4 0)
    p := c.p ||| maskFrom 28
    a := c.a &&& ~~~maskFrom 28
    fpctl := 0
    status := stSet c.status 4 true
    grants := c.grants.filter (·.id != 0)
    wait := none
    pc := handler.toNat % 2 ^ 48 }

/-- The return from a user-level interrupt (R344). -/
def Ctx.leaveUi (c : Ctx) (b : UiBank) : Ctx :=
  { c with
    g := placeRegs c.g 28 b.g
    p := (c.p &&& ~~~maskFrom 28) ||| (b.p &&& maskFrom 28)
    a := (c.a &&& ~~~maskFrom 28) ||| (b.a &&& maskFrom 28)
    fpctl := b.fpctl
    seqr := b.seqr
    status := stSet c.status 4 false
    ui := none
    pc := c.uepc.toNat / 8 * 8 }

/-! ### Gate frames (R349, R351) -/

/-- The caller's state as GRET and an unwinding restore it: g1..g15 are 0 with P set and A clear, g16..g31 and
their bits come from the frame, f0..f31 are 0. A sequence of the callee that is still active ends with it: R351 is silent
on it, and its results would reach registers of the caller (log entry 131). -/
def Ctx.popFrame (c : Ctx) (f : GateFrame) (rest : List GateFrame) : Ctx :=
  { c with
    frames := rest
    g := placeRegs (placeRegs c.g 1 (List.replicate 15 0)) 16 f.g
    p := (f.p &&& maskFrom 16) ||| ~~~maskFrom 16
    a := f.a &&& maskFrom 16
    f := Vector.replicate 32 0
    m := f.m
    fpctl := f.fpctl
    slate := f.slate
    status := f.status
    asid := f.asid
    actLeft := f.actLeft
    actLoaded := f.actLoaded
    inGrace := f.inGrace
    pc := f.ret
    grants := []
    seqr := none
    streams := c.streams.map fun x => (x.1, { x.2 with fault := none }) }

/-- The innermost callee unwinds (R351): a code for the caller in the frame's register, the record of FW4, and
cause 0x16 to the caller when its STATUS.GFE is 1. -/
def unwind (s : State) (k : CtxKey) (code : Nat) (tval : Word) (epc : Nat) : State :=
  let c := getCtx s k
  match c.frames with
  | [] => s
  | f :: rest =>
    let dropped := c.causes.filter fun e => e.depth = c.depth
    let word : Word := w64 (2 ^ 63 + c.depth * 2 ^ 24 + f.gate * 2 ^ 8 + code)
    let s := record s 0x16 (agentNo k.agent) [code, epc, tval.toNat, f.gate]
    let s := dropped.foldl (fun s e => record s e.code.toNat (agentNo k.agent) [e.tval.toNat]) s
    let s := modDev s fun d => { d with gates := d.gates.map fun g =>
      if g.1 = f.gate then (g.1, { g.2 with fails := Nat.min (g.2.fails + 1) 0xFFFF }) else g }
    let s := setCtx s k ({ (c.popFrame f rest) with
      causes := c.causes.filter (fun e => e.depth ≠ c.depth), wait := none, trap := none, ui := none }.wg f.d word)
    if (getCtx s k).st 11 then
      queueCause s ⟨k, c.gen, rest.length, 0⟩ ⟨0x16, word, rest.length, 0, 0, []⟩
    else s

end Sys2Proof.Machine
end

