-- ==== Sys2Proof/Machine/Operands.lean ====
section
/-! DEFINITION. What an instruction names: its slot, major and word, the registers that it reads and writes,
and where it may run (Tables 2.8 and 2.12, R29, R30, R40). -/

namespace Sys2Proof.Machine

/-- An instruction as its bundle sees it. `slot` is 1 for a word in the A-slot; `gr`, `fr`, `mr` are the
general, vector and mask registers read, `gw`, `fw`, `mw` those written; `aw` is an accumulator tile and `sw` a
system register written (R30); `sb` is the stream-bound register that SCFG, SCLOSE or SSTAT names. -/
structure Form where
  slot : Nat
  major : Nat
  word : Nat
  gr : List (Fin 32) := []
  gw : List (Fin 32) := []
  fr : List (Fin 32) := []
  fw : List (Fin 32) := []
  mr : List (Fin 8) := []
  mw : List (Fin 8) := []
  aw : List Nat := []
  sw : List Nat := []
  sb : List (Fin 32) := []
  deriving DecidableEq, Repr

/-- A word in the C-slot. -/
def cForm (word : Nat) : Form := { slot := 0, major := word / 2 ^ 25 % 64, word := word }
/-- A word in the A-slot. -/
def aForm (word : Nat) : Form := { slot := 1, major := word / 2 ^ 25 % 64, word := word }
/-- Word 0 of a 64-bit instruction. -/
def xForm (word : Nat) : Form := { slot := 0, major := word / 2 ^ 25 % 64, word := 2 ^ 31 + word }

/-- gd ← ga op gb in format R. -/
def formDAB (major minor : Nat) (d a b : GReg) : Form :=
  { cForm (wR major d a b minor) with gr := [a, b], gw := [d] }
/-- gd ← op ga in format R. -/
def formDA (major minor : Nat) (d a : GReg) : Form := { cForm (wR major d a 0 minor) with gr := [a], gw := [d] }
/-- gd ← ga op imm in format I. -/
def formI (major : Nat) (d a : GReg) (imm : Nat) : Form := { cForm (wI major d a imm) with gr := [a], gw := [d] }
/-- The S = 1 form of the same. -/
def formIX (major : Nat) (d a : GReg) : Form := { xForm (wI major d a 0) with gr := [a], gw := [d] }
/-- A branch. -/
def formB (major : Nat) (a b : GReg) (off : Nat) : Form := { cForm (wI major a b off) with gr := [a, b] }
/-- The S = 1 form of a branch. -/
def formBX (major : Nat) (a b : GReg) : Form := { xForm (wI major a b 0) with gr := [a, b] }
/-- A load in format M: the address register and the registers written. -/
def formLd (major size : Nat) (d a : GReg) (off : Nat) : Form :=
  { cForm (wM major d a size off) with gr := [a], gw := [d] }
/-- The S = 1 form of a load. -/
def formLdX (major size : Nat) (d a : GReg) : Form := { xForm (wM major d a size 0) with gr := [a], gw := [d] }
/-- A store in format M. -/
def formSt (major size : Nat) (r a : GReg) (off : Nat) : Form := { cForm (wM major r a size off) with gr := [a, r] }
/-- The S = 1 form of a store. -/
def formStX (major size : Nat) (r a : GReg) : Form := { xForm (wM major r a size 0) with gr := [a, r] }
/-- A quad load: both registers of the pair are written (R36). -/
def formLdq (f : Form) (d : GReg) : Form := { f with gw := [d, nextReg d] }
/-- A quad store. -/
def formStq (f : Form) (r a : GReg) : Form := { f with gr := [a, r, nextReg r] }
/-- A cache instruction. -/
def formCache (op : Nat) (a : GReg) (off : Nat) : Form := { cForm (wM 0x18 0 a op off) with gr := [a] }
/-- The S = 1 form of a cache instruction. -/
def formCacheX (op : Nat) (a : GReg) : Form := { xForm (wM 0x18 0 a op 0) with gr := [a] }
/-- VLD. -/
def formVld (d : FReg) (a : GReg) (off : Nat) : Form := { cForm (wM 0x16 d a 0 off) with gr := [a], fw := [d] }
def formVldX (d : FReg) (a : GReg) : Form := { xForm (wM 0x16 d a 0 0) with gr := [a], fw := [d] }
/-- VST. -/
def formVst (r : FReg) (a : GReg) (off : Nat) : Form := { cForm (wM 0x16 r a 1 off) with gr := [a], fr := [r] }
def formVstX (r : FReg) (a : GReg) : Form := { xForm (wM 0x16 r a 1 0) with gr := [a], fr := [r] }
/-- VLDS and VSTS, with imm7 beside b (Table 8.12). -/
def formVlds (d : FReg) (a b : GReg) (off : Nat) : Form :=
  { cForm (wM 0x16 d a 2 (b * 128 + off)) with gr := [a, b], fw := [d] }
def formVldsX (d : FReg) (a b : GReg) : Form := { xForm (wM 0x16 d a 2 (b * 128)) with gr := [a, b], fw := [d] }
def formVsts (r : FReg) (a b : GReg) (off : Nat) : Form :=
  { cForm (wM 0x16 r a 3 (b * 128 + off)) with gr := [a, b], fr := [r] }
def formVstsX (r : FReg) (a b : GReg) : Form := { xForm (wM 0x16 r a 3 (b * 128)) with gr := [a, b], fr := [r] }
/-- VGATH and VSCAT. -/
def formVgath (d : FReg) (a : GReg) (b : FReg) (off : Nat) : Form :=
  { cForm (wM 0x16 d a 4 (b * 128 + off)) with gr := [a], fr := [b], fw := [d] }
def formVgathX (d : FReg) (a : GReg) (b : FReg) : Form :=
  { xForm (wM 0x16 d a 4 (b * 128)) with gr := [a], fr := [b], fw := [d] }
def formVscat (r : FReg) (a : GReg) (b : FReg) (off : Nat) : Form :=
  { cForm (wM 0x16 r a 5 (b * 128 + off)) with gr := [a], fr := [r, b] }
def formVscatX (r : FReg) (a : GReg) (b : FReg) : Form :=
  { xForm (wM 0x16 r a 5 (b * 128)) with gr := [a], fr := [r, b] }
/-- The registers of an atomic's operand: the pair at Q width (R199). -/
def amoRegs (p : AmoP) (r : GReg) : List GReg := if p.w = .quad then [r, nextReg r] else [r]
/-- An atomic; AMOCAS reads gd as well. -/
def formAmo (op : Nat) (p : AmoP) (d a b : GReg) : Form :=
  { cForm (wP 0x17 d a b op (amoPar p)) with
    gr := a :: amoRegs p b ++ (if op = 9 then amoRegs p d else []), gw := amoRegs p d }
/-- `n` registers from one. -/
def regRange (r : GReg) (n : Nat) : List GReg := (List.range n).map fun i => Fin.ofNat 32 (r.val + i)
/-- fd ← fa op fb in the A-slot. -/
def formV (major minor : Nat) (d a b : FReg) : Form := { aForm (wR major d a b minor) with fr := [a, b], fw := [d] }
/-- fd ← op fa in the A-slot. -/
def formV1 (major minor : Nat) (d a : FReg) : Form := { aForm (wR major d a 0 minor) with fr := [a], fw := [d] }
/-- The minor of op:param. -/
def opPar (op par : Nat) : Nat := op * 32 + par

/-- The vector registers that a conversion reads: a narrowing one keeps the other positions of fd (R168). -/
def cvtReads (code : Nat) (d a : FReg) : List FReg :=
  if (2 ≤ code ∧ code < 6) ∨ (10 ≤ code ∧ code < 18) then [a, d] else [a]

/-- What each instruction names; an event of the device names nothing. The registers of a captured A-slot and
of both words of a pair are read from this table (R30, R161). -/
def form : Instr → Form
  | .nop => cForm 0
  | .anop => aForm (0x3F * 2 ^ 25)
  | .hint d a b n => cForm (wP 0 d a b 31 n)
  | .endAct => cForm 0x20
  | .yield => cForm 0x40
  | .fenceRel s => cForm (wP 0 2 0 0 3 (scopeCode s))
  | .fenceAcq s => cForm (wP 0 1 0 0 3 (scopeCode s))
  | .fenceAr s => cForm (wP 0 3 0 0 3 (scopeCode s))
  | .ifence s => cForm (wP 0 0 0 0 4 (scopeCode s))
  | .tret => cForm 0xA0
  | .syscall n => cForm (wP 0 0 (n.toNat / 32) (n.toNat % 32) 6 0)
  | .brk n => cForm (wP 0 0 (n.toNat / 32) (n.toNat % 32) 7 0)
  | .snap d => { cForm (wP 0 d 0 0 8 0) with gw := [d] }
  | .sysr d n => { cForm (wP 0 d (n.toNat / 32) (n.toNat % 32) 9 0) with gw := [d] }
  | .sysw n r => { cForm (wP 0 r (n.toNat / 32) (n.toNat % 32) 10 0) with gr := [r], sw := [n.toNat] }
  | .gate d n => { cForm (wP 0 d (n.toNat / 32) (n.toNat % 32) 11 0) with
      gw := (List.range 31).map fun i => Fin.ofNat 32 (i + 1) }
  | .gret => { cForm 0x180 with gw := (List.range 31).map fun i => Fin.ofNat 32 (i + 1) }
  | .slateMin d a => { cForm (wP 0 d a 0 13 0) with gr := [a], gw := [d] }
  | .slateSet d a => { cForm (wP 0 d a 1 13 0) with gr := [a], gw := [d] }
  | .slateRgn d a => { cForm (wP 0 d a 2 13 0) with gr := [a], gw := [d] }
  | .slateRd d => { cForm (wP 0 d 0 3 13 0) with gw := [d] }
  | .slateFold d a => { cForm (wP 0 d a 4 13 0) with gr := [a], gw := [d] }
  | .slchk d a => { cForm (wP 0 d a 0 14 0) with gr := [a], gw := [d] }
  | .slchkTrap d a => { cForm (wP 0 d a 1 14 0) with gr := [a], gw := [d] }
  | .time d => { cForm (wP 0 d 0 0 15 0) with gw := [d] }
  | .timeSinceClapper d => { cForm (wP 0 d 0 1 15 0) with gw := [d] }
  | .timeToEgress d => { cForm (wP 0 d 0 2 15 0) with gw := [d] }
  | .kill d a => { cForm (wP 0 d a 0 16 0) with gr := [a], gw := [d] }
  | .invpg d a b => { cForm (wP 0 d a b 17 0) with gr := [a, b], gw := [d] }
  | .add d a b => formDAB 1 0 d a b | .sub d a b => formDAB 1 1 d a b | .and d a b => formDAB 1 2 d a b
  | .or d a b => formDAB 1 3 d a b | .xor d a b => formDAB 1 4 d a b | .shl d a b => formDAB 1 5 d a b
  | .shr d a b => formDAB 1 6 d a b | .sra d a b => formDAB 1 7 d a b | .rotl d a b => formDAB 1 8 d a b
  | .mul d a b => formDAB 1 9 d a b | .mulh d a b => formDAB 1 10 d a b | .mulhu d a b => formDAB 1 11 d a b
  | .div d a b => formDAB 1 12 d a b | .divu d a b => formDAB 1 13 d a b | .rem d a b => formDAB 1 14 d a b
  | .remu d a b => formDAB 1 15 d a b | .min d a b => formDAB 1 16 d a b | .max d a b => formDAB 1 17 d a b
  | .minu d a b => formDAB 1 18 d a b | .maxu d a b => formDAB 1 19 d a b | .slt d a b => formDAB 1 20 d a b
  | .sltu d a b => formDAB 1 21 d a b
  | .clz d a => formDA 1 22 d a | .ctz d a => formDA 1 23 d a | .popc d a => formDA 1 24 d a
  | .bswap d a => formDA 1 25 d a | .sextb d a => formDA 1 26 d a | .sexth d a => formDA 1 27 d a
  | .sextw d a => formDA 1 28 d a | .zextb d a => formDA 1 29 d a | .zexth d a => formDA 1 30 d a
  | .zextw d a => formDA 1 31 d a
  | .sel d a b => { formDAB 1 32 d a b with gr := [a, b, d] }
  | .addi d a i => formI 2 d a i.toNat | .addiLong d a _ => formIX 2 d a
  | .andi d a i => formI 3 d a i.toNat | .andiLong d a _ => formIX 3 d a
  | .ori d a i => formI 4 d a i.toNat | .oriLong d a _ => formIX 4 d a
  | .xori d a i => formI 5 d a i.toNat | .xoriLong d a _ => formIX 5 d a
  | .slti d a i => formI 7 d a i.toNat | .sltiLong d a _ => formIX 7 d a
  | .sltiu d a i => formI 8 d a i.toNat | .sltiuLong d a _ => formIX 8 d a
  | .shli d a n => formI 6 d a n.toNat | .shliLong d a _ => formIX 6 d a
  | .shri d a n => formI 6 d a (2 ^ 12 + n.toNat) | .shriLong d a _ => formIX 6 d a
  | .srai d a n => formI 6 d a (2 * 2 ^ 12 + n.toNat) | .sraiLong d a _ => formIX 6 d a
  | .rotli d a n => formI 6 d a (3 * 2 ^ 12 + n.toNat) | .rotliLong d a _ => formIX 6 d a
  | .movhi d i => { cForm (wU 9 d i.toNat) with gw := [d] }
  | .leaScale1 d a b => formDAB 0x0A 0 d a b | .leaScale2 d a b => formDAB 0x0A 1 d a b
  | .leaScale4 d a b => formDAB 0x0A 2 d a b | .leaScale8 d a b => formDAB 0x0A 3 d a b
  | .gaddr d a b => formDAB 0x0A 4 d a b
  | .beq a b o => formB 0x0B a b o.toNat | .beqLong a b _ => formBX 0x0B a b
  | .bne a b o => formB 0x0C a b o.toNat | .bneLong a b _ => formBX 0x0C a b
  | .blt a b o => formB 0x0D a b o.toNat | .bltLong a b _ => formBX 0x0D a b
  | .bge a b o => formB 0x0E a b o.toNat | .bgeLong a b _ => formBX 0x0E a b
  | .bltu a b o => formB 0x0F a b o.toNat | .bltuLong a b _ => formBX 0x0F a b
  | .bgeu a b o => formB 0x10 a b o.toNat | .bgeuLong a b _ => formBX 0x10 a b
  | .jal d o => { cForm (wU 0x11 d o.toNat) with gw := [d] }
  | .jalLong d _ => { xForm (wU 0x11 d 0) with gw := [d] }
  | .jalr d a i => formI 0x12 d a i.toNat | .jalrLong d a _ => formIX 0x12 d a
  | .rand d a b => { formDAB 0x20 0 d a b with gw := [d, a] }
  | .cvtfx d a b => { formDAB 0x20 1 d a b with gw := [d, nextReg d] }
  | .cvtxf d a b => { formDAB 0x20 2 d a b with gr := [a, nextReg a, b] }
  | .ldb d a o => formLd 0x13 0 d a o.toNat | .ldbLong d a _ => formLdX 0x13 0 d a
  | .ldh d a o => formLd 0x13 1 d a o.toNat | .ldhLong d a _ => formLdX 0x13 1 d a
  | .ldw d a o => formLd 0x13 2 d a o.toNat | .ldwLong d a _ => formLdX 0x13 2 d a
  | .ldd d a o => formLd 0x13 3 d a o.toNat | .lddLong d a _ => formLdX 0x13 3 d a
  | .ldbu d a o => formLd 0x13 4 d a o.toNat | .ldbuLong d a _ => formLdX 0x13 4 d a
  | .ldhu d a o => formLd 0x13 5 d a o.toNat | .ldhuLong d a _ => formLdX 0x13 5 d a
  | .ldwu d a o => formLd 0x13 6 d a o.toNat | .ldwuLong d a _ => formLdX 0x13 6 d a
  | .ldq d a o => formLdq (formLd 0x13 7 d a o.toNat) d | .ldqLong d a _ => formLdq (formLdX 0x13 7 d a) d
  | .stb r a o => formSt 0x14 0 r a o.toNat | .stbLong r a _ => formStX 0x14 0 r a
  | .sth r a o => formSt 0x14 1 r a o.toNat | .sthLong r a _ => formStX 0x14 1 r a
  | .stw r a o => formSt 0x14 2 r a o.toNat | .stwLong r a _ => formStX 0x14 2 r a
  | .std r a o => formSt 0x14 3 r a o.toNat | .stdLong r a _ => formStX 0x14 3 r a
  | .stq r a o => formStq (formSt 0x14 7 r a o.toNat) r a | .stqLong r a _ => formStq (formStX 0x14 7 r a) r a
  | .ldf d a o => formLd 0x15 0 d a o.toNat | .ldfLong d a _ => formLdX 0x15 0 d a
  | .ldc d a o => formLd 0x15 1 d a o.toNat | .ldcLong d a _ => formLdX 0x15 1 d a
  | .stf r a o => formSt 0x15 2 r a o.toNat | .stfLong r a _ => formStX 0x15 2 r a
  | .stfo r a o => formSt 0x15 3 r a o.toNat | .stfoLong r a _ => formStX 0x15 3 r a
  | .empty a o => { cForm (wM 0x15 0 a 4 o.toNat) with gr := [a] }
  | .emptyLong a _ => { xForm (wM 0x15 0 a 4 0) with gr := [a] }
  | .feq d a o => formLd 0x15 5 d a o.toNat | .feqLong d a _ => formLdX 0x15 5 d a
  | .vld d a o => formVld d a o.toNat | .vldLong d a _ => formVldX d a
  | .vst r a o => formVst r a o.toNat | .vstLong r a _ => formVstX r a
  | .vlds d a b o => formVlds d a b o.toNat | .vldsLong d a b _ => formVldsX d a b
  | .vsts r a b o => formVsts r a b o.toNat | .vstsLong r a b _ => formVstsX r a b
  | .vgath d a b o => formVgath d a b o.toNat | .vgathLong d a b _ => formVgathX d a b
  | .vscat r a b o => formVscat r a b o.toNat | .vscatLong r a b _ => formVscatX r a b
  | .amoadd p d a b => formAmo 0 p d a b | .amoand p d a b => formAmo 1 p d a b
  | .amoor p d a b => formAmo 2 p d a b | .amoxor p d a b => formAmo 3 p d a b
  | .amomin p d a b => formAmo 4 p d a b | .amomax p d a b => formAmo 5 p d a b
  | .amominu p d a b => formAmo 6 p d a b | .amomaxu p d a b => formAmo 7 p d a b
  | .amoswap p d a b => formAmo 8 p d a b | .amocas p d a b => formAmo 9 p d a b
  | .pref a o => formCache 0 a o.toNat | .prefLong a _ => formCacheX 0 a
  | .cwb a o => formCache 1 a o.toNat | .cwbLong a _ => formCacheX 1 a
  | .cinv a o => formCache 2 a o.toNat | .cinvLong a _ => formCacheX 2 a
  | .cwbinv a o => formCache 3 a o.toNat | .cwbinvLong a _ => formCacheX 3 a
  | .cwbL2 a o => formCache 4 a o.toNat | .cwbL2Long a _ => formCacheX 4 a
  | .send a b n => { cForm (wP 0x19 0 a b 0 n.toNat) with gr := a :: regRange b n.toNat }
  | .sendq a b n => { cForm (wP 0x19 0 a b 1 n.toNat) with gr := a :: regRange b n.toNat }
  | .sendr a b k => { cForm (wP 0x19 0 a b 2 k) with gr := [a, b] }
  | .reply a b => { cForm (wP 0x19 0 a b 3 0) with gr := [a, b] }
  | .replyQ a b => { cForm (wP 0x19 0 a b 3 1) with gr := [a, b] }
  | .cut a => { cForm (wP 0x19 0 a 0 4 0) with gr := [a] }
  | .putn d a b n => { cForm (wP 0x19 d a b 5 n.toNat) with gr := d :: a :: regRange b n.toNat }
  | .getr d a b => { cForm (wP 0x19 d a b 6 0) with gr := [a, b], gw := [d] }
  | .getrArm d => { cForm (wP 0x19 d 0 0 6 1) with gw := [d] }
  | .getrDis d => { cForm (wP 0x19 d 0 0 6 2) with gw := [d] }
  | .qpop d a b => { cForm (wP 0x19 d a b 7 0) with gr := [a, b], gw := [d] }
  | .qpeek d a b => { cForm (wP 0x19 d a b 8 0) with gr := [a, b], gw := [d] }
  | .qstat d a => { cForm (wP 0x19 d a 0 9 0) with gr := [a], gw := [d] }
  | .qstatClr d a => { cForm (wP 0x19 d a 0 9 1) with gr := [a], gw := [d] }
  | .spawn j a b n => { cForm (wP 0x1A j a b 0 n) with gr := j :: a :: b :: regRange 1 n.val }
  | .forkR j a b n => { cForm (wP 0x1A j a b 1 n) with gr := j :: a :: b :: regRange 1 n.val }
  | .join d a b => { cForm (wP 0x1A d a b 2 0) with gr := [a, b], gw := [d] }
  | .joinOpen d a b => { cForm (wP 0x1A d a b 2 1) with gr := [a, b], gw := [d] }
  | .joinSeal d a => { cForm (wP 0x1A d a 0 2 2) with gr := [a], gw := [d] }
  | .joinWait d a => { cForm (wP 0x1A d a 0 2 3) with gr := [a], gw := [d] }
  | .budgetAct d a => { cForm (wP 0x1A d a 0 3 0) with gr := [a], gw := [d] }
  | .budgetTake d a => { cForm (wP 0x1A d a 0 3 1) with gr := [a], gw := [d] }
  | .barInit a b => { cForm (wP 0x1B 0 a b 0 0) with gr := [a, b] }
  | .barArr s d a => { cForm (wP 0x1B d a 0 1 (scopeCode s)) with gr := [a], gw := [d] }
  | .barWait s a b => { cForm (wP 0x1B 0 a b 2 (scopeCode s)) with gr := [a, b] }
  | .barArw s d a => { cForm (wP 0x1B d a 0 3 (scopeCode s)) with gr := [a], gw := [d] }
  | .barTx a b => { cForm (wP 0x1B 0 a b 4 0) with gr := [a, b] }
  | .barQry d a => { cForm (wP 0x1B d a 0 5 0) with gr := [a], gw := [d] }
  | .ringWaitf d h k => { cForm (wP 0x1B d h 0 6 k) with gw := [d] }
  | .ringWaite d h k => { cForm (wP 0x1B d h 0 7 k) with gw := [d] }
  | .ringAdvp h k => cForm (wP 0x1B 0 h 0 8 k)
  | .ringAdvc h k => cForm (wP 0x1B 0 h 0 9 k)
  | .ringQry d h => { cForm (wP 0x1B d h 0 10 0) with gw := [d] }
  | .grpMem d a => { cForm (wP 0x1B d a 0 11 0) with gr := [a], gw := [d] }
  | .red o d a b => { cForm (wP 0x1C d a b 0 (redCode o)) with gr := [b], fr := [a], fw := [d] }
  | .scan o d a b => { cForm (wP 0x1C d a b 1 (redCode o)) with gr := [b], fr := [a], fw := [d] }
  | .bcast d a b => { cForm (wP 0x1C d a b 2 0) with gr := [b], fr := [a], fw := [d] }
  | .treeWait d a => { cForm (wP 0x1C d a 0 3 0) with gr := [a], gw := [d] }
  | .poolSet d a => formDA 0x1D 0 d a | .poolQry d a => formDA 0x1D 1 d a
  | .poolPin d a => formDA 0x1D 2 d a | .poolUnpin d a => formDA 0x1D 3 d a
  | .cpy d a _ => { xForm (wR 0x1E d a 0 0) with gr := [a], gw := [d] }
  | .cpyCancel d a => { xForm (wR 0x1E d a 0 1) with gr := [a], gw := [d] }
  | .cpyStat d a _ => { xForm (wR 0x1E d a 0 2) with gr := [a], gw := [d] }
  | .scfg d a b _ _ => { xForm (wR 0x1F d a b 0) with gr := [a, b], sb := [Fin.ofNat 32 d.val] }
  | .sclose a => { cForm (wR 0x1F 0 a 0 1) with sb := [Fin.ofNat 32 a.val] }
  | .sstat d a => { cForm (wR 0x1F d a 0 2) with gw := [d], sb := [Fin.ofNat 32 a.val] }
  | .ldm d a n => { formDAB 0x27 0 d a n with gr := [a], gw := regRange d (n.val + 1) }
  | .stm r a n => { formDAB 0x27 1 r a n with gr := a :: regRange r (n.val + 1), gw := [] }
  | .vdotI8 d a b => formDAB 0x27 2 d a b
  | .maca d a b => { formDAB 0x27 3 d a b with gr := [a, b, d] }
  | .vadd l r d a b => formV 0x28 (opPar 0 (lanesCode l * 8 + rndCode r)) d a b
  | .vsub l r d a b => formV 0x28 (opPar 1 (lanesCode l * 8 + rndCode r)) d a b
  | .vmul l r d a b => formV 0x28 (opPar 2 (lanesCode l * 8 + rndCode r)) d a b
  | .vmin l d a b => formV 0x28 (opPar 3 (lanesCode l * 8)) d a b
  | .vmax l d a b => formV 0x28 (opPar 4 (lanesCode l * 8)) d a b
  | .vabs l d a => formV1 0x28 (opPar 5 (lanesCode l * 8)) d a
  | .vneg l d a => formV1 0x28 (opPar 6 (lanesCode l * 8)) d a
  | .vdiv l r d a b => formV 0x28 (opPar 7 (lanesCode l * 8 + rndCode r)) d a b
  | .vsqrt l r d a => formV1 0x28 (opPar 8 (lanesCode l * 8 + rndCode r)) d a
  | .vfma d a b c => { formV 0x29 (c * 32) d a b with fr := [a, b, c] }
  | .vfms d a b c => { formV 0x29 (c * 32 + 1) d a b with fr := [a, b, c] }
  | .vfnma d a b c => { formV 0x29 (c * 32 + 2) d a b with fr := [a, b, c] }
  | .vfnms d a b c => { formV 0x29 (c * 32 + 3) d a b with fr := [a, b, c] }
  | .vaddI d a b => formV 0x2A 0 d a b | .vsubI d a b => formV 0x2A 1 d a b
  | .vmulI d a b => formV 0x2A 2 d a b | .vmulhI d a b => formV 0x2A 3 d a b
  | .vand d a b => formV 0x2A 4 d a b | .vor d a b => formV 0x2A 5 d a b
  | .vxor d a b => formV 0x2A 6 d a b | .vshl d a b => formV 0x2A 7 d a b
  | .vshr d a b => formV 0x2A 8 d a b | .vsra d a b => formV 0x2A 9 d a b
  | .vminI d a b => formV 0x2A 10 d a b | .vmaxI d a b => formV 0x2A 11 d a b
  | .vminuI d a b => formV 0x2A 12 d a b | .vmaxuI d a b => formV 0x2A 13 d a b
  | .vdot4I8 d a b => { formV 0x2A 14 d a b with fr := [a, b, d] }
  | .vcmp l c d a b =>
    { aForm (wP 0x2B d a b 0 (cmpLanesCode l * 8 + condCode c)) with fr := [a, b], mw := [d] }
  | .vsel d a b => { aForm (wP 0x2B d a b 1 0) with fr := [a, d], fw := [d], mr := [b] }
  | .mand d a b => { aForm (wP 0x2B d a b 2 0) with mr := [a, b], mw := [d] }
  | .mor d a b => { aForm (wP 0x2B d a b 3 0) with mr := [a, b], mw := [d] }
  | .mxor d a b => { aForm (wP 0x2B d a b 4 0) with mr := [a, b], mw := [d] }
  | .mnot d a => { aForm (wP 0x2B d a 0 5 0) with mr := [a], mw := [d] }
  | .mmov d a => { aForm (wP 0x2B d a 0 6 0) with mr := [a], mw := [d] }
  | .mset d a => { aForm (wP 0x2B d a 0 7 0) with gr := [a], mw := [d] }
  | .mpopc d a => { aForm (wP 0x2B d a 0 8 0) with mr := [a], gw := [d] }
  | .vrcp d a => formV1 0x2C 0 d a | .vrsq d a => formV1 0x2C 1 d a | .vexp2 d a => formV1 0x2C 2 d a
  | .vlog2 d a => formV1 0x2C 3 d a | .vtanh d a => formV1 0x2C 4 d a | .vsigm d a => formV1 0x2C 5 d a
  | .vcvt c d a => { formV1 0x2D (opPar 0 c) d a with fr := cvtReads c d a }
  | .vcvtSr c d a b => { formV 0x2D (opPar 1 c) d a b with fr := cvtReads c d a ++ [b] }
  | .vrand d a b => { aForm (wR 0x2E d a b 0) with gr := [a, b], fw := [d], gw := [a] }
  | .vmov d a => formV1 0x2F (opPar 0 0) d a
  | .vbcast d a => { aForm (wP 0x2F d a 0 1 0) with gr := [a], fw := [d] }
  | .vext d a l => { aForm (wP 0x2F d a 0 2 l) with fr := [a], gw := [d] }
  | .vins d a l => { aForm (wP 0x2F d a 0 3 l) with gr := [a], fr := [d], fw := [d] }
  | .vperm d a b => formV 0x2F (opPar 4 0) d a b
  | .vred o d a => { aForm (wP 0x2F d a 0 5 (redCode o)) with fr := [a], gw := [d] }
  | .vscan o d a => formV1 0x2F (opPar 6 (redCode o)) d a
  | .vseq a n => { aForm (wP 0x30 0 a 0 0 n) with gr := [a] }
  | .vseqS a n => aForm (wP 0x30 0 a 0 0 (16 + n.val))
  | .vseqStop a => { aForm (wP 0x30 0 a 0 1 0) with mr := [a] }
  | .cvtMx d a b f => { xForm (wR 0x31 d a b 0) with gr := (if f.dstr then [] else [d]) ++ (if f.srcr then [] else [a]) ++ [b] }
  | .cvtUnmx d a b f => { xForm (wR 0x31 d a b 1) with gr := (if f.dstr then [] else [d]) ++ (if f.srcr then [] else [a]) ++ [b] }
  | .rescaleMx d a b f => { xForm (wR 0x31 d a b 2) with gr := (if f.dstr then [] else [d]) ++ (if f.srcr then [] else [a]) ++ [b] }
  | .transp d a b f => { xForm (wR 0x31 d a b 3) with gr := (if f.dstr then [] else [d]) ++ (if f.srcr then [] else [a]) ++ [b] }
  | .mma d a b _ => { xForm (wR 0x32 d a b 0) with aw := [d.val] }
  | .mmaG d a b _ => { xForm (wR 0x32 d a b 1) with gr := [d] }
  | .mmrot d a b _ => { xForm (wR 0x32 d a b 2) with aw := [d.val] }
  | .accClr d => { aForm (wR 0x33 d 0 0 0) with aw := [d.val] }
  | .accAnch d a => { aForm (wR 0x33 d a 0 1) with gr := [a], aw := [d.val] }
  | .accRd d a b f => { xForm (wR 0x33 d a b 2) with gr := (if f.ring then [] else [a]) ++ [b] }
  | .accWr d a f => { xForm (wR 0x33 d a 0 3) with gr := (if f.ring then [] else [a]), aw := [d.val] }
  | .accStat d a => { aForm (wR 0x33 d a 0 4) with gw := [d] }
  | .linkCfg d a => { aForm (wR 0x34 d a 0 0) with gr := [a], gw := [d], sb := [28, 29, 30, 31] }
  | .linkStat d => { aForm (wR 0x34 d 0 0 1) with gw := [d] }
  | _ => cForm 0

end Sys2Proof.Machine
end

