-- ==== Sys2Proof/Machine/Mem.lean ====
section
/-! DEFINITION. How an access finds its home and is performed: address forms, page tables and translation
caches, L2 slices, the L1, the pool's roles, the posted-store journal, and loads, stores, atomics and full/empty
operations as their instructions issue them (R129, R131, R172 to R200, R216). -/

namespace Sys2Proof.Machine

/-- Why a bundle does not commit: a precise cause, a wait of Table 4.2 (its kind, object and owner), or a hold
of the kind of R110. A wait or a hold may have started something, as the state it carries says. -/
inductive Stall where
  | trap (code : Nat) (tval : Word)
  /-- a precise cause that leaves a sticky flag behind -/
  | trapAfter (s : State) (code : Nat) (tval : Word)
  | wait (s : State) (kind obj owner : Nat)
  | hold (s : State)
  deriving DecidableEq, Repr

/-- A part of an instruction: its result, or why its bundle does not commit. -/
abbrev Do (α : Type) := Except Stall α

/-- A precise cause. -/
def trap {α : Type} (code : Nat) (tval : Word) : Do α := .error (.trap code tval)

/-- A value that no rule states, and the state that has taken it (log entry 16). -/
def freshWord (s : State) : Word × State := (Config.openWord s.fresh, { s with fresh := s.fresh + 1 })

/-! ### Addresses and page tables (R172 to R181) -/

/-- Fv: TVAL of a translation fault (R180). -/
def fv (va kind level : Nat) (mal : Bool) : Word :=
  w64 (va % 2 ^ 48 + kind * 2 ^ 48 + level * 2 ^ 50 + b2n mal * 2 ^ 53)

/-- The first physical address after DRAM (Table 8.2). -/
def dramEnd : Nat := 0x7800000000

/-- The region of a physical address (Table 8.2): 0 DRAM, 1 host window, 2 guest memory, 3 the partner's DRAM,
4 the process image window; none in a reserved range. -/
def regionOf (pa : Nat) : Option Nat :=
  if pa < dramEnd then some 0
  else if 0x4000_0000_0000 ≤ pa ∧ pa < 0x5000_0000_0000 then some 1
  else if 0x5000_0000_0000 ≤ pa ∧ pa < 0x6000_0000_0000 then some 2
  else if 0x6000_0000_0000 ≤ pa ∧ pa < 0x6000_0000_0000 + dramEnd then some 3
  else if 0x7000_0000_0000 ≤ pa ∧ pa < 0x7000_0180_0000 then some 4
  else none

/-- Whether a region admits a page policy (Table 8.2): 0 CL1, 1 L2, 2 HOMEUC, 3 DEV, 4 PAIRW. -/
def admits (region pol : Nat) : Bool :=
  match region with
  | 0 => decide (pol ≤ 2)
  | 1 => pol == 3
  | 2 => pol == 3
  | 3 => pol == 4
  | _ => pol == 2

/-- Whether a leaf at an address with a number of bytes keeps R174. -/
def leafPlaced (pa size pol : Nat) : Bool :=
  match regionOf pa, regionOf (pa + size - 1) with
  | some r, some r' => r == r' && admits r pol
  | _, _ => false

/-- log₂ of the bytes of a page that a leaf at a level maps (R176). -/
def leafShift (level : Nat) (c64 : Bool) : Nat :=
  if level = 1 then 30 else if level = 2 then 21 else if c64 then 16 else 12

/-- Whether a valid entry at a level is malformed (R178). -/
def malformed (e level : Nat) : Bool :=
  let leaf := bit e 1
  let pa := bits e 46 12 * 2 ^ 12
  let sh := leafShift level (bit e 11)
  bits e 63 47 ≠ 0 || bit e 7 || (leaf && level == 0) || (!leaf && level == 3)
    || (!leaf && (bits e 11 8 ≠ 0 || bits e 6 2 ≠ 0 || decide (dramEnd ≤ pa)))
    || (leaf && ((bit e 3 && !bit e 2) || (bit e 11 && level ≠ 3) || bits pa (sh - 1) 0 ≠ 0
      || !leafPlaced pa (2 ^ sh) (bits e 10 8)))

/-- The leaf that a valid entry holds, as the translation caches keep it (R181). -/
def leafOf (asid : BitVec 12) (va e level : Nat) : Tlb :=
  let sh := leafShift level (bit e 11)
  { asid := asid, global := bit e 6, vpn := va / 2 ^ sh, shift := sh, ppn := bits e 46 12 * 2 ^ 12 / 2 ^ sh,
    pol := bits e 10 8, u := bit e 5, x := bit e 4, w := bit e 3, rd := bit e 2 }

/-- The entry of a table that a walk reads at a level. At level 3 the first entry of an aligned group of 16
describes a 64 KiB page for the whole group (R178). -/
def tableEntry (m : List Host.Cell) (table va level : Nat) : Nat :=
  let idx := va / 2 ^ (39 - 9 * level) % 512
  let e := readN m (table + 8 * idx) 8
  if level = 3 then
    let first := readN m (table + 8 * (idx / 16 * 16)) 8
    if bit first 0 && bit first 11 then first else e
  else e

/-- Whether a level-3 entry claims a 64 KiB page that the first entry of its group does not describe (R178; log
entry 119). -/
def strayC64 (m : List Host.Cell) (table va level : Nat) : Bool :=
  let idx := va / 2 ^ (39 - 9 * level) % 512
  let first := readN m (table + 8 * (idx / 16 * 16)) 8
  level == 3 && !(bit first 0 && bit first 11) && bit (tableEntry m table va level) 11

/-- Whether a cached translation serves an address of an ASID. -/
def Tlb.hits (t : Tlb) (asid : BitVec 12) (va : Nat) : Bool :=
  (t.global || t.asid == asid) && t.vpn == va / 2 ^ t.shift

/-- What an access needs of a leaf (R180, Table 8.13). -/
inductive Need where
  | rd | wr | fetch | any
  deriving DecidableEq, Repr

/-- Whether a leaf allows an access (R180). -/
def Tlb.allows (t : Tlb) (user : Bool) (need : Need) : Bool :=
  match need with
  | .any => true
  | .rd => t.rd && (!user || t.u)
  | .wr => t.w && (!user || t.u)
  | .fetch => t.x && decide (t.pol ≤ 1) && (!user || t.u)

/-- The level of the entry that a leaf stood in. -/
def Tlb.level (t : Tlb) : Nat := if t.shift = 30 then 1 else if t.shift = 21 then 2 else 3

/-- The set of the cluster cache that holds a translation: 256 sets of 8 ways (R181; log entry 13). -/
def clusterSet (t : Tlb) : Nat := t.vpn % 256

/-- A translation placed first in a cluster's cache, which keeps 8 of its set (R181). -/
def clusterPut (l : List (Nat × Tlb)) (cl : Nat) (t : Tlb) : List (Nat × Tlb) :=
  let same := l.filter fun e => e.1 == cl && clusterSet e.2 == clusterSet t && !(e.2 == t)
  let rest := l.filter fun e => !(e.1 == cl && clusterSet e.2 == clusterSet t)
  (cl, t) :: same.take 7 ++ rest

/-- A translation placed first in a core's 64-entry cache (R181). -/
def tlbPut (s : State) (a : Agent) (t : Tlb) : State :=
  modCore s a fun c => { c with tlb := (t :: c.tlb.filter (fun e => !(e == t))).take 64 }

/-! ### Homes (R174, R186, R187) -/

/-- The domain of a physical address (Table 8.8). -/
def domSel (d : Domains) (pa : Nat) : Nat :=
  let g := pa / 2 ^ 30
  (d.sel[Fin.ofNat 30 (g / 16)]).toNat / 16 ^ (g % 16) % 16

/-- The slices of a mask, in ascending number. -/
def slicesOf (m : Word) : List Nat := (List.range 64).filter fun i => m.getLsbD i

/-- Slice (R187). -/
def sliceOf (d : Domains) (pa : Nat) : Nat :=
  let l := slicesOf (d.mask[Fin.ofNat 16 (domSel d pa)])
  let f := pa / 2 ^ 8 % 2 ^ 39
  let h := f % 2 ^ 16 ^^^ f / 2 ^ 16 % 2 ^ 16 ^^^ f / 2 ^ 32
  (l[h % l.length]?).getD 0

/-- Whether a switch moves the line of an address: its homes under the old values and under the new differ (R190). -/
def Switch.moves (w : Switch) (d : Domains) (pa : Nat) : Bool :=
  decide (pa < dramEnd) && sliceOf { d with mask := w.oldMask, sel := w.oldSel } pa
    != sliceOf { d with mask := w.newMask, sel := w.newSel } pa

/-- Whether the home of a physical address holds its accesses: the page is blocked for a migration (R191, R219), or its
line has moved and its old home has not signalled yet (R190). -/
def homeHolds (s : State) (pa : Nat) : Bool :=
  s.dev.blocked.contains (pa / 4096) || s.dev.migrations.any (fun g => decide (g.old ≤ pa) && decide (pa < g.old + g.size))
    || (match s.dev.dom.switch with
    | some w => w.applied && !w.signalled && w.moves s.dev.dom pa
    | none => false)

/-- The home of a physical address (Table 8.2). -/
def homeNode (s : State) (pa : Nat) : Node :=
  match regionOf pa with
  | some 0 => .slice (sliceOf s.dev.dom pa)
  | some 1 => .host
  | some 2 => .guest
  | some 3 => .partner
  | _ => .image

/-- The address of an access that an old home has forwarded to a node. -/
def Packet.forwardedTo (q : Packet) (dst : Node) : Option Nat :=
  match q.body with
  | .access a => if q.fwd && q.dst == dst then some a.addr else none
  | _ => none

/-- Whether a forwarded access stands before others at a home: one to the same page, or, in a switch, any one where the address
moves (R190 step 5, R219 step 4). -/
def forwardedAhead (s : State) (dst : Node) (addr : Nat) : Bool :=
  let moving := match s.dev.dom.switch with
    | some w => w.applied && w.moves s.dev.dom addr
    | none => false
  (s.net ++ s.dev.lost).any fun q => match q.forwardedTo dst with
    | some x => moving || x / 4096 == addr / 4096
    | none => false

/-- Whether the home of a physical address performs nothing on it now: it holds its accesses, or a forwarded one comes first. -/
def homeBusy (s : State) (pa : Nat) : Bool := homeHolds s pa || forwardedAhead s (homeNode s pa) pa

/-- Whether an access of a core to a home is on its way on VN0, or has been lost with a link and is to be sent again: a read that
must follow it waits (R204, R217). -/
def storesUnderWay (s : State) (a : Agent) (dst : Node) : Bool :=
  (s.net ++ s.dev.lost).any fun p => p.src == nodeOf a && p.dst == dst && p.vn == 0

/-- Whether an error that cannot be corrected lies in a range, and whether it is one of SRAM (R191). -/
def failedIn (s : State) (a n : Nat) : Option Bool :=
  (s.dev.failed.find? fun f => decide (f.1 < a + n) && decide (a < f.1 + 32)).map (·.2)

/-- The cause of a failed sector: 0x2C for SRAM, 0x2B for DRAM (R191). -/
def failCause (sram : Bool) : Nat := if sram then 0x2C else 0x2B

/-! ### Translation (R175 to R181) -/

/-- What a walk's read of an entry meets at its home: the home may hold it, or the sector may have failed (R176, R190, R191,
R219). -/
def entryCheck (s : State) (a : Nat) : Do Unit :=
  if homeBusy s a then .error (.hold s)
  else match failedIn s a 8 with
    | none => .ok ()
    | some sram => trap (failCause sram) (Config.openWord s.fresh)

/-- The entries of a table that a walk reads at a level: at level 3 the first of the aligned group of 16 too (R178). -/
def entriesCheck (s : State) (table va level : Nat) : Do Unit := do
  let idx := va / 2 ^ (39 - 9 * level) % 512
  entryCheck s (table + 8 * idx)
  if level = 3 then entryCheck s (table + 8 * (idx / 16 * 16)) else .ok ()

/-- The walk of `n` more levels from a table (R176): each entry is read as a load at the slice that homes it. -/
def walkFrom (s : State) (asid : BitVec 12) (va kind table : Nat) : Nat → Do Tlb
  | 0 => trap 0x06 (fv va kind 3 true)
  | n + 1 => do
    let level := 3 - n
    entriesCheck s table va level
    let e := tableEntry s.mem table va level
    if !bit e 0 then trap 0x06 (fv va kind level false)
    else if malformed e level || strayC64 s.mem table va level then trap 0x06 (fv va kind level true)
    else if bit e 1 then .ok (leafOf asid va e level)
    else walkFrom s asid va kind (bits e 46 12 * 2 ^ 12) n

/-- The walk from the ASID directory (R179). -/
def walk (s : State) (asid : BitVec 12) (va kind : Nat) : Do Tlb :=
  let root := s.dev.ptroot.toNat
  if !bit root 0 then trap 0x06 (fv va kind 4 false)
  else do
    let at_ := bits root 46 15 * 2 ^ 15 + 8 * asid.toNat
    entryCheck s at_
    let w := readN s.mem at_ 8
    let table := bits w 46 12 * 2 ^ 12
    if !bit w 0 then trap 0x06 (fv va kind 4 false)
    else if bits w 63 47 ≠ 0 || bits w 11 1 ≠ 0 || decide (dramEnd ≤ table) then trap 0x06 (fv va kind 4 true)
    else walkFrom s asid va kind table 4

/-- The translation of an address for an agent: from its TLB, its cluster's cache, or a walk (R181). -/
def translation (s : State) (a : Agent) (asid : BitVec 12) (va kind : Nat) : Do (State × Tlb) :=
  match (getCore s a).tlb.find? (·.hits asid va) with
  | some t => .ok (tlbPut s a t, t)
  | none =>
    match a with
    | .fw _ => do
      let t ← walk s asid va kind
      .ok (tlbPut s a t, t)
    | .tile n =>
      let cl := clusterOf n
      match s.dev.clusterTlb.find? fun e => e.1 == cl && e.2.hits asid va with
      | some (_, t) =>
        .ok (tlbPut (modDev s fun d => { d with clusterTlb := clusterPut d.clusterTlb cl t }) a t, t)
      | none => do
        let t ← walk s asid va kind
        .ok (tlbPut (modDev s fun d => { d with clusterTlb := clusterPut d.clusterTlb cl t }) a t, t)

/-- Translate (R175, R180): the physical address, the page policy and the level of the leaf. -/
def translate (s : State) (a : Agent) (asid : BitVec 12) (user : Bool) (va kind : Nat) (need : Need) :
    Do (State × Nat × Nat × Nat) := do
  let (s, t) ← translation s a asid va kind
  if t.allows user need then .ok (s, t.ppn * 2 ^ t.shift + va % 2 ^ t.shift, t.pol, t.level)
  else trap 0x07 (fv va kind t.level false)

/-- TVAL of cause 0x08 with reason 2 (R10, R237). -/
def reason2 (core : Nat) : Word := w64 (2 * 2 ^ 56 + core % 2 ^ 11)

/-- Resolve (R175): kind 0 load, 1 store, 2 fetch, 3 atomic or cache operation. -/
def resolve (s : State) (a : Agent) (asid : BitVec 12) (user : Bool) (ea : Word) (kind : Nat) (need : Need) :
    Do (State × Target) :=
  let e := ea.toNat
  if bits e 63 48 ≠ 0 then trap 0x06 (fv e kind 4 true)
  else if bits e 47 44 = 0xF then
    let core := bits e 43 33
    if bits e 32 20 ≠ 0 then trap 0x06 (fv e kind 4 true)
    else if kind = 2 then trap 0x07 (fv e 2 4 false)
    else if core % 4 = 3 then trap 0x08 (reason2 core)
    else if a = .tile core then .ok (s, .own (bits e 19 0))
    else .ok (s, .pool core (bits e 19 0))
  else do
    let (s, pa, pol, lvl) ← translate s a asid user e kind need
    .ok (s, .phys pa pol lvl)

/-- Resolve for the issuing context. -/
def resolveCur (s : State) (ea : Word) (kind : Nat) (need : Need) : Do (State × Target) :=
  resolve s s.cur.agent (opCtx s).asid (curLevel s == 0) ea kind need

/-- The home of a target, as seen from an agent. -/
def Target.node (t : Target) (s : State) (a : Agent) : Node :=
  match t with
  | .own _ => nodeOf a
  | .pool c _ => .core c
  | .phys pa _ _ => homeNode s pa

/-- The home address of a target. -/
def Target.addr (t : Target) (a : Agent) : Nat :=
  match t with
  | .own off => localAddr (agentNo a) off
  | .pool c off => localAddr c off
  | .phys pa _ _ => pa

/-! ### Pool roles (R128, R129, R139) -/

/-- The role of a bank under a split: 0 control, 1 registers, 2 scratchpad, 3 cache, 4 tile store (R128). -/
def roleUnder (k : Nat × Nat × Nat × Nat) (bank : Nat) : Nat :=
  if bank = 0 then 0
  else if bank ≤ k.1 then 1
  else if bank ≤ k.1 + k.2.1 then 2
  else if bank ≤ k.1 + k.2.1 + k.2.2.1 then 3
  else 4

/-- The counts that govern accesses: those of an accepted reshape, where there is one (R139). -/
def governing (co : Core) : Nat × Nat × Nat × Nat :=
  match co.reshape with
  | some r => r.counts
  | none => co.counts

/-- The role that governs accesses to a bank (R139). -/
def bankRole (co : Core) (bank : Nat) : Nat := roleUnder (governing co) bank

/-- Whether a bank's role changes in the reshape that runs. -/
def bankMoves (co : Core) (bank : Nat) : Bool := roleUnder co.counts bank != bankRole co bank

/-- Whether a bank holds data: scratchpad or tile store (R129). -/
def isData (role : Nat) : Bool := role == 2 || role == 4

/-- The pool bank of a local offset (R128). -/
def bankOf (off : Nat) : Nat := off / 16384

/-- What an access to a pool meets (R129, R139): it is performed, it is held until a bank is initialised, or
it is refused. -/
inductive Admit where
  | yes | later | no
  deriving DecidableEq, Repr

/-- How the roles admit an access of `n` bytes at a local offset. -/
def roleAdmit (co : Core) (off n : Nat) : Admit :=
  let b := bankOf off
  let b' := bankOf (off + n - 1)
  if 64 ≤ b' || !isData (bankRole co b) || !isData (bankRole co b') then .no
  else if bankMoves co b || bankMoves co b' then .later
  else .yes

/-- The barrier of a core with an index (R254). -/
def getBar (co : Core) (i : Nat) : Barrier := aget Barrier.off i co.barriers
/-- The core with a barrier replaced. -/
def setBar (co : Core) (i : Nat) (b : Barrier) : Core := { co with barriers := aset i b co.barriers }

/-- TVAL of cause 0x09 (R255). -/
def barTval (reason idx owner : Nat) : Word := w64 (reason + idx % 512 * 2 ^ 8 + owner % 2 ^ 11 * 2 ^ 17)

/-- The first live barrier word that an access of `n` bytes touches (R129). -/
def barrierIn (co : Core) (off n : Nat) : Option Nat :=
  ((List.range ((off + n - 1) / 8 - off / 8 + 1)).map (off / 8 + ·)).find? fun i =>
    decide (i < 512) && (getBar co i).live

/-- The check of an own core's access (Table 6.2). -/
def ownCheck (s : State) (ea : Word) (off n : Nat) (store : Bool) : Do Unit :=
  let co := curCore s
  match roleAdmit co off n with
  | .yes => .ok ()
  | .later => .error (.hold s)
  | .no =>
    match if store then barrierIn co off n else none with
    | some i => trap 0x09 (barTval 0 i (agentNo s.cur.agent))
    | none => trap 0x0B ea

/-! ### Performing at a home (R191, R201, R214, R224) -/

/-- A read that meets a failed sector raises its cause precisely at the bundle of a load (R191, R201); TVAL is
not stated (log entry 16). -/
def loadCheck (s : State) (a n : Nat) : Do Unit :=
  match failedIn s a n with
  | none => .ok ()
  | some sram => trap (failCause sram) (Config.openWord s.fresh)

/-- The same for a load that goes to another home: behind an access of the core to that home that is still on its way, which may
take the sector from the list, the bundle is held (R191, R204). -/
def sentLoadCheck (s : State) (dst : Node) (a n : Nat) : Do Unit :=
  if (failedIn s a n).isSome && storesUnderWay s s.cur.agent dst then .error (.hold s) else loadCheck s a n

/-- A write to a listed sector (R191): a whole sector leaves the list; a part is written over zeros, and the
storing context takes the cause. -/
def fixFailed (s : State) (a n : Nat) (w : Option Who) : State :=
  s.dev.failed.foldl (fun s f =>
    if f.1 < a + n ∧ a < f.1 + 32 then
      let s := modDev s fun d => { d with failed := d.failed.filter (· ≠ f) }
      if a ≤ f.1 ∧ f.1 + 32 ≤ a + n then s
      else
        let s := { s with mem := writeN s.mem f.1 32 0 }
        match w with
        | none => s
        | some w => let (v, s) := freshWord s; raiseAsync s w (failCause f.2) v
    else s) s

/-! ### The L2 slices (R13, R182, R186) -/

/-- Ways of a slice that are in use, and its sets: 4 MiB of 256-byte lines in 16 ways. -/
def l2Ways (d : Domains) (slice : Nat) : Nat := 16 - d.lostWays.count slice
def l2Sets : Nat := 1024

/-- The set of a line in its slice, by the low bits of its number (log entry 120). -/
def l2Set (line : Nat) : Nat := line % l2Sets

/-- A line placed first in its slice's order of use. A set keeps as many lines as the slice has ways: the line used
longest ago leaves it, and its dirty sectors go to DRAM, which holds their bytes in the model (R186). -/
def l2Front (d : Domains) (x : L2Line) : Domains :=
  let same := d.l2.filter fun y => y.slice == x.slice && l2Set y.line == l2Set x.line && y.line != x.line
  let rest := d.l2.filter fun y => !(y.slice == x.slice && l2Set y.line == l2Set x.line)
  { d with l2 := x :: same.take (l2Ways d x.slice - 1) ++ rest }

/-- Sectors `lo` to `hi` of a line used at its home: a line that the slice holds is updated, and one that it does
not hold is allocated where the policy allows it (Table 8.5). A write leaves the sectors dirty. -/
def l2Line (d : Domains) (line lo hi : Nat) (write alloc : Bool) : Domains :=
  let m : BitVec 8 := BitVec.ofNat 8 (2 ^ (hi + 1) - 2 ^ lo)
  let slice := sliceOf d (256 * line)
  match d.l2.find? fun y => y.slice == slice && y.line == line with
  | some y => l2Front d { y with valid := y.valid ||| m, dirty := if write then y.dirty ||| m else y.dirty }
  | none => if alloc then l2Front d ⟨slice, line, m, if write then m else 0⟩ else d

/-- The part of an access of `n` bytes that falls into a line. -/
def l2Part (d : Domains) (a n line : Nat) (write alloc : Bool) : Domains :=
  let last := a + n - 1
  l2Line d line (if line = a / 256 then a / 32 % 8 else 0) (if line = last / 256 then last / 32 % 8 else 7) write alloc

/-- The lines of an access of `n` bytes at a DRAM home. -/
def l2Use (s : State) (a n : Nat) (write : Bool) (alloc : Bool := true) : State :=
  if a < dramEnd ∧ 0 < n then
    let lines := (List.range ((a + n - 1) / 256 - a / 256 + 1)).map (a / 256 + ·)
    modDev s fun d => { d with dom := lines.foldl (fun m line => l2Part m a n line write alloc) d.dom }
  else s

/-- A line's dirty sectors written back to DRAM at its home slice; the line stays valid and clean (Table 8.13). -/
def l2Clean (s : State) (line : Nat) : State :=
  modDev s fun d => { d with dom := { d.dom with l2 := d.dom.l2.map fun y =>
    if y.line = line then { y with dirty := 0 } else y } }

/-- Whether the policy of a page allocates in L2 (Table 8.5). -/
def polAllocates (pol : Nat) : Bool := decide (pol ≤ 1)

/-- The watchpoints that a performed write meets (R224). `kind` is the writer's kind and `writer` its number. -/
def triggers (s : State) (a n kind writer : Nat) : State :=
  let hits := s.cores.flatMap fun c => (List.finRange 4).filterMap fun i =>
    let w := c.2.watches[i]
    if w.en && decide (w.lo < a + n) && decide (a < w.lo + 2 ^ w.size) then
      some (⟨c.1, i.val, kind, writer, a⟩ : Trig)
    else none
  modDev s fun d => { d with trigs := d.trigs ++ hits }

/-- The watchpoints that a copy of firmware to a range meets, once each, at the first byte that it watches (R224). -/
def triggersCopy (s : State) (a n : Nat) : State :=
  let hits := s.cores.flatMap fun c => (List.finRange 4).filterMap fun i =>
    let w := c.2.watches[i]
    if w.en && decide (w.lo < a + n) && decide (a < w.lo + 2 ^ w.size) then
      some (⟨c.1, i.val, 5, 0, Nat.max a w.lo⟩ : Trig)
    else none
  modDev s fun d => { d with trigs := d.trigs ++ hits }

/-- A write as its home performs it, through a page whose policy allocates in L2 or does not. -/
def homeWrite (s : State) (a : Nat) (bs : List Byte) (kind writer : Nat) (w : Option Who) (alloc : Bool := true) : State :=
  let s := fixFailed s a bs.length w
  let s := storeMem s a bs
  triggers (l2Use s a bs.length true alloc) a bs.length kind writer

/-- The watchpoints that the write of some bytes of a sector meets, once each, at the first byte that it watches. -/
def triggersMasked (s : State) (a : Nat) (l : List (Nat × Byte)) (kind writer : Nat) : State :=
  let hits := s.cores.flatMap fun c => (List.finRange 4).filterMap fun i =>
    let w := c.2.watches[i]
    if w.en then
      (l.find? fun b => decide (w.lo ≤ a + b.1) && decide (a + b.1 < w.lo + 2 ^ w.size)).map fun b =>
        (⟨c.1, i.val, kind, writer, a + b.1⟩ : Trig)
    else none
  modDev s fun d => { d with trigs := d.trigs ++ hits }

/-- The write-back of some bytes of a sector as its home performs it (R184, R191). -/
def homeMasked (s : State) (a : Nat) (l : List (Nat × Byte)) (kind writer : Nat) (w : Option Who) : State :=
  let s := fixFailed s a l.length w
  let s := { s with mem := writeMasked s.mem a l }
  triggersMasked (l2Use s a 32 true) a l kind writer

/-- The writer's kind of an agent (R224). -/
def writerKind (a : Agent) : Nat := if isFw a then 5 else 0
/-- The writer's number of an agent: 0 for sources that are no tile core (R224). -/
def writerNo : Agent → Nat
  | .tile n => n
  | .fw _ => 0

/-- What an atomic leaves at its location (R199), at a width of `w` bytes. -/
def amoNew (k : AmoK) (w old v e : Nat) : Nat :=
  let m := 2 ^ (8 * w)
  let sg (x : Nat) : Int := if x < m / 2 then x else (x : Int) - m
  match k with
  | .add => (old + v) % m
  | .and => old &&& v
  | .or => old ||| v
  | .xor => old ^^^ v
  | .min => if sg old ≤ sg v then old else v
  | .max => if sg old ≤ sg v then v else old
  | .minu => Nat.min old v
  | .maxu => Nat.max old v
  | .swap => v
  | .cas => if old = e then v else old

/-- An atomic performed at its home: the old value, and the state after. -/
def homeAmo (s : State) (a : Nat) (k : AmoK) (w v e kind writer : Nat) (who : Option Who) (alloc : Bool := true) :
    Nat × State :=
  let old := readN s.mem a w
  (old, homeWrite s a (bytesOf (amoNew k w old v e) w) kind writer who alloc)

/-! ### The posted-store journal (R216, R236) -/

/-- The lowest free entry of the journal. -/
def freeEntry (j : List JEntry) : Option Nat := (List.range 64).find? fun i => !j.any (·.idx == i)

/-- A request that the journal keeps until its acknowledgement. A full journal holds the bundle. -/
def post (s : State) (dst : Node) (va : Word) (b : Nat → Body) : Do State :=
  match freeEntry (curCore s).journal with
  | none => .error (.hold s)
  | some j =>
    let p := mkPkt s (nodeOf s.cur.agent) dst 0 (b j)
    let s := if dst = .host then modCur s fun c => { c with hostWrites := true } else s
    let t := modCurCore s fun c => { c with journal := c.journal ++ [⟨j, curWho s 0, dst, va, p, 0, none⟩] }
    .ok (sendPkt t (nodeOf s.cur.agent) dst 0 (b j))

/-- An access of the issuing context, through a page of a policy. -/
def mkAccess (s : State) (id : Nat) (op : AOp) (addr va : Nat) (jn : Option Nat) (pol : Nat := 1) : Access :=
  ⟨id, s.cur.agent, s.cur, (curCtx s).gen, (curCtx s).depth, op, addr, va, (curCtx s).launch, jn, writerKind s.cur.agent,
    (opCtx s).slate, pol⟩

/-- The page policy of a target; L2's where there is no page. -/
def Target.policy : Target → Nat
  | .phys _ pol _ => pol
  | _ => 1

/-- A posted store, or a posted full/empty operation. -/
def postAccess (s : State) (t : Target) (va : Word) (op : AOp) : Do State :=
  post s (t.node s s.cur.agent) va fun j =>
    .access (mkAccess s 0 op (t.addr s.cur.agent) va.toNat (some j) t.policy)

/-! ### The L1 (R131, R183 to R185) -/

/-- The cache banks into which the core allocates: those that hold the role and keep it (R139). -/
def cacheBanks (co : Core) : List Nat :=
  (List.range 64).filter fun b => bankRole co b == 3 && !bankMoves co b

/-- Whether an agent has an L1 that allocates lines (R185). -/
def hasL1 (s : State) (a : Agent) : Bool := !isFw a && !(cacheBanks (getCore s a)).isEmpty

/-- An invalid sector. -/
def Sector.blank : Sector := ⟨false, false, 0, 0⟩

/-- The line of a physical address. -/
def lineOf (pa : Nat) : Nat := pa / 256
/-- The sector of a physical address within its line. -/
def sectorOf (pa : Nat) : Fin 8 := Fin.ofNat 8 (pa / 32)

/-- The bytes of a sector that its mask names, with their offsets. -/
def Sector.masked (x : Sector) : List (Nat × Byte) :=
  (List.range 32).filterMap fun i => if x.mask.getLsbD i then some (i, x.data.extractLsb' (8 * i) 8) else none

/-- Bytes of a sector laid over another's where a mask has them. -/
def overlay (m : BitVec 32) (new old : BitVec 256) : BitVec 256 :=
  let w : Nat := (List.range 32).foldl (fun w i => if m.getLsbD i then w + 255 * 256 ^ i else w) 0
  (old &&& ~~~ BitVec.ofNat 256 w) ||| (new &&& BitVec.ofNat 256 w)

/-- Fetches of a sector on their way keep the bytes of stores that leave for the home (R206). -/
def keepBytes (fs : List Fill) (pa : Nat) (x : Sector) : List Fill :=
  fs.map fun f => if f.pa / 32 = pa / 32 then { f with mask := f.mask ||| x.mask, data := overlay x.mask x.data f.data } else f

/-- The context that a write-back of a core names: the one that issues, or the core's first (R191). -/
def wbOwner (s : State) (a : Agent) : CtxKey := if s.cur.agent = a then s.cur else ⟨a, 0⟩

/-- The write-back of a sector: its masked bytes leave for the home, and the mask and the dirty bit clear
(R184). -/
def writeBackSector (s : State) (a : Agent) (l : Line) (i : Fin 8) : State :=
  let x := l.sectors[i]
  if !x.dirty then s
  else
    let pa := l.line * 256 + 32 * i.val
    let (id, s) := newId s
    let home := homeNode s pa
    let acc : Access := ⟨id, a, wbOwner s a, (getCtx s (wbOwner s a)).gen, 0, .wb x.masked, pa, pa, none, none,
      writerKind a, 0, 0⟩
    let s := modCore s a fun c => { c with
      writeBacks := c.writeBacks ++ [⟨id, home, pa⟩]
      fills := keepBytes c.fills pa x
      l1 := c.l1.map fun y => if y.line = l.line then
        { y with sectors := y.sectors.set i { x with dirty := false, mask := 0 } } else y }
    sendPkt s (nodeOf a) home 0 (.access acc)

/-- The write-back of every dirty sector of a line. -/
def writeBackLine (s : State) (a : Agent) (l : Line) : State :=
  (List.finRange 8).foldl (fun s i => writeBackSector s a l i) s

/-- The line with a number, if the L1 holds it. -/
def findLine (co : Core) (ln : Nat) : Option Line := co.l1.find? (·.line == ln)

/-- Whether the L1 of an agent serves an access to a physical address of a CL1 page: it can allocate a line, or it
still holds the line in a way that leaves (R139, R140). -/
def servesL1 (s : State) (a : Agent) (pa : Nat) : Bool :=
  hasL1 s a || (!isFw a && (findLine (getCore s a) (lineOf pa)).isSome)

/-- A line dropped from the L1; fetches on their way for it no longer fill it. -/
def dropLine (s : State) (a : Agent) (ln : Nat) : State :=
  modCore s a fun c => { c with
    l1 := c.l1.filter (·.line != ln)
    fills := c.fills.map fun f => if f.pa / 256 = ln then { f with live := false } else f }

/-- Writing a line back and invalidating it. -/
def flushLine (s : State) (a : Agent) (ln : Nat) : State :=
  match findLine (getCore s a) ln with
  | none => s
  | some l => dropLine (writeBackLine s a l) a ln

/-- A line at the front of the L1's order of use. -/
def touchLine (s : State) (a : Agent) (l : Line) : State :=
  modCore s a fun c => { c with l1 := l :: c.l1.filter (·.line != l.line) }

/-- A line for an address, allocated when the L1 does not hold it: in the lowest-numbered invalid way of the
set, or in the least recently used way, whose dirty sectors are written back (R184). -/
def allocLine (s : State) (a : Agent) (ln : Nat) : State × Line :=
  let co := getCore s a
  match findLine co ln with
  | some l => (touchLine s a l, l)
  | none =>
    let set := co.l1.filter fun l => l.line % 64 == ln % 64
    let fresh (s : State) (way : Nat) : State × Line :=
      let l : Line := ⟨way, ln, Vector.replicate 8 Sector.blank⟩
      (touchLine s a l, l)
    match (cacheBanks co).find? fun b => !set.any (·.way == b) with
    | some way => fresh s way
    | none =>
      match (set.filter fun l => (cacheBanks co).contains l.way).getLast? with
      | none => fresh s 0
      | some v => fresh (flushLine s a v.line) v.way

/-- A sector with bytes stored into it: their mask bits and the dirty bit are set (R184). -/
def Sector.store (x : Sector) (off : Nat) (bs : List Byte) : Sector :=
  let n := bs.length
  let m : Nat := (2 ^ n - 1) <<< off
  let keep : BitVec 256 := ~~~ BitVec.ofNat 256 ((2 ^ (8 * n) - 1) <<< (8 * off))
  { x with
    dirty := true
    mask := x.mask ||| BitVec.ofNat 32 m
    data := (x.data &&& keep) ||| BitVec.ofNat 256 (natOf bs <<< (8 * off)) }

/-- A store of at most 32 bytes, within a sector, through a CL1 page (R184). -/
def l1Store (s : State) (a : Agent) (pa : Nat) (bs : List Byte) : State :=
  let (s, l) := allocLine s a (lineOf pa)
  let i := sectorOf pa
  touchLine s a { l with sectors := l.sectors.set i ((l.sectors[i]).store (pa % 32) bs) }

/-- The bytes of a valid sector that a load hits (R184). -/
def l1Read (co : Core) (pa n : Nat) : Option Nat :=
  match findLine co (lineOf pa) with
  | none => none
  | some l =>
    let x := l.sectors[sectorOf pa]
    if x.valid then some (x.data.toNat >>> (8 * (pa % 32)) % 2 ^ (8 * n)) else none

/-- A fetched sector: the bytes that the mask marks are kept, and the sector becomes valid (R184). -/
def Sector.fill (x : Sector) (v : Nat) : Sector :=
  { x with
    valid := true
    data := (List.range 32).foldl (fun d i =>
      if x.mask.getLsbD i then d
      else (d &&& ~~~ BitVec.ofNat 256 (255 <<< (8 * i))) ||| BitVec.ofNat 256 ((v / 256 ^ i % 256) <<< (8 * i)))
      x.data }

/-- A sector that a fetch has brought. -/
def l1Fill (s : State) (a : Agent) (pa v : Nat) : State :=
  let (s, l) := allocLine s a (lineOf pa)
  let i := sectorOf pa
  touchLine s a { l with sectors := l.sectors.set i ((l.sectors[i]).fill v) }

/-! ### Registers that a load writes (R104, R110, R194) -/

/-- A value extended as a size code gives (Table 2.4). -/
def extend (code v : Nat) : Word :=
  match code with
  | 0 => signExt 8 (w64 v)
  | 1 => signExt 16 (w64 v)
  | 2 => signExt 32 (w64 v)
  | 4 => zeroExt 8 (w64 v)
  | 5 => zeroExt 16 (w64 v)
  | 6 => zeroExt 32 (w64 v)
  | _ => w64 v

/-- The bytes of a size code (Table 2.4). -/
def codeBytes (code : Nat) : Nat :=
  match code with
  | 0 => 1 | 4 => 1 | 1 => 2 | 5 => 2 | 2 => 4 | 6 => 4 | 7 => 16 | _ => 8

/-- A vector register with `n` bytes replaced from byte `lo`. -/
def vecBytes (v : Vec) (lo n x : Nat) : Vec :=
  (v &&& ~~~ BitVec.ofNat 512 ((2 ^ (8 * n) - 1) <<< (8 * lo))) ||| BitVec.ofNat 512 ((x % 2 ^ (8 * n)) <<< (8 * lo))

/-- What a returned value writes. -/
def Ctx.land (c : Ctx) (what : Awaited) (v : Nat) : Ctx :=
  match what with
  | .load d code =>
    if code = 7 then (c.wg d (w64 v)).wg (nextReg d) (w64 (v / 2 ^ 64)) else c.wg d (extend code v)
  | .lane d lo n => { c with f := c.f.set d (vecBytes c.f[d] lo n v) }
  | .amo d w =>
    if w = 16 then (if d = 0 then c else (c.wg d (w64 v)).wg (nextReg d) (w64 (v / 2 ^ 64)))
    else if w = 4 then c.wg d (signExt 32 (w64 v)) else c.wg d (w64 v)
  | .reg d => c.wg d (w64 v)
  | .vec d _ _ => { c with f := c.f.set d (BitVec.ofNat 512 v) }
  | .none => c

/-- The registers that a result names. -/
def Awaited.regs : Awaited → List RegName
  | .load d code => if code = 7 then [.g d, .g (nextReg d)] else [.g d]
  | .lane d _ _ => [.f d]
  | .amo d w => if w = 16 then [.g d, .g (nextReg d)] else [.g d]
  | .reg d => [.g d]
  | .vec d _ _ => [.f d]
  | .none => []

/-- A register of a result that counts as in flight; g0 never does. -/
def flying (l : List RegName) : List RegName := l.filter (· ≠ .g 0)

/-- Registers of the issuing context whose results stay in flight until their latency has run out (R110). -/
def inFlight (s : State) (l : List RegName) : State := modCur s fun c => { c with busy := c.busy ++ flying l }

/-- A result that is known at issue and lands after its latency. -/
def landNow (s : State) (what : Awaited) (v : Nat) : State :=
  inFlight (modCur s (·.land what v)) what.regs

/-- A general-register result with a latency above 1. -/
def wgSlow (s : State) (r : GReg) (v : Word) : State := inFlight (wg s r v) [.g r]

/-! ### Loads, stores and atomics as they issue (R193 to R199) -/

/-- A mask with the bit of a general register; g0 has none. -/
def addRegBit (m : Nat) : RegName → Nat
  | .g r => if r = 0 then m else m ||| 2 ^ r.val
  | _ => m

/-- A context that awaits a result: the bundle's commit sets P of the general registers that it writes (Table 5.1),
and their values land when the result comes. -/
def Ctx.await (c : Ctx) (x : Await) : Ctx :=
  { c with awaits := c.awaits ++ [x], p := c.p ||| BitVec.ofNat 32 (x.what.regs.foldl addRegBit 0) }

/-- A request whose reply a context awaits: it takes a slot of the load-return buffer, and a bundle that finds
the buffer full is held (R234). -/
def request (s : State) (dst : Node) (what : Awaited) (acc : Nat → Access) : Do State :=
  if 32 ≤ (curCore s).loads.length then .error (.hold s)
  else
    let (id, s) := newId s
    let s := modCurCore s fun c => { c with loads := c.loads ++ [id] }
    let s := modCur s (·.await ⟨id, what⟩)
    .ok (sendPkt s (nodeOf s.cur.agent) dst 0 (.access (acc id)))

/-- The fetch of a sector into the L1, whose line has been allocated (R184). -/
def fetchSector (s : State) (pa : Nat) (ea : Word) (what : Awaited) : Do State := do
  let s' ← request s (homeNode s pa) what fun id => mkAccess s id .fill pa ea.toNat none 0
  let x := match findLine (curCore s) (lineOf pa) with
    | some l => l.sectors[sectorOf pa]
    | none => Sector.blank
  .ok (modCurCore s' fun c => { c with fills := c.fills ++ [⟨s'.ids, pa, true, 0, 0, x.mask, x.data⟩] })

/-- A load of `n` bytes of a resolved target, whose value `what` receives. A CL1 page with an L1 serves a hit
from the L1 and fetches the sector on a miss (R182, R184). -/
def loadFrom (s : State) (t : Target) (ea : Word) (n : Nat) (what : Awaited) : Do State :=
  match t with
  | .own off => do
    ownCheck s ea off n false
    loadCheck s (localAddr (agentNo s.cur.agent) off) n
    .ok (landNow s what (readN s.mem (localAddr (agentNo s.cur.agent) off) n))
  | .pool c off => do
    sentLoadCheck s (.core c) (localAddr c off) n
    request s (.core c) what fun id => mkAccess s id (.ld n) (localAddr c off) ea.toNat none
  | .phys pa pol _ =>
    if pol = 0 ∧ servesL1 s s.cur.agent pa then
      match l1Read (curCore s) pa n with
      | some v => .ok (landNow (allocLine s s.cur.agent (lineOf pa)).1 what v)
      | none => do
        sentLoadCheck s (homeNode s pa) (pa / 32 * 32) 32
        fetchSector (allocLine s s.cur.agent (lineOf pa)).1 pa ea what
    else do
      sentLoadCheck s (homeNode s pa) pa n
      request s (homeNode s pa) what fun id => mkAccess s id (.ld n) pa ea.toNat none pol

/-- A load: alignment, address form, translation and permission, and then the role (R193). -/
def load (s : State) (ea : Word) (n : Nat) (what : Awaited) : Do State :=
  if ea.toNat % n ≠ 0 then trap 0x05 ea
  else do
    let (s, t) ← resolveCur s ea 0 .rd
    loadFrom s t ea n what

/-- A store of bytes to a resolved target. -/
def storeTo (s : State) (t : Target) (ea : Word) (bs : List Byte) : Do State :=
  match t with
  | .own off => do
    ownCheck s ea off bs.length true
    .ok (homeWrite s (localAddr (agentNo s.cur.agent) off) bs 0 (writerNo s.cur.agent) (some (curWho s 0)))
  | .pool _ _ => postAccess s t ea (.st bs)
  | .phys pa pol _ =>
    if pol = 0 ∧ servesL1 s s.cur.agent pa then .ok (l1Store s s.cur.agent pa bs)
    else postAccess s t ea (.st bs)

/-- A store of bytes. -/
def store (s : State) (ea : Word) (bs : List Byte) : Do State :=
  if ea.toNat % bs.length ≠ 0 then trap 0x05 ea
  else do
    let (s, t) ← resolveCur s ea 1 .wr
    storeTo s t ea bs

/-- Whether Table 8.5 admits an atomic on a page: every one outside DEV; in the host window AMOADD, AMOSWAP and
AMOCAS at W and D width; none for the guest. -/
def amoAdmitted (pa pol : Nat) (k : AmoK) (w : Nat) : Bool :=
  if pol = 3 then regionOf pa == some 1 && (k == .add || k == .swap || k == .cas) && decide (w ≤ 8) else true

/-- The scope of an atomic's home (R199): PAIR for the partner's window, HOST, SYSTEM for the guest, and
PACKAGE otherwise. -/
def amoScope (t : Target) : Scope :=
  match t with
  | .phys pa _ _ =>
    match regionOf pa with
    | some 1 => .host
    | some 2 => .system
    | some 3 => .pair
    | _ => .package
  | _ => .package

/-- The sector of an address written back and invalidated in the issuing core's L1 (Table 8.5). -/
def purgeSector (s : State) (pa : Nat) : State :=
  match findLine (curCore s) (lineOf pa) with
  | none => s
  | some l =>
    let s := writeBackSector s s.cur.agent l (sectorOf pa)
    modCurCore s fun c => { c with
      fills := c.fills.map fun f => if f.pa / 32 = pa / 32 then { f with live := false } else f
      l1 := c.l1.map fun y => if y.line = l.line then
        { y with sectors := y.sectors.set (sectorOf pa) Sector.blank } else y }

/-- An atomic of `w` bytes on a resolved target. -/
def amoAt (s : State) (t : Target) (ea : Word) (k : AmoK) (w v e : Nat) (d : GReg) : Do State :=
  match t with
  | .own off => do
    ownCheck s ea off w false
    let a := localAddr (agentNo s.cur.agent) off
    loadCheck s a w
    let r := homeAmo s a k w v e 0 (writerNo s.cur.agent) (some (curWho s 0))
    .ok (landNow r.2 (.amo d w) r.1)
  | .pool c off => do
    sentLoadCheck s (.core c) (localAddr c off) w
    request s (.core c) (.amo d w) fun id => mkAccess s id (.amo k w v e) (localAddr c off) ea.toNat none
  | .phys pa pol lvl =>
    if !amoAdmitted pa pol k w then trap 0x07 (fv ea.toNat 3 lvl false)
    else do
      sentLoadCheck s (homeNode s pa) pa w
      let s := if pol = 0 then purgeSector s pa else s
      request s (homeNode s pa) (.amo d w) fun id => mkAccess s id (.amo k w v e) pa ea.toNat none pol

end Sys2Proof.Machine
end

