-- ==== Sys2Proof/Machine/Order.lean ====
section
/-! DEFINITION. Scopes, releases and acquires (R207 to R210). -/

namespace Sys2Proof.Machine

/-- The launch with an index. -/
def findLaunch (s : State) (la : Nat) : Option Launch := s.dev.launches.find? (·.la == la)
/-- The launch of a context. -/
def launchOf (s : State) (c : Ctx) : Option Launch := c.launch.bind (findLaunch s)
/-- The cores of a role in ascending logical number (R118). -/
def roleCores (l : Launch) (role : Nat) : List Nat :=
  sortBy id (l.cores.filter fun n => n % 4 == role)
/-- Whether a core may be named by an activation: it lies in the launch's core set and its role is not 3 (R10,
R237). -/
def inLaunch (s : State) (c : Ctx) (n : Nat) : Bool :=
  n % 4 != 3 && match launchOf s c with
    | some l => l.cores.contains n
    | none => false

/-- The members of every group to which a core belongs in a context's launch (Table 9.2). -/
def groupMates (s : State) (c : Ctx) (n : Nat) : List Nat :=
  match launchOf s c with
  | none => []
  | some l => (l.groups.filter fun g => g.members.contains n).flatMap (·.members)

/-- The die of an agent; a firmware core's is that of its router tile (R207). -/
def dieOfAgent (a : Agent) : Nat := dieOfNode (nodeOf a)

/-- Whether a home lies within a scope of the issuing context (Table 9.2). -/
def inScope (s : State) (sc : Scope) (h : Node) : Bool :=
  let a := s.cur.agent
  let sc := if isFw a ∧ sc = .group then .package else sc
  let local_ (p : Nat → Bool) : Bool := match h with
    | .core n => p n
    | _ => false
  let slice : Bool := match h with
    | .slice _ => true
    | _ => false
  let own := !isFw a && local_ (· == agentNo a)
  let die := local_ (fun n => dieOf n == dieOfAgent a) || (slice && dieOfNode h == dieOfAgent a)
  let package := local_ (fun _ => true) || slice || h == .image
  match sc with
  | .act => own
  | .core => own
  | .tile => !isFw a && local_ (fun n => n / 4 == agentNo a / 4)
  | .cluster => !isFw a && local_ (fun n => clusterOf n == clusterOf (agentNo a))
  | .group => own || slice || local_ ((groupMates s (curCtx s) (agentNo a)).contains ·)
  | .die => die
  | .package => package
  | .pair => package || h == .partner
  | .host => package || h == .partner || h == .host
  | .system => package || h == .partner || h == .host || h == .guest

/-- Whether an outstanding request is a load, an atomic or a full/empty operation. -/
def Awaited.isAccess : Awaited → Bool
  | .load _ _ => true
  | .lane _ _ _ => true
  | .amo _ _ => true
  | .none => true
  | _ => false

/-- Whether a context has a load, an atomic or a full/empty operation that has not returned (R208). -/
def accessesOut (c : Ctx) : Bool := c.awaits.any fun a => a.what.isAccess

/-- Whether a reply sink of the core is bound to the context: a GETR that has not returned. -/
def sinksOut (s : State) (k : CtxKey) : Bool :=
  (getCore s k.agent).sinks.toList.any fun x => match x.bound with
    | some (w, _) => w.ctx == k && w.gen == (getCtx s k).gen
    | none => false

/-- Lines of an L1 whose home meets a test. -/
def linesWhere (s : State) (a : Agent) (p : Node → Bool) : List Line :=
  (getCore s a).l1.filter fun l => p (homeNode s (l.line * 256))

/-- The zero-length read that the host bridge issues after a context's writes to host memory, in a release whose scope holds
the host (R375). It waits for a slot of the load-return buffer. -/
def startHostRead (s : State) (sc : Scope) : State :=
  if (curCtx s).hostWrites && inScope s sc .host then
    let at_ := 0x400000000000
    match request (modCur s fun c => { c with hostWrites := false }) .host .none fun id => mkAccess s id (.ld 0) at_ at_ none with
    | .ok t => t
    | .error _ => s
  else s

/-- The write-backs that a release starts (R208): every dirty sector at CORE, and those homed within any other
scope. -/
def startWriteBacks (s : State) (sc : Scope) : State :=
  let a := s.cur.agent
  (linesWhere s a fun h => sc == .core || inScope s sc h).foldl (fun s l => writeBackLine s a l) s

/-- Whether a release may issue (R208, R216): nothing earlier is outstanding within the scope, and no refused or
timed-out store to a home within it waits to be reported. -/
def released (s : State) (sc : Scope) : Bool :=
  let c := curCtx s
  let co := curCore s
  !accessesOut c && !sinksOut s s.cur && !(c.hostWrites && inScope s sc .host)
    && !(co.journal.any fun e => e.who.ctx == s.cur && e.who.gen == c.gen && inScope s sc e.home)
    && !(co.writeBacks.any fun w => inScope s sc w.home)
    && !(c.causes.any fun e => (e.code == 0x29#6 || e.code == 0x2A#6) && e.homes.any (inScope s sc))

/-- A release (R208): the bundle is held until it may issue, and the read that follows the context's writes to host memory is
on its way (R375). -/
def release (s : State) (sc : Scope) : Do State :=
  let s := startWriteBacks s sc
  if released s sc then .ok s else .error (.hold (startHostRead s sc))

/-- The invalidation of an acquire (R209): each line homed within the scope is written back and dropped. -/
def acquireNow (s : State) (sc : Scope) : State :=
  let a := s.cur.agent
  (linesWhere s a fun h => inScope s sc h).foldl (fun s l => flushLine s a l.line) s

/-- The acquire at PACKAGE scope with which a context's core begins a child (R102), or sees what a Completion has released
(R372). -/
def acquireFor (s : State) (k : CtxKey) : State :=
  { acquireNow { s with cur := k, latch := none } .package with cur := s.cur, latch := s.latch }

/-- An acquire (R209): it issues when every earlier access of the context has returned. -/
def acquire (s : State) (sc : Scope) : Do State :=
  if accessesOut (curCtx s) || sinksOut s s.cur then .error (.hold s) else .ok (acquireNow s sc)

/-- The smallest scope of Table 9.2 that holds every home of a list, and the core, for the issuing context. -/
def smallestScope (s : State) (homes : List Node) : Scope :=
  ([Scope.core, .tile, .cluster, .group, .die, .package, .pair, .host].find? fun sc => homes.all (inScope s sc)).getD .system

/-- The acquire with which a context wakes to the completion of an engine's writes (R214): at the smallest scope that
holds every destination home and its core. -/
def engineAcquire (s : State) (k : CtxKey) (homes : List Node) : State :=
  let t : State := { s with cur := k, latch := none }
  { acquireNow t (smallestScope t homes) with cur := s.cur, latch := s.latch }

/-- A release and then an acquire at a scope (R210, R218). -/
def fenceAr (s : State) (sc : Scope) : Do State := do
  let s ← release s sc
  acquire s sc

end Sys2Proof.Machine
end

