-- ==== Sys2Proof/Machine/Issue.lean ====
section
/-! DEFINITION. How a bundle issues: the checks and holds that come before an instruction's own effect, and the
commit, the wait, the hold or the trap that comes after it (R29 to R33, R40, R104, R110, R153, R161, R312,
R345, R350). -/

namespace Sys2Proof.Machine

/-- What an instruction leaves: the state, and where its context goes when it does not go to the next bundle.
`ended` says that the activation has ended in it. -/
structure Done where
  s : State
  npc : Option Nat := none
  ended : Bool := false
  deriving DecidableEq, Repr

/-- The own effect of an instruction. -/
abbrev Effect := State → Do Done

/-- An instruction that only changes the state. -/
def ok (s : State) : Do Done := .ok { s := s }

/-! ### Streams and ports as operands (R150 to R153, R312) -/

/-- The stream bound to a vector register. -/
def streamOf (c : Ctx) (r : FReg) : Option Stream := (c.streams.find? fun x => x.1.val == r.val).map (·.2)
/-- Replacing the stream bound to a register. -/
def Ctx.setStream (c : Ctx) (r : FReg) (st : Stream) : Ctx :=
  { c with streams := c.streams.map fun x => if x.1.val = r.val then (x.1, st) else x }
/-- The port that a vector register is, when the context owns it. -/
def portOf (c : Ctx) (r : FReg) : Option (Fin 4) :=
  if 28 ≤ r.val ∧ c.ports.contains (r.val - 28) then some (Fin.ofNat 4 (r.val - 28)) else none

/-- Bytes of an element (Table 7.2). -/
def sizeBytes : StreamSize → Nat
  | .w32 => 4
  | .h16 => 2
  | .b8 => 1

/-- The indices of element `n` in the dimensions whose extents are listed (R150). -/
def elemIndices : List Nat → Nat → List Nat
  | [], _ => []
  | e :: l, n => n % e :: elemIndices l (n / e)

/-- The address of element `n` (R150). -/
def Stream.addr (st : Stream) (n : Nat) : Word :=
  st.base + i64 ((List.zipWith (fun (i : Nat) (x : Int) => (i : Int) * x) (elemIndices st.counts n)
    st.strides).foldl (· + ·) 0)

/-- Elements of a full vector. -/
def Stream.per (st : Stream) : Nat := 64 / sizeBytes st.size
/-- Elements popped or pushed. -/
def Stream.used (st : Stream) : Nat := Nat.min st.total (st.done * st.per)
/-- REMAIN (Table 7.3). -/
def Stream.remain (st : Stream) : Nat := st.total - st.used

/-- A vector operand: a read-bound register gives the vector that the bundle pops, an owned port the head of its
input buffer (R153, R312). -/
def rf (s : State) (r : FReg) : Vec :=
  let c := opCtx s
  match streamOf c r with
  | some st => if st.write then c.f[r] else st.buf.headD 0
  | none =>
    match portOf c r with
    | some p => ((curCore s).linkIn[p]).headD 0
    | none => c.f[r]

/-- The numbers of the elements that the next push gives to a stream. -/
def Stream.nextElems (st : Stream) : List Nat := (List.range (Nat.min st.per st.remain)).map (st.used + ·)

/-- Where pushed elements resolve to; they have been checked (R152). -/
def pushTargets (s : State) (k : CtxKey) (st : Stream) : List (Nat × Target) :=
  st.nextElems.filterMap fun n =>
    match resolve s k.agent st.asid (levelOf k.agent (getCtx s k) == 0) (st.addr n) 1 .wr with
    | .ok (_, t) => some (n, t)
    | .error _ => none

/-- A context whose write stream takes a vector. -/
def pushVec (s : State) (k : CtxKey) (r : FReg) (st : Stream) (v : Vec) (c : Ctx) : Ctx :=
  c.setStream r { st with buf := st.buf ++ [v], done := st.done + 1, outq := st.outq ++ pushTargets s k st }

/-- The place of a register's next vector among the pushes of its context, where it is write-bound: stores follow the
order of the pushing bundles (R151). -/
def Ctx.pushing (c : Ctx) (r : FReg) : Ctx :=
  match streamOf c r with
  | some st => if st.write then { c with pushes := c.pushes ++ [r] } else c
  | none => c

/-- A vector given to a register of a context: a write-bound register pushes it, an owned port sends it. -/
def putVec (s : State) (k : CtxKey) (r : FReg) (v : Vec) : State :=
  let c := getCtx s k
  match streamOf c r with
  | some st =>
    if st.write then setCtx s k (pushVec s k r st v (c.pushing r))
    else setCtx s k { c with f := c.f.set r v }
  | none =>
    match portOf c r with
    | some p => modCore s k.agent fun co => { co with linkOut := co.linkOut.set p (co.linkOut[p] ++ [v]) }
    | none => setCtx s k { c with f := c.f.set r v }

/-- A vector result with a latency of 1. -/
def wf (s : State) (r : FReg) (v : Vec) : State := putVec s s.cur r v
/-- A vector result with a latency above 1. -/
def wfSlow (s : State) (r : FReg) (v : Vec) : State := inFlight (wf s r v) [.f r]
/-- A mask result with a latency above 1. -/
def wmSlow (s : State) (r : MReg) (v : BitVec 16) : State := inFlight (wm s r v) [.m r]

/-- TVAL of cause 0x0C (R153). -/
def streamTval (reason r : Nat) : Word := w64 (reason + r * 2 ^ 8)

/-- The check of the elements that a push would store (R152): translation and permission, and the role of an own
bank. -/
def pushCheck (s : State) (st : Stream) : List Nat → Do State
  | [] => .ok s
  | n :: l => do
    let ea := st.addr n
    let (s', t) ← resolve s s.cur.agent st.asid (curLevel s == 0) ea 1 .wr
    match t with
    | .own off => do
      ownCheck s' ea off (sizeBytes st.size) true
      pushCheck s' st l
    | _ => pushCheck s' st l

/-- The check of a vector register that a bundle writes (R153, R312). -/
def writeCheck (s : State) (r : FReg) : Do State :=
  let c := opCtx s
  match streamOf c r with
  | some st =>
    if !st.write then trap 0x0C (streamTval 3 r.val)
    else if st.remain = 0 then trap 0x0C (streamTval 2 r.val)
    else if 8 ≤ st.buf.length then .error (.hold s)
    else pushCheck s st st.nextElems
  | none =>
    match portOf c r with
    | some p => if 8 ≤ ((curCore s).linkOut[p]).length then .error (.hold s) else .ok s
    | none => .ok s

/-- The check of a vector register that a bundle reads (R152, R153, R312). -/
def readCheck (s : State) (r : FReg) : Do Unit :=
  let c := opCtx s
  match streamOf c r with
  | some st =>
    if st.write then trap 0x0C (streamTval 4 r.val)
    else if st.remain = 0 then trap 0x0C (streamTval 1 r.val)
    else if st.buf = [] then
      match st.fault with
      | some (code, tval) => trap code.toNat tval
      | none => .error (.hold s)
    else .ok ()
  | none =>
    match portOf c r with
    | some p => if (curCore s).linkIn[p] = [] then .error (.hold s) else .ok ()
    | none => .ok ()

/-- The checks of all vector registers that are written. -/
def writeChecks (s : State) : List FReg → Do State
  | [] => .ok s
  | r :: l => do
    let s ← writeCheck s r
    writeChecks s l

/-- The checks of all vector registers that are read. -/
def readChecks (s : State) : List FReg → Do Unit
  | [] => .ok ()
  | r :: l => do
    readCheck s r
    readChecks s l

/-- The pop of a register that a bundle has read (R153, R312). -/
def popVec (s : State) (r : FReg) : State :=
  let c := curCtx s
  match streamOf c r with
  | some st =>
    if st.write then s else setCtx s s.cur (c.setStream r { st with buf := st.buf.tail, done := st.done + 1 })
  | none =>
    match portOf c r with
    | some p => modCurCore s fun co => { co with linkIn := co.linkIn.set p (co.linkIn[p]).tail }
    | none => s

/-! ### Before the effect -/

/-- Whether a family is absent from an agent (Table 2.8). -/
def familyAbsent (a : Agent) (major : Nat) : Bool :=
  let engine := major == 0x1E || major == 0x1F || major == 0x34
  let conv := major == 0x31
  let matrix := major == 0x32 || major == 0x33
  match roleOf a with
  | 0 => conv || matrix
  | 1 => engine || matrix
  | 2 => engine || conv
  | _ => engine || conv || matrix || decide (0x19 ≤ major ∧ major ≤ 0x1D)

/-- Whether a callee of a gate may not use an instruction (R350): engines, SPAWN, FORK.R, JOIN, POOL.SET and
KILL. -/
def gateBarred (f : Form) : Bool :=
  let m := f.major
  let op := f.word / 32 % 32
  m == 0x1E || m == 0x1F || m == 0x34 || m == 0x31 || m == 0x32 || m == 0x33
    || (m == 0x1A && decide (op ≤ 2)) || (m == 0x1D && f.word % 1024 == 0) || (m == 0x00 && op == 16)

/-- The forms of SLATE and SLCHK that name a region, which a firmware core has not (R323, R324). -/
def namesRegion (f : Form) : Bool :=
  let op := f.word / 32 % 32
  let b := f.word / 2 ^ 10 % 32
  f.major == 0 && (op == 14 || (op == 13 && (b == 2 || b == 4)))

/-- Cause 0x04 (R40, R323, R324, R350). -/
def absent (f : Form) (s : State) : Bool :=
  familyAbsent s.cur.agent f.major || (isFw s.cur.agent && namesRegion f) || (decide (0 < (opCtx s).depth) && gateBarred f)

/-- Whether a level may read a system register number (R49). -/
def mayRead (level num : Nat) : Bool := level == 2 || decide (num < 0x100) || (level == 1 && decide (num < 0x200))
/-- Whether a level may write a system register number (R49, Table 2.13). -/
def mayWrite (level num : Nat) : Bool :=
  level == 2 || (level == 1 && decide (num < 0x200)) || num == 0x005 || num == 0x008

/-- Cause 0x03 of a word that its level, its core or its STATUS does not allow (R41, R49, R344, R353, Table
15.8). -/
def forbidden (f : Form) (s : State) : Bool :=
  let c := opCtx s
  let level := curLevel s
  let num := f.word / 2 ^ 10 % 2 ^ 10
  f.major == 0 && match f.word / 32 % 32 with
    | 5 => !c.inTrap && !c.inUi
    | 8 => level == 0
    | 9 => !mayRead level num
    | 10 => !mayWrite level num
    | 16 => level == 0
    | 17 => s.cur.agent != .fw 3 || level != 2
    | _ => false

/-- The first fault of a word that needs no operand (R31): cause 0x04, then cause 0x03. -/
def wordFault (f : Form) (s : State) : Option Nat :=
  if absent f s then some 0x04 else if forbidden f s then some 0x03 else none

/-- Whether the presence and arm bits of a register are frozen: g1 to g23 in a trap handler (R341). -/
def Ctx.frozen (c : Ctx) (r : GReg) : Bool := c.inTrap && decide (r.val < 24)

/-- The wait for a register whose presence bit is clear: kind 6 for one that awaits a GETR reply, else kind 1
(R104, R241). A read of a register whose bits are frozen never waits (R341). -/
def presence (s : State) : List GReg → Do Unit
  | [] => .ok ()
  | r :: l =>
    let c := opCtx s
    if r ≠ 0 ∧ !c.p.getLsbD r.val ∧ !c.frozen r then
      match (curCore s).sinks.toList.find? fun x => match x.bound with
        | some (w, r') => w.ctx == s.cur && w.gen == c.gen && r' == r
        | none => false with
      | some x => .error (.wait s 6 r.val x.server)
      | none => .error (.wait s 1 r.val 0x7FF)
    else presence s l

/-- The registers that an instruction names. -/
def Form.regs (f : Form) : List RegName :=
  (f.gr ++ f.gw).map .g ++ (f.fr ++ f.fw).map .f ++ (f.mr ++ f.mw).map .m

/-- The hold of R110, or the wait of R263, for registers with a write in flight. A vector register that SCFG,
SCLOSE, SSTAT or LINK.CFG names counts: a load into it pushes when it returns (R153, R312). -/
def flightCheck (f : Form) (s : State) : Do Unit :=
  let c := opCtx s
  let l := flying f.regs ++ f.sb.map .f
  match c.awaits.findSome? fun a => match a.what with
    | .vec d g root => if l.contains (.f d) then some (g, root) else none
    | _ => none with
  | some (g, root) => .error (.wait s 10 g root)
  | none =>
    if c.busy.any l.contains || c.awaits.any fun a => a.what.regs.any l.contains then .error (.hold s) else .ok ()

/-- Whether an instruction reads or writes FPCTL (R161): TRET restores the banked FPCTL (R344). -/
def usesFpctl (f : Form) : Bool :=
  let op := f.word / 32 % 32
  (f.major == 0 && (op == 9 || op == 10) && f.word / 2 ^ 10 % 2 ^ 10 == 8) || (f.major == 0 && op == 5)
    || (f.major == 0x20 && decide (1 ≤ f.word % 1024 ∧ f.word % 1024 ≤ 2))

/-- The hold of a SYSR or SYSW of FPCTL until the earlier ACC.RD and conversions of the context have completed
(R290, R310). -/
def fpctlCheck (f : Form) (s : State) : Do Unit :=
  let op := f.word / 32 % 32
  let mine (o : EngOp) : Bool := o.who.ctx == s.cur && o.who.gen == (opCtx s).gen && (o.kind == 5 || decide (8 ≤ o.kind))
  if f.major == 0 && (op == 9 || op == 10) && f.word / 2 ^ 10 % 2 ^ 10 == 8
      && ((curCore s).matOps.any mine || (curCore s).convOps.any mine) then .error (.hold s)
  else .ok ()

/-- Whether a context's sequencer captures the A-slots that it issues. -/
def capturing (c : Ctx) : Bool :=
  match c.seqr with
  | some q => decide (0 < q.capture)
  | none => false

/-- Whether a context's sequencer replays. -/
def replaying (c : Ctx) : Bool :=
  match c.seqr with
  | some q => decide (q.capture = 0)
  | none => false

/-- The registers that the captured instructions name. -/
def Seqr.regs (q : Seqr) : List RegName := q.body.flatMap fun x => flying (form x.1).regs

/-- The wait of R161 for the sequencer that replays: an A-slot instruction, or one that shares a register, a
stream or FPCTL with the sequence. -/
def seqrCheck (f : Form) (s : State) : Do Unit :=
  let c := opCtx s
  match replaying c, c.seqr with
  | true, some q =>
    let named : List RegName := f.sb.map .f
    let until_ := match q.until? with
      | some r => f.sb.contains (Fin.ofNat 32 r.val)
      | none => false
    if (decide (0x28 ≤ f.major) && f.major ≠ 0x3F) || (flying f.regs ++ named).any q.regs.contains
        || usesFpctl f || until_ then
      .error (.wait s 8 0 0x7FF)
    else .ok ()
  | _, _ => .ok ()

/-- Whether a bundle may overtake no push of its context: memory, messages, synchronization, copies, streams,
fences and gate calls stand behind the pushed elements of the context's write streams, which they see or follow
(R151; log entry 17). -/
def behindPushes (f : Form) : Bool :=
  let op := f.word / 32 % 32
  decide (0x13 ≤ f.major ∧ f.major ≤ 0x1B) || f.major == 0x1E || f.major == 0x27
    || (f.major == 0x1F && f.word % 1024 == 0)
    || (f.major == 0 && (op == 3 || op == 11 || op == 12 || op == 1 || op == 2))

/-- The hold of a bundle behind pushed vectors that have not issued as stores, and behind loads whose vectors will be
pushed. -/
def pushesCheck (f : Form) (s : State) : Do Unit :=
  if behindPushes f && (opCtx s).pushes != [] then .error (.hold s) else .ok ()

/-- Whether a bundle accesses memory, sends, meets another agent, or changes what later bundles fetch or reach: the
accesses that stand behind an acquire (R209). IFENCE, SYSW, KILL and INVPG stand among them (R212). -/
def pastAcquire (f : Form) : Bool :=
  let op := f.word / 32 % 32
  behindPushes f || f.major == 0x1C || f.major == 0x1D || f.major == 0x1F || decide (0x31 ≤ f.major ∧ f.major ≤ 0x34)
    || (f.major == 0 && (op == 4 || op == 10 || op == 16 || op == 17))

/-- Whether an instruction pushes to a write stream of its context. -/
def pushesStream (f : Form) (c : Ctx) : Bool := f.fw.any fun r => match streamOf c r with
  | some st => st.write
  | none => false

/-- The acquire that an earlier atomic leaves to the next bundle that stands behind it (R212): it counts the
atomic's return. -/
def acquireCheck (f : Form) (s : State) : Do State :=
  if pastAcquire f || pushesStream f (opCtx s) then
    match (opCtx s).acquire with
    | none => .ok s
    | some sc =>
      if accessesOut (opCtx s) then .error (.hold s)
      else .ok (modCur (acquireNow s sc) fun c => { c with acquire := none })
  else .ok s

/-- What comes before an instruction's own effect. The spec orders these checks nowhere among themselves: a bundle that
R110 holds and that R161 also makes wait is held first, without wait kind 8, and a register that a bundle both reads and
writes meets the reasons of a write before those of a read (log entry 129). -/
def before (f : Form) (s : State) : Do State := do
  presence s f.gr
  flightCheck f s
  seqrCheck f s
  fpctlCheck f s
  pushesCheck f s
  let s ← acquireCheck f s
  let s ← writeChecks s f.fw.dedup
  readChecks s f.fr.dedup
  .ok s

/-! ### After the effect -/

/-- The bits of a list of registers. -/
def regMask (l : List GReg) : BitVec 32 := BitVec.ofNat 32 (l.foldl (fun m r => m ||| 2 ^ r.val) 0)

/-- The armed registers that an instruction consumes: those it reads and does not write (Table 5.1). -/
def consumed (f : Form) (c : Ctx) : BitVec 32 :=
  regMask (f.gr.filter fun r => r ≠ 0 ∧ !f.gw.contains r) &&& c.p &&& c.a

/-- A budget from which `n` cycles are taken; 0xFFFFFFFF does not count (R90). -/
def spend (k n : Nat) : Nat := if n = 0xFFFFFFFF then n else n - k

/-- Cycles that pass for an activation: its budget counts down, and those of the gate frames below (R90, R350). -/
def Ctx.elapse (c : Ctx) (k : Nat) : Ctx :=
  { c with actLeft := spend k c.actLeft, frames := c.frames.map fun f => { f with actLeft := spend k f.actLeft } }

/-- The cycles that have passed since the issuing activation's budget was last counted (R90; log entry 5). -/
def elapse (s : State) : State :=
  { modCur s fun c => c.elapse (Config.cycles s.fresh) with fresh := s.fresh + 1 }

/-- Whether the cycles that have passed since an activation's budget was last counted have used it up (R90; log entry
5). -/
def runOut (s : State) (c : Ctx) : Bool := spend (Config.cycles s.fresh) c.actLeft == 0

/-- What an issued bundle takes from the budgets (R90, R92; log entry 5): its own cycle and those that have passed
before it from the activation's, and one cycle from the task's per-take budget. At 0 the task's queue is held until the next
clapper, whatever BUDGET makes of the count meanwhile (R92). -/
def charge (c0 : Ctx) (s : State) : State :=
  let s := modCur (elapse s) (·.elapse 1)
  match c0.queue with
  | none => s
  | some q =>
    if c0.spawned then s
    else modCurCore s fun co =>
      let x := co.queues[q]
      let left := spend 1 x.takeLeft
      if x.serial then { co with queues := co.queues.set q { x with takeLeft := left, budgetHold := x.budgetHold || left == 0 } }
      else co

/-- Whether a committed bundle is stepped (R345). -/
def stepped (a : Agent) (c : Ctx) : Bool :=
  c.st 10 && levelOf a c == 0 && !c.inTrap && !c.inUi && c.frames.isEmpty

/-- A bundle's commit: reads consume, popped vectors leave, and, but for the second word of a pair, the context
goes on and the budgets are charged. -/
def commit (f : Form) (c0 : Ctx) (d : Done) : State :=
  let s := d.s
  if d.ended then { (if s.latch.isSome then s else charge c0 s) with last := .committed }
  else
    let s := modCur s fun c => { c with p := c.p &&& ~~~ consumed f c0 }
    let s := f.fr.dedup.foldl popVec s
    match s.latch, d.npc with
    | some _, none => { s with last := .committed }
    | some _, some pc => { modCur s fun c => { c with pc := pc } with last := .committed }
    | none, npc =>
      let s := modCur s fun c => { c with
        pc := npc.getD ((c0.pc + 8) % 2 ^ 64)
        wait := none
        grants := c.grants.filter (·.pc != c0.pc)
        stepped := if stepped s.cur.agent c0 then some c0.pc else c.stepped }
      { charge c0 s with last := .committed }

/-- Whether a precise cause is held: a write of the context is in flight, or a callee of a gate has a reply sink
outstanding (R31, R340, R351). -/
def trapHeld (s : State) : Bool :=
  let c := opCtx s
  let sinks := (curCore s).sinks.toList.any fun x => match x.bound with
    | some (w, _) => w.ctx == s.cur && w.gen == c.gen
    | none => false
  !c.quiet || (decide (0 < c.depth) && sinks)

/-- A precise cause (R31, R340, R351): it is held until no write of the context is in flight; a callee of a gate
unwinds, and any other context takes the trap. -/
def raisePrecise (f : Form) (s : State) (code : Nat) (tval : Word) : State :=
  let c := opCtx s
  if trapHeld s then { s with last := .held }
  else if 0 < c.depth then
    match fenceAr s .core with
    | .ok s => { unwind s s.cur code tval (c.pc + f.slot) with last := .trapped }
    | .error (.hold s) => { s with last := .held }
    | .error _ => { s with last := .held }
  else { takeTrap s s.cur code tval (c.pc + f.slot) false with last := .trapped }

/-- A precise cause that leaves a state `t` behind: nothing of it remains while the cause is held. -/
def raiseAfter (f : Form) (s t : State) (code : Nat) (tval : Word) : State :=
  if trapHeld s then { s with last := .held }
  else if 0 < (opCtx s).depth then
    match fenceAr s .core with
    | .error (.hold u) => { u with last := .held }
    | _ => raisePrecise f t code tval
  else raisePrecise f t code tval

/-- A bundle that waits (R83). A wait keeps the time at which it began. The owner of an object of the waiting core
itself reads 0x7FF (R96). -/
def beginWait (s : State) (kind obj owner : Nat) : State :=
  let (id, s) := newId s
  let owner := if s.cur.agent = .tile owner then 0x7FF else owner
  { modCur s fun c => { c with wait := some ⟨kind, obj % 2 ^ 32, owner, (c.wait.map (·.since)).getD id⟩ } with last := .waiting }

/-- A bundle that does not commit. `s0` is the state at its issue. -/
def stall (f : Form) (s0 : State) : Stall → State
  | .trap code tval => raisePrecise f s0 code tval
  | .trapAfter s code tval => raiseAfter f s0 s code tval
  | .wait s kind obj owner => beginWait s kind obj owner
  | .hold s => { s with last := .held }

/-- The outcome of an instruction's parts. -/
def settle (f : Form) (s : State) (r : Do Done) : Out :=
  match r with
  | .ok d => .next (commit f (opCtx s) d)
  | .error e => .next (stall f s e)

/-- A captured A-slot joins the sequence; with the last one the replay can begin, and a count of 0 ends the
sequence at once (R159, R160). -/
def Seqr.take (q : Seqr) (i : Instr) (pc : Nat) : Option Seqr :=
  let q := { q with body := q.body ++ [(i, pc)], capture := q.capture - 1 }
  if q.capture = 0 ∧ q.until? = none ∧ q.left = 0 then none else some q

/-- The state in which the sequencer has captured an A-slot. -/
def captureA (s : State) (i : Instr) : State :=
  modCur s fun c => { c with seqr := c.seqr.bind fun q => q.take i c.pc }

/-- Whether an instruction has taken its context elsewhere: to its end, across a gate, or out of a handler. -/
def leaves (s t : State) : Bool :=
  let c := curCtx s
  let d := curCtx t
  !d.used || d.gen != c.gen || d.killed || d.depth != c.depth || d.inTrap != c.inTrap || d.inUi != c.inUi

/-- ANOP beside a C-slot instruction that a sequencer captures. One that takes its context elsewhere leaves the sequencer as
it has restored it. -/
def captureBeside (s t : State) : State := if leaves s t then t else captureA t .anop

/-- An A-slot that no sequence may hold, at a bundle that the sequencer captures: cause 0x01 with subcode 3, and the
sequencer is idle (R159). It precedes causes 0x04 and 0x03 (R31). -/
def refuseCapture (f : Form) (s : State) : State :=
  raiseAfter f s (modCur s fun c => { c with seqr := none }) 0x01 (encTval f.word 3 false)

/-- An instruction that issues alone in its bundle, with NOP or ANOP beside it. `cap` is what the sequencer
captures when it captures A-slots: the instruction itself where a sequence may hold it, and ANOP beside a C-slot
instruction. -/
def issueWith (f : Form) (cap : Option Instr) (body : Effect) (s : State) : Out :=
  let captures := capturing (opCtx s) && s.latch.isNone
  if captures && decide (0x28 ≤ f.major) && cap.isNone then .next (refuseCapture f s)
  else
  match wordFault f s with
  | some code => .next (raisePrecise f s code (encTval f.word 0 false))
  | none =>
  if captures then
    match if f.major < 0x28 then none else cap with
    | some i => .next (commit { f with gr := [], fr := [] } (opCtx s) { s := captureA s i })
    | none => settle f s (do let t ← before f s; let d ← body t; .ok { d with s := captureBeside s d.s })
  else settle f s (do let s ← before f s; body s)

/-- An instruction that no sequence may hold. -/
def issue (f : Form) (body : Effect) (s : State) : Out := issueWith f none body s

/-- A step of the device: an event ends with the state it leaves. -/
def event (s : State) : Out := .next { s with last := .event }

end Sys2Proof.Machine
end

