-- ==== Sys2Proof/Machine/Flags.lean ====
section
/-! DEFINITION. FPCTL: its rounding mode, its sticky flags and their causes, and the lanes of a vector operation
(R64 to R66, R147, R149, R163). -/

namespace Sys2Proof.Machine

/-- FPCTL.RM (Table 3.5). -/
def fpRm (c : Ctx) : RMode := rmode (c.fpctl.toNat % 8)
/-- FPCTL.FTZ. -/
def fpFtz (c : Ctx) : Bool := c.fpctl.getLsbD 3
/-- The flags whose traps FPCTL enables, NX, UF, OF, NV from bit 0: enable bits 19, 18, 17, 16 (Table 3.4). -/
def fpEnabled (c : Ctx) : Nat :=
  b2n (c.fpctl.getLsbD 19) + 2 * b2n (c.fpctl.getLsbD 18) + 4 * b2n (c.fpctl.getLsbD 17)
    + 8 * b2n (c.fpctl.getLsbD 16)

/-- FPCTL as a write leaves it: reserved bits 0, and RM kept when the write gives 4 to 7 (Table 3.5). -/
def fpWrite (old v : Word) : Word :=
  let rm := if v.toNat % 8 < 4 then v.toNat % 8 else old.toNat % 8
  (v &&& 0x1F0F08#64) ||| w64 rm

/-- Flags ORed into FPCTL[11:8] of a context. -/
def Ctx.orFlags (c : Ctx) (fl : FpFlags) : Ctx := { c with fpctl := c.fpctl ||| w64 (fl % 16 * 256) }

/-- All flags of a list of lanes. -/
def allFlags (l : List FpFlags) : FpFlags := l.foldl (· ||| ·) 0

/-- The lanes in which a flag arose, as a mask. -/
def laneMask (l : List FpFlags) (flag : Nat) : Nat :=
  (l.zipIdx.foldl (fun m x => if x.1 &&& flag ≠ 0 then m + 2 ^ x.2 else m) 0)

/-- The flags of a result, by lane: when an enabled one arose, the lowest cause with its mask of lanes; else the
sticky flags are set (R65). -/
def setFlags (s : State) (l : List FpFlags) : Do State :=
  let fl := allFlags l
  let en := fpEnabled (opCtx s) &&& fl
  if en &&& 8 ≠ 0 then trap 0x21 (w64 (laneMask l 8))
  else if en &&& 4 ≠ 0 then trap 0x22 (w64 (laneMask l 4))
  else if en &&& 2 ≠ 0 then trap 0x23 (w64 (laneMask l 2))
  else if en &&& 1 ≠ 0 then trap 0x24 (w64 (laneMask l 1))
  else .ok (modCur s (·.orFlags fl))

/-! ### Lanes (R147) -/

/-- Element `i` of width `w` of a vector register. -/
def elem (w : Nat) (v : Vec) (i : Nat) : Nat := v.toNat / 2 ^ (w * i) % 2 ^ w
/-- The elements of width `w`. -/
def elems (w : Nat) (v : Vec) : List Nat := (List.range (512 / w)).map (elem w v)
/-- A vector register from its elements of width `w`, element 0 first. -/
def packElems (w : Nat) (l : List Nat) : Vec := BitVec.ofNat 512 (l.foldr (fun x a => x % 2 ^ w + 2 ^ w * a) 0)
/-- A 32-bit lane. -/
def lane (v : Vec) (i : Nat) : BitVec 32 := BitVec.ofNat 32 (elem 32 v i)

/-- The format and the width of a lane selection of VFP (Table 2.7). -/
def lanesFmt : Lanes → Fmt × Nat
  | .f32 => (fp32, 32)
  | .bf16 => (bf16, 16)
  | .f16 => (fp16, 16)

/-- The mode of a rounding field (Table 2.7). -/
def rndMode (c : Ctx) : Rnd → RMode
  | .rne => .rne
  | .rtz => .rtz
  | .rdn => .rdn
  | .rup => .rup
  | .dyn => fpRm c

/-- An operation over the elements of one register that gives codes and flags. -/
def map1 (w : Nat) (f : Nat → Nat × FpFlags) (a : Vec) : Vec × List FpFlags :=
  let r := (elems w a).map f
  (packElems w (r.map (·.1)), r.map (·.2))
/-- An operation over the elements of two registers. -/
def map2 (w : Nat) (f : Nat → Nat → Nat × FpFlags) (a b : Vec) : Vec × List FpFlags :=
  let r := List.zipWith f (elems w a) (elems w b)
  (packElems w (r.map (·.1)), r.map (·.2))
/-- An operation over the elements of three registers. -/
def map3 (w : Nat) (f : Nat → Nat → Nat → Nat × FpFlags) (a b c : Vec) : Vec × List FpFlags :=
  let r := List.zipWith (fun (x : Nat × Nat) z => f x.1 x.2 z) (List.zip (elems w a) (elems w b)) (elems w c)
  (packElems w (r.map (·.1)), r.map (·.2))

/-- A vector result with its flags. -/
def fpVec (s : State) (d : FReg) (r : Vec × List FpFlags) : Do Done := do
  let s ← setFlags s r.2
  ok (wfSlow s d r.1)

end Sys2Proof.Machine
end

