-- ==== Sys2Proof/Machine/Alu.lean ====
section
/-! DEFINITION. The scalar pipeline: ALU-R, the immediates, LEA and GADDR, branches and jumps, and NUM
(R112 to R126). -/

namespace Sys2Proof.Machine

/-! ### Operations on words (Table 5.6) -/

/-- The signed value of a word. -/
def sInt (x : Word) : Int := x.toInt
/-- A word as a truth value. -/
def ofBool (b : Bool) : Word := if b then 1#64 else 0#64
/-- A shift amount: b[5:0]. -/
def amount (b : Word) : Nat := b.toNat % 64
/-- ROTL. -/
def rotl (a : Word) (n : Nat) : Word := a.rotateLeft n
/-- MULH: bits [127:64] of the signed product. -/
def mulh (a b : Word) : Word := i64 (sInt a * sInt b / 2 ^ 64)
/-- MULHU. -/
def mulhu (a b : Word) : Word := w64 (a.toNat * b.toNat / 2 ^ 64)
/-- DIV, rounded towards zero; −2^63 by −1 gives −2^63 (R113). -/
def sdivW (a b : Word) : Word := i64 ((sInt a).tdiv (sInt b))
/-- REM, with the sign of a. -/
def sremW (a b : Word) : Word := i64 ((sInt a).tmod (sInt b))
/-- DIVU. -/
def udivW (a b : Word) : Word := w64 (a.toNat / b.toNat)
/-- REMU. -/
def uremW (a b : Word) : Word := w64 (a.toNat % b.toNat)
/-- Count of leading zero bits; 64 for 0. -/
def clzW (a : Word) : Word := w64 (if a = 0 then 64 else 63 - Nat.log2 a.toNat)
/-- Count of trailing zero bits; 64 for 0. -/
def ctzW (a : Word) : Word := w64 (((List.range 64).find? fun i => a.getLsbD i).getD 64)
/-- Count of 1 bits. -/
def popcW (a : Word) : Word := w64 ((List.range 64).countP fun i => a.getLsbD i)
/-- The bytes in reverse order. -/
def bswapW (a : Word) : Word := w64 (natOf (bytesOf a.toNat 8).reverse)
/-- imm15 sign-extended (R114). -/
def imm15 (i : BitVec 15) : Word := i.signExtend 64
/-- imm32 or off32 sign-extended (R35). -/
def imm32 (i : BitVec 32) : Word := i.signExtend 64

/-! ### Shapes -/

/-- gd ← f(ga, gb), latency 1. -/
def alu2 (fm : Form) (d a b : GReg) (f : Word → Word → Word) (s : State) : Out :=
  issue fm (fun s => ok (wg s d (f (rg s a) (rg s b)))) s
/-- gd ← f(ga, gb), latency above 1. -/
def alu2Slow (fm : Form) (d a b : GReg) (f : Word → Word → Word) (s : State) : Out :=
  issue fm (fun s => ok (wgSlow s d (f (rg s a) (rg s b)))) s
/-- A division: a divisor of 0 raises cause 0x25 (R113). -/
def divide (fm : Form) (d a b : GReg) (f : Word → Word → Word) (s : State) : Out :=
  issue fm (fun s => if rg s b = 0 then trap 0x25 0 else ok (wgSlow s d (f (rg s a) (rg s b)))) s
/-- gd ← f(ga), latency 1. -/
def alu1 (fm : Form) (d a : GReg) (f : Word → Word) (s : State) : Out :=
  issue fm (fun s => ok (wg s d (f (rg s a)))) s

/-! ### ALU-R (R112) -/

/-- ADD (Table 5.6). -/
def execAdd (d a b : GReg) (s : State) : Out := alu2 (formDAB 1 0 d a b) d a b (fun a b => a + b) s

/-- SUB (Table 5.6). -/
def execSub (d a b : GReg) (s : State) : Out := alu2 (formDAB 1 1 d a b) d a b (fun a b => a - b) s

/-- AND (Table 5.6). -/
def execAnd (d a b : GReg) (s : State) : Out := alu2 (formDAB 1 2 d a b) d a b (fun a b => a &&& b) s

/-- OR (Table 5.6). -/
def execOr (d a b : GReg) (s : State) : Out := alu2 (formDAB 1 3 d a b) d a b (fun a b => a ||| b) s

/-- XOR (Table 5.6). -/
def execXor (d a b : GReg) (s : State) : Out := alu2 (formDAB 1 4 d a b) d a b (fun a b => a ^^^ b) s

/-- SHL (Table 5.6). -/
def execShl (d a b : GReg) (s : State) : Out := alu2 (formDAB 1 5 d a b) d a b (fun a b => a <<< amount b) s

/-- SHR (Table 5.6). -/
def execShr (d a b : GReg) (s : State) : Out := alu2 (formDAB 1 6 d a b) d a b (fun a b => a >>> amount b) s

/-- SRA (Table 5.6). -/
def execSra (d a b : GReg) (s : State) : Out := alu2 (formDAB 1 7 d a b) d a b (fun a b => a.sshiftRight (amount b)) s

/-- ROTL (Table 5.6). -/
def execRotl (d a b : GReg) (s : State) : Out := alu2 (formDAB 1 8 d a b) d a b (fun a b => rotl a (amount b)) s

/-- MUL (Table 5.6). -/
def execMul (d a b : GReg) (s : State) : Out := alu2Slow (formDAB 1 9 d a b) d a b (fun a b => a * b) s

/-- MULH (Table 5.6). -/
def execMulh (d a b : GReg) (s : State) : Out := alu2Slow (formDAB 1 10 d a b) d a b (fun a b => mulh a b) s

/-- MULHU (Table 5.6). -/
def execMulhu (d a b : GReg) (s : State) : Out := alu2Slow (formDAB 1 11 d a b) d a b (fun a b => mulhu a b) s

/-- DIV (Table 5.6). -/
def execDiv (d a b : GReg) (s : State) : Out := divide (formDAB 1 12 d a b) d a b sdivW s

/-- DIVU (Table 5.6). -/
def execDivu (d a b : GReg) (s : State) : Out := divide (formDAB 1 13 d a b) d a b udivW s

/-- REM (Table 5.6). -/
def execRem (d a b : GReg) (s : State) : Out := divide (formDAB 1 14 d a b) d a b sremW s

/-- REMU (Table 5.6). -/
def execRemu (d a b : GReg) (s : State) : Out := divide (formDAB 1 15 d a b) d a b uremW s

/-- MIN (Table 5.6). -/
def execMin (d a b : GReg) (s : State) : Out := alu2 (formDAB 1 16 d a b) d a b (fun a b => if sInt a ≤ sInt b then a else b) s

/-- MAX (Table 5.6). -/
def execMax (d a b : GReg) (s : State) : Out := alu2 (formDAB 1 17 d a b) d a b (fun a b => if sInt a ≤ sInt b then b else a) s

/-- MINU (Table 5.6). -/
def execMinu (d a b : GReg) (s : State) : Out := alu2 (formDAB 1 18 d a b) d a b (fun a b => if a.toNat ≤ b.toNat then a else b) s

/-- MAXU (Table 5.6). -/
def execMaxu (d a b : GReg) (s : State) : Out := alu2 (formDAB 1 19 d a b) d a b (fun a b => if a.toNat ≤ b.toNat then b else a) s

/-- SLT (Table 5.6). -/
def execSlt (d a b : GReg) (s : State) : Out := alu2 (formDAB 1 20 d a b) d a b (fun a b => ofBool (decide (sInt a < sInt b))) s

/-- SLTU (Table 5.6). -/
def execSltu (d a b : GReg) (s : State) : Out := alu2 (formDAB 1 21 d a b) d a b (fun a b => ofBool (decide (a.toNat < b.toNat))) s

/-- CLZ (Table 5.6). -/
def execClz (d a : GReg) (s : State) : Out := alu1 (formDA 1 22 d a) d a clzW s

/-- CTZ (Table 5.6). -/
def execCtz (d a : GReg) (s : State) : Out := alu1 (formDA 1 23 d a) d a ctzW s

/-- POPC (Table 5.6). -/
def execPopc (d a : GReg) (s : State) : Out := alu1 (formDA 1 24 d a) d a popcW s

/-- BSWAP (Table 5.6). -/
def execBswap (d a : GReg) (s : State) : Out := alu1 (formDA 1 25 d a) d a bswapW s

/-- SEXTB (Table 5.6). -/
def execSextb (d a : GReg) (s : State) : Out := alu1 (formDA 1 26 d a) d a (signExt 8) s

/-- SEXTH (Table 5.6). -/
def execSexth (d a : GReg) (s : State) : Out := alu1 (formDA 1 27 d a) d a (signExt 16) s

/-- SEXTW (Table 5.6). -/
def execSextw (d a : GReg) (s : State) : Out := alu1 (formDA 1 28 d a) d a (signExt 32) s

/-- ZEXTB (Table 5.6). -/
def execZextb (d a : GReg) (s : State) : Out := alu1 (formDA 1 29 d a) d a (zeroExt 8) s

/-- ZEXTH (Table 5.6). -/
def execZexth (d a : GReg) (s : State) : Out := alu1 (formDA 1 30 d a) d a (zeroExt 16) s

/-- ZEXTW (Table 5.6). -/
def execZextw (d a : GReg) (s : State) : Out := alu1 (formDA 1 31 d a) d a (zeroExt 32) s

/-- SEL: gd ≠ 0 ? a : b, gd read at issue. -/
def execSel (d a b : GReg) (s : State) : Out :=
  issue { formDAB 1 32 d a b with gr := [a, b, d] } (fun s => ok (wg s d (if rg s d ≠ 0 then rg s a else rg s b))) s

/-! ### Immediates (R114 to R116) -/

/-- ADDI (R114). -/
def execAddi (d a : GReg) (i : BitVec 15) (s : State) : Out :=
  alu1 (formI 2 d a i.toNat) d a (fun a => a + imm15 i) s

/-- ADDI with an extension (R35, R114). -/
def execAddiLong (d a : GReg) (i : BitVec 32) (s : State) : Out :=
  alu1 (formIX 2 d a) d a (fun a => a + imm32 i) s

/-- ANDI (R114). -/
def execAndi (d a : GReg) (i : BitVec 15) (s : State) : Out :=
  alu1 (formI 3 d a i.toNat) d a (fun a => a &&& imm15 i) s

/-- ANDI with an extension (R35, R114). -/
def execAndiLong (d a : GReg) (i : BitVec 32) (s : State) : Out :=
  alu1 (formIX 3 d a) d a (fun a => a &&& imm32 i) s

/-- ORI (R114). -/
def execOri (d a : GReg) (i : BitVec 15) (s : State) : Out :=
  alu1 (formI 4 d a i.toNat) d a (fun a => a ||| imm15 i) s

/-- ORI with an extension (R35, R114). -/
def execOriLong (d a : GReg) (i : BitVec 32) (s : State) : Out :=
  alu1 (formIX 4 d a) d a (fun a => a ||| imm32 i) s

/-- XORI (R114). -/
def execXori (d a : GReg) (i : BitVec 15) (s : State) : Out :=
  alu1 (formI 5 d a i.toNat) d a (fun a => a ^^^ imm15 i) s

/-- XORI with an extension (R35, R114). -/
def execXoriLong (d a : GReg) (i : BitVec 32) (s : State) : Out :=
  alu1 (formIX 5 d a) d a (fun a => a ^^^ imm32 i) s

/-- SLTI (R114). -/
def execSlti (d a : GReg) (i : BitVec 15) (s : State) : Out :=
  alu1 (formI 7 d a i.toNat) d a (fun a => ofBool (decide (sInt a < sInt (imm15 i)))) s

/-- SLTI with an extension (R35, R114). -/
def execSltiLong (d a : GReg) (i : BitVec 32) (s : State) : Out :=
  alu1 (formIX 7 d a) d a (fun a => ofBool (decide (sInt a < sInt (imm32 i)))) s

/-- SLTIU (R114). -/
def execSltiu (d a : GReg) (i : BitVec 15) (s : State) : Out :=
  alu1 (formI 8 d a i.toNat) d a (fun a => ofBool (decide (a.toNat < (imm15 i).toNat))) s

/-- SLTIU with an extension (R35, R114). -/
def execSltiuLong (d a : GReg) (i : BitVec 32) (s : State) : Out :=
  alu1 (formIX 8 d a) d a (fun a => ofBool (decide (a.toNat < (imm32 i).toNat))) s

/-- SHLI (R115). -/
def execShli (d a : GReg) (n : BitVec 6) (s : State) : Out :=
  alu1 (formI 6 d a n.toNat) d a (fun a => a <<< n.toNat) s

/-- SHLI with an extension (R115). -/
def execShliLong (d a : GReg) (n : BitVec 6) (s : State) : Out :=
  alu1 (formIX 6 d a) d a (fun a => a <<< n.toNat) s

/-- SHRI (R115). -/
def execShri (d a : GReg) (n : BitVec 6) (s : State) : Out :=
  alu1 (formI 6 d a (1 * 2 ^ 12 + n.toNat)) d a (fun a => a >>> n.toNat) s

/-- SHRI with an extension (R115). -/
def execShriLong (d a : GReg) (n : BitVec 6) (s : State) : Out :=
  alu1 (formIX 6 d a) d a (fun a => a >>> n.toNat) s

/-- SRAI (R115). -/
def execSrai (d a : GReg) (n : BitVec 6) (s : State) : Out :=
  alu1 (formI 6 d a (2 * 2 ^ 12 + n.toNat)) d a (fun a => a.sshiftRight n.toNat) s

/-- SRAI with an extension (R115). -/
def execSraiLong (d a : GReg) (n : BitVec 6) (s : State) : Out :=
  alu1 (formIX 6 d a) d a (fun a => a.sshiftRight n.toNat) s

/-- ROTLI (R115). -/
def execRotli (d a : GReg) (n : BitVec 6) (s : State) : Out :=
  alu1 (formI 6 d a (3 * 2 ^ 12 + n.toNat)) d a (fun a => rotl a n.toNat) s

/-- ROTLI with an extension (R115). -/
def execRotliLong (d a : GReg) (n : BitVec 6) (s : State) : Out :=
  alu1 (formIX 6 d a) d a (fun a => rotl a n.toNat) s

/-- MOVHI (R116). -/
def execMovhi (d : GReg) (i : BitVec 20) (s : State) : Out :=
  issue { cForm (wU 9 d i.toNat) with gw := [d] } (fun s => ok (wg s d (signExt 32 (w64 (i.toNat * 2 ^ 12))))) s

/-! ### LEA and GADDR (R117 to R120) -/

/-- LEA with scale 1 (R117). -/
def execLeaScale1 (d a b : GReg) (s : State) : Out :=
  alu2 (formDAB 0x0A 0 d a b) d a b (fun a b => a + b * 1#64) s

/-- LEA with scale 2 (R117). -/
def execLeaScale2 (d a b : GReg) (s : State) : Out :=
  alu2 (formDAB 0x0A 1 d a b) d a b (fun a b => a + b * 2#64) s

/-- LEA with scale 4 (R117). -/
def execLeaScale4 (d a b : GReg) (s : State) : Out :=
  alu2 (formDAB 0x0A 2 d a b) d a b (fun a b => a + b * 4#64) s

/-- LEA with scale 8 (R117). -/
def execLeaScale8 (d a b : GReg) (s : State) : Out :=
  alu2 (formDAB 0x0A 3 d a b) d a b (fun a b => a + b * 8#64) s

/-- TVAL of cause 0x1D (R120). -/
def gaddrTval (t reason k x : Nat) : Word := w64 (t + reason * 2 ^ 5 + k * 2 ^ 8 + x * 2 ^ 16)

/-- The fields of a dimension word (Table 5.9). -/
def dimExt (e : Word) : Nat := bits e.toNat 15 0
def dimBlk (e : Word) : Nat := bits e.toNat 31 16
def dimGrid (e : Word) : Nat := bits e.toNat 47 32

/-- ⌈a / b⌉. -/
def ceilDiv (a b : Nat) : Nat := (a + b - 1) / b

/-- The walk over the dimensions (R119): rank and local index, or the TVAL of the first coordinate that is out
of range. -/
def gaddrDims (t : Nat) (coords : Nat) : List (Nat × Word) → Nat × Nat × Nat × Nat → Except Word (Nat × Nat)
  | [], (rank, _, li, _) => .ok (rank, li)
  | (k, e) :: l, (rank, rmul, li, lmul) =>
    let x := bits coords (16 * k + 15) (16 * k)
    if dimExt e = 0 then
      if x ≠ 0 then .error (gaddrTval t 1 k x) else gaddrDims t coords l (rank, rmul, li, lmul)
    else if dimExt e ≤ x then .error (gaddrTval t 1 k x)
    else
      let bg := dimBlk e * dimGrid e
      gaddrDims t coords l (rank + x / dimBlk e % dimGrid e * rmul, rmul * dimGrid e,
        li + (x / bg * dimBlk e + x % dimBlk e) * lmul, lmul * (ceilDiv (dimExt e) bg * dimBlk e))

/-- The element's address, or the TVAL of cause 0x1D (R119). Of two DIST records of one index the first stands (DESIGN
CHOICE, log entry 23: R118 does not say). -/
def gaddrOf (l : Launch) (coords t : Nat) : Except Word Word :=
  match l.dists.find? (·.idx == t) with
  | none => .error (gaddrTval t 0 0 0)
  | some dt =>
    let h := dt.head.toNat
    let dims := [0, 1, 2, 3].map fun i => dt.dims.getD i 0
    if !bit h 63 || bits h 47 46 == 3 || decide (7 < bits h 23 20)
        || dims.any (fun e => dimExt e != 0 && (dimBlk e == 0 || dimGrid e == 0)) then .error (gaddrTval t 0 0 0)
    else
      match gaddrDims t coords ([0, 1, 2, 3].zip dims) (0, 1, 0, 1) with
      | .error v => .error v
      | .ok (rank, li) =>
        let cores := roleCores l (bits h 47 46)
        match cores[bits h 42 32 + rank]? with
        | none => .error (gaddrTval t 2 0 0)
        | some core =>
          let off := bits h 19 0 + li * 2 ^ bits h 23 20
          if 0xFFFFF < off then .error (gaddrTval t 3 0 0) else .ok (w64 (localAddr core off))

/-- GADDR (R119). In a context without a launch, as on a firmware core, there is no table: cause 0x1D with reason 0
(DESIGN CHOICE, log entry 23). -/
def execGaddr (d a b : GReg) (s : State) : Out :=
  issue (formDAB 0x0A 4 d a b) (fun s =>
    let t := (rg s b).toNat % 32
    match launchOf s (opCtx s) with
    | none => trap 0x1D (gaddrTval t 0 0 0)
    | some l =>
      match gaddrOf l (rg s a).toNat t with
      | .error v => trap 0x1D v
      | .ok v => ok (wgSlow s d v)) s

/-! ### Branches and jumps (R121, R122) -/

/-- The bundle at an offset from the issuing bundle (R32). -/
def target (s : State) (off : Word) : Nat := (w64 (opCtx s).pc + 8#64 * off).toNat
/-- The address of the following bundle. -/
def linkPc (s : State) : Word := w64 (opCtx s).pc + 8#64

/-- A branch. -/
def branch (fm : Form) (a b : GReg) (off : Word) (cond : Word → Word → Bool) (s : State) : Out :=
  issue fm (fun s => if cond (rg s a) (rg s b) then .ok { s := s, npc := some (target s off) } else ok s) s

/-- BEQ (R121). -/
def execBeq (a b : GReg) (o : BitVec 15) (s : State) : Out :=
  branch (formB 0x0B a b o.toNat) a b (imm15 o) (fun a b => a == b) s

/-- BEQ with an extension (R35, R121). -/
def execBeqLong (a b : GReg) (o : BitVec 32) (s : State) : Out :=
  branch (formBX 0x0B a b) a b (imm32 o) (fun a b => a == b) s

/-- BNE (R121). -/
def execBne (a b : GReg) (o : BitVec 15) (s : State) : Out :=
  branch (formB 0x0C a b o.toNat) a b (imm15 o) (fun a b => a != b) s

/-- BNE with an extension (R35, R121). -/
def execBneLong (a b : GReg) (o : BitVec 32) (s : State) : Out :=
  branch (formBX 0x0C a b) a b (imm32 o) (fun a b => a != b) s

/-- BLT (R121). -/
def execBlt (a b : GReg) (o : BitVec 15) (s : State) : Out :=
  branch (formB 0x0D a b o.toNat) a b (imm15 o) (fun a b => decide (sInt a < sInt b)) s

/-- BLT with an extension (R35, R121). -/
def execBltLong (a b : GReg) (o : BitVec 32) (s : State) : Out :=
  branch (formBX 0x0D a b) a b (imm32 o) (fun a b => decide (sInt a < sInt b)) s

/-- BGE (R121). -/
def execBge (a b : GReg) (o : BitVec 15) (s : State) : Out :=
  branch (formB 0x0E a b o.toNat) a b (imm15 o) (fun a b => decide (sInt b ≤ sInt a)) s

/-- BGE with an extension (R35, R121). -/
def execBgeLong (a b : GReg) (o : BitVec 32) (s : State) : Out :=
  branch (formBX 0x0E a b) a b (imm32 o) (fun a b => decide (sInt b ≤ sInt a)) s

/-- BLTU (R121). -/
def execBltu (a b : GReg) (o : BitVec 15) (s : State) : Out :=
  branch (formB 0x0F a b o.toNat) a b (imm15 o) (fun a b => decide (a.toNat < b.toNat)) s

/-- BLTU with an extension (R35, R121). -/
def execBltuLong (a b : GReg) (o : BitVec 32) (s : State) : Out :=
  branch (formBX 0x0F a b) a b (imm32 o) (fun a b => decide (a.toNat < b.toNat)) s

/-- BGEU (R121). -/
def execBgeu (a b : GReg) (o : BitVec 15) (s : State) : Out :=
  branch (formB 0x10 a b o.toNat) a b (imm15 o) (fun a b => decide (b.toNat ≤ a.toNat)) s

/-- BGEU with an extension (R35, R121). -/
def execBgeuLong (a b : GReg) (o : BitVec 32) (s : State) : Out :=
  branch (formBX 0x10 a b) a b (imm32 o) (fun a b => decide (b.toNat ≤ a.toNat)) s

/-- JAL's effect (R122). -/
def jalTo (d : GReg) (off : Word) (s : State) : Do Done := .ok { s := wg s d (linkPc s), npc := some (target s off) }

/-- JAL. -/
def execJal (d : GReg) (o : BitVec 20) (s : State) : Out :=
  issue { cForm (wU 0x11 d o.toNat) with gw := [d] } (jalTo d (o.signExtend 64)) s

/-- JAL with an extension. -/
def execJalLong (d : GReg) (o : BitVec 32) (s : State) : Out :=
  issue { xForm (wU 0x11 d 0) with gw := [d] } (jalTo d (imm32 o)) s

/-- JALR's effect (R122): a target off the bundle grid raises cause 0x05. -/
def jalrTo (d a : GReg) (i : Word) (s : State) : Do Done :=
  let t := rg s a + i
  if t.toNat % 8 ≠ 0 then trap 0x05 t else .ok { s := wg s d (linkPc s), npc := some t.toNat }

/-- JALR. -/
def execJalr (d a : GReg) (i : BitVec 15) (s : State) : Out := issue (formI 0x12 d a i.toNat) (jalrTo d a (imm15 i)) s

/-- JALR with an extension. -/
def execJalrLong (d a : GReg) (i : BitVec 32) (s : State) : Out := issue (formIX 0x12 d a) (jalrTo d a (imm32 i)) s

/-! ### NUM (R124 to R126) -/

/-- The low 32 bits of a word. -/
def lo32 (x : Word) : BitVec 32 := x.truncate 32
/-- The anchor in bits [15:0]. -/
def anchor (x : Word) : Int := (x.truncate 16 : BitVec 16).toInt

/-- RAND (R124): the counter advances with the draw. -/
def execRand (d a b : GReg) (s : State) : Out :=
  issue { formDAB 0x20 0 d a b with gw := [d, a] } (fun s =>
    if d = a ∧ d ≠ 0 then trap 0x01 (encTval (wR 0x20 d a b 0) 3 false)
    else ok (wgSlow (wg s a (rg s a + 1#64)) d (w64 (cmix32 (lo32 (rg s a)) (lo32 (rg s b))).toNat))) s

/-- CVTFX (R125). -/
def execCvtfx (d a b : GReg) (s : State) : Out :=
  issue { formDAB 0x20 1 d a b with gw := [d, nextReg d] } (fun s =>
    if d.val = 0 ∨ d.val % 2 = 1 then trap 0x01 (encTval (wR 0x20 d a b 1) 3 false)
    else do
      let r := floorToGrid (lo32 (rg s a)).toNat (anchor (rg s b))
      let s ← setFlags s [r.2.1]
      let v := (r.1 % 2 ^ 128).toNat
      ok (inFlight (wgPair s d v) [.g d, .g (nextReg d)])) s

/-- CVTXF (R126). -/
def execCvtxf (d a b : GReg) (s : State) : Out :=
  issue { formDAB 0x20 2 d a b with gr := [a, nextReg a, b] } (fun s =>
    let m := bits (rg s b).toNat 18 16
    if a.val % 2 = 1 ∨ 4 < m then trap 0x01 (encTval (wR 0x20 d a b 2) 3 false)
    else do
      let mode := if m = 4 then fpRm (opCtx s) else rmode m
      let v : BitVec 128 := BitVec.ofNat 128 (rgPair s a)
      let r := roundFromFixed v.toInt (anchor (rg s b)) mode
      let s ← setFlags s [r.2]
      ok (wgSlow s d (w64 r.1))) s

end Sys2Proof.Machine
end

