-- ==== Sys2Proof/Machine/LoadStore.lean ====
section
/-! DEFINITION. The memory instructions: LOAD and STORE, full/empty, vector memory, atomics and cache
(R193 to R200). -/

namespace Sys2Proof.Machine

/-! ### LOAD and STORE (R194) -/

/-- An effective address (R193). -/
def effAddr (s : State) (a : GReg) (off : Word) : Word := rg s a + off
/-- imm12 sign-extended. -/
def imm12 (o : BitVec 12) : Word := o.signExtend 64
/-- imm7 sign-extended. -/
def imm7 (o : BitVec 7) : Word := o.signExtend 64

/-- A load with a size code (Table 2.4). -/
def loadOp (code : Nat) (d a : GReg) (off : Word) (s : State) : Do Done := do
  let s ← load s (effAddr s a off) (codeBytes code) (.load d code)
  ok s

/-- The value that a store writes: the low bytes of gs, or of the pair (R194). -/
def storeValue (s : State) (code : Nat) (r : GReg) : Nat := if code = 7 then rgPair s r else (rg s r).toNat

/-- A store with a size code. -/
def storeOp (code : Nat) (r a : GReg) (off : Word) (s : State) : Do Done := do
  let s ← store s (effAddr s a off) (bytesOf (storeValue s code r) (codeBytes code))
  ok s

/-- LDB (R194). -/
def execLdb (d a : GReg) (o : BitVec 12) (s : State) : Out :=
  issue (formLd 0x13 0 d a o.toNat) (loadOp 0 d a (imm12 o)) s

/-- LDB with an extension (R35, R194). -/
def execLdbLong (d a : GReg) (o : BitVec 32) (s : State) : Out :=
  issue (formLdX 0x13 0 d a) (loadOp 0 d a (imm32 o)) s

/-- LDH (R194). -/
def execLdh (d a : GReg) (o : BitVec 12) (s : State) : Out :=
  issue (formLd 0x13 1 d a o.toNat) (loadOp 1 d a (imm12 o)) s

/-- LDH with an extension (R35, R194). -/
def execLdhLong (d a : GReg) (o : BitVec 32) (s : State) : Out :=
  issue (formLdX 0x13 1 d a) (loadOp 1 d a (imm32 o)) s

/-- LDW (R194). -/
def execLdw (d a : GReg) (o : BitVec 12) (s : State) : Out :=
  issue (formLd 0x13 2 d a o.toNat) (loadOp 2 d a (imm12 o)) s

/-- LDW with an extension (R35, R194). -/
def execLdwLong (d a : GReg) (o : BitVec 32) (s : State) : Out :=
  issue (formLdX 0x13 2 d a) (loadOp 2 d a (imm32 o)) s

/-- LDD (R194). -/
def execLdd (d a : GReg) (o : BitVec 12) (s : State) : Out :=
  issue (formLd 0x13 3 d a o.toNat) (loadOp 3 d a (imm12 o)) s

/-- LDD with an extension (R35, R194). -/
def execLddLong (d a : GReg) (o : BitVec 32) (s : State) : Out :=
  issue (formLdX 0x13 3 d a) (loadOp 3 d a (imm32 o)) s

/-- LDBU (R194). -/
def execLdbu (d a : GReg) (o : BitVec 12) (s : State) : Out :=
  issue (formLd 0x13 4 d a o.toNat) (loadOp 4 d a (imm12 o)) s

/-- LDBU with an extension (R35, R194). -/
def execLdbuLong (d a : GReg) (o : BitVec 32) (s : State) : Out :=
  issue (formLdX 0x13 4 d a) (loadOp 4 d a (imm32 o)) s

/-- LDHU (R194). -/
def execLdhu (d a : GReg) (o : BitVec 12) (s : State) : Out :=
  issue (formLd 0x13 5 d a o.toNat) (loadOp 5 d a (imm12 o)) s

/-- LDHU with an extension (R35, R194). -/
def execLdhuLong (d a : GReg) (o : BitVec 32) (s : State) : Out :=
  issue (formLdX 0x13 5 d a) (loadOp 5 d a (imm32 o)) s

/-- LDWU (R194). -/
def execLdwu (d a : GReg) (o : BitVec 12) (s : State) : Out :=
  issue (formLd 0x13 6 d a o.toNat) (loadOp 6 d a (imm12 o)) s

/-- LDWU with an extension (R35, R194). -/
def execLdwuLong (d a : GReg) (o : BitVec 32) (s : State) : Out :=
  issue (formLdX 0x13 6 d a) (loadOp 6 d a (imm32 o)) s

/-- LDQ (R194). -/
def execLdq (d a : GReg) (o : BitVec 12) (s : State) : Out :=
  issue (formLdq (formLd 0x13 7 d a o.toNat) d) (loadOp 7 d a (imm12 o)) s

/-- LDQ with an extension (R35, R194). -/
def execLdqLong (d a : GReg) (o : BitVec 32) (s : State) : Out :=
  issue (formLdq (formLdX 0x13 7 d a) d) (loadOp 7 d a (imm32 o)) s

/-- STB (R194). -/
def execStb (r a : GReg) (o : BitVec 12) (s : State) : Out :=
  issue (formSt 0x14 0 r a o.toNat) (storeOp 0 r a (imm12 o)) s

/-- STB with an extension (R35, R194). -/
def execStbLong (r a : GReg) (o : BitVec 32) (s : State) : Out :=
  issue (formStX 0x14 0 r a) (storeOp 0 r a (imm32 o)) s

/-- STH (R194). -/
def execSth (r a : GReg) (o : BitVec 12) (s : State) : Out :=
  issue (formSt 0x14 1 r a o.toNat) (storeOp 1 r a (imm12 o)) s

/-- STH with an extension (R35, R194). -/
def execSthLong (r a : GReg) (o : BitVec 32) (s : State) : Out :=
  issue (formStX 0x14 1 r a) (storeOp 1 r a (imm32 o)) s

/-- STW (R194). -/
def execStw (r a : GReg) (o : BitVec 12) (s : State) : Out :=
  issue (formSt 0x14 2 r a o.toNat) (storeOp 2 r a (imm12 o)) s

/-- STW with an extension (R35, R194). -/
def execStwLong (r a : GReg) (o : BitVec 32) (s : State) : Out :=
  issue (formStX 0x14 2 r a) (storeOp 2 r a (imm32 o)) s

/-- STD (R194). -/
def execStd (r a : GReg) (o : BitVec 12) (s : State) : Out :=
  issue (formSt 0x14 3 r a o.toNat) (storeOp 3 r a (imm12 o)) s

/-- STD with an extension (R35, R194). -/
def execStdLong (r a : GReg) (o : BitVec 32) (s : State) : Out :=
  issue (formStX 0x14 3 r a) (storeOp 3 r a (imm32 o)) s

/-- STQ (R194). -/
def execStq (r a : GReg) (o : BitVec 12) (s : State) : Out :=
  issue (formStq (formSt 0x14 7 r a o.toNat) r a) (storeOp 7 r a (imm12 o)) s

/-- STQ with an extension (R35, R194). -/
def execStqLong (r a : GReg) (o : BitVec 32) (s : State) : Out :=
  issue (formStq (formStX 0x14 7 r a) r a) (storeOp 7 r a (imm32 o)) s

/-! ### Full/empty (R195, R196) -/

/-- Whether a full/empty operation may be performed: LDF and LDC wait for full, STF for empty (Table 8.11). -/
def feReady (s : State) (addr : Nat) (op : AOp) : Bool :=
  match op with
  | .ldf => isFull s addr
  | .ldc => isFull s addr
  | .stf _ => !isFull s addr
  | _ => true

/-- The acquire with which a waiter's load of a word that a Completion has filled sees what the Completion has released
(R372). -/
def seeReleased (s : State) (addr : Nat) (w : Option Who) : State :=
  match w with
  | some w => if s.dev.guest.released.contains addr then acquireFor s w.ctx else s
  | none => s

/-- A word that has been emptied carries no release any more. -/
def unreleased (s : State) (addr : Nat) : State :=
  modDev s fun d => { d with guest := { d.guest with released := d.guest.released.filter (· ≠ addr) } }

/-- A full/empty operation at its home: the value for gd, and the state (Table 8.11). -/
def fePerform (s : State) (addr : Nat) (op : AOp) (kind writer : Nat) (w : Option Who) : Nat × State :=
  match op with
  | .ldf => (readN s.mem addr 8, seeReleased s addr w)
  | .ldc => (readN s.mem addr 8, unreleased (setFe (seeReleased s addr w) addr false) addr)
  | .stf v => (0, setFe (homeWrite s addr (bytesOf v.toNat 8) kind writer w) addr true)
  | .stfo v => (0, setFe (homeWrite s addr (bytesOf v.toNat 8) kind writer w) addr true)
  | .empty => (0, unreleased (setFe s addr false) addr)
  | .feq => (b2n (isFull s addr), s)
  | _ => (0, s)

/-- The request of the issuing bundle that its owner has been sent, if there is one. -/
def grantOf (s : State) : Option Grant := (opCtx s).grants.find? (·.pc == (opCtx s).pc)

/-- A request to an owner: the bundle waits until the owner has answered it. `send` gives the state in which the
request with a number is on its way. -/
def askOwner {α : Type} (s : State) (kind obj owner : Nat) (send : Nat → State → State) : Do α :=
  let (id, s) := newId s
  let s := modCur s fun c => { c with grants := c.grants ++ [⟨c.pc, id, none⟩] }
  .error (.wait (send id s) kind obj owner)

/-- The wait for a request that has been made under a number. -/
def askAs {α : Type} (s : State) (id kind obj owner : Nat) : Do α :=
  .error (.wait (modCur s fun c => { c with grants := c.grants ++ [⟨c.pc, id, none⟩] }) kind obj owner)

/-- Whether an operation that waits at a core is one on a word whose bit lets it be performed now: it then goes
before a later one on that word (R196). -/
def feFirst (s : State) (addr : Nat) (w : FeWait) : Bool := w.a.addr / 8 == addr / 8 && feReady s w.a.addr w.a.op

/-- Whether the core's wait table holds an operation on a word that may be performed now: waiting operations on one
word complete in arrival order as the bit allows (R196). -/
def feWaiters (s : State) (a : Agent) (addr : Nat) : Bool := (getCore s a).feWaits.any (feFirst s addr)

/-- A word's target for a full/empty operation (R193, R196): own or another core's local space; any other
address raises cause 0x0A. A bank of the own core with another role raises cause 0x0B, the control bank's live
barrier words too. -/
def feTarget (s : State) (ea : Word) (kind : Nat) (need : Need) : Do (State × Target) :=
  if ea.toNat % 8 ≠ 0 then trap 0x05 ea
  else do
    let (s, t) ← resolveCur s ea kind need
    match t with
    | .own off => do
      ownCheck s ea off 8 false
      .ok (s, t)
    | .pool _ _ => .ok (s, t)
    | .phys _ _ _ => trap 0x0A ea

/-- The check of a full/empty operation that reads its word at a home (R191, R201). -/
def feCheck (s : State) (dst : Node) (addr : Nat) (op : AOp) : Do Unit :=
  match op with
  | .ldf => sentLoadCheck s dst addr 8
  | .ldc => sentLoadCheck s dst addr 8
  | _ => .ok ()

/-- An operation that may wait: LDF, LDC and STF. `fin` is its completion with the word's value. -/
def feWaiting (s : State) (ea : Word) (t : Target) (op : AOp) (fin : State → Nat → State) : Do Done :=
  match grantOf s, t with
  | some { value := some v, .. }, _ => ok (fin s v.toNat)
  | some _, .pool c _ => .error (.wait s 2 ea.toNat c)
  | some _, _ => .error (.wait s 2 ea.toNat 0x7FF)
  | none, .pool c off => do
    feCheck s (.core c) (localAddr c off) op
    if 32 ≤ (curCore s).loads.length then .error (.hold s)
    else
      askOwner s 2 ea.toNat c fun id s =>
        let b := Body.access (mkAccess s id op (localAddr c off) ea.toNat none)
        sendPkt (modCurCore s fun co => { co with loads := co.loads ++ [id] }) (nodeOf s.cur.agent) (.core c) 0 b
  | none, t =>
    let addr := t.addr s.cur.agent
    if feReady s addr op ∧ !feWaiters s s.cur.agent addr then do
      feCheck s (nodeOf s.cur.agent) addr op
      let r := fePerform s addr op 0 (writerNo s.cur.agent) (some (curWho s 0))
      ok (fin r.2 r.1)
    else askOwner s 2 ea.toNat 0x7FF fun id s =>
      modCurCore s fun co => { co with feWaits := co.feWaits ++ [⟨mkAccess s id op addr ea.toNat none⟩] }

/-- LDF and LDC. -/
def feLoad (op : AOp) (d a : GReg) (off : Word) (s : State) : Do Done := do
  let ea := effAddr s a off
  let (s, t) ← feTarget s ea 0 .rd
  feWaiting s ea t op fun s v => wgSlow s d (w64 v)

/-- STF. -/
def feStf (r a : GReg) (off : Word) (s : State) : Do Done := do
  let ea := effAddr s a off
  let (s, t) ← feTarget s ea 1 .wr
  feWaiting s ea t (.stf (rg s r)) fun s _ => s

/-- STFO and EMPTY, which do not wait. -/
def feNow (a : GReg) (off : Word) (op : State → AOp) (s : State) : Do Done := do
  let ea := effAddr s a off
  let (s, t) ← feTarget s ea 1 .wr
  match t with
  | .own o => ok (fePerform s (localAddr (agentNo s.cur.agent) o) (op s) 0 (writerNo s.cur.agent) (some (curWho s 0))).2
  | t => do
    let s ← request s (t.node s s.cur.agent) .none fun id =>
      mkAccess s id (op s) (t.addr s.cur.agent) ea.toNat none
    ok s

/-- FEQ. -/
def feQuery (d a : GReg) (off : Word) (s : State) : Do Done := do
  let ea := effAddr s a off
  let (s, t) ← feTarget s ea 0 .rd
  match t with
  | .pool c o => do
    let s ← request s (.core c) (.load d 3) fun id => mkAccess s id .feq (localAddr c o) ea.toNat none
    ok s
  | t => ok (wgSlow s d (w64 (b2n (isFull s (t.addr s.cur.agent)))))

/-- LDF (Table 8.11). -/
def execLdf (d a : GReg) (o : BitVec 12) (s : State) : Out :=
  issue (formLd 0x15 0 d a o.toNat) (feLoad .ldf d a (imm12 o)) s

/-- LDF with an extension. -/
def execLdfLong (d a : GReg) (o : BitVec 32) (s : State) : Out :=
  issue (formLdX 0x15 0 d a) (feLoad .ldf d a (imm32 o)) s

/-- LDC (Table 8.11). -/
def execLdc (d a : GReg) (o : BitVec 12) (s : State) : Out :=
  issue (formLd 0x15 1 d a o.toNat) (feLoad .ldc d a (imm12 o)) s

/-- LDC with an extension. -/
def execLdcLong (d a : GReg) (o : BitVec 32) (s : State) : Out :=
  issue (formLdX 0x15 1 d a) (feLoad .ldc d a (imm32 o)) s

/-- STF (Table 8.11). -/
def execStf (r a : GReg) (o : BitVec 12) (s : State) : Out :=
  issue (formSt 0x15 2 r a o.toNat) (feStf r a (imm12 o)) s

/-- STF with an extension. -/
def execStfLong (r a : GReg) (o : BitVec 32) (s : State) : Out :=
  issue (formStX 0x15 2 r a) (feStf r a (imm32 o)) s

/-- STFO (Table 8.11). -/
def execStfo (r a : GReg) (o : BitVec 12) (s : State) : Out :=
  issue (formSt 0x15 3 r a o.toNat) (feNow a (imm12 o) (fun s => .stfo (rg s r))) s

/-- STFO with an extension. -/
def execStfoLong (r a : GReg) (o : BitVec 32) (s : State) : Out :=
  issue (formStX 0x15 3 r a) (feNow a (imm32 o) (fun s => .stfo (rg s r))) s

/-- EMPTY (Table 8.11). -/
def execEmpty (a : GReg) (o : BitVec 12) (s : State) : Out :=
  issue { cForm (wM 0x15 0 a 4 o.toNat) with gr := [a] } (feNow a (imm12 o) (fun _ => .empty)) s

/-- EMPTY with an extension. -/
def execEmptyLong (a : GReg) (o : BitVec 32) (s : State) : Out :=
  issue { xForm (wM 0x15 0 a 4 0) with gr := [a] } (feNow a (imm32 o) (fun _ => .empty)) s

/-- FEQ (Table 8.11). -/
def execFeq (d a : GReg) (o : BitVec 12) (s : State) : Out :=
  issue (formLd 0x15 5 d a o.toNat) (feQuery d a (imm12 o)) s

/-- FEQ with an extension. -/
def execFeqLong (d a : GReg) (o : BitVec 32) (s : State) : Out :=
  issue (formLdX 0x15 5 d a) (feQuery d a (imm32 o)) s

/-! ### Vector memory (R197, R198) -/

/-- The check of one part of a vector access (R193, R198): alignment, address, translation, permission and
role, before any part is performed. -/
def partTarget (s : State) (ea : Word) (n : Nat) (store : Bool) : Do (State × Target) :=
  if ea.toNat % n ≠ 0 then trap 0x05 ea
  else do
    let (s, t) ← resolveCur s ea (if store then 1 else 0) (if store then .wr else .rd)
    match t with
    | .own off => do
      ownCheck s ea off n store
      .ok (s, t)
    | t => .ok (s, t)

/-- The checks of all parts, in ascending order: each part's offset in the register, address and target. -/
def partTargets (s : State) (n : Nat) (store : Bool) : List (Nat × Word) → Do (State × List (Nat × Word × Target))
  | [] => .ok (s, [])
  | (lo, ea) :: l => do
    let (s, t) ← partTarget s ea n store
    let (s, ts) ← partTargets s n store l
    .ok (s, (lo, ea, t) :: ts)

/-- A part through a CL1 page with an L1 is made of its sectors (R183); any other is whole. -/
def splitSectors (s : State) (n : Nat) (p : Nat × Word × Target) : List (Nat × Word × Target × Nat) :=
  match p.2.2 with
  | .phys pa pol lvl =>
    if pol = 0 ∧ servesL1 s s.cur.agent pa ∧ n = 64 then
      [(p.1, p.2.1, .phys pa pol lvl, 32), (p.1 + 32, p.2.1 + 32#64, .phys (pa + 32) pol lvl, 32)]
    else [(p.1, p.2.1, p.2.2, n)]
  | t => [(p.1, p.2.1, t, n)]

/-- Whether a part's load leaves the core. -/
def partLeaves (s : State) (t : Target) (n : Nat) : Bool :=
  match t with
  | .own _ => false
  | .pool _ _ => true
  | .phys pa pol _ => !(pol == 0 && servesL1 s s.cur.agent pa && (l1Read (curCore s) pa n).isSome)

/-- The parts of a vector load, in order. -/
def loadParts (s : State) (d : FReg) : List (Nat × Word × Target × Nat) → Do State
  | [] => .ok s
  | (lo, ea, t, n) :: l => do
    let s ← loadFrom s t ea n (.lane d lo n)
    loadParts s d l

/-- A vector load that has all its bytes: a write-bound register pushes the vector, a port sends it (R198,
R312). A load that was issued while its register was a port sends its vector when the port is owned no longer, too. -/
def finishVec (s : State) (k : CtxKey) (d : FReg) : State :=
  let c := getCtx s k
  let more := c.awaits.any fun a => match a.what with
    | .lane d' _ _ => d' == d
    | _ => false
  if more then s
  else
    match streamOf c d with
    | some st => if st.write then setCtx s k (pushVec s k d st c.f[d] { c with f := c.f.set d 0 }) else s
    | none =>
      if (portOf c d).isSome then putVec (setCtx s k { c with f := c.f.set d 0 }) k d c.f[d]
      else if c.portLoads.contains d then
        let p : Fin 4 := Fin.ofNat 4 (d.val - 28)
        modCore (setCtx s k { c with f := c.f.set d 0, portLoads := c.portLoads.filter (· ≠ d) }) k.agent fun co =>
          { co with linkOut := co.linkOut.set p (co.linkOut[p] ++ [c.f[d]]) }
      else s

/-- A vector load of parts of `n` bytes at addresses. -/
def vecLoad (s : State) (d : FReg) (n : Nat) (parts : List (Nat × Word)) : Do Done := do
  let (s', ts) ← partTargets s n false parts
  let ps := ts.flatMap (splitSectors s' n)
  if 32 < (curCore s').loads.length + ps.countP (fun p => partLeaves s' p.2.2.1 p.2.2.2) then .error (.hold s)
  else do
    let t ← loadParts s' d ps
    ok (finishVec (modCur t (·.pushing d)) s.cur d)

/-- The parts of a vector store, in order. -/
def storeParts (s : State) (v : Vec) : List (Nat × Word × Target × Nat) → Do State
  | [] => .ok s
  | (lo, ea, t, n) :: l => do
    let s ← storeTo s t ea (bytesOf (v.toNat / 256 ^ lo) n)
    storeParts s v l

/-- Whether a part's store takes a journal entry. -/
def partPosts (s : State) (t : Target) : Bool :=
  match t with
  | .own _ => false
  | .pool _ _ => true
  | .phys pa pol _ => !(pol == 0 && servesL1 s s.cur.agent pa)

/-- A vector store of parts of `n` bytes at addresses. -/
def vecStore (s : State) (r : FReg) (n : Nat) (parts : List (Nat × Word)) : Do Done := do
  let (s', ts) ← partTargets s n true parts
  let ps := ts.flatMap (splitSectors s' n)
  if 64 < (curCore s').journal.length + ps.countP (fun p => partPosts s' p.2.2.1) then .error (.hold s)
  else do
    let t ← storeParts s' (rf s r) ps
    ok t

/-- The 16 lane addresses from a base and an offset for each lane. -/
def laneAddrs (base : Word) (f : Nat → Word) : List (Nat × Word) := (List.range 16).map fun i => (4 * i, base + f i)
/-- The offsets of VLDS and VSTS: i × gb. -/
def strided (s : State) (b : GReg) (i : Nat) : Word := w64 i * rg s b
/-- The offsets of VGATH and VSCAT: the signed lanes of fb. -/
def gathered (s : State) (b : FReg) (i : Nat) : Word := (lane (rf s b) i).signExtend 64

/-- VLD's effect. -/
def vldOp (d : FReg) (a : GReg) (off : Word) (s : State) : Do Done := vecLoad s d 64 [(0, effAddr s a off)]
/-- VST's effect. -/
def vstOp (r : FReg) (a : GReg) (off : Word) (s : State) : Do Done := vecStore s r 64 [(0, effAddr s a off)]
/-- VLDS's effect. -/
def vldsOp (d : FReg) (a b : GReg) (off : Word) (s : State) : Do Done :=
  vecLoad s d 4 (laneAddrs (effAddr s a off) (strided s b))
/-- VSTS's effect. -/
def vstsOp (r : FReg) (a b : GReg) (off : Word) (s : State) : Do Done :=
  vecStore s r 4 (laneAddrs (effAddr s a off) (strided s b))
/-- VGATH's effect. -/
def vgathOp (d : FReg) (a : GReg) (b : FReg) (off : Word) (s : State) : Do Done :=
  vecLoad s d 4 (laneAddrs (effAddr s a off) (gathered s b))
/-- VSCAT's effect. -/
def vscatOp (r : FReg) (a : GReg) (b : FReg) (off : Word) (s : State) : Do Done :=
  vecStore s r 4 (laneAddrs (effAddr s a off) (gathered s b))

/-- VLD (Table 8.12). -/
def execVld (d : FReg) (a : GReg) (o : BitVec 12) (s : State) : Out :=
  issue (formVld d a o.toNat) (vldOp d a (imm12 o)) s

/-- VLD with an extension. -/
def execVldLong (d : FReg) (a : GReg) (o : BitVec 32) (s : State) : Out :=
  issue (formVldX d a) (vldOp d a (imm32 o)) s

/-- VST (Table 8.12). -/
def execVst (r : FReg) (a : GReg) (o : BitVec 12) (s : State) : Out :=
  issue (formVst r a o.toNat) (vstOp r a (imm12 o)) s

/-- VST with an extension. -/
def execVstLong (r : FReg) (a : GReg) (o : BitVec 32) (s : State) : Out :=
  issue (formVstX r a) (vstOp r a (imm32 o)) s

/-- VLDS (Table 8.12). -/
def execVlds (d : FReg) (a b : GReg) (o : BitVec 7) (s : State) : Out :=
  issue (formVlds d a b o.toNat) (vldsOp d a b (imm7 o)) s

/-- VLDS with an extension. -/
def execVldsLong (d : FReg) (a b : GReg) (o : BitVec 32) (s : State) : Out :=
  issue (formVldsX d a b) (vldsOp d a b (imm32 o)) s

/-- VSTS (Table 8.12). -/
def execVsts (r : FReg) (a b : GReg) (o : BitVec 7) (s : State) : Out :=
  issue (formVsts r a b o.toNat) (vstsOp r a b (imm7 o)) s

/-- VSTS with an extension. -/
def execVstsLong (r : FReg) (a b : GReg) (o : BitVec 32) (s : State) : Out :=
  issue (formVstsX r a b) (vstsOp r a b (imm32 o)) s

/-- VGATH (Table 8.12). -/
def execVgath (d : FReg) (a : GReg) (b : FReg) (o : BitVec 7) (s : State) : Out :=
  issue (formVgath d a b o.toNat) (vgathOp d a b (imm7 o)) s

/-- VGATH with an extension. -/
def execVgathLong (d : FReg) (a : GReg) (b : FReg) (o : BitVec 32) (s : State) : Out :=
  issue (formVgathX d a b) (vgathOp d a b (imm32 o)) s

/-- VSCAT (Table 8.12). -/
def execVscat (r : FReg) (a : GReg) (b : FReg) (o : BitVec 7) (s : State) : Out :=
  issue (formVscat r a b o.toNat) (vscatOp r a b (imm7 o)) s

/-- VSCAT with an extension. -/
def execVscatLong (r : FReg) (a : GReg) (b : FReg) (o : BitVec 32) (s : State) : Out :=
  issue (formVscatX r a b) (vscatOp r a b (imm32 o)) s

/-! ### Atomics (R199, R212) -/

/-- Bytes of an atomic's width. -/
def amoBytes : AmoW → Nat
  | .word => 4
  | .double => 8
  | .quad => 16

/-- An operand of an atomic at its width: the low bits of a register, or a pair. -/
def amoOperand (s : State) (w : AmoW) (r : GReg) : Nat :=
  match w with
  | .word => (rg s r).toNat % 2 ^ 32
  | .double => (rg s r).toNat
  | .quad => rgPair s r

/-- The value that AMOCAS expects; with d = 0 it compares with 0 (R199). -/
def casExpected (s : State) (k : AmoK) (w : AmoW) (d : GReg) : Nat :=
  if k = .cas ∧ d ≠ 0 then amoOperand s w d else 0

/-- An atomic: its release, its access, and the acquire that its return completes (R199, R212). -/
def amoOp (k : AmoK) (p : AmoP) (d a b : GReg) (s : State) : Do Done :=
  let ea := rg s a
  let n := amoBytes p.w
  if ea.toNat % n ≠ 0 then trap 0x05 ea
  else do
    let (s, t) ← resolveCur s ea 3 .wr
    let s ← if p.rel then release s (amoScope t) else .ok s
    let s ← amoAt s t ea k n (amoOperand s p.w b) (casExpected s k p.w d) d
    ok (if p.acq then modCur s fun c => { c with acquire := some (amoScope t) } else s)

/-- AMOADD (R199). -/
def execAmoadd (p : AmoP) (d a b : GReg) (s : State) : Out := issue (formAmo 0 p d a b) (amoOp .add p d a b) s

/-- AMOAND (R199). -/
def execAmoand (p : AmoP) (d a b : GReg) (s : State) : Out := issue (formAmo 1 p d a b) (amoOp .and p d a b) s

/-- AMOOR (R199). -/
def execAmoor (p : AmoP) (d a b : GReg) (s : State) : Out := issue (formAmo 2 p d a b) (amoOp .or p d a b) s

/-- AMOXOR (R199). -/
def execAmoxor (p : AmoP) (d a b : GReg) (s : State) : Out := issue (formAmo 3 p d a b) (amoOp .xor p d a b) s

/-- AMOMIN (R199). -/
def execAmomin (p : AmoP) (d a b : GReg) (s : State) : Out := issue (formAmo 4 p d a b) (amoOp .min p d a b) s

/-- AMOMAX (R199). -/
def execAmomax (p : AmoP) (d a b : GReg) (s : State) : Out := issue (formAmo 5 p d a b) (amoOp .max p d a b) s

/-- AMOMINU (R199). -/
def execAmominu (p : AmoP) (d a b : GReg) (s : State) : Out := issue (formAmo 6 p d a b) (amoOp .minu p d a b) s

/-- AMOMAXU (R199). -/
def execAmomaxu (p : AmoP) (d a b : GReg) (s : State) : Out := issue (formAmo 7 p d a b) (amoOp .maxu p d a b) s

/-- AMOSWAP (R199). -/
def execAmoswap (p : AmoP) (d a b : GReg) (s : State) : Out := issue (formAmo 8 p d a b) (amoOp .swap p d a b) s

/-- AMOCAS (R199). -/
def execAmocas (p : AmoP) (d a b : GReg) (s : State) : Out := issue (formAmo 9 p d a b) (amoOp .cas p d a b) s

/-! ### Cache (R200) -/

/-- Whether an effective address lies in well-formed core-local space, where a cache instruction does nothing. -/
def isLocalEa (ea : Word) : Bool := bits ea.toNat 63 44 == 0xF && bits ea.toNat 32 20 == 0

/-- The physical address that a cache instruction acts on; none in core-local space and in DEV and PAIRW pages
(R200). -/
def cacheTarget (s : State) (ea : Word) (need : Need) : Do (State × Option (Nat × Nat)) :=
  if isLocalEa ea then .ok (s, none)
  else do
    let (s, t) ← resolveCur s ea 3 need
    match t with
    | .phys pa pol _ => .ok (s, if pol ≤ 2 then some (pa, pol) else none)
    | _ => .ok (s, none)

/-- A cache instruction that changes the line of its address. -/
def cacheOp (need : Need) (f : State → Nat → State) (a : GReg) (off : Word) (s : State) : Do Done := do
  let (s, t) ← cacheTarget s (effAddr s a off) need
  match t with
  | none => ok s
  | some (pa, _) => ok (f s pa)

/-- The write-back of the issuing core's line of an address. -/
def cwbLine (s : State) (pa : Nat) : State :=
  match findLine (curCore s) (lineOf pa) with
  | none => s
  | some l => writeBackLine s s.cur.agent l

/-- The sectors of a line that an L1 does not hold. -/
def sectorsMissing (s : State) (pa : Nat) : Nat :=
  (List.range 8).countP fun i => (l1Read (curCore s) (lineOf pa * 256 + 32 * i) 1).isNone

/-- The fetch of one sector that a prefetch asks for. -/
def prefSector (s : State) (pa : Nat) : State :=
  if (l1Read (curCore s) pa 1).isSome then s
  else
    let (id, s) := newId s
    let s := modCurCore s fun co => { co with
      loads := co.loads ++ [id], fills := co.fills ++ [⟨id, pa, true, 0, 0, 0, 0⟩] }
    sendPkt s (nodeOf s.cur.agent) (homeNode s pa) 0 (.access (mkAccess s id .fill pa pa none 0))

/-- PREF's request to a line's home slice. -/
def prefLine (s : State) (pa : Nat) : State :=
  sendPkt s (nodeOf s.cur.agent) (homeNode s pa) 0 (.access (mkAccess s 0 .pref (lineOf pa * 256) pa none))

/-- PREF's effect (Table 8.13): a fault does nothing; a CL1 page's line is fetched into the L1, and so into L2; an
L2 page's line, or one of CL1 on a core without an L1, into L2. A bundle that does not find room in the load-return buffer for
the sectors that the line lacks is held (R234). -/
def prefOp (a : GReg) (off : Word) (s : State) : Do Done :=
  match cacheTarget s (effAddr s a off) .any with
  | .error _ => ok s
  | .ok (s, some (pa, pol)) =>
    if pol = 0 ∧ hasL1 s s.cur.agent ∧ 32 < (curCore s).loads.length + sectorsMissing s pa then .error (.hold s)
    else if pol = 0 ∧ hasL1 s s.cur.agent then
      let s := (allocLine s s.cur.agent (lineOf pa)).1
      ok ((List.range 8).foldl (fun s i => prefSector s (lineOf pa * 256 + 32 * i)) s)
    else if pol ≤ 1 then ok (prefLine s pa)
    else ok s
  | .ok (s, none) => ok s

/-- CWB.L2's effect: CWB, and then the write-back at the home slice, which is acknowledged to the core. -/
def cwbL2Line (s : State) (pa : Nat) : State :=
  let s := cwbLine s pa
  if pa < dramEnd then
    let (id, s) := newId s
    let h := homeNode s pa
    sendPkt (modCurCore s fun co => { co with writeBacks := co.writeBacks ++ [⟨id, h, pa⟩] }) (nodeOf s.cur.agent) h 0
      (.access (mkAccess s id .wbL2 (lineOf pa * 256) pa none))
  else s

/-- PREF (Table 8.13). -/
def execPref (a : GReg) (o : BitVec 12) (s : State) : Out :=
  issue (formCache 0 a o.toNat) (prefOp a (imm12 o)) s

/-- PREF with an extension. -/
def execPrefLong (a : GReg) (o : BitVec 32) (s : State) : Out :=
  issue (formCacheX 0 a) (prefOp a (imm32 o)) s

/-- CWB (Table 8.13). -/
def execCwb (a : GReg) (o : BitVec 12) (s : State) : Out :=
  issue (formCache 1 a o.toNat) (cacheOp .rd cwbLine a (imm12 o)) s

/-- CWB with an extension. -/
def execCwbLong (a : GReg) (o : BitVec 32) (s : State) : Out :=
  issue (formCacheX 1 a) (cacheOp .rd cwbLine a (imm32 o)) s

/-- CINV (Table 8.13). -/
def execCinv (a : GReg) (o : BitVec 12) (s : State) : Out :=
  issue (formCache 2 a o.toNat) (cacheOp .wr (fun s pa => dropLine s s.cur.agent (lineOf pa)) a (imm12 o)) s

/-- CINV with an extension. -/
def execCinvLong (a : GReg) (o : BitVec 32) (s : State) : Out :=
  issue (formCacheX 2 a) (cacheOp .wr (fun s pa => dropLine s s.cur.agent (lineOf pa)) a (imm32 o)) s

/-- CWBINV (Table 8.13). -/
def execCwbinv (a : GReg) (o : BitVec 12) (s : State) : Out :=
  issue (formCache 3 a o.toNat) (cacheOp .rd (fun s pa => flushLine s s.cur.agent (lineOf pa)) a (imm12 o)) s

/-- CWBINV with an extension. -/
def execCwbinvLong (a : GReg) (o : BitVec 32) (s : State) : Out :=
  issue (formCacheX 3 a) (cacheOp .rd (fun s pa => flushLine s s.cur.agent (lineOf pa)) a (imm32 o)) s

/-- CWBL2 (Table 8.13). -/
def execCwbL2 (a : GReg) (o : BitVec 12) (s : State) : Out :=
  issue (formCache 4 a o.toNat) (cacheOp .rd cwbL2Line a (imm12 o)) s

/-- CWBL2 with an extension. -/
def execCwbL2Long (a : GReg) (o : BitVec 32) (s : State) : Out :=
  issue (formCacheX 4 a) (cacheOp .rd cwbL2Line a (imm32 o)) s

end Sys2Proof.Machine
end

