-- ==== Sys2Proof/Machine/Home.lean ====
section
/-! DEFINITION. Accesses at their homes and what comes back: windows, refusals, the process image window, the wait
table, replies, acknowledgements and time-outs (R129, R196, R201 to R217, R237 to R239, R333). -/

namespace Sys2Proof.Machine

/-! ### Windows (R238, R239) -/

/-- The kinds of access that a window grants. -/
inductive Grants where
  | rd | wr | at_
  deriving DecidableEq, Repr

/-- The value of WIN_n (R239, Table 10.5): while EXPEN is 0 the windows are derived from DEFAULT. -/
def Windows.value (w : Windows) (n : Fin 8) : Word :=
  if w.expen then w.win[n]
  else if n ≠ 0 then 0
  else match w.default_ with
    | 0 => 0xF0000000FFF00000#64
    | 1 => 0xC0000000FFF00000#64
    | 2 => 0xF4000000FFF00000#64
    | _ => 0

/-- Whether a launch's group has a core among its members. -/
def Launch.inGroup (l : Launch) (g n : Nat) : Bool := l.groups.any fun x => x.idx == g && x.members.contains n

/-- Whether a window admits a source: a core, or none for the guest (R238). -/
def srcAdmitted (s : State) (owner : Nat) (w : Word) (src : Option Nat) (launch : Option Nat) : Bool :=
  let v := w.toNat
  let serves (p : Launch → Bool) : Bool := match launch.bind (findLaunch s) with
    | some l => l.cores.contains owner && p l
    | none => false
  match bits v 59 58, src with
  | 0, none => serves fun _ => true
  | 0, some n => serves fun l => l.cores.contains n
  | 1, some n => n / 4 == owner / 4
  | 2, some n => clusterOf n == clusterOf owner
  | 3, some n => serves fun l => l.inGroup (bits v 57 50) n
  | _, _ => false

/-- Whether a window admits an access of `n` bytes at an offset. -/
def windowAdmits (s : State) (owner : Nat) (w : Word) (off n : Nat) (k : Grants) (src launch : Option Nat) : Bool :=
  let v := w.toNat
  let granted := match k with
    | .rd => bit v 62
    | .wr => bit v 61
    | .at_ => bit v 60
  bit v 63 && granted && decide (bits v 19 8 ≤ off / 256) && decide ((off + n - 1) / 256 ≤ bits v 31 20)
    && srcAdmitted s owner w src launch

/-- What an access from outside meets at a pool: it is performed, held, or refused for its role or by the
windows. -/
inductive Verdict where
  | perform | later | role | window
  deriving DecidableEq, Repr

/-- The checks of a remote access at its owner: the role, and then the windows; a firmware core's access and a
core's own are not checked by windows (R173, R238). -/
def ownerCheck (s : State) (owner off n : Nat) (k : Grants) (src : Option Nat) (fw : Bool) (launch : Option Nat) :
    Verdict :=
  let co := getCore s (.tile owner)
  match roleAdmit co off n with
  | .no => .role
  | .later => .later
  | .yes =>
    if fw || src == some owner || (List.finRange 8).any fun i =>
        windowAdmits s owner (co.windows.value i) off n k src launch then .perform
    else .window

/-- The kind of an operation (R238). -/
def AOp.grants : AOp → Grants
  | .ld _ => .rd
  | .ldf => .rd
  | .feq => .rd
  | .fill => .rd
  | .st _ => .wr
  | .wb _ => .wr
  | .wbL2 => .wr
  | _ => .at_

/-- The bytes that an operation covers. -/
def AOp.bytes : AOp → Nat
  | .ld n => n
  | .st l => l.length
  | .amo _ w _ _ => w
  | .fill => 32
  | .wb _ => 32
  | _ => 8

/-- Whether an operation is one of full/empty. -/
def AOp.isFe : AOp → Bool
  | .ldf => true
  | .ldc => true
  | .stf _ => true
  | .stfo _ => true
  | .empty => true
  | .feq => true
  | _ => false

/-! ### Replies and refusals -/

/-- TVAL of cause 0x08 with reason 1 (R237). -/
def reason1 (va : Nat) : Word := w64 (2 ^ 56 + va % 2 ^ 48)

/-- Who issued an access. -/
def Access.who (a : Access) : Who := ⟨a.ctx, a.gen, a.depth, a.id⟩

/-- A reply leaves a home on VN1. -/
def sendReply (s : State) (node : Node) (a : Access) (v : Nat) : State :=
  sendPkt s node (nodeOf a.src) 1 (.reply a.who a.id v)

/-- A refusal leaves a home on VN1 (R237). -/
def refuse (s : State) (node : Node) (a : Access) (cause : Nat) (tval : Word) : State :=
  sendPkt s node (nodeOf a.src) 1 (.refusal a.who (if a.jn.isSome then none else some a.id) a.jn cause tval)

/-- An access performed at its home (R201). -/
def performAccess (s : State) (node : Node) (a : Access) : State :=
  let kind := a.kind
  let wr := writerNo a.src
  let failed (n : Nat) (go : State) : State := match failedIn s a.addr n with
    | some sram => let (v, s) := freshWord s; refuse s node a (failCause sram) v
    | none => go
  match a.op with
  | .ld n => failed n (sendReply (l2Use s a.addr n false (polAllocates a.pol)) node a (readN s.mem a.addr n))
  | .st bs =>
    let s := homeWrite s a.addr bs kind wr (some a.who) (polAllocates a.pol)
    match a.jn with
    | some j => sendPkt s node (nodeOf a.src) 1 (.ack j)
    | none => s
  | .amo k w v e =>
    failed w (let r := homeAmo s a.addr k w v e kind wr (some a.who) (polAllocates a.pol); sendReply r.2 node a r.1)
  | .fill =>
    let lo := a.addr / 32 * 32
    match failedIn s lo 32 with
    | some sram => let (v, s) := freshWord s; refuse s node a (failCause sram) v
    | none => sendPkt (l2Use s lo 32 false) node (nodeOf a.src) 1 (.fillReply a.who a.id a.addr (readN s.mem lo 32))
  | .wb l => sendPkt (homeMasked s a.addr l kind wr (some a.who)) node (nodeOf a.src) 1 (.wbAck a.id)
  | .wbL2 => sendPkt (l2Clean s (a.addr / 256)) node (nodeOf a.src) 1 (.wbAck a.id)
  | .pref => l2Use s a.addr 256 false
  | .ldf => failed 8 (sendReply s node a (fePerform s a.addr .ldf kind wr (some a.who)).1)
  | .ldc => failed 8 (let r := fePerform s a.addr .ldc kind wr (some a.who); sendReply r.2 node a r.1)
  | op =>
    let r := fePerform s a.addr op kind wr (some a.who)
    sendReply r.2 node a r.1

/-- A remote access at the tile core that owns the address (R129, R196, R238); none while it is held. -/
def accessAtCore (s : State) (owner : Nat) (a : Access) : Option State :=
  let node := Node.core owner
  let off := a.addr - localAddr owner 0
  let src := match a.src with
    | .tile n => some n
    | .fw _ => none
  match ownerCheck s owner off a.op.bytes a.op.grants src (isFw a.src) a.launch with
  | .later => none
  | .role => some (refuse s node a (if a.op.isFe then 0x0A else 0x0B) (w64 a.va))
  | .window => some (refuse s node a 0x08 (reason1 a.va))
  | .perform =>
    let co := getCore s (.tile owner)
    let mustWait := match a.op with
      | .ldf => true
      | .ldc => true
      | .stf _ => true
      | _ => false
    if mustWait && (!feReady s a.addr a.op || feWaiters s (.tile owner) a.addr) then
      if 16 ≤ (co.feWaits.filter fun w => w.a.src != .tile owner).length then some (refuse s node a 0x0A (w64 a.va))
      else some (setCore s (.tile owner) { co with feWaits := co.feWaits ++ [⟨a⟩] })
    else some (performAccess s node a)

/-! ### The process image window (R333, R334) -/

/-- The address of the process image window, and of the engine's buffers that no view shows. -/
def imageBase : Nat := 0x700000000000
/-- The back input buffer, which received frames fill. -/
def imageBack : Nat := 0x700080000000

/-- Whether Table 14.17 admits an operation at an offset of the window. -/
def imageAdmits (off : Nat) (op : AOp) : Bool :=
  let out := decide (0x1000000 ≤ off ∧ off < 0x1400000)
  match op with
  | .ld _ => decide (off < 0x800200) || decide (0x801000 ≤ off ∧ off < 0x805000) || decide (0x1000000 ≤ off ∧ off < 0x1800000)
  | .st bs => decide (0x801000 ≤ off ∧ off < 0x805000) || out
      || (decide (0x810000 ≤ off ∧ off < 0x810200) && bs.length == 16 && off % 16 == 0)
  | .amo _ w _ _ => out && decide (w ≤ 8)
  | _ => false

/-- An entry appended to result queue `i % 4` of control core `i / 4`; none when the queue is full (R334). -/
def appendResult (s : State) (i : Nat) (value slate : Word) : Option State :=
  let c := Fin.ofNat 8 (i / 4)
  let q := Fin.ofNat 4 i
  let x := s.dev.ctrl[c]
  if 64 ≤ (x.results[q]).length then none
  else
    let x := { x with results := x.results.set q (x.results[q] ++ [(value, slate)]), tested := x.tested.set q (x.tested[q]) }
    some (modDev s fun d => { d with ctrl := d.ctrl.set c x })

/-- An access at the ingress/egress engine. -/
def accessAtImage (s : State) (a : Access) : State :=
  let off := a.addr - imageBase
  if !imageAdmits off a.op then refuse s .image a 0x08 (reason1 a.va)
  else if 0x810000 ≤ off ∧ off < 0x810200 then
    match a.op with
    | .st bs =>
      match appendResult s ((off - 0x810000) / 16) (w64 (natOf bs)) (w64 (natOf (bs.drop 8))) with
      | some s => match a.jn with
        | some j => sendPkt s .image (nodeOf a.src) 1 (.ack j)
        | none => s
      | none => refuse s .image a 0x29 (w64 a.va)
    | _ => refuse s .image a 0x08 (reason1 a.va)
  else performAccess s .image a

/-! ### The guest port and the links to the outside (R364, R366) -/

/-- The first submit address of the guest port. -/
def submitBase : Nat := 0x5FFFFFFFF000

/-- GQ_q as a load of a submit address or SYSR reads it (Table 16.5). -/
def guestQueueWord (s : State) (q : Fin 64) : Word :=
  let x := s.dev.guest.queues[q]
  let out := s.dev.guest.reqs.countP (·.q == q)
  w64 (b2n x.valid * 2 ^ 63 + b2n x.held * 2 ^ 62 + b2n x.block * 2 ^ 61 + x.asid.toNat * 2 ^ 48 + x.depth % 256 * 2 ^ 40
    + out % 256 * 2 ^ 32 + x.launch % 2 ^ 16 * 2 ^ 16)

/-- What a read of `n` bytes in the 64 bytes of a submit address returns: GQ_q from its first byte, and 0 above it (R366; log
entry 124). -/
def submitRead (s : State) (pa n : Nat) : Nat :=
  let off := pa - submitBase
  (guestQueueWord s (Fin.ofNat 64 (off / 64))).toNat / 256 ^ (off % 64) % 256 ^ n

/-- An access at the guest port; none where GUEST_SUBMIT handles it. Guest memory that no trained link reaches
refuses (log entry 18). -/
def accessAtGuest (s : State) (a : Access) : Option State :=
  if submitBase ≤ a.addr then
    match a.op with
    | .ld n => some (sendReply s .guest a (submitRead s a.addr n))
    | .st bs => if bs.length = 64 then none else some (refuse s .guest a 0x29 (w64 a.va))
    | _ => some (refuse s .guest a 0x08 (reason1 a.va))
  else if s.dev.guest.up then some (performAccess s .guest a)
  else some (refuse s .guest a 0x08 (reason1 a.va))

/-- An access at the continuity port: refused while the link is down (R364). -/
def accessAtPartner (s : State) (a : Access) : State :=
  if s.dev.pair.linkUp then performAccess s .partner a else refuse s .partner a 0x08 (reason1 a.va)

/-- An access at its home; none while it may not be performed (R190, R191, R219). -/
def accessAt (s : State) (node : Node) (a : Access) : Option State :=
  match node with
  | .core c => accessAtCore s c a
  | .image => some (accessAtImage s a)
  | .guest => accessAtGuest s a
  | .partner => some (accessAtPartner s a)
  | .slice _ => if homeHolds s a.addr then none else some (performAccess s node a)
  | _ => some (performAccess s node a)

/-- Whether the access at index `n` stands behind one that the old home of its line or page forwards: forwarded
accesses are performed in their order of forwarding, and before the others (R190 step 5, R219 step 4). -/
def behindForwarded (s : State) (n : Nat) (p : Packet) (addr : Nat) : Bool :=
  if p.fwd then (s.net.take n).any fun q => (q.forwardedTo p.dst).isSome else forwardedAhead s p.dst addr

/-- REMOTE_ACCESS_ARRIVAL: the packet at index `n` reaches its home (R238). -/
def execRemoteAccessArrival (n : Nat) (s : State) : Out :=
  match takePkt s n with
  | some (⟨src, dst, vn, .access a, q, fwd⟩, t) =>
    if behindForwarded s n ⟨src, dst, vn, .access a, q, fwd⟩ a.addr then event s else event ((accessAt t dst a).getD s)
  | _ => event s

/-! ### The wait table (R196) -/

/-- A waiting operation is not performed after all: the own core's bundle issues anew and meets its cause, and a remote
operation is refused. -/
def feWaitRefuse (s : State) (ag : Agent) (a : Access) (cause : Nat) (tval : Word) : State :=
  if a.src = ag then reissue s a.who else refuse s (nodeOf ag) a cause tval

/-- FE_WAIT_DONE: the waiting operation at index `i` is performed when its condition holds and no earlier one that
waits on its word may be performed. The bank's role admits it as at any access (R139), and the sector has no error
that a read would meet (R191). -/
def feWaitDone (s : State) (ag : Agent) (i : Nat) : State :=
  let co := getCore s ag
  match co.feWaits[i]? with
  | none => s
  | some ⟨a⟩ =>
    let t := modCore s ag fun co => { co with feWaits := co.feWaits.eraseIdx i }
    match roleAdmit co (a.addr - localAddr (agentNo ag) 0) 8 with
    | .later => s
    | .no => feWaitRefuse t ag a 0x0A (w64 a.va)
    | .yes =>
      if !feReady s a.addr a.op || (co.feWaits.take i).any (feFirst s a.addr) then s
      else
        match if a.op == .ldf || a.op == .ldc then failedIn s a.addr 8 else none with
        | some sram => let (v, t) := freshWord t; feWaitRefuse t ag a (failCause sram) v
        | none =>
          let r := fePerform t a.addr a.op a.kind (writerNo a.src) (some a.who)
          if a.src = ag then answer r.2 a.who (w64 r.1) else sendReply r.2 (nodeOf ag) a r.1

/-- FE_WAIT_DONE (R196). -/
def execFeWaitDone (ag : Agent) (i : Nat) (s : State) : Out := event (feWaitDone s ag i)

/-! ### What comes back to a core -/

/-- The agent at a place on the networks. -/
def agentAt : Node → Option Agent
  | .core n => some (.tile n)
  | .fw k => some (.fw k)
  | _ => none

/-- The load-return slot of a request is free (R234). -/
def freeLoad (s : State) (a : Agent) (id : Nat) : State :=
  modCore s a fun co => { co with loads := co.loads.filter (· ≠ id) }

/-- A value for the request of a number: it lands in the register that awaits it, or answers the bundle that
waits for it; a reply whose activation has ended, or has been killed, is discarded (R97). -/
def landReply (s : State) (w : Who) (id v : Nat) : State :=
  match findActivation s w.ctx w.gen with
  | none => s
  | some c =>
    match c.awaits.find? (·.id == id) with
    | some x =>
      let s := modActivation s w.ctx w.gen fun y =>
        { (if c.killed then y else y.land x.what v) with awaits := y.awaits.filter (·.id != id) }
      if c.killed then s
      else match x.what with
      | .lane d _ _ => if (getCtx s w.ctx).gen = w.gen then finishVec s w.ctx d else s
      | _ => s
    | none => if c.grants.any (·.id == id) then answer s { w with id := id } (w64 v) else s

/-- A request that its owner has refused without a value: nothing is written (R267). A bundle that waits for it goes
on. The number 0 is no request's: a request without an answer, such as BAR.TX, carries it (R255). -/
def dropReply (s : State) (w : Who) (id : Nat) : State :=
  match findActivation s w.ctx w.gen with
  | none => s
  | some c =>
    if id = 0 then s
    else if c.awaits.any (·.id == id) then
      modActivation s w.ctx w.gen fun c => { c with awaits := c.awaits.filter (·.id != id) }
    else if c.grants.any (·.id == id) then answer s { w with id := id } (w64 (2 ^ 63))
    else s

/-- A fetched sector that has come back: it fills its line where the line still waits for it, and the load takes
its bytes of the sector, with those that earlier stores of its core had put there when it issued (R184, R206). -/
def landFill (s : State) (ag : Agent) (w : Who) (id pa v : Nat) : State :=
  match (getCore s ag).fills.find? (·.id == id) with
  | none => landReply s w id (v >>> (8 * (pa % 32)))
  | some f =>
    let x := BitVec.ofNat 256 v
    let s := modCore s ag fun co => { co with fills := co.fills.filter (·.id != id) }
    let s := if f.live then l1Fill s ag pa (overlay f.mask f.data x).toNat else s
    landReply s w id ((overlay f.own f.ownData x).toNat >>> (8 * (pa % 32)))

/-- ACCESS_REPLY_ARRIVAL (R201, R234): a reply at index `n` reaches the core that asked. -/
def execAccessReplyArrival (n : Nat) (s : State) : Out :=
  match takePkt s n with
  | some (⟨_, dst, _, .reply w id v, _, _⟩, t) =>
    match agentAt dst with
    | some ag => event (landReply (freeLoad t ag id) w id v)
    | none => event s
  | some (⟨_, dst, _, .fillReply w id pa v, _, _⟩, t) =>
    match agentAt dst with
    | some ag => event (landFill (freeLoad t ag id) ag w id pa v)
    | none => event s
  | _ => event s

/-- A journal entry is free, and a spawn that waited for it waits for it no longer. -/
def freeJournal (s : State) (ag : Agent) (j : Nat) : State :=
  modCore s ag fun co => { co with
    journal := co.journal.filter (·.idx != j)
    spawnOut := co.spawnOut.map fun x => { x with waitFor := x.waitFor.filter (· ≠ j) }
    recruits := co.recruits.map fun x => { x with waitFor := x.waitFor.filter (· ≠ j) } }

/-- STORE_ACK_ARRIVAL (R216): an acknowledgement at index `n` frees its journal entry. -/
def execStoreAckArrival (n : Nat) (s : State) : Out :=
  match takePkt s n with
  | some (⟨_, dst, _, .ack j, _, _⟩, t) =>
    match agentAt dst with
    | some ag => event (freeJournal t ag j)
    | none => event s
  | _ => event s

/-- TVAL of causes 0x29 and 0x2A: the address and the journal entry (R216). -/
def journalTval (e : JEntry) : Word := w64 (e.va.toNat % 2 ^ 48 + e.idx % 64 * 2 ^ 48)

/-- A refusal for a journal entry: the entry is removed, and the context takes cause 0x29 for a store, or the
refusal's own cause for a message (R216, R237). -/
def refuseEntry (s : State) (ag : Agent) (j cause : Nat) (tval : Word) : State :=
  match (getCore s ag).journal.find? (·.idx == j) with
  | none => s
  | some e =>
    let s := freeJournal s ag j
    match e.packet.body with
    | .access _ => raiseAt s e.who 0x29 (journalTval e) [e.home]
    | _ => if cause = 0x29 then raiseAt s e.who 0x29 (journalTval e) [e.home] else raiseAsync s e.who cause tval

/-- REFUSAL_ARRIVAL (R237): a refused load, atomic or full/empty operation writes 0 before its cause; a refused
barrier or ring operation writes nothing (R262, R267). -/
def execRefusalArrival (n : Nat) (s : State) : Out :=
  match takePkt s n with
  | some (⟨_, dst, _, .refusal w id jn cause tval, _, _⟩, t) =>
    match agentAt dst with
    | none => event s
    | some ag =>
      let t := match jn with
        | some j => refuseEntry t ag j cause tval
        | none => t
      match id with
      | none => event t
      | some id =>
        let t := modCore (freeLoad t ag id) ag fun co => { co with fills := co.fills.filter (·.id != id) }
        let t := if cause = 0x09 ∨ cause = 0x0D then dropReply t w id else landReply t w id 0
        event (raiseAsync t w cause tval)
  | _ => event s

/-- The journal entry that a packet names. -/
def Body.entry : Body → Option Nat
  | .access a => a.jn
  | .message _ _ jn => jn
  | .deposit _ _ jn => jn
  | .putn _ jn _ _ _ _ _ => jn
  | .ack j => some j
  | .refusal _ _ jn _ _ => jn
  | _ => none

/-- Nothing on its way names a journal entry of a core any longer: a request that has not been performed never is
(R216). -/
def forgetEntry (s : State) (ag : Agent) (j : Nat) : State :=
  let stays (p : Packet) : Bool := p.body.entry != some j || nodeOf ag != match p.body with
    | .ack _ => p.dst
    | .refusal _ _ _ _ _ => p.dst
    | _ => p.src
  modDev { s with net := s.net.filter stays } fun d => { d with lost := d.lost.filter stays }

/-- The retransmission of a journal entry of a core (R216, R217): what a failing link has lost of it, the request or its
acknowledgement, is on its way again. The home performs no duplicate of a request that has not been lost. -/
def retransmit (s : State) (ag : Agent) (j : Nat) : State :=
  let mine (p : Packet) : Bool := p.body.entry == some j && nodeOf ag == match p.body with
    | .ack _ => p.dst
    | .refusal _ _ _ _ _ => p.dst
    | _ => p.src
  modDev { s with net := s.net ++ s.dev.lost.filter mine } fun d => { d with lost := d.lost.filter fun p => !mine p }

/-- JOURNAL_TIMEOUT (R216): an entry is retransmitted at most three times, and the home performs no duplicate; the
fourth time-out removes it and raises cause 0x2A. -/
def execJournalTimeout (ag : Agent) (e : Fin 64) (s : State) : Out :=
  match (getCore s ag).journal.find? (·.idx == e.val) with
  | none => event s
  | some x =>
    if x.tries < 3 then
      event (retransmit (modCore s ag fun co => { co with journal := co.journal.map fun y =>
        if y.idx = x.idx then { y with tries := y.tries + 1 } else y }) ag x.idx)
    else event (raiseAt (freeJournal (forgetEntry s ag x.idx) ag x.idx) x.who 0x2A (journalTval x) [x.home])

/-- WRITE_BACK_ACK (R208): the acknowledgement of a write-back at index `n`. -/
def execWriteBackAck (n : Nat) (s : State) : Out :=
  match takePkt s n with
  | some (⟨_, dst, _, .wbAck id, _, _⟩, t) =>
    match agentAt dst with
    | some ag => event (modCore t ag fun co => { co with
        writeBacks := co.writeBacks.filter (·.id != id)
        spawnOut := co.spawnOut.map fun x => { x with wbFor := x.wbFor.filter (· ≠ id) }
        recruits := co.recruits.map fun x => { x with wbFor := x.wbFor.filter (· ≠ id) } })
    | none => event s
  | _ => event s

/-- HOST_ACCESS_TIMEOUT (R375): the bridge refuses the access at index `n` to host memory. -/
def execHostAccessTimeout (n : Nat) (s : State) : Out :=
  match takePkt s n with
  | some (⟨_, .host, _, .access a, _, _⟩, t) => event (refuse t .host a 0x08 (reason1 a.va))
  | _ => event s

/-- IN_FLIGHT_WRITE_LANDS (R110): the write of a register is in flight no longer. -/
def execInFlightWriteLands (k : CtxKey) (r : RegName) (s : State) : Out :=
  event (modCtx s k fun c => { c with busy := c.busy.filter (· ≠ r) })

/-- Whether some pair of tiles has no route that avoids the failed links (R232, R386). One failure leaves every pair a route. -/
def noRoute (down : List (Nat × Nat)) : Bool :=
  decide (2 ≤ down.length) && (List.range 512).any fun a => (List.range 512).any fun b =>
    (routeMode down (tileOfNo a) (tileOfNo b)).isNone

/-- Whether a packet may be lost with a link and is sent again: a request that its interface has numbered, or the
reply or acknowledgement of one, which its home keeps (R217). -/
def Packet.repaired (p : Packet) : Bool :=
  numbered p.vn || match p.body with
    | .reply _ _ _ => true
    | .fillReply _ _ _ _ => true
    | .ack _ => true
    | .wbAck _ => true
    | _ => false

/-- The packets on the routes that have used a link which fails (R217, R232): their pairs are in repair, and any of them may have been lost. A
request that is lost leaves a gap in its pair's numbers. A reply or an acknowledgement that is lost comes with the
retransmission of its request: the home does not perform the duplicate and answers it as it has answered the request.
A core has at most 32 such requests under way (R234), so the 32 replies that the home records suffice. -/
def loseOn (s : State) (src dst : Nat) : State :=
  let on (p : Packet) : Bool := p.repaired && !stillQueued s p && routeCrosses s.dev.linksDown src dst p.src p.dst
  let marked := s.net.zipIdx.map fun x => (x.1, on x.1 && Config.pick (s.fresh + x.2) % 2 == 1)
  let pairs := (s.net.filter on).map fun p => if numbered p.vn then (p.src, p.dst) else (p.dst, p.src)
  modDev { s with net := (marked.filter (!·.2)).map (·.1), fresh := s.fresh + s.net.length } fun d => { d with
    lost := d.lost ++ (marked.filter (·.2)).map (·.1), repair := (d.repair ++ pairs).dedup }

/-- Whether a pair has a request outstanding (R217). -/
def outstanding (s : State) (x : Node × Node) : Bool :=
  ((s.net ++ s.dev.lost).any fun p => p.repaired && ((p.src, p.dst) == x || (p.dst, p.src) == x))
    || s.cores.any fun c => nodeOf c.1 == x.1 && c.2.journal.any fun e => e.home == x.2

/-- The route mode returns to normal when no pair in repair has a request outstanding (R217). -/
def endRepair (s : State) : State :=
  if s.dev.repair.any (outstanding s) then s else modDev s fun d => { d with repair := [] }

/-- A lost packet is sent again, by the new route (R217). -/
def resendLost (s : State) (n : Nat) : State :=
  match s.dev.lost[n]? with
  | none => endRepair s
  | some p => modDev { s with net := s.net ++ [p] } fun d => { d with lost := d.lost.eraseIdx n }

/-- LINK_REROUTE (R217): FW4 takes note of the link from tile `src` to tile `dst`, by `16x + y`, which has failed or works
again, and repairs the traffic that was on it; cause 0x2D goes to the dailies, and REPLACE shows when a pair of tiles
has no route left (R386). -/
def execLinkReroute (src dst : Nat) (up : Bool) (s : State) : Out :=
  let link := (src, dst)
  let rest := s.dev.linksDown.filter (· ≠ link)
  let down := if up then rest else link :: rest
  let t := modDev (if up then s else loseOn s src dst) fun d => { d with
    linksDown := down, replace := if noRoute down then d.replace ||| 8 else d.replace }
  if up then event t
  else
    let (v, s) := freshWord t
    event (raiseFw (record s 0x2D src [dst]) (logCore s) 0x2D v (.tile (4 * src)))

end Sys2Proof.Machine
end

