-- ==== Sys2Proof/Machine/Regs.lean ====
section
/-! DEFINITION. System registers and device registers: what SYSR and SYSW read and write, and the actions of the
device registers' fields (R2, R6, R49, R188 to R190, R239, R315, R316, R354, R358, R365, R378 to R383, R388). -/

namespace Sys2Proof.Machine

/-! ### Time, takes and slates -/

/-- MEMBER of the package: 0 while it is not paired (R319). -/
def memberBit (s : State) : Bool := s.dev.pair.paired && s.dev.pair.member
/-- T of clapper `n` (R317). -/
def TimeBlock.due (t : TimeBlock) (n : Nat) : Nat := t.epochNow + n * t.period
/-- TAKENO (Table 14.7). -/
def takeNo (s : State) : Nat := s.dev.time.takeno % 2 ^ 48
/-- A slate from its fields (Table 14.9), stamped by this package. -/
def mkSlate (s : State) (take phase origin : Nat) : Word :=
  w64 (take % 2 ^ 48 * 2 ^ 16 + phase % 256 * 256 + b2n (memberBit s) * 128 + origin % 128)
/-- SLATENOW (Table 14.8). -/
def slateNow (s : State) : Word := if s.dev.time.fired then mkSlate s (takeNo s) 0 1 else 0
/-- A slate with bit 7 set to MEMBER. -/
def stampMember (s : State) (x : Word) : Word :=
  (x &&& ~~~(0x80#64)) ||| w64 (b2n (memberBit s) * 128)
/-- Oldest (R320). -/
def oldest (s : State) (x y : Word) : Word :=
  if x = 0 then y
  else if y = 0 then x
  else
    let o := if x.toNat / 256 ≠ y.toNat / 256 then (if x.toNat / 256 < y.toNat / 256 then x else y)
      else if x.toNat % 128 ≤ y.toNat % 128 then x else y
    stampMember s o
/-- The age of a slate (R228). -/
def slateAge (s : State) (x : Word) : Nat := (takeNo s + 2 ^ 48 - x.toNat / 2 ^ 16) % 2 ^ 48

/-- Word `i` of a call-sheet entry. -/
def SheetEntry.word (e : SheetEntry) (i : Nat) : Nat := ((e.words[i]?).getD 0).toNat
/-- VALID, ABS, ON, EVERY, PHASE and OFFSET (Table 14.13). -/
def SheetEntry.valid (e : SheetEntry) : Bool := bit (e.word 0) 63
def SheetEntry.abs (e : SheetEntry) : Bool := bit (e.word 0) 62
def SheetEntry.on (e : SheetEntry) : Nat := bits (e.word 0) 55 48
def SheetEntry.every (e : SheetEntry) : Nat := bits (e.word 0) 47 40
def SheetEntry.phase (e : SheetEntry) : Nat := bits (e.word 0) 39 32
def SheetEntry.offset (e : SheetEntry) : Nat := bits (e.word 0) 31 0

/-- The time of an entry in the current take. -/
def entryTime (t : TimeBlock) (e : SheetEntry) : Nat := if e.abs then e.word 1 else t.due t.takeno + e.offset

/-- Whether an entry is still to fire: a periodic one in the current take, whether or not clappers go on (R317, R327), and a
one-shot one at all. -/
def entryDue (t : TimeBlock) (e : SheetEntry) : Bool :=
  e.valid && (e.abs || (t.fired && !e.fired && e.every != 0 && t.takeno % e.every == e.on))

/-- The smallest of some numbers. -/
def leastOf : List Nat → Option Nat
  | [] => none
  | x :: l => some (l.foldl Nat.min x)

/-- The time by which FW2 posts the next entry of the call sheet: 12.5 ns after the later of its own time and the post
before it (R327). -/
def postBy (s : State) : Option Nat :=
  if fwWorks s 2 then
    (leastOf ((s.dev.sheet.active.filter (entryDue s.dev.time)).map (entryTime s.dev.time))).map fun x =>
      Nat.max x s.dev.sheet.posted + 12
  else none

/-- Whether the egress swap of the current take is still to come (R332). -/
def swapPending (s : State) : Bool :=
  let t := s.dev.time
  t.run && t.fired && !s.dev.image.egressDone && decide (s.dev.power.failing ≤ 1)

/-- The half-take whose heartbeat is to be sent next, as 2n or 2n + 1 of take n, and its time (R23, R362). -/
def beatDue (s : State) : Option (Nat × Nat) :=
  let t := s.dev.time
  let p := s.dev.pair
  let n := 2 * t.takeno
  if !(p.paired && t.run && t.fired && fwWorks s 6) then none
  else if p.lastBeat == some n then some (n + 1, t.due t.takeno + t.period / 2)
  else if p.lastBeat == some (n + 1) then none
  else some (n, t.due t.takeno)

/-- The time of the mirror marker that is to be sent for the coming clapper (R359). -/
def markerDue (s : State) : Option Nat :=
  let t := s.dev.time
  let p := s.dev.pair
  if p.paired && t.run && !p.markerSent.contains t.first then some (t.due t.first - t.guardNs) else none

/-- The last time at which FW6 sends the current take's digest: it is sent before the clapper (R361). -/
def digestDue (s : State) : Option Nat :=
  let t := s.dev.time
  let p := s.dev.pair
  if p.paired && t.run && t.fired && s.dev.image.egressDone && fwWorks s 6 && !(p.digestSent == some t.takeno) then
    some (t.due t.first - 5)
  else none

/-- The time of half-take `h`, which is 2n or 2n + 1 of take n (R362). -/
def TimeBlock.halfDue (t : TimeBlock) (h : Nat) : Nat := t.due (h / 2) + h % 2 * (t.period / 2)

/-- The half-take whose heartbeat of the partner is judged next, and the time at which it is missed when none has arrived:
HBTOL after its own (R23, R362). -/
def missDue (s : State) : Option (Nat × Nat) :=
  let t := s.dev.time
  let p := s.dev.pair
  let h := match p.judged with
    | some j => j + 1
    | none => 2 * t.takeno
  if p.paired && t.run && t.fired && fwWorks s 6 then some (h, t.halfDue h + p.hbtol) else none

/-- Whether the partner's marker for the current take has not arrived by its clapper (R360). -/
def unreconciled (s : State) : Bool :=
  let p := s.dev.pair
  p.paired && s.dev.time.fired && s.dev.power.failing == 0 && !p.markerGot.contains s.dev.time.takeno

/-- A take whose digest the partner has not sent two clappers later, or FW6 could not take itself (R361). -/
def digestLate (s : State) : Option Nat := (s.dev.pair.ownDigests.find? fun x => x.1 + 2 ≤ s.dev.time.takeno).map (·.1)

/-- The time of FW5's next tick: while a floor is not 0, until power fails (R417). -/
def tickDue (s : State) : Option Nat :=
  let p := s.dev.power
  if fwWorks s 5 && p.failing == 0 && (p.floor.1 != 0 || p.floor.2 != 0) then p.tick else none

/-- How far disciplined time may move on before the event that is due next takes place: the clapper, within 4 ns (R317),
the egress swap (R332), the post of a call-sheet entry (R327), what a package of a pair sends and what it finds missing
(R359 to R362), and FW5's tick (R417). -/
def timeCap (s : State) : Option Nat :=
  let t := s.dev.time
  (leastOf ((if t.run then [t.due t.first + 4] else []) ++ (if swapPending s then [t.due t.takeno + t.egress] else [])
    ++ (postBy s).toList ++ ((beatDue s).map (·.2)).toList ++ (markerDue s).toList ++ (digestDue s).toList
    ++ ((missDue s).map (·.2)).toList ++ (if unreconciled s || (digestLate s).isSome then [t.dtime] else [])
    ++ (tickDue s).toList)).map (Nat.max t.dtime)

/-- A signed count moved towards 0 by `k`. -/
def towardsZero (k : Nat) (x : Int) : Int := if 0 ≤ x then max 0 (x - k) else min 0 (x + k)

/-- Disciplined time moves on to `n`: a correction is slewed at 1 ns per µs, and so is die 1's copy to die 0's (R315;
log entry 6). -/
def TimeBlock.advance (t : TimeBlock) (n : Nat) : TimeBlock :=
  let k := (t.slewAcc + (n - t.dtime)) / 1000
  { t with
    dtime := n
    dtime1 := ((n : Int) + towardsZero k ((t.dtime1 : Int) - t.dtime)).toNat
    slewLeft := towardsZero k t.slewLeft
    slewAcc := (t.slewAcc + (n - t.dtime)) % 1000 }

/-- Disciplined time moves on to a given DTIME: it never runs back, nor past what is due (R315, R317). -/
def timeTo (s : State) (t : Nat) : Option State :=
  let past := match timeCap s with
    | some cap => decide (cap < t)
    | none => false
  if decide (t < s.dev.time.dtime) || past then none
  else some (modDev s fun d => { d with time := d.time.advance t })

/-- The copy of DTIME that a die reads (R315). -/
def TimeBlock.copy (t : TimeBlock) (die : Nat) : Nat := if die = 0 then t.dtime else t.dtime1

/-- A read of DTIME on a die: disciplined time has moved on, not past what is due (R315; log entry 6). -/
def readTimeOn (s : State) (die : Nat) : Nat × State :=
  let n := s.dev.time.dtime + Config.elapsed s.fresh
  let n := match timeCap s with
    | some cap => Nat.min n cap
    | none => n
  let s := { modDev s (fun d => { d with time := d.time.advance n }) with fresh := s.fresh + 1 }
  (s.dev.time.copy die, s)

/-- A read of DTIME by the issuing core. -/
def readTime (s : State) : Nat × State := readTimeOn s (dieOfAgent s.cur.agent)

/-- A cause that a device block raises to a firmware core. The number of a source that is no core is open (log
entry 16). -/
def raiseDev (s : State) (k code : Nat) (tval : Word) : State :=
  let (v, s) := freshWord s
  postMail s k ⟨mailWord0 s 0 code false (v.toNat % 2 ^ 11), tval, 0, 0⟩

/-! ### The registers of a context -/

/-- CORELID (Table 5.4). -/
def corelid (s : State) : Word :=
  let c := opCtx s
  let a := s.cur.agent
  let det := match launchOf s c with
    | some l => l.det
    | none => false
  w64 (c.pri % 4 * 2 ^ 56 + b2n c.spawned * 2 ^ 55 + (match c.queue with | some q => q.val | none => 0) * 2 ^ 48
    + c.gen.toNat * 2 ^ 32 + b2n det * 2 ^ 31 + s.cur.slot % 64 * 2 ^ 16 + b2n (isFw a) * 2 ^ 12 + agentNo a % 2 ^ 11)

/-- The per-take budget that remains to a context's task; 0xFFFFFFFF without one (Table 4.3). That is what a firmware
core reads from reset on, although the table's Reset column gives TAKELEFT 0: the Meaning column says 0xFFFFFFFF for an
activation of no task (DESIGN CHOICE, log entry 14). -/
def takeLeft (s : State) (k : CtxKey) (c : Ctx) : Nat :=
  match c.queue with
  | some q =>
    let x := (getCore s k.agent).queues[q]
    if x.serial && !c.spawned then x.takeLeft else 0xFFFFFFFF
  | none => 0xFFFFFFFF

/-- The effective step of a die: the largest of GSTEP, FLOOR and a trip's 7 (R378). -/
def dieStep (p : Power) (die : Nat) : Nat :=
  let pick (x : Nat × Nat) : Nat := if die = 0 then x.1 else x.2
  let trip := if die = 0 then p.trip.1 else p.trip.2
  Nat.max (Nat.max (pick p.gstep) (pick p.floor)) (if trip then 7 else 0)

/-- Tokens of a launch that its running multiplies and transfers hold (R376). -/
def tokensHeld (s : State) (l : Launch) : Nat :=
  Nat.min l.tokens (s.cores.foldl (fun n c =>
    n + c.2.matOps.countP (fun o => o.phase == .running && decide (o.kind ≤ 2) && o.launch == some l.la)
      + c.2.xfers.countP (fun x => x.state == 2 && x.launch == some l.la)) 0)

/-- THROTTLE (Table 17.1). -/
def throttle (s : State) : Word :=
  let die := dieOfAgent s.cur.agent
  let step := if die = 0 then s.dev.power.step.1 else s.dev.power.step.2
  match launchOf s (opCtx s) with
  | some l => w64 (l.tokens % 2 ^ 16 * 2 ^ 32 + tokensHeld s l % 2 ^ 16 * 2 ^ 16 + die * 2 ^ 8 + step % 8)
  | none => w64 (die * 2 ^ 8 + step % 8)

/-- FEATURES (Table 18.7). -/
def features (s : State) : Word := w64 (1 * 2 ^ 56 + 0xA0 * 2 ^ 48 + s.dev.sec.mcrev.toNat * 2 ^ 32 + 0x7F)

/-- WPCTL_n as it reads (Table 15.11). -/
def Watch.word (w : Watch) : Word :=
  w64 (b2n w.en * 2 ^ 63 + w.deliv % 4 * 2 ^ 61 + w.err % 8 * 2 ^ 58 + w.hits % 2 ^ 16 * 2 ^ 32 + w.size % 16)

/-- A read of WPCTL_n returns and clears HITS. -/
def readWatch (s : State) (a : Agent) (n : Fin 4) : Word × State :=
  ((getCore s a).watches[n].word,
    modCore s a fun co => { co with watches := co.watches.set n { co.watches[n] with hits := 0 } })

/-- A system register below 0x200 as it reads (Table 2.13); an unassigned number reads 0. -/
def readSys (s : State) (num : Nat) : Word × State :=
  let c := opCtx s
  match num with
  | 0x000 => (corelid s, s)
  | 0x001 => (slateNow s, s)
  | 0x002 => (w64 (takeNo s), s)
  | 0x003 =>
    let s := elapse s
    (w64 (takeLeft s s.cur c * 2 ^ 32 + (curCtx s).actLeft % 2 ^ 32), s)
  | 0x004 => (c.cpyid, s)
  | 0x005 => (c.uepc, s)
  | 0x006 => (w64 (c.gateIdx % 256 * 256 + c.depth % 8), s)
  | 0x007 => (throttle s, s)
  | 0x008 => (c.fpctl, s)
  | 0x009 => (features s, s)
  | 0x00A => (c.arena, s)
  | 0x100 => (c.cause, s)
  | 0x101 => (c.epc, s)
  | 0x102 => (c.tval, s)
  | 0x103 => (c.tvec, s)
  | 0x104 => (c.status, s)
  | 0x105 => (c.asid.zeroExtend 64, s)
  | _ =>
    let co := curCore s
    if isFw s.cur.agent then (0, s)
    else if 0x120 ≤ num ∧ num < 0x128 then
      let n := Fin.ofNat 4 ((num - 0x120) / 2)
      if num % 2 = 0 then (co.watches[n].addr.zeroExtend 64, s) else readWatch s s.cur.agent n
    else if 0x140 ≤ num ∧ num < 0x148 then (co.windows.value (Fin.ofNat 8 (num - 0x140)), s)
    else if num = 0x148 then (w64 (b2n co.windows.expen * 2 ^ 63 + co.windows.default_ % 4), s)
    else (0, s)

/-- The home of a home address. -/
def homeOf (s : State) (a : Nat) : Node := if a / 2 ^ 44 = 0xF then .core (a / 2 ^ 33 % 2 ^ 11) else homeNode s a

/-- The registrations that a home holds, but for one watchpoint (R354). -/
def registrations (s : State) (h : Node) (a : Agent) (n : Fin 4) : Nat :=
  s.cores.foldl (fun t c => t + (List.finRange 4).countP fun i =>
    let w := c.2.watches[i]
    w.en && homeOf s w.lo == h && !(c.1 == a && i == n)) 0

/-- A write of WPCTL_n for a context (R354): a write with EN set registers the range at its home, or fails with
ERR; one with EN clear removes the registration. -/
def writeWatch (s : State) (k : CtxKey) (n : Fin 4) (v : Word) : State :=
  let c := getCtx s k
  let put (s : State) (f : Watch → Watch) : State :=
    modCore s k.agent fun co => { co with watches := co.watches.set n (f co.watches[n]) }
  let size := v.toNat % 16
  let s := put s fun w => { w with en := false, deliv := bits v.toNat 62 61, size := size }
  if !bit v.toNat 63 then s
  else if size < 3 ∨ 12 < size then put s fun w => { w with err := 3 }
  else
    let va := (getCore s k.agent).watches[n].addr.toNat / 2 ^ size * 2 ^ size
    match resolve s k.agent c.asid false (w64 va) 0 .any with
    | .error _ => put s fun w => { w with err := 1 }
    | .ok (s, t) =>
      if 16 ≤ registrations s (t.node s k.agent) k.agent n then put s fun w => { w with err := 2 }
      else put s fun w => { w with en := true, err := 0, lo := t.addr k.agent, who := some ⟨k, c.gen, c.depth, 0⟩ }

/-- A write of WINCTL or of a window (R239). -/
def Windows.write (w : Windows) (num : Nat) (v : Word) : Windows :=
  if num = 0x148 then
    let e := bit v.toNat 63
    { expen := e, default_ := v.toNat % 4, win := if e && !w.expen then Vector.ofFn w.value else w.win }
  else if w.expen then { w with win := w.win.set (Fin.ofNat 8 (num - 0x140)) (v &&& 0xFFFC0000FFFFFF00#64) }
  else w

/-- STATUS as a write leaves it (Table 15.6): GFE, SS, COMPAT and UIE are stored, and a 1 clears LOSTA. -/
def statusWrite (old v : Word) : Word :=
  let kept := (old &&& ~~~(0xF00#64)) ||| (v &&& 0xF00#64)
  if v.getLsbD 15 then stSet kept 15 false else kept

/-- A write of a system register below 0x200 by the issuing context; one that is read-only or unassigned is
ignored. -/
def writeSys (s : State) (num : Nat) (v : Word) : State :=
  match num with
  | 0x005 => modCur s fun c => { c with uepc := v &&& 0xFFFFFFFFFFFF#64 }
  | 0x008 => modCur s fun c => { c with fpctl := fpWrite c.fpctl v }
  | 0x100 => modCur s fun c => { c with cause := v &&& 0x7BF#64 }
  | 0x101 => modCur s fun c => { c with epc := v }
  | 0x102 => modCur s fun c => { c with tval := v }
  | 0x103 => modCur s fun c => { c with tvec := v &&& 0xFFFFFFFFFFF8#64 }
  | 0x104 => modCur s fun c => { c with status := statusWrite c.status v }
  | 0x105 => modCur s fun c => { c with asid := v.truncate 12 }
  | _ =>
    if isFw s.cur.agent then s
    else if 0x120 ≤ num ∧ num < 0x128 then
      let n := Fin.ofNat 4 ((num - 0x120) / 2)
      if num % 2 = 0 then modCurCore s fun co =>
        { co with watches := co.watches.set n { co.watches[n] with addr := v.truncate 48 } }
      else writeWatch s s.cur n v
    else if 0x140 ≤ num ∧ num ≤ 0x148 then modCurCore s fun co => { co with windows := co.windows.write num v }
    else s

/-! ### Interleave domains (R188 to R190) -/

/-- The slices of domain `k` derived from NDOM (R188). -/
def derivedMask (ndom : Nat) : Vector Word 16 := Vector.ofFn fun k =>
  if k.val < 2 ^ ndom then w64 ((List.range 64).foldl (fun m i => if i % 2 ^ ndom = k.val then m + 2 ^ i else m) 0)
  else 0

/-- The granules' domains derived from NDOM (R188). -/
def derivedSel (ndom : Nat) : Vector Word 30 := Vector.ofFn fun j =>
  w64 ((List.range 16).foldl (fun v i => v + (16 * j.val + i) % 2 ^ ndom * 16 ^ i) 0)

/-- HASHMASK and DOMSEL as they read. -/
def Domains.maskRead (d : Domains) (n : Fin 16) : Word := match d.switch with
  | some w => w.newMask[n]
  | none => d.mask[n]
def Domains.selRead (d : Domains) (j : Fin 30) : Word := match d.switch with
  | some w => w.newSel[j]
  | none => d.sel[j]

/-- An accepted write begins a domain switch (R190 step 1). -/
def beginSwitch (s : State) (mask : Vector Word 16) (sel : Vector Word 30) (dom : Nat) : State :=
  modDev s fun d => { d with dom := { d.dom with
    switch := some ⟨d.dom.mask, d.dom.sel, mask, sel, dom, false, false, 0⟩, lastDom := dom } }

/-- Whether some granule selects a domain. -/
def selected (sel : Vector Word 30) (n : Nat) : Bool :=
  sel.toList.any fun w => (List.range 16).any fun i => w.toNat / 16 ^ i % 16 == n

/-- The refusal of domain values (R189): 1 for a slice in two domains, 2 for a granule in a domain with no
slices, 0 for none. -/
def domRefusal (mask : Vector Word 16) (sel : Vector Word 30) : Nat :=
  let twice := (List.finRange 16).any fun i => (List.finRange 16).any fun j => i != j && (mask[i] &&& mask[j]) != 0
  let void := (List.finRange 16).any fun i => mask[i] == 0 && selected sel i.val
  if twice then 1 else if void then 2 else 0

/-- A write of domain values that is refused with ERR, or begins a switch. -/
def setDomains (s : State) (mask : Vector Word 16) (sel : Vector Word 30) (dom : Nat) : State :=
  match domRefusal mask sel with
  | 0 => beginSwitch s mask sel dom
  | e => modDev s fun d => { d with dom := { d.dom with err := e } }

/-- A write of HASHMASK_n outside a switch (R189). -/
def hashmaskSet (s : State) (n : Fin 16) (v : Word) : State :=
  let d := s.dev.dom
  if d.expen then setDomains s (d.mask.set n v) d.sel n.val else s

/-- A write of DOMSEL_j outside a switch (R189). DEDUCED from Table 20.3: DOMSTAT.DOM then names the domain that the granule
moves to, of the lowest that moves; where none moves it is open (log entry 140). -/
def domselSet (s : State) (j : Fin 30) (v : Word) : State :=
  let d := s.dev.dom
  let nibble (w : Word) (i : Nat) : Nat := bits w.toNat (4 * i + 3) (4 * i)
  if d.expen then
    let (x, s) := freshWord s
    let dom := ((List.range 16).find? fun i => nibble v i != nibble d.sel[j] i).map (nibble v)
    setDomains s d.mask (d.sel.set j v) (dom.getD (x.toNat % 16))
  else s

/-- A write of L2CTL outside a switch (R188). -/
def l2ctlSet (s : State) (v : Word) : State :=
  let d := s.dev.dom
  let e := bit v.toNat 63
  let n := v.toNat % 4
  let s := modDev s fun x => { x with dom := { x.dom with expen := e, ndom := n } }
  if !e && (d.expen || n != d.ndom) then
    let (x, s) := freshWord s
    beginSwitch s (derivedMask n) (derivedSel n) (x.toNat % 16)
  else s

/-- A read of DOMSTAT returns and clears ERR (Table 8.9). -/
def domstatGet (s : State) : Word × State :=
  let d := s.dev.dom
  (w64 (b2n d.switch.isSome * 2 ^ 63 + d.lastDom % 16 * 2 ^ 56 + d.moved % 2 ^ 32 * 2 ^ 8 + d.err % 256),
    modDev s fun x => { x with dom := { x.dom with err := 0 } })

/-! ### The time block (R315 to R317) -/

/-- The DTIME of clapper 0 that TIMECTL and EPOCH give. -/
def TimeBlock.epochSet (t : TimeBlock) : Nat := if t.expen then t.epoch.toNat else t.phase

/-- The first clapper when RUN becomes 1 at DTIME `now` (R317). -/
def firstClapper (t : TimeBlock) (now : Nat) : Nat := (now + 2 * t.period - t.epochNow + t.period - 1) / t.period

/-- A write of TIMECTL (R6, R316, R317). Without RUN no image swaps, so an egress swap that was to come does not. -/
def timectlSet (s : State) (v : Word) : State :=
  let (now, s) := readTime s
  modDev s fun d =>
    let t := d.time
    let x := v.toNat
    let phase := x % 2 ^ 32
    let g := Nat.max 400 (bits x 58 48)
    if t.period ≤ phase then { d with time := { t with err := true } }
    else
      let locked := t.run && (phase != t.phase || g != t.guardNs)
      let t := if locked then { t with err := true } else { t with phase := phase, guardNs := g }
      let e := bit x 63
      let t := { t with epoch := if e && !t.expen then w64 d.time.phase else t.epoch, expen := e }
      let t := if t.run then t else { t with epochNow := t.epochSet }
      let run := bit x 62
      { d with
        time := { t with run := run, first := if run && !t.run then firstClapper t now else t.first }
        pair := if run && !t.run then { d.pair with judged := some (2 * firstClapper t now - 1) } else d.pair
        image := { d.image with egressDone := d.image.egressDone || !run } }

/-- A write of TAKECFG (R316). -/
def takecfgSet (s : State) (v : Word) : State :=
  modDev s fun d =>
    let t := d.time
    let p := v.toNat % 2 ^ 32
    let e := bits v.toNat 63 32
    if t.run || decide (p < 10000) || decide (100000000 < p) || decide (p ≤ e) || decide (p ≤ t.phase) then
      { d with time := { t with err := true } }
    else { d with time := { t with period := p, egress := e } }

/-- A write of EPOCH (R6, R316). -/
def epochSet (s : State) (v : Word) : State :=
  modDev s fun d =>
    let t := d.time
    if t.run then { d with time := { t with err := true } }
    else if !t.expen then d
    else { d with time := { t with epoch := v, epochNow := v.toNat } }

/-- STEP added to the correction that is being slewed (R316). -/
def servoAdd (s : State) (step : BitVec 32) : State :=
  modDev s fun d => { d with time := { d.time with slewLeft := d.time.slewLeft + step.toInt } }

/-- A write of LOCKED: time is lost when it changes from 1 to 0 (R316, R422). -/
def lockedSet (s : State) (b : Bool) : State :=
  let was := s.dev.time.locked
  let s := modDev s fun d => { d with time := { d.time with locked := b, timeLost := d.time.timeLost || (was && !b) } }
  if was && !b then raiseDev (record s 0x39 0 [1]) (logCore s) 0x39 1 else s

/-- A W1C write of TIMESTAT.ERR. -/
def timestatClear (s : State) : State := modDev s fun d => { d with time := { d.time with err := false } }

/-- TIMECTL and TIMESTAT as they read. -/
def timectlWord (t : TimeBlock) : Word :=
  w64 (b2n t.expen * 2 ^ 63 + b2n t.run * 2 ^ 62 + t.guardNs % 2 ^ 11 * 2 ^ 48 + t.phase % 2 ^ 32)
def timestatWord (t : TimeBlock) : Word :=
  w64 (b2n t.locked * 2 ^ 63 + b2n (t.slewLeft != 0) * 2 ^ 62 + b2n t.err * 2 ^ 61)
    + w64 (BitVec.ofInt 32 t.slewLeft).toNat

/-! ### Other blocks -/

/-- A read of CSSTAT returns and clears LATE (Table 14.14). -/
def csstatGet (s : State) : Word × State :=
  let c := s.dev.sheet
  let count := c.active.countP fun e => bit (e.words.headD 0).toNat 63
  (w64 (b2n c.pending.isSome * 2 ^ 63 + c.late % 2 ^ 16 * 2 ^ 32 + c.sheet.toNat * 2 ^ 16 + count % 2 ^ 11),
    modDev s fun d => { d with sheet := { d.sheet with late := 0 } })

/-- A read of DETSTAT returns and clears SLIPS (Table 18.9). -/
def detstatGet (s : State) : Word × State :=
  (w64 (s.dev.slips % 2 ^ 16 * 2 ^ 48 + s.dev.lastSlip % 2 ^ 48), modDev s fun d => { d with slips := 0 })

/-- MAPSW: the loaded maps await the next clapper (R331). While EXPEN is 1 the maps are those that FW7's port writes, and
MAPSW has no effect (R6; DESIGN CHOICE, log entry 121). -/
def mapswSet (s : State) : State :=
  modDev s fun d => { d with image := { d.image with
    mapPend := d.image.mapPend || (d.image.loaded.isSome && !d.image.expen) } }

/-- A write of IMGCTL (Table 14.16). When EXPEN goes from 1 to 0, the maps that MAPSW made active last come into force again
at the next clapper, the engine's take boundary (R6). DESIGN CHOICE: a switch that is pending when EXPEN goes from 0 to 1 is
dropped, and MAPPEND falls with it (log entry 121). -/
def imgctlSet (s : State) (v : Word) : State :=
  let e := bit v.toNat 63
  let s := modDev s fun d => { d with image := { d.image with
    expen := e, outmask := v.truncate 8, mapPend := d.image.mapPend && !e
    mapsBack := !e && (d.image.expen || d.image.mapsBack) } }
  if bit v.toNat 62 then mapswSet s else s

/-- The guest queues as FW2 binds them from the launches' images (Table 16.5). -/
def boundQueues (d : Device) : Vector GuestQueue 64 :=
  d.launches.foldl (fun v l => l.guestQueues.foldl (fun v w =>
    let q := Fin.ofNat 64 w
    v.set q { v[q] with valid := true, asid := l.asid, depth := bits w 15 8, launch := l.la }) v)
    (d.guest.queues.map fun q => { q with valid := false, asid := 0, depth := 0, launch := 0 })

/-- A write of GCTL (Table 16.4). When EXPEN goes from 1 to 0, the queues are derived again (R6; log entry 121). -/
def gctlSet (s : State) (v : Word) : State :=
  let x := v.toNat
  let e := bit x 63
  modDev s fun d => { d with guest := { d.guest with
    expen := e, en := bit x 62, preempt := bits x 47 32, tmo := x % 2 ^ 16
    queues := if d.guest.expen && !e then boundQueues d else d.guest.queues } }

/-- REARM clears HELD (R355). -/
def rearmSet (s : State) : State := modDev s fun d => { d with snap := { d.snap with held := false } }

/-- A write of SNAPCTL (Table 15.13). -/
def snapctlSet (s : State) (v : Word) : State :=
  let s := modDev s fun d => { d with snap := { d.snap with
    timeEn := v.getLsbD 3, watchEn := v.getLsbD 2, pinEn := v.getLsbD 1, swEn := v.getLsbD 0 } }
  if v.getLsbD 62 then rearmSet s else s

/-- The W1C bits of PAIRSTAT. -/
def pairstatSet (s : State) (mismatch unrec : Bool) : State :=
  modDev s fun d => { d with pair := { d.pair with
    mismatch := d.pair.mismatch && !mismatch, unrec := d.pair.unrec && !unrec } }

/-- PAIRSTAT as it reads (Table 16.3). -/
def pairstatWord (p : PairBlock) : Word :=
  w64 (b2n p.paired * 2 ^ 63 + b2n p.driving * 2 ^ 62 + b2n p.mismatch * 2 ^ 61 + b2n p.unrec * 2 ^ 60 + p.misses % 4 * 2 ^ 58
    + p.reason % 16 * 2 ^ 48 + p.term.toNat * 2 ^ 32 + p.mmtake.toNat)

/-- A write of PAIRCTL (Table 16.1, R6). Table 16.2 states no derivation of HBTOL from Basic fields: when EXPEN goes from 1
to 0 the model takes its reset value, 5,000, again at the next clapper (DESIGN CHOICE, log entry 121). -/
def pairctlSet (s : State) (v : Word) : State :=
  modDev s fun d =>
    let e := v.getLsbD 63
    { d with pair := { d.pair with
      expen := e, enable := v.getLsbD 62, role := v.getLsbD 61, hbtolBack := !e && (d.pair.expen || d.pair.hbtolBack) } }

/-- DOWN and HYST in force (Table 17.3). -/
def Power.downNow (p : Power) : Nat := if p.expen then p.down else 10
def Power.hystNow (p : Power) : Nat := if p.expen then p.hyst else p.plimit / 30

/-- A write of PWRCTL (Table 17.2, R6). -/
def pwrctlSet (s : State) (v : Word) : State :=
  modDev s fun d =>
    let p := d.power
    let e := v.getLsbD 63
    let keep := e && !p.expen
    { d with power := { p with
      expen := e, floor := (bits v.toNat 34 32, bits v.toNat 38 36), plimit := Nat.min 600 (v.toNat % 2 ^ 16),
      down := if keep then p.downNow else p.down, hyst := if keep then p.hystNow else p.hyst } }

/-- The readings of a die's sensors; a sensor that has not been read reads 0. -/
def dieTemps (p : Power) (die : Nat) : List Int := (List.range 64).map fun n => aget 0 (64 * die + n) p.temps

/-- CLRTRIP of a die (R380). -/
def clrtripSet (s : State) (die : Nat) : State :=
  modDev s fun d =>
    let p := d.power
    if (dieTemps p die).all fun t => decide (t < (p.talert : Int)) then
      { d with power := { p with trip := if die = 0 then (false, p.trip.2) else (p.trip.1, false) } }
    else d

/-- A write of THERMCTL (Table 17.4). -/
def thermctlSet (s : State) (v : Word) : State :=
  let s := modDev s fun d =>
    let c := bits v.toNat 31 16
    let a := v.toNat % 2 ^ 16
    { d with power := { d.power with tcrit := c, talert := if a < c then a else d.power.talert } }
  let s := if v.getLsbD 32 then clrtripSet s 0 else s
  if v.getLsbD 33 then clrtripSet s 1 else s

/-- TSENSE as it reads (Table 17.5): the effective step, not the step in force. -/
def tsenseWord (p : Power) : Word :=
  let die := p.sel / 64
  let at_ (x : Nat × Nat) : Nat := if die = 0 then x.1 else x.2
  let hottest := (dieTemps p die).foldl max (aget 0 (64 * die) p.temps)
  let trip := if die = 0 then p.trip.1 else p.trip.2
  w64 ((BitVec.ofInt 16 (aget 0 p.sel p.temps)).toNat * 2 ^ 32 + (BitVec.ofInt 16 hottest).toNat * 2 ^ 16
    + dieStep p die % 8 * 2 ^ 13 + b2n trip * 2 ^ 12 + at_ p.gstep % 8 * 2 ^ 7 + p.sel % 128)

/-- The bytes of a control core's registers (Table 17.6). -/
def CtrlCore.bytes (c : CtrlCore) : List Byte :=
  ([c.pc, c.csrs.mstatus, c.csrs.mtvec, c.csrs.mepc, c.csrs.mcause, c.csrs.mscratch, c.vcause, c.mpslate, w64 c.fcsr.toNat,
      w64 (b2n c.user + 2 * b2n c.outdone + 4 * c.mie.toNat)]
    ++ c.x.toList ++ c.f.toList ++ c.pmp.toList.flatMap (fun p => [w64 p.1.toNat, p.2])).flatMap fun w => bytesOf w.toNat 8

/-- The bytes of listed cells, with their addresses. -/
def cellBytes (l : List Host.Cell) : List Byte := l.flatMap fun c => bytesOf c.1 8 ++ [c.2]

/-- The bytes of the sections of a reel, as the model holds them (Table 17.6; log entry 141). -/
def ReelImage.bytes (r : ReelImage) : List Byte :=
  cellBytes r.image ++ r.ctrl.flatMap (fun c => cellBytes c.tcm ++ c.bytes)
    ++ r.tasks.flatMap (fun t => bytesOf t.1 8 ++ bytesOf t.2.1 8 ++ bytesOf t.2.2.takeLeft 8 ++ bytesOf (b2n t.2.2.resume) 8
      ++ t.2.2.msgs.flatMap fun m => (m.slate :: w64 m.ty.toNat :: m.payload).flatMap fun w => bytesOf w.toNat 8)
    ++ r.regions.flatMap fun g => bytesOf g.1 8 ++ bytesOf g.2.1 8 ++ bytesOf g.2.2.1.slate.toNat 8 ++ cellBytes g.2.2.2

/-- The bytes of the reel's fixed sections (Table 17.6). -/
def reelFixed : Nat := 4096 + (12 * 1048576 + 16384) + (4 * 1048576 + 32768)

/-- Whether the digest of a reel's header matches its sections (R383). -/
def ReelImage.valid (r : ReelImage) : Bool := r.digest == some (Config.shake256 64 r.bytes)

/-- The newest valid reel (R383). -/
def newestReel (r : Reels) : Option ReelImage :=
  let v (x : Option ReelImage) : Option ReelImage := x.filter (·.valid)
  match v r.slot0, v r.slot1 with
  | some a, some b => if b.seq.toNat ≤ a.seq.toNat then some a else some b
  | some a, none => some a
  | none, b => b

/-- The live owner slot: the highest written one that is not revoked. -/
def liveSlot (x : Security) : Option Nat :=
  (x.owners.zipIdx.filter fun o => !o.1.2).getLast?.map (·.2)

/-- FUSESTAT as it reads (Table 18.5). -/
def fusestatWord (x : Security) : Word :=
  w64 (x.usedShown % 16 * 2 ^ 16 + b2n (liveSlot x).isSome * 2 ^ 15 + ((liveSlot x).getD 0) % 8 * 2 ^ 8 + x.svn % 128)

/-! ### Mailboxes (R388, R389) -/

/-- The state with a firmware core's part changed. -/
def modFw (s : State) (k : Nat) (f : FwCore → FwCore) : State :=
  { s with fws := s.fws.set (Fin.ofNat 8 k) (f s.fws[Fin.ofNat 8 k]) }

/-- The head entry of a mailbox leaves, and a held entry takes its place at the end. -/
def mailPop (s : State) (k : Nat) : State :=
  modFw s k fun f =>
    let f := { f with mailbox := f.mailbox.tail, idle := 0 }
    match f.held with
    | [] => f
    | m :: l => { f with mailbox := f.mailbox ++ [m], held := l }

/-- KICK restarts the watchdog. -/
def mailKick (s : State) (k : Nat) : State := modFw s k fun f => { f with idle := 0 }

/-- MBXGO: the entry to send goes to a firmware core; none while that mailbox is full. FW4 enters each firmware message
that it receives in the dailies (R416). -/
def mailGo (s : State) (k tgt : Nat) : Option State :=
  let f := s.fws[Fin.ofNat 8 k]
  let g := s.fws[Fin.ofNat 8 tgt]
  if 64 ≤ g.mailbox.length ∨ g.held ≠ [] then none
  else
    let w0 := bits (f.send[0]).toNat 53 48
    let m : Mail := ⟨mailWord0 s 1 w0 true k, f.send[1], f.send[2], f.send[3]⟩
    let s := postMail s tgt m
    some (if tgt % 8 = 4 then record s 0 k [m.w1.toNat, m.w2.toNat, m.w3.toNat, m.w0.toNat] else s)

/-- Words of the head entry. -/
def headWord (f : FwCore) (i : Nat) : Word :=
  match f.mailbox with
  | [] => 0
  | m :: _ => match i with
    | 0 => m.w0
    | 1 => m.w1
    | 2 => m.w2
    | _ => m.w3

/-! ### Numbers 0x200 to 0x3FF (R49) -/

/-- A device register as a firmware core reads it; an unassigned number reads 0. -/
def readDev (s : State) (k num : Nat) : Word × State :=
  let d := s.dev
  let f := s.fws[Fin.ofNat 8 k]
  if 0x200 ≤ num ∧ num < 0x210 then (d.dom.maskRead (Fin.ofNat 16 num), s)
  else if 0x220 ≤ num ∧ num < 0x23E then (d.dom.selRead (Fin.ofNat 30 (num - 0x220)), s)
  else if 0x280 ≤ num ∧ num < 0x2C0 then (guestQueueWord s (Fin.ofNat 64 (num - 0x280)), s)
  else if 0x301 ≤ num ∧ num ≤ 0x304 then (headWord f (num - 0x301), s)
  else if 0x308 ≤ num ∧ num ≤ 0x30B then (f.send[Fin.ofNat 4 (num - 0x308)], s)
  else match num with
    | 0x210 => (w64 (b2n d.dom.expen * 2 ^ 63 + d.dom.ndom % 4), s)
    | 0x211 => domstatGet s
    | 0x212 => (d.ptroot, s)
    | 0x240 => (timectlWord d.time, s)
    | 0x241 => (w64 (d.time.egress % 2 ^ 32 * 2 ^ 32 + d.time.period % 2 ^ 32), s)
    | 0x242 => (if d.time.expen then d.time.epoch else w64 d.time.phase, s)
    | 0x243 => let (t, s) := readTime s; (w64 t, s)
    | 0x244 => (w64 (d.time.freq.toNat * 2 ^ 32), s)
    | 0x245 => (timestatWord d.time, s)
    | 0x250 => csstatGet s
    | 0x258 => (w64 (b2n d.image.expen * 2 ^ 63 + b2n d.image.mapPend * 2 ^ 61 + d.image.outmask.toNat), s)
    | 0x260 => (w64 (b2n d.snap.held * 2 ^ 63 + d.snap.last.toNat * 2 ^ 4 + b2n d.snap.timeEn * 8 + b2n d.snap.watchEn * 4
        + b2n d.snap.pinEn * 2 + b2n d.snap.swEn), s)
    | 0x261 => (d.snap.time, s)
    | 0x262 => (w64 (d.snap.ignored % 2 ^ 32 * 2 ^ 32 + d.snap.seq.toNat), s)
    | 0x270 => (w64 (b2n d.guest.expen * 2 ^ 63 + b2n d.guest.en * 2 ^ 62 + b2n d.guest.up * 2 ^ 61
        + d.guest.preempt % 2 ^ 16 * 2 ^ 32 + d.guest.tmo % 2 ^ 16), s)
    | 0x2C0 => (w64 (b2n d.pair.expen * 2 ^ 63 + b2n d.pair.enable * 2 ^ 62 + b2n d.pair.role * 2 ^ 61), s)
    | 0x2C1 => (pairstatWord d.pair, s)
    | 0x2C2 => (w64 (d.pair.hbtol % 2 ^ 16), s)
    | 0x2D0 => (w64 (b2n d.power.expen * 2 ^ 63 + d.power.floor.2 % 8 * 2 ^ 36 + d.power.floor.1 % 8 * 2 ^ 32
        + d.power.plimit % 2 ^ 16), s)
    | 0x2D1 => (w64 (d.power.downNow % 256 * 256 + d.power.hystNow % 256), s)
    | 0x2D2 => (w64 (d.power.tcrit % 2 ^ 16 * 2 ^ 16 + d.power.talert % 2 ^ 16), s)
    | 0x2D3 => (tsenseWord d.power, s)
    | 0x2E0 => (w64 (b2n d.reels.en * 2 ^ 63 + (match newestReel d.reels with | some r => r.seq.toNat | none => 0) * 2 ^ 32
        + d.reels.drain % 2 ^ 16), s)
    | 0x2E8 => (d.replace.zeroExtend 64, s)
    | 0x2F0 => detstatGet s
    | 0x300 => (w64 (f.mailbox.length % 128), s)
    | 0x30D => (w64 ((List.finRange 8).foldl (fun v i => v + (64 - (s.fws[i]).mailbox.length) % 256 * 256 ^ i.val) 0), s)
    | 0x310 => (fusestatWord d.sec, s)
    | _ => (0, s)

/-- A device register as a firmware core writes it. A write that a domain switch or a full mailbox holds holds
its bundle. -/
def writeDev (s : State) (k num : Nat) (v : Word) : Do State :=
  let x := v.toNat
  let dom := (0x200 ≤ num ∧ num ≤ 0x210) ∨ (0x220 ≤ num ∧ num < 0x23E)
  if dom ∧ s.dev.dom.switch.isSome then .error (.hold s)
  else if 0x200 ≤ num ∧ num < 0x210 then .ok (hashmaskSet s (Fin.ofNat 16 num) v)
  else if 0x220 ≤ num ∧ num < 0x23E then .ok (domselSet s (Fin.ofNat 30 (num - 0x220)) v)
  else if 0x280 ≤ num ∧ num < 0x2C0 then
    let q := Fin.ofNat 64 (num - 0x280)
    .ok (modDev s fun d =>
      if d.guest.expen then { d with guest := { d.guest with queues := d.guest.queues.set q { d.guest.queues[q] with
        valid := bit x 63, asid := BitVec.ofNat 12 (bits x 59 48), depth := bits x 47 40, launch := bits x 31 16 } } }
      else d)
  else if 0x308 ≤ num ∧ num ≤ 0x30B then .ok (modFw s k fun f => { f with send := f.send.set (Fin.ofNat 4 (num - 0x308)) v })
  else match num with
    | 0x210 => .ok (l2ctlSet s v)
    | 0x212 => .ok (modDev s fun d => { d with ptroot := v &&& 0x7FFFFFFF8001#64 })
    | 0x240 => .ok (timectlSet s v)
    | 0x241 => .ok (takecfgSet s v)
    | 0x242 => .ok (epochSet s v)
    | 0x244 =>
      .ok (servoAdd (modDev s fun d => { d with time := { d.time with freq := BitVec.ofNat 32 (x / 2 ^ 32) } }) (v.truncate 32))
    | 0x245 => .ok (lockedSet (if bit x 61 then timestatClear s else s) (bit x 63))
    | 0x258 => .ok (imgctlSet s v)
    | 0x260 => .ok (snapctlSet s v)
    | 0x261 => .ok (modDev s fun d => { d with snap := { d.snap with time := v, armed := true } })
    | 0x270 => .ok (gctlSet s v)
    | 0x2C0 => .ok (pairctlSet s v)
    | 0x2C1 => .ok (pairstatSet s (bit x 61) (bit x 60))
    | 0x2C2 => .ok (modDev s fun d => if d.pair.expen then { d with pair := { d.pair with hbtol := x % 2 ^ 16 } } else d)
    | 0x2D0 => .ok (pwrctlSet s v)
    | 0x2D1 => .ok (modDev s fun d =>
        if d.power.expen then { d with power := { d.power with down := bits x 15 8, hyst := x % 256 } } else d)
    | 0x2D2 => .ok (thermctlSet s v)
    | 0x2D3 => .ok (modDev s fun d => { d with power := { d.power with sel := x % 128 } })
    | 0x2E0 => .ok (modDev s fun d => { d with reels := { d.reels with en := bit x 63, drain := x % 2 ^ 16 } })
    | 0x300 => .ok (if bit x 63 then mailKick s k else s)
    | 0x305 => .ok (if bit x 0 then mailPop s k else s)
    | 0x30C => match mailGo s k (x % 8) with
      | some s => .ok s
      | none => .error (.hold s)
    | _ => .ok s

end Sys2Proof.Machine
end

