-- ==== Sys2Proof/Machine/Queues.lean ====
section
/-! DEFINITION. Input queues: how a message finds its queue, is stored or parked, ages and is diverted; and the
named regions of a launch (R135, R226 to R230). -/

namespace Sys2Proof.Machine

/-! ### Regions of the issuing activation's launch (R135) -/

/-- The header number of a launch-relative region index on a core. -/
def headerOf (co : Core) (launch : Option Nat) (i : Nat) : Option Nat :=
  match launch with
  | none => none
  | some la => match co.regionBlocks.find? (·.launch == la) with
    | some b => if i < b.count ∧ b.first + i < 64 then some (b.first + i) else none
    | none => none

/-- The header that a launch-relative index names, when its region is VALID. -/
def findRegion (co : Core) (launch : Option Nat) (i : Nat) : Option (Nat × Region) :=
  match headerOf co launch i with
  | none => none
  | some h => let r := co.regions[Fin.ofNat 64 h]; if r.valid then some (h, r) else none

/-- A header changed. -/
def modRegion (s : State) (a : Agent) (h : Nat) (f : Region → Region) : State :=
  modCore s a fun co => { co with regions := co.regions.set (Fin.ofNat 64 h) (f co.regions[Fin.ofNat 64 h]) }

/-- The core-local address of a region's first byte. -/
def Region.local (r : Region) (core : Nat) : Word := w64 (localAddr core r.base)

/-- MAXAGE, ASK, SINKEN, STYPE and STALECNT of header word 2 (Table 14.10). -/
def Region.maxage (r : Region) : Nat := bits r.age.toNat 47 40
def Region.ask (r : Region) : Bool := bit r.age.toNat 33
def Region.sinken (r : Region) : Bool := bit r.age.toNat 32
def Region.stype (r : Region) : BitVec 16 := BitVec.ofNat 16 (bits r.age.toNat 31 16)
def Region.countStale (r : Region) : Region :=
  let n := Nat.min (bits r.age.toNat 63 48 + 1) 0xFFFF
  { r with age := w64 (r.age.toNat % 2 ^ 48 + n * 2 ^ 48) }

/-! ### Queues -/

/-- HELD (R88). A task whose per-take budget is spent is held from that cycle on (R92). -/
def Queue.isHeld (q : Queue) : Bool :=
  q.budgetHold || (q.valid && q.serial && q.takeLeft == 0) || !q.holdReqs.isEmpty || q.deadHold

/-- Descriptor word 0 (Table 10.1). -/
def Queue.word0 (q : Queue) : Word :=
  w64 (b2n q.valid * 2 ^ 63 + b2n q.serial * 2 ^ 62 + q.pri % 4 * 2 ^ 60 + b2n q.isHeld * 2 ^ 59 + b2n q.resume * 2 ^ 58
    + b2n q.ask * 2 ^ 57 + b2n q.sinken * 2 ^ 56 + q.staleq % 64 * 2 ^ 50 + q.maxage % 256 * 2 ^ 40 + q.depth % 256 * 2 ^ 32
    + q.tmask.toNat * 2 ^ 16 + q.type.toNat)

/-- A queue changed. -/
def modQueue (s : State) (a : Agent) (q : Fin 64) (f : Queue → Queue) : State :=
  modCore s a fun co => { co with queues := co.queues.set q (f co.queues[q]) }

/-- Whether a queue admits the sender of a message (R227). -/
def queueAdmits (s : State) (q : Queue) (m : Message) : Bool :=
  match m.src with
  | .core n => match q.launch.bind (findLaunch s) with
    | some l => l.cores.contains n
    | none => false
  | .ctrl _ => true
  | _ => q.launch == m.launch && m.launch.isSome

/-- Whether a queue's type matches. -/
def Queue.matchesType (q : Queue) (t : BitVec 16) : Bool := (t &&& q.tmask) == (q.type &&& q.tmask)

/-- The queue of a core that a message goes to (R227). -/
def matchQueue (s : State) (a : Agent) (m : Message) : Option (Fin 64) :=
  (List.finRange 64).find? fun i =>
    let q := (getCore s a).queues[i]
    q.valid && q.matchesType m.route && queueAdmits s q m

/-- Messages in a core's message store. -/
def stored (co : Core) : Nat := co.queues.toList.foldl (fun n q => n + q.msgs.length) 0

/-- Parked messages of a queue. -/
def parkedOf (co : Core) (q : Fin 64) : Nat := co.overflow.countP fun p => match p with
  | .message i _ _ => i == q
  | _ => false

/-- Whether a queue's next message may enter the message store. -/
def hasRoom (co : Core) (q : Fin 64) : Bool :=
  decide ((co.queues[q]).msgs.length < Nat.max 1 (co.queues[q]).depth) && decide (stored co < 128)

/-- A message stored at the end of its queue. -/
def appendMsg (s : State) (a : Agent) (q : Fin 64) (m : Message) (aged : Bool) : State :=
  modQueue s a q fun x => { x with msgs := x.msgs ++ [m], aged := x.aged ++ [aged] }

/-- Records of the overflow store (R227). -/
def overflowSize : Nat := 512

/-- A record parked in the overflow store, with cause 0x0F to FW2 (R227, R422). -/
def park (s : State) (a : Agent) (p : Parked) (what queue : Nat) : State :=
  let s := modCore s a fun co => { co with overflow := co.overflow ++ [p] }
  raiseFw s 2 0x0F (w64 (agentNo a % 2 ^ 11 + what * 2 ^ 11 + queue * 2 ^ 16
    + (getCore s a).overflow.length % 2 ^ 32 * 2 ^ 32)) a

/-- A message stored in its queue, or parked; none while the overflow store is full. -/
def storeMsg (s : State) (a : Agent) (q : Fin 64) (m : Message) (aged : Bool) : Option State :=
  let co := getCore s a
  if hasRoom co q && parkedOf co q == 0 then some (appendMsg s a q m aged)
  else if co.overflow.length < overflowSize then some (park s a (.message q m aged) 0 q.val)
  else none

/-- What becomes of a message at its receiver. -/
inductive Placed where
  | done (s : State)
  | full
  | unmatched
  deriving DecidableEq, Repr

/-- A message at its receiver: matched and performed, or refused (R227). -/
def placeMsg (s : State) (a : Agent) (m : Message) : Placed :=
  match matchQueue s a m with
  | none => .unmatched
  | some q => match storeMsg s a q m false with
    | some s => .done s
    | none => .full

/-- Whether the head message of a queue is stale (R228). -/
def staleHead (s : State) (q : Queue) : Bool :=
  match q.msgs, q.aged with
  | m :: _, a :: _ => !a && m.slate != 0 && q.maxage != 255 && decide (q.maxage < slateAge s m.slate)
  | m :: _, [] => m.slate != 0 && q.maxage != 255 && decide (q.maxage < slateAge s m.slate)
  | [], _ => false

/-- The head message of a queue leaves it. -/
def dropHead (s : State) (a : Agent) (q : Fin 64) : State :=
  modQueue s a q fun x => { x with msgs := x.msgs.tail, aged := x.aged.tail }

/-- A stale message diverted (R228). It stays at the head while its stale sink can take it neither into the message
store nor into the overflow store. -/
def divertHead (s0 : State) (a : Agent) (q : Fin 64) (m : Message) : State :=
  let x := (getCore s0 a).queues[q]
  let sink := Fin.ofNat 64 x.staleq
  let s := dropHead s0 a q
  let s := modQueue s a q fun x => { x with stalecnt := Nat.min (x.stalecnt + 1) 0xFFFF }
  match if x.sinken && sink != q && ((getCore s a).queues[sink]).valid then storeMsg s a sink m true else some s with
  | none => s0
  | some s =>
    if x.ask then
      let tval : Word := w64 (q.val + agentNo a % 2 ^ 11 * 2 ^ 6 + m.slate.toNat % 2 ^ 47 * 2 ^ 17)
      raiseFw (record s 0x17 (agentNo a) [tval.toNat]) (logCore s) 0x17 tval a
    else s

/-- The stale messages at the head of a queue diverted, at most `n` of them. -/
def divertStale (a : Agent) (q : Fin 64) : Nat → State → State
  | 0, s => s
  | n + 1, s =>
    let x := (getCore s a).queues[q]
    if staleHead s x then
      match x.msgs with
      | m :: _ => divertStale a q n (divertHead s a q m)
      | [] => s
    else s

/-- Every stale message at the head of a queue diverted. -/
def ageQueue (s : State) (a : Agent) (q : Fin 64) : State :=
  divertStale a q (((getCore s a).queues[q]).msgs.length) s

/-- Parked messages of a queue that fit return to the message store in order (R227). -/
def unpark (a : Agent) : List Parked → State → State
  | [], s => s
  | .message q m aged :: l, s =>
    let co := getCore s a
    let earlier := co.overflow.find? fun p => match p with
      | .message i _ _ => i == q
      | _ => false
    if hasRoom co q && earlier == some (.message q m aged) then
      let s := modCore s a fun co => { co with overflow := co.overflow.erase (.message q m aged) }
      unpark a l (appendMsg s a q m aged)
    else unpark a l s
  | _ :: l, s => unpark a l s

/-- The candidates of a core at a priority (R85), by position: queues 0 to 63, and 64 for the spawn list. -/
def candidates (s : State) (a : Agent) (p : Nat) : List Nat :=
  let co := getCore s a
  ((List.finRange 64).filter fun i =>
    let q := co.queues[i]
    q.valid && q.pri == p && !q.isHeld && (q.resume || !q.msgs.isEmpty) && !(q.serial && q.running.isSome)).map (·.val)
    ++ (if co.spawnList.any (·.pri == p) then [64] else [])

/-! ### Snapshots (R355) -/

/-- What a tile core latches. -/
def latchCore (s : State) (n : Nat) : Latched :=
  let a := Agent.tile n
  let co := getCore s a
  { core := n
    live := (List.finRange 4).map fun p => (s.ctxs.find? fun x => x.1.agent == a && x.2.position == some p).map fun x =>
      (x.2.pc, x.1.slot, (x.2.wait.map (·.kind)).getD 0, x.2.pri)
    cands := (List.range 4).map fun p => (candidates s a p).length
    journal := co.journal.length
    sendq := co.sendq.toList.map (·.length)
    take := takeNo s }

/-- A snapshot trigger from a source; one that comes while a snapshot is held is counted (R355). -/
def snapshot (s : State) (src : BitVec 4) : State :=
  if s.dev.snap.held then
    modDev s fun d => { d with snap := { d.snap with ignored := Nat.min (d.snap.ignored + 1) 0xFFFFFFFF } }
  else
    let tiles := s.cores.filterMap fun c => match c.1 with
      | .tile n => some n
      | .fw _ => none
    let l := tiles.map (latchCore s)
    let s := modDev s fun d => { d with snap := { d.snap with
      held := true, last := src, seq := d.snap.seq + 1, latched := l } }
    raiseDev s (logCore s) 0x35 (s.dev.snap.seq.zeroExtend 64)

end Sys2Proof.Machine
end

