-- ==== Sys2Proof/Machine/Ending.lean ====
section
/-! DEFINITION. The end of a launch: its activations are killed, and once each of them has quiesced what the launch held
is free (R97, R135, R348, R374, R376). -/

namespace Sys2Proof.Machine

/-- The 16 bytes of a completion: the status, and the command's tag (log entry 142). -/
def doneBytes (tag : BitVec 32) (status : Nat) : List Byte := bytesOf status 8 ++ bytesOf (tag.toNat * 2 ^ 32) 8

/-- The completion of a command that FW1 has read from a host queue, written in that queue's completion queue (R374). -/
def writeDone (s : State) (tag : BitVec 32) (status : Nat) : State :=
  match s.dev.host.open_.find? (·.1 == tag) with
  | none => s
  | some x =>
    let n := Fin.ofNat 16 x.2
    let q := s.dev.host.queues[n]
    let s := homeWrite s (q.done + 16 * q.tail) (doneBytes tag status) 5 0 none
    modDev s fun d => { d with host := { d.host with
      open_ := d.host.open_.erase x
      queues := d.host.queues.set n { q with tail := (q.tail + 1) % q.size } } }

/-- FW1 completes a host command with a status (R374). -/
def hostDone (s : State) (tag : BitVec 32) (status : Nat) : State :=
  modDev (writeDone s tag status) fun d => { d with host := { d.host with
    completions := d.host.completions ++ [(tag, status)] } }

/-- Whether an activation of a launch remains, in a slot or spilled. -/
def launchRuns (s : State) (la : Nat) : Bool :=
  s.ctxs.any (fun x => x.2.used && x.2.launch == some la)
    || s.cores.any fun c => c.2.spilled.any fun x => x.ctx.launch == some la

/-- What a core holds for a launch, given up: its queues, regions, rings, children and tree counts; its barriers' groups end with it. -/
def Core.dropLaunch (co : Core) (la : Nat) : Core :=
  let mine (i : Nat) : Bool := co.regionBlocks.any fun b => b.launch == la && decide (b.first ≤ i) && decide (i < b.first + b.count)
  { co with
    queues := co.queues.map fun q => if q.launch = some la then Queue.free else q
    regions := Vector.ofFn fun i => if mine i.val then Region.none else co.regions[i]
    regionBlocks := co.regionBlocks.filter (·.launch != la)
    rings := co.rings.map fun r => if r.launch = some la then Ring.off else r
    spawnList := co.spawnList.filter fun c => c.launch != some la
    overflow := co.overflow.filter fun p => match p with
      | .message q _ _ => (co.queues[q]).launch != some la
      | _ => true
    barriers := co.barriers.map fun b => if b.2.launch = some la then (b.1, { b.2 with launch := none }) else b
    entries := co.entries.filter (·.1 != la)
    engHeld := co.engHeld.filter fun e => (co.rings[Fin.ofNat 16 e.1]).launch != some la
    treeCounts := co.treeCounts.filter (·.1 != la) }

/-- What a launch held is free once all its activations have quiesced: its tokens with it (R348, R376). The command that
ended it is completed. -/
def finishLaunch (s : State) (l : Launch) : State :=
  let s := { s with cores := s.cores.map fun c => (c.1, c.2.dropLaunch l.la) }
  let s := modDev s fun d => { d with
    launches := d.launches.filter (·.la != l.la)
    gates := d.gates.map fun g => if g.2.launch = some l.la then (g.1, { g.2 with valid := false, launch := none }) else g
    guest := { d.guest with queues := d.guest.queues.map fun q =>
      if q.launch = l.la ∧ q.valid then GuestQueue.reset else q }
    trees := d.trees.filter (·.launch != l.la)
    requests := d.requests.filter (·.1 != l.la) }
  match l.endTag with
  | some tag => hostDone s tag 0
  | none => s

/-! ### Tiles (R385, R386) -/

/-- The logical cores of a tile. -/
def tileCores (x y : Nat) : List Nat := [coreNo x y 0, coreNo x y 1, coreNo x y 2]

/-- A tile's place taken by a spare of its die: the cores of the tile start anew. -/
def mapSpare (s : State) (x y : Nat) : State :=
  let die := x / 16
  let left := if die = 0 then s.dev.spareTiles.1 else s.dev.spareTiles.2
  if left = 0 then s
  else
    let cs := tileCores x y
    let s := cs.foldl (fun s n => clearRange (setCore s (.tile n) Core.reset) (localAddr n 0) (2 ^ 20)) s
    let s := { s with ctxs := s.ctxs.filter fun c => match c.1.agent with
      | .tile n => !cs.contains n
      | .fw _ => true }
    modDev s fun d => { d with
      spareTiles := if die = 0 then (left - 1, d.spareTiles.2) else (d.spareTiles.1, left - 1)
      tileMap := aset (x * 16 + y) (16 - left) d.tileMap
      replace := if left = 1 then d.replace ||| BitVec.ofNat 6 (2 ^ die) else d.replace }

/-- The tiles to be retired that no launch holds any more get their spares, before any later launch is placed (R385). -/
def mapRetiring (s : State) : State :=
  let free (t : Nat × Nat) : Bool := !(s.dev.launches.any fun l => l.cores.any (tileCores t.1 t.2).contains)
  let ts := s.dev.retiring.filter free
  ts.foldl (fun s t => mapSpare s t.1 t.2) (modDev s fun d => { d with retiring := d.retiring.filter fun t => !free t })

/-- Every launch that ends and has no activation left is finished. -/
def finishLaunches (s : State) : State :=
  mapRetiring ((s.dev.launches.filter fun l => l.ending && !launchRuns s l.la).foldl finishLaunch s)

/-- A kill of the activation of a generation in a slot, wherever it stands (R97). -/
def killAct (s : State) (k : CtxKey) (gen : Gen) : State :=
  let c := getCtx s k
  if c.used && c.gen == gen then killCtx s k
  else modCore (modActivation s k gen Ctx.kill) k.agent fun co =>
    if co.spilled.any fun x => x.slot == k.slot && x.ctx.gen == gen then orphanCells co k.slot gen else co

/-- A launch begins to end: its queues and children start nothing more, and its activations are killed (R97). -/
def beginEnd (s : State) (la : Nat) (tag : Option (BitVec 32)) : State :=
  let s := modDev s fun d => { d with launches := d.launches.map fun l =>
    if l.la = la then { l with ending := true, endTag := tag } else l }
  let s : State := { s with cores := s.cores.map fun (c : Agent × Core) => (c.1, { c.2 with
    queues := c.2.queues.map fun q => if q.launch = some la then { q with valid := false } else q
    spawnList := c.2.spawnList.filter fun x => x.launch != some la }) }
  let here := (s.ctxs.filter fun x => x.2.used && x.2.launch == some la).map fun x => (x.1, x.2.gen)
  let gone := s.cores.flatMap fun c => (c.2.spilled.filter fun x => x.ctx.launch == some la).map fun x =>
    ((⟨c.1, x.slot⟩ : CtxKey), x.ctx.gen)
  finishLaunches ((here ++ gone).foldl (fun s x => killAct s x.1 x.2) s)

end Sys2Proof.Machine
end

