-- ==== Sys2Proof/Machine/Traps.lean ====
section
/-! DEFINITION. Causes as they reach a context, the single step, the unwinding of a gate callee, and watchpoints and
snapshots (R224, R340 to R345, R351, R354, R355). -/

namespace Sys2Proof.Machine

/-! ### Delivery of causes (R340 to R345) -/

/-- Whether a cause may be delivered to a context now: it holds an activation that goes on, none of its writes is in
flight (R110, R340), no expansion is under way (R33), and no single step is due first (R345). -/
def canDeliver (c : Ctx) : Bool := c.used && !c.killed && c.quiet && !c.inExpansion && c.stepped.isNone

/-- Whether a queued cause is deliverable (R342, R343). -/
def Ctx.deliverable (c : Ctx) (e : CauseEntry) : Bool :=
  !c.inTrap && c.depth == e.depth && (e.code != 0x28#6 || (c.st 8 && !c.inUi))

/-- The oldest deliverable entry of the cause queue. -/
def Ctx.nextCause (c : Ctx) : Option CauseEntry := c.causes.find? c.deliverable

/-- A context that a cause has taken out of a wait is ready from now on. -/
def nowReady (s : State) (k : CtxKey) : State :=
  let (n, s) := newId s
  modCtx s k fun c => { c with readyAt := n }

/-- Entry of the user-level interrupt of a transfer (R343): one completion interrupt fewer is outstanding, and the wakeup
is an acquire of what the transfer has written (R214). -/
def enterInterrupt (s : State) (k : CtxKey) (e : CauseEntry) : State :=
  let s := modCtx s k fun c =>
    ({ c with causes := c.causes.erase e, cpyOpen := c.cpyOpen - 1 }).enterUi e.xfer e.handler
  nowReady (engineAcquire s k e.homes) k

/-- A queued cause taken by trap entry, with the address of the next bundle (R33, R340). -/
def takeQueued (s : State) (k : CtxKey) (e : CauseEntry) : State :=
  let s := modCtx s k fun c => { c with causes := c.causes.erase e }
  nowReady (takeTrap s k e.code.toNat e.tval (getCtx s k).pc true) k

/-- Whether the budget of an activation is spent now: its own, or that of a caller below its gate frames (R91, R351). -/
def budgetSpent (s : State) (c : Ctx) : Bool := runOut s c || c.frames.any fun f => spend (Config.cycles s.fresh) f.actLeft == 0

/-- Whether cause 0x12, or the unwinding of a callee, comes at the next bundle boundary of a context that is ready (R91,
R351). -/
def budgetDue (s : State) (k : CtxKey) : Bool :=
  let c := getCtx s k
  c.used && !isFw k.agent && !c.killed && c.wait.isNone && !c.inGrace && budgetSpent s c

/-- ACTIVATION_BUDGET_EXPIRY (R91, R342): the budget of a ready activation is spent; the grace starts, and cause 0x12
is delivered at once, or after the handler that runs, the expansion under way (R33) or the single step that is due
(R345). A callee of a gate has no grace: it unwinds (R351). -/
def budgetExpiry (s : State) (k : CtxKey) : State :=
  let c := getCtx s k
  if !budgetDue s k || !c.frames.isEmpty then s
  else
    let s := { s with fresh := s.fresh + 1 }
    if c.inTrap || c.inExpansion || !c.quiet || c.stepped.isSome then
      setCtx s k { c with inGrace := true, actLeft := 4096, due12 := true }
    else takeTrap (setCtx s k { c with inGrace := true, actLeft := 4096 }) k 0x12 (w64 c.actLoaded) c.pc true

/-- ASYNC_CAUSE_DELIVERY: cause 0x12 when it is due or the budget is spent, ahead of every queued entry, or else the oldest
deliverable entry (R342). -/
def deliver (s : State) (k : CtxKey) : State :=
  let c := getCtx s k
  if !canDeliver c then s
  else if budgetDue s k then budgetExpiry s k
  else if c.due12 && !c.inTrap then
    nowReady (takeTrap (setCtx s k { c with due12 := false }) k 0x12 (w64 c.actLoaded) c.pc true) k
  else match c.nextCause with
    | none => s
    | some e => if e.code = 0x28#6 then enterInterrupt s k e else takeQueued s k e

/-- ASYNC_CAUSE_DELIVERY (R342). -/
def execAsyncCauseDelivery (k : CtxKey) (s : State) : Out := event (deliver s k)

/-- COPY_COMPLETION_INTERRUPT (R343): the oldest deliverable entry is one of cause 0x28. -/
def execCopyCompletionInterrupt (k : CtxKey) (s : State) : Out :=
  let c := getCtx s k
  match c.nextCause with
  | some e =>
    if canDeliver c && !c.due12 && !budgetDue s k && e.code == 0x28#6 then event (enterInterrupt s k e) else event s
  | none => event s

/-- TRAP_ENTRY (R340): a precise cause of a context outside a gate callee. A single step that is due comes first (R345). -/
def execTrapEntry (k : CtxKey) (code : BitVec 6) (tval : Word) (s : State) : Out :=
  let c := getCtx s k
  if c.used && !c.killed && c.quiet && c.stepped.isNone && c.frames.isEmpty then
    event (nowReady (takeTrap s k code.toNat tval c.pc false) k)
  else event s

/-- SINGLE_STEP (R345): the bundle that committed under STATUS.SS raises cause 0x34 before the next one issues. -/
def execSingleStep (k : CtxKey) (s : State) : Out :=
  let c := getCtx s k
  match c.stepped with
  | some b =>
    if c.used && !c.killed && c.quiet && !c.inTrap then
      event (nowReady (takeTrap (setCtx s k { c with stepped := none }) k 0x34 (w64 b) c.pc true) k)
    else event s
  | none => event s

/-- GATE_UNWIND (R351): the innermost callee unwinds with a code, once it has no write in flight and no reply sink
outstanding and its core has performed the release and the acquire. It unwinds with code 0x12 when the callee's budget
or a caller's ACTLEFT is spent, at a bundle boundary and never inside an expansion (R33). -/
def gateUnwind (s : State) (k : CtxKey) (code : BitVec 6) (tval : Word) : State :=
  let c := getCtx s k
  let spent := decide (code.toNat ≠ 0x12) || (budgetSpent s c && c.wait.isNone && !c.inExpansion)
  if c.used && !c.killed && decide (0 < c.depth) && c.quiet && spent && !sinksOut s k then
    match fenceAr { s with cur := k, latch := none } .core with
    | .ok t =>
      let t := if code.toNat = 0x12 then elapse t else t
      nowReady (unwind { t with cur := s.cur, latch := s.latch } k code.toNat tval c.pc) k
    | .error (.hold t) => { t with cur := s.cur, latch := s.latch }
    | .error _ => s
  else s

/-- GATE_UNWIND (R351). -/
def execGateUnwind (k : CtxKey) (code : BitVec 6) (tval : Word) (s : State) : Out := event (gateUnwind s k code tval)

/-- STATUS_LOSTA_CLEAR (R342): a W1C write clears STATUS.LOSTA. -/
def execStatusLostaClear (k : CtxKey) (s : State) : Out :=
  event (modCtx s k fun c => { c with status := stSet c.status 15 false })

/-! ### Watchpoints (R224, R354) -/

/-- TVAL of cause 0x32 (R224). -/
def watchTval (kind writer addr : Nat) : Word :=
  w64 (writer % 2 ^ 11 + kind % 2 ^ 5 * 2 ^ 11 + addr % 2 ^ 48 * 2 ^ 16)

/-- A trigger of a watchpoint is counted and delivered as DELIV gives (R354). -/
def watchHit (s : State) (ag : Agent) (n : Fin 4) (tval : Word) : State :=
  let w := (getCore s ag).watches[n]
  let s := modCore s ag fun co => { co with
    watches := co.watches.set n { w with hits := Nat.min (w.hits + 1) 0xFFFF } }
  let log (s : State) : State := record s 0x32 (agentNo ag) [tval.toNat, n.val]
  match w.deliv with
  | 0 => match w.who with
    | some who => raiseAsync s who 0x32 tval
    | none => log s
  | 2 => if s.dev.snap.watchEn then snapshot (log s) 4 else log s
  | _ => log s

/-- WATCHPOINT_TRIGGER (R224): a performed write that has met a watchpoint. -/
def execWatchpointTrigger (ag : Agent) (n : Fin 4) (kind : Fin 11) (writer : BitVec 11) (addr : BitVec 48) (s : State) : Out :=
  match s.dev.trigs.find? fun t =>
      t.ag == ag && t.n == n.val && t.kind == kind.val && t.writer == writer.toNat && t.addr % 2 ^ 48 == addr.toNat with
  | some t =>
    event (watchHit (modDev s fun d => { d with trigs := d.trigs.erase t }) ag n (watchTval kind.val writer.toNat addr.toNat))
  | none => event s

/-- WPCTL_WRITE (R354). -/
def execWpctlWrite (k : CtxKey) (n : Fin 4) (v : Word) (s : State) : Out :=
  if isFw k.agent then event s else event (writeWatch s k n v)

/-- WPCTL_READ (R354): the value read stands in `devRead`. -/
def execWpctlRead (k : CtxKey) (n : Fin 4) (s : State) : Out :=
  if isFw k.agent then event s
  else
    let r := readWatch s k.agent n
    event { r.2 with devRead := r.1 }

/-! ### Snapshots (R355) -/

/-- SNAPSHOT_TRIGGER (R355). -/
def execSnapshotTrigger (src : BitVec 4) (s : State) : Out := event (snapshot s src)

/-- SNAPSHOT_PIN (R355). -/
def execSnapshotPin (s : State) : Out := if s.dev.snap.pinEn then event (snapshot s 2) else event s

/-- SNAPTIME_REACHED (R355): the time trigger fires once per write of SNAPTIME. -/
def execSnaptimeReached (dtime : Word) (s : State) : Out :=
  match timeTo s dtime.toNat with
  | none => event s
  | some t =>
    let p := t.dev.snap
    if p.armed && p.timeEn && decide (p.time.toNat ≤ dtime.toNat) then
      event (snapshot (modDev t fun d => { d with snap := { d.snap with armed := false } }) 8)
    else event s

/-- REARM (R355). -/
def execRearm (s : State) : Out := event (rearmSet s)

end Sys2Proof.Machine
end

