-- ==== Sys2Proof/Machine/Image.lean ====
section
/-! DEFINITION. The ingress/egress engine: image maps, received frames, the swaps of the input and output images, and
the frames that leave (R18, R19, R328 to R332, R359). -/

namespace Sys2Proof.Machine

/-! ### Ranges of memory -/

/-- The listed bytes of a range. -/
def cellsIn (m : List Host.Cell) (lo n : Nat) : List Host.Cell := m.filter fun c => decide (lo ≤ c.1) && decide (c.1 < lo + n)

/-- Memory with `n` bytes copied from `src` to `dst`, two ranges that do not overlap. -/
def moveBytes (m : List Host.Cell) (src dst n : Nat) : List Host.Cell :=
  (cellsIn m src n).foldl (fun t c => writeByte t (dst + (c.1 - src)) c.2)
    (m.filter fun c => decide (c.1 < dst) || decide (dst + n ≤ c.1))

/-- Memory with a range cleared. -/
def zeroBytes (m : List Host.Cell) (lo n : Nat) : List Host.Cell :=
  m.filter fun c => decide (c.1 < lo) || decide (lo + n ≤ c.1)

/-! ### Maps (Table 14.15, R331) -/

/-- An input-map entry from its two words. -/
def inEntry (w0 w1 : Nat) (rtag : Bool) : MapEntry :=
  ⟨bit w0 63, bits w0 42 32, bits w0 22 0, bits w1 26 16, bits w1 10 0, false, rtag⟩

/-- An output-map entry from its two words; its frame stands in `stream`. -/
def outEntry (w0 w1 : Nat) : MapEntry :=
  ⟨bit w0 63, bits w0 52 44, bits w0 21 0, bits w1 26 16, bits w1 10 0, bit w1 63, false⟩

/-- The bytes of a map's entry, as the measurement takes them (R395). -/
def MapEntry.bytes (m : MapEntry) (out : Bool) : List Byte :=
  bytesOf (b2n m.valid * 2 ^ 63 + m.stream * (if out then 2 ^ 44 else 2 ^ 32) + m.imgOff) 8
    ++ bytesOf (b2n m.stamp * 2 ^ 63 + m.len * 2 ^ 16 + m.payOff) 8

/-- The bytes of a descriptor. -/
def FrameDesc.bytes (f : FrameDesc) : List Byte := bytesOf f.port 1 ++ bytesOf f.cls 1 ++ bytesOf f.len 2 ++ f.header

/-- The bytes of both maps and their descriptors. -/
def Maps.bytes (m : Maps) : List Byte :=
  m.inMap.flatMap (·.bytes false) ++ m.outMap.flatMap (·.bytes true) ++ m.descs.flatMap (·.bytes)

/-! ### Received frames (R18, R328, R329, R359) -/

/-- TVAL of cause 0x3A (R422). -/
def gateTval (stream filter port kind entry : Nat) : Word :=
  w64 (stream % 2 ^ 11 + filter % 2 ^ 9 * 2 ^ 11 + port % 16 * 2 ^ 20 + kind % 8 * 2 ^ 24 + entry % 2 ^ 12 * 2 ^ 32)

/-- A dropped frame (R328): cause 0x3A goes to FW7, which counts it for its filter and records a filter's first of each
take. -/
def noteDrop (s : State) (filter : Nat) (tval : Word) : State :=
  let s := raiseDev s 7 0x3A tval
  if !fwWorks s 7 then s else
  let first := !s.dev.image.dropTake.contains filter
  let s := modDev s fun d => { d with image := { d.image with
    drops := aset filter (aget 0 filter d.image.drops + 1) d.image.drops
    dropTake := if first then filter :: d.image.dropTake else d.image.dropTake } }
  if first then record s 0x3A 0 [tval.toNat] else s

/-- Whether sequence number `a` is later than `b` (R359). -/
def seqLater (a b : BitVec 16) : Bool := decide (1 ≤ (a - b).toNat) && decide ((a - b).toNat ≤ 32767)

/-- Whether what an earlier frame has written stands against a later one: by sequence number while the package is
paired (R359), and otherwise by end of frame, entry and port (R329). -/
def Arrival.stands (paired : Bool) (old new : Arrival) : Bool :=
  if paired then seqLater old.seqNo new.seqNo
  else if old.endNs ≠ new.endNs then new.endNs < old.endNs
  else if old.entry ≠ new.entry then new.entry < old.entry
  else new.port < old.port

/-- Whether an entry of the map covers an image byte. -/
def MapEntry.covers (m : MapEntry) (off : Nat) : Bool := decide (m.imgOff ≤ off) && decide (off < m.imgOff + m.len)

/-- The image bytes at offset `off` and up that an arrival writes. -/
def imageWrites (s : State) (new : Arrival) : Nat → List Byte → List (Nat × Byte)
  | _, [] => []
  | off, b :: l =>
    let im := s.dev.image
    let kept := im.arrivals.any fun old =>
      old.stands s.dev.pair.paired new && (match im.maps.inMap[old.entry]? with
        | some m => m.covers off
        | none => false)
    (if kept then [] else [(off, b)]) ++ imageWrites s new (off + 1) l

/-- An arrival written to the back input buffer through its entry, with its arrival bit (R329). `kind` is the writer's
kind of R224; the bytes are watched at their addresses in the window. -/
def writeEntry (s : State) (new : Arrival) (m : MapEntry) (bs : List Byte) (kind : Nat) : State :=
  let im := s.dev.image
  let w := imageWrites s new m.imgOff bs
  let mem := w.foldl (fun t x => writeByte t (imageBack + x.1) x.2) s.mem
  let at_ := imageBack + 0x800000 + new.entry / 8
  let mem := writeByte mem at_ (readByte mem at_ ||| BitVec.ofNat 8 (2 ^ (new.entry % 8)))
  let old := im.arrivals.find? (·.entry == new.entry)
  let keep := match old with
    | some o => o.stands s.dev.pair.paired new
    | none => false
  let arrivals := if keep then im.arrivals else new :: im.arrivals.filter (·.entry != new.entry)
  let s := modDev { s with mem := mem } fun d => { d with image := { d.image with arrivals := arrivals } }
  triggersMasked (triggersMasked s imageBase w kind 0) imageBase [(0x800000 + new.entry / 8, readByte mem at_)] kind 0

/-- A frame of the take being received, through one entry that its stream matches; a paired package mirrors the
write (R329, R359). -/
def frameEntry (s : State) (f : Frame) (stream i : Nat) (m : MapEntry) : State :=
  if f.payload.length < m.payOff + m.len then
    let (v, s) := freshWord s
    noteDrop s (v.toNat % 2 ^ 9) (gateTval stream v.toNat f.port 3 i)
  else
    let bs := (f.payload.drop m.payOff).take m.len
    let s := writeEntry s ⟨i, f.endNs, f.port, f.seqNo⟩ m bs 7
    if s.dev.pair.paired && s.dev.pair.mirroring then
      modDev s fun d => { d with pair := { d.pair with mirrorOut := d.pair.mirrorOut ++ [⟨i, bs, f.seqNo⟩] } }
    else s

/-- A frame of the take being received, through the input map. -/
def takeFrame (s : State) (f : Frame) : State :=
  match f.stream with
  | none => s
  | some n =>
    (s.dev.image.maps.inMap.zipIdx.filter fun x => x.1.valid && x.1.stream == n).foldl
      (fun s x => frameEntry s f n x.2 x.1) s

/-! ### Gate lists (R328) -/

/-- Whether FW7 accepts a gate list: k is an integer from 1 to 64, and the list starts with its cycle and stays within it, in
rising order. -/
def PortGates.formed (g : PortGates) (period : Nat) : Bool :=
  decide (1 ≤ g.k) && decide (g.k ≤ 64) && (g.list.head?.map (·.1)) == some 0 && g.list.all (fun e => decide (e.1 * g.k < period))
    && (g.list.zip g.list.tail).all fun x => decide (x.1.1 < x.2.1)

/-- The times in the take from clapper `n` at which entries of a gate list begin, with their gates: the base time is EPOCH,
so every clapper starts a cycle. -/
def PortGates.starts (g : PortGates) (t : TimeBlock) (n : Nat) : List (Nat × BitVec 8) :=
  (List.range g.k).flatMap fun j => g.list.map fun e => (t.due n + j * t.period / g.k + e.1, e.2)

/-- Since when a gate has been open at a time of a take; none while it is closed. A gate that stays open from one cycle to
the next opens with each take. -/
def PortGates.openSince (g : PortGates) (t : TimeBlock) (n cls at_ : Nat) : Option Nat :=
  ((((g.starts t n).filter fun e => decide (e.1 ≤ at_)).reverse.takeWhile fun e => e.2.getLsbD cls).getLast?).map (·.1)

/-- FW7 sets the gate list of a port; it refuses one that breaks R328. -/
def setPortGates (s : State) (port : Fin 10) (g : PortGates) : State :=
  if g.formed s.dev.time.period && fwWorks s 7 then
    modDev s fun d => { d with image := { d.image with gates := d.image.gates.set port g } }
  else s

/-- FW7 sets the filter of a stream; it refuses a gate list that breaks R328. -/
def setStreamFilter (s : State) (stream : Nat) (f : StreamFilter) : State :=
  if f.gate.formed s.dev.time.period && fwWorks s 7 then
    modDev s fun d => { d with image := { d.image with qci := aset stream f d.image.qci } }
  else s

/-- The take that a time belongs to, as clappers are due. -/
def TimeBlock.takeAt (t : TimeBlock) (at_ : Nat) : Nat := (at_ - t.epochNow) / t.period

/-- What drops a frame of a stream: its stream gate is closed at its end, its payload exceeds the maximum SDU size, or a
meter drops it, with the filter's number and the kind of R422. The meters are the port's (log entry 118). -/
def dropOf (s : State) (f : Frame) (stream : Nat) : Option (Nat × Nat) :=
  let t := s.dev.time
  match (s.dev.image.qci.find? (·.1 == stream)).map (·.2) with
  | none => f.drop
  | some q =>
    if t.epochNow ≤ f.endNs ∧ (q.gate.openSince t (t.takeAt f.endNs) 0 f.endNs).isNone then some (q.filter, 0)
    else if q.maxSdu < f.payload.length then some (q.filter, 1)
    else f.drop

/-- Whether a frame ends early enough for the take that the coming clapper begins (R18). -/
def inTime (t : TimeBlock) (f : Frame) : Bool := !t.run || decide (f.endNs + t.guardNs < t.due t.first)

/-- A frame that has passed the filters: written, or kept for the take after the next. -/
def acceptFrame (s : State) (f : Frame) : State :=
  if inTime s.dev.time f then takeFrame s f
  else modDev s fun d => { d with image := { d.image with late := d.image.late ++ [f] } }

/-- A frame for FW7: a PTP frame, or one that no stream identification entry matches (R328). -/
def toFw7 (s : State) : State := modDev s fun d => { d with image := { d.image with toFw7 := d.image.toFw7 + 1 } }

/-- FRAME_INGRESS (R328): a frame with a good FCS that is no duplicate goes to FW7 where no stream identification entry
matches it; it is dropped by its filter, gate or meter, or goes to the input map. -/
def frameIngress (s : State) (f : Frame) : State :=
  if !f.fcsOk || f.duplicate then s
  else match f.stream with
    | none => toFw7 s
    | some n => match dropOf s f n with
      | some (filter, kind) => noteDrop s filter (gateTval n filter f.port kind 0)
      | none => acceptFrame s f

/-- Whether a frame ended early enough for the take that the last clapper began: the engine finished writing it before that
swap, so it cannot come in later (R18). -/
def tooLate (t : TimeBlock) (f : Frame) : Bool := t.run && t.fired && decide (f.endNs + t.guardNs < t.due t.takeno)

/-- FRAME_INGRESS (R328). Disciplined time has reached the frame's end; a frame that ends later than what is due before
it is not received yet. -/
def execFrameIngress (f : Frame) (s : State) : Out :=
  if tooLate s.dev.time f then event s
  else match timeTo s (Nat.max s.dev.time.dtime f.endNs) with
    | some s => event (frameIngress s f)
    | none => event s

/-- A mirrored write of the partner (R359). -/
def takeMirrored (s : State) (w : Mirrored) : State :=
  match s.dev.image.maps.inMap[w.entry]? with
  | some m =>
    if m.valid && w.data.length == m.len then writeEntry s ⟨w.entry, 0, 0, w.seqNo⟩ m w.data 10 else s
  | none => s

/-- MIRROR_WRITE (R359): one that follows the partner's marker belongs to the take after the next. None is taken while
mirroring has stopped (R360). -/
def execMirrorWrite (entry : Nat) (data : List Byte) (seqNo : BitVec 16) (s : State) : Out :=
  let p := s.dev.pair
  if !(p.paired && p.linkUp && p.mirroring) then event s
  else if p.markerGot.contains s.dev.time.first then
    event (modDev s fun d => { d with pair := { d.pair with mirrorLate := d.pair.mirrorLate ++ [⟨entry, data, seqNo⟩] } })
  else event (takeMirrored s ⟨entry, data, seqNo⟩)

/-! ### The swap of the input image (R18, R19, R330) -/

/-- The swap at a clapper: the back buffer becomes the front image and stays as it is behind it, the arrival map moves
with it, and the loaded maps come into force, or those that MAPSW made active before EXPEN (R6). -/
def swapInput (s : State) : State :=
  let mem := moveBytes s.mem imageBack imageBase 0x800000
  let mem := moveBytes mem (imageBack + 0x800000) (imageBase + 0x800000) 512
  let mem := zeroBytes mem (imageBack + 0x800000) 512
  modDev { s with mem := mem } fun d =>
    let im := d.image
    { d with image := { im with
      maps := if im.mapPend then im.loaded.getD im.maps else if im.mapsBack then im.basicMaps else im.maps
      basicMaps := if im.mapPend then im.loaded.getD im.maps else im.basicMaps
      mapPend := false, mapsBack := false, arrivals := [], dropTake := [] } }

/-- The frames and mirrored writes that were kept for the take now being received. -/
def takeLate (s : State) : State :=
  let fs := s.dev.image.late
  let ms := s.dev.pair.mirrorLate
  let t := s.dev.time
  let s := modDev s fun d => { d with
    image := { d.image with late := fs.filter fun f => !inTime t f }
    pair := { d.pair with mirrorLate := [] } }
  ms.foldl takeMirrored ((fs.filter (inTime t)).foldl takeFrame s)

/-! ### Egress (R21, R331, R332) -/

/-- Whether this package's egress is enabled: an unpaired package drives its own outputs (R358, R363), and egress stops
with the drain at a power failure (R381). -/
def drives (s : State) : Bool := (!s.dev.pair.paired || s.dev.pair.driving) && decide (s.dev.power.failing ≤ 1)

/-- Cause 0x19 to the control cores of OUTMASK that have not signalled output-done (R21, R332). -/
def overruns (s : State) : State :=
  (List.finRange 8).foldl (fun s (c : Fin 8) =>
    let x := s.dev.ctrl[c]
    if s.dev.image.outmask.getLsbD c.val && !x.outdone then
      let s := modDev s fun d => { d with ctrl := d.ctrl.set c { x with
        vcause := w64 (0x19 + takeNo s * 2 ^ 16), devIrq := true } }
      let (v, s) := freshWord s
      raiseDev (record s 0x19 c.val [takeNo s]) (logCore s) 0x19 v
    else s) s

/-- EGRESS_SWAP (R332): the output image and the stamp table as stored so far are those sent in this take, by the output
map now in force (R331). -/
def egressSwap (s : State) : State :=
  let mem := moveBytes s.mem (imageBase + 0x1000000) (imageBase + 0x1400000) 0x400000
  let mem := moveBytes mem (imageBase + 0x801000) (imageBack + 0x801000) 0x4000
  overruns (modDev { s with mem := mem } fun d => { d with image := { d.image with
    egressDone := true, sent := [], egMaps := d.image.maps } })

/-- EGRESS_SWAP (R332): once in each take, at its egress phase, which disciplined time does not pass without it; egress
stops with the drain at a power failure (R381). -/
def execEgressSwap (dtime : Word) (s : State) : Out :=
  let t := s.dev.time
  if swapPending s && decide (t.due t.takeno + t.egress ≤ dtime.toNat) then
    match timeTo s dtime.toNat with
    | some s => event (egressSwap s)
    | none => event s
  else event s

/-- The bytes that an entry of the output map copies. -/
def outBytes (s : State) (m : MapEntry) : List Byte :=
  if m.stamp then readBytes s.mem (imageBack + 0x801000 + m.imgOff) 8
  else readBytes s.mem (imageBase + 0x1400000 + m.imgOff) m.len

/-- Bytes placed in a payload at an offset. -/
def placeBytes (p : List Byte) (at_ : Nat) (bs : List Byte) : List Byte := p.take at_ ++ bs ++ p.drop (at_ + bs.length)

/-- The payload of a frame, built from the front output image and the stamps. A byte that no entry writes is open (log
entry 16). -/
def buildPayload (s : State) (i : Nat) (len : Nat) : List Byte :=
  (s.dev.image.egMaps.outMap.filter fun m => m.valid && m.stream == i).foldl
    (fun p m => placeBytes p m.payOff (outBytes s m))
    ((List.range len).map fun j => (Config.openWord (s.fresh + j)).truncate 8)

/-- The gates of a port. -/
def gatesAt (s : State) (port : Nat) : Option PortGates := s.dev.image.gates[port]?

/-- Whether a frame's class has an open Qbv window on its port at a time of the current take, one that opened after a
switchover (R23, R331). -/
def windowOpen (s : State) (f : FrameDesc) (at_ : Nat) : Bool :=
  let t := s.dev.time
  match (gatesAt s f.port).bind fun g => g.openSince t t.takeno f.cls at_ with
  | some since => match s.dev.pair.openAfter with
    | some x => decide (x < since)
    | none => true
  | none => false

/-- The first time from now on, within the current take, at which a frame's class has an open window (R331). -/
def sendTime (s : State) (f : FrameDesc) : Option Nat :=
  let t := s.dev.time
  let starts := match gatesAt s f.port with
    | some g => (g.starts t t.takeno).map fun (x : Nat × BitVec 8) => x.1
    | none => []
  (t.dtime :: starts.filter fun x => decide (t.dtime < x)).find? (windowOpen s f)

/-- FRAME_TRANSMIT (R331): a frame that some valid entry fills leaves once in a take, in its class's Qbv window. -/
def execFrameTransmit (i : Nat) (s : State) : Out :=
  let im := s.dev.image
  match im.egMaps.descs[i]? with
  | some f =>
    if s.dev.time.fired && drives s && !im.sent.contains i && im.egMaps.outMap.any (fun m => m.valid && m.stream == i) then
      match (sendTime s f).bind (timeTo s) with
      | some t =>
        let wire := f.header ++ buildPayload t i f.len
        event (modDev { t with fresh := t.fresh + f.len } fun d => { d with image := { d.image with
          sent := i :: d.image.sent, wire := wire :: d.image.wire } })
      | none => event s
    else event s
  | none => event s

end Sys2Proof.Machine
end

