-- ==== Sys2Proof/Machine/Takes.lean ====
section
/-! DEFINITION. Disciplined time, the clapper and what happens at it, active messages and the call sheet (R17 to R20,
R242, R315 to R318, R326, R327, R384, R395, R408). -/

namespace Sys2Proof.Machine

/-! ### Registers of the time block and its neighbours (R2, R315, R316, R327, R331, R408) -/

/-- TIMECTL_WRITE (R316). -/
def execTimectlWrite (v : Word) (s : State) : Out := event (timectlSet s v)
/-- TAKECFG_WRITE (R316). -/
def execTakecfgWrite (v : Word) (s : State) : Out := event (takecfgSet s v)
/-- EPOCH_WRITE (R316). -/
def execEpochWrite (v : Word) (s : State) : Out := event (epochSet s v)
/-- SERVO_STEP (R315): FW7 runs the servo, while it works (R15). -/
def execServoStep (v : BitVec 32) (s : State) : Out := event (if fwWorks s 7 then servoAdd s v else s)
/-- SLEW_COMPLETE (R315): disciplined time has moved on by what the correction still needs, at 1 ns per µs. -/
def execSlewComplete (s : State) : Out :=
  let t := s.dev.time
  match timeTo s (t.dtime + (1000 * t.slewLeft.natAbs - t.slewAcc)) with
  | some s => event s
  | none => event s
/-- LOCKED_CHANGE (R316): FW7 writes LOCKED. -/
def execLockedChange (v : Bool) (s : State) : Out := event (if fwWorks s 7 then lockedSet s v else s)
/-- TIMESTAT_ERR_CLEAR (R2). -/
def execTimestatErrClear (s : State) : Out := event (timestatClear s)

/-- Die 1's copy of DTIME has come to differ from die 0's by `diff`. DTIME never runs backwards: where the copy is to lie
below what it was, it has stood still while die 0's has moved on (R315). -/
def diverge (s : State) (diff : Int) : Option State :=
  let t := s.dev.time
  let new := ((t.dtime : Int) + diff).toNat
  if t.dtime1 ≤ new then some (modDev s fun d => { d with time := { d.time with dtime1 := new } })
  else (timeTo s ((t.dtime1 : Int) - diff).toNat).map fun u =>
    modDev u fun d => { d with time := { d.time with dtime1 := t.dtime1 } }

/-- DTIME_DIVERGENCE (R315): die 1's copy of DTIME has come to differ from die 0's by more than 2 ns. It is slewed to
die 0's as disciplined time moves on. -/
def execDtimeDivergence (diff : BitVec 32) (s : State) : Out :=
  match if diff.toInt < -2 ∨ 2 < diff.toInt then diverge s diff.toInt else none with
  | some s =>
    let tval : Word := w64 (2 + diff.toNat * 2 ^ 32)
    event (raiseDev (record s 0x39 0 [tval.toNat]) (logCore s) 0x39 tval)
  | none => event s

/-- MAPSW (R331). -/
def execMapsw (s : State) : Out := event (mapswSet s)
/-- CSSTAT_READ (R327). -/
def execCsstatRead (s : State) : Out := let r := csstatGet s; event { r.2 with devRead := r.1 }
/-- DETSTAT_READ (R408). -/
def execDetstatRead (s : State) : Out := let r := detstatGet s; event { r.2 with devRead := r.1 }

/-! ### Active messages (R242) -/

/-- The core that owns an active message's data. -/
def ownerOf (s : State) (la role data : Nat) : Option Nat :=
  if data / 2 ^ 44 % 16 = 15 then some (bits data 43 33)
  else match findLaunch s la with
    | none => none
    | some l =>
      let cs := roleCores l role
      let f := bits data 47 8
      let h := f % 2 ^ 16 ^^^ f / 2 ^ 16 % 2 ^ 16 ^^^ f / 2 ^ 32
      if cs.isEmpty then none else cs[h % cs.length]?

/-- An active message posted by a front end; none where the command is refused: the owning core has no matching queue, or
that queue's HANDLER is not the handler address that the command names, where it names one. Types 0xFFFE and 0xFFFF are
no message's own (R225). -/
def postActive (s : State) (front : Node) (la ty role data : Nat) (handler : Option Nat) (payload : List Word)
    (slate : Word) : Option State :=
  match ownerOf s la role data with
  | none => none
  | some core =>
    let t : BitVec 16 := BitVec.ofNat 16 ty
    let m : Message := ⟨t, t, slate, 0, w64 data :: payload, front, some la, handler⟩
    match matchQueue s (.tile core) m with
    | none => none
    | some q =>
      let other := match handler with
        | some h => decide (((getCore s (.tile core)).queues[q]).handler ≠ h)
        | none => false
      if 0xFFFE ≤ t.toNat || other then none
      else some (sendPkt s front (.core core) 0 (.message m none none))

/-! ### The call sheet (R326, R327) -/

/-- The entry with VALID cleared. -/
def SheetEntry.clearValid (e : SheetEntry) : SheetEntry :=
  match e.words with
  | [] => e
  | w :: l => { e with words := w64 (w.toNat % 2 ^ 63) :: l }

/-- Whether entry `i` comes before every other one that is due: in order of their times, and then of the table. -/
def entryFirst (s : State) (i : Nat) (e : SheetEntry) : Bool :=
  let t := s.dev.time
  s.dev.sheet.active.zipIdx.all fun x =>
    !entryDue t x.1 || decide (entryTime t e < entryTime t x.1)
      || (decide (entryTime t e = entryTime t x.1) && decide (i ≤ x.2))

/-- LATE counted, saturating (Table 14.14). -/
def countLate (s : State) : State :=
  modDev s fun d => { d with sheet := { d.sheet with late := Nat.min (d.sheet.late + 1) 0xFFFF } }

/-- An entry of the active sheet replaced. -/
def putEntry (s : State) (i : Nat) (e : SheetEntry) : State :=
  modDev s fun d => { d with sheet := { d.sheet with active := d.sheet.active.set i e } }

/-- An entry fires at DTIME `now` (R327): its message is posted, or the refusal recorded; a late post is counted. A
one-shot entry loses VALID. -/
def fireEntry (s : State) (i : Nat) (e : SheetEntry) (now : Nat) : State :=
  let late := decide (entryTime s.dev.time e + 50 < now)
  let slate := mkSlate s (takeNo s) e.phase 2
  let s := putEntry s i (if e.abs then e.clearValid else { e with fired := true })
  let s := modDev s fun d => { d with sheet := { d.sheet with posted := now } }
  let s := if late then record (countLate s) 0 0 [i, takeNo s, now] else s
  let w2 := e.word 2
  match postActive s .callFront (w2 % 2 ^ 16) (bits w2 31 16) (bits w2 33 32) (e.word 3 % 2 ^ 48) none
      ((List.range 7).map fun k => w64 (e.word (4 + k))) slate with
  | some s => s
  | none => record s 0x08 0 [i, takeNo s]

/-- CALL_SHEET_ENTRY_FIRE (R327): a periodic entry that is due in this take, in its turn, while FW2 works (R15). -/
def execCallSheetEntryFire (i : Nat) (s : State) : Out :=
  let t := s.dev.time
  match s.dev.sheet.active[i]? with
  | some e =>
    let now := Nat.max t.dtime (entryTime t e)
    match timeTo s now with
    | some x => event (if fwWorks s 2 && !e.abs && entryDue t e && entryFirst s i e then fireEntry x i e now else s)
    | none => event s
  | none => event s

/-- ONE_SHOT_FIRE (R327): DTIME has reached a one-shot entry's time. -/
def execOneShotFire (i : Nat) (dtime : Word) (s : State) : Out :=
  match s.dev.sheet.active[i]?, timeTo s dtime.toNat with
  | some e, some t =>
    if fwWorks s 2 && e.valid && e.abs && entryFirst s i e && decide (e.word 1 ≤ dtime.toNat) then
      event (fireEntry t i e dtime.toNat)
    else event s
  | _, _ => event s

/-- Entries that are due before a clapper and have not fired fire before it, in order. -/
def fireRest (now : Nat) : Nat → State → State
  | 0, s => s
  | n + 1, s =>
    let t := s.dev.time
    match s.dev.sheet.active.zipIdx.find? fun x =>
        entryDue t x.1 && entryFirst s x.2 x.1 && decide (entryTime t x.1 < now) with
    | some (e, i) => fireRest now n (fireEntry s i e now)
    | none => s

/-! ### Measurement (R395) -/

/-- MRₖ extended with an item, by FW0 alone, while it works (R15). -/
def measure (s : State) (k : Fin 16) (item : List Byte) : State :=
  if !fwWorks s 0 then s
  else modDev s fun d =>
    let mr := Config.shake256 64 (d.sec.mrs[k] ++ Config.shake256 64 item)
    { d with sec := { d.sec with mrs := d.sec.mrs.set k mr } }

/-- The 128 bytes of a call-sheet entry. -/
def SheetEntry.bytes (e : SheetEntry) : List Byte := (List.range 16).flatMap fun i => bytesOf (e.word i) 8

/-! ### The clapper (R17, R18, R92, R318, R326, R408) -/

/-- The tasks of deterministic launches that slip at a clapper (R408). -/
def slipsAt (s : State) : Nat :=
  s.cores.foldl (fun n c => n + c.2.queues.toList.countP fun q =>
    q.valid && q.serial && !q.isHeld && (q.resume || !q.msgs.isEmpty) && decide (0 < q.takeLeft)
      && (match q.launch.bind (findLaunch s) with
        | some l => l.det
        | none => false)) 0

/-- Slips counted in DETSTAT and recorded one by one (R408). -/
def countSlips (s : State) (n take : Nat) : State :=
  if n = 0 then s
  else
    let s := modDev s fun d => { d with slips := Nat.min (d.slips + n) 0xFFFF, lastSlip := take }
    (List.range n).foldl (fun s _ => record s 0 0 [take]) s

/-- The refill of every task's per-take budget (R92): the budget hold ends. -/
def refill (s : State) : State :=
  { s with cores := s.cores.map fun c => (c.1, { c.2 with queues := c.2.queues.map fun q =>
      if q.valid && q.serial then
        { q with takeLeft := if q.takeBudget = 0 then 0xFFFFFFFF else q.takeBudget, budgetHold := false }
      else q }) }

/-- The loaded call sheet becomes active at clapper `n`, whose time is `at_`; its one-shot entries of the past never
fire (R326, R327). -/
def activateSheet (s : State) (at_ : Nat) : State :=
  match s.dev.sheet.pending with
  | none =>
    modDev s fun d => { d with sheet := { d.sheet with active := d.sheet.active.map fun e => { e with fired := false } } }
  | some (id, es) =>
    let past (e : SheetEntry) : Bool := e.valid && e.abs && decide (e.word 1 < at_)
    let s := modDev s fun d => { d with sheet := { d.sheet with
      pending := none, sheet := id
      active := es.map fun e => if past e then e.clearValid else { e with fired := false } } }
    let s := (es.zipIdx.filter fun x => past x.1).foldl (fun s x => record (countLate s) 0 0 [x.2, takeNo s]) s
    measure s 6 (es.flatMap (·.bytes))

/-- The image maps that a clapper switches to are measured (R395). -/
def measureMaps (s : State) (switched : Bool) : State :=
  if switched then measure s 6 s.dev.image.maps.bytes else s

/-- What every clapper does, a power failure or not: TAKENO is set (R318, R384), and what the blocks derive again takes
effect (R6). -/
def setTake (s : State) (n dtime : Nat) : State :=
  modDev s fun d => { d with
    time := { d.time.advance dtime with takeno := n, first := n + 1, fired := true, epochNow := d.time.epochSet }
    pair := { d.pair with hbtol := if d.pair.hbtolBack then 5000 else d.pair.hbtol, hbtolBack := false } }

/-- Clapper `n` fires: TAKENO, the refill, the swap of the input image, the take interrupt, and the call sheet (R17,
R318). Slips are judged before the refill (R408). -/
def clapper (s : State) (dtime : Nat) : State :=
  let t := s.dev.time
  let n := t.first
  let due := t.due n
  if s.dev.power.failing ≠ 0 then setTake s n dtime
  else
    let s := if fwWorks s 2 then fireRest due s.dev.sheet.active.length s else s
    let slips := slipsAt s
    let switched := s.dev.image.mapPend || s.dev.image.mapsBack
    let s := countSlips (setTake s n dtime) slips n
    let s := measureMaps (swapInput (refill s)) switched
    let s := takeLate s
    let s := modDev s fun d => { d with
      image := { d.image with egressDone := false }
      ctrl := d.ctrl.map fun c => { c with takeIrq := true, outdone := false } }
    if fwWorks s 2 then activateSheet s due else s

/-- CLAPPER (R317, R318): the next clapper fires within 4 ns of its time. What is due before it comes first: the egress
swap and the posts of the call sheet. -/
def execClapper (dtime : Word) (s : State) : Out :=
  let t := s.dev.time
  let due := t.due t.first
  match timeTo s dtime.toNat with
  | some _ =>
    if t.run && !swapPending s && decide (due ≤ dtime.toNat + 4) && decide (dtime.toNat ≤ due + 4) then
      event (clapper s dtime.toNat)
    else event s
  | none => event s

end Sys2Proof.Machine
end

