-- ==== Sys2Proof/Machine/Boot.lean ====
section
/-! DEFINITION. Firmware images, the boot and recovery, and the firmware cores' mailboxes and watchdog (R15, R387 to
R393, R395). -/

namespace Sys2Proof.Machine

/-! ### Umoitis images (R390, R391) -/

/-- A field of an image: `n` bytes from an offset. -/
def imgBytes (b : List Byte) (off n : Nat) : List Byte := (b.drop off).take n
/-- The field as a number. -/
def imgNat (b : List Byte) (off n : Nat) : Nat := natOf (imgBytes b off n)

/-- Whether an image's header is formed as Table 18.3 gives, and its body is whole. -/
def imageFormed (b : List Byte) : Bool :=
  let cls := imgNat b 4 1
  let svn := imgNat b 5 1
  let size := imgNat b 0x10 8
  decide (512 ≤ b.length) && imgNat b 0 4 == 0x494F4D55 && decide (cls ≤ 10) && decide (svn ≤ if cls ≤ 8 then 0 else 64)
    && imgNat b 6 2 == 0 && imgNat b 0x20 32 == 0 && decide (1 ≤ size) && decide (size ≤ 2 ^ 26) && b.length == 512 + size

/-- Whether an image is accepted under the fuses (R391). -/
def accepted (x : Security) (b : List Byte) : Bool :=
  let mkey := imgBytes b 0x180 57
  let okey := imgBytes b 0x1C0 57
  let signed := imgBytes b 0 0x80
  let owner := match liveSlot x with
    | some i => (x.owners[i]?).map (·.1)
    | none => none
  imageFormed b && Config.shake256 32 mkey == Config.makerKeyDigest && some (Config.shake256 32 okey) == owner
    && Config.ed448Verify mkey (imgBytes b 0x80 114) signed && Config.ed448Verify okey (imgBytes b 0x100 114) signed
    && Config.shake256 64 (b.drop 512) == imgBytes b 0x40 64
    && (decide (imgNat b 4 1 ≤ 8) || decide (x.svn ≤ imgNat b 5 1))

/-- The image of a class in the store. -/
def storedImage (x : Security) (cls : Nat) : Option (List Byte) := (x.store.find? (·.1 == cls)).map (·.2)
/-- The store with the image of a class replaced: one image for each class, with no second slot (R392). -/
def Security.keep (x : Security) (cls : Nat) (b : List Byte) : Security :=
  { x with store := (cls, b) :: x.store.filter (·.1 != cls) }

/-! ### Boot (R392) -/

/-- The measurement register of a class (Table 18.6). -/
def classMr (cls : Nat) : Fin 16 := if cls = 0 then 0 else if cls = 8 then 1 else if cls ≤ 7 then 2 else 3

/-- The security part changed. -/
def modSec (s : State) (f : Security → Security) : State := modDev s fun d => { d with sec := f d.sec }

/-- What an accepted image becomes: a firmware core that runs its body from ENTRY, the microcode revision, the translator, or
the library with the arena allocator behind gate 255 (R356; log entry 88). -/
def startImage (s : State) (cls : Nat) (b : List Byte) : State :=
  if cls ≤ 7 then
    let s := modFw s cls fun f => { f with started := true, asleep := false, idle := 0, body := b.drop 512 }
    modCtx s ⟨.fw (Fin.ofNat 8 cls), 0⟩ fun c => { c with pc := imgNat b 0x18 8 % 2 ^ 48 / 8 * 8 }
  else if cls = 8 then modSec s fun x => { x with mcrev := BitVec.ofNat 16 (imgNat b 8 2) }
  else if cls = 9 then modSec s fun x => { x with translator := true }
  else
    let (v, s) := freshWord s
    let g : Gate := { Gate.off with valid := true, level := true, callers := 1, narg := 2, nret := 1, budget := 4000, handler := v.toNat % 2 ^ 48 / 8 * 8, asid := v.truncate 12 }
    modDev s fun d => { d with sec := { d.sec with library := true }, gates := aset 255 g d.gates }

/-- The classes in the order of the boot. -/
def bootOrder : List Nat := [0, 8, 1, 2, 3, 4, 5, 6, 7, 9, 10]

/-- The end of the boot: FW3 loads PTROOT with an empty directory, and FW1 opens the host queues (log entry 10). -/
def bootEnd (s : State) : State :=
  let page := (s.dev.nextPage + 7) / 8 * 8
  let s := { s with mem := zeroBytes s.mem (4096 * page) 32768 }
  modDev s fun d => { d with
    ptroot := w64 (4096 * page + 1), nextPage := page + 8, sec := { d.sec with booted := true, recovery := none } }

/-- The boot from a place in its order: a missing or refused image of classes 0 to 8 stops it, and one of the others is
skipped. -/
def bootFrom : List Nat → State → State
  | [], s => bootEnd s
  | k :: l, s =>
    match (storedImage s.dev.sec k).filter fun b => accepted s.dev.sec b && imgNat b 4 1 == k with
    | some b => bootFrom l (startImage (measure s (classMr k) b) k b)
    | none => if k ≤ 8 then modSec s fun x => { x with recovery := some k } else bootFrom l s

/-- The memory outside the package: the host's, the guest's and the partner's. -/
def outsideMem (m : List Host.Cell) : List Host.Cell := m.filter fun c => decide (2 ^ 46 ≤ c.1) && decide (c.1 < imageBase)

/-- The machine as a cold reset finds it: what the fuses, the store, the reels and the world outside hold, and which
pages and tiles have been retired, stays. -/
def resetState (s : State) : State :=
  let d := s.dev
  let r := Device.reset
  { State.reset with
    mem := outsideMem s.mem, inputs := s.inputs, outer := s.outer, fresh := s.fresh, ids := s.ids
    dev := { r with
      sec := { r.sec with owners := d.sec.owners, svn := d.sec.svn, store := d.sec.store }
      reels := { r.reels with slot0 := d.reels.slot0, slot1 := d.reels.slot1 }
      host := { r.host with completions := d.host.completions }
      sparePages := d.sparePages, retired := d.retired, spareTiles := d.spareTiles, tileMap := d.tileMap } }

/-- COLD_RESET (R392): the ROM measures itself, and the images are loaded, accepted and measured in order. FUSESTAT is
loaded and measured (R395). -/
def coldReset (s : State) : State :=
  let s := modSec (resetState s) fun x => { x with
    mrs := x.mrs.set 0 (Config.shake256 64 (x.mrs[0] ++ Config.bootRomDigest)), usedShown := x.owners.length }
  bootFrom bootOrder (measure s 4 (bytesOf (fusestatWord s.dev.sec).toNat 8))

/-- COLD_RESET (R392). -/
def execColdReset (s : State) : Out := event (coldReset s)

/-- RECOVERY_MODE (R393): the missing image, from the partner, which runs and sends it over a link that has trained, or from
the host, is accepted as one from the store is, written to the store, and the boot resumes. -/
def execRecoveryMode (fromPartner : Bool) (image : List Byte) (s : State) : Out :=
  match s.dev.sec.recovery with
  | some k =>
    if (!fromPartner || s.dev.pair.linkUp) && accepted s.dev.sec image && imgNat image 4 1 == k then
      event (bootFrom (bootOrder.dropWhile (· != k)) (modSec s fun x => { x.keep k image with recovery := none }))
    else event s
  | none => event s

/-! ### Mailboxes and the watchdog (R15, R388, R389) -/

/-- The own clock of a firmware core moves on by some ns (R389). -/
def fwClock (s : State) (k : Fin 8) (ns : Nat) : State :=
  modFw s k fun f => { f with idle := if f.mailbox.isEmpty then 0 else f.idle + ns }

/-- FIRMWARE_WATCHDOG (R389): a firmware core with entries that it has neither popped nor kicked for 10 ms of its own clock
has failed. -/
def execFirmwareWatchdog (k : Fin 8) (s : State) : Out :=
  let f := s.fws[k]
  if f.failed || f.mailbox.isEmpty || decide (f.idle < 10000000) then event s
  else event (machineCheck (modFw s k fun f => { f with failed := true }) 1 k.val 0 0)

/-- MBXGO (R388): held while the target's mailbox is full. -/
def execMbxgo (k tgt : Fin 8) (s : State) : Out := event ((mailGo s k.val tgt.val).getD s)

/-- MBXPOP (R388). -/
def execMbxpop (k : Fin 8) (s : State) : Out := event (mailPop s k.val)

/-- KICK (R389). -/
def execKick (k : Fin 8) (s : State) : Out := event (mailKick s k.val)

/-- MAILBOX_ENTRY_ARRIVAL (R388): an entry that its source has held enters the mailbox. -/
def execMailboxEntryArrival (k : Fin 8) (s : State) : Out :=
  let f := s.fws[k]
  match f.held with
  | m :: l =>
    if f.mailbox.length < 64 then
      event (modFw s k fun f => { f with mailbox := f.mailbox ++ [m], held := l, asleep := false })
    else event s
  | [] => event s

end Sys2Proof.Machine
end

