-- ==== Sys2Proof/Machine/Sys.lean ====
section
/-! DEFINITION. The SYS family: NOP and hints, END and YIELD, fences, traps and returns, system registers, gates
and the arena allocator, slates, time, KILL, INVPG and SNAP (R44, R77, R80, R208 to R211, R323 to R325, R344 to
R357). -/

namespace Sys2Proof.Machine

/-- NOP (R44). -/
def execNop (s : State) : Out := issue (cForm 0) ok s

/-- A hint executes as NOP (R44). -/
def execHint (d a b n : Fin 32) (s : State) : Out := issue (cForm (wP 0 d a b 31 n)) ok s

/-! ### END and YIELD -/

/-- Whether a recruitment of the issuing context has not been answered: what counts its children is held
(R98, R99; log entry 27). -/
def recruiting (s : State) : Bool :=
  (curCore s).recruits.any fun r => r.who.ctx == s.cur && r.who.gen == (curCtx s).gen

/-- The waits of END: for an idle sequencer, and for completion interrupts that are outstanding. A callee of a
gate unwinds with code 0x16 (R351). -/
def endCheck (s : State) : Do Unit :=
  let c := opCtx s
  if 0 < c.depth then trap 0x16 (Config.openWord s.fresh)
  else if c.seqr.isSome then .error (.wait s 8 0 0x7FF)
  else if 0 < c.cpyOpen then .error (.wait s 9 0 0x7FF)
  else if recruiting s then .error (.hold s)
  else .ok ()

/-- The end of the issuing activation. On a firmware core the context goes on at the next bundle (R387). -/
def ending (s : State) : Do Done := .ok { s := endActivation s s.cur, ended := !isFw s.cur.agent }

/-- The resume flag and the resume slate of the activation's queue (R80). -/
def setResume (s : State) : State :=
  let c := opCtx s
  match c.queue with
  | some q => if c.spawned then s else modQueue s s.cur.agent q fun x => { x with resume := true, resumeSlate := c.slate }
  | none => s

/-- END (R77). -/
def execEndAct (s : State) : Out := issue (cForm 0x20) (fun s => do endCheck s; ending s) s

/-- YIELD (R80). -/
def execYield (s : State) : Out := issue (cForm 0x40) (fun s => do endCheck s; ending (setResume s)) s

/-! ### Fences -/

/-- FENCE with the release bit (R208). -/
def execFenceRel (sc : Scope) (s : State) : Out :=
  issue (cForm (wP 0 2 0 0 3 (scopeCode sc))) (fun s => do let s ← release s sc; ok s) s

/-- FENCE with the acquire bit (R209). -/
def execFenceAcq (sc : Scope) (s : State) : Out :=
  issue (cForm (wP 0 1 0 0 3 (scopeCode sc))) (fun s => do let s ← acquire s sc; ok s) s

/-- FENCE with both bits: the release comes first (R210). -/
def execFenceAr (sc : Scope) (s : State) : Out :=
  issue (cForm (wP 0 3 0 0 3 (scopeCode sc))) (fun s => do let s ← fenceAr s sc; ok s) s

/-- Bundles that the fetch cache holds from homes within a scope leave it (R211). -/
def dropFetched (s : State) (sc : Scope) : State :=
  modCurCore s fun co => { co with icache := co.icache.filter fun e => !inScope s sc (homeNode s e.1) }

/-- IFENCE (R211). -/
def execIfence (sc : Scope) (s : State) : Out :=
  issue (cForm (wP 0 0 0 0 4 (scopeCode sc))) (fun s => ok (dropFetched s sc)) s

/-! ### Traps and returns -/

/-- TRET's effect (R344). It has waited for a sequence of the handler that replays (R161); one that is still captured ends
with the return, where the banked sequencer takes its place (log entry 38). -/
def tretOp (s : State) : Do Done :=
  let c := opCtx s
  if !c.quiet then .error (.hold s)
  else
    let c' := if c.inTrap then
        match c.trap with
        | some b => c.leaveTrap b
        | none => { c with status := stSet (stSet c.status 0 (c.st 1)) 3 false, pc := c.epc.toNat / 8 * 8 }
      else
        match c.ui with
        | some b => c.leaveUi b
        | none => { c with status := stSet c.status 4 false, pc := c.uepc.toNat / 8 * 8 }
    .ok { s := setCtx s s.cur c', npc := some c'.pc }

/-- TRET (R344). -/
def execTret (s : State) : Out := issue (cForm 0xA0) tretOp s

/-- SYSCALL raises cause 0x3D (R346). -/
def execSyscall (n : BitVec 10) (s : State) : Out :=
  issue (cForm (wP 0 0 (n.toNat / 32) (n.toNat % 32) 6 0)) (fun _ => trap 0x3D (n.zeroExtend 64)) s

/-- BRK raises cause 0x33 (R346). -/
def execBrk (n : BitVec 10) (s : State) : Out :=
  issue (cForm (wP 0 0 (n.toNat / 32) (n.toNat % 32) 7 0)) (fun _ => trap 0x33 (n.zeroExtend 64)) s

/-- SNAP's effect (R355). -/
def snapOp (d : GReg) (s : State) : Do Done :=
  let x := s.dev.snap
  if x.swEn && !x.held then
    let s := snapshot s 1
    ok (wgSlow s d (s.dev.snap.seq.zeroExtend 64))
  else ok (wgSlow s d (w64 (2 ^ 63 + x.seq.toNat)))

/-- SNAP (R355). -/
def execSnap (d : GReg) (s : State) : Out := issue { cForm (wP 0 d 0 0 8 0) with gw := [d] } (snapOp d) s

/-! ### SYSR and SYSW (R49, R347) -/

/-- SYSR's effect. -/
def sysrOp (d : GReg) (num : Nat) (s : State) : Do Done :=
  let r := if num < 0x200 then readSys s num else readDev s (agentNo s.cur.agent) num
  ok (wgSlow r.2 d r.1)

/-- SYSR (R347). -/
def execSysr (d : GReg) (num : BitVec 10) (s : State) : Out :=
  issue { cForm (wP 0 d (num.toNat / 32) (num.toNat % 32) 9 0) with gw := [d] } (sysrOp d num.toNat) s

/-- SYSW's effect. -/
def syswOp (num : Nat) (r : GReg) (s : State) : Do Done :=
  if num < 0x200 then ok (writeSys s num (rg s r))
  else do
    let s ← writeDev s (agentNo s.cur.agent) num (rg s r)
    ok s

/-- SYSW (R347). -/
def execSysw (num : BitVec 10) (r : GReg) (s : State) : Out :=
  issue { cForm (wP 0 r (num.toNat / 32) (num.toNat % 32) 10 0) with gr := [r], sw := [num.toNat] }
    (syswOp num.toNat r) s

/-! ### Gates (R349 to R351) -/

/-- Whether a gate admits the issuing context. -/
def gateAdmits (s : State) (g : Gate) : Bool :=
  let c := opCtx s
  match g.callers with
  | 0 => c.launch.isSome && c.launch == g.launch
  | 1 => c.launch.isSome
  | 2 => match g.launch.bind (findLaunch s) with
    | some l => !isFw s.cur.agent && l.inGroup g.grp (agentNo s.cur.agent)
    | none => false
  | _ => false

/-- The reason why argument `k` is refused, 0 for none (Table 15.10). -/
def argReason (s : State) (akind : BitVec 16) (k : Nat) : Nat :=
  let v := (rg s (Fin.ofNat 32 (4 + k))).toNat
  let co := curCore s
  match akind.toNat / 4 ^ k % 4 with
  | 1 =>
    let n := (rg s (Fin.ofNat 32 (5 + k))).toNat
    let off := v - localAddr (agentNo s.cur.agent) 0
    if v % 8 ≠ 0 ∨ isFw s.cur.agent ∨ v < localAddr (agentNo s.cur.agent) 0 ∨ 2 ^ 20 ≤ off then 1
    else if 65536 < n then 2
    else if n = 0 then 0
    else if 2 ^ 20 < off + n then 1
    else if (List.range ((off + n - 1) / 16384 - off / 16384 + 1)).all fun i => isData (bankRole co (off / 16384 + i)) then 0
    else 1
  | 2 => if v < 64 ∧ (findRegion co (opCtx s).launch v).isSome then 0 else 3
  | _ => 0

/-- The checks of the arguments, in order. -/
def argsCheck (s : State) (g : Gate) (i : Nat) : List Nat → Do Unit
  | [] => .ok ()
  | k :: l =>
    match argReason s g.akind k with
    | 0 => argsCheck s g i l
    | r => trap 0x15 (w64 (r + i % 256 * 256 + k * 2 ^ 16))

/-- Frames of the control bank that a core's contexts hold (R349). -/
def framesHeld (s : State) (a : Agent) : Nat :=
  s.ctxs.foldl (fun n x => if x.1.agent = a then n + x.2.depth else n) 0

/-- The frame that GATE saves. -/
def gateFrame (c : Ctx) (d : GReg) (i nret : Nat) : GateFrame where
  ret := (c.pc + 8) % 2 ^ 64
  d := d
  status := c.status
  asid := c.asid
  gate := i
  nret := nret
  fpctl := c.fpctl
  slate := c.slate
  actLeft := c.actLeft
  actLoaded := c.actLoaded
  inGrace := c.inGrace
  m := c.m
  g := regsFrom c 16 16
  p := c.p
  a := c.a

/-- The callee's context as GATE leaves it. -/
def enterGate (c : Ctx) (d : GReg) (i : Nat) (e : Gate) : Ctx :=
  let g1 : Word := w64 (c.asid.toNat + b2n (c.st 0) * 2 ^ 12 + (c.depth + 1) * 2 ^ 16 + i * 2 ^ 20)
  let budget := Nat.min c.actLeft e.budget
  { c with
    frames := gateFrame c d i e.nret :: c.frames
    g := placeRegs (placeRegs (Vector.replicate 32 0) 1 [g1, c.slate]) 4 (regsFrom c 4 e.narg)
    p := BitVec.allOnes 32
    a := 0
    f := Vector.replicate 32 0
    m := Vector.replicate 8 0
    fpctl := 0
    asid := e.asid
    status := stSet c.status 0 e.level
    actLeft := budget
    actLoaded := budget
    inGrace := false }

/-! ### The arena allocator (R356, R357) -/

/-- The caller's arena key: KIND and KEY. -/
def arenaKey (s : State) : Nat × Nat :=
  let c := opCtx s
  match c.queue with
  | some q =>
    if c.spawned then (1, c.path.toNat)
    else if ((curCore s).queues[q]).serial then (0, q.val)
    else (2, 64 + q.val)
  | none => (1, c.path.toNat)

/-- Whether the launch of the issuing context is in deterministic mode. -/
def isDet (s : State) : Bool := match launchOf s (opCtx s) with
  | some l => l.det
  | none => false

/-- The first word of an entry that holds a key. -/
def arenaWord (key : Nat × Nat) : Nat := 2 ^ 63 + key.1 % 4 * 2 ^ 32 + key.2 % 2 ^ 32

/-- An entry of the chunk table, at its two words, written by the issuing core. -/
def arenaWrite (s : State) (at_ w0 w1 : Nat) : State :=
  homeWrite s at_ (bytesOf w0 8 ++ bytesOf w1 8) 0 (writerNo s.cur.agent) (some (curWho s 0))

/-- The chunk that an Allocate of a key uses: the chunk of the key, else its home chunk, else outside
deterministic mode the next free one; or a failure code. -/
def arenaChunk (s : State) (table n : Nat) (key : Nat × Nat) : Nat ⊕ Nat :=
  let entry (k : Nat) : Nat := readN s.mem (table + 16 * k) 8
  let ks := (List.range (n - 1)).map (· + 1)
  match ks.find? fun k => entry k % 2 ^ 34 + 2 ^ 63 == arenaWord key && bit (entry k) 63 with
  | some k => .inl k
  | none =>
    let h := key.2 % (n - 1)
    if !bit (entry (1 + h)) 63 then .inl (1 + h)
    else if isDet s then .inr 2
    else
      match ((List.range (n - 1)).map fun j => 1 + (h + j) % (n - 1)).find? fun k => !bit (entry k) 63 with
      | some k => .inl k
      | none => .inr 1

/-- A call of the allocator: the word for g4, and the state (Table 15.18). -/
def arenaCall (s : State) : Do (State × Word) :=
  let c := opCtx s
  let op := (rg s 5).toNat
  let size := (rg s 4).toNat
  let ar := c.arena.toNat
  let n := bits ar 39 32
  let chunk := bits ar 31 16 * 256
  let key := arenaKey s
  match if bit ar 63 then findRegion (curCore s) c.launch (ar % 64) else none with
  | none => .ok (s, 3)
  | some (_, r) =>
    let table := localAddr (agentNo s.cur.agent) r.base
    let entry (k : Nat) : Nat := readN s.mem (table + 16 * k) 8
    let held := ((List.range (n - 1)).map (· + 1)).find? fun k =>
      entry k % 2 ^ 34 + 2 ^ 63 == arenaWord key && bit (entry k) 63
    if 2 < op then .ok (s, 4)
    else if op = 2 then
      match held with
      | some k => .ok (s, w64 (readN s.mem (table + 16 * k + 8) 8))
      | none => .ok (s, 0)
    else if op = 1 then
      match held with
      | some k => do
        let s ← release s .package
        .ok (arenaWrite s (table + 16 * k) 0 0, 0)
      | none => .ok (s, 5)
    else if size = 0 ∨ chunk - 64 < size then .ok (s, 4)
    else
      match arenaChunk s table n key with
      | .inr code => .ok (s, w64 code)
      | .inl k => do
        let need := (size + 63) / 64 * 64
        let used := if bit (entry k) 63 then readN s.mem (table + 16 * k + 8) 8 else 0
        if chunk - 64 < used + need then .ok (s, 1)
        else do
          let s ← acquire s .package
          .ok (arenaWrite s (table + 16 * k) (arenaWord key) (used + need), w64 (table + k * chunk + 64 + used))

/-- The registers after a call of the allocator, as GRET leaves them (R351). -/
def afterArena (c : Ctx) (d : GReg) (v : Word) : Ctx :=
  let lo : BitVec 32 := 0xFFFE#32
  (({ c with
    g := placeRegs c.g 1 (List.replicate 15 0)
    p := c.p ||| lo
    a := c.a &&& ~~~lo
    f := Vector.replicate 32 0 } : Ctx).wg 4 v).wg d 0

/-- GATE's effect (R349). Gate 255 runs the resident allocator, whose call returns in this step. A handler off the 8-byte
grid raises cause 0x05 after the checks of R349 (R26). -/
def gateOp (d : GReg) (i : Nat) (s : State) : Do Done :=
  let c := opCtx s
  let e := aget Gate.off i s.dev.gates
  if 255 < i ∨ (4 ≤ d.val ∧ d.val ≤ 11) ∨ d = 0 then
    trap 0x01 (encTval (wP 0 d (i / 32) (i % 32) 11 0) 3 false)
  else if !e.valid then trap 0x14 (w64 (1 + i * 256))
  else if !gateAdmits s e then trap 0x14 (w64 (2 + i * 256))
  else if 4 ≤ c.depth then trap 0x14 (w64 (3 + i * 256))
  else if c.inTrap || c.inUi then trap 0x14 (w64 (5 + i * 256))
  else do
    argsCheck s e i (List.range e.narg)
    if !c.streams.isEmpty || !c.ports.isEmpty then trap 0x15 (w64 (4 + i * 256))
    else if c.a &&& 0xFFFE#32 ≠ 0 then trap 0x15 (w64 (5 + i * 256))
    else if i ≠ 255 ∧ e.handler % 8 ≠ 0 then trap 0x05 (w64 e.handler)
    else if c.seqr.isSome then .error (.wait s 8 0 0x7FF)
    else if !c.quiet || sinksOut s s.cur || decide (4 ≤ framesHeld s s.cur.agent) then .error (.hold s)
    else do
      let s ← fenceAr s .core
      if i = 255 then
        let (s, v) ← arenaCall s
        ok (modCur s fun c => afterArena c d v)
      else .ok { s := modCur (elapse s) fun c => enterGate c d i e, npc := some e.handler }

/-- GATE (R349). -/
def execGate (d : GReg) (i : BitVec 10) (s : State) : Out :=
  issue { cForm (wP 0 d (i.toNat / 32) (i.toNat % 32) 11 0) with
    gw := (List.range 31).map fun i => Fin.ofNat 32 (i + 1) } (gateOp d i.toNat) s

/-- The caller's context as GRET leaves it. -/
def leaveGate (c : Ctx) (f : GateFrame) (rest : List GateFrame) : Ctx :=
  let res := regsFrom c 4 f.nret
  let c' := c.popFrame f rest
  ({ c' with g := placeRegs c'.g 4 res, trap := none, ui := none } : Ctx).wg f.d 0

/-- GRET's effect (R351). -/
def gretOp (s : State) : Do Done :=
  let c := opCtx s
  match c.frames with
  | [] => trap 0x14 4
  | f :: rest =>
    if replaying c then .error (.wait s 8 0 0x7FF)
    else if !c.quiet || sinksOut s s.cur then .error (.hold s)
    else do
      let s ← fenceAr s .core
      .ok { s := modCur s fun c => leaveGate c f rest, npc := some f.ret }

/-- GRET (R351). -/
def execGret (s : State) : Out :=
  issue { cForm 0x180 with gw := (List.range 31).map fun i => Fin.ofNat 32 (i + 1) } gretOp s

/-! ### SLATE and SLCHK (R323, R324) -/

/-- The region that a SLATE or SLCHK form names (R323). -/
def slateRegion (s : State) (v : Word) : Do (Nat × Region) :=
  let i := v.toNat % 64
  match findRegion (curCore s) (opCtx s).launch i with
  | some r => .ok r
  | none => trap 0x18 (w64 (2 + i * 256))

/-- The send slate of the issuing context replaced. -/
def setSlate (s : State) (v : Word) : State := modCur s fun c => { c with slate := v }

/-- SLATE.MIN (R323). -/
def execSlateMin (d a : GReg) (s : State) : Out :=
  issue { cForm (wP 0 d a 0 13 0) with gr := [a], gw := [d] } (fun s =>
    let v := oldest s (opCtx s).slate (rg s a)
    ok (wg (setSlate s v) d v)) s

/-- SLATE.SET's effect. -/
def slateSetOp (d a : GReg) (s : State) : Do Done :=
  let v := rg s a
  if v ≠ 0 ∧ takeNo s < v.toNat / 2 ^ 16 then trap 0x18 1
  else ok (wg (setSlate s (if v = 0 then 0 else stampMember s v)) d (opCtx s).slate)

/-- SLATE.SET (R323). -/
def execSlateSet (d a : GReg) (s : State) : Out :=
  issue { cForm (wP 0 d a 1 13 0) with gr := [a], gw := [d] } (slateSetOp d a) s

/-- SLATE.RGN's effect. -/
def slateRgnOp (d a : GReg) (s : State) : Do Done := do
    let (h, r) ← slateRegion s (rg s a)
    ok (wgSlow (modRegion s s.cur.agent h fun x => { x with slate := (opCtx s).slate }) d r.slate)

/-- SLATE.RGN (R323). -/
def execSlateRgn (d a : GReg) (s : State) : Out :=
  issue { cForm (wP 0 d a 2 13 0) with gr := [a], gw := [d] } (slateRgnOp d a) s

/-- SLATE.RD (R323). -/
def execSlateRd (d : GReg) (s : State) : Out :=
  issue { cForm (wP 0 d 0 3 13 0) with gw := [d] } (fun s => ok (wg s d (opCtx s).slate)) s

/-- SLATE.FOLD's effect. -/
def slateFoldOp (d a : GReg) (s : State) : Do Done := do
    let (_, r) ← slateRegion s (rg s a)
    let v := oldest s (opCtx s).slate r.slate
    ok (wgSlow (setSlate s v) d v)

/-- SLATE.FOLD (R323). -/
def execSlateFold (d a : GReg) (s : State) : Out :=
  issue { cForm (wP 0 d a 4 13 0) with gr := [a], gw := [d] } (slateFoldOp d a) s

/-- A stale finding (R324): counted, raised to FW4 and queued as the region's control word asks. A notification that no
queue matches is discarded and recorded; while the queue that it matches has no room for it, the bundle is held. -/
def staleFound (s0 : State) (i h : Nat) (r : Region) (tval : Word) : Do State :=
  let a := s0.cur.agent
  let s := modRegion s0 a h Region.countStale
  let s := if r.ask then raiseFw (record s 0x17 (agentNo a) [tval.toNat]) (logCore s) 0x17 tval a else s
  if r.sinken then
    let m : Message := ⟨r.stype, r.stype, r.slate, 0, [r.local (agentNo a), w64 i], nodeOf a, (opCtx s).launch, none⟩
    match placeMsg s a m with
    | .done s => .ok s
    | .unmatched => .ok (record s 0x17 (agentNo a) [i])
    | .full => .error (.hold s0)
  else .ok s

/-- SLCHK's effect. -/
def slchkOp (traps : Bool) (d a : GReg) (s : State) : Do Done := do
    let i := (rg s a).toNat % 64
    let (h, r) ← slateRegion s (rg s a)
    if r.slate = 0 then ok (wgSlow s d (w64 (2 ^ 62)))
    else
      let age := slateAge s r.slate
      let stale := r.maxage != 255 && decide (r.maxage < age)
      let tval : Word := w64 (i + agentNo s.cur.agent % 2 ^ 11 * 2 ^ 6 + r.slate.toNat % 2 ^ 47 * 2 ^ 17)
      if stale && traps then trap 0x17 tval
      else do
        let s ← if stale then staleFound s i h r tval else .ok s
        ok (wgSlow s d (w64 (b2n stale * 2 ^ 63 + age)))

/-- SLCHK (R324). -/
def execSlchk (d a : GReg) (s : State) : Out :=
  issue { cForm (wP 0 d a 0 14 0) with gr := [a], gw := [d] } (slchkOp false d a) s

/-- SLCHK, form 1, which raises cause 0x17 (R324). -/
def execSlchkTrap (d a : GReg) (s : State) : Out :=
  issue { cForm (wP 0 d a 1 14 0) with gr := [a], gw := [d] } (slchkOp true d a) s

/-! ### TIME (R325) -/

/-- TIME, form 0 (R325). -/
def execTime (d : GReg) (s : State) : Out :=
  issue { cForm (wP 0 d 0 0 15 0) with gw := [d] } (fun s =>
    let (t, s) := readTime s
    ok (wgSlow s d (w64 t))) s

/-- TIME, form 1 (R325). -/
def execTimeSinceClapper (d : GReg) (s : State) : Out :=
  issue { cForm (wP 0 d 0 1 15 0) with gw := [d] } (fun s =>
    let (t, s) := readTime s
    let b := s.dev.time
    ok (wgSlow s d (if b.fired then i64 ((t : Int) - (b.due b.takeno : Int)) else 0))) s

/-- TIME, form 2 (R325). -/
def execTimeToEgress (d : GReg) (s : State) : Out :=
  issue { cForm (wP 0 d 0 2 15 0) with gw := [d] } (fun s =>
    let (t, s) := readTime s
    let b := s.dev.time
    ok (wgSlow s d (i64 ((b.due b.takeno + b.egress : Nat) - (t : Int))))) s

/-! ### KILL and INVPG (R352, R353) -/

/-- A request whose value comes back to a general register: its number, which the context awaits. -/
def awaitReg (s : State) (d : GReg) : Nat × State :=
  let (id, s) := newId s
  (id, modCur s (·.await ⟨id, .reg d⟩))

/-- KILL's effect (R352). A KILL of the issuing context takes effect at once. -/
def killOp (d a : GReg) (s : State) : Do Done :=
  let v := (rg s a).toNat
  let core := v % 2 ^ 11
  if !inLaunch s (opCtx s) core then trap 0x08 (reason2 core)
  else if s.cur.agent = .tile core ∧ bits v 21 16 = s.cur.slot ∧ bits v 47 32 = (opCtx s).gen.toNat then
    .ok { s := killCtx s s.cur, ended := true }
  else
    let (id, s) := awaitReg s d
    ok (sendPkt s (nodeOf s.cur.agent) (.core core) 3 (.kill (curWho s id) id (rg s a) (bit v 63)))

/-- KILL (R352). -/
def execKill (d a : GReg) (s : State) : Out :=
  issue { cForm (wP 0 d a 0 16 0) with gr := [a], gw := [d] } (killOp d a) s

/-- INVPG's effect (R353). -/
def invpgOp (d a b : GReg) (s : State) : Do Done :=
  if s.dev.invpg.isSome then .error (.hold s)
  else
    let v := (rg s b).toNat
    let va := (rg s a).toNat
    let (id, s) := awaitReg s d
    ok (modDev s fun x => { x with invpg := some ⟨curWho s id, id, va, v % 2 ^ 12, bits v 13 12, bit v 14⟩ })

/-- INVPG (R353). -/
def execInvpg (d a b : GReg) (s : State) : Out :=
  issue { cForm (wP 0 d a b 17 0) with gr := [a, b], gw := [d] } (invpgOp d a b) s

end Sys2Proof.Machine
end

