-- ==== Sys2Proof/Machine/Vector.lean ====
section
/-! DEFINITION. The vector unit and the sequencer: VFP, VFMA, VINT, VCMP, VSFU, VCVT, VRAND, VMOVE and VSEQ
(R147 to R149, R158 to R171). An `Fx` definition is an instruction's own effect, which its `exec` definition issues
in a bundle and the sequencer replays. -/

namespace Sys2Proof.Machine

/-! ### Arithmetic by element -/

/-- A rounded result over operands: a signalling NaN among them sets invalid (R56). -/
def arith (f : Fmt) (mode : RMode) (ftz : Bool) (ops : List Num) (r : OpRes) : Nat × FpFlags :=
  let (c, fl) := roundNum f mode ftz r
  (c, if ops.any (·.isSig) then fl ||| 8 else fl)

/-- The code of a value that a format holds. -/
def codeOf (f : Fmt) : Num → Nat
  | .fin a m e => b2n a * 2 ^ f.low + packMag f m e
  | .inf a => b2n a * 2 ^ f.low + f.infCode
  | .nan _ _ _ => f.canon

/-- VMIN, or VMAX with `hi`: −0 lies below +0; one NaN gives the other operand (R163). -/
def pickNum (f : Fmt) (hi : Bool) (x y : Num) : Nat × FpFlags :=
  let fl := if x.isSig || y.isSig then 8 else 0
  if x.isNan && y.isNan then (f.canon, fl)
  else if x.isNan then (codeOf f y, fl)
  else if y.isNan then (codeOf f x, fl)
  else
    let c := cmpNum x y
    let less := decide (c < 0) || (c == 0 && x.neg?)
    (codeOf f (if less != hi then x else y), fl)

/-- A VFP operation of two operands in a format. -/
def vfp2 (l : Lanes) (op : Fmt → Num → Num → Nat × FpFlags) (d a b : FReg) (s : State) : Do Done :=
  let (f, n) := lanesFmt l
  let dec := decodeNum f (fpFtz (opCtx s))
  fpVec s d (map2 n (fun x y => op f (dec x) (dec y)) (rf s a) (rf s b))

/-- An operation rounded once (R163). -/
def rounded (s : State) (r : Rnd) (op : RMode → Num → Num → OpRes) (f : Fmt) (x y : Num) : Nat × FpFlags :=
  let m := rndMode (opCtx s) r
  arith f m (fpFtz (opCtx s)) [x, y] (op m x y)

/-- VABS and VNEG: the sign bit alone changes; under FTZ a subnormal gives a zero of the result's sign (R163). -/
def vsign (l : Lanes) (op : Bool → Bool) (d a : FReg) (s : State) : Do Done :=
  let (f, n) := lanesFmt l
  let one (x : Nat) : Nat × FpFlags :=
    let sub := x / 2 ^ f.mb % 2 ^ f.eb == 0
    (b2n (op (bit x f.low)) * 2 ^ f.low + (if fpFtz (opCtx s) && sub then 0 else x % 2 ^ f.low), 0)
  fpVec s d (map1 n one (rf s a))

/-- The VFMA family (R164): the product and the addend, each negated or not, added exactly and rounded in
FPCTL.RM. -/
def vfmaOp (negP negC : Bool) (d a b c : FReg) (s : State) : Do Done :=
  let m := fpRm (opCtx s)
  let ftz := fpFtz (opCtx s)
  let dec := decodeNum fp32 ftz
  let one (x y z : Nat) : Nat × FpFlags :=
    let z := dec z
    let r : OpRes := do
      let p ← mulNum (dec x) (dec y)
      addNum m (if negP then p.flip else p) (if negC then z.flip else z)
    arith fp32 m ftz [dec x, dec y, z] r
  fpVec s d (map3 32 one (rf s a) (rf s b) (rf s c))

/-- A VINT operation (R165). -/
def vint2 (op : BitVec 32 → BitVec 32 → BitVec 32) (d a b : FReg) (s : State) : Do Done :=
  let one (x y : Nat) : Nat := (op (BitVec.ofNat 32 x) (BitVec.ofNat 32 y)).toNat
  ok (wfSlow s d (packElems 32 (List.zipWith one (elems 32 (rf s a)) (elems 32 (rf s b)))))

/-- Bits [63:32] of a signed product. -/
def mulh32 (x y : BitVec 32) : BitVec 32 := BitVec.ofInt 32 (x.toInt * y.toInt / 2 ^ 32)
/-- A shift amount of a lane: bits [4:0]. -/
def amount32 (y : BitVec 32) : Nat := y.toNat % 32

/-- VDOT4.I8 of a lane (Table 7.7). -/
def dot4 (z x y : BitVec 32) : BitVec 32 :=
  (List.range 4).foldl (fun r k =>
    r + BitVec.ofInt 32 ((x.extractLsb' (8 * k) 8).toInt * (y.extractLsb' (8 * k) 8).toInt)) z

/-- VDOT4.I8's effect. -/
def vdot4Op (d a b : FReg) (s : State) : Do Done :=
  let l := (List.range 16).map fun i => (dot4 (lane (rf s d) i) (lane (rf s a) i) (lane (rf s b) i)).toNat
  ok (wfSlow s d (packElems 32 l))

/-! ### Compares and masks (R166) -/

/-- A floating-point condition: whether it holds, and whether it is invalid. -/
def fpCond (c : Cond) (x y : Num) : Bool × Bool :=
  let un := x.isNan || y.isNan
  let sig := x.isSig || y.isSig
  let v := cmpNum x y
  match c with
  | .eq => (!un && v == 0, sig)
  | .ne => (un || v != 0, sig)
  | .lt => (!un && decide (v < 0), un)
  | .le => (!un && decide (v ≤ 0), un)
  | .gt => (!un && decide (0 < v), un)
  | .ge => (!un && decide (0 ≤ v), un)
  | .un => (un, sig)

/-- A condition on the order of two integers. -/
def intCond (c : Cond) (v : Int) : Bool :=
  match c with
  | .eq => v == 0
  | .ne => v != 0
  | .lt => decide (v < 0)
  | .le => decide (v ≤ 0)
  | .gt => decide (0 < v)
  | .ge => decide (0 ≤ v)
  | .un => false

/-- A mask from a list of truth values, lane 0 first. -/
def packMask (l : List Bool) : BitVec 16 := BitVec.ofNat 16 (l.foldr (fun b m => b2n b + 2 * m) 0)
/-- Whether both halves of each lane hold. -/
def pairsHold : List Bool → List Bool
  | x :: y :: l => (x && y) :: pairsHold l
  | _ => []

/-- VCMP's effect. FTZ is not named for compares (R64). -/
def vcmpOp (l : CmpLanes) (c : Cond) (d : MReg) (a b : FReg) (s : State) : Do Done :=
  let fp (f : Fmt) (n : Nat) : List (Bool × Bool) :=
    List.zipWith (fun x y => fpCond c (decodeNum f false x) (decodeNum f false y)) (elems n (rf s a))
      (elems n (rf s b))
  let int (v : BitVec 32 → Int) : List Bool :=
    (List.range 16).map fun i => intCond c (v (lane (rf s a) i) - v (lane (rf s b) i))
  match l with
  | .i32 => ok (wmSlow s d (packMask (int (·.toInt))))
  | .u32 => ok (wmSlow s d (packMask (int fun x => (x.toNat : Int))))
  | .f32 => do
    let r := fp fp32 32
    let s ← setFlags s (r.map fun x => if x.2 then 8 else 0)
    ok (wmSlow s d (packMask (r.map (·.1))))
  | .bf16 => do
    let r := fp bf16 16
    let s ← setFlags s (r.map fun x => if x.2 then 8 else 0)
    ok (wmSlow s d (packMask (pairsHold (r.map (·.1)))))

/-- VSEL's effect. -/
def vselOp (d a : FReg) (b : MReg) (s : State) : Do Done :=
  let l := (List.range 16).map fun i => elem 32 (if (rm s b).getLsbD i then rf s a else rf s d) i
  ok (wfSlow s d (packElems 32 l))

/-! ### Special functions, conversions and random words -/

/-- A special function's effect: RNE whatever FPCTL holds (R167). -/
def sfuOp (op : Sfu) (d a : FReg) (s : State) : Do Done :=
  let ftz := fpFtz (opCtx s)
  let one (x : Nat) : Nat × FpFlags :=
    let v := decodeNum fp32 ftz x
    arith fp32 .rne ftz [v] (sfuNum op v)
  fpVec s d (map1 32 one (rf s a))

/-- The format, the width and the first element of the narrow side of a conversion code from 2 on (Table 7.10). -/
def narrowOf (code : Nat) : Fmt × Nat × Nat :=
  if code < 4 then (bf16, 16, 16 * (code - 2))
  else if code < 6 then (fp16, 16, 16 * (code - 4))
  else if code < 8 then (bf16, 16, 16 * (code - 6))
  else if code < 10 then (fp16, 16, 16 * (code - 8))
  else if code < 14 then (e4m3, 8, 16 * (code - 10))
  else if code < 18 then (e5m2, 8, 16 * (code - 14))
  else if code < 22 then (e4m3, 8, 16 * (code - 18))
  else (e5m2, 8, 16 * (code - 22))

/-- Whether a conversion code widens into FP32 lanes (Table 7.10). -/
def widens (code : Nat) : Bool := decide (6 ≤ code ∧ code < 10) || decide (18 ≤ code)

/-- A conversion (R168): `mode` gives the rounding of each lane. -/
def convert (code : Nat) (d a : FReg) (mode : Nat → RMode) (s : State) : Do Done :=
  let ftz := fpFtz (opCtx s)
  let src (i : Nat) : Num := decodeNum fp32 ftz (elem 32 (rf s a) i)
  if code = 0 then
    let r := (List.range 16).map fun i => toIntNum (mode i) (-(2 ^ 31)) (2 ^ 31 - 1) (src i)
    fpVec s d (packElems 32 (r.map fun x => (x.1 % 2 ^ 32).toNat), r.map (·.2))
  else if code = 1 then
    let r := (List.range 16).map fun i => convertNum fp32 (mode i) ftz (ofIntNum (lane (rf s a) i).toInt)
    fpVec s d (packElems 32 (r.map (·.1)), r.map (·.2))
  else
    let (f, n, lo) := narrowOf code
    if widens code then
      let r := (List.range 16).map fun i => convertNum fp32 (mode i) ftz (decodeNum f ftz (elem n (rf s a) (lo + i)))
      fpVec s d (packElems 32 (r.map (·.1)), r.map (·.2))
    else
      let r := (List.range 16).map fun i => convertNum f (mode i) ftz (src i)
      let old := elems n (rf s d)
      let new := old.take lo ++ r.map (·.1) ++ old.drop (lo + 16)
      fpVec s d (packElems n new, r.map (·.2))

/-- VRAND's effect (R169). -/
def vrandOp (d : FReg) (a b : GReg) (s : State) : Do Done :=
  let l := (List.range 16).map fun i => (cmix32 (lo32 (rg s a) + BitVec.ofNat 32 i) (lo32 (rg s b))).toNat
  ok (wfSlow (wg s a (rg s a + 16#64)) d (packElems 32 l))

/-! ### Moves, reductions and scans (R170) -/

/-- One step of a reduction or scan: FP32 in FPCTL.RM with FTZ, or INT32. -/
def redStep (s : State) (op : RedOp) (x y : Nat) : Nat × FpFlags :=
  let ftz := fpFtz (opCtx s)
  let m := fpRm (opCtx s)
  let dx := decodeNum fp32 ftz x
  let dy := decodeNum fp32 ftz y
  match op with
  | .fadd => arith fp32 m ftz [dx, dy] (addNum m dx dy)
  | .fmin => pickNum fp32 false dx dy
  | .fmax => pickNum fp32 true dx dy
  | .iadd => ((x + y) % 2 ^ 32, 0)

/-- One level of a reduction: adjacent values (Table 3.8). -/
def redLevel (f : Nat → Nat → Nat × FpFlags) : List Nat → List (Nat × FpFlags)
  | x :: y :: l => f x y :: redLevel f l
  | [x] => [(x, 0)]
  | [] => []

/-- `n` levels of a reduction, with the flags of every step. -/
def redLevels (f : Nat → Nat → Nat × FpFlags) : Nat → List Nat → FpFlags → Nat × FpFlags
  | 0, l, fl => (l.headD 0, fl)
  | n + 1, l, fl =>
    let r := redLevel f l
    redLevels f n (r.map (·.1)) (fl ||| allFlags (r.map (·.2)))

/-- VRED's effect. Its result is one scalar, whose lane mask is bit 0 (R65). -/
def vredOp (op : RedOp) (d : GReg) (a : FReg) (s : State) : Do Done := do
  let r := redLevels (redStep s op) 4 (elems 32 (rf s a)) 0
  let s ← setFlags s [r.2]
  ok (wgSlow s d (w64 r.1))

/-- One step of a scan: lane i ≥ n becomes lane (i − n) + lane i (Table 3.8). -/
def scanLevel (f : Nat → Nat → Nat × FpFlags) (n : Nat) (l : List (Nat × FpFlags)) : List (Nat × FpFlags) :=
  l.take n ++ List.zipWith (fun x y => let r := f x.1 y.1; (r.1, y.2 ||| r.2)) l (l.drop n)

/-- The inclusive prefix of a vector's lanes, with the flags of each lane. -/
def scanLanes (f : Nat → Nat → Nat × FpFlags) (v : Vec) : List (Nat × FpFlags) :=
  [1, 2, 4, 8].foldl (fun l n => scanLevel f n l) ((elems 32 v).map fun x => (x, 0))

/-- An input lane of a scan: with FTZ a subnormal FP32 lane counts as a zero of its sign (R64, R170). -/
def scanInput (s : State) (op : RedOp) (x : Nat) : Nat :=
  if op ≠ .iadd ∧ fpFtz (opCtx s) ∧ x / 2 ^ 23 % 256 = 0 then x / 2 ^ 31 % 2 * 2 ^ 31 else x

/-- VSCAN's effect. -/
def vscanOp (op : RedOp) (d a : FReg) (s : State) : Do Done :=
  let r := scanLanes (redStep s op) (packElems 32 ((elems 32 (rf s a)).map (scanInput s op)))
  fpVec s d (packElems 32 (r.map (·.1)), r.map (·.2))

/-- A lane replaced. -/
def setLane (v : Vec) (i x : Nat) : Vec := packElems 32 ((elems 32 v).set i x)

/-- VPERM's effect. -/
def vpermOp (d a b : FReg) (s : State) : Do Done :=
  ok (wfSlow s d (packElems 32 ((elems 32 (rf s b)).map fun x => elem 32 (rf s a) (x % 16))))

/-! ### The sequencer (R158 to R162) -/

/-- VSEQ's effect: the sequencer captures the next `n` A-slots, in count mode with the limit g[a][31:0] (R159). -/
def vseqOp (a : GReg) (n : Nat) (s : State) : Do Done :=
  ok (modCur s fun c => { c with seqr := some ⟨[], n, (lo32 (rg s a)).toNat, none, 0, false, false⟩ })

/-- VSEQ's effect in stream mode: an unbound register raises cause 0x0C with reason 5 (R159). -/
def vseqSOp (a : SReg) (n : Nat) (s : State) : Do Done :=
  match streamOf (opCtx s) (Fin.ofNat 32 a.val) with
  | none => trap 0x0C (streamTval 5 a.val)
  | some _ => ok (modCur s fun c => { c with seqr := some ⟨[], n, 0, some a, 0, false, false⟩ })

/-! ### The instructions -/

/-- VADD (Table 7.5): its own effect. -/
def vaddFx (l : Lanes) (r : Rnd) (d : FReg) (a : FReg) (b : FReg) : Effect := fun s => vfp2 l (rounded s r (addNum)) d a b s

/-- VADD (Table 7.5). -/
def execVadd (l : Lanes) (r : Rnd) (d : FReg) (a : FReg) (b : FReg) (s : State) : Out :=
  issueWith (formV 0x28 (opPar 0 (lanesCode l * 8 + rndCode r)) d a b) (some (.vadd l r d a b)) (vaddFx l r d a b) s

/-- VSUB (Table 7.5): its own effect. -/
def vsubFx (l : Lanes) (r : Rnd) (d : FReg) (a : FReg) (b : FReg) : Effect := fun s => vfp2 l (rounded s r (fun m x y => addNum m x y.flip)) d a b s

/-- VSUB (Table 7.5). -/
def execVsub (l : Lanes) (r : Rnd) (d : FReg) (a : FReg) (b : FReg) (s : State) : Out :=
  issueWith (formV 0x28 (opPar 1 (lanesCode l * 8 + rndCode r)) d a b) (some (.vsub l r d a b)) (vsubFx l r d a b) s

/-- VMUL (Table 7.5): its own effect. -/
def vmulFx (l : Lanes) (r : Rnd) (d : FReg) (a : FReg) (b : FReg) : Effect := fun s => vfp2 l (rounded s r (fun _ => mulNum)) d a b s

/-- VMUL (Table 7.5). -/
def execVmul (l : Lanes) (r : Rnd) (d : FReg) (a : FReg) (b : FReg) (s : State) : Out :=
  issueWith (formV 0x28 (opPar 2 (lanesCode l * 8 + rndCode r)) d a b) (some (.vmul l r d a b)) (vmulFx l r d a b) s

/-- VMIN (Table 7.5): its own effect. -/
def vminFx (l : Lanes) (d : FReg) (a : FReg) (b : FReg) : Effect := vfp2 l (fun f => pickNum f false) d a b

/-- VMIN (Table 7.5). -/
def execVmin (l : Lanes) (d : FReg) (a : FReg) (b : FReg) (s : State) : Out :=
  issueWith (formV 0x28 (opPar 3 (lanesCode l * 8)) d a b) (some (.vmin l d a b)) (vminFx l d a b) s

/-- VMAX (Table 7.5): its own effect. -/
def vmaxFx (l : Lanes) (d : FReg) (a : FReg) (b : FReg) : Effect := vfp2 l (fun f => pickNum f true) d a b

/-- VMAX (Table 7.5). -/
def execVmax (l : Lanes) (d : FReg) (a : FReg) (b : FReg) (s : State) : Out :=
  issueWith (formV 0x28 (opPar 4 (lanesCode l * 8)) d a b) (some (.vmax l d a b)) (vmaxFx l d a b) s

/-- VABS (Table 7.5): its own effect. -/
def vabsFx (l : Lanes) (d : FReg) (a : FReg) : Effect := vsign l (fun _ => false) d a

/-- VABS (Table 7.5). -/
def execVabs (l : Lanes) (d : FReg) (a : FReg) (s : State) : Out :=
  issueWith (formV1 0x28 (opPar 5 (lanesCode l * 8)) d a) (some (.vabs l d a)) (vabsFx l d a) s

/-- VNEG (Table 7.5): its own effect. -/
def vnegFx (l : Lanes) (d : FReg) (a : FReg) : Effect := vsign l (not) d a

/-- VNEG (Table 7.5). -/
def execVneg (l : Lanes) (d : FReg) (a : FReg) (s : State) : Out :=
  issueWith (formV1 0x28 (opPar 6 (lanesCode l * 8)) d a) (some (.vneg l d a)) (vnegFx l d a) s

/-- VDIV (Table 7.5): its own effect. -/
def vdivFx (l : Lanes) (r : Rnd) (d : FReg) (a : FReg) (b : FReg) : Effect := fun s => vfp2 l (rounded s r (fun _ => divNum)) d a b s

/-- VDIV (Table 7.5). -/
def execVdiv (l : Lanes) (r : Rnd) (d : FReg) (a : FReg) (b : FReg) (s : State) : Out :=
  issueWith (formV 0x28 (opPar 7 (lanesCode l * 8 + rndCode r)) d a b) (some (.vdiv l r d a b)) (vdivFx l r d a b) s

/-- VSQRT (Table 7.5): its own effect. -/
def vsqrtFx (l : Lanes) (r : Rnd) (d : FReg) (a : FReg) : Effect := fun s => vfp2 l (rounded s r (fun _ x _ => sqrtNum x)) d a a s

/-- VSQRT (Table 7.5). -/
def execVsqrt (l : Lanes) (r : Rnd) (d : FReg) (a : FReg) (s : State) : Out :=
  issueWith (formV1 0x28 (opPar 8 (lanesCode l * 8 + rndCode r)) d a) (some (.vsqrt l r d a)) (vsqrtFx l r d a) s

/-- VFMA (Table 7.6): its own effect. -/
def vfmaFx (d : FReg) (a : FReg) (b : FReg) (c : FReg) : Effect := vfmaOp false false d a b c

/-- VFMA (Table 7.6). -/
def execVfma (d : FReg) (a : FReg) (b : FReg) (c : FReg) (s : State) : Out :=
  issueWith ({ formV 0x29 (c * 32) d a b with fr := [a, b, c] }) (some (.vfma d a b c)) (vfmaFx d a b c) s

/-- VFMS (Table 7.6): its own effect. -/
def vfmsFx (d : FReg) (a : FReg) (b : FReg) (c : FReg) : Effect := vfmaOp false true d a b c

/-- VFMS (Table 7.6). -/
def execVfms (d : FReg) (a : FReg) (b : FReg) (c : FReg) (s : State) : Out :=
  issueWith ({ formV 0x29 (c * 32 + 1) d a b with fr := [a, b, c] }) (some (.vfms d a b c)) (vfmsFx d a b c) s

/-- VFNMA (Table 7.6): its own effect. -/
def vfnmaFx (d : FReg) (a : FReg) (b : FReg) (c : FReg) : Effect := vfmaOp true true d a b c

/-- VFNMA (Table 7.6). -/
def execVfnma (d : FReg) (a : FReg) (b : FReg) (c : FReg) (s : State) : Out :=
  issueWith ({ formV 0x29 (c * 32 + 2) d a b with fr := [a, b, c] }) (some (.vfnma d a b c)) (vfnmaFx d a b c) s

/-- VFNMS (Table 7.6): its own effect. -/
def vfnmsFx (d : FReg) (a : FReg) (b : FReg) (c : FReg) : Effect := vfmaOp true false d a b c

/-- VFNMS (Table 7.6). -/
def execVfnms (d : FReg) (a : FReg) (b : FReg) (c : FReg) (s : State) : Out :=
  issueWith ({ formV 0x29 (c * 32 + 3) d a b with fr := [a, b, c] }) (some (.vfnms d a b c)) (vfnmsFx d a b c) s

/-- VADD.I (Table 7.7): its own effect. -/
def vaddIFx (d : FReg) (a : FReg) (b : FReg) : Effect := vint2 (· + ·) d a b

/-- VADD.I (Table 7.7). -/
def execVaddI (d : FReg) (a : FReg) (b : FReg) (s : State) : Out :=
  issueWith (formV 0x2A 0 d a b) (some (.vaddI d a b)) (vaddIFx d a b) s

/-- VSUB.I (Table 7.7): its own effect. -/
def vsubIFx (d : FReg) (a : FReg) (b : FReg) : Effect := vint2 (· - ·) d a b

/-- VSUB.I (Table 7.7). -/
def execVsubI (d : FReg) (a : FReg) (b : FReg) (s : State) : Out :=
  issueWith (formV 0x2A 1 d a b) (some (.vsubI d a b)) (vsubIFx d a b) s

/-- VMUL.I (Table 7.7): its own effect. -/
def vmulIFx (d : FReg) (a : FReg) (b : FReg) : Effect := vint2 (· * ·) d a b

/-- VMUL.I (Table 7.7). -/
def execVmulI (d : FReg) (a : FReg) (b : FReg) (s : State) : Out :=
  issueWith (formV 0x2A 2 d a b) (some (.vmulI d a b)) (vmulIFx d a b) s

/-- VMULH.I (Table 7.7): its own effect. -/
def vmulhIFx (d : FReg) (a : FReg) (b : FReg) : Effect := vint2 (mulh32) d a b

/-- VMULH.I (Table 7.7). -/
def execVmulhI (d : FReg) (a : FReg) (b : FReg) (s : State) : Out :=
  issueWith (formV 0x2A 3 d a b) (some (.vmulhI d a b)) (vmulhIFx d a b) s

/-- VAND (Table 7.7): its own effect. -/
def vandFx (d : FReg) (a : FReg) (b : FReg) : Effect := vint2 (· &&& ·) d a b

/-- VAND (Table 7.7). -/
def execVand (d : FReg) (a : FReg) (b : FReg) (s : State) : Out :=
  issueWith (formV 0x2A 4 d a b) (some (.vand d a b)) (vandFx d a b) s

/-- VOR (Table 7.7): its own effect. -/
def vorFx (d : FReg) (a : FReg) (b : FReg) : Effect := vint2 (· ||| ·) d a b

/-- VOR (Table 7.7). -/
def execVor (d : FReg) (a : FReg) (b : FReg) (s : State) : Out :=
  issueWith (formV 0x2A 5 d a b) (some (.vor d a b)) (vorFx d a b) s

/-- VXOR (Table 7.7): its own effect. -/
def vxorFx (d : FReg) (a : FReg) (b : FReg) : Effect := vint2 (· ^^^ ·) d a b

/-- VXOR (Table 7.7). -/
def execVxor (d : FReg) (a : FReg) (b : FReg) (s : State) : Out :=
  issueWith (formV 0x2A 6 d a b) (some (.vxor d a b)) (vxorFx d a b) s

/-- VSHL (Table 7.7): its own effect. -/
def vshlFx (d : FReg) (a : FReg) (b : FReg) : Effect := vint2 (fun x y => x <<< amount32 y) d a b

/-- VSHL (Table 7.7). -/
def execVshl (d : FReg) (a : FReg) (b : FReg) (s : State) : Out :=
  issueWith (formV 0x2A 7 d a b) (some (.vshl d a b)) (vshlFx d a b) s

/-- VSHR (Table 7.7): its own effect. -/
def vshrFx (d : FReg) (a : FReg) (b : FReg) : Effect := vint2 (fun x y => x >>> amount32 y) d a b

/-- VSHR (Table 7.7). -/
def execVshr (d : FReg) (a : FReg) (b : FReg) (s : State) : Out :=
  issueWith (formV 0x2A 8 d a b) (some (.vshr d a b)) (vshrFx d a b) s

/-- VSRA (Table 7.7): its own effect. -/
def vsraFx (d : FReg) (a : FReg) (b : FReg) : Effect := vint2 (fun x y => x.sshiftRight (amount32 y)) d a b

/-- VSRA (Table 7.7). -/
def execVsra (d : FReg) (a : FReg) (b : FReg) (s : State) : Out :=
  issueWith (formV 0x2A 9 d a b) (some (.vsra d a b)) (vsraFx d a b) s

/-- VMIN.I (Table 7.7): its own effect. -/
def vminIFx (d : FReg) (a : FReg) (b : FReg) : Effect := vint2 (fun x y => if x.toInt ≤ y.toInt then x else y) d a b

/-- VMIN.I (Table 7.7). -/
def execVminI (d : FReg) (a : FReg) (b : FReg) (s : State) : Out :=
  issueWith (formV 0x2A 10 d a b) (some (.vminI d a b)) (vminIFx d a b) s

/-- VMAX.I (Table 7.7): its own effect. -/
def vmaxIFx (d : FReg) (a : FReg) (b : FReg) : Effect := vint2 (fun x y => if x.toInt ≤ y.toInt then y else x) d a b

/-- VMAX.I (Table 7.7). -/
def execVmaxI (d : FReg) (a : FReg) (b : FReg) (s : State) : Out :=
  issueWith (formV 0x2A 11 d a b) (some (.vmaxI d a b)) (vmaxIFx d a b) s

/-- VMINU.I (Table 7.7): its own effect. -/
def vminuIFx (d : FReg) (a : FReg) (b : FReg) : Effect := vint2 (fun x y => if x.toNat ≤ y.toNat then x else y) d a b

/-- VMINU.I (Table 7.7). -/
def execVminuI (d : FReg) (a : FReg) (b : FReg) (s : State) : Out :=
  issueWith (formV 0x2A 12 d a b) (some (.vminuI d a b)) (vminuIFx d a b) s

/-- VMAXU.I (Table 7.7): its own effect. -/
def vmaxuIFx (d : FReg) (a : FReg) (b : FReg) : Effect := vint2 (fun x y => if x.toNat ≤ y.toNat then y else x) d a b

/-- VMAXU.I (Table 7.7). -/
def execVmaxuI (d : FReg) (a : FReg) (b : FReg) (s : State) : Out :=
  issueWith (formV 0x2A 13 d a b) (some (.vmaxuI d a b)) (vmaxuIFx d a b) s

/-- VDOT4.I8 (Table 7.7): its own effect. -/
def vdot4I8Fx (d : FReg) (a : FReg) (b : FReg) : Effect := vdot4Op d a b

/-- VDOT4.I8 (Table 7.7). -/
def execVdot4I8 (d : FReg) (a : FReg) (b : FReg) (s : State) : Out :=
  issueWith ({ formV 0x2A 14 d a b with fr := [a, b, d] }) (some (.vdot4I8 d a b)) (vdot4I8Fx d a b) s

/-- VCMP (R166): its own effect. -/
def vcmpFx (l : CmpLanes) (c : Cond) (d : MReg) (a : FReg) (b : FReg) : Effect := vcmpOp l c d a b

/-- VCMP (R166). -/
def execVcmp (l : CmpLanes) (c : Cond) (d : MReg) (a : FReg) (b : FReg) (s : State) : Out :=
  issueWith ({ aForm (wP 0x2B d a b 0 (cmpLanesCode l * 8 + condCode c)) with fr := [a, b], mw := [d] }) (some (.vcmp l c d a b)) (vcmpFx l c d a b) s

/-- VSEL (Table 7.8): its own effect. -/
def vselFx (d : FReg) (a : FReg) (b : MReg) : Effect := vselOp d a b

/-- VSEL (Table 7.8). -/
def execVsel (d : FReg) (a : FReg) (b : MReg) (s : State) : Out :=
  issueWith ({ aForm (wP 0x2B d a b 1 0) with fr := [a, d], fw := [d], mr := [b] }) (some (.vsel d a b)) (vselFx d a b) s

/-- MAND (Table 7.8): its own effect. -/
def mandFx (d : MReg) (a : MReg) (b : MReg) : Effect := fun s => ok (wm s d (rm s a &&& rm s b))

/-- MAND (Table 7.8). -/
def execMand (d : MReg) (a : MReg) (b : MReg) (s : State) : Out :=
  issueWith ({ aForm (wP 0x2B d a b 2 0) with mr := [a, b], mw := [d] }) (some (.mand d a b)) (mandFx d a b) s

/-- MOR (Table 7.8): its own effect. -/
def morFx (d : MReg) (a : MReg) (b : MReg) : Effect := fun s => ok (wm s d (rm s a ||| rm s b))

/-- MOR (Table 7.8). -/
def execMor (d : MReg) (a : MReg) (b : MReg) (s : State) : Out :=
  issueWith ({ aForm (wP 0x2B d a b 3 0) with mr := [a, b], mw := [d] }) (some (.mor d a b)) (morFx d a b) s

/-- MXOR (Table 7.8): its own effect. -/
def mxorFx (d : MReg) (a : MReg) (b : MReg) : Effect := fun s => ok (wm s d (rm s a ^^^ rm s b))

/-- MXOR (Table 7.8). -/
def execMxor (d : MReg) (a : MReg) (b : MReg) (s : State) : Out :=
  issueWith ({ aForm (wP 0x2B d a b 4 0) with mr := [a, b], mw := [d] }) (some (.mxor d a b)) (mxorFx d a b) s

/-- MNOT (Table 7.8): its own effect. -/
def mnotFx (d : MReg) (a : MReg) : Effect := fun s => ok (wm s d (~~~ rm s a))

/-- MNOT (Table 7.8). -/
def execMnot (d : MReg) (a : MReg) (s : State) : Out :=
  issueWith ({ aForm (wP 0x2B d a 0 5 0) with mr := [a], mw := [d] }) (some (.mnot d a)) (mnotFx d a) s

/-- MMOV (Table 7.8): its own effect. -/
def mmovFx (d : MReg) (a : MReg) : Effect := fun s => ok (wm s d (rm s a))

/-- MMOV (Table 7.8). -/
def execMmov (d : MReg) (a : MReg) (s : State) : Out :=
  issueWith ({ aForm (wP 0x2B d a 0 6 0) with mr := [a], mw := [d] }) (some (.mmov d a)) (mmovFx d a) s

/-- MSET (Table 7.8): its own effect. -/
def msetFx (d : MReg) (a : GReg) : Effect := fun s => ok (wm s d ((rg s a).setWidth 16))

/-- MSET (Table 7.8). -/
def execMset (d : MReg) (a : GReg) (s : State) : Out :=
  issueWith ({ aForm (wP 0x2B d a 0 7 0) with gr := [a], mw := [d] }) (some (.mset d a)) (msetFx d a) s

/-- MPOPC (Table 7.8): its own effect. -/
def mpopcFx (d : GReg) (a : MReg) : Effect := fun s => ok (wgSlow s d (w64 ((List.range 16).countP fun i => (rm s a).getLsbD i)))

/-- MPOPC (Table 7.8). -/
def execMpopc (d : GReg) (a : MReg) (s : State) : Out :=
  issueWith ({ aForm (wP 0x2B d a 0 8 0) with mr := [a], gw := [d] }) (some (.mpopc d a)) (mpopcFx d a) s

/-- VRCP (Table 7.9): its own effect. -/
def vrcpFx (d : FReg) (a : FReg) : Effect := sfuOp .rcp d a

/-- VRCP (Table 7.9). -/
def execVrcp (d : FReg) (a : FReg) (s : State) : Out :=
  issueWith (formV1 0x2C 0 d a) (some (.vrcp d a)) (vrcpFx d a) s

/-- VRSQ (Table 7.9): its own effect. -/
def vrsqFx (d : FReg) (a : FReg) : Effect := sfuOp .rsq d a

/-- VRSQ (Table 7.9). -/
def execVrsq (d : FReg) (a : FReg) (s : State) : Out :=
  issueWith (formV1 0x2C 1 d a) (some (.vrsq d a)) (vrsqFx d a) s

/-- VEXP2 (Table 7.9): its own effect. -/
def vexp2Fx (d : FReg) (a : FReg) : Effect := sfuOp .exp2 d a

/-- VEXP2 (Table 7.9). -/
def execVexp2 (d : FReg) (a : FReg) (s : State) : Out :=
  issueWith (formV1 0x2C 2 d a) (some (.vexp2 d a)) (vexp2Fx d a) s

/-- VLOG2 (Table 7.9): its own effect. -/
def vlog2Fx (d : FReg) (a : FReg) : Effect := sfuOp .log2 d a

/-- VLOG2 (Table 7.9). -/
def execVlog2 (d : FReg) (a : FReg) (s : State) : Out :=
  issueWith (formV1 0x2C 3 d a) (some (.vlog2 d a)) (vlog2Fx d a) s

/-- VTANH (Table 7.9): its own effect. -/
def vtanhFx (d : FReg) (a : FReg) : Effect := sfuOp .tanh d a

/-- VTANH (Table 7.9). -/
def execVtanh (d : FReg) (a : FReg) (s : State) : Out :=
  issueWith (formV1 0x2C 4 d a) (some (.vtanh d a)) (vtanhFx d a) s

/-- VSIGM (Table 7.9): its own effect. -/
def vsigmFx (d : FReg) (a : FReg) : Effect := sfuOp .sigm d a

/-- VSIGM (Table 7.9). -/
def execVsigm (d : FReg) (a : FReg) (s : State) : Out :=
  issueWith (formV1 0x2C 5 d a) (some (.vsigm d a)) (vsigmFx d a) s

/-- VCVT (R168): its own effect. -/
def vcvtFx (code : Fin 26) (d : FReg) (a : FReg) : Effect := fun s => convert code d a (fun _ => fpRm (opCtx s)) s

/-- VCVT (R168). -/
def execVcvt (code : Fin 26) (d : FReg) (a : FReg) (s : State) : Out :=
  issueWith ({ formV1 0x2D (opPar 0 code) d a with fr := cvtReads code d a }) (some (.vcvt code d a)) (vcvtFx code d a) s

/-- VCVT.SR (R168): its own effect. -/
def vcvtSrFx (code : Fin 26) (d : FReg) (a : FReg) (b : FReg) : Effect := fun s => convert code d a (fun i => .sr (elem 32 (rf s b) i)) s

/-- VCVT.SR (R168). -/
def execVcvtSr (code : Fin 26) (d : FReg) (a : FReg) (b : FReg) (s : State) : Out :=
  issueWith ({ formV 0x2D (opPar 1 code) d a b with fr := cvtReads code d a ++ [b] }) (some (.vcvtSr code d a b)) (vcvtSrFx code d a b) s

/-- VRAND (R169): its own effect. -/
def vrandFx (d : FReg) (a : GReg) (b : GReg) : Effect := vrandOp d a b

/-- VRAND (R169). -/
def execVrand (d : FReg) (a : GReg) (b : GReg) (s : State) : Out :=
  issueWith ({ aForm (wR 0x2E d a b 0) with gr := [a, b], fw := [d], gw := [a] }) (some (.vrand d a b)) (vrandFx d a b) s

/-- VMOV (Table 7.11): its own effect. -/
def vmovFx (d : FReg) (a : FReg) : Effect := fun s => ok (wf s d (rf s a))

/-- VMOV (Table 7.11). -/
def execVmov (d : FReg) (a : FReg) (s : State) : Out :=
  issueWith (formV1 0x2F (opPar 0 0) d a) (some (.vmov d a)) (vmovFx d a) s

/-- VBCAST (Table 7.11): its own effect. -/
def vbcastFx (d : FReg) (a : GReg) : Effect := fun s => ok (wfSlow s d (packElems 32 (List.replicate 16 ((rg s a).toNat % 2 ^ 32))))

/-- VBCAST (Table 7.11). -/
def execVbcast (d : FReg) (a : GReg) (s : State) : Out :=
  issueWith ({ aForm (wP 0x2F d a 0 1 0) with gr := [a], fw := [d] }) (some (.vbcast d a)) (vbcastFx d a) s

/-- VEXT (Table 7.11): its own effect. -/
def vextFx (d : GReg) (a : FReg) (ln : Fin 16) : Effect := fun s => ok (wgSlow s d (w64 (elem 32 (rf s a) ln)))

/-- VEXT (Table 7.11). -/
def execVext (d : GReg) (a : FReg) (ln : Fin 16) (s : State) : Out :=
  issueWith ({ aForm (wP 0x2F d a 0 2 ln) with fr := [a], gw := [d] }) (some (.vext d a ln)) (vextFx d a ln) s

/-- VINS (Table 7.11): its own effect. -/
def vinsFx (d : FReg) (a : GReg) (ln : Fin 16) : Effect := fun s => ok (wfSlow s d (setLane (rf s d) ln ((rg s a).toNat % 2 ^ 32)))

/-- VINS (Table 7.11). -/
def execVins (d : FReg) (a : GReg) (ln : Fin 16) (s : State) : Out :=
  issueWith ({ aForm (wP 0x2F d a 0 3 ln) with gr := [a], fr := [d], fw := [d] }) (some (.vins d a ln)) (vinsFx d a ln) s

/-- VPERM (Table 7.11): its own effect. -/
def vpermFx (d : FReg) (a : FReg) (b : FReg) : Effect := vpermOp d a b

/-- VPERM (Table 7.11). -/
def execVperm (d : FReg) (a : FReg) (b : FReg) (s : State) : Out :=
  issueWith (formV 0x2F (opPar 4 0) d a b) (some (.vperm d a b)) (vpermFx d a b) s

/-- VRED (R170): its own effect. -/
def vredFx (op : RedOp) (d : GReg) (a : FReg) : Effect := vredOp op d a

/-- VRED (R170). -/
def execVred (op : RedOp) (d : GReg) (a : FReg) (s : State) : Out :=
  issueWith ({ aForm (wP 0x2F d a 0 5 (redCode op)) with fr := [a], gw := [d] }) (some (.vred op d a)) (vredFx op d a) s

/-- VSCAN (R170): its own effect. -/
def vscanFx (op : RedOp) (d : FReg) (a : FReg) : Effect := vscanOp op d a

/-- VSCAN (R170). -/
def execVscan (op : RedOp) (d : FReg) (a : FReg) (s : State) : Out :=
  issueWith (formV1 0x2F (opPar 6 (redCode op)) d a) (some (.vscan op d a)) (vscanFx op d a) s

/-- VSEQ with a count (R159). No sequence may hold it. -/
def execVseq (a : GReg) (n1 : Fin 16) (s : State) : Out :=
  issue { aForm (wP 0x30 0 a 0 0 n1) with gr := [a] } (vseqOp a (n1.val + 1)) s

/-- VSEQ until a stream ends (R159). No sequence may hold it. -/
def execVseqS (a : SReg) (n1 : Fin 16) (s : State) : Out :=
  issue (aForm (wP 0x30 0 a 0 0 (16 + n1.val))) (vseqSOp a (n1.val + 1)) s

/-- VSEQ.STOP, which has no effect outside a sequence (R160). -/
def execVseqStop (a : MReg) (s : State) : Out :=
  issueWith { aForm (wP 0x30 0 a 0 1 0) with mr := [a] } (some (.vseqStop a)) ok s

/-- ANOP (R44): as an instruction alone it does nothing. -/
def execAnop (s : State) : Out := issueWith (aForm (0x3F * 2 ^ 25)) (some .anop) ok s

/-! ### Replay -/

/-- The own effect of an instruction that a sequence may hold (R159). -/
def seqEffect : Instr → Option Effect
  | .vadd l r d a b => some (vaddFx l r d a b)
  | .vsub l r d a b => some (vsubFx l r d a b)
  | .vmul l r d a b => some (vmulFx l r d a b)
  | .vmin l d a b => some (vminFx l d a b)
  | .vmax l d a b => some (vmaxFx l d a b)
  | .vabs l d a => some (vabsFx l d a)
  | .vneg l d a => some (vnegFx l d a)
  | .vdiv l r d a b => some (vdivFx l r d a b)
  | .vsqrt l r d a => some (vsqrtFx l r d a)
  | .vfma d a b c => some (vfmaFx d a b c)
  | .vfms d a b c => some (vfmsFx d a b c)
  | .vfnma d a b c => some (vfnmaFx d a b c)
  | .vfnms d a b c => some (vfnmsFx d a b c)
  | .vaddI d a b => some (vaddIFx d a b)
  | .vsubI d a b => some (vsubIFx d a b)
  | .vmulI d a b => some (vmulIFx d a b)
  | .vmulhI d a b => some (vmulhIFx d a b)
  | .vand d a b => some (vandFx d a b)
  | .vor d a b => some (vorFx d a b)
  | .vxor d a b => some (vxorFx d a b)
  | .vshl d a b => some (vshlFx d a b)
  | .vshr d a b => some (vshrFx d a b)
  | .vsra d a b => some (vsraFx d a b)
  | .vminI d a b => some (vminIFx d a b)
  | .vmaxI d a b => some (vmaxIFx d a b)
  | .vminuI d a b => some (vminuIFx d a b)
  | .vmaxuI d a b => some (vmaxuIFx d a b)
  | .vdot4I8 d a b => some (vdot4I8Fx d a b)
  | .vcmp l c d a b => some (vcmpFx l c d a b)
  | .vsel d a b => some (vselFx d a b)
  | .mand d a b => some (mandFx d a b)
  | .mor d a b => some (morFx d a b)
  | .mxor d a b => some (mxorFx d a b)
  | .mnot d a => some (mnotFx d a)
  | .mmov d a => some (mmovFx d a)
  | .mset d a => some (msetFx d a)
  | .mpopc d a => some (mpopcFx d a)
  | .vrcp d a => some (vrcpFx d a)
  | .vrsq d a => some (vrsqFx d a)
  | .vexp2 d a => some (vexp2Fx d a)
  | .vlog2 d a => some (vlog2Fx d a)
  | .vtanh d a => some (vtanhFx d a)
  | .vsigm d a => some (vsigmFx d a)
  | .vcvt code d a => some (vcvtFx code d a)
  | .vcvtSr code d a b => some (vcvtSrFx code d a b)
  | .vrand d a b => some (vrandFx d a b)
  | .vmov d a => some (vmovFx d a)
  | .vbcast d a => some (vbcastFx d a)
  | .vext d a ln => some (vextFx d a ln)
  | .vins d a ln => some (vinsFx d a ln)
  | .vperm d a b => some (vpermFx d a b)
  | .vred op d a => some (vredFx op d a)
  | .vscan op d a => some (vscanFx op d a)
  | .vseqStop _ => some ok
  | .anop => some ok
  | _ => none

/-- TVAL of cause 0x26 (R47, R162). -/
def seqTval (step code : Nat) (tval : Word) : Word := w64 (step + code * 2 ^ 8 + tval.toNat % 2 ^ 48 * 2 ^ 16)

/-- The sequencer past the instruction at its step; `stop` ends the sequence there. -/
def Seqr.past (q : Seqr) (stop : Bool) : Seqr :=
  if stop then { q with stop := true }
  else if q.at_ + 1 < q.body.length then { q with at_ := q.at_ + 1 }
  else match q.until? with
    | some _ => { q with at_ := 0 }
    | none => if q.left ≤ 1 then { q with stop := true, left := 0 } else { q with at_ := 0, left := q.left - 1 }

/-- Whether a replaying sequence may not begin its next iteration: the stream of stream mode has ended (R160). -/
def Seqr.streamEnded (q : Seqr) (c : Ctx) : Bool :=
  q.at_ == 0 && match q.until? with
    | none => false
    | some r => match streamOf c (Fin.ofNat 32 r.val) with
      | none => true
      | some st => st.remain == 0

/-- Whether every result of the sequence has landed. -/
def Seqr.landed (q : Seqr) (c : Ctx) : Bool :=
  !c.busy.any q.regs.contains && !c.awaits.any fun a => a.what.regs.any q.regs.contains

/-- A context whose wait is of a kind goes on. -/
def wakeKind (s : State) (k : CtxKey) (kind : Nat) : State :=
  match (getCtx s k).wait with
  | some w => if w.kind = kind then wakeCtx s k (getCtx s k).gen else s
  | none => s

/-- One step of a context's sequencer that replays (R160 to R162). A result that has to wait leaves the machine as
it is; a fault stops the sequencer at its step, and the context takes cause 0x26. -/
def replayStep (s0 : State) (k : CtxKey) : State :=
  let s := { s0 with cur := k, latch := none }
  let c := getCtx s k
  match c.seqr with
  | none => s0
  | some q =>
    if 0 < q.capture ∨ c.killed ∨ q.faulted then s0
    else if q.stop ∨ q.streamEnded c then
      if q.landed c then wakeKind (setCtx s k { c with seqr := none }) k 8
      else setCtx s k { c with seqr := some { q with stop := true } }
    else
      match q.body[q.at_]? with
      | none => setCtx s k { c with seqr := some { q with stop := true } }
      | some (i, _) =>
        let f := form i
        let stop := match i with
          | .vseqStop a => c.m[a] != 0
          | _ => false
        let run : Do Done := do
          presence s f.gr
          flightCheck f s
          let s ← writeChecks s f.fw.dedup
          readChecks s f.fr.dedup
          (seqEffect i).getD ok s
        match run with
        | .ok d =>
          let s := modCur d.s fun x => { x with p := x.p &&& ~~~ consumed f c, seqr := some (q.past stop) }
          f.fr.dedup.foldl popVec s
        | .error (.trap code tval) =>
          let s := setCtx s k { c with seqr := some { q with faulted := true } }
          raiseAsync s (curWho s 0) 0x26 (seqTval (0x40 + q.at_) code tval)
        | .error _ => s0

/-- SEQUENCER_REPLAY_STEP (R160 to R162). -/
def execSequencerReplayStep (k : CtxKey) (s : State) : Out := event (replayStep s k)

end Sys2Proof.Machine
end

