-- ==== Sys2Proof/Machine/Msg.lean ====
section
/-! DEFINITION. The MSG family and what arrives at a core's network interface: messages, deposits, replies and
put-with-notify (R105 to R107, R227, R235 to R249). -/

namespace Sys2Proof.Machine

/-! ### Sending -/

/-- An entry of a send queue (R235): without a free one the bundle waits with kind 7, or takes cause 0x0E. DESIGN CHOICE: a
wait whose object Table 4.2 gives no address, register or group has the network's number for kind 7 as its object, and 0 for
kinds 6 without a free sink, 8 and 9; R96 does not say what TVAL[63:32] then holds (log entry 136). -/
def takeSend (s : State) (vn : Fin 4) (traps : Bool) : Do State :=
  let l := (curCore s).sendq[vn]
  if 32 ≤ l.length then (if traps then trap 0x0E (w64 vn.val) else .error (.wait s 7 vn.val 0x7FF))
  else .ok (modCurCore s fun co => { co with sendq := co.sendq.set vn (l ++ [⟨s.cur, (curCtx s).gen, false, none⟩]) })

/-- A send queue whose newest entry holds a packet. -/
def lastHolds (p : Option Packet) : List SendEntry → List SendEntry
  | [] => []
  | [e] => [{ e with packet := p }]
  | e :: f :: l => e :: lastHolds p (f :: l)

/-- The newest packet stands in the newest entry of the issuing core's send queue: it goes nowhere before the entry has left
(R235). -/
def holdPkt (s : State) (vn : Fin 4) : State :=
  modCurCore s fun co => { co with sendq := co.sendq.set vn (lastHolds s.net.getLast? co.sendq[vn]) }

/-- A message or deposit of the issuing context: a send-queue entry on VN0 and then a journal entry (R235, R236). A
bundle that finds the journal full is held and keeps neither. -/
def sendPosted (s : State) (traps : Bool) (core : Nat) (va : Word) (b : Nat → Body) : Do State := do
  let t ← takeSend s 0 traps
  if (freeEntry (curCore s).journal).isNone then .error (.hold s)
  else do
    let t ← post t (.core core) va b
    .ok (holdPkt t 0)

/-- Subcode 3 of cause 0x01 for an instruction word. -/
def badOperand {α : Type} (word : Nat) : Do α := trap 0x01 (encTval word 3 false)

/-- The destination that a word names must lie in the launch's core set (R237 reason 2). -/
def destCheck (s : State) (core : Nat) : Do Unit :=
  if inLaunch s (opCtx s) core then .ok () else trap 0x08 (reason2 core)

/-- The values of `n` registers from one. -/
def payloadOf (s : State) (b : GReg) (n : Nat) : List Word := (regRange b n).map (rg s)

/-- A message of the issuing context, with its send slate. -/
def mkMsg (s : State) (ty route : Nat) (token : Word) (payload : List Word) : Message :=
  ⟨BitVec.ofNat 16 ty, BitVec.ofNat 16 route, (opCtx s).slate, token, payload, nodeOf s.cur.agent, none, none⟩

/-- SEND, SENDQ and CUT (R243). -/
def sendOp (word : Nat) (cut traps : Bool) (a b : GReg) (n : Nat) (s : State) : Do Done := do
  let v := (rg s a).toNat
  let core := v % 2 ^ 11
  let t := bits v 31 16
  destCheck s core
  if 0xFFFE ≤ t ∨ 8 < n ∨ (0 < n ∧ 32 < b.val + n) then badOperand word
  else do
    let m := mkMsg s (if cut then 0xFFFE else t) t 0 (payloadOf s b n)
    let s ← sendPosted s traps core 0 fun j => .message m none (some j)
    ok s

/-- SEND (R243). -/
def execSend (a b : GReg) (n : BitVec 4) (s : State) : Out :=
  let w := wP 0x19 0 a b 0 n.toNat
  issue { cForm w with gr := a :: regRange b n.toNat } (sendOp w false false a b n.toNat) s

/-- SENDQ (R243). -/
def execSendq (a b : GReg) (n : BitVec 4) (s : State) : Out :=
  let w := wP 0x19 0 a b 1 n.toNat
  issue { cForm w with gr := a :: regRange b n.toNat } (sendOp w false true a b n.toNat) s

/-- CUT (R243). -/
def execCut (a : GReg) (s : State) : Out :=
  let w := wP 0x19 0 a 0 4 0
  issue { cForm w with gr := [a] } (sendOp w true false a 0 0) s

/-- SENDR's effect (R244). -/
def sendrOp (a b : GReg) (k : Fin 32) (s : State) : Do Done := do
  let v := (rg s a).toNat
  let core := v % 2 ^ 11
  destCheck s core
  let d : Deposit := ⟨bits v 21 16, BitVec.ofNat 16 (bits v 47 32), k, rg s b, agentNo s.cur.agent⟩
  let s ← sendPosted s false core 0 fun j => .deposit d (curWho s 0) (some j)
  ok s

/-- SENDR (R244). -/
def execSendr (a b : GReg) (k : Fin 32) (s : State) : Out :=
  issue { cForm (wP 0x19 0 a b 2 k) with gr := [a, b] } (sendrOp a b k) s

/-- REPLY's effect (R247). -/
def replyOp (traps : Bool) (a b : GReg) (s : State) : Do Done :=
  let t := (rg s a).toNat
  if !bit t 63 then ok s
  else do
    let v := rg s b
    let s ← takeSend s 1 traps
    ok (holdPkt (sendPkt s (nodeOf s.cur.agent) (.core (t % 2 ^ 11)) 1 (.sinkReply (bits t 23 20) (BitVec.ofNat 16 (bits t 47 32)) v)) 1)

/-- REPLY (R247). -/
def execReply (a b : GReg) (s : State) : Out :=
  issue { cForm (wP 0x19 0 a b 3 0) with gr := [a, b] } (replyOp false a b) s

/-- REPLY.Q (R247). -/
def execReplyQ (a b : GReg) (s : State) : Out :=
  issue { cForm (wP 0x19 0 a b 3 1) with gr := [a, b] } (replyOp true a b) s

/-- Whether an address has the core-local form (R173). -/
def isLocal (v : Nat) : Bool := v / 2 ^ 44 == 0xF && bits v 32 20 == 0

/-- PUTN's effect (R245). A type that no message carries (R225) is refused as SEND's is. -/
def putnOp (word : Nat) (d a b : GReg) (n : Nat) (s : State) : Do Done :=
  let v := (rg s a).toNat
  let core := bits v 43 33
  let t := bits (rg s d).toNat 31 16
  if n = 0 ∨ 8 < n ∨ 32 < b.val + n ∨ 0xFFFE ≤ t then badOperand word
  else if v % 8 ≠ 0 then trap 0x05 (rg s a)
  else if !isLocal v then trap 0x06 (fv v 1 4 true)
  else do
    destCheck s core
    let m := mkMsg s t t 0 [rg s a, w64 n]
    let data := payloadOf s b n
    let who := curWho s 0
    let launch := (opCtx s).launch
    let s ← sendPosted s false core (rg s a) fun j => .putn who (some j) v (rg s a) data m launch
    ok s

/-- PUTN (R245). -/
def execPutn (d a b : GReg) (n : BitVec 4) (s : State) : Out :=
  let w := wP 0x19 d a b 5 n.toNat
  issue { cForm w with gr := d :: a :: regRange b n.toNat } (putnOp w d a b n.toNat) s

/-! ### GETR (R240, R241, R246) -/

/-- The hold of a GETR whose register still awaits a reply. -/
def getrHold (s : State) (d : GReg) : Do Unit :=
  let c := opCtx s
  if (curCore s).sinks.toList.any fun x => match x.bound with
      | some (w, r) => w.ctx == s.cur && w.gen == c.gen && r == d
      | none => false
  then .error (.hold s) else .ok ()

/-- The presence and arm bits of a register of the issuing context: frozen bits stay as they are (R341). -/
def setBits (s : State) (d : GReg) (p a : Bool) : State :=
  let b : BitVec 32 := BitVec.ofNat 32 (2 ^ d.val)
  let put (x : BitVec 32) (v : Bool) : BitVec 32 := if v then x ||| b else x &&& ~~~b
  modCur s fun c => if c.frozen d then c else { c with p := put c.p p, a := put c.a a }

/-- The lowest-numbered free sink. -/
def freeSink (co : Core) : Option (Fin 16) := (List.finRange 16).find? fun i => (co.sinks[i]).bound.isNone

/-- GETR's request (R246). -/
def getrOp (word : Nat) (d a b : GReg) (s : State) : Do Done := do
  getrHold s d
  let v := (rg s a).toNat
  let core := v % 2 ^ 11
  let t := bits v 31 16
  destCheck s core
  if 0xFFFE ≤ t ∨ d = 0 then badOperand word
  else
    match freeSink (curCore s) with
    | none => .error (.wait s 6 0 core)
    | some k => do
      let gen := ((curCore s).sinks[k]).gen + 1
      let token : Word := w64 (2 ^ 63 + gen.toNat * 2 ^ 32 + k.val * 2 ^ 20 + agentNo s.cur.agent % 2 ^ 11)
      let m := mkMsg s t t token [rg s b]
      let s ← takeSend s 0 false
      let who := curWho s 0
      let s := modCurCore s fun co => { co with sinks := co.sinks.set k ⟨gen, some (who, d), core, none⟩ }
      ok (setBits (holdPkt (sendPkt s (nodeOf s.cur.agent) (.core core) 0 (.message m (some who) none)) 0) d false true)

/-- GETR (R246). -/
def execGetr (d a b : GReg) (s : State) : Out :=
  let w := wP 0x19 d a b 6 0
  issue { cForm w with gr := [a, b], gw := [d] } (getrOp w d a b) s

/-- GETR.ARM (R246). -/
def execGetrArm (d : GReg) (s : State) : Out :=
  issue { cForm (wP 0x19 d 0 0 6 1) with gw := [d] } (fun s => do getrHold s d; ok (setBits s d false true)) s

/-- GETR.DIS (R246). -/
def execGetrDis (d : GReg) (s : State) : Out :=
  issue { cForm (wP 0x19 d 0 0 6 2) with gw := [d] } (fun s => do getrHold s d; ok (setBits s d true false)) s

/-! ### QPOP, QPEEK and QSTAT (R248, R249) -/

/-- Parked messages brought back and stale ones diverted, until the head of a queue may be delivered. -/
def prepareQueue (a : Agent) (q : Fin 64) : Nat → State → State
  | 0, s => s
  | n + 1, s =>
    let s := ageQueue (unpark a (getCore s a).overflow s) a q
    if ((getCore s a).queues[q]).msgs.isEmpty && parkedOf (getCore s a) q != 0 then prepareQueue a q n s else s

/-- A queue prepared for delivery (R228, R248). -/
def readyQueue (s : State) (a : Agent) (q : Fin 64) : State :=
  prepareQueue a q ((getCore s a).overflow.length + 1) s

/-- The record of a message (Table 10.8). -/
def msgRecord (q : Fin 64) (m : Message) : List Byte :=
  let w0 := m.ty.toNat + m.payload.length % 16 * 2 ^ 16 + q.val * 2 ^ 20
  let words := [w0, m.slate.toNat, m.token.toNat] ++ (List.range 8).map fun i => (m.payload[i]?.getD 0).toNat
  words.flatMap fun w => bytesOf w 8

/-- QPOP's and QPEEK's effect. -/
def qpopOp (pop : Bool) (d a b : GReg) (s : State) : Do Done :=
  let q := Fin.ofNat 64 (rg s a).toNat
  let ag := s.cur.agent
  let x := (curCore s).queues[q]
  if !x.valid || x.launch != (opCtx s).launch then ok (wgSlow s d 1)
  else
    let at_ := rg s b
    let s := readyQueue s ag q
    match ((curCore s).queues[q]).msgs with
    | [] => ok (wgSlow s d 0)
    | m :: _ =>
      if staleHead s ((curCore s).queues[q]) then .error (.hold s)
      else if at_.toNat % 8 ≠ 0 then trap 0x05 at_
      else do
        let (s, t) ← resolveCur s at_ 1 .wr
        match t with
        | .own off => do
          ownCheck s at_ off 88 true
          let s := homeWrite s (localAddr (agentNo ag) off) (msgRecord q m) 0 (writerNo ag) (some (curWho s 0))
          let s := if pop then dropHead s ag q else s
          ok (wgSlow s d (w64 (2 ^ 63 + q.val * 2 ^ 20 + m.payload.length % 16 * 2 ^ 16 + m.ty.toNat)))
        | _ => trap 0x0B at_

/-- QPOP (R248). -/
def execQpop (d a b : GReg) (s : State) : Out :=
  issue { cForm (wP 0x19 d a b 7 0) with gr := [a, b], gw := [d] } (qpopOp true d a b) s

/-- QPEEK (R248). -/
def execQpeek (d a b : GReg) (s : State) : Out :=
  issue { cForm (wP 0x19 d a b 8 0) with gr := [a, b], gw := [d] } (qpopOp false d a b) s

/-- What QSTAT reads of a queue (Table 10.9). -/
def queueStatus (s : State) (q : Fin 64) : Word :=
  let x := (curCore s).queues[q]
  if !x.valid || x.launch != (opCtx s).launch then 0
  else w64 (2 ^ 63 + b2n x.isHeld * 2 ^ 62 + b2n x.resume * 2 ^ 61 + b2n (x.serial && x.running.isSome) * 2 ^ 60
    + x.stalecnt % 2 ^ 16 * 2 ^ 32 + Nat.min (parkedOf (curCore s) q) 0xFFFF * 2 ^ 16 + x.msgs.length % 2 ^ 9)

/-- QSTAT (R249). -/
def execQstat (d a : GReg) (s : State) : Out :=
  issue { cForm (wP 0x19 d a 0 9 0) with gr := [a], gw := [d] }
    (fun s => ok (wgSlow s d (queueStatus s (Fin.ofNat 64 (rg s a).toNat)))) s

/-- QSTAT.CLR's effect. -/
def qstatClrOp (d a : GReg) (s : State) : Do Done :=
  let q := Fin.ofNat 64 (rg s a).toNat
  let x := (curCore s).queues[q]
  let v := queueStatus s q
  let s := if x.valid && x.launch == (opCtx s).launch then
      modQueue s s.cur.agent q fun x => { x with stalecnt := 0 } else s
  ok (wgSlow s d v)

/-- QSTAT.CLR (R249). -/
def execQstatClr (d a : GReg) (s : State) : Out :=
  issue { cForm (wP 0x19 d a 0 9 1) with gr := [a], gw := [d] } (qstatClrOp d a) s

/-! ### Arrivals (R227, R236, R237, R245) -/

/-- TVAL of cause 0x08 with reason 3 (R237). -/
def reason3 (core : Nat) : Word := w64 (3 * 2 ^ 56 + core % 2 ^ 11)

/-- The acknowledgement of a journal entry leaves a receiver. -/
def sendAck (s : State) (node src : Node) (jn : Option Nat) : State :=
  match jn with
  | some j => sendPkt s node src 1 (.ack j)
  | none => s

/-- A message that no queue of a core matches (R227, R237): the sender is told, by a refusal on VN1 for a core, by ERR
for a message port, and by a record for the front ends and the guest port. -/
def refuseMsg (s : State) (core : Nat) (src : Node) (m : Message) (w : Option Who) (jn : Option Nat) : State :=
  let node := Node.core core
  match src with
  | .ctrl c =>
    let c := Fin.ofNat 8 c
    modDev s fun d => { d with ctrl := d.ctrl.set c { d.ctrl[c] with err := 3, busy := false } }
  | .core _ =>
    match w with
    | some who =>
      let s := sendPkt s node src 1 (.sinkReply (bits m.token.toNat 23 20) (BitVec.ofNat 16 (bits m.token.toNat 47 32)) 0)
      sendPkt s node src 1 (.refusal who (some 0) none 0x08 (reason3 core))
    | none => sendPkt s node src 1 (.refusal ⟨⟨.tile core, 0⟩, 0, 0, 0⟩ none jn 0x08 (reason3 core))
  | _ => record s 0x08 core [m.ty.toNat]

/-- A message that has reached its core; none while it must wait. -/
def messageAt (s : State) (core : Nat) (src : Node) (m : Message) (w : Option Who) (jn : Option Nat) : Option State :=
  let free (s : State) : State := match src with
    | .ctrl c =>
      let c := Fin.ofNat 8 c
      modDev s fun d => { d with ctrl := d.ctrl.set c { d.ctrl[c] with busy := false } }
    | _ => s
  match placeMsg s (.tile core) m with
  | .done s => some (sendAck (free s) (.core core) src jn)
  | .full => none
  | .unmatched => some (refuseMsg s core src m w jn)

/-- Words written by a put-with-notify, with their full/empty bits set (R245). -/
def putWords (s : State) (a : Nat) (kind writer : Nat) (w : Option Who) (data : List Word) : State :=
  fillWords (homeWrite s a (data.flatMap fun x => bytesOf x.toNat 8) kind writer w) a (8 * data.length)

/-- What the words of a put-with-notify meet: roles and windows are checked for every word before any is written
(R245). -/
def putnVerdict (s : State) (core off n : Nat) (src : Nat) (launch : Option Nat) : Verdict :=
  let l := (List.range n).map fun i => ownerCheck s core (off + 8 * i) 8 .wr (some src) false launch
  if l.contains .role then .role else if l.contains .window then .window else if l.contains .later then .later else .perform

/-- A put-with-notify that has reached its core: the words and then the notification, as one step of the home
order; none while it must wait. -/
def putnAt (s : State) (core : Nat) (src : Node) (w : Who) (jn : Option Nat) (addr : Nat) (data : List Word)
    (m : Message) (launch : Option Nat) : Option State :=
  let off := addr - localAddr core 0
  let a := Agent.tile core
  let from_ := agentNo w.ctx.agent
  match putnVerdict s core off data.length from_ launch with
  | .later => none
  | .role => some (sendPkt s (.core core) src 1 (.refusal w none jn 0x29 (w64 addr)))
  | .window => some (sendPkt s (.core core) src 1 (.refusal w none jn 0x29 (w64 addr)))
  | .perform =>
    let s' := putWords s addr (writerKind w.ctx.agent) from_ (some w) data
    match placeMsg s' a m with
    | .done t => some (sendAck t (.core core) src jn)
    | .full => none
    | .unmatched => some (sendPkt s' (.core core) src 1 (.refusal w none jn 0x08 (reason3 core)))

/-- MESSAGE_ARRIVAL (R227): the message or the put-with-notify at index `n` reaches its core. -/
def execMessageArrival (n : Nat) (s : State) : Out :=
  match takePkt s n with
  | some (⟨src, .core c, _, .message m w jn, _, _⟩, t) => event ((messageAt t c src m w jn).getD s)
  | some (⟨src, .core c, _, .putn w jn addr _ data m la, _, _⟩, t) => event ((putnAt t c src w jn addr data m la).getD s)
  | _ => event s

/-- Whether an activation has been killed and has not quiesced. -/
def isKilled (s : State) (k : CtxKey) (gen : Gen) : Bool :=
  match findActivation s k gen with
  | some c => c.killed
  | none => false

/-- The first entry of a send queue that meets a test leaves its core (R235): its message can arrive from now on, and a context
of the core that waits with kind 7 for the network is ready. The entry of a killed activation stays until its quiesce
acknowledgement (R97). -/
def freeSendOf (s : State) (a : Agent) (vn : Fin 4) (p : SendEntry → Bool) : State :=
  let l := (getCore s a).sendq[vn]
  match l.find? fun e => !e.left && p e with
  | none => s
  | some e =>
    if isKilled s e.ctx e.gen then
      modCore s a fun co => { co with sendq := co.sendq.set vn ((l.erase e) ++ [{ e with left := true }]) }
    else
      wakeWaiting (modCore s a fun co => { co with sendq := co.sendq.set vn (l.erase e) }) a
        fun w => w.kind == 7 && w.obj == vn.val

/-- SEND_QUEUE_ENTRY_FREED of one network (R235). -/
def freeSend (s : State) (a : Agent) (vn : Fin 4) : State := freeSendOf s a vn fun _ => true

/-- Every context of a core that waits with a kind is ready. -/
def wakeAll (s : State) (a : Agent) (kind : Nat) : State := wakeWaiting s a (·.kind == kind)

/-! ### Deposits and replies (R105 to R107, R240) -/

/-- Whether a slot's spilled context has a generation. -/
def spilledHas (co : Core) (slot : Nat) (gen : Gen) : Bool :=
  co.spilled.any fun x => x.slot == slot && x.ctx.gen == gen

/-- TVAL of cause 0x10 (R422). -/
def absentTval (core what slot : Nat) (gen : Gen) : Word :=
  w64 (core % 2 ^ 11 + what * 2 ^ 11 + slot % 64 * 2 ^ 16 + gen.toNat * 2 ^ 32)

/-- A deposit that is discarded, with its sender in the record (R105). -/
def discardDeposit (s : State) (core : Nat) (d : Deposit) : State := record s 0x10 core [d.src, d.slot, d.gen.toNat]

/-- Whether the activation that a deposit names has ended or been killed (R105). -/
def depositGone (s : State) (a : Agent) (d : Deposit) : Bool :=
  match findActivation s ⟨a, d.slot⟩ d.gen with
  | some c => c.killed
  | none => true

/-- A deposit that has reached its core and is not parked for a spilled context: it waits in the receive queue, or is
parked behind it; none while the overflow store is full. One for g0 is discarded (R103). -/
def depositAt (s : State) (core : Nat) (d : Deposit) : Option State :=
  let a := Agent.tile core
  let co := getCore s a
  let parked := co.overflow.any fun p => match p with
    | .deposit _ => true
    | .absent slot e => slot == d.slot && e.gen == d.gen
    | _ => false
  if depositGone s a d then some (discardDeposit s core d)
  else if d.reg = 0 then some s
  else if co.recvQ.length < 16 ∧ !parked then some (setCore s a { co with recvQ := co.recvQ ++ [d] })
  else if co.overflow.length < overflowSize then some (park s a (.deposit d) 1 0)
  else none

/-- DEPOSIT_ARRIVAL (R105, R106): the deposit at index `n` reaches its core. One for a spilled context is
ABSENT_CONTEXT_MESSAGE's. -/
def execDepositArrival (n : Nat) (s : State) : Out :=
  match takePkt s n with
  | some (⟨src, .core c, _, .deposit d _ jn, _, _⟩, t) =>
    if d.reg ≠ 0 ∧ spilledHas (getCore s (.tile c)) d.slot d.gen ∧ !depositGone s (.tile c) d then event s
    else match depositAt t c d with
      | some t => event (sendAck t (.core c) src jn)
      | none => event s
  | _ => event s

/-- Cause 0x10 for a deposit whose context is spilled: the context's return is pending (R95, R105). -/
def callBack (s : State) (a : Agent) (d : Deposit) : State :=
  let pend (x : Spilled) : Spilled := if x.slot = d.slot ∧ x.ctx.gen = d.gen then { x with pending := true } else x
  raiseFw (modCore s a fun co => { co with spilled := co.spilled.map pend }) 2 0x10 (absentTval (agentNo a) 1 d.slot d.gen) a

/-- ABSENT_CONTEXT_MESSAGE (R95, R105): the deposit at index `n` is for a spilled context, and is parked with cause
0x10 to FW2. -/
def execAbsentContextMessage (n : Nat) (s : State) : Out :=
  match takePkt s n with
  | some (⟨src, .core c, _, .deposit d _ jn, _, _⟩, t) =>
    let a := Agent.tile c
    let co := getCore t a
    if !spilledHas co d.slot d.gen || depositGone t a d || d.reg == 0 || decide (overflowSize ≤ co.overflow.length) then
      event s
    else event (sendAck (callBack (setCore t a { co with overflow := co.overflow ++ [.absent d.slot d] }) a d) (.core c) src jn)
  | _ => event s

/-- Whether a register of a context may take a deposit now: its P is clear, no write of it is in flight, and
neither a handler nor a callee has the registers (R106, R341, R343, R349). Nothing lands in a killed activation (R97,
R105). -/
def mayLand (c : Ctx) (r : GReg) (depth : Nat) : Bool :=
  !c.killed && !c.p.getLsbD r.val && !c.busy.contains (.g r) && !(c.awaits.any fun a => a.what.regs.contains (.g r))
    && !c.inTrap && !(c.inUi && decide (28 ≤ r.val)) && c.depth == depth

/-- A context that waits for a register is ready once the register has its value. -/
def wakeReg (s : State) (k : CtxKey) (r : GReg) : State :=
  let c := getCtx s k
  match c.wait with
  | some w => if (w.kind = 1 ∨ w.kind = 6) ∧ w.obj = r.val then wakeCtx s k c.gen else s
  | none => s

/-- Whether a deposit's register may take it now. -/
def depositLands (s : State) (a : Agent) (d : Deposit) : Bool :=
  let c := getCtx s ⟨a, d.slot⟩
  c.used && c.gen == d.gen && mayLand c d.reg 0

/-- Whether the reply that a sink holds may land now. -/
def sinkLands (s : State) (x : Sink) : Bool :=
  match x.bound, x.value with
  | some (w, r), some _ => let c := getCtx s w.ctx; c.used && c.gen == w.gen && mayLand c r w.depth
  | _, _ => false

/-- The deposit at an index of the receive queue lands when its register may take it: the oldest that may lands first
(R106), and replies land ahead of deposits (R240). One whose activation has ended or been killed is discarded (R105). -/
def landDeposit (s : State) (a : Agent) (i : Nat) : State :=
  let co := getCore s a
  match co.recvQ[i]? with
  | none => s
  | some d =>
    let k : CtxKey := ⟨a, d.slot⟩
    let gone (s : State) : State := modCore s a fun co => { co with recvQ := co.recvQ.eraseIdx i }
    if depositGone s a d then discardDeposit (gone s) (agentNo a) d
    else if depositLands s a d && !(co.recvQ.take i).any (depositLands s a) && !co.sinks.toList.any (sinkLands s) then
      wakeReg (modCtx (gone s) k fun c => c.wg d.reg d.value) k d.reg
    else s

/-- The reply that a sink holds lands in its register, and the sink is free (R240, R241). -/
def landSink (s : State) (a : Agent) (i : Nat) : State :=
  let k16 : Fin 16 := Fin.ofNat 16 i
  let x := (getCore s a).sinks[k16]
  match x.bound, x.value with
  | some (w, r), some v =>
    if sinkLands s x then
      let s := modCore s a fun co => { co with sinks := co.sinks.set k16 { x with bound := none, value := none } }
      let s := modCtx s w.ctx fun c =>
        let c := c.wg r v
        { c with a := c.a &&& ~~~ BitVec.ofNat 32 (2 ^ r.val) }
      wakeWaiting (wakeReg s w.ctx r) a wantsSink
    else s
  | _, _ => s

/-- DEPOSIT_LANDING (R106, R240): the deposit at an index of the receive queue lands, or from index 16 the reply
that a sink holds. -/
def execDepositLanding (ag : Agent) (i : Nat) (s : State) : Out :=
  event (if i < 16 then landDeposit s ag i else if i < 32 then landSink s ag (i - 16) else s)

/-- REPLY_ARRIVAL (R240): the reply at index `n` reaches its sink, or is discarded. The context of a sink that is
spilled is announced to FW2 (R95). -/
def execReplyArrival (n : Nat) (s : State) : Out :=
  match takePkt s n with
  | some (⟨_, .core c, _, .sinkReply i gen v, _, _⟩, t) =>
    let a := Agent.tile c
    let k := Fin.ofNat 16 i
    let x := (getCore t a).sinks[k]
    match x.bound with
    | some (w, _) =>
      if x.gen = gen ∧ x.value = none then
        let t := modCore t a fun co => { co with sinks := co.sinks.set k { x with value := some v } }
        event (if (getCtx t w.ctx).used && (getCtx t w.ctx).gen == w.gen then t else wakeCtx t w.ctx w.gen)
      else event t
    | none => event t
  | _ => event s

/-- The oldest parked deposits return to the receive queue as entries free; one whose activation has ended is
discarded, and one for a context that is still spilled stays (R95, R106). One that was parked behind a full queue and whose
context has been spilled since is then a message for an absent context (R105). -/
def unparkDeposits (a : Agent) : List Parked → State → State
  | [], s => s
  | p :: l, s =>
    let back (d : Deposit) : State :=
      let co := getCore s a
      let drop : State := modCore s a fun co => { co with overflow := co.overflow.erase p }
      if depositGone s a d then unparkDeposits a l (discardDeposit drop (agentNo a) d)
      else if spilledHas co d.slot d.gen then unparkDeposits a l s
      else if co.recvQ.length < 16 then
        unparkDeposits a l (modCore drop a fun co => { co with recvQ := co.recvQ ++ [d] })
      else s
    match p with
    | .message _ _ _ => unparkDeposits a l s
    | .deposit d =>
      if !depositGone s a d && spilledHas (getCore s a) d.slot d.gen then
        unparkDeposits a l (callBack (modCore s a fun co => { co with overflow := co.overflow.replace p (.absent d.slot d) }) a d)
      else back d
    | .absent _ d => back d

/-- PARKED_RETURN (R106, R227). -/
def execParkedReturn (ag : Agent) (s : State) : Out :=
  let s := unpark ag (getCore s ag).overflow s
  event (unparkDeposits ag (getCore s ag).overflow s)

end Sys2Proof.Machine
end

