-- ==== Sys2Proof/Machine/Sched.lean ====
section
/-! DEFINITION. The SCHED family and the run queue: spawning, forking, joining and budgets, how activations start,
wait, are spilled and come back, and how a killed one drains (R77 to R102, R235, R352). -/

namespace Sys2Proof.Machine

/-! ### Slots and live positions (R81 to R86) -/

/-- Slots of a core that a new activation or a spilled context may take: S of R81, for the register banks that both
the old and, during a reshape, the new split give (R139). -/
def slotCount (co : Core) : Nat := Nat.min 64 (Nat.min co.counts.1 (governing co).1 * 16384 / 2560)

/-- Whether a new activation may take a slot: it is free and no spilled context's return to it is pending (R95). -/
def slotFree (s : State) (a : Agent) (i : Nat) : Bool :=
  !(getCtx s ⟨a, i⟩).used && !((getCore s a).spilled.any fun x => x.slot == i && x.pending)

/-- The lowest-numbered free slot (R130). -/
def freeSlot (s : State) (a : Agent) : Option Nat :=
  (List.range (slotCount (getCore s a))).find? (slotFree s a)

/-- A free live position. DESIGN CHOICE: of several free ones it is the lowest-numbered; R86 does not say which a start
or a load takes. -/
def freePosition (s : State) (a : Agent) : Option (Fin 4) :=
  (List.finRange 4).find? fun p => !(s.ctxs.any fun x => x.1.agent == a && x.2.position == some p)
    && !((getCore s a).draining.any (·.pos == p))

/-- Whether a context is never written back or spilled (R84, R154, R161, R312, R349). -/
def Ctx.stays (c : Ctx) : Bool :=
  c.engineUsed || !c.streams.isEmpty || c.seqr.isSome || !c.ports.isEmpty || !c.frames.isEmpty

/-- Whether a context may be written back or spilled now (R84, R110, R142, R154, R161, R312, R349). -/
def mayLeave (s : State) (k : CtxKey) : Bool :=
  let c := getCtx s k
  c.quiet && !c.stays && !c.killed
    && !(match (getCore s k.agent).reshape with
      | some r => r.who.ctx == k && r.who.gen == c.gen
      | none => false)

/-! ### The run queue (R85, R86) -/

/-- What NextLive returns: a parked context, or a new activation from a position of R85. -/
inductive Next where
  | parked (k : CtxKey)
  | fresh (pri pos : Nat)
  deriving DecidableEq, Repr

/-- Of two parked contexts, the one whose wait was satisfied first. -/
def earlier (s : State) (a b : CtxKey) : CtxKey := if (getCtx s b).readyAt < (getCtx s a).readyAt then b else a

/-- The parked context of a priority that is ready and whose wait was satisfied first. -/
def readyParked (s : State) (a : Agent) (p : Nat) : Option CtxKey :=
  match (s.ctxs.filter fun x => x.1.agent == a && x.2.place == .parked && x.2.wait == none && !x.2.killed
      && x.2.pri == p).map (·.1) with
  | [] => none
  | k :: l => some (l.foldl (earlier s) k)

/-- The candidates that may start now: a queue's launch is live (R383), and nothing starts once power fails (R381). -/
def startable (s : State) (a : Agent) (p : Nat) : List Nat :=
  if s.dev.power.failing ≠ 0 then []
  else (candidates s a p).filter fun e => e == 64 ||
    (((getCore s a).queues[Fin.ofNat 64 e]).launch.bind (findLaunch s)).isSome

/-- The first candidate after Last[p]. -/
def nextAfter (l : List Nat) (last : Nat) : Option Nat :=
  match l.find? fun e => last < e with
  | some e => some e
  | none => l.head?

/-- NextLive at one priority. -/
def nextAt (s : State) (a : Agent) (p : Nat) : Option Next :=
  match readyParked s a p with
  | some k => some (.parked k)
  | none =>
    if (freeSlot s a).isNone then none
    else (nextAfter (startable s a p) ((getCore s a).last[Fin.ofNat 4 p])).map (.fresh p ·)

/-- NextLive (R86), without its write to Last. -/
def nextLive (s : State) (a : Agent) : Option Next := (List.range 4).findSome? (nextAt s a)

/-- The context of a new activation (R78), before its registers. -/
def newCtx (s : State) (a : Agent) (slot : Nat) (pos : Fin 4) (launch : Option Nat) : Ctx :=
  let gen := (getCore s a).gens[Fin.ofNat 64 slot] + 1
  let base : Ctx := { Ctx.idle with
    place := .live pos
    gen := gen
    launch := launch }
  match launch.bind (findLaunch s) with
  | none => base
  | some l => { base with
      asid := l.asid
      tvec := l.tvec
      arena := l.arena
      status := stSet Ctx.status0 9 l.compat }

/-- A translation's use (R405): its entry of the code heap moves behind the others. -/
def useHandler (s : State) (pc : Nat) : State :=
  modDev s fun d => { d with heap := d.heap.filter (·.addr != pc) ++ d.heap.filter (·.addr == pc) }

/-- The doublewords of a launch's handler table as memory holds them, as one number (R402). -/
def htableWords (s : State) (l : Launch) : Nat :=
  (List.range 512).foldl (fun n h =>
    let va := l.htable + 8 * h
    n * 2 ^ 64 + match walk s l.asid va 0 with
      | .ok t => readN s.mem (t.ppn * 2 ^ t.shift + va % 2 ^ t.shift) 8
      | .error _ => 0) 0

/-- The `ifence package` with which an activation starts where its core finds the handler table changed since it last
used it (R222; log entry 122). -/
def startFence (s : State) (k : CtxKey) (launch : Option Nat) : State :=
  match launch.bind (findLaunch s) with
  | none => s
  | some l =>
    if l.htable = 0 then s
    else
      let e := (l.la, l.htable, htableWords s l)
      let co := getCore s k.agent
      if co.entries.contains e then s
      else
        let s := setCore s k.agent { co with entries := e :: co.entries.filter (·.1 != l.la) }
        { dropFetched { s with cur := k, latch := none } .package with cur := s.cur, latch := s.latch }

/-- The context of a new activation in its slot, whose generation rises (R109). -/
def installCtx (s : State) (a : Agent) (slot : Nat) (c : Ctx) : State :=
  let s := modCore s a fun co => { co with gens := co.gens.set (Fin.ofNat 64 slot) c.gen }
  startFence (useHandler (setCtx s ⟨a, slot⟩ c) c.pc) ⟨a, slot⟩ c.launch

/-- Registers g1 and up of a message start (Table 10.3), for type `ty` of queue `q`. -/
def startRegs (ty q : Nat) (rest : List Word) : Vector Word 32 :=
  placeRegs (Vector.replicate 32 0) 1 (w64 (ty % 2 ^ 16 + q * 2 ^ 16) :: rest)

/-- An activation from queue `q` (R78 to R80, R229): the resume, or else the message at its head, before which stale
messages are diverted (R228). Nothing starts when no message remains, or a stale one cannot be diverted yet. A completion
message of the guest port starts it with an acquire, which sees the guest's writes (R372). -/
def startQueue (s : State) (a : Agent) (q : Fin 64) (slot : Nat) (pos : Fin 4) : State :=
  let s := if ((getCore s a).queues[q]).resume then s else ageQueue s a q
  let x := (getCore s a).queues[q]
  let base := newCtx s a slot pos x.launch
  let c : Ctx := { base with
    pc := x.handler
    pri := x.pri
    queue := some q
    path := BitVec.ofNat 32 (agentNo a * 64 + q.val)
    actLeft := x.actBudget
    actLoaded := x.actBudget }
  let run (s : State) : State :=
    modQueue s a q fun x => { x with running := if x.serial then some slot else x.running }
  if x.resume then
    let s := run (modQueue s a q fun x => { x with resume := false })
    installCtx s a slot { c with g := startRegs 0xFFFF q [x.resumeSlate], slate := x.resumeSlate }
  else
    match x.msgs with
    | [] => s
    | m :: _ =>
      if staleHead s x then s
      else
        let s := installCtx (run (dropHead s a q)) a slot
          { c with g := startRegs m.ty.toNat q (m.slate :: m.token :: m.payload), slate := m.slate }
        if m.src = .guest then acquireFor s ⟨a, slot⟩ else s


/-- An activation of the first child of a priority in the spawn list (R78, R85). -/
def startChild (s : State) (a : Agent) (p slot : Nat) (pos : Fin 4) : State :=
  match (getCore s a).spawnList.find? (·.pri == p) with
  | none => s
  | some ch =>
    let base := newCtx s a slot pos ch.launch
    let budget := match ch.launch.bind (findLaunch s) with
      | some l => l.budget
      | none => 0xFFFFFFFF
    let s := modCore s a fun co => { co with spawnList := co.spawnList.erase ch }
    acquireFor (installCtx s a slot { base with
      g := placeRegs (Vector.replicate 32 0) 1 ch.g
      pc := ch.pc
      pri := ch.pri
      asid := ch.asid
      spawned := true
      path := ch.path
      slate := ch.slate
      actLeft := budget
      actLoaded := budget }) ⟨a, slot⟩

/-- ACTIVATION_START: a free live position is filled by NextLive. A parked context begins to load (R82); a new
activation starts in the lowest-numbered free slot. -/
def activationStart (s : State) (a : Agent) : State :=
  match freePosition s a, nextLive s a with
  | some pos, some (.parked k) => modCtx s k fun c => { c with place := .loading pos }
  | some pos, some (.fresh p e) =>
    match freeSlot s a with
    | none => s
    | some slot =>
      let s := modCore s a fun co => { co with last := co.last.set (Fin.ofNat 4 p) e }
      if e = 64 then startChild s a p slot pos else startQueue s a (Fin.ofNat 64 e) slot pos
  | _, _ => s

/-- ACTIVATION_START (R86). -/
def execActivationStart (ag : Agent) (s : State) : Out :=
  match ag with
  | .tile _ => event (activationStart s ag)
  | .fw _ => event s

/-- CONTEXT_LOAD (R82): a context has been loaded into its live position. -/
def execContextLoad (k : CtxKey) (s : State) : Out :=
  match (getCtx s k).place with
  | .loading p => event (modCtx s k fun c => { c with place := .live p })
  | _ => event s

/-- The waiter of two that has waited longest. -/
def longer (s : State) (a b : CtxKey) : CtxKey :=
  let since (k : CtxKey) : Nat := ((getCtx s k).wait.map (·.since)).getD 0
  if since b < since a then b else a

/-- The contexts of an agent that hold a live position, with or without its being complete. -/
def liveCtxs (s : State) (a : Agent) : List (CtxKey × Ctx) :=
  s.ctxs.filter fun x => x.1.agent == a && x.2.position.isSome

/-- The waiter that the core writes back (R83). -/
def victim (s : State) (a : Agent) : Option CtxKey :=
  let l := liveCtxs s a
  if 4 ≤ l.length ∧ l.all fun x => x.2.wait.isSome then
    match (l.map (·.1)).filter (mayLeave s) with
    | [] => none
    | k :: l => some (l.foldl (longer s) k)
  else none

/-- CONTEXT_WRITEBACK (R83): while all live contexts wait and NextLive returns work, the longest waiter goes back to
its slot. -/
def execContextWriteback (k : CtxKey) (s : State) : Out :=
  if victim s k.agent == some k && (nextLive s k.agent).isSome then
    event (modCtx s k fun c => { c with place := .parked })
  else event s

/-! ### Spill and return (R94, R95) -/

/-- Contexts that a core's context area holds (R94). -/
def areaSize : Nat := 1638

/-- A waiting context moved from its slot to the context area. DESIGN CHOICE: a deposit for it that waits in the receive queue
already stays there, without cause 0x10; R105 speaks of deposits as they are received (log entry 138). -/
def spillCtx (s : State) (k : CtxKey) : State :=
  let c := getCtx s k
  let s := modCore s k.agent fun co => { co with
    spilled := co.spilled ++ [⟨k.slot, { c with place := .parked }, false⟩] }
  setCtx s k { Ctx.idle with gen := c.gen }

/-- Whether every slot of a core is held by a waiting activation. -/
def allWait (s : State) (a : Agent) : Bool :=
  (List.range (slotCount (getCore s a))).all fun i =>
    let c := getCtx s ⟨a, i⟩
    c.used && c.wait.isSome

/-- FW2 spills the waiter of a core whose wait began first, at most `n` times; a full context area is recorded (R94). -/
def spillWaiters (a : Agent) : Nat → State → State
  | 0, s => s
  | n + 1, s =>
    if areaSize ≤ (getCore s a).spilled.length then record s 0x11 (agentNo a) [areaSize]
    else
      match ((List.range (slotCount (getCore s a))).map fun i => (⟨a, i⟩ : CtxKey)).filter fun k =>
          (getCtx s k).wait.isSome && mayLeave s k with
      | [] => s
      | k :: l => spillWaiters a n (spillCtx s (l.foldl (longer s) k))

/-- SLOT_EXHAUSTION (R94): cause 0x11 to FW2, which spills a waiter for each candidate that cannot start. -/
def slotExhaustion (s : State) (a : Agent) : State :=
  let n := ((List.range 4).map fun p => (startable s a p).length).sum
  if !allWait s a || n == 0 then s
  else
    let s := raiseFw s 2 0x11 (w64 (agentNo a % 2 ^ 11)) a
    if fwWorks s 2 then spillWaiters a n s else s

/-- SLOT_EXHAUSTION (R94). -/
def execSlotExhaustion (ag : Agent) (s : State) : Out :=
  match ag with
  | .tile _ => event (slotExhaustion s ag)
  | .fw _ => event s

/-- SPILLED_CONTEXT_RETURN (R95): the context returns to its own slot when its return is pending, or in spill order
while the filter of 64 entries is full and no candidate waits. DESIGN CHOICE: one whose object has changed while the filter
had not recorded it returns once the filter is full no longer and no candidate waits; R95 gives it no return of its own (log
entry 137). -/
def spilledReturn (s : State) (k : CtxKey) : State :=
  let co := getCore s k.agent
  match co.spilled.find? (·.slot == k.slot) with
  | none => s
  | some first =>
    let x := (co.spilled.find? fun x => x.slot == k.slot && x.pending).getD first
    let full := decide (64 ≤ co.spilled.length)
    let idle := (List.range 4).all fun p => (startable s k.agent p).isEmpty
    let inOrder := idle && (if full then co.spilled.head? == some x else x.ctx.wait == none)
    if !(getCtx s k).used && decide (k.slot < slotCount co) && (x.pending || inOrder) && !x.ctx.killed then
      setCtx (modCore s k.agent fun co => { co with spilled := co.spilled.erase x }) k x.ctx
    else s

/-- SPILLED_CONTEXT_RETURN (R95). -/
def execSpilledContextReturn (k : CtxKey) (s : State) : Out := event (spilledReturn s k)

/-! ### Budgets (R90 to R93) -/


/-- ACTIVATION_BUDGET_EXPIRY (R91). -/
def execActivationBudgetExpiry (k : CtxKey) (s : State) : Out := event (budgetExpiry s k)

/-- BUDGET_GRACE_EXPIRY (R91): cause 0x12 goes to FW2, which kills the activation and records it. A callee of a gate
unwinds first (R351). -/
def execBudgetGraceExpiry (k : CtxKey) (s : State) : Out :=
  let c := getCtx s k
  if c.used && !c.killed && c.inGrace && c.frames.isEmpty && runOut s c && !isFw k.agent then
    let s := raiseFw s 2 0x12 (w64 c.actLoaded) k.agent
    event (if fwWorks s 2 then killCtx (record s 0x12 (agentNo k.agent) [c.actLoaded, k.slot, c.gen.toNat]) k else s)
  else event s

/-- The record of a waiting activation in a snapshot of the wait graph (R96). -/
def waitRecord (s : State) (k : CtxKey) (c : Ctx) : State :=
  match c.wait with
  | none => s
  | some w => record s 0x13 (agentNo k.agent) [(ctxAddr k c.gen).toNat, w.kind, w.obj, w.owner]

/-- TVAL of cause 0x13 (R96). -/
def deadTval (w : Wait) (slot core : Nat) (spilled : Bool) : Word :=
  w64 (w.kind + (if spilled then 2 ^ 14 else slot % 64 * 2 ^ 8) + core % 2 ^ 11 * 2 ^ 16 + w.obj % 2 ^ 32 * 2 ^ 32)

/-- Cause 0x13 for a waiting activation: FW2's snapshot, the kill and the deadlock hold (R96). -/
def deadlock (s : State) (k : CtxKey) (c : Ctx) (w : Wait) (spilled : Bool) : State :=
  let s := raiseFw s 2 0x13 (deadTval w k.slot (agentNo k.agent) spilled) k.agent
  if !fwWorks s 2 then s
  else
    let same (x : Ctx) : Bool := x.launch == c.launch
    let s := (s.ctxs.filter fun x => x.1.agent == k.agent && same x.2).foldl (fun s x => waitRecord s x.1 x.2) s
    let s := ((getCore s k.agent).spilled.filter fun x => same x.ctx).foldl
      (fun s x => waitRecord s ⟨k.agent, x.slot⟩ x.ctx) s
    let s := killAct s k c.gen
    match c.queue with
    | some q => if c.spawned then s else modQueue s k.agent q fun x => { x with deadHold := true }
    | none => s

/-- The waiting activations of a slot whose budget counts: the one that holds it, and those that have been spilled from it. -/
def slotWaiters (s : State) (k : CtxKey) : List (Ctx × Wait × Bool) :=
  let waits (b : Bool) (c : Ctx) : Option (Ctx × Wait × Bool) :=
    if c.killed || c.actLeft == 0xFFFFFFFF then none else c.wait.map fun w => (c, w, b)
  let c := getCtx s k
  (if c.used && !isFw k.agent then (waits false c).toList else [])
    ++ ((getCore s k.agent).spilled.filter (·.slot == k.slot)).filterMap fun x => waits true x.ctx

/-- DEADLOCK_SUSPECTED (R96): the budget of a waiting activation runs out, in its slot or spilled. Where several activations of
one slot wait, whose budget runs out first is open (log entry 5). -/
def execDeadlockSuspected (k : CtxKey) (s : State) : Out :=
  let l := slotWaiters s k
  match l[Config.pick s.fresh % l.length]? with
  | some (c, w, b) => event (deadlock { s with fresh := s.fresh + 1 } k c w b)
  | none => event s

/-- TAKE_BUDGET_SPENT (R92): the task's queue is held until the next clapper. -/
def execTakeBudgetSpent (ag : Agent) (q : Fin 64) (s : State) : Out :=
  let x := (getCore s ag).queues[q]
  if x.valid && x.serial && x.takeLeft == 0 then event (modQueue s ag q fun x => { x with budgetHold := true })
  else event s

/-- The task of a context: its serial queue. -/
def taskOf (s : State) (c : Ctx) : Option (Fin 64) :=
  match c.queue with
  | some q => if !c.spawned && ((curCore s).queues[q]).serial then some q else none
  | none => none

/-- The old value of a BUDGET form, and the refusal of a raise at user level. -/
def budgetCheck (s : State) (word old v : Nat) (act : Bool) : Do Unit :=
  if curLevel s = 0 ∧ (old < v ∨ (act ∧ v = 0xFFFFFFFF)) then trap 0x03 (encTval word 0 false) else .ok ()

/-- BUDGET.ACT's effect. A raise ends the grace (R91). -/
def budgetActOp (d a : GReg) (s : State) : Do Done :=
  let t := elapse s
  let v := Nat.min (rg s a).toNat 0xFFFFFFFF
  let old := (curCtx t).actLeft
  do
    budgetCheck s (wP 0x1A d a 0 3 0) old v true
    ok (wg (modCur t fun c => { c with actLeft := v, inGrace := c.inGrace && !decide (old < v) }) d (w64 old))

/-- BUDGET.ACT (R90). -/
def execBudgetAct (d a : GReg) (s : State) : Out :=
  issue { cForm (wP 0x1A d a 0 3 0) with gr := [a], gw := [d] } (budgetActOp d a) s

/-- BUDGET.TAKE's effect. -/
def budgetTakeOp (d a : GReg) (s : State) : Do Done :=
  match taskOf s (opCtx s) with
  | none => ok (wg s d 0xFFFFFFFF)
  | some q => do
    let v := Nat.min (rg s a).toNat 0xFFFFFFFF
    let old := ((curCore s).queues[q]).takeLeft
    budgetCheck s (wP 0x1A d a 0 3 1) old v false
    ok (wg (modQueue s s.cur.agent q fun x => { x with takeLeft := v, budgetHold := x.budgetHold || v == 0 }) d (w64 old))

/-- BUDGET.TAKE (R92). -/
def execBudgetTake (d a : GReg) (s : State) : Out :=
  issue { cForm (wP 0x1A d a 0 3 1) with gr := [a], gw := [d] } (budgetTakeOp d a) s

/-! ### Join words and cells (R100, R101) -/

/-- The cell, the owner and the index of a join word. -/
def jwCell (w : Word) : Nat := w.toNat % 256
def jwOwner (w : Word) : Nat := bits w.toNat 18 8
def jwIndex (w : Word) : Nat := bits w.toNat 47 32
/-- A join word. -/
def joinWord (owner cell idx : Nat) : Word := w64 (cell % 256 + owner % 2 ^ 11 * 2 ^ 8 + idx % 2 ^ 16 * 2 ^ 32)

/-- TVAL of cause 0x1A (R100). -/
def joinTval (reason : Nat) (w : Word) : Word := w64 (reason + w.toNat % 2 ^ 19 * 2 ^ 32)

/-- A cell of a core. -/
def getCell (co : Core) (i : Nat) : Cell := co.cells[Fin.ofNat 256 i]
/-- A cell replaced. -/
def setCell (s : State) (a : Agent) (i : Nat) (c : Cell) : State :=
  modCore s a fun co => { co with cells := co.cells.set (Fin.ofNat 256 i) c }

/-- The word that a continuing form's gd receives: SPAWNED and RERR. -/
def Cell.result (c : Cell) : Nat := c.spawned % 2 ^ 16 + b2n c.rerr * 2 ^ 63
/-- The owner's answer to a form that does not continue. -/
def joinEnd : Word := w64 (2 ^ 62)
/-- The owner's answer that names a reason of cause 0x1A. -/
def joinBad (reason : Nat) : Word := w64 (reason * 2 ^ 32)

/-- The result of an arrival (R102): written with its word set full, or RERR and a record. -/
def joinResult (s : State) (owner : Nat) (cell : Nat) (c : Cell) (idx : Nat) (w : Who) (value : Word) : State × Cell :=
  let off := c.rbase + 8 * idx
  let a := localAddr owner off
  if !c.ren then (s, c)
  else if off ≤ 0xFFFF8 ∧ roleAdmit (getCore s (.tile owner)) off 8 ≠ .no then
    (setFe (homeWrite s a (bytesOf value.toNat 8) 0 (writerNo w.ctx.agent) (some w)) a true, c)
  else (record s 0x1A owner [cell, idx], { c with rerr := true })

/-- Whether a cell's opener has been killed and has not quiesced: the cell stays (R97). -/
def cellHeld (s : State) (ag : Agent) (c : Cell) : Bool := isKilled s ⟨ag, c.opener⟩ c.openerGen

/-- An arrival at a cell (R101, R102): the state, and the answer to the arriving activation. -/
def joinArrive (s : State) (owner : Nat) (jw : Word) (w : Who) (value : Word) : State × Word :=
  let i := jwCell jw
  let ag := Agent.tile owner
  let c := getCell (getCore s ag) i
  if !c.isOpen then (s, joinBad 2)
  else if c.arrived = c.spawned then (s, joinBad 1)
  else
    let (s, c) := joinResult s owner i c (jwIndex jw) w value
    let c := { c with arrived := c.arrived + 1 }
    if c.arrived = c.spawned then
      match c.waiter with
      | some o => (answer (setCell s ag i Cell.closed) o (w64 c.result), joinEnd)
      | none =>
        if c.sealed then (setCell s ag i Cell.closed, w64 c.result)
        else if c.orphan && !cellHeld s ag c then (setCell s ag i Cell.closed, joinEnd)
        else (setCell s ag i c, joinEnd)
    else (setCell s ag i c, joinEnd)

/-- Whether an activation opened a cell. -/
def opened (owner : Nat) (c : Cell) (w : Who) : Bool :=
  w.ctx.agent == .tile owner && c.opener == w.ctx.slot && c.openerGen == w.gen && !c.orphan

/-- A seal (`wait` false) or a wait at a cell: the state, and the answer, none while the opener waits. -/
def joinAwait (s : State) (owner : Nat) (jw : Word) (w : Who) (wait : Bool) : State × Option Word :=
  let i := jwCell jw
  let ag := Agent.tile owner
  let c := getCell (getCore s ag) i
  if !c.isOpen then (s, some (joinBad 2))
  else if !opened owner c w then (s, some (joinBad 4))
  else if c.arrived = c.spawned then (setCell s ag i Cell.closed, some (w64 c.result))
  else if wait || c.det then (setCell s ag i { c with waiter := some w }, none)
  else (setCell s ag i { c with sealed := true }, some joinEnd)

/-- An arrival (kind 0), a seal (1) or a wait (2) at the owner. -/
def joinAt (s : State) (owner kind : Nat) (jw : Word) (w : Who) (value : Word) : State × Option Word :=
  if kind = 0 then
    let r := joinArrive s owner jw w value
    (r.1, some r.2)
  else joinAwait s owner jw w (kind == 2)

/-- Whether an arrival must wait for a bank that a reshape initialises (R139). -/
def joinLater (s : State) (owner : Nat) (jw : Word) : Bool :=
  let co := getCore s (.tile owner)
  let c := getCell co (jwCell jw)
  c.isOpen && c.ren && roleAdmit co (c.rbase + 8 * jwIndex jw) 8 == .later

/-- JOIN_ARRIVAL (R102): the arrival, seal or wait at index `n` reaches the cell's owner. -/
def execJoinArrival (n : Nat) (s : State) : Out :=
  match takePkt s n with
  | some (⟨_, .core o, _, .join w kind jw value, _, _⟩, t) =>
    if kind = 0 ∧ joinLater s o jw then event s
    else
      let r := joinAt t o kind jw w value
      match r.2 with
      | some v => event (sendPkt r.1 (.core o) (nodeOf w.ctx.agent) 1 (.reply w w.id v.toNat))
      | none => event r.1
  | _ => event s

/-- The owner's answer kept for the bundle's reissue, when the bundle cannot end or go on yet. -/
def keepAnswer (s : State) (v : Word) : State :=
  if (grantOf s).isSome then s
  else
    let (id, s) := newId s
    modCur s fun c => { c with grants := c.grants ++ [⟨c.pc, id, some v⟩] }

/-- The end of a JOIN form once its owner has answered. -/
def joinFinish (d : GReg) (jw : Word) (s : State) (v : Word) : Do Done :=
  let s := keepAnswer s v
  let reason := bits v.toNat 39 32
  if reason ≠ 0 then trap 0x1A (joinTval reason jw)
  else if bit v.toNat 62 then
    match endCheck s with
    | .ok _ => ending s
    | .error (.wait _ kind obj owner) => .error (.wait s kind obj owner)
    | .error e => .error e
  else do
    let s ← acquire s .package
    ok (wgSlow s d v)

/-- A JOIN form at its owner: performed at once on the own core, or asked for. DESIGN CHOICE: an arrival whose word names an owner
outside the launch and carries index 0xFFFF too raises cause 0x08; the spec orders neither first (log entry 139). -/
def joinForm (d : GReg) (jw : Word) (kind : Nat) (value : Word) (s : State) : Do Done :=
  let owner := jwOwner jw
  let obj := 0x1000 + 8 * jwCell jw
  let own := s.cur.agent == .tile owner
  let name := if own then 0x7FF else owner
  match grantOf s with
  | some { value := some v, .. } => joinFinish d jw s v
  | some _ => .error (.wait s 5 obj name)
  | none => do
    destCheck s owner
    if kind = 0 ∧ jwIndex jw = 0xFFFF then trap 0x1A (joinTval 5 jw)
    else if recruiting s then .error (.hold s)
    else do
      let s ← if kind = 0 then release s .package else .ok s
      if own then
        if kind = 0 ∧ joinLater s owner jw then .error (.hold s)
        else
          let (id, s) := newId s
          let r := joinAt s owner kind jw (curWho s id) value
          match r.2 with
          | some v => joinFinish d jw r.1 v
          | none => askAs r.1 id 5 obj 0x7FF
      else askOwner s 5 obj owner fun id s =>
        sendPkt s (nodeOf s.cur.agent) (.core owner) 3 (.join (curWho s id) kind jw value)

/-- JOIN, which arrives (R101, R102). -/
def execJoin (d a b : GReg) (s : State) : Out :=
  issue { cForm (wP 0x1A d a b 2 0) with gr := [a, b], gw := [d] } (fun s => joinForm d (rg s a) 0 (rg s b) s) s

/-- JOIN.SEAL (R101). -/
def execJoinSeal (d a : GReg) (s : State) : Out :=
  issue { cForm (wP 0x1A d a 0 2 2) with gr := [a], gw := [d] } (fun s => joinForm d (rg s a) 1 0 s) s

/-- JOIN.WAIT (R101). -/
def execJoinWait (d a : GReg) (s : State) : Out :=
  issue { cForm (wP 0x1A d a 0 2 3) with gr := [a], gw := [d] } (fun s => joinForm d (rg s a) 2 0 s) s

/-- JOIN.OPEN's effect (R100). DESIGN CHOICE: an open cell is reported before a misaligned RBASE, and the TVAL of that
cause 0x05 is the whole of gb; the spec states neither. -/
def joinOpenOp (d a b : GReg) (s : State) : Do Done :=
  let i := (rg s a).toNat % 256
  let v := (rg s b).toNat
  let me := agentNo s.cur.agent
  let jw := joinWord me i 0xFFFF
  let c := getCell (curCore s) i
  if c.isOpen then trap 0x1A (joinTval 3 jw)
  else if bit v 20 && v % 8 ≠ 0 then trap 0x05 (rg s b)
  else
    let cell : Cell := { Cell.closed with
      isOpen := true, det := isDet s, opener := s.cur.slot, openerGen := (opCtx s).gen, ren := bit v 20, rbase := v % 2 ^ 20 }
    ok (wgSlow (setCell s s.cur.agent i cell) d jw)

/-- JOIN.OPEN (R100). -/
def execJoinOpen (d a b : GReg) (s : State) : Out :=
  issue { cForm (wP 0x1A d a b 2 1) with gr := [a, b], gw := [d] } (joinOpenOp d a b) s

/-! ### SPAWN and FORK.R (R98, R99, R102) -/

/-- The cell that a spawner's join word names (R100): its own core's, open, and opened by it. -/
def spawnCell (s : State) (jw : Word) : Do Cell :=
  let c := getCell (curCore s) (jwCell jw)
  if s.cur.agent ≠ .tile (jwOwner jw) then trap 0x1A (joinTval 4 jw)
  else if !c.isOpen then trap 0x1A (joinTval 2 jw)
  else if !opened (jwOwner jw) c (curWho s 0) then trap 0x1A (joinTval 4 jw)
  else .ok c

/-- The journal entries and write-backs that a spawn's release waits for (R102, R208). -/
def spawnStores (s : State) : List Nat × List Nat :=
  let c := curCtx s
  ((curCore s).journal.filter (fun e => e.who.ctx == s.cur && e.who.gen == c.gen && inScope s .package e.home) |>.map (·.idx),
   (curCore s).writeBacks.filter (fun w => inScope s .package w.home) |>.map (·.id))

/-- The accesses, and the sinks of GETRs, whose return it waits for (R102, R208). -/
def spawnReads (s : State) : List Nat × List (Nat × Gen) :=
  let c := curCtx s
  ((c.awaits.filter (·.what.isAccess)).map (·.id),
   (curCore s).sinks.toList.zipIdx.filterMap fun x => match x.1.bound with
     | some (w, _) => if w.ctx == s.cur && w.gen == c.gen then some (x.2, x.1.gen) else none
     | none => none)

/-- Whether a packet belongs to the access of a number. -/
def Body.answers (b : Body) (id : Nat) : Bool :=
  match b with
  | .access a => a.id == id
  | .reply _ i _ => i == id
  | .fillReply _ i _ _ => i == id
  | .refusal _ i _ _ _ => i == some id
  | _ => false

/-- Whether the access of a number has returned. -/
def accessBack (s : State) (id : Nat) : Bool :=
  !((s.net ++ s.dev.lost).any fun p => p.body.answers id) && !(s.cores.any fun o => o.2.feWaits.any (·.a.id == id))

/-- Whether the reply that a sink of a generation was bound for has come. -/
def sinkBack (co : Core) (x : Nat × Gen) : Bool :=
  let k := co.sinks[Fin.ofNat 16 x.1]
  k.gen != x.2 || k.value.isSome || k.bound.isNone

/-- Whether a refused or timed-out store of an activation to a home in the package waits to be reported (R208, R216). -/
def storeRefused (s : State) (who : Who) : Bool :=
  match findActivation s who.ctx who.gen with
  | some c => c.causes.any fun e => (e.code == 0x29#6 || e.code == 0x2A#6) && e.homes.any (inScope { s with cur := who.ctx } .package)
  | none => false

/-- Whether the release of a spawn request or a recruitment of a core is complete (R102, R216). -/
def spawnReleased (s : State) (a : Agent) (who : Who) (waitFor wbFor accFor : List Nat) (sinkFor : List (Nat × Gen)) : Bool :=
  waitFor.isEmpty && wbFor.isEmpty && accFor.all (accessBack s) && sinkFor.all (sinkBack (getCore s a)) && !storeRefused s who

/-- Whether a spawn request may leave, or its probe. -/
def SpawnOut.released (x : SpawnOut) (s : State) (a : Agent) : Bool := spawnReleased s a x.who x.waitFor x.wbFor x.accFor x.sinkFor

/-- Whether a recruitment's probe may leave. -/
def Recruit.released (x : Recruit) (s : State) (a : Agent) : Bool := spawnReleased s a x.who x.waitFor x.wbFor x.accFor x.sinkFor

/-- Registers g1 to gn of the spawner, and 0 above. -/
def childRegs (s : State) (n : Nat) : List Word :=
  (List.range 31).map fun i => if i < n then rg s (Fin.ofNat 32 (i + 1)) else 0

/-- A child of the issuing activation, with the path of its `k`-th child (R99). -/
def mkChild (s : State) (g : List Word) (pc : Nat) (k : BitVec 32) : Child :=
  let c := opCtx s
  { g := g, pc := pc, pri := c.pri, asid := c.asid, launch := c.launch, path := cmix32 (k + 1) c.path, slate := c.slate }

/-- The core that a path gives in deterministic mode (R98). -/
def detCore (s : State) (launch : Option Nat) (role : Nat) (path : BitVec 32) : Nat :=
  let l := match launch.bind (findLaunch s) with
    | some l => roleCores l role
    | none => []
  (l[path.toNat % l.length]?).getD 0

/-- Whether a core is idle (R98). -/
def isIdle (s : State) (n : Nat) : Bool :=
  let a := Agent.tile n
  (freeSlot s a).isSome && (List.range 3).all fun p => (candidates s a p).isEmpty

/-- The idle cores of a role in the spawner's cluster and then in its die, in the order of the search (R98). -/
def idleCores (s : State) (launch : Option Nat) (role me : Nat) : List Nat :=
  match launch.bind (findLaunch s) with
  | none => []
  | some l =>
    let r := roleCores l role
    let near := r.filter fun n => clusterOf n == clusterOf me
    let far := r.filter fun n => dieOf n == dieOf me && clusterOf n != clusterOf me
    (near ++ far).filter (isIdle s)

/-- The core for a child when none is idle (R98). -/
def busyCore (s : State) (launch : Option Nat) (role me : Nat) : Nat :=
  match launch.bind (findLaunch s) with
  | none => me
  | some l =>
    let own := me / 4 * 4 + role
    if l.cores.contains own then own else (roleCores l role).headD me

/-- SPAWN's effect. -/
def spawnOp (word : Nat) (j a b : GReg) (n : Nat) (s : State) : Do Done :=
  if j ≠ 0 ∧ 30 < n then badOperand word
  else
    let sel := (rg s a).toNat
    let pc := rg s b
    let role := sel % 4
    let any := bit sel 63
    let c := opCtx s
    let noRole := match launchOf s c with
      | some l => (roleCores l role).isEmpty
      | none => true
    if pc.toNat % 8 ≠ 0 then trap 0x05 pc
    else if role = 3 ∨ (!any && !inLaunch s c (sel % 2 ^ 11)) ∨ (any && noRole) then trap 0x08 (reason2 sel)
    else if recruiting s then .error (.hold s)
    else do
      let jw := rg s j
      let cell ← if j = 0 then .ok Cell.closed else spawnCell s jw
      if j ≠ 0 ∧ cell.spawned = 65535 then trap 0x1A (joinTval 1 jw)
      else do
        let s ← takeSend s 3 false
        let s := startWriteBacks s .package
        let g := childRegs s n
        let g := if j = 0 then g else g.set 30 (joinWord (jwOwner jw) (jwCell jw) cell.spawned)
        let ch := mkChild s g pc.toNat c.spawnCount
        let target := if !any then some (sel % 2 ^ 11) else if isDet s then some (detCore s c.launch role ch.path) else none
        let stores := spawnStores s
        let reads := spawnReads s
        let (id, s) := newId s
        let s := if j = 0 then s else setCell s s.cur.agent (jwCell jw) { cell with spawned := cell.spawned + 1 }
        let out : SpawnOut := ⟨id, ch, target, role, stores.1, stores.2, reads.1, reads.2, curWho s id, false, false⟩
        let s := modCurCore s fun co => { co with spawnOut := co.spawnOut ++ [out] }
        ok (modCur s fun c => { c with spawnCount := c.spawnCount + 1 })

/-- SPAWN (R98, R99). -/
def execSpawn (j a b : GReg) (n : Fin 32) (s : State) : Out :=
  let w := wP 0x1A j a b 0 n
  issue { cForm w with gr := (if j = 0 then [] else [j]) ++ [a, b] ++ regRange 1 n } (spawnOp w j a b n) s

/-- FORK.R's effect: the recruitment, whose children leave once it has been answered. DESIGN CHOICE: with T = 0 a misaligned start
address raises cause 0x05; the spec gives no order between the check and the exit (log entry 139). -/
def forkOp (word : Nat) (j a b : GReg) (n : Nat) (s : State) : Do Done :=
  if 28 < n then badOperand word
  else
    let trip := (rg s a).toNat % 2 ^ 32
    let chunk := Nat.max 1 (bits (rg s a).toNat 47 32)
    let pc := rg s b
    let k := (trip + chunk - 1) / chunk
    if pc.toNat % 8 ≠ 0 then trap 0x05 pc
    else if trip = 0 then ok s
    else if recruiting s then .error (.hold s)
    else do
      let jw := rg s j
      let cell ← if j = 0 then .ok Cell.closed else spawnCell s jw
      if j ≠ 0 ∧ 65535 < cell.spawned + k then trap 0x1A (joinTval 1 jw)
      else do
        let s ← takeSend s 3 false
        let s := startWriteBacks s .package
        let c := opCtx s
        let stores := spawnStores s
        let reads := spawnReads s
        let (id, s) := newId s
        let r : Recruit := ⟨curWho s id, mkChild s (childRegs s n) pc.toNat c.spawnCount, trip, chunk, k,
          if j = 0 then none else some jw, c.spawnCount, c.path, stores.1, stores.2, reads.1, reads.2⟩
        ok (modCurCore s fun co => { co with recruits := co.recruits ++ [r] })

/-- FORK.R (R98, R99). -/
def execForkR (j a b : GReg) (n : Fin 32) (s : State) : Out :=
  let w := wP 0x1A j a b 1 n
  issue { cForm w with gr := (if j = 0 then [] else [j]) ++ [a, b] ++ regRange 1 n } (forkOp w j a b n) s

/-- A spawn request enters the network. -/
def launchSpawn (s : State) (a : Agent) (x : SpawnOut) : State :=
  match x.target with
  | none => s
  | some t =>
    let s := modCore s a fun co => { co with spawnOut := co.spawnOut.map fun y =>
      if y.id = x.id then { y with sent := true, retry := false } else y }
    sendPkt s (nodeOf a) (.core t) 3 (.spawn x.child (agentNo a) x.id)

/-- Whether no earlier request of a request's spawner to the same core is still to be accepted: requests keep their
order (R85, R204). -/
def firstOfSpawner (l : List SpawnOut) (x : SpawnOut) : Bool :=
  !((l.takeWhile (·.id != x.id)).any fun y =>
    y.who.ctx == x.who.ctx && y.who.gen == x.who.gen && (y.target == x.target || y.target.isNone))

/-- The first request of an agent's core that may leave: its release is complete and its target is known. -/
def readySpawn (s : State) (a : Agent) : Option SpawnOut :=
  let l := (getCore s a).spawnOut
  l.find? fun x => !x.sent && !x.retry && x.target.isSome && x.released s a && firstOfSpawner l x

/-- The instructions of an activation whose spawn requests, or whose recruitment, have not left its core: a SPAWN has
one request, and the children of one FORK.R share its number. -/
def spawnsLeft (co : Core) (w : Who) : Nat :=
  let mine (x : Who) : Bool := x.ctx == w.ctx && x.gen == w.gen
  (((co.spawnOut.filter fun y => mine y.who && !y.sent && !y.retry).map (·.who.id))
    ++ ((co.recruits.filter fun r => mine r.who).map (·.who.id))).dedup.length

/-- The send-queue entry of a SPAWN or FORK.R is free once its last request has left (R235). -/
def freeSpawnEntry (s : State) (a : Agent) (w : Who) : State :=
  let mine (e : SendEntry) : Bool := e.ctx == w.ctx && e.gen == w.gen
  let n := ((getCore s a).sendq[3]).countP fun e => mine e && !e.left
  if spawnsLeft (getCore s a) w < n then freeSendOf s a 3 mine else s

/-- SEND_QUEUE_ENTRY_FREED (R235): an entry of a send queue leaves its core; on VN3 a spawn request whose release is
complete leaves, and with the last one of its instruction the entry. -/
def execSendQueueEntryFreed (ag : Agent) (vn : Fin 4) (s : State) : Out :=
  if vn = 3 then
    match readySpawn s ag with
    | some x => event (freeSpawnEntry (launchSpawn s ag x) ag x.who)
    | none => event s
  else event (freeSend s ag vn)

/-- The children of a recruitment of width `w` (FORK.R): child `i` and its target. -/
def forkChildren (s : State) (r : Recruit) (me w spawned : Nat) (det : Bool) : List (Child × Nat) :=
  let idle := idleCores s r.template.launch (me % 4) me
  (List.range w).map fun i =>
    let lo := i * r.count / w * r.chunk
    let hi := Nat.min ((i + 1) * r.count / w * r.chunk) r.trip
    let jw := match r.word with
      | some jw => joinWord (jwOwner jw) (jwCell jw) (spawned + i)
      | none => 0
    let path := cmix32 (r.firstSpawn + BitVec.ofNat 32 (i + 1)) r.parentPath
    let target := if det then detCore s r.template.launch (me % 4) path
      else (idle[i]?).getD (busyCore s r.template.launch (me % 4) me)
    ({ r.template with g := r.template.g.take 28 ++ [w64 lo, w64 hi, jw], path := path }, target)

/-- The answer to a recruitment (R98): the width is fixed, and the children's requests follow the earlier ones of the
core, to leave in order. -/
def answerRecruit (s : State) (ag : Agent) (r : Recruit) : State :=
  let me := agentNo ag
  let det := match r.template.launch.bind (findLaunch s) with
    | some l => l.det
    | none => false
  let w := if det then r.count
    else Nat.max 1 (Nat.min r.count (idleCores s r.template.launch (me % 4) me).length)
  let cell := r.word.map fun jw => getCell (getCore s ag) (jwCell jw)
  let kids := forkChildren s r me w ((cell.map (·.spawned)).getD 0) det
  let s := match r.word, cell with
    | some jw, some c => setCell s ag (jwCell jw) { c with spawned := c.spawned + w }
    | _, _ => s
  let s := modCore s ag fun co => { co with recruits := co.recruits.erase r }
  let s := modActivation s r.who.ctx r.who.gen fun c => { c with spawnCount := c.spawnCount + BitVec.ofNat 32 w }
  kids.foldl (fun s k =>
    let (id, s) := newId s
    let x : SpawnOut := ⟨id, k.1, some k.2, me % 4, [], [], [], [], r.who, false, false⟩
    modCore s ag fun co => { co with spawnOut := co.spawnOut ++ [x] }) s

/-- RECRUITMENT_ANSWER (R98): entry `i` of the requests for any core, counted over the SPAWN requests and then the
recruitments of FORK.R, once its release is complete. -/
def execRecruitmentAnswer (ag : Agent) (i : Nat) (s : State) : Out :=
  let co := getCore s ag
  match co.spawnOut[i]? with
  | some x =>
    if x.target.isNone && x.released s ag then
      let t := (idleCores s x.child.launch x.role (agentNo ag)).headD (busyCore s x.child.launch x.role (agentNo ag))
      event (modCore s ag fun co => { co with spawnOut := co.spawnOut.map fun y =>
        if y.id = x.id then { y with target := some t } else y })
    else event s
  | none =>
    match co.recruits[i - co.spawnOut.length]? with
    | some r =>
      let before := co.spawnOut.any fun y => y.who.ctx == r.who.ctx && y.who.gen == r.who.gen && !y.sent
      if r.released s ag && !before then event (answerRecruit s ag r) else event s
    | none => event s

/-- Children that a spawn list holds (R85). -/
def spawnListSize : Nat := 256

/-- SPAWN_ARRIVAL (R85): the request at index `n` joins its target's spawn list, or is refused when that is full. A child of
a launch that ends is dropped. -/
def execSpawnArrival (n : Nat) (s : State) : Out :=
  match takePkt s n with
  | some (⟨_, .core t, _, .spawn ch src id, _, _⟩, u) =>
    let from_ := Agent.tile src
    if (match ch.launch.bind (findLaunch u) with
        | some l => l.ending
        | none => ch.launch.isSome) then
      event (modCore u from_ fun co => { co with spawnOut := co.spawnOut.filter (·.id != id) })
    else if (getCore u (.tile t)).spawnList.length < spawnListSize then
      let u := modCore u (.tile t) fun co => { co with spawnList := co.spawnList ++ [ch] }
      event (modCore u from_ fun co => { co with spawnOut := co.spawnOut.filter (·.id != id) })
    else
      event (modCore u from_ fun co => { co with spawnOut := co.spawnOut.map fun y =>
        if y.id = id then { y with sent := false, retry := true } else y })
  | _ => event s

/-- SPAWN_RETRY (R85): the refused request with number `n` leaves again. -/
def execSpawnRetry (n : Nat) (s : State) : Out :=
  match s.cores.findSome? fun c => (c.2.spawnOut.find? fun x => x.id == n && x.retry).map fun x => (c.1, x) with
  | some (a, x) => event (launchSpawn s a x)
  | none => event s

/-! ### Kill (R97, R352) -/

/-- Whether a packet's body still serves an activation. -/
def Body.serves (b : Body) (k : CtxKey) (gen : Gen) : Bool :=
  let is (w : Who) : Bool := w.ctx == k && w.gen == gen
  match b with
  | .access a => a.ctx == k && a.gen == gen
  | .reply w _ _ => is w
  | .fillReply w _ _ _ => is w
  | .refusal w _ _ _ _ => is w
  | .message _ w _ => match w with
    | some w => is w
    | none => false
  | .putn w _ _ _ _ _ _ => is w
  | .deposit _ w _ => is w
  | .join w _ _ _ => is w
  | .ring w _ _ _ _ => is w
  | .kill w _ _ _ => is w
  | .barrier _ w _ _ => match w with
    | some w => is w
    | none => false
  | _ => false

/-- Whether the work that a killed activation started has drained (R97). -/
def drained (s : State) (k : CtxKey) (c : Ctx) : Bool :=
  let co := getCore s k.agent
  let is (w : Who) : Bool := w.ctx == k && w.gen == c.gen
  !((s.net ++ s.dev.lost).any fun p => p.body.serves k c.gen)
    && !(co.journal.any fun e => is e.who)
    && !(co.xfers.any fun x => is x.who)
    && !(co.convOps.any fun x => is x.who) && !(co.matOps.any fun x => is x.who)
    && !(co.forwards.any fun x => is x.2.who)
    && !(co.spawnOut.any fun x => is x.who) && !(co.recruits.any fun x => is x.who)
    && !(co.sinks.toList.any fun x => match x.bound with
      | some (w, _) => is w && x.value.isNone
      | none => false)
    && !(s.cores.any fun o => o.1 != k.agent && o.2.feWaits.any fun w => w.a.ctx == k && w.a.gen == c.gen)
    && !(s.dev.guest.reqs.any fun r => is r.who)
    && c.streams.all fun x => x.2.outq.isEmpty

/-- The answers to those who wait for a kill. -/
def answerKillers (s : State) (l : List (Who × Nat)) : State := l.foldl (fun s w => landReply s w.1 w.2 0) s

/-- QUIESCE_ACK (R97): a killed activation's work has drained, and its slot and what it held are free. -/
def execQuiesceAck (k : CtxKey) (s : State) : Out :=
  let c := getCtx s k
  if c.used && c.killed then
    if drained s k c && !isFw k.agent then event (finishLaunches (answerKillers (releaseCtx s k) c.killers)) else event s
  else
    match (getCore s k.agent).spilled.find? fun x => x.slot == k.slot && x.ctx.killed with
    | some x =>
      if drained s k x.ctx then
        let s := modCore (releaseParts s k x.ctx) k.agent fun co => { co with spilled := co.spilled.erase x }
        event (finishLaunches (answerKillers s x.ctx.killers))
      else event s
    | none => event s

/-- KILL_ACCEPTANCE (R352): the request at index `n` reaches the target's core. gd of its source receives a code at
once, but for an accepted kill without NOWAIT. -/
def execKillAcceptance (n : Nat) (s : State) : Out :=
  match takePkt s n with
  | some (⟨_, .core t, _, .kill w id target noWait, _, _⟩, u) =>
    let k : CtxKey := ⟨.tile t, bits target.toNat 21 16⟩
    let gen : Gen := BitVec.ofNat 16 (bits target.toNat 47 32)
    match findActivation u k gen with
    | none => event (landReply u w id 1)
    | some c =>
      if c.killed then event (landReply u w id 2)
      else
        let u := killAct u k gen
        if noWait then event (landReply u w id 0)
        else event (modActivation u k gen fun c => { c with killers := c.killers ++ [(w, id)] })
  | _ => event s

end Sys2Proof.Machine
end

