-- ==== Sys2Proof/Machine/Sync.lean ====
section
/-! DEFINITION. The SYNC family: barriers, rings and groups (R251 to R262, R266 to R268). -/

namespace Sys2Proof.Machine

/-! ### Groups (R251 to R253) -/

/-- A valid group of a launch. -/
def findGroup (s : State) (launch : Option Nat) (g : Nat) : Option Group :=
  match launch.bind (findLaunch s) with
  | some l => l.groups.find? (·.idx == g)
  | none => none

/-- M of R252: the root, and then the other members in ascending logical number. -/
def Group.order (g : Group) : List Nat :=
  match g.members with
  | [] => []
  | r :: l => r :: sortBy id l
/-- The root of a group. -/
def Group.root (g : Group) : Nat := g.members.headD 0
/-- The position of a core in M. -/
def Group.pos (g : Group) (n : Nat) : Option Nat := if g.members.contains n then some (g.order.idxOf n) else none
/-- The children of a core, in the order of R74. -/
def Group.children (g : Group) (n : Nat) : List Nat :=
  match g.pos n with
  | some i => (g.order.drop (4 * i + 1)).take 4
  | none => []
/-- The parent of a core; the root's own number for the root. -/
def Group.parent (g : Group) (n : Nat) : Nat :=
  match g.pos n with
  | some i => if i = 0 then n else (g.order[(i - 1) / 4]?).getD n
  | none => n

/-- The group that an instruction names, of which the issuing core must be a member (R265). -/
def memberOf (s : State) (g : Nat) : Do Group :=
  match findGroup s (opCtx s).launch g with
  | some x => if x.members.contains (agentNo s.cur.agent) then .ok x else trap 0x1B (w64 g)
  | none => trap 0x1B (w64 g)

/-- The record of Table 11.7. -/
def groupRecord (s : State) (g : Nat) : Word :=
  let me := agentNo s.cur.agent
  match findGroup s (opCtx s).launch g with
  | none => 0
  | some x =>
    match x.pos me with
    | none => 0
    | some i => w64 (2 ^ 63 + b2n (i == 0) * 2 ^ 62 + (x.children me).length * 2 ^ 59 + x.parent me % 2 ^ 11 * 2 ^ 48
        + x.members.length % 2 ^ 11 * 2 ^ 32 + x.asid.toNat * 2 ^ 20 + i % 2 ^ 11)

/-- GRP.MEM (R268). -/
def execGrpMem (d a : GReg) (s : State) : Out :=
  issue { cForm (wP 0x1B d a 0 11 0) with gr := [a], gw := [d] }
    (fun s => ok (wgSlow s d (groupRecord s ((rg s a).toNat % 256)))) s

/-! ### Barriers (R254 to R259, R267) -/

/-- The barrier of a core, and the state with it replaced. -/
def barOf (s : State) (owner i : Nat) : Barrier := getBar (getCore s (.tile owner)) i
def putBar (s : State) (owner i : Nat) (b : Barrier) : State := modCore s (.tile owner) fun co => setBar co i b

/-- The word of Table 11.1. -/
def Barrier.word (b : Barrier) : Word :=
  w64 (b2n b.live * 2 ^ 63 + b2n b.rep * 2 ^ 62 + b2n b.ovr * 2 ^ 61 + b2n b.txerr * 2 ^ 60 + b2n b.scope * 2 ^ 57
    + b2n b.phase * 2 ^ 56 + (b.pend % 2 ^ 24).toNat * 2 ^ 32 + b.arrived % 2 ^ 16 * 2 ^ 16 + b.expect % 2 ^ 16)

/-- An owner's answer to a request: at once on its own core, on VN1 to another. -/
def ownerReply (s : State) (owner : Nat) (w : Who) (v : Nat) : State :=
  if w.ctx.agent = .tile owner then landReply s w w.id v
  else sendPkt s (.core owner) (nodeOf w.ctx.agent) 1 (.reply w w.id v)

/-- An owner's refusal of a request: nothing is performed, and the cause reaches the issuing context (R255). -/
def ownerRefuse (s : State) (owner : Nat) (w : Who) (cause : Nat) (tval : Word) : State :=
  if w.ctx.agent = .tile owner then raiseAsync (dropReply s w w.id) w cause tval
  else sendPkt s (.core owner) (nodeOf w.ctx.agent) 1 (.refusal w (some w.id) none cause tval)

/-- The acquire with which a context passes a barrier whose last complete phase has counted engines' writes (R214,
R259). -/
def barAcquire (s : State) (owner i : Nat) (k : CtxKey) : State :=
  let l := (barOf s owner i).lastHomes
  if l = [] then s else engineAcquire s k l

/-- Complete (R256): the phase inverts and the waiters of the phase that ends are ready; a member sends the release
on to its children. -/
def completeBar (s : State) (owner i : Nat) : State :=
  let b := barOf s owner i
  let s := putBar s owner i { b with
    phase := !b.phase, arrived := 0, rep := false, children := 0, waiters := [], homes := [], lastHomes := b.homes }
  let s := b.waiters.foldl (fun s w => ownerReply (barAcquire s owner i w.ctx) owner w (b2n b.phase)) s
  let s := modCore s (.tile owner) fun co => { co with matOps := co.matOps.map fun o =>
    if o.phase = .atBarrier ∧ o.mma.bar.toNat = i then { o with phase := .past } else o }
  if b.scope then
    match findGroup s b.launch b.tag with
    | some g => (g.children owner).foldl
        (fun s c => sendPkt s (.core owner) (.core c) 3 (.barrier owner none i (.release b.tag))) s
    | none => s
  else s

/-- The completion test (R256). A barrier that is not live does not complete. -/
def testBar (s : State) (owner i : Nat) : State :=
  let b := barOf s owner i
  if !b.live || b.arrived ≠ b.expect || b.pend ≠ 0 || b.rep then s
  else if !b.scope then completeBar s owner i
  else
    match findGroup s b.launch b.tag with
    | none => s
    | some g =>
      if (List.range (g.children owner).length).all b.children.getLsbD then
        if g.root = owner then completeBar s owner i
        else sendPkt (putBar s owner i { b with rep := true }) (.core owner) (.core (g.parent owner)) 3
          (.barrier owner none i (.report b.tag ((g.children (g.parent owner)).idxOf owner)))
      else s

/-- What an arrival meets at its barrier. -/
inductive Arrived where
  /-- counted, with the phase that it found, and whether that phase has completed -/
  | counted (phase past : Bool)
  | held
  | full
  | bad (reason : Nat)
  deriving DecidableEq, Repr

/-- An arrival that is counted or refused, the hold list apart. -/
def countArrival (s : State) (owner i : Nat) : State × Arrived :=
  let b := barOf s owner i
  if b.arrived = b.expect then (putBar s owner i { b with ovr := true }, .bad 2)
  else
    let s := testBar (putBar s owner i { b with arrived := b.arrived + 1 }) owner i
    (s, .counted b.phase ((barOf s owner i).phase != b.phase))

/-- The answer to an arrival that has been counted: the phase at once, or the end of a wait. -/
def answerArrival (s : State) (owner i : Nat) (w : Who) (wait phase past : Bool) : State :=
  if wait && !past then
    let b := barOf s owner i
    putBar s owner i { b with waiters := b.waiters ++ [w] }
  else ownerReply (if wait then barAcquire s owner i w.ctx else s) owner w (b2n phase)

/-- The arrivals of the hold list, counted in order after a completion (R257), while REP is 0. -/
def drainHolds (owner i : Nat) : Nat → State → State
  | 0, s => s
  | n + 1, s =>
    let b := barOf s owner i
    if b.rep then s
    else
      match b.holds with
      | [] => s
      | (w, wait) :: l =>
        let r := countArrival (putBar s owner i { b with holds := l }) owner i
        match r.2 with
        | .counted phase past => drainHolds owner i n (answerArrival r.1 owner i w wait phase past)
        | _ => drainHolds owner i n (ownerRefuse r.1 owner w 0x09 (barTval 2 i owner))

/-- An arrival at its barrier (R257, R267). -/
def arriveBar (s : State) (owner i : Nat) (w : Who) (wait : Bool) : State × Arrived :=
  let b := barOf s owner i
  if !b.live then (s, .bad 1)
  else if b.scope && b.rep then
    if b.holds.length < 8 then (putBar s owner i { b with holds := b.holds ++ [(w, wait)] }, .held) else (s, .full)
  else
    let r := countArrival s owner i
    (drainHolds owner i 8 r.1, r.2)

/-- A change of PEND (R258): it saturates with TXERR; whether it stayed in range. -/
def addPend (s : State) (owner i : Nat) (v : Int) : State × Bool :=
  let b := barOf s owner i
  let p := b.pend + v
  let q := max (-(2 ^ 23)) (min (2 ^ 23 - 1) p)
  let s := putBar s owner i { b with pend := q, txerr := b.txerr || p != q }
  (drainHolds owner i 8 (testBar s owner i), p == q)

/-- The bytes of a transfer that an engine has performed on some homes, counted against a barrier (R214, R258). -/
def barDecrement (s : State) (owner i bytes : Nat) (homes : List Node) : State :=
  let b := barOf s owner i
  (addPend (putBar s owner i { b with homes := (b.homes ++ homes).dedup }) owner i (-(bytes : Int))).1

/-- The operand of a barrier instruction (R255). -/
def barIdx (v : Word) : Nat := v.toNat % 512
def barOwner (v : Word) : Nat := bits v.toNat 19 9

/-- Whether an operation of the core's engine waits on a barrier (R281). -/
def engineWaits (s : State) (me i : Nat) : Bool :=
  (getCore s (.tile me)).matOps.any fun o => o.phase == .atBarrier && o.mma.bar.toNat == i

/-- BAR.INIT's effect (R267). -/
def barInitOp (a b : GReg) (s : State) : Do Done :=
  let i := barIdx (rg s a)
  let me := agentNo s.cur.agent
  let x := barOf s me i
  let w := (rg s b).toNat
  let e := w % 2 ^ 16
  if barOwner (rg s a) ≠ me then trap 0x09 (barTval 5 i (barOwner (rg s a)))
  else if x.live && (!x.waiters.isEmpty || engineWaits s me i || x.arrived != 0 || x.pend != 0) then trap 0x09 (barTval 3 i me)
  else do
    if e ≠ 0 ∧ bit w 16 then let _ ← memberOf s (bits w 31 24)
    let y : Barrier := { Barrier.off with
      live := e != 0, scope := bit w 16, expect := e, tag := bits w 31 24, launch := (opCtx s).launch,
      children := x.children, holds := x.holds }
    ok (putBar s me i y)

/-- BAR.INIT (R267). -/
def execBarInit (a b : GReg) (s : State) : Out :=
  issue { cForm (wP 0x1B 0 a b 0 0) with gr := [a, b] } (barInitOp a b) s

/-- A barrier's packet to its owner on VN3. -/
def sendBar (s : State) (owner i : Nat) (w : Who) (m : BarMsg) : State :=
  sendPkt s (nodeOf s.cur.agent) (.core owner) 3 (.barrier (agentNo s.cur.agent) (some w) i m)

/-- BAR.ARR's effect. -/
def barArrOp (sc : Scope) (d a : GReg) (s : State) : Do Done := do
  let v := rg s a
  let i := barIdx v
  let owner := barOwner v
  destCheck s owner
  let s ← release s sc
  if s.cur.agent ≠ .tile owner then
    let (id, s) := awaitReg s d
    ok (sendBar s owner i (curWho s id) (.arrive false))
  else
    let (id, s') := awaitReg s d
    let r := arriveBar s' owner i (curWho s' id) false
    match r.2 with
    | .bad reason => .error (.trapAfter (putBar s owner i (barOf r.1 owner i)) 0x09 (barTval reason i owner))
    | .counted phase _ => ok (landReply r.1 (curWho r.1 id) id (b2n phase))
    | .held => ok r.1
    | .full => ok (sendPkt r.1 (.core owner) (.core owner) 1 (.barrier owner (some (curWho r.1 id)) i (.refused false)))

/-- BAR.ARR (R267). -/
def execBarArr (sc : Scope) (d a : GReg) (s : State) : Out :=
  issue { cForm (wP 0x1B d a 0 1 (scopeCode sc)) with gr := [a], gw := [d] } (barArrOp sc d a) s

/-- BAR.WAIT's effect. -/
def barWaitOp (sc : Scope) (a b : GReg) (s : State) : Do Done :=
  let v := rg s a
  let i := barIdx v
  let me := agentNo s.cur.agent
  let x := barOf s me i
  let fin (s : State) : Do Done := do
    let s ← acquire s sc
    ok s
  match grantOf s with
  | some { value := some _, .. } => fin s
  | some _ => .error (.wait s 3 (8 * i) me)
  | none =>
    if barOwner v ≠ me then trap 0x09 (barTval 5 i (barOwner v))
    else if !x.live then trap 0x09 (barTval 1 i me)
    else if x.phase = (rg s b).getLsbD 0 then
      askOwner s 3 (8 * i) me fun id s => putBar s me i { x with waiters := x.waiters ++ [curWho s id] }
    else fin (barAcquire s me i s.cur)

/-- BAR.WAIT (R267). -/
def execBarWait (sc : Scope) (a b : GReg) (s : State) : Out :=
  issue { cForm (wP 0x1B 0 a b 2 (scopeCode sc)) with gr := [a, b] } (barWaitOp sc a b) s

/-- The end of BAR.ARW, with the phase that its arrival found; nothing is written where the owner has refused it. -/
def barArwFinish (sc : Scope) (d : GReg) (s : State) (v : Word) : Do Done := do
  let s := keepAnswer s v
  let s ← acquire s sc
  ok (if bit v.toNat 63 then s else wgSlow s d (v &&& 1))

/-- BAR.ARW's effect. -/
def barArwOp (sc : Scope) (d a : GReg) (s : State) : Do Done :=
  let v := rg s a
  let i := barIdx v
  let owner := barOwner v
  let own := s.cur.agent == .tile owner
  match grantOf s with
  | some { value := some v, .. } => barArwFinish sc d s v
  | some _ => .error (.wait s 3 (8 * i) owner)
  | none => do
    destCheck s owner
    let s ← release s sc
    if !own then askOwner s 3 (8 * i) owner fun id s => sendBar s owner i (curWho s id) (.arrive true)
    else
      let (id, s) := newId s
      let r := arriveBar s owner i (curWho s id) true
      let x := barOf r.1 owner i
      match r.2 with
      | .bad reason => .error (.trapAfter r.1 0x09 (barTval reason i owner))
      | .counted phase past =>
        if past then barArwFinish sc d (barAcquire r.1 owner i s.cur) (w64 (b2n phase))
        else askAs (putBar r.1 owner i { x with waiters := x.waiters ++ [curWho s id] }) id 3 (8 * i) owner
      | .held => askAs r.1 id 3 (8 * i) owner
      | .full =>
        let back : Body := .barrier owner (some (curWho s id)) i (.refused true)
        askAs (sendPkt r.1 (.core owner) (.core owner) 1 back) id 3 (8 * i) owner

/-- BAR.ARW (R267). -/
def execBarArw (sc : Scope) (d a : GReg) (s : State) : Out :=
  issue { cForm (wP 0x1B d a 0 3 (scopeCode sc)) with gr := [a], gw := [d] } (barArwOp sc d a) s

/-- BAR.TX's effect. -/
def barTxOp (a b : GReg) (s : State) : Do Done := do
  let v := rg s a
  let i := barIdx v
  let owner := barOwner v
  let amount := (rg s b).toInt
  destCheck s owner
  if s.cur.agent ≠ .tile owner then ok (sendBar s owner i (curWho s 0) (.tx amount))
  else if !(barOf s owner i).live then trap 0x09 (barTval 1 i owner)
  else
    let r := addPend s owner i amount
    if r.2 then ok r.1 else .error (.trapAfter r.1 0x09 (barTval 4 i owner))

/-- BAR.TX (R258, R267). -/
def execBarTx (a b : GReg) (s : State) : Out :=
  issue { cForm (wP 0x1B 0 a b 4 0) with gr := [a, b] } (barTxOp a b) s

/-- BAR.QRY's effect. -/
def barQryOp (d a : GReg) (s : State) : Do Done := do
  let v := rg s a
  let owner := barOwner v
  destCheck s owner
  if s.cur.agent = .tile owner then ok (wgSlow s d (barOf s owner (barIdx v)).word)
  else
    let (id, s) := awaitReg s d
    ok (sendBar s owner (barIdx v) (curWho s id) .query)

/-- BAR.QRY (R267). -/
def execBarQry (d a : GReg) (s : State) : Out :=
  issue { cForm (wP 0x1B d a 0 5 0) with gr := [a], gw := [d] } (barQryOp d a) s

/-- A report or a release for a live group barrier with another tag: discarded, with cause 0x1C to FW4 (R257,
R422). -/
def wrongTag (s : State) (owner i tag : Nat) : State :=
  let tval : Word := w64 (tag % 256 + 2 * 2 ^ 8 + i % 512 * 2 ^ 16 + owner % 2 ^ 11 * 2 ^ 25)
  raiseFw (record s 0x1C owner [tval.toNat]) (logCore s) 0x1C tval (.tile owner)

/-- What has reached a barrier's owner, or the source of an arrival that is refused. -/
def barEvent (s : State) (owner i src : Nat) (w : Option Who) (m : BarMsg) : State :=
  let b := barOf s owner i
  match m, w with
  | .arrive wait, some w =>
    let r := arriveBar s owner i w wait
    match r.2 with
    | .counted phase past => answerArrival r.1 owner i w wait phase past
    | .held => r.1
    | .full => sendPkt s (.core owner) (.core src) 1 (.barrier owner (some w) i (.refused wait))
    | .bad reason => ownerRefuse r.1 owner w 0x09 (barTval reason i owner)
  | .tx v, some w =>
    if !b.live then ownerRefuse s owner w 0x09 (barTval 1 i owner)
    else
      let r := addPend s owner i v
      if r.2 then r.1 else ownerRefuse r.1 owner w 0x09 (barTval 4 i owner)
  | .query, some w => ownerReply s owner w b.word.toNat
  | .report tag child, _ =>
    if b.live && b.scope && b.tag != tag then wrongTag s owner i tag
    else
      let s := putBar s owner i { b with children := b.children ||| BitVec.ofNat 4 (2 ^ child) }
      drainHolds owner i 8 (testBar s owner i)
  | .release tag, _ =>
    if b.live && b.scope && b.tag != tag then wrongTag s owner i tag
    else if b.live && b.scope then drainHolds owner i 8 (completeBar s owner i)
    else s
  | _, _ => s

/-- BARRIER_EVENT (R256, R257): the barrier's packet at index `n` reaches the owner. -/
def execBarrierEvent (n : Nat) (s : State) : Out :=
  match takePkt s n with
  | some (⟨_, .core _, _, .barrier _ _ _ (.refused _), _, _⟩, _) => event s
  | some (⟨_, .core o, _, .barrier src w i m, _, _⟩, t) => event (barEvent t o i src w m)
  | _ => event s

/-- BARRIER_HOLD_RETRY (R257): the arrival at index `n`, refused at a full hold list, leaves its source again. -/
def execBarrierHoldRetry (n : Nat) (s : State) : Out :=
  match takePkt s n with
  | some (⟨_, .core me, _, .barrier owner w i (.refused wait), _, _⟩, t) =>
    event (sendPkt t (.core me) (.core owner) 3 (.barrier me w i (.arrive wait)))
  | _ => event s

/-! ### Rings (R260 to R262, R268) -/

/-- The owner's logical number of a descriptor of a core. -/
def Ring.ownerCore (r : Ring) (core : Nat) : Nat := core / 4 * 4 + r.owner % 4
/-- A ring of a core. -/
def ringOf (s : State) (core h : Nat) : Ring := (getCore s (.tile core)).rings[Fin.ofNat 16 h]
/-- A ring replaced. -/
def putRing (s : State) (core h : Nat) (r : Ring) : State :=
  modCore s (.tile core) fun co => { co with rings := co.rings.set (Fin.ofNat 16 h) r }
/-- Bytes of a slot. -/
def Ring.slotBytes (r : Ring) : Nat := 64 * (if r.slotb = 0 then 1024 else r.slotb)
/-- The local offset of a slot. -/
def Ring.slotOff (r : Ring) (i : Nat) : Nat := r.base + i * r.slotBytes
/-- Word 1 of a descriptor (Table 11.4). -/
def Ring.word1 (r : Ring) : Word :=
  if r.isAlias then 0
  else w64 (r.nfree % 256 * 2 ^ 56 + r.claim % 256 * 2 ^ 48 + r.filled % 256 * 2 ^ 40 + r.held % 256 * 2 ^ 32
    + r.pidx % 256 * 2 ^ 24 + r.cidx % 256 * 2 ^ 16)

/-- TVAL of cause 0x0D (R262). -/
def ringTval (reason ring core : Nat) : Word := w64 (reason + ring % 16 * 2 ^ 8 + core % 2 ^ 11 * 2 ^ 12)

/-- A claim or a take of `k` slots: the first slot's number, and the ring after it; none while there are too few. -/
def Ring.grab (r : Ring) (op : RingOp) (k : Nat) : Option (Nat × Ring) :=
  match op with
  | .waite => if k ≤ r.nfree then
      some (r.pidx, { r with nfree := r.nfree - k, claim := r.claim + k, pidx := (r.pidx + k) % Nat.max 1 r.slots }) else none
  | .waitf => if k ≤ r.filled then
      some (r.cidx, { r with filled := r.filled - k, held := r.held + k, cidx := (r.cidx + k) % Nat.max 1 r.slots }) else none
  | _ => none

/-- A publication or a release of `k` slots; none where the count is too small (reason 3). -/
def Ring.advance (r : Ring) (op : RingOp) (k : Nat) : Option Ring :=
  match op with
  | .advp => if k ≤ r.claim then some { r with claim := r.claim - k, filled := r.filled + k } else none
  | .advc => if k ≤ r.held then some { r with held := r.held - k, nfree := r.nfree + k } else none
  | _ => none

/-- Whether a waiter of the same kind waits already (R261). -/
def Ring.queued (r : Ring) (op : RingOp) : Bool := r.waiters.any (·.op == op)

/-- The core-local address of a slot. -/
def Ring.slotAddr (r : Ring) (owner i : Nat) : Nat := localAddr owner (r.slotOff i)

/-- A ring operation at the owner: performed, listed among the waiters, or refused. -/
def ringAtOwner (s : State) (owner h : Nat) (w : Who) (op : RingOp) (k : Nat) : State :=
  let r := ringOf s owner h
  let me := agentNo w.ctx.agent
  if !r.valid then ownerRefuse s owner w 0x0D (ringTval 1 h me)
  else
    match op with
    | .qry => ownerReply s owner w r.word1.toNat
    | .advp => match r.advance .advp k with
      | some r => putRing s owner h r
      | none => ownerRefuse s owner w 0x0D (ringTval 3 h me)
    | .advc => match r.advance .advc k with
      | some r => putRing s owner h r
      | none => ownerRefuse s owner w 0x0D (ringTval 3 h me)
    | op =>
      match if r.queued op then none else r.grab op k with
      | some (i, r') => ownerReply (putRing s owner h r') owner w (r.slotAddr owner i)
      | none => putRing s owner h { r with waiters := r.waiters ++ [⟨.ctx w, op, k⟩] }

/-- Publications or releases of a ring that its cores have sent and its owner has not performed (R262). -/
def advancesOut (s : State) (owner h : Nat) (op : RingOp) : Nat :=
  ((s.net ++ s.dev.lost).map fun p => match p.body with
    | .ring _ op' o h' k => if op' = op ∧ o = owner ∧ h' = h then k else 0
    | _ => 0).sum

/-- Ring descriptor `h` of the issuing core, checked for an operation (R262). An alias is not valid when its owner's is
not. -/
def ringCheck (s : State) (h : Nat) (op : RingOp) (k : Nat) : Do Ring :=
  let me := agentNo s.cur.agent
  let r := ringOf s me h
  let role := me % 4
  let side := match op with
    | .waite => r.prod == role
    | .advp => r.prod == role
    | .waitf => r.cons == role
    | .advc => r.cons == role
    | .qry => true
  if !r.valid || !(ringOf s (r.ownerCore me) h).valid then trap 0x0D (ringTval 1 h me)
  else if !side then trap 0x0D (ringTval 2 h me)
  else if r.slots < k then trap 0x0D (ringTval 4 h me)
  else .ok r

/-- A ring's packet to its owner. -/
def sendRing (s : State) (owner : Nat) (w : Who) (op : RingOp) (h k : Nat) : State :=
  sendPkt s (nodeOf s.cur.agent) (.core owner) 3 (.ring w op owner h k)

/-- The end of RING.WAITE or RING.WAITF, with its slot's address. -/
def ringFinish (d : GReg) (s : State) (v : Word) : Do Done := do
  let s := keepAnswer s v
  let s ← acquire s .tile
  ok (if bit v.toNat 63 && bits v.toNat 62 48 == 0 && bits v.toNat 47 0 == 0 then s else wgSlow s d v)

/-- RING.WAITE's and RING.WAITF's effect. -/
def ringWaitOp (op : RingOp) (word : Nat) (d : GReg) (hd : Handle) (k : Nat) (s : State) : Do Done :=
  let me := agentNo s.cur.agent
  let h := handle s hd.val
  let obj := 0x1800 + 16 * h
  match grantOf s with
  | some { value := some v, .. } => ringFinish d s v
  | some _ => .error (.wait s 4 obj ((ringOf s me h).ownerCore me))
  | none =>
    if k = 0 then badOperand word
    else do
      let r ← ringCheck s h op k
      let o := r.ownerCore me
      if o ≠ me then askOwner s 4 obj o fun id s => sendRing s o (curWho s id) op h k
      else
        match if r.queued op then none else r.grab op k with
        | some (i, r') => ringFinish d (putRing s me h r') (w64 (r.slotAddr me i))
        | none => askOwner s 4 obj me fun id s =>
            putRing s me h { r with waiters := r.waiters ++ [⟨.ctx (curWho s id), op, k⟩] }

/-- RING.WAITF (R268). -/
def execRingWaitf (d : GReg) (h : Handle) (k : Fin 32) (s : State) : Out :=
  let w := wP 0x1B d h 0 6 k
  issue { cForm w with gw := [d] } (ringWaitOp .waitf w d h k) s

/-- RING.WAITE (R268). -/
def execRingWaite (d : GReg) (h : Handle) (k : Fin 32) (s : State) : Out :=
  let w := wP 0x1B d h 0 7 k
  issue { cForm w with gw := [d] } (ringWaitOp .waite w d h k) s

/-- RING.ADVP's and RING.ADVC's effect. An alias's error 3 is known at the issue, by the owner's count and the
publications that are on their way to it (R262). -/
def ringAdvOp (op : RingOp) (word : Nat) (hd : Handle) (k : Nat) (s : State) : Do Done :=
  let me := agentNo s.cur.agent
  let h := handle s hd.val
  if k = 0 then badOperand word
  else do
    let r ← ringCheck s h op k
    let o := r.ownerCore me
    let s ← release s .tile
    if o ≠ me then
      if ((ringOf s o h).advance op (advancesOut s o h op + k)).isNone then trap 0x0D (ringTval 3 h me)
      else ok (sendRing s o (curWho s 0) op h k)
    else
      match r.advance op k with
      | some r => ok (putRing s me h r)
      | none => trap 0x0D (ringTval 3 h me)

/-- RING.ADVP (R268). -/
def execRingAdvp (h : Handle) (k : Fin 32) (s : State) : Out :=
  let w := wP 0x1B 0 h 0 8 k
  issue (cForm w) (ringAdvOp .advp w h k) s

/-- RING.ADVC (R268). -/
def execRingAdvc (h : Handle) (k : Fin 32) (s : State) : Out :=
  let w := wP 0x1B 0 h 0 9 k
  issue (cForm w) (ringAdvOp .advc w h k) s

/-- RING.QRY's effect. -/
def ringQryOp (d : GReg) (hd : Handle) (s : State) : Do Done := do
  let me := agentNo s.cur.agent
  let h := handle s hd.val
  let r ← ringCheck s h .qry 0
  let o := r.ownerCore me
  if o = me then ok (wgSlow s d r.word1)
  else
    let (id, s) := awaitReg s d
    ok (sendRing s o (curWho s id) .qry h 0)

/-- RING.QRY (R268). -/
def execRingQry (d : GReg) (h : Handle) (s : State) : Out :=
  issue { cForm (wP 0x1B d h 0 10 0) with gw := [d] } (ringQryOp d h) s

end Sys2Proof.Machine
end

