-- ==== Sys2Proof/Machine/Pool.lean ====
section
/-! DEFINITION. The POOL family and reshapes of the SRAM pool (R128 to R146). -/

namespace Sys2Proof.Machine

/-! ### Banks and regions -/

/-- The counts that POOL.SET names (R144): registers, scratchpad, cache, tile store. -/
def poolCounts (v : Nat) : Nat × Nat × Nat × Nat := (bits v 5 0, bits v 13 8, bits v 21 16, bits v 29 24)
/-- Counts in POOL.SET's layout. -/
def poolWord (k : Nat × Nat × Nat × Nat) : Nat := k.1 + k.2.1 * 2 ^ 8 + k.2.2.1 * 2 ^ 16 + k.2.2.2 * 2 ^ 24
/-- Slots under a split (R81). -/
def slotsUnder (k : Nat × Nat × Nat × Nat) : Nat := Nat.min 64 (k.1 * 16384 / 2560)
/-- Banks that leave a role. -/
def leavingBanks (k k' : Nat × Nat × Nat × Nat) (role : Nat) : List Nat :=
  (List.range 64).filter fun b => roleUnder k b == role && roleUnder k' b != role
/-- Whether a range of the pool touches one of some banks. -/
def touches (banks : List Nat) (off n : Nat) : Bool :=
  banks.any fun b => decide (b * 16384 < off + n) && decide (off < (b + 1) * 16384)
/-- The bytes of a region. -/
def Region.bytes (r : Region) : Nat := 256 * r.size
/-- The valid regions of a core, by header. -/
def validRegions (co : Core) : List (Nat × Region) :=
  ((List.range 64).map fun h => (h, co.regions[Fin.ofNat 64 h])).filter (·.2.valid)
/-- Whether a region counts as FIXED: by its class, or while it is pinned (R136). -/
def Region.isFixed (r : Region) : Bool := r.mob == 0 || decide (0 < r.pins)
/-- The regions that lie in leaving scratchpad banks. -/
def leavingRegions (co : Core) (k' : Nat × Nat × Nat × Nat) : List (Nat × Region) :=
  let l := leavingBanks co.counts k' 2
  (validRegions co).filter fun r => touches l r.2.base r.2.bytes

/-- The lowest 256-byte-aligned offset of a scratchpad where `n` bytes fit beside some ranges (R135): an end of a
range, or the scratchpad's first byte. -/
def fitRange (lo hi n : Nat) (taken : List (Nat × Nat)) : Option Nat :=
  let starts := (lo :: taken.map fun t => (t.1 + t.2 + 255) / 256 * 256).filter fun x =>
    decide (lo ≤ x) && decide (x + n ≤ hi) && taken.all fun t => decide (x + n ≤ t.1) || decide (t.1 + t.2 ≤ x)
  match starts with
  | [] => none
  | x :: l => some (l.foldl Nat.min x)

/-- The scratchpad's bounds under a split. -/
def scratchLo (k : Nat × Nat × Nat × Nat) : Nat := (1 + k.1) * 16384
def scratchHi (k : Nat × Nat × Nat × Nat) : Nat := (1 + k.1 + k.2.1) * 16384

/-- New places for regions in a new scratchpad, in index order; a region that does not fit gets none. -/
def placeAnew (k' : Nat × Nat × Nat × Nat) : List (Nat × Region) → List (Nat × Nat) → List (Nat × Option Nat)
  | [], _ => []
  | (h, r) :: l, taken =>
    match fitRange (scratchLo k') (scratchHi k') r.bytes taken with
    | some x => (h, some x) :: placeAnew k' l ((x, r.bytes) :: taken)
    | none => (h, none) :: placeAnew k' l taken

/-- The regions that stay where they are, as ranges. -/
def stayingRanges (co : Core) (k' : Nat × Nat × Nat × Nat) : List (Nat × Nat) :=
  ((validRegions co).filter fun r => !(leavingRegions co k').contains r).map fun r => (r.2.base, r.2.bytes)

/-- The new places of the leaving MOVABLE regions, and after them of the leaving DISCARD regions (R136). -/
def newPlaces (co : Core) (k' : Nat × Nat × Nat × Nat) : List (Nat × Option Nat) :=
  let l := leavingRegions co k'
  placeAnew k' ((l.filter fun r => r.2.mob == 1) ++ l.filter fun r => r.2.mob == 2) (stayingRanges co k')

/-! ### POOL.SET (R138, R139, R144) -/

/-- Whether an engine of a core's tile, or a copy to the core, has an operation on ring `h`. -/
def ringInUse (s : State) (core h : Nat) : Bool :=
  s.cores.any fun c => match c.1 with
    | .fw _ => false
    | .tile n =>
      (n / 4 == core / 4 && (c.2.matOps.any fun o =>
          if o.kind ≤ 2 then o.ra == h || o.rb == h
          else o.accF.ring && ((o.kind == 5 && o.dst == h) || (o.kind == 6 && o.src == h))))
        || (n / 4 == core / 4 && c.2.convOps.any fun o => (o.conv.srcr && o.src == h) || (o.conv.dstr && o.dst == h))
        || (c.2.forwards.any fun f => f.2.ring == h && (n / 4 == core / 4 || f.2.dest / 4 == core / 4))
        || c.2.xfers.any fun x => x.fw.ring && bits ((x.block[12]?).getD 0).toNat 15 12 == h && x.dests.any fun d =>
          match d.core with
          | some t => t / 4 == core / 4
          | none => false

/-- Rings of a core with slots in some banks. -/
def ringsIn (co : Core) (banks : List Nat) : List (Nat × Ring) :=
  ((List.range 16).map fun h => (h, co.rings[Fin.ofNat 16 h])).filter fun r =>
    r.2.valid && !r.2.isAlias && touches banks r.2.base (r.2.slots * r.2.slotBytes)

/-- Whether a ring is not idle (Table 6.5, code 6). -/
def ringBusy (s : State) (core : Nat) (r : Nat × Ring) : Bool :=
  decide (0 < r.2.filled + r.2.claim + r.2.held) || !r.2.waiters.isEmpty || ringInUse s core r.1

/-- The slots that leave. -/
def leavingSlots (co : Core) (k' : Nat × Nat × Nat × Nat) : List Nat :=
  (List.range (slotsUnder co.counts)).filter fun i => slotsUnder k' ≤ i

/-- The index of a header within its launch (R135). -/
def relIndex (co : Core) (h : Nat) : Nat :=
  match co.regionBlocks.find? fun b => decide (b.first ≤ h) && decide (h < b.first + b.count) with
  | some b => h - b.first
  | none => h

/-- The first refusal of Table 6.5, with its index: 0 for none. -/
def firstRefusal (s : State) (k' : Nat × Nat × Nat × Nat) : Nat × Nat :=
  let a := s.cur.agent
  let co := curCore s
  let leaving := leavingRegions co k'
  let rings := ringsIn co (leavingBanks co.counts k' 4)
  let slots := (leavingSlots co k').filter fun i => (getCtx s ⟨a, i⟩).used
  if k'.1 + k'.2.1 + k'.2.2.1 + k'.2.2.2 ≠ 63 then (1, 0)
  else if k'.1 < 2 ∨ (curLevel s = 0 ∧ k'.2.1 < 24) then (2, 0)
  else if co.reshape.isSome then (3, 0)
  else
    match leaving.find? (·.2.isFixed) with
    | some r => (4, relIndex co r.1)
    | none =>
      match (newPlaces co k').find? fun p => p.2.isNone && (co.regions[Fin.ofNat 64 p.1]).mob == 1 with
      | some p => (5, relIndex co p.1)
      | none =>
        match rings.find? (ringBusy s (agentNo a)) with
        | some r => (6, r.1)
        | none =>
          match slots.find? fun i => i == s.cur.slot || (getCtx s ⟨a, i⟩).stays with
          | some i => (7, i)
          | none => if areaSize < co.spilled.length + slots.length then (8, 0) else (0, 0)

/-- POOL.SET's effect. The regions' new places are fixed at acceptance (R136). -/
def poolSetOp (d a : GReg) (s : State) : Do Done :=
  let k' := poolCounts (rg s a).toNat
  let r := firstRefusal s k'
  if r.1 ≠ 0 then ok (wgSlow s d (w64 (r.1 + r.2 * 256)))
  else if k' = (curCore s).counts then ok (wgSlow s d 0)
  else
    let moving := (leavingRegions (curCore s) k').map (·.1)
    let places := (newPlaces (curCore s) k').filterMap fun p => p.2.map fun x => (p.1, x)
    let (id, s) := awaitReg s d
    let w := curWho s id
    ok (modCurCore s fun co => { co with
      reshape := some ⟨k', w, id, places⟩
      regions := moving.foldl (fun r h => r.set (Fin.ofNat 64 h) { r[Fin.ofNat 64 h] with moving := true }) co.regions })

/-- POOL.SET (R144). -/
def execPoolSet (d a : GReg) (s : State) : Out := issue (formDA 0x1D 0 d a) (poolSetOp d a) s

/-! ### POOL.QRY (R145) -/

/-- Cache ways that hold a dirty sector. -/
def dirtyWays (co : Core) : Nat :=
  (List.range 64).countP fun w => co.l1.any fun l => l.way == w && l.sectors.toList.any (·.dirty)

/-- The region that an index names in the issuing activation's launch; one that is not valid where it names none
(R135). -/
def namedRegion (s : State) (i : Nat) : Region :=
  match headerOf (curCore s) (opCtx s).launch i with
  | some h => (curCore s).regions[Fin.ofNat 64 h]
  | none => Region.none

/-- Word 0 of a region header (Table 6.4). -/
def Region.word0 (r : Region) : Word :=
  w64 (b2n r.valid * 2 ^ 63 + b2n r.moving * 2 ^ 62 + b2n r.lost * 2 ^ 61 + r.mob % 4 * 2 ^ 59 + b2n r.ckpt * 2 ^ 58
    + r.pins % 256 * 2 ^ 48 + r.size % 2 ^ 16 * 2 ^ 24 + r.base % 2 ^ 20)

/-- What POOL.QRY reads of a bank (Table 6.8). -/
def bankWord (co : Core) (b : Nat) : Word :=
  let fixed := (validRegions co).any fun r => r.2.isFixed && touches [b] r.2.base r.2.bytes
  w64 (bankRole co b - 1 + b2n (bankMoves co b) * 4 + b2n fixed * 8)

/-- POOL.QRY's effect. DESIGN CHOICE: selector 1 counts every VALID ring descriptor as an enabled ring, aliases of
other cores' rings included; R145 does not say. -/
def poolQryOp (word : Nat) (d a : GReg) (s : State) : Do Done :=
  let v := (rg s a).toNat
  let co := curCore s
  let i := bits v 13 8
  match v % 256 with
  | 0 => ok (wgSlow s d (w64 (poolWord co.counts + (slotsUnder co.counts - 1) * 2 ^ 40 + b2n co.reshape.isSome * 2 ^ 63)))
  | 1 =>
    let used := (List.range 64).countP fun k => (getCtx s ⟨s.cur.agent, k⟩).used
    let scratch := (validRegions co).foldl (fun n r => n + r.2.bytes) 0
    let rings := co.rings.toList.countP (·.valid)
    ok (wgSlow s d (w64 (used + scratch % 2 ^ 20 * 2 ^ 16 + dirtyWays co * 2 ^ 36 + rings * 2 ^ 48)))
  | 2 => ok (wgSlow s d (namedRegion s i).word0)
  | 3 => if i = 0 then badOperand word else ok (wgSlow s d (bankWord co i))
  | 4 => ok (wgSlow s d (namedRegion s i).slate)
  | _ => badOperand word

/-- POOL.QRY (R145). -/
def execPoolQry (d a : GReg) (s : State) : Out := issue (formDA 0x1D 1 d a) (poolQryOp (wR 0x1D d a 0 1) d a) s

/-! ### POOL.PIN and POOL.UNPIN (R143, R146) -/

/-- Activation pins that the core's contexts hold on a header. -/
def actPins (s : State) (a : Agent) (h : Nat) : Nat :=
  let n := s.ctxs.foldl (fun n x => if x.1.agent = a then n + x.2.pins.count h else n) 0
  (getCore s a).spilled.foldl (fun n x => n + x.ctx.pins.count h) n

/-- What POOL.PIN does for an activation of a launch that holds `n` activation pins, and its result: the header that
takes a pin, when one does (R146). -/
def pinResult (co : Core) (core : Nat) (launch : Option Nat) (n v : Nat) : Option Nat × Word :=
  match findRegion co launch (v % 64) with
  | none => (none, 9)
  | some (h, r) =>
    if 255 ≤ r.pins then (none, 10)
    else if !bit v 8 && decide (16 ≤ n) then (none, 11)
    else (some h, r.local core)

/-- A pin added to a header, and to the activation's own unless it is persistent. -/
def addPin (s : State) (k : CtxKey) (gen : Gen) (v : Nat) : Option Nat → State
  | none => s
  | some h =>
    let s := modRegion s k.agent h fun r => { r with pins := r.pins + 1, lost := false }
    if bit v 8 then s else modActivation s k gen fun c => { c with pins := h :: c.pins }

/-- POOL.PIN's effect. On a region that moves it completes with the move (R143). -/
def poolPinOp (d a : GReg) (s : State) : Do Done :=
  let v := (rg s a).toNat
  let c := opCtx s
  if (findRegion (curCore s) c.launch (v % 64)).any (·.2.moving) then
    let (id, s) := awaitReg s d
    let w := curWho s id
    ok (modCurCore s fun co => { co with pinWaits := co.pinWaits ++ [(v, w)] })
  else
    let r := pinResult (curCore s) (agentNo s.cur.agent) c.launch c.pins.length v
    ok (wgSlow (addPin s s.cur c.gen v r.1) d r.2)

/-- The POOL.PINs that have waited for a move are performed (R143). -/
def endPins (s : State) (a : Agent) : State :=
  let l := (getCore s a).pinWaits
  l.foldl (fun s x =>
    match findActivation s x.2.ctx x.2.gen with
    | none => s
    | some c =>
      let r := pinResult (getCore s a) (agentNo a) c.launch c.pins.length x.1
      landReply (addPin s x.2.ctx x.2.gen x.1 r.1) x.2 x.2.id r.2.toNat)
    (modCore s a fun co => { co with pinWaits := [] })

/-- POOL.PIN (R146). -/
def execPoolPin (d a : GReg) (s : State) : Out := issue (formDA 0x1D 2 d a) (poolPinOp d a) s

/-- POOL.UNPIN's effect. -/
def poolUnpinOp (d a : GReg) (s : State) : Do Done :=
  let v := (rg s a).toNat
  match findRegion (curCore s) (opCtx s).launch (v % 64) with
  | none => ok (wgSlow s d 9)
  | some (h, r) =>
    let has := if bit v 8 then decide (actPins s s.cur.agent h < r.pins) else (opCtx s).pins.contains h
    if !has then ok (wgSlow s d 12)
    else
      let s := modRegion s s.cur.agent h fun r => { r with pins := r.pins - 1 }
      let s := if bit v 8 then s else modCur s fun c => { c with pins := c.pins.erase h }
      ok (wgSlow s d 0)

/-- POOL.UNPIN (R146). -/
def execPoolUnpin (d a : GReg) (s : State) : Out := issue (formDA 0x1D 3 d a) (poolUnpinOp d a) s

end Sys2Proof.Machine
end

