-- ==== Sys2Proof/Machine/Streams.lean ====
section
/-! DEFINITION. Streams: SCFG, SCLOSE and SSTAT, and the stream unit's fetches and drains (R150 to R157). -/

namespace Sys2Proof.Machine

/-- Whether a home outside the pools and slices admits a read (R333, R364, R366). -/
def outerReads (s : State) (node : Node) (pa n : Nat) : Bool :=
  match node with
  | .image => imageAdmits (pa - imageBase) (.ld n)
  | .guest => s.dev.guest.up || decide (submitBase ≤ pa)
  | .partner => s.dev.pair.linkUp
  | _ => true

/-- The value that a read of `n` bytes returns at its home: a submit address reads as its queue's register (R366). -/
def homeValue (s : State) (node : Node) (pa n : Nat) : Nat :=
  if node = .guest ∧ submitBase ≤ pa then submitRead s pa n else readN s.mem pa n

/-- Whether a range of a core's local space touches a leaving bank, from which a stream's refill is refused (R141). -/
def leavingBank (co : Core) (off n : Nat) : Bool := bankMoves co (bankOf off) || bankMoves co (bankOf (off + n - 1))

/-- A read of `n` bytes performed at its home in the step that asks for it, with the checks and faults of a load;
it follows every earlier store of the core to that home (R151, R155), and crosses no failed link (R217). `refill` says that a stream unit reads. -/
def readHome (s : State) (asid : BitVec 12) (user : Bool) (ea : Word) (n : Nat) (refill : Bool) : Do (State × Nat) :=
  if ea.toNat % n ≠ 0 then trap 0x05 ea
  else do
    let a := s.cur.agent
    let (s, t) ← resolve s a asid user ea 0 .rd
    match t with
    | .own off => do
      if refill && leavingBank (getCore s a) off n then trap 0x0B ea else ownCheck s ea off n false
      loadCheck s (localAddr (agentNo a) off) n
      .ok (s, readN s.mem (localAddr (agentNo a) off) n)
    | .pool c off =>
      if storesUnderWay s a (.core c) then .error (.hold s)
      else match overVn2 s (nodeOf a) (.core c) with
      | none => .error (.hold s)
      | some s =>
      if refill && leavingBank (getCore s (.tile c)) off n then trap 0x0B ea
      else match ownerCheck s c off n .rd (some (agentNo a)) (isFw a) (curCtx s).launch with
        | .later => .error (.hold s)
        | .role => trap 0x0B ea
        | .window => trap 0x08 (reason1 ea.toNat)
        | .perform => do
          loadCheck s (localAddr c off) n
          .ok (s, readN s.mem (localAddr c off) n)
    | .phys pa pol _ =>
      match if pol = 0 ∧ servesL1 s a pa then l1Read (getCore s a) pa n else none with
      | some v => .ok ((allocLine s a (lineOf pa)).1, v)
      | none =>
        let node := homeNode s pa
        if storesUnderWay s a node || homeBusy s pa then .error (.hold s)
        else match overVn2 s (nodeOf a) node with
        | none => .error (.hold s)
        | some s =>
        if !outerReads s node pa n then trap 0x08 (reason1 ea.toNat)
        else if pol = 0 ∧ servesL1 s a pa then do
          loadCheck s (pa / 32 * 32) 32
          let s := l1Fill (l2Use s (pa / 32 * 32) 32 false) a pa (readN s.mem (pa / 32 * 32) 32)
          .ok (s, (l1Read (getCore s a) pa n).getD 0)
        else do
          loadCheck s pa n
          .ok (l2Use s pa n false (polAllocates pol), homeValue s node pa n)

/-! ### SCFG, SCLOSE, SSTAT -/

/-- Element bytes of a size code. -/
def patternFits (size : StreamSize) (base : Word) (p : List (Nat × Int)) : Bool :=
  base.toNat % sizeBytes size == 0 && p.all fun x => decide (x.1 ≤ 1) || x.2 % sizeBytes size == 0

/-- The four pairs of a pattern block. -/
def readPattern (s : State) (at_ : Word) : Nat → Nat → Do (State × List (Nat × Int))
  | 0, _ => .ok (s, [])
  | n + 1, i => do
    let (s, v) ← readHome s (opCtx s).asid (curLevel s == 0) (at_ + w64 (8 * i)) 8 false
    let (s, l) ← readPattern s at_ n (i + 1)
    let hi : BitVec 32 := BitVec.ofNat 32 (v / 2 ^ 32)
    .ok (s, (v % 2 ^ 32, hi.toInt) :: l)

/-- A context without a binding of a register, which then reads 0; its issued stores go on (R156). -/
def unbind (s : State) (k : CtxKey) (r : SReg) : State :=
  let s := modCore s k.agent fun co =>
    let clear (e : JEntry) : JEntry := if e.who.ctx = k ∧ e.stream = some r then { e with stream := none } else e
    { co with journal := co.journal.map clear }
  modCtx s k fun c => { c with
    streams := c.streams.filter (·.1 != r)
    pushes := c.pushes.filter (·.val != r.val)
    f := if c.streams.any (·.1 == r) then c.f.set (Fin.ofNat 32 r.val) 0 else c.f }

/-- The hold of a close while pushed vectors have not issued as stores (log entry 17). -/
def closeCheck (s : State) (r : SReg) : Do Unit :=
  match streamOf (curCtx s) (Fin.ofNat 32 r.val) with
  | some st => if st.outq = [] then .ok () else .error (.hold s)
  | none => .ok ()

/-- SCFG's effect (R155). -/
def scfgOp (d : SReg) (a b : GReg) (wr : Bool) (size : StreamSize) (s : State) : Do Done :=
  let base := rg s a
  if (rg s b).toNat % 8 ≠ 0 then trap 0x05 (rg s b)
  else do
    let (s, p) ← readPattern s (rg s b) 4 0
    if !patternFits size base p then trap 0x05 base
    else
      let n := p.foldl (fun n x => n * x.1) 1
      if 2 ^ 48 - 1 < n then trap 0x0C (streamTval 6 d.val)
      else do
        closeCheck s d
        let st : Stream := { write := wr, size := size, base := base, counts := p.map (·.1), strides := p.map (·.2), next := 0, total := n, buf := [], done := 0, fault := none, outq := [], asid := (curCtx s).asid, user := curLevel s == 0 }
        ok (modCur (unbind s s.cur d) fun c => { c with
          streams := (d, st) :: c.streams
          f := c.f.set (Fin.ofNat 32 d.val) 0 })

/-- SCFG (R155). -/
def execScfg (d : SReg) (a b : GReg) (wr : Bool) (size : StreamSize) (s : State) : Out :=
  issue { xForm (wR 0x1F d a b 0) with gr := [a, b], sb := [Fin.ofNat 32 d.val] } (scfgOp d a b wr size) s

/-- SCLOSE (R156). -/
def execSclose (a : SReg) (s : State) : Out :=
  issue { cForm (wR 0x1F 0 a 0 1) with sb := [Fin.ofNat 32 a.val] }
    (fun s => do closeCheck s a; ok (unbind s s.cur a)) s

/-- What SSTAT writes (Table 7.3). -/
def streamStatus (s : State) (r : SReg) : Word :=
  match streamOf (opCtx s) (Fin.ofNat 32 r.val) with
  | none => 0
  | some st =>
    let drain := st.write && (st.outq != [] || (curCore s).journal.any fun e =>
      e.who.ctx == s.cur && e.who.gen == (opCtx s).gen && e.stream == some r)
    w64 (st.remain * 2 ^ 16 + st.buf.length % 256 * 2 ^ 8 + b2n drain * 8 + b2n (st.remain == 0) * 4 + b2n st.write * 2 + 1)

/-- SSTAT (R157). -/
def execSstat (d : GReg) (a : SReg) (s : State) : Out :=
  issue { cForm (wR 0x1F d a 0 2) with gw := [d], sb := [Fin.ofNat 32 a.val] }
    (fun s => ok (wgSlow s d (streamStatus s a))) s

/-! ### The stream unit (R151 to R154) -/

/-- The cause of an element that meets a failed sector has the element's address as its TVAL (R152). -/
def elemFault {α : Type} (ea : Word) : Do α → Do α
  | .error (.trap code tval) => trap code (if code = 0x2B ∨ code = 0x2C then ea else tval)
  | r => r

/-- The elements of a read stream with the given numbers, loaded in order. -/
def fetchElems (s : State) (st : Stream) : List Nat → Do (State × List Nat)
  | [] => .ok (s, [])
  | n :: l => do
    let (s, v) ← elemFault (st.addr n) (readHome s st.asid st.user (st.addr n) (sizeBytes st.size) true)
    let (s, vs) ← fetchElems s st l
    .ok (s, v :: vs)

/-- One vector fetched for a read stream; a fault is kept for the bundle that pops the vector (R152). -/
def streamFetch (s0 : State) (k : CtxKey) (r : SReg) : State :=
  let s := { s0 with cur := k, latch := none }
  let reg : FReg := Fin.ofNat 32 r.val
  match streamOf (getCtx s k) reg with
  | none => s0
  | some st =>
    if st.write ∨ 8 ≤ st.buf.length ∨ st.total ≤ st.next ∨ st.fault.isSome ∨ (getCtx s k).killed then s0
    else
      let n := Nat.min st.per (st.total - st.next)
      match fetchElems s st ((List.range n).map (st.next + ·)) with
      | .ok (s, vs) => modCtx s k fun c =>
          c.setStream reg { st with buf := st.buf ++ [packElems (8 * sizeBytes st.size) vs], next := st.next + n }
      | .error (.trap code tval) => modCtx s k fun c => c.setStream reg { st with fault := some (BitVec.ofNat 6 code, tval) }
      | .error _ => s0

/-- STREAM_FETCH (R151). -/
def execStreamFetch (k : CtxKey) (r : SReg) (s : State) : Out := event (streamFetch s k r)

/-- A pushed element issued as a store to where it resolved (R151); none while the journal is full. -/
def drainElem (s : State) (st : Stream) (r : SReg) (n : Nat) (t : Target) (v : Nat) : Option State :=
  let ea := st.addr n
  let a := s.cur.agent
  let sz := sizeBytes st.size
  let bs := bytesOf v sz
  match t with
  | .own off =>
    match ownCheck s ea off sz true with
    | .ok _ => some (homeWrite s (localAddr (agentNo a) off) bs 4 (writerNo a) (some (curWho s 0)))
    | .error (.trap code tval) => some (raiseAsync s (curWho s 0) code tval)
    | .error _ => none
  | t =>
    let viaL1 : Option Nat := match t with
      | .phys pa pol _ => if pol = 0 ∧ servesL1 s a pa then some pa else none
      | _ => none
    match viaL1 with
    | some pa => some (l1Store s a pa bs)
    | none =>
      match post s (t.node s a) ea fun j =>
          .access { mkAccess s 0 (.st bs) (t.addr a) ea.toNat (some j) t.policy with kind := 4 } with
      | .ok s' =>
        let last := (getCore s' a).journal.getLast?.map (·.idx)
        let mark (e : JEntry) : JEntry := if some e.idx = last then { e with stream := some r } else e
        some (modCore s' a fun co => { co with journal := co.journal.map mark })
      | .error _ => none

/-- The elements of the oldest pushed vector issue in order, as far as the journal has room. -/
def drainElems (s : State) (st : Stream) (r : SReg) (v0 : Nat) : List (Nat × Target) → State × List (Nat × Target)
  | [] => (s, [])
  | (n, t) :: l =>
    if n / st.per ≠ v0 then (s, (n, t) :: l)
    else
      match drainElem s st r n t (elem (8 * sizeBytes st.size) (st.buf.headD 0) (n % st.per)) with
      | some s => drainElems s st r v0 l
      | none => (s, (n, t) :: l)

/-- The oldest pushed vector of a write stream issues as stores, once the vectors pushed before it have: they are
ordered as a store of the pushing bundle (R151). -/
def streamDrain (s0 : State) (k : CtxKey) (r : SReg) : State :=
  let s := { s0 with cur := k, latch := none }
  let reg : FReg := Fin.ofNat 32 r.val
  match streamOf (getCtx s k) reg with
  | none => s0
  | some st =>
    if !st.write || st.buf == [] || (getCtx s k).pushes.head? != some reg then s0
    else
      let v0 := st.done - st.buf.length
      let (s, rest) := drainElems s st r v0 st.outq
      let more := match rest with
        | [] => false
        | (n, _) :: _ => n / st.per == v0
      modCtx s k fun c =>
        let c := c.setStream reg { st with outq := rest, buf := if more then st.buf else st.buf.tail }
        if more then c else { c with pushes := c.pushes.tail }

/-- STREAM_DRAIN (R151). -/
def execStreamDrain (k : CtxKey) (r : SReg) (s : State) : Out := event (streamDrain s k r)

end Sys2Proof.Machine
end

