-- ==== Sys2Proof/Machine/Engine.lean ====
section
/-! DEFINITION. What the engines share: MX9 blocks (R58 to R60), the reads and writes that an engine performs at
their homes (R202, R213, R214), and its place among the waiters of a ring (R261). -/

namespace Sys2Proof.Machine

/-! ### MX9 blocks (R58 to R60) -/

/-- The element format of a code 0 to 4 (R59); code 5 is INT8. -/
def mxFmt (code : Nat) : Fmt :=
  match code with
  | 0 => e4m3 | 1 => e5m2 | 2 => e3m2 | 3 => e2m3 | _ => e2m1
/-- Bits of an element. -/
def mxWidth (code : Nat) : Nat :=
  match code with
  | 2 => 6 | 3 => 6 | 4 => 4 | _ => 8
/-- Bytes of a block (Table 3.3). -/
def mxBytes (code : Nat) : Nat := 4 * mxWidth code + 2
/-- ElemEmax (R60). -/
def mxEmax (code : Nat) : Int :=
  match code with
  | 0 => 8 | 1 => 15 | 2 => 4 | 3 => 2 | 4 => 2 | _ => 0

/-- v(e): the value of an element code; an INT8 element e is worth e × 2^-6 (R58). -/
def mxElem (code x : Nat) : Num :=
  if code = 5 then
    if 128 ≤ x then .fin true (256 - x) (-6) else .fin false x (-6)
  else decodeNum (mxFmt code) false x

/-- A value times a power of two. -/
def Num.shift (x : Num) (k : Int) : Num :=
  match x with
  | .fin n m e => .fin n m (e + k)
  | y => y

/-- The scale half-word of a block that is stored as a number. -/
def mxHalf (code blk : Nat) : Nat := blk / 2 ^ (32 * mxWidth code) % 2 ^ 16
/-- The shared scale s. -/
def mxScale (code blk : Nat) : Nat := mxHalf code blk % 512
/-- The element codes. -/
def mxCodes (code blk : Nat) : List Nat :=
  (List.range 32).map fun i => blk / 2 ^ (mxWidth code * i) % 2 ^ mxWidth code

/-- The check of a block against a format (R59): 5 for an unassigned code or reserved bits, 4 for another format. -/
def mxCheck (code blk : Nat) : Option Nat :=
  let h := mxHalf code blk
  if 6 ≤ bits h 11 9 ∨ bits h 15 12 ≠ 0 then some 5
  else if bits h 11 9 ≠ code then some 4
  else none

/-- The 32 values of a block (R58): a scale of 511 makes them all NaN. -/
def mxValues (code blk : Nat) : List Num :=
  let s := mxScale code blk
  (mxCodes code blk).map fun x =>
    if s = 511 then .nan false false 0 else (mxElem code x).shift ((s : Int) - 255)

/-- A value rounded into an INT8 element, which saturates at ±127 (R60). -/
def roundInt8 (mode : RMode) (neg : Bool) (m : Nat) (e : Int) : Nat × FpFlags :=
  let (k, rem, r) := inUnits m e (-6)
  let k' := if roundsUp mode neg k rem r then k + 1 else k
  let (k', fl) := if 127 < k' then (127, 5) else (k', if rem ≠ 0 then 1 else 0)
  (if neg ∧ k' ≠ 0 then 256 - k' else k', fl)

/-- RoundSaturate (R60). -/
def roundSat (code : Nat) (mode : RMode) (x : Num) : Nat × FpFlags :=
  match x with
  | .fin neg m e =>
    if code = 5 then roundInt8 mode neg m e else roundFin (mxFmt code) mode false true neg m e
  | _ => (0, 0)

/-- The larger of two finite magnitudes, as (m, e). -/
def magMax (a : Nat × Int) (x : Num) : Nat × Int :=
  match x with
  | .fin _ m e => if magLt a.1 a.2 m e then (m, e) else a
  | _ => a

/-- Whether a value is finite. -/
def Num.finite : Num → Bool
  | .fin _ _ _ => true
  | _ => false

/-- The block of codes and a scale, stored as a number (R59). -/
def mxPack (code s : Nat) (l : List Nat) : Nat :=
  l.foldr (fun x a => x + 2 ^ mxWidth code * a) 0 + (s + code * 512) * 2 ^ (32 * mxWidth code)

/-- ScaleForBlock (R60): the stored block, and the flags of its values. `mode` gives the mode of each element. -/
def scaleForBlock (code : Nat) (mode : Nat → RMode) (v : List Num) : Nat × FpFlags :=
  if v.any (!·.finite) then (mxPack code 511 (List.replicate 32 0), 8)
  else
    let (m, e) := v.foldl magMax (0, 0)
    let s : Nat := if m = 0 then 0 else (max 0 (min 510 (topBit m e - mxEmax code + 255))).toNat
    let r := v.zipIdx.map fun x => roundSat code (mode x.2) (x.1.shift (255 - (s : Int)))
    (mxPack code s (r.map (·.1)), allFlags (r.map (·.2)))

/-! ### Accesses of an engine (R141, R202, R213, R214) -/

/-- An engine that accesses memory for an operation: its core, the writer's kind of R224, the operation's number,
and the address space, level and launch of the activation that issued it. -/
structure EngSrc where
  core : Nat
  kind : Nat
  id : Nat
  asid : BitVec 12
  user : Bool
  launch : Option Nat
  /-- who takes the cause of a store that meets a failed sector, and its TVAL (R191) -/
  who : Who
  tval : Word
  deriving DecidableEq, Repr

/-- Why an engine's access is not performed: it waits; a translation or permission fault at an address; a refusal
at its home; an uncorrectable error, of SRAM or of DRAM. -/
inductive EngStop where
  | later
  | translate (va : Nat)
  | refused (va : Nat)
  | failed (va : Nat) (sram : Bool)
  deriving DecidableEq, Repr

/-- The counts that govern an operation at a core: the old ones while a reshape runs that was accepted after it
(R141). -/
def countsFor (co : Core) (id : Nat) : Nat × Nat × Nat × Nat :=
  match co.reshape with
  | some r => if id < r.id then co.counts else r.counts
  | none => co.counts

/-- How the roles admit an engine's access of `n` bytes (R129, R141): an operation accepted before a reshape completes
under the old counts, and one accepted after it is refused at a bank that changes its role. -/
def engRole (co : Core) (id off n : Nat) : Admit :=
  let k := countsFor co id
  let ok (b : Nat) : Bool := decide (b < 64) && isData (roleUnder k b) && roleUnder k b == roleUnder co.counts b
  if ok (bankOf off) && ok (bankOf (off + n - 1)) then .yes else .no

/-- Whether a home outside the pools and slices admits an engine's write (R333, R364, R366). -/
def outerWrites (s : State) (node : Node) (pa : Nat) (bs : List Byte) : Bool :=
  match node with
  | .image => imageAdmits (pa - imageBase) (.st bs)
  | .guest => s.dev.guest.up && decide (pa < submitBase)
  | .partner => s.dev.pair.linkUp
  | _ => true

/-- Where an engine's access of at most 8 bytes goes: its home address, checked at its home by role and window, and
whether its page's policy allocates in L2 (Table 8.5). It waits while no route works, behind what its pair repairs, and behind
the accesses that its home holds or has been forwarded (R190, R217, R219). -/
def engHome (s : State) (x : EngSrc) (va n : Nat) (store : Bool) : Except EngStop (State × Nat × Bool) :=
  match resolve s (.tile x.core) x.asid x.user (w64 va) (b2n store) (if store then .wr else .rd) with
  | .error (.trap 0x08 _) => .error (.refused va)
  | .error (.trap 0x2B _) => .error (.failed va false)
  | .error (.trap 0x2C _) => .error (.failed va true)
  | .error (.trap _ _) => .error (.translate va)
  | .error _ => .error .later
  | .ok (s, t) =>
    match overVn2 s (.core x.core) (t.node s (.tile x.core)) with
    | none => .error .later
    | some s =>
    match t with
    | .own off =>
      match engRole (getCore s (.tile x.core)) x.id off n with
      | .yes => .ok (s, localAddr x.core off, false)
      | .later => .error .later
      | .no => .error (.refused va)
    | .pool c off =>
      let co := getCore s (.tile c)
      match engRole co x.id off n with
      | .later => .error .later
      | .no => .error (.refused va)
      | .yes =>
        if (List.finRange 8).any fun i => windowAdmits s c (co.windows.value i) off n (if store then .wr else .rd)
            (some x.core) x.launch then .ok (s, localAddr c off, false)
        else .error (.refused va)
    | .phys pa pol _ => if homeBusy s pa then .error .later else .ok (s, pa, polAllocates pol)

/-- An engine's read of at most 8 bytes: the home address and the value. -/
def engRead (s : State) (x : EngSrc) (va n : Nat) : Except EngStop (State × Nat × Nat) := do
  let (s, a, alloc) ← engHome s x va n false
  if a < 0xF * 2 ^ 44 ∧ !outerReads s (homeNode s a) a n then .error (.refused va)
  else
    match failedIn s a n with
    | some sram => .error (.failed va sram)
    | none => .ok (l2Use s a n false alloc, a, homeValue s (homeNode s a) a n)

/-- The listed sectors that a write of `n` bytes covers in part (R191). -/
def partlyFailed (s : State) (a n : Nat) : List (Nat × Bool) :=
  s.dev.failed.filter fun f => decide (f.1 < a + n) && decide (a < f.1 + 32) && !(decide (a ≤ f.1) && decide (f.1 + 32 ≤ a + n))

/-- Bytes that an engine writes at a home address: core-local words become full (R214). A listed sector that it writes in part
leaves the list, with the cause for the context that issued the operation (R191). -/
def engPut (s : State) (x : EngSrc) (a : Nat) (bs : List Byte) (alloc : Bool := true) : State :=
  let bad := partlyFailed s a bs.length
  let s := homeWrite s a bs x.kind x.core none alloc
  let s := if 0xF * 2 ^ 44 ≤ a then fillWords s a bs.length else s
  bad.foldl (fun s f => raiseAsync s x.who (failCause f.2) x.tval) s

/-- An engine's write of at most 8 bytes. -/
def engWrite (s : State) (x : EngSrc) (va : Nat) (bs : List Byte) : Except EngStop (State × Nat) := do
  let (s, a, alloc) ← engHome s x va bs.length true
  if a < 0xF * 2 ^ 44 ∧ !outerWrites s (homeNode s a) a bs then .error (.refused va) else .ok (engPut s x a bs alloc, a)

/-- The pieces of a range within aligned 8-byte words: address and length. -/
def wordPieces : Nat → Nat → Nat → List (Nat × Nat)
  | 0, _, _ => []
  | fuel + 1, va, n =>
    if n = 0 then []
    else
      let k := Nat.min n (8 - va % 8)
      (va, k) :: wordPieces fuel (va + k) (n - k)

/-! ### Rings of an engine (R261) -/

/-- The owner of the ring that a handle of a core names. -/
def ringOwner (s : State) (core h : Nat) : Nat := (ringOf s core h).ownerCore core

/-- An engine's operation joins the waiters of a ring. -/
def engAsk (s : State) (owner h : Nat) (u : RingUser) (op : RingOp) (k : Nat) : State :=
  let r := ringOf s owner h
  putRing s owner h { r with waiters := r.waiters ++ [⟨u, op, k⟩] }

/-- An engine's publication or release of slots. -/
def engAdvance (s : State) (owner h : Nat) (op : RingOp) (k : Nat) : State :=
  match (ringOf s owner h).advance op k with
  | some r => putRing s owner h r
  | none => s

/-- An engine's waiters dropped from a tile's rings. -/
def dropRingUser (s : State) (core : Nat) (p : RingUser → Bool) : State :=
  (List.range 4).foldl (fun s r =>
    modCore s (.tile (core / 4 * 4 + r)) fun co => { co with rings := co.rings.map fun x =>
      { x with waiters := x.waiters.filter fun w => !p w.user } }) s

/-! ### Faults and operations (R273, R274) -/

/-- TVAL of a fault of the matrix engine or the conversion unit (Table 12.1). -/
def engTval (disc reason ring kind opno : Nat) : Word :=
  w64 (opno % 2 ^ 16 + kind % 16 * 2 ^ 16 + ring % 16 * 2 ^ 20 + reason % 256 * 2 ^ 24 + disc % 2 ^ 16 * 2 ^ 32)

/-- Whether two operations belong to one activation. -/
def EngOp.sameAct (o p : EngOp) : Bool := o.who.ctx == p.who.ctx && o.who.gen == p.who.gen

/-- Whether an operation has started (R272). -/
def EngOp.started (o : EngOp) : Bool := o.phase == .running

/-- Whether the activation of an operation has been killed. -/
def opKilled (s : State) (o : EngOp) : Bool :=
  match findActivation s o.who.ctx o.who.gen with
  | some c => c.killed
  | none => false

/-- An operation of an engine dropped from both lists of its core; when none of its activation is left, the tiles
and the live position that it kept are free (R274). -/
def dropOp (s : State) (o : EngOp) : State :=
  modCore s o.who.ctx.agent fun co =>
    let mat := co.matOps.filter (·.id != o.id)
    let conv := co.convOps.filter (·.id != o.id)
    let busy := mat.any (·.sameAct o) || conv.any (·.sameAct o)
    { co with
      matOps := mat
      convOps := conv
      draining := co.draining.filter fun d => busy || !(d.ctx == o.who.ctx && d.gen == o.who.gen)
      badTiles := if busy || !(co.draining.any fun d => d.ctx == o.who.ctx && d.gen == o.who.gen) then co.badTiles
        else co.badTiles.filter fun t => !(t.1 == o.who.ctx && t.2.1 == o.who.gen) }

/-- An operation that is discarded: it leaves the waiters of its rings, and what awaits it is not written. Slots
that it has been granted stay taken. -/
def discardOp (s : State) (o : EngOp) : State :=
  let ag := o.who.ctx.agent
  let s := dropRingUser s (agentNo ag) fun u => match u with
    | .matrix a id _ => a == ag && id == o.id
    | .conv a id _ => a == ag && id == o.id
    | _ => false
  dropReply (dropOp s o) { o.who with id := o.id } o.id

/-- A fault of an operation at or after its start (R273): later operations of the activation that have not started
are discarded, and the cause goes to the issuing context. -/
def faultOp (s : State) (o : EngOp) (code : Nat) (tval : Nat → Word) : State :=
  let co := getCore s o.who.ctx.agent
  let later := (co.matOps ++ co.convOps).filter fun p => p.sameAct o && decide (o.id < p.id) && !p.started
  let s := later.foldl discardOp s
  raiseAsync (discardOp s o) o.who code (tval later.length)

/-- A fault of an operation with the layout of Table 12.1. -/
def faultOp121 (s : State) (o : EngOp) (code reason ring : Nat) : State :=
  faultOp s o code fun disc => engTval disc reason ring o.kind o.opno.toNat

/-- An operation replaced in its list. -/
def putOp (s : State) (o : EngOp) : State :=
  let put (l : List EngOp) : List EngOp := l.map fun p => if p.id = o.id then o else p
  modCore s o.who.ctx.agent fun co => { co with matOps := put co.matOps, convOps := put co.convOps }

/-- Flags ORed into that FPCTL. -/
def Ctx.orFlagsAt (c : Ctx) (o : EngOp) : Ctx :=
  let w : Word := w64 (o.flags % 16 * 256)
  match fpBank c o, c.trap, c.ui with
  | 1, some b, _ => { c with trap := some { b with fpctl := b.fpctl ||| w } }
  | 2, _, some u => { c with ui := some { u with fpctl := u.fpctl ||| w } }
  | _, _, _ => c.orFlags o.flags

/-- An accepted operation: the activation's number rises, and the context keeps its live position (R273, R274). -/
def acceptOp (s : State) (o : EngOp) : State :=
  let s := modCur s fun c => { c with opno := c.opno + 1, engineUsed := true }
  modCurCore s fun co =>
    if 8 ≤ o.kind then { co with convOps := co.convOps ++ [o] } else { co with matOps := co.matOps ++ [o] }

/-- Field words of zeros. -/
def mmaZero : MmaField := ⟨0, 0, 0, false, false, false, false, false, false, 0, 0⟩
def accZero : AccField := ⟨0, false, false, false, 0⟩
def convZero : ConvField := ⟨0, 0, false, false, false, false, 0, 0⟩

/-- A new operation of the issuing context, with its number. -/
def newOp (s : State) (kind : Nat) : EngOp × State :=
  let (id, s) := newId s
  let c := curCtx s
  (⟨id, curWho s id, c.opno, kind, 0, 0, 0, 0, 0, 0, mmaZero, accZero, convZero, c.launch, c.inTrap, c.inUi, .queued, [], [], [],
    0, 0, false, 0⟩, s)

/-- The number of the next operation of the issuing activation. -/
def nextOpno (s : State) : Nat := (curCtx s).opno.toNat

/-- The checks of the memory target of an engine's operation (R283, R289, R309): `n` bytes in the core's own
scratchpad or tile store. A bank whose role a reshape changes is left to the start (R141, R294). -/
def ownRange (s : State) (ea : Word) (n : Nat) : Do Nat :=
  let off := ea.toNat % 2 ^ 20
  let me := agentNo s.cur.agent
  let co := curCore s
  let bad : Bool := ea.toNat ≠ localAddr me off || decide (2 ^ 20 < off + n)
  let data (k : Nat × Nat × Nat × Nat) : Bool :=
    (List.range (bankOf (off + n - 1) - bankOf off + 1)).all fun i => isData (roleUnder k (bankOf off + i))
  if bad then trap 0x0B ea
  else if data co.counts || data (governing co) then .ok off
  else trap 0x0B ea

/-- Whether a range of a core's pool is still admitted for an operation at its start (R129, R141): none while it waits. -/
def bytesStill (co : Core) (id off n : Nat) : Admit :=
  (List.range (bankOf (off + n - 1) - bankOf off + 1)).foldl (fun a i =>
    match a, engRole co id ((bankOf off + i) * 16384) 1 with
    | .no, _ => .no
    | _, .no => .no
    | .later, _ => .later
    | _, b => b) .yes

/-- Whether an operation's own memory range is still admitted at its start (R141). -/
def rangeStill (s : State) (o : EngOp) (off n : Nat) : Admit := bytesStill (getCore s o.who.ctx.agent) o.id off n

/-- Whether a slot of a ring, at a home address of the ring's owner, is still admitted for an operation at its start (R129,
R141). -/
def slotStill (s : State) (owner id addr n : Nat) : Admit := bytesStill (getCore s (.tile owner)) id (addr - localAddr owner 0) n

/-- Whether a ring has lost its banks for an operation: a reshape has taken its descriptor's VALID, or one that was accepted
before the operation takes a bank in which its slots stand (R141, Table 6.6; log entry 122). -/
def ringLost (s : State) (core h id : Nat) : Bool :=
  let owner := ringOwner s core h
  let r := ringOf s owner h
  !r.valid || bytesStill (getCore s (.tile owner)) id r.base (r.slots * r.slotBytes) == .no

/-- A precise cause of an engine's instruction, with the layout of Table 12.1 (R273). -/
def engTrap {α : Type} (s : State) (kind code reason ring : Nat) : Do α :=
  trap code (engTval 0 reason ring kind (nextOpno s))

/-- The check of a ring that an engine's instruction names (R280, R289, R309): a valid descriptor, the role at its
side, and a slot of at least `n` bytes, whose absence has reason `small`. -/
def engRing (s : State) (kind h : Nat) (op : RingOp) (role n small : Nat) : Do Unit :=
  let r := (curCore s).rings[Fin.ofNat 16 h]
  let side := match op with
    | .waite => r.prod
    | _ => r.cons
  let own := ringOf s (r.ownerCore (agentNo s.cur.agent)) h
  if !r.valid || !own.valid then engTrap s kind 0x0D 1 h
  else if side ≠ role then engTrap s kind 0x0D 2 h
  else if own.slotBytes < n then engTrap s kind 0x1F small h
  else .ok ()

/-- Whether the windows of a core admit an engine's access to a range of it (R238). -/
def engWindow (s : State) (core owner off n : Nat) (launch : Option Nat) (store : Bool) : Bool :=
  core == owner || (List.finRange 8).any fun i =>
    windowAdmits s owner ((getCore s (.tile owner)).windows.value i) off n (if store then .wr else .rd) (some core) launch

/-- Operations before the first of an activation that has not started are started: whether `o` is the next of its
activation in a list. -/
def nextOfAct (l : List EngOp) (o : EngOp) : Bool :=
  !o.started && l.all fun p => !(p.sameAct o) || decide (o.id ≤ p.id) || p.started

end Sys2Proof.Machine
end

