-- ==== Sys2Proof/Machine/Conv.lean ====
section
/-! DEFINITION. The conversion unit: CVT.MX, CVT.UNMX, RESCALE.MX and TRANSP, and how its operations start and
complete (R308 to R310). -/

namespace Sys2Proof.Machine

/-! ### Layouts (R309) -/

/-- The number format of codes 0 to 2 (R308). -/
def convFmt (code : Nat) : Fmt :=
  match code with
  | 0 => fp32 | 1 => bf16 | _ => fp16
/-- Bits of a value of codes 0 to 2. -/
def convWidth (code : Nat) : Nat := if code = 0 then 32 else 16
/-- Bytes of a group of 32 values. -/
def groupBytes (code : Nat) : Nat := if 8 ≤ code then mxBytes (code - 8) else 4 * convWidth code
/-- Groups of an operation: its tiles have 32 each. -/
def convGroups (kind : Nat) (f : ConvField) : Nat := (f.nm1.toNat + 1) * (if kind = 11 then 32 else 1)

/-- The format pairs of Table 13.11. -/
def convPair (kind sf df : Nat) : Bool :=
  match kind with
  | 8 => decide (sf ≤ 2) && decide (8 ≤ df)
  | 9 => decide (8 ≤ sf) && decide (df ≤ 2)
  | 10 => decide (8 ≤ sf) && decide (8 ≤ df)
  | _ => sf == df

/-- An operand in memory: aligned to 64 bytes (R309). -/
def convAligned (ring : Bool) (ea : Word) : Do Unit :=
  if !ring && ea.toNat % 64 != 0 then trap 0x05 ea else .ok ()

/-- An operand's handle or local offset, checked (R309). -/
def convOperand (s : State) (kind : Nat) (ring : Bool) (r : GReg) (op : RingOp) (n small : Nat) : Do Nat :=
  if ring then do
    let h := handle s r.val
    engRing s kind h op 1 n small
    .ok h
  else ownRange s (rg s r) n

/-- The effect of a conversion instruction: the operation joins the unit's queue (R308 to R310). -/
def convIssue (kind : Nat) (d a b : GReg) (f : ConvField) (s : State) : Do Done := do
  let sf := f.sf.toNat
  let df := f.df.toNat
  let n := convGroups kind f
  if 8 ≤ (curCore s).convOps.length then .error (.hold s)
  else if !convPair kind sf df then engTrap s kind 0x1F 1 0
  else
    convAligned f.srcr (rg s a)
    convAligned f.dstr (rg s d)
    let src ← convOperand s kind f.srcr a .waitf (n * groupBytes sf) 2
    let dst ← convOperand s kind f.dstr d .waite (n * groupBytes df) 3
    let (o, s) := newOp s kind
    ok (acceptOp s { o with src := src, dst := dst, seed := if f.sr then rg s b else 0, conv := f })

/-- The registers that a conversion reads. -/
def convForm (minor : Nat) (d a b : GReg) (f : ConvField) : Form :=
  { xForm (wR 0x31 d a b minor) with
    gr := (if f.dstr then [] else [d]) ++ (if f.srcr then [] else [a]) ++ [b] }

/-- CVT.MX (R308). -/
def execCvtMx (d a b : GReg) (fw : ConvField) (s : State) : Out := issue (convForm 0 d a b fw) (convIssue 8 d a b fw) s
/-- CVT.UNMX (R308). -/
def execCvtUnmx (d a b : GReg) (fw : ConvField) (s : State) : Out := issue (convForm 1 d a b fw) (convIssue 9 d a b fw) s
/-- RESCALE.MX (R308). -/
def execRescaleMx (d a b : GReg) (fw : ConvField) (s : State) : Out :=
  issue (convForm 2 d a b fw) (convIssue 10 d a b fw) s
/-- TRANSP (R308). -/
def execTransp (d a b : GReg) (fw : ConvField) (s : State) : Out := issue (convForm 3 d a b fw) (convIssue 11 d a b fw) s

/-! ### What an operation computes (Table 13.11) -/

/-- The mode of output value `e` (R309). -/
def seedMode (sr : Bool) (seed : Word) (e : Nat) : RMode :=
  if sr then .sr (cmix32 (BitVec.ofNat 32 (seed.toNat + e)) (BitVec.ofNat 32 (seed.toNat / 2 ^ 32))).toNat else .rne

/-- The 32 codes of a group that is not an MX9 block. -/
def groupCodes (code v : Nat) : List Nat :=
  let w := convWidth code
  (List.range 32).map fun i => v / 2 ^ (w * i) % 2 ^ w
/-- A group of codes as a number. -/
def packCodes (w : Nat) (l : List Nat) : Nat := l.foldr (fun x a => x + 2 ^ w * a) 0
/-- The values of a group. -/
def groupValues (code v : Nat) : List Num :=
  if 8 ≤ code then mxValues (code - 8) v else (groupCodes code v).map (decodeNum (convFmt code) false)

/-- Row `j` of the transpose of 32 rows. -/
def column {α : Type} (rows : List (List α)) (d : α) (j : Nat) : List α := rows.map fun r => (r[j]?).getD d

/-- The output groups of an operation from its source groups, with their flags. -/
def convOut (o : EngOp) (src : List Nat) : List (Nat × FpFlags) :=
  let sf := o.conv.sf.toNat
  let df := o.conv.df.toNat
  let mode (g : Nat) (i : Nat) : RMode := seedMode o.conv.sr o.seed (32 * g + i)
  if o.kind = 11 then
    (List.range src.length).map fun g =>
      let tile := (src.drop (g / 32 * 32)).take 32
      let j := g % 32
      if 8 ≤ sf then scaleForBlock (sf - 8) (mode g) (column (tile.map (groupValues sf)) (.fin false 0 0) j)
      else (packCodes (convWidth sf) (column (tile.map (groupCodes sf)) 0 j), 0)
  else src.zipIdx.map fun x =>
    let v := groupValues sf x.1
    if 8 ≤ df then scaleForBlock (df - 8) (mode x.2) v
    else
      let r := v.zipIdx.map fun y => convertNum (convFmt df) (mode x.2 y.2) false y.1
      (packCodes (convWidth df) (r.map (·.1)), allFlags (r.map (·.2)))

/-! ### Starting and completing (R310) -/

/-- The home addresses of an operation's source and destination. -/
def convSrcAddr (s : State) (core : Nat) (o : EngOp) : Nat :=
  if o.conv.srcr then
    let w := ringOwner s core o.src
    (ringOf s w o.src).slotAddr w (o.slotsA.headD 0)
  else localAddr core o.src
def convDstAddr (s : State) (core : Nat) (o : EngOp) : Nat :=
  if o.conv.dstr then
    let w := ringOwner s core o.dst
    (ringOf s w o.dst).slotAddr w (o.slotsB.headD 0)
  else localAddr core o.dst

/-- An operation joins the waiters of its rings. -/
def convAsk (s : State) (core : Nat) (o : EngOp) : State :=
  let ag := Agent.tile core
  let s := if o.conv.srcr then engAsk s (ringOwner s core o.src) o.src (.conv ag o.id false) .waitf 1 else s
  let s := if o.conv.dstr then engAsk s (ringOwner s core o.dst) o.dst (.conv ag o.id true) .waite 1 else s
  putOp s { o with phase := .atRings }

/-- Whether an operation's slots have been granted. -/
def convGranted (o : EngOp) : Bool :=
  (!o.conv.srcr || !o.slotsA.isEmpty) && (!o.conv.dstr || !o.slotsB.isEmpty)

/-- How the memory operands of an operation are admitted at its start, and the slots that it has been granted (R129, R141). -/
def convRange (s : State) (core : Nat) (o : EngOp) (n m : Nat) : Admit :=
  let a := if o.conv.srcr then slotStill s (ringOwner s core o.src) o.id (convSrcAddr s core o) n else rangeStill s o o.src n
  let b := if o.conv.dstr then slotStill s (ringOwner s core o.dst) o.id (convDstAddr s core o) m else rangeStill s o o.dst m
  match a, b with
  | .no, _ => .no
  | _, .no => .no
  | .yes, .yes => .yes
  | _, _ => .later

/-- An operation of the conversion unit or the matrix engine as an engine that writes memory. -/
def opSrc (core kind : Nat) (o : EngOp) (ring : Nat) : EngSrc :=
  ⟨core, kind, o.id, 0, false, o.launch, o.who, engTval 0 0 ring o.kind o.opno.toNat⟩

/-- The start of an operation whose slots are granted: its source is checked, and its output written. -/
def convRun (s : State) (core : Nat) (o : EngOp) : State :=
  let sf := o.conv.sf.toNat
  let groups := convGroups o.kind o.conv
  let n := groups * groupBytes sf
  let m := groups * groupBytes o.conv.df.toNat
  let src := convSrcAddr s core o
  let dst := convDstAddr s core o
  let ring := if o.conv.srcr then o.src else 0
  match convRange s core o n m with
  | .later => s
  | .no => faultOp121 s o 0x27 0 0
  | .yes =>
    if (failedIn s src n).isSome then faultOp121 s o 0x2C 0 ring
    else
      let blocks := (List.range groups).map fun g => readN s.mem (src + g * groupBytes sf) (groupBytes sf)
      match if 8 ≤ sf then blocks.findSome? (mxCheck (sf - 8)) else none with
      | some reason => faultOp121 s o 0x1F reason ring
      | none =>
        let owner := ringOwner s core o.dst
        if o.conv.dstr && !engWindow s core owner (dst - localAddr owner 0) m o.launch true then
          faultOp121 s o 0x27 0 o.dst
        else
          let out := convOut o blocks
          let bs := out.flatMap fun x => bytesOf x.1 (groupBytes o.conv.df.toNat)
          let s := engPut s (opSrc core 3 o (if o.conv.dstr then o.dst else 0)) dst bs
          putOp s { o with phase := .running, bytes := m, flags := allFlags (out.map (·.2)) }

/-- What the unit does next for an operation that is the next of its activation; none when it waits. -/
def convStep (s : State) (core : Nat) (l : List EngOp) (o : EngOp) : Option State :=
  if opKilled s o && !o.started then some (discardOp s o)
  else if !nextOfAct l o then none
  else
    match o.phase with
    | .queued =>
      if o.conv.srcr && ringLost s core o.src o.id then some (faultOp121 s o 0x27 0 o.src)
      else if o.conv.dstr && ringLost s core o.dst o.id then some (faultOp121 s o 0x27 0 o.dst)
      else some (convAsk s core o)
    | .atRings => if convGranted o && !l.any (·.started) then some (convRun s core o) else none
    | _ => none

/-- CONV_OP_START (R310): the oldest operation that can go on asks for its slots or starts. -/
def execConvOpStart (ag : Agent) (s : State) : Out :=
  match ag with
  | .fw _ => event s
  | .tile n =>
    let l := (getCore s ag).convOps
    event ((l.findSome? (convStep s n l)).getD s)

/-- The barrier event of an operation at its completion (R258, R290). -/
def opBar (s : State) (core : Nat) (ben : Bool) (bar : Nat) (o : EngOp) : State :=
  if ben then barDecrement s core bar o.bytes [.core core] else s

/-- The flags of an operation reach the FPCTL of the code that issued it (R290). -/
def opFlags (s : State) (o : EngOp) : State := modActivation s o.who.ctx o.who.gen fun c => c.orFlagsAt o

/-- CONV_OP_COMPLETE (R310): the destination slot is published and the source slot released; then come the barrier
event and the flags. -/
def execConvOpComplete (ag : Agent) (s : State) : Out :=
  match ag with
  | .fw _ => event s
  | .tile n =>
    match (getCore s ag).convOps.find? (·.started) with
    | none => event s
    | some o =>
      let s := dropOp s o
      let s := if o.conv.dstr then engAdvance s (ringOwner s n o.dst) o.dst .advp 1 else s
      let s := if o.conv.srcr then engAdvance s (ringOwner s n o.src) o.src .advc 1 else s
      event (opFlags (opBar s n o.conv.ben o.conv.bar.toNat o) o)

end Sys2Proof.Machine
end

