-- ==== Sys2Proof/Machine/Copy.lean ====
section
/-! DEFINITION. The copy engine: CPY, CPY.CANCEL and CPY.STAT, and how a transfer runs and ends (R297 to R307). -/

namespace Sys2Proof.Machine

/-! ### The parameter block (Tables 13.1 to 13.3) -/

/-- A pattern: the extents and strides of four dimensions, dimension 0 first. -/
abbrev Pattern := List (Nat × Int)

/-- Bytes of an element of a copy format (Table 13.3). -/
def copyBytes (code : Nat) : Nat :=
  match code with
  | 0 => 1 | 1 => 2 | 2 => 4 | 3 => 8 | 4 => 4 | 5 => 2 | 6 => 2
  | c => mxBytes (c - 8)
/-- Whether an element is an MX9 block. -/
def copyMx (code : Nat) : Bool := decide (8 ≤ code)
/-- Values of an element. -/
def copyVals (code : Nat) : Nat := if copyMx code then 32 else 1
/-- The alignment of an element's address. -/
def copyAlign (code : Nat) : Nat := if copyMx code then 2 else copyBytes code
/-- The number format of codes 4 to 6. -/
def copyFmt (code : Nat) : Fmt :=
  match code with
  | 4 => fp32 | 5 => bf16 | _ => fp16

/-- A word of a parameter block. -/
def blockWord (b : List Word) (i : Nat) : Nat := ((b[i]?).getD 0).toNat
/-- The (E, S) pairs of four words from one. -/
def blockPattern (b : List Word) (i : Nat) : Pattern :=
  (List.range 4).map fun j =>
    let w := blockWord b (i + j)
    (w % 2 ^ 32, (BitVec.ofNat 32 (w / 2 ^ 32)).toInt)
/-- Elements of a pattern. -/
def patCount (p : Pattern) : Nat := p.foldl (fun n x => n * x.1) 1
/-- The offset of element `n` (R150). -/
def patOffset (p : Pattern) (n : Nat) : Int :=
  (List.zipWith (fun (i : Nat) (x : Nat × Int) => (i : Int) * x.2) (elemIndices (p.map (·.1)) n) p).foldl (· + ·) 0
/-- The least and the greatest offset of a pattern that has elements. -/
def patMin (p : Pattern) : Int := p.foldl (fun a x => a + min 0 (((x.1 : Int) - 1) * x.2)) 0
def patMax (p : Pattern) : Int := p.foldl (fun a x => a + max 0 (((x.1 : Int) - 1) * x.2)) 0

/-- The cores that MASK selects in the cluster of a core (Table 13.1). -/
def maskCores (core mask : Nat) : List Nat :=
  ((List.range 12).filter fun b => bit mask b).map fun b =>
    let t := b / 3
    coreNo (tileX core / 2 * 2 + t % 2) (tileY core / 2 * 2 + t / 2) (b % 3)

/-- The destination cores of a transfer; none of them for the single destination of DST (R303). -/
def xferCores (core : Nat) (fw : CpyField) (b : List Word) : List (Option Nat) :=
  let w := blockWord b 12
  if fw.mcast then (maskCores core (w % 2 ^ 12)).map some
  else if fw.ring then [some (bits w 26 16)]
  else [none]

/-- Whether β counts: AB is 1 and β is not +0. -/
def usesBeta (fw : CpyField) (b : List Word) : Bool := fw.ab && blockWord b 10 / 2 ^ 32 != 0

/-- Bytes that a transfer writes in all. -/
def xferTotal (core : Nat) (fw : CpyField) (b : List Word) : Nat :=
  patCount (blockPattern b 6) * copyBytes fw.df.toNat * (xferCores core fw b).length

/-- The first reason of Table 13.4 found at issue: 0 for none. -/
def cpyReason (s : State) (core : Nat) (launch : Ctx) (fw : CpyField) (b : List Word) : Nat :=
  let sf := fw.sf.toNat
  let df := fw.df.toNat
  let ps := blockPattern b 2
  let pd := blockPattern b 6
  let cores := xferCores core fw b
  let h := bits (blockWord b 12) 15 12
  let fits (a : Nat) (p : Pattern) (code : Nat) : Bool :=
    a % copyAlign code == 0 && p.all fun x => decide (x.1 ≤ 1) || x.2 % copyAlign code == 0
  let off := blockWord b 1 % 2 ^ 20
  if ((sf ≤ 3 ∨ df ≤ 3) ∧ (sf ≠ df ∨ fw.ab)) ∨ (usesBeta fw b ∧ (fw.ring ∨ fw.mcast)) then 1
  else if patCount ps * copyVals sf ≠ patCount pd * copyVals df ∨ 2 ^ 32 - 1 < patCount ps ∨ 2 ^ 32 - 1 < patCount pd then 2
  else if !fits (blockWord b 0) ps sf || !fits (blockWord b 1) pd df then 3
  else if cores.isEmpty
      || cores.any (fun c => match c with
        | some n => !inLaunch s launch n || (fw.ring && (!(ringOf s n h).valid || (ringOf s n h).prod != 0))
        | none => false)
      || (fw.mcast && !fw.ring && (bits (blockWord b 1) 63 44 != 0xF)) then 4
  else if fw.ring && decide (patCount pd ≠ 0) && cores.any (fun c => match c with
      | some n =>
        let r := ringOf s (ringOwner s n h) h
        decide ((off : Int) + patMin pd < 0) || decide ((r.slotBytes : Int) < off + patMax pd + copyBytes df)
      | none => false) then 5
  else 0

/-! ### CPY, CPY.CANCEL, CPY.STAT -/

/-- The parameter block, read as 13 LDD loads (R298). -/
def readBlock (s : State) (ea : Word) : Nat → Nat → Do (State × List Word)
  | 0, _ => .ok (s, [])
  | n + 1, i => do
    let (s, v) ← readHome s (opCtx s).asid (curLevel s == 0) (ea + w64 (8 * i)) 8 false
    let (s, l) ← readBlock s ea n (i + 1)
    .ok (s, w64 v :: l)

/-- TVAL of cause 0x27 (R300). -/
def cpyTval (id reason : Nat) : Word := w64 (id % 2 ^ 16 + reason % 2 ^ 8 * 2 ^ 16)

/-- Whether DONE asks for an interrupt, and for a barrier event (Table 13.2). -/
def doneIrq (fw : CpyField) : Bool := fw.done.getLsbD 0
def doneBar (fw : CpyField) : Bool := fw.done.getLsbD 1

/-- CPY's effect (R297 to R300). -/
def cpyOp (d a : GReg) (fw : CpyField) (s : State) : Do Done := do
  let ea := rg s a
  let core := agentNo s.cur.agent
  if ea.toNat % 8 ≠ 0 then trap 0x05 ea
  else if 16 ≤ (curCore s).xfers.length then .error (.hold s)
  else
    let (s, b) ← readBlock s ea 13 0
    let reason := cpyReason s core (opCtx s) fw b
    let handler := blockWord b 11 % 2 ^ 48
    if reason ≠ 0 then trap 0x27 (cpyTval 0 reason)
    else if doneIrq fw ∧ handler % 8 ≠ 0 then trap 0x05 (w64 handler)
    else
      let id := (curCore s).xferNext
      let (n, s) := newId s
      let x : Xfer := { id := id, who := curWho s n, asid := (opCtx s).asid, user := curLevel s == 0, block := b, fw := fw, launch := (opCtx s).launch, state := 1, flags := 0, bytes := 0, reason := 0, faultVa := 0, faultCause := 0, dests := (xferCores core fw b).map fun c => ⟨c, false, none, 0, none⟩, cache := [], shadow := [], homes := [] }
      let s := modCurCore s fun co => { co with
        xfers := co.xfers ++ [x]
        xferNext := if id = 0xFFFF then 1 else id + 1 }
      let s := if doneIrq fw then modCur s fun c => { c with cpyOpen := c.cpyOpen + 1 } else s
      ok (wgSlow s d (w64 id.toNat))

/-- CPY (R298). -/
def execCpy (d a : GReg) (fw : CpyField) (s : State) : Out :=
  issue { xForm (wR 0x1E d a 0 0) with gr := [a], gw := [d] } (cpyOp d a fw) s

/-- A transfer's source as an engine. -/
def xferSrc (ag : Agent) (x : Xfer) : EngSrc := ⟨agentNo ag, 1, x.who.id, x.asid, x.user, x.launch, x.who, w64 x.id.toNat⟩

/-- An activation has one completion interrupt fewer to come; one that waits for them in END is ready (R306). -/
def closeCpy (s : State) (x : Xfer) : State :=
  if !doneIrq x.fw then s
  else
    let s := modActivation s x.who.ctx x.who.gen fun c => { c with cpyOpen := c.cpyOpen - 1 }
    match findActivation s x.who.ctx x.who.gen with
    | some c => if (c.wait.map (·.kind)) = some 9 then wakeCtx s x.who.ctx x.who.gen else s
    | none => s

/-- A transfer that has ended leaves the engine, which keeps the status of the last 16 (R297). -/
def retire (s : State) (ag : Agent) (x : Xfer) (st : Nat) : State :=
  let s := modCore s ag fun co => { co with
    xfers := co.xfers.filter (·.id != x.id)
    xfersDone := ({ x with state := st, cache := [], shadow := [], dests := [] } :: co.xfersDone).take 16 }
  s.cores.foldl (fun s c => modCore s c.1 fun co => { co with rings := co.rings.map fun r =>
    { r with waiters := r.waiters.filter fun w => w.user != .copy ag x.id } }) s

/-- The end of a cancelled transfer (R306). -/
def cancelXfer (s : State) (ag : Agent) (x : Xfer) : State := closeCpy (retire s ag x 4) x

/-- Whether the issuing activation started a transfer. -/
def ownXfer (s : State) (x : Xfer) : Bool := x.who.ctx == s.cur && x.who.gen == (curCtx s).gen

/-- CPY.CANCEL's effect (R306). Every write that the engine has issued has been performed. -/
def cpyCancelOp (d a : GReg) (s : State) : Do Done :=
  let id : BitVec 16 := BitVec.ofNat 16 (rg s a).toNat
  let co := curCore s
  let core := agentNo s.cur.agent
  let rest (x : Xfer) : Word := w64 (xferTotal core x.fw x.block - x.bytes)
  match co.xfers.find? fun x => x.id == id && ownXfer s x with
  | some x => ok (wgSlow (cancelXfer s s.cur.agent x) d (rest x))
  | none =>
    match co.xfersDone.find? fun x => x.id == id && ownXfer s x with
    | some x => ok (wgSlow s d (if x.state = 3 then 0 else rest x))
    | none => ok (wgSlow s d 0x8000000000000000#64)

/-- CPY.CANCEL (R306). -/
def execCpyCancel (d a : GReg) (s : State) : Out :=
  issue { xForm (wR 0x1E d a 0 1) with gr := [a], gw := [d] } (cpyCancelOp d a) s

/-- CPY.STAT's value (R307, Table 13.8). -/
def cpyStatus (co : Core) (id : BitVec 16) (sel : Bool) : Word :=
  match (co.xfers ++ co.xfersDone).find? (·.id == id) with
  | none => 0
  | some x =>
    if sel then (if x.reason ≠ 0 ∨ x.faultCause ≠ 0 then w64 (x.faultVa % 2 ^ 48 + x.reason % 256 * 2 ^ 48) else 0)
    else w64 (x.bytes % 2 ^ 48 + x.flags % 16 * 2 ^ 57 + x.state % 8 * 2 ^ 61)

/-- CPY.STAT (R307). -/
def execCpyStat (d a : GReg) (sel : Bool) (s : State) : Out :=
  issue { xForm (wR 0x1E d a 0 2) with gr := [a], gw := [d] }
    (fun s => ok (wgSlow s d (cpyStatus (curCore s) (BitVec.ofNat 16 (rg s a).toNat) sel))) s

/-! ### What a transfer computes (R301, R302) -/

/-- Why a transfer stops: what an access met, or a block that is malformed or of another format (reason 6). -/
inductive XferStop where
  | access (e : EngStop)
  | block (va : Nat)
  deriving DecidableEq, Repr

/-- The bytes of a range, with their home addresses. -/
def readPieces (s : State) (x : EngSrc) : List (Nat × Nat) → Except XferStop (State × List Host.Cell)
  | [] => .ok (s, [])
  | (va, n) :: l =>
    match engRead s x va n with
    | .error e => .error (.access e)
    | .ok (s, a, v) => do
      let (s, r) ← readPieces s x l
      .ok (s, ((bytesOf v n).zipIdx.map fun b => (a + b.2, b.1)) ++ r)

/-- An element of `n` bytes. Where the transfer's own writes have replaced some of its bytes, it is the old value or
the new one (R302). -/
def readElem (s : State) (x : EngSrc) (shadow : List Host.Cell) (va n : Nat) : Except XferStop (State × Nat) := do
  let (s, l) ← readPieces s x (wordPieces n va n)
  if l.any fun b => shadow.any (·.1 == b.1) then
    let new := Config.overlapNew s.fresh
    let old (b : Host.Cell) : Byte := ((shadow.find? (·.1 == b.1)).map (·.2)).getD b.2
    .ok ({ s with fresh := s.fresh + 1 }, natOf (l.map fun b => if new then b.2 else old b))
  else .ok (s, natOf (l.map (·.2)))

/-- The values of an element (R58, R59, R301). -/
def elemValues (code va v : Nat) : Except XferStop (List Num) :=
  if copyMx code then
    match mxCheck (code - 8) v with
    | some _ => .error (.block va)
    | none => .ok (mxValues (code - 8) v)
  else .ok [decodeNum (copyFmt code) false v]

/-- The address of element `n` of a pattern. -/
def patAddr (base : Nat) (p : Pattern) (n : Nat) : Nat := (w64 base + i64 (patOffset p n)).toNat

/-- Source elements with the given numbers, as values in order. -/
def readValues (s : State) (x : EngSrc) (t : Xfer) (code : Nat) : List Nat → Except XferStop (State × List Num)
  | [] => .ok (s, [])
  | n :: l => do
    let va := patAddr (blockWord t.block 0) (blockPattern t.block 2) n
    let (s, v) ← readElem s x t.shadow va (copyBytes code)
    let vs ← elemValues code va v
    let (s, r) ← readValues s x t code l
    .ok (s, vs ++ r)

/-- The source values of destination element `n` (R301). -/
def sourceValues (s : State) (x : EngSrc) (t : Xfer) (n : Nat) : Except XferStop (State × List Num) := do
  let sf := t.fw.sf.toNat
  let vs := copyVals sf
  let vd := copyVals t.fw.df.toNat
  let first := n * vd / vs
  let count := if vd ≤ vs then 1 else vd / vs
  let (s, l) ← readValues s x t sf ((List.range count).map (first + ·))
  .ok (s, (l.drop (n * vd % vs)).take vd)

/-- A destination value: α·x + β·y, α·x, or x, and the invalid flag of a signalling operand (Table 13.5). -/
def copyValue (t : Xfer) (x : Num) (y : Option Num) : OpRes × FpFlags :=
  let w := blockWord t.block 10
  let al := decodeNum fp32 false (w % 2 ^ 32)
  let be := decodeNum fp32 false (w / 2 ^ 32)
  let sig (l : List Num) : FpFlags := if l.any (·.isSig) then 8 else 0
  if !t.fw.ab then (some x, 0)
  else match y with
    | none => (mulNum al x, sig [al, x])
    | some y =>
      let r : OpRes := match mulNum al x, mulNum be y with
        | some p, some q => addNum .rne p q
        | _, _ => none
      (r, sig [al, x, be, y])

/-- A destination element from its values: the code or block, and the flags (Table 13.5). -/
def packElem (t : Xfer) (xs : List Num) (ys : List (Option Num)) : Nat × FpFlags :=
  let df := t.fw.df.toNat
  let r := List.zipWith (copyValue t) xs ys
  if copyMx df then
    let v := r.map fun z => z.1.getD (.nan false false 0)
    scaleForBlock (df - 8) (fun _ => .rne) v
  else
    match r, xs with
    | (z, fl) :: _, x :: _ =>
      let c := if t.fw.ab then roundNum (copyFmt df) .rne false z else convertNum (copyFmt df) .rne false x
      (c.1, c.2 ||| fl)
    | _, _ => (0, 0)

/-- Destination element `n` as it is to be written at an address, and its flags. -/
def destElem (s : State) (x : EngSrc) (t : Xfer) (n va : Nat) : Except XferStop (State × Nat × FpFlags) := do
  let sf := t.fw.sf.toNat
  let df := t.fw.df.toNat
  if sf = df ∧ !t.fw.ab then
    let src := patAddr (blockWord t.block 0) (blockPattern t.block 2) n
    let (s, v) ← readElem s x t.shadow src (copyBytes sf)
    if copyMx sf ∧ (mxCheck (sf - 8) v).isSome then .error (.block src)
    else .ok (s, v, 0)
  else
    let (s, xs) ← sourceValues s x t n
    if usesBeta t.fw t.block then
      let (s, y) ← readElem s x [] va (copyBytes df)
      let ys ← elemValues df va y
      let r := packElem t xs (ys.map some)
      .ok (s, r.1, r.2)
    else
      let r := packElem t xs (xs.map fun _ => none)
      .ok (s, r.1, r.2)

/-- Bytes written in pieces: the state, the bytes performed, the bytes replaced, and what stopped the writing. -/
def writePieces (s : State) (x : EngSrc) (bs : List Byte) (done : Nat) (old : List Host.Cell) :
    List (Nat × Nat) → State × Nat × List Host.Cell × Option EngStop
  | [] => (s, done, old, none)
  | (va, n) :: l =>
    match engWrite s x va (bs.take n) with
    | .error e => (s, done, old, some e)
    | .ok (t, a) =>
      let was := (List.range n).map fun i => ((a + i, readByte s.mem (a + i)) : Host.Cell)
      let fresh := was.filter fun c => !old.any (·.1 == c.1)
      writePieces t x (bs.drop n) (done + n) (old ++ fresh) l

/-! ### How a transfer runs (R303) -/

/-- The address at which a destination takes element `n`: DST's own, the same offset on another core, or an offset
in the slot that it has been granted. -/
def destAddr (s : State) (t : Xfer) (d : XferDest) (n : Nat) : Nat :=
  let p := blockPattern t.block 6
  let dst := blockWord t.block 1
  match d.core with
  | none => patAddr dst p n
  | some c =>
    if t.fw.ring then
      let h := bits (blockWord t.block 12) 15 12
      let o := ringOwner s c h
      ((ringOf s o h).slotAddr o (d.slot.getD 0) + ((dst % 2 ^ 20 : Nat) + patOffset p n).toNat)
    else
      let a := patAddr dst p n
      a / 2 ^ 44 * 2 ^ 44 + c * 2 ^ 33 + a % 2 ^ 33

/-- A running transfer replaced. -/
def putXfer (s : State) (ag : Agent) (t : Xfer) : State :=
  modCore s ag fun co => { co with xfers := co.xfers.map fun y => if y.id = t.id then t else y }

/-- A transfer with what has stopped it. -/
def stopXfer (t : Xfer) (e : XferStop) : Xfer :=
  match e with
  | .block va => { t with reason := 6, faultVa := va }
  | .access (.translate va) => { t with reason := 7, faultVa := va }
  | .access (.refused va) => { t with reason := 8, faultVa := va }
  | .access (.failed va sram) => { t with faultCause := failCause sram, faultVa := va }
  | .access .later => t

/-- A destination replaced by another, or dropped when it is complete. -/
def putDest (t : Xfer) (d : XferDest) (e : Option XferDest) : Xfer :=
  { t with dests := t.dests.flatMap fun y => if y.core = d.core then e.toList else [y] }

/-- The homes of the bytes that a transfer has replaced for the first time. -/
def freshHomes (s : State) (l : List Host.Cell) : List Node :=
  (l.map fun c => if 0xF * 2 ^ 44 ≤ c.1 then Node.core ((c.1 - localAddr 0 0) / 2 ^ 33) else homeNode s c.1).dedup

/-- The next element of a destination, computed: β's read is no one step with the write (R302). -/
def elemStep (s : State) (ag : Agent) (t : Xfer) (d : XferDest) : Option State :=
  let found : Except XferStop (State × Nat × FpFlags) := match t.cache[d.next]? with
    | some v => .ok (s, v, 0)
    | none => destElem s (xferSrc ag t) t d.next (destAddr s t d d.next)
  match found with
  | .error (.access .later) => none
  | .error e => some (putXfer s ag (stopXfer t e))
  | .ok (s', v, fl) =>
    let cache := if t.fw.mcast ∧ t.cache.length = d.next then t.cache ++ [v] else t.cache
    some (putXfer s' ag (putDest { t with flags := t.flags ||| fl, cache := cache } d (some { d with elem := some v })))

/-- The next element of a destination, written. -/
def writeStep (s : State) (ag : Agent) (t : Xfer) (d : XferDest) (v : Nat) : Option State :=
  let size := copyBytes t.fw.df.toNat
  let r := writePieces s (xferSrc ag t) (bytesOf v size) 0 t.shadow (wordPieces size (destAddr s t d d.next) size)
  let t' : Xfer := { t with
    bytes := t.bytes + r.2.1
    shadow := r.2.2.1
    homes := (t.homes ++ freshHomes s (r.2.2.1.drop t.shadow.length)).dedup }
  match r.2.2.2 with
  | some .later => none
  | some e => some (putXfer r.1 ag (stopXfer t' (.access e)))
  | none => some (putXfer r.1 ag (putDest t' d (some { d with next := d.next + 1, elem := none })))

/-- One step of a destination: its slot is asked for, its next element is computed, or written, or its slot is
published. None when it must wait. -/
def destStep (s : State) (ag : Agent) (t : Xfer) (d : XferDest) : Option State :=
  let h := bits (blockWord t.block 12) 15 12
  match d.core, t.fw.ring, d.slot with
  | some c, true, none =>
    if d.asked then none
    else some (putXfer (engAsk s (ringOwner s c h) h (.copy ag t.id) .waite 1) ag (putDest t d (some { d with asked := true })))
  | core, ring, _ =>
    if patCount (blockPattern t.block 6) ≤ d.next then
      let s := match core, ring with
        | some c, true => engAdvance s (ringOwner s c h) h .advp 1
        | _, _ => s
      some (putXfer s ag (putDest t d none))
    else
      match d.elem with
      | none => elemStep s ag t d
      | some v => writeStep s ag t d v

/-- The destinations in the order in which the engine serves them: the one furthest behind first. -/
def servedDests (l : List XferDest) : List XferDest := sortBy (·.next) l

/-- Whether the activation of a transfer has been killed. -/
def xferKilled (s : State) (x : Xfer) : Bool :=
  match findActivation s x.who.ctx x.who.gen with
  | some c => c.killed
  | none => false

/-- COPY_TRANSFER_START's effect: the oldest transfer runs, and performs one more element at a destination that can
go on. -/
def copyStart (s : State) (ag : Agent) : State :=
  match (getCore s ag).xfers with
  | [] => s
  | t :: _ =>
    if xferKilled s t ∨ t.reason ≠ 0 ∨ t.faultCause ≠ 0 then s
    else
      let t := { t with state := 2 }
      ((servedDests t.dests).findSome? (destStep s ag t)).getD (putXfer s ag t)

/-- COPY_TRANSFER_START (R301 to R303). -/
def execCopyTransferStart (ag : Agent) (s : State) : Out := event (copyStart s ag)

/-- The barrier event at the end of a transfer: the bytes performed leave PEND (R258, R304). -/
def xferBar (s : State) (ag : Agent) (x : Xfer) : State :=
  if doneBar x.fw then barDecrement s (agentNo ag) x.fw.bar.toNat x.bytes x.homes else s

/-- The completion interrupt of a transfer (R304, R343): it joins the context's cause queue; where the queue is full
or the activation has ended, it does not come. -/
def xferIrq (s : State) (x : Xfer) : State :=
  if !doneIrq x.fw then s
  else
    let entry : CauseEntry :=
      ⟨0x28, w64 x.id.toNat, x.who.depth, w64 (blockWord x.block 11 % 2 ^ 48), w64 x.id.toNat, x.homes⟩
    let lost := match findActivation s x.who.ctx x.who.gen with
      | some c => decide (16 ≤ c.causes.length)
      | none => true
    let s := queueCause s x.who entry
    if lost then closeCpy s x else s

/-- COPY_TRANSFER_DONE's effect: a transfer of a killed activation is cancelled (R306); else the running one ends
once every destination has been written. -/
def copyDone (s : State) (ag : Agent) : State :=
  match (getCore s ag).xfers.find? (xferKilled s) with
  | some x => cancelXfer s ag x
  | none =>
    match (getCore s ag).xfers with
    | [] => s
    | x :: _ =>
      if x.state = 2 ∧ x.dests = [] ∧ x.reason = 0 ∧ x.faultCause = 0 then xferIrq (xferBar (retire s ag x 3) ag x) x
      else s

/-- COPY_TRANSFER_DONE (R304). -/
def execCopyTransferDone (ag : Agent) (s : State) : Out := event (copyDone s ag)

/-- COPY_TRANSFER_FAULT's effect: a transfer that has met a fault ends. -/
def copyFault (s : State) (ag : Agent) : State :=
  match (getCore s ag).xfers with
  | [] => s
  | x :: _ =>
    if x.reason = 0 ∧ x.faultCause = 0 then s
    else
      let s := closeCpy (xferBar (retire s ag x 5) ag x) x
      if x.faultCause ≠ 0 then raiseAsync s x.who x.faultCause (w64 x.id.toNat)
      else raiseAsync s x.who 0x27 (cpyTval x.id.toNat x.reason)

/-- COPY_TRANSFER_FAULT (R304). -/
def execCopyTransferFault (ag : Agent) (s : State) : Out := event (copyFault s ag)

end Sys2Proof.Machine
end

