-- ==== Sys2Proof/Machine/Ctrl.lean ====
section
/-! DEFINITION. The control cores: their CSRs, message ports and result queues, and the loads and stores by which they
reach the process image window (R14, R21, R202, R334 to R336). Of their instruction set, which is RISC-V's, the model has
what the spec says of it (log entry 118). -/

namespace Sys2Proof.Machine

/-! ### Control cores (R334 to R336) -/

/-- A control core's part changed. -/
def modCtrl (s : State) (c : Fin 8) (f : CtrlCore → CtrlCore) : State :=
  modDev s fun d => { d with ctrl := d.ctrl.set c (f d.ctrl[c]) }

/-- A read of vtakeno: it clears the take interrupt (R335). -/
def vtakenoGet (s : State) (c : Fin 8) : Word × State := (w64 (takeNo s), modCtrl s c fun x => { x with takeIrq := false })

/-- A read of vcause: it clears the device-cause interrupt (R335). -/
def vcauseGet (s : State) (c : Fin 8) : Word × State := ((s.dev.ctrl[c]).vcause, modCtrl s c fun x => { x with devIrq := false })

/-- Output-done signalled by a control core (R21, R335). -/
def signalDone (s : State) (c : Fin 8) : State := modCtrl s c fun x => { x with outdone := true }

/-- VTAKENO_READ (R335). -/
def execVtakenoRead (c : Fin 8) (s : State) : Out := let r := vtakenoGet s c; event { r.2 with devRead := r.1 }

/-- VCAUSE_READ (R335). -/
def execVcauseRead (c : Fin 8) (s : State) : Out := let r := vcauseGet s c; event { r.2 with devRead := r.1 }

/-- VOUTDONE (R335). -/
def execVoutdone (c : Fin 8) (s : State) : Out := event (signalDone s c)

/-- The slate of a control core's messages: vmpslate, or SLATENOW with origin 0x04 (Table 14.18). -/
def portSlate (s : State) (c : Fin 8) : Word :=
  let x := (s.dev.ctrl[c]).mpslate
  if x ≠ 0 then x else if s.dev.time.fired then mkSlate s (takeNo s) 0 4 else 0

/-- A store of `v` to SEND: the checks of Table 14.20, and the message. -/
def portSend (s : State) (c : Fin 8) (v : Nat) : State :=
  let x := s.dev.ctrl[c]
  let n := bits v 35 32
  let ty := bits v 31 16
  let core := v % 2 ^ 11
  let err (e : Nat) : State := modCtrl s c fun x => { x with err := e }
  if 8 < n then err 4
  else if 0xFFFE ≤ ty then err 5
  else if core % 4 = 3 then err 2
  else
    let t : BitVec 16 := BitVec.ofNat 16 ty
    let m : Message := ⟨t, t, portSlate s c, 0, x.data.toList.take n, .ctrl c.val, none, none⟩
    sendPkt (modCtrl s c fun x => { x with busy := true }) (.ctrl c.val) (.core core) 0 (.message m none none)

/-- MESSAGE_PORT_SEND (R336): the store stalls while the port's send entry is not free. -/
def execMessagePortSend (c : Fin 8) (v : Word) (s : State) : Out :=
  if (s.dev.ctrl[c]).busy then event s else event (portSend s c v.toNat)

/-- A read of STATUS: it clears ERR (Table 14.19). -/
def statusGet (s : State) (c : Fin 8) : Word × State :=
  let x := s.dev.ctrl[c]
  (w64 (b2n x.busy + x.err % 256 * 256), modCtrl s c fun x => { x with err := 0 })

/-- MESSAGE_PORT_STATUS_READ (R336). -/
def execMessagePortStatusRead (c : Fin 8) (s : State) : Out := let r := statusGet s c; event { r.2 with devRead := r.1 }

/-- Entries of a result queue that are stale at its head, with how many there are (R228, R336). -/
def dropStale (s : State) (maxage : Nat) : List (Word × Word) → List (Word × Word) × Nat
  | [] => ([], 0)
  | e :: l =>
    if e.2 != 0 && maxage != 255 && decide (maxage < slateAge s e.2) then
      let r := dropStale s maxage l
      (r.1, r.2 + 1)
    else (e :: l, 0)

/-- The stale entries at the head of result queue `q` discarded and counted. -/
def freshen (s : State) (c : Fin 8) (q : Fin 4) : State :=
  modCtrl s c fun x =>
    let r := dropStale s (x.maxage[q]) (x.results[q])
    { x with results := x.results.set q r.1, stale := x.stale.set q (Nat.min (x.stale[q] + r.2) 0xFFFF) }

/-- A load of POPS: the slate of the first fresh entry, or 0. -/
def popsGet (s : State) (c : Fin 8) (q : Fin 4) : Word × State :=
  let s := freshen s c q
  let l := (s.dev.ctrl[c]).results[q]
  (match l with
    | e :: _ => e.2
    | [] => 0, modCtrl s c fun x => { x with tested := x.tested.set q (!l.isEmpty) })

/-- A load of POPV: the value of the head entry, which leaves; without a POPS before it the age test comes first. -/
def popvGet (s : State) (c : Fin 8) (q : Fin 4) : Word × State :=
  let s := if (s.dev.ctrl[c]).tested[q] then s else freshen s c q
  let l := (s.dev.ctrl[c]).results[q]
  (match l with
    | e :: _ => e.1
    | [] => 0, modCtrl s c fun x => { x with results := x.results.set q l.tail, tested := x.tested.set q false })

/-- POPS (R336). -/
def execPops (c : Fin 8) (q : Fin 4) (s : State) : Out := let r := popsGet s c q; event { r.2 with devRead := r.1 }

/-- POPV (R336). -/
def execPopv (c : Fin 8) (q : Fin 4) (s : State) : Out := let r := popvGet s c q; event { r.2 with devRead := r.1 }

/-- RESULT_QUEUE_APPEND (R334): a full queue refuses the store. -/
def execResultQueueAppend (c : Fin 8) (q : Fin 4) (value slate : Word) (s : State) : Out :=
  event ((appendResult s (4 * c.val + q.val) value slate).getD s)

/-! ### What a control core reaches (R14, R335, R336) -/

/-- How many low bits of a number are set, up to `fuel`. -/
def trailingOnes : Nat → Nat → Nat
  | 0, _ => 0
  | n + 1, x => if x % 2 = 1 then trailingOnes n (x / 2) + 1 else 0

/-- The addresses that a PMP entry covers, as RISC-V gives them (log entry 118). -/
def pmpRange (x : CtrlCore) (i : Fin 16) : Option (Nat × Nat) :=
  let a := x.pmp[i].2.toNat % 2 ^ 54
  match bits x.pmp[i].1.toNat 4 3 with
  | 0 => none
  | 1 => some (if i.val = 0 then 0 else (x.pmp[i - 1]).2.toNat % 2 ^ 54 * 4, a * 4)
  | 2 => some (a * 4, a * 4 + 4)
  | _ =>
    let n := trailingOnes 54 a
    some (a / 2 ^ (n + 1) * 2 ^ (n + 3), (a / 2 ^ (n + 1) + 1) * 2 ^ (n + 3))

/-- Whether the PMP of a control core lets an access through: the first entry that covers some byte of it decides, and
must cover them all. Machine mode needs no entry. -/
def pmpAllows (x : CtrlCore) (a n : Nat) (write : Bool) : Bool :=
  let hit := (List.finRange 16).find? fun i => match pmpRange x i with
    | some (lo, hi) => decide (lo < a + n) && decide (a < hi)
    | none => false
  match hit with
  | none => !x.user
  | some i =>
    let g := x.pmp[i].1
    if !x.user && !g.getLsbD 7 then true
    else match pmpRange x i with
      | some (lo, hi) => decide (lo ≤ a) && decide (a + n ≤ hi) && g.getLsbD (if write then 1 else 0)
      | none => false

/-- An integer register of a control core, and a write of one: register 0 reads 0. -/
def CtrlCore.get (x : CtrlCore) (r : Fin 32) : Word := if r.val = 0 then 0 else x.x[r]
def CtrlCore.put (x : CtrlCore) (r : Fin 32) (v : Word) : CtrlCore := if r.val = 0 then x else { x with x := x.x.set r v }

/-- The code in mcause of an exception (log entry 118). -/
def CtrlTrap.code : CtrlTrap → Nat
  | .illegal => 2
  | .loadAccess => 5
  | .storeAccess => 7

/-- MIE, MPIE and MPP of mstatus at a trap: what was enabled and the mode are kept, and interrupts are off. -/
def trapStatus (m : Word) (user : Bool) : Word :=
  (m &&& ~~~0x1888#64) ||| w64 (b2n (m.getLsbD 3) * 2 ^ 7 + (if user then 0 else 3 * 2 ^ 11))

/-- A control core enters its machine mode at mtvec, with a cause in mcause and the PC in mepc. -/
def CtrlCore.enter (x : CtrlCore) (cause : Word) : CtrlCore :=
  { x with
    csrs := { x.csrs with mcause := cause, mepc := x.pc, mstatus := trapStatus x.csrs.mstatus x.user }
    pc := x.csrs.mtvec &&& ~~~3#64, user := false }

/-- An exception of a control core: its machine mode takes it. -/
def ctrlTrap (s : State) (c : Fin 8) (t : CtrlTrap) : State := modCtrl s c fun x => x.enter (w64 t.code)

/-- MRET: the mode and the interrupt enable of mstatus come back, and the core goes on at mepc. -/
def ctrlMret (s : State) (c : Fin 8) : State :=
  if (s.dev.ctrl[c]).user then ctrlTrap s c .illegal
  else modCtrl s c fun x =>
    let m : Word := x.csrs.mstatus
    { x with
      csrs := { x.csrs with mstatus := (m &&& ~~~0x1888#64) ||| w64 (b2n (m.getLsbD 7) * 2 ^ 3 + 2 ^ 7) }
      pc := x.csrs.mepc, user := bits m.toNat 12 11 == 0 }

/-- Where the message port stands, and its span. -/
def portBase : Nat := 0x200000000
/-- Where the process image window stands for a control core (R335). -/
def ctrlWindow : Nat := 0x100000000

/-- A load of a message-port register of 8 bytes (Table 14.19). -/
def portLoad (s : State) (c : Fin 8) (off : Nat) : Option (Word × State) :=
  let x := s.dev.ctrl[c]
  if off % 8 ≠ 0 then none
  else if off < 0x40 then some (x.data[Fin.ofNat 8 (off / 8)], s)
  else if off = 0x50 then some (statusGet s c)
  else if 0x60 ≤ off ∧ off < 0xA0 then
    let q := Fin.ofNat 4 ((off - 0x60) / 16)
    some (if off % 16 = 0 then popsGet s c q else popvGet s c q)
  else if 0xA0 ≤ off ∧ off < 0xC0 then
    let q := Fin.ofNat 4 ((off - 0xA0) / 8)
    some (w64 (x.stale[q] % 2 ^ 16 * 2 ^ 48 + x.maxage[q] % 256 * 2 ^ 40 + (x.results[q]).length), s)
  else none

/-- A store of a message-port register; none where the port has no such register. A store to SEND stalls until the
port's send entry is free (R336). -/
def portStore (s : State) (c : Fin 8) (off : Nat) (v : Word) : Option State :=
  if off % 8 ≠ 0 then none
  else if off < 0x40 then some (modCtrl s c fun x => { x with data := x.data.set (Fin.ofNat 8 (off / 8)) v })
  else if off = 0x40 then some (if (s.dev.ctrl[c]).busy then s else portSend s c v.toNat)
  else if 0xA0 ≤ off ∧ off < 0xC0 then
    some (modCtrl s c fun x => { x with maxage := x.maxage.set (Fin.ofNat 4 ((off - 0xA0) / 8)) (bits v.toNat 47 40) })
  else none

/-- Whether a load or store has one of RISC-V's sizes and is aligned to it. -/
def ctrlSize (a n : Nat) : Bool := (n == 1 || n == 2 || n == 4 || n == 8) && a % n == 0

/-- A load of a control core (R335): its value, and the state it leaves; none where the access faults. -/
def ctrlRead (s : State) (c : Fin 8) (a n : Nat) : Option (Nat × State) :=
  let x := s.dev.ctrl[c]
  if !pmpAllows x a n false then none
  else if a < 0x80000 then some (readN x.tcm a n, s)
  else if portBase ≤ a then
    if n = 8 then (portLoad s c (a - portBase)).map fun r => (r.1.toNat, r.2) else none
  else if ctrlWindow ≤ a ∧ imageAdmits (a - ctrlWindow) (.ld n) then
    some (readN s.mem (a - ctrlWindow + imageBase) n, s)
  else none

/-- A store of a control core (R335); none where the access faults. A late one to the output image lands in its back
buffer (R21). -/
def ctrlWrite (s : State) (c : Fin 8) (a n : Nat) (v : Nat) : Option State :=
  let x := s.dev.ctrl[c]
  let bs := bytesOf v n
  if !pmpAllows x a n true then none
  else if a < 0x80000 then some (modCtrl s c fun x => { x with tcm := writeBytes x.tcm a bs })
  else if portBase ≤ a then
    if n = 8 then portStore s c (a - portBase) (w64 v) else none
  else if ctrlWindow ≤ a ∧ imageAdmits (a - ctrlWindow) (.st bs) then
    some (homeWrite s (a - ctrlWindow + imageBase) bs 6 0 none)
  else none

/-- A control core's load, of 1, 2, 4 or 8 bytes; a refused one raises the load access fault. -/
def ctrlLoad (s : State) (c : Fin 8) (rd : Fin 32) (a n : Nat) : State :=
  if !ctrlSize a n then s
  else match ctrlRead s c a n with
    | some (v, s) => modCtrl s c fun x => x.put rd (w64 v)
    | none => ctrlTrap s c .loadAccess

/-- A control core's store; a refused one raises the store access fault. -/
def ctrlStore (s : State) (c : Fin 8) (rs : Fin 32) (a n : Nat) : State :=
  if !ctrlSize a n then s
  else (ctrlWrite s c a n ((s.dev.ctrl[c]).get rs).toNat).getD (ctrlTrap s c .storeAccess)

/-- A control core's atomic in the window, of 4 or 8 bytes (R333): the old value goes to `rd`, sign-extended. -/
def ctrlAmo (s : State) (c : Fin 8) (rd rs : Fin 32) (a : Nat) (k : AmoK) (wide : Bool) : State :=
  let n := if wide then 8 else 4
  let x := s.dev.ctrl[c]
  let v := (x.get rs).toNat % 2 ^ (8 * n)
  if k = .cas ∨ a % n ≠ 0 then s
  else if ctrlWindow ≤ a ∧ a < portBase ∧ pmpAllows x a n true ∧ imageAdmits (a - ctrlWindow) (.amo k n v 0) then
    let r := homeAmo s (a - ctrlWindow + imageBase) k n v 0 6 0 none
    modCtrl r.2 c fun x => x.put rd (if wide then w64 r.1 else (BitVec.ofNat 32 r.1).signExtend 64)
  else ctrlTrap s c .storeAccess

/-- The interrupts 16, 17 and 18 of a control core that are set (R335). -/
def CtrlCore.set (x : CtrlCore) : BitVec 3 :=
  BitVec.ofNat 3 (b2n x.takeIrq + 2 * b2n x.devIrq + 4 * b2n (x.results.toList.any fun l => !l.isEmpty))

/-- Those that mie lets through. -/
def CtrlCore.interrupts (x : CtrlCore) : BitVec 3 := x.set &&& x.mie

/-- A control core takes the lowest of its platform interrupts that mie enables, in user mode or with MIE set. -/
def ctrlInterrupt (s : State) (c : Fin 8) : State :=
  let x := s.dev.ctrl[c]
  if !(x.user || x.csrs.mstatus.getLsbD 3) then s
  else match (List.range 3).find? fun i => x.interrupts.getLsbD i with
    | some i => modCtrl s c fun x => x.enter (w64 (2 ^ 63 + 16 + i))
    | none => s

/-- The die of a control core (Table 1.8). -/
def dieOfCtrl (c : Fin 8) : Nat := c.val / 4

/-- A read of a CSR of Table 14.18, or of mie and the trap CSRs, which are machine-level. -/
def ctrlCsrGet (s : State) (c : Fin 8) (num : Nat) : Option (Word × State) :=
  let x := s.dev.ctrl[c]
  if x.user then none
  else match num with
    | 0xFC0 => some (vtakenoGet s c)
    | 0xFC1 => some (if s.dev.time.fired then mkSlate s (takeNo s) 0 1 else 0, s)
    | 0xFC2 => let r := readTimeOn s (dieOfCtrl c); some (w64 r.1, r.2)
    | 0xFC3 => some (vcauseGet s c)
    | 0x7C0 => some (w64 (b2n x.outdone), s)
    | 0x7C1 => some (x.mpslate, s)
    | 0x300 => some (x.csrs.mstatus, s)
    | 0x304 => some (w64 (x.mie.toNat * 2 ^ 16), s)
    | 0x305 => some (x.csrs.mtvec, s)
    | 0x340 => some (x.csrs.mscratch, s)
    | 0x341 => some (x.csrs.mepc, s)
    | 0x342 => some (x.csrs.mcause, s)
    | 0x344 => some (w64 (x.set.toNat * 2 ^ 16), s)
    | _ => none

/-- A read of a CSR into a register; one that there is not, or that user mode makes, is an illegal instruction. -/
def ctrlCsrRead (s : State) (c : Fin 8) (rd : Fin 32) (num : Nat) : State :=
  match ctrlCsrGet s c num with
  | some (v, s) => modCtrl s c fun x => x.put rd v
  | none => ctrlTrap s c .illegal

/-- A write of a CSR: voutdone and vmpslate are read-write, and mie and the trap CSRs are. -/
def ctrlCsrWrite (s : State) (c : Fin 8) (rs : Fin 32) (num : Nat) : State :=
  let x := s.dev.ctrl[c]
  let v := x.get rs
  if x.user then ctrlTrap s c .illegal
  else if num = 0x7C0 then (if v.getLsbD 0 then signalDone s c else s)
  else if num = 0x7C1 then modCtrl s c fun x => { x with mpslate := v }
  else if num = 0x300 then modCtrl s c fun x => { x with csrs := { x.csrs with mstatus := v &&& 0x1888#64 } }
  else if num = 0x304 then modCtrl s c fun x => { x with mie := BitVec.ofNat 3 (v.toNat / 2 ^ 16) }
  else if num = 0x305 then modCtrl s c fun x => { x with csrs := { x.csrs with mtvec := v } }
  else if num = 0x340 then modCtrl s c fun x => { x with csrs := { x.csrs with mscratch := v } }
  else if num = 0x341 then modCtrl s c fun x => { x with csrs := { x.csrs with mepc := v &&& ~~~1#64 } }
  else if num = 0x342 then modCtrl s c fun x => { x with csrs := { x.csrs with mcause := v } }
  else ctrlTrap s c .illegal

/-- Machine mode writes a PMP entry; a locked one stays, as does the address below a locked range's top (log entry
118). -/
def ctrlPmp (s : State) (c : Fin 8) (i : Fin 16) (cfg : BitVec 8) (addr : Word) : State :=
  let x := s.dev.ctrl[c]
  let lockedTop := decide (i.val < 15) && (x.pmp[i + 1]).1.getLsbD 7 && bits (x.pmp[i + 1]).1.toNat 4 3 == 1
  if x.user then ctrlTrap s c .illegal
  else if x.pmp[i].1.getLsbD 7 then s
  else modCtrl s c fun x => { x with pmp := x.pmp.set i (cfg, if lockedTop then x.pmp[i].2 else addr) }

/-- Machine mode writes the enables of the three interrupts. -/
def ctrlMie (s : State) (c : Fin 8) (v : BitVec 3) : State :=
  if (s.dev.ctrl[c]).user then ctrlTrap s c .illegal else modCtrl s c fun x => { x with mie := v }

/-- FENCE holds a control core until its accesses have been performed (R202): those to the window are at once, and a
message when its port is free. -/
def ctrlFenceDone (s : State) (c : Fin 8) : Bool := !(s.dev.ctrl[c]).busy

end Sys2Proof.Machine
end

