-- ==== Sys2Proof/Machine/Domains.lean ====
section
/-! DEFINITION. Interleave domains and their switches, page migration and invalidation, uncorrectable errors, and the
retirement of tiles (R188 to R191, R219, R220, R353, R385, R414). -/

namespace Sys2Proof.Machine

/-! ### Domain switches (R188 to R190) -/

/-- HASHMASK_WRITE (R189): held while a switch is in progress. -/
def execHashmaskWrite (n : Fin 16) (v : Word) (s : State) : Out :=
  if s.dev.dom.switch.isSome then event s else event (hashmaskSet s n v)

/-- DOMSEL_WRITE (R189). -/
def execDomselWrite (j : Fin 30) (v : Word) (s : State) : Out :=
  if s.dev.dom.switch.isSome then event s else event (domselSet s j v)

/-- L2CTL_WRITE (R188). -/
def execL2ctlWrite (v : Word) (s : State) : Out :=
  if s.dev.dom.switch.isSome then event s else event (l2ctlSet s v)

/-- DOMSTAT_READ (R188). -/
def execDomstatRead (s : State) : Out := let r := domstatGet s; event { r.2 with devRead := r.1 }

/-- A packet to a slice for an address that `f` moves, sent to the new address at its home; `fwd` says that the old home
forwards it. -/
def Packet.redirect (s : State) (f : Nat → Option Nat) (fwd : Bool) (p : Packet) : Packet :=
  match p.body, p.dst with
  | .access a, .slice _ =>
    match f a.addr with
    | some pa => { p with dst := homeNode s pa, body := .access { a with addr := pa }, fwd := p.fwd || fwd }
    | none => p
  | _, _ => p

/-- The network with each access to some physical addresses forwarded to another address, at its home: an access keeps
its source and its place in the order, and is performed before those that arrive directly (R190, R219). What an
interface sends again goes to the new home by itself. -/
def redirect (s : State) (f : Nat → Option Nat) : State :=
  let packet (p : Packet) : Packet := p.redirect s f false
  { modDev s fun d => { d with lost := d.lost.map (Packet.redirect s f true) } with
    net := s.net.map (Packet.redirect s f true)
    cores := s.cores.map fun (c : Agent × Core) => (c.1, { c.2 with
      journal := c.2.journal.map fun (e : JEntry) =>
        let q := packet e.packet
        { e with packet := q, home := if q = e.packet then e.home else q.dst }
      writeBacks := c.2.writeBacks.map fun (w : WriteBack) => match f w.addr with
        | some pa => { w with home := homeNode s pa, addr := pa }
        | none => w }) }

/-- DOMAIN_SWITCH_APPLY (R190 steps 2 and 3): the new values are in force, and accesses on their way to a moving line
go to its new home. -/
def execDomainSwitchApply (s : State) : Out :=
  match s.dev.dom.switch with
  | some w =>
    if w.applied then event s
    else
      let s := modDev s fun d => { d with dom := { d.dom with
        mask := w.newMask, sel := w.newSel, switch := some { w with applied := true } } }
      event (redirect s fun pa => if w.moves s.dev.dom pa then some pa else none)
  | none => event s

/-- LOSING_SLICE_SIGNAL (R190 steps 3 to 5): the dirty sectors of moving lines have been written back, and the new homes
perform what they held. -/
def execLosingSliceSignal (s : State) : Out :=
  match s.dev.dom.switch with
  | some w =>
    if !w.applied || w.signalled then event s
    else
      let moved (x : L2Line) : Bool := w.moves s.dev.dom (256 * x.line)
      event (modDev s fun d => { d with dom := { d.dom with
        l2 := d.dom.l2.filter fun x => !moved x
        switch := some { w with signalled := true, count := d.dom.l2.countP fun x => moved x && x.dirty != 0 } } })
  | none => event s

/-- A write of SPLIT_DOMAIN (R414). -/
def DomWrite.run (x : DomWrite) (s : State) : State := match x with
  | .mask n v => hashmaskSet s n v
  | .sel j v => domselSet s j v

/-- The next write of the command SPLIT_DOMAIN, once no switch is in progress: a write that is refused stops the
sequence with status 3, and the end of the last switch completes it with status 0 (R414). -/
def splitNext (s : State) : State :=
  match s.dev.dom.split with
  | none => s
  | some (tag, []) => hostDone (modDev s fun d => { d with dom := { d.dom with split := none } }) tag 0
  | some (tag, w :: l) =>
    let s := w.run s
    if s.dev.dom.switch.isSome then modDev s fun d => { d with dom := { d.dom with split := some (tag, l) } }
    else hostDone (modDev s fun d => { d with dom := { d.dom with split := none } }) tag 3

/-- DOMAIN_SWITCH_END (R190 step 6): what the old homes have forwarded has been performed. -/
def execDomainSwitchEnd (s : State) : Out :=
  match s.dev.dom.switch with
  | some w =>
    if !w.signalled || s.net.any (·.fwd) || s.dev.lost.any (·.fwd) then event s
    else event (splitNext (modDev s fun d => { d with dom := { d.dom with switch := none, moved := w.count } }))
  | none => event s

/-! ### Translations and pages (R219, R220, R353) -/

/-- A dirty sector of an L1 written to its home, where no access that the core has sent before is on its way: its
bytes stay with the loads that its core has issued (R206). -/
def storeSector (s : State) (a : Agent) (pa : Nat) (x : Sector) : State :=
  if x.dirty then
    let s := modCore s a fun co => { co with fills := keepBytes co.fills pa x }
    let k := wbOwner s a
    homeMasked s pa x.masked (writerKind a) (writerNo a) (some ⟨k, (getCtx s k).gen, 0, 0⟩)
  else s

/-- The lines of a core's L1 that meet a test, by line number, written back and invalidated; sectors on their way for
them no longer fill them. -/
def flushLines (s : State) (a : Agent) (p : Nat → Bool) : State :=
  let s := ((getCore s a).l1.filter fun l => p l.line).foldl (fun s l =>
    (List.finRange 8).foldl (fun s i => storeSector s a (l.line * 256 + 32 * i.val) (l.sectors[i])) s) s
  modCore s a fun co => { co with
    l1 := co.l1.filter fun l => !p l.line
    fills := co.fills.map fun f => if p (f.pa / 256) then { f with live := false } else f }

/-- The same for every core. -/
def flushEverywhere (s : State) (p : Nat → Bool) : State := s.cores.foldl (fun s c => flushLines s c.1 p) s

/-- Whether an INVPG removes a translation (R353). -/
def Invpg.drops (v : Invpg) (t : Tlb) : Bool :=
  match v.mode with
  | 0 => t.vpn == v.va % 2 ^ 48 / 2 ^ t.shift && (if t.global then v.globals else t.asid == v.asid)
  | 1 => !t.global && t.asid == v.asid
  | 2 => !t.global
  | _ => true

/-- Every translation that meets a test dropped from the TLBs, the cluster caches and the guest port's. -/
def dropTranslations (s : State) (p : Tlb → Bool) : State :=
  let s := { s with cores := s.cores.map fun c => (c.1, { c.2 with tlb := c.2.tlb.filter fun t => !p t }) }
  modDev s fun d => { d with
    clusterTlb := d.clusterTlb.filter fun t => !p t.2
    guest := { d.guest with tlb := d.guest.tlb.filter fun t => !p t } }

/-- Whether an access through a translation may still be on its way: a packet, or a stream's store that has resolved. -/
def accessesUnderWay (s : State) : Bool :=
  ((s.net ++ s.dev.lost).any fun p => match p.body with
    | .access _ => true
    | .fillReply _ _ _ _ => true
    | _ => false)
    || s.ctxs.any fun x => x.2.streams.any fun st => st.2.outq.any fun e => match e.2 with
      | .phys _ _ _ => true
      | _ => false

/-- INVPG_ACK (R220): the translations are dropped, every access that used them has been performed, and the CL1 lines
have been written back and invalidated in every core (log entry 30: of every page). -/
def execInvpgAck (k : CtxKey) (s : State) : Out :=
  match s.dev.invpg with
  | some v =>
    if v.who.ctx ≠ k || accessesUnderWay s then event s
    else
      let s := flushEverywhere (dropTranslations s v.drops) fun _ => true
      event (landReply (modDev s fun d => { d with invpg := none }) v.who v.id 0)
  | none => event s

/-- The entry of a page table that maps an address: its physical address, the entry and the level (R176 to R179). -/
def leafEntry (m : List Host.Cell) (va table : Nat) : Nat → Option (Nat × Nat × Nat)
  | 0 => none
  | n + 1 =>
    let level := 3 - n
    let idx := va / 2 ^ (39 - 9 * level) % 512
    let e := tableEntry m table va level
    let at_ := if level = 3 ∧ bit e 11 then table + 8 * (idx / 16 * 16) else table + 8 * idx
    if !bit e 0 || malformed e level || strayC64 m table va level then none
    else if bit e 1 then some (at_, e, level)
    else leafEntry m va (bits e 46 12 * 2 ^ 12) n

/-- The level-0 table of an ASID, when translation is enabled and the directory holds it (R179). -/
def topTable (s : State) (asid : BitVec 12) : Option Nat :=
  let root := s.dev.ptroot.toNat
  let w := readN s.mem (bits root 46 15 * 2 ^ 15 + 8 * asid.toNat) 8
  if bit root 0 && bit w 0 then some (bits w 46 12 * 2 ^ 12) else none

/-- An address of an old page at its place in the new one. -/
def inPage (old new size : Nat) (pa : Nat) : Option Nat :=
  if old ≤ pa ∧ pa < old + size then some (new + (pa - old)) else none

/-- A leaf entry: the address space and the virtual address that it maps, where it stands, its value, and the physical
address and the size of its page (R176 to R178). -/
structure Leaf where
  asid : BitVec 12
  va : Nat
  at_ : Nat
  entry : Nat
  base : Nat
  shift : Nat
  deriving DecidableEq, Repr

/-- The leaf entries of a table with `n` levels that maps the virtual addresses from `va` up. -/
def leavesOf (m : List Host.Cell) (asid : BitVec 12) (va table : Nat) : Nat → List Leaf
  | 0 => []
  | n + 1 =>
    let level := 3 - n
    (List.range 512).flatMap fun i =>
      let at_ := va + i * 2 ^ (39 - 9 * level)
      let e := tableEntry m table at_ level
      let base := bits e 46 12 * 2 ^ 12
      if !bit e 0 || malformed e level || strayC64 m table at_ level || (level == 3 && bit e 11 && i % 16 != 0) then []
      else if bit e 1 then [⟨asid, at_, table + 8 * i, e, base, leafShift level (bit e 11)⟩]
      else leavesOf m asid at_ base n

/-- The leaf entries of every address space. -/
def allLeaves (s : State) : List Leaf :=
  (List.range 4096).flatMap fun n => match topTable s (BitVec.ofNat 12 n) with
    | some t => leavesOf s.mem (BitVec.ofNat 12 n) 0 t 4
    | none => []

/-- Every virtual mapping of a physical address, of every address space. -/
def allMappings (s : State) (pa : Nat) : List Nat :=
  (allLeaves s).filterMap fun l => if l.base ≤ pa ∧ pa < l.base + 2 ^ l.shift then some (l.va + (pa - l.base)) else none

/-- The failed sectors of a page, each written as 0 at its new place and recorded with its physical address and every
virtual mapping; their entries are freed (R191). -/
def clearFailed (s : State) (old new size : Nat) : State :=
  let bad := s.dev.failed.filter fun f => (inPage old new size f.1).isSome
  let s := modDev s fun d => { d with failed := d.failed.filter fun f => !bad.contains f }
  bad.foldl (fun s f =>
    record (homeWrite s (new + (f.1 - old)) (List.replicate 32 0) 5 0 none) (failCause f.2) 0 (f.1 :: allMappings s f.1)) s

/-- A page that was being retired is retired, and a spare page is used up for each 4 KiB (R191, R386). -/
def retirePage (s : State) (old size : Nat) : State :=
  let pages := (List.range (size / 4096)).map (old / 4096 + ·)
  modDev s fun d =>
    let left := d.sparePages - pages.length
    { d with
      blocked := d.blocked.filter fun p => !pages.contains p
      retired := d.retired ++ pages
      sparePages := left
      replace := if left = 0 then d.replace ||| 4 else d.replace }

/-- The lines of every core's L1 that meet a test leave it: their write-backs follow what the core has sent before. -/
def sendLines (s : State) (p : Nat → Bool) : State :=
  s.cores.foldl (fun s c => ((getCore s c.1).l1.filter fun l => p l.line).foldl (fun s l => flushLine s c.1 l.line) s) s

/-- Every leaf entry whose page lies in the old page, changed to the new one by FW3 (R219 step 3, R224), and its
translations dropped (R220). -/
def moveLeaves (s : State) (ls : List Leaf) (f : Nat → Option Nat) : State :=
  let s := ls.foldl (fun s l => match f l.base with
    | some b => homeWrite s ((f l.at_).getD l.at_) (bytesOf (l.entry - l.base + b) 8) 5 0 none
    | none => s) s
  dropTranslations s fun t => ls.any fun l => (f l.base).isSome && t.vpn == l.va / 2 ^ t.shift && (t.global || t.asid == l.asid)

/-- The places on the network of the accesses to the old page that have not reached its old home yet, and that it forwards
as stragglers: a free choice for each, but that an access follows an earlier straggler of its source (R219 step 5; log
entry 82). -/
def stragglersOf (s : State) (f : Nat → Option Nat) : List (Nat × Packet) :=
  s.net.zipIdx.foldl (fun l x =>
    if x.1.fwd ∨ x.1.redirect s f true = x.1 then l
    else if l.any (fun q => q.2.sameWay x.1) ∨ Config.pick (s.fresh + x.2) % 2 = 1 then l ++ [(x.2, x.1)] else l) []

/-- A straggler sent on to its new home: the next packet of its source to it. -/
def sendOn (f : Nat → Option Nat) (s : State) (x : Nat × Packet) : State :=
  let q := x.2.redirect s f false
  let q := { q with seq := nextSeq s q.src q.dst }
  { modDev s fun d => { d with seqs := aset (q.src, q.dst) (q.seq + 1) d.seqs } with net := s.net.set x.1 q }

/-- A page moved from one physical address to another (R219 steps 2 to 5): the CL1 lines of the old page are written back,
it is copied, its entries are changed and its translations dropped, and what was queued or is on its way goes to the new
page, those write-backs too: they are in the old home's queue. -/
def movePage (s : State) (g : Migration) : State :=
  let old := g.old
  let new := g.new
  let size := g.size
  let ls := allLeaves s
  let s := sendLines s fun ln => (inPage old new size (ln * 256)).isSome
  let s := triggersCopy { s with mem := copyPage s.mem old new size } new size
  let retiring := s.dev.failed.any (fun f => (inPage old new size f.1).isSome)
    || s.dev.blocked.any fun p => (inPage old new size (p * 4096)).isSome
  let s := clearFailed (l2Use s new size true) old new size
  let s := moveLeaves s ls (inPage old new size)
  let s := (stragglersOf s (inPage old new size)).foldl (sendOn (inPage old new size)) { s with fresh := s.fresh + s.net.length }
  let s := redirect s (inPage old new size)
  let s : State := { s with
    dev := { s.dev with migrations := s.dev.migrations.erase g }
    cores := s.cores.map fun (c : Agent × Core) => (c.1, { c.2 with
      watches := c.2.watches.map fun w => match inPage old new size w.lo with
        | some lo => { w with lo := lo }
        | none => w })
    ctxs := s.ctxs.map fun (x : CtxKey × Ctx) => (x.1, { x.2 with
      streams := x.2.streams.map fun st => (st.1, { st.2 with
        outq := st.2.outq.map fun q => match q.2 with
          | .phys pa pol lvl => (q.1, .phys ((inPage old new size pa).getD pa) pol lvl)
          | t => (q.1, t) }) }) }
  if retiring then retirePage s old size else s
where
  /-- The bytes of the old page at the new one. -/
  copyPage (m : List Host.Cell) (old new size : Nat) : List Host.Cell :=
    (m.filter fun c => decide (old ≤ c.1) && decide (c.1 < old + size)).foldl
      (fun t c => writeByte t (new + (c.1 - old)) c.2)
      (m.filter fun c => decide (c.1 < new) || decide (new + size ≤ c.1))

/-- Whether a range of DRAM meets a page that is on its way, or the place that it goes to. -/
def inMigration (s : State) (a n : Nat) : Bool :=
  s.dev.migrations.any fun g => (decide (g.old < a + n) && decide (a < g.old + g.size))
    || (decide (g.new < a + n) && decide (a < g.new + g.size))

/-- PAGE_MIGRATION (R219 step 1): the old home blocks the page that maps an address of an ASID, which FW3 moves to an aligned
page of DRAM that it does not overlap. -/
def execPageMigration (asid : BitVec 12) (va : Word) (newPa : Word) (s : State) : Out :=
  let v := va.toNat % 2 ^ 48
  let new := newPa.toNat
  match (topTable s asid).bind fun t => leafEntry s.mem v t 4 with
  | none => event s
  | some (at_, e, level) =>
    let size := 2 ^ leafShift level (bit e 11)
    let old := bits e 46 12 * 2 ^ 12
    if fwWorks s 3 ∧ new % size = 0 ∧ new + size ≤ dramEnd ∧ old + size ≤ dramEnd ∧ (new + size ≤ old ∨ old + size ≤ new)
        ∧ inMigration s old size = false ∧ inMigration s new size = false then
      event (modDev s fun d => { d with migrations := d.migrations ++ [⟨old, new, size⟩] })
    else event s

/-! ### Uncorrectable errors (R191) -/

/-- FW4 retires a way of the L2 slice whose SRAM has failed at an address: its lines that no longer fit leave it, and
their dirty sectors are in DRAM (R191). -/
def retireWay (s : State) (a : Nat) : State :=
  modDev s fun d =>
    let n := sliceOf d.dom a
    let dom := { d.dom with lostWays := n :: d.dom.lostWays }
    let over_ (x : L2Line) : Bool := x.slice == n
      && decide (l2Ways dom n ≤ ((dom.l2.takeWhile (· != x)).countP fun y => y.slice == n && l2Set y.line == l2Set x.line))
    { d with dom := { dom with l2 := dom.l2.filter fun x => !over_ x } }

/-- The home lists a failed sector, or, with 64 listed, blocks its page and asks FW3 to retire it (R191). -/
def listSector (s : State) (a : Nat) (sram : Bool) : State :=
  let node := homeOf s a
  let full := decide (64 ≤ s.dev.failed.countP fun f => homeOf s f.1 == node)
  if s.dev.failed.any (·.1 == a) then s
  else
    let s := modDev s fun d => { d with failed := d.failed ++ [(a, sram)] }
    let s := if sram && decide (a < dramEnd) && fwWorks s 4 then retireWay s a else s
    if full && decide (a < dramEnd) then
      let (v, s) := freshWord (modDev s fun d => { d with blocked := addSorted (a / 4096) d.blocked })
      raiseDev s 3 (failCause sram) v
    else s

/-- UNCORRECTABLE_ERROR (R191): the sector is listed; a consumer other than a load takes the cause later. TVAL is open
(log entry 16). -/
def execUncorrectableError (home : Nat) (sram : Bool) (by_ : Option CtxKey) (s : State) : Out :=
  let s := listSector s (home / 32 * 32) sram
  match by_ with
  | none => event s
  | some k =>
    let (v, s) := freshWord s
    event (raiseAsync s ⟨k, (getCtx s k).gen, (getCtx s k).depth, 0⟩ (failCause sram) v)

/-- An error that cannot be corrected stands in an accumulator until it is written whole (R294). -/
def accError (s : State) (k : CtxKey) (acc : Fin 2) : State :=
  let t : CtxKey × Gen × Nat := (k, (getCtx s k).gen, acc.val)
  modCore s k.agent fun co => { co with badTiles := t :: co.badTiles.filter (· ≠ t) }

/-! ### Tiles (R385) -/

/-- TILE_RETIRE (R385): while FW4 works, the launches that hold a core of the tile end first, and the host is told; then a
spare takes its place. -/
def execTileRetire (x : Fin 32) (y : Fin 16) (s : State) : Out :=
  let cs := tileCores x.val y.val
  let holders := s.dev.launches.filter fun l => l.cores.any cs.contains
  if !fwWorks s 4 then event s
  else
    let s := modDev s fun d => { d with retiring := (x.val, y.val) :: d.retiring.filter (· != (x.val, y.val)) }
    event (mapRetiring ((holders.filter fun l => !l.ending).foldl (fun s l =>
      beginEnd (modDev s fun d => { d with host := { d.host with terminated := d.host.terminated ++ [l.la] } }) l.la none) s))

end Sys2Proof.Machine
end

