-- ==== Sys2Proof/Machine/Guest.lean ====
section
/-! DEFINITION. The guest socket: submitted requests and their answers, pre-emption, and the guest's accesses to package
memory; and how an access from outside the package is performed (R365 to R373, R375). -/

namespace Sys2Proof.Machine

/-! ### Accesses from outside (R202, R224, R238, R369, R375) -/

/-- What an access from outside meets: its home holds it, it is refused, or it is performed. -/
inductive Outside where
  | held
  | refused
  | done (s : State)
  deriving DecidableEq, Repr

/-- Whether an access is one that a link carries: at most 64 bytes, within an aligned block of 64. -/
def outsideFormed (a : OutsideAccess) : Bool :=
  decide (0 < a.size) && decide (a.va % 64 + a.size ≤ 64) && (match a.store with
    | some l => l.length == a.size
    | none => true)

/-- What an access returns to the one that made it; none when it is refused. -/
def returned (s : State) (x : Option (List Byte)) : State :=
  modDev s fun d => { d with host := { d.host with returned := x } }

/-- An access at a physical address, by a source of a kind of R224. -/
def outsidePhys (s : State) (a : OutsideAccess) (pa kind : Nat) : Outside :=
  let node := homeNode s pa
  if homeBusy s pa then .held
  else match a.store with
    | none =>
      if !outerReads s node pa a.size || (failedIn s pa a.size).isSome then .refused
      else .done (returned s (some (bytesOf (homeValue s node pa a.size) a.size)))
    | some bs =>
      if !outerWrites s node pa bs then .refused
      else if node = .image ∧ imageBase + 0x810000 ≤ pa ∧ pa < imageBase + 0x810200 then
        match appendResult s ((pa - imageBase - 0x810000) / 16) (w64 (natOf bs)) (w64 (natOf (bs.drop 8))) with
        | some s => .done (returned s (some []))
        | none => .refused
      else .done (returned (homeWrite s pa bs kind 0 none) (some []))

/-- An access at a core's local space, for a launch: the role and the windows are checked, and a write sets its words
full (R214, R369). -/
def outsidePool (s : State) (a : OutsideAccess) (core off kind : Nat) (launch : Option Nat) : Outside :=
  let at_ := localAddr core off
  match ownerCheck s core off a.size (if a.store.isSome then .wr else .rd) none false launch with
  | .later => .held
  | .role => .refused
  | .window => .refused
  | .perform =>
    match a.store with
    | none =>
      if (failedIn s at_ a.size).isSome then .refused else .done (returned s (some (readBytes s.mem at_ a.size)))
    | some bs => .done (returned (fillWords (homeWrite s at_ bs kind 0 none) at_ bs.length) (some []))

/-- An access of a port with a translation of its address. -/
def outsideAccess (s : State) (a : OutsideAccess) (look : Do (State × Tlb)) (user : Bool) (kind : Nat)
    (launch : Option Nat) : Outside :=
  if 2 ^ 48 ≤ a.va then .refused
  else if bits a.va 47 44 = 0xF then
    if bits a.va 32 20 ≠ 0 || bits a.va 43 33 % 4 == 3 then .refused
    else outsidePool s a (bits a.va 43 33) (bits a.va 19 0) kind launch
  else match look with
    | .error (.hold _) => .held
    | .error _ => .refused
    | .ok (s, t) =>
      if t.allows user (if a.store.isSome then .wr else .rd) then
        outsidePhys s a (t.ppn * 2 ^ t.shift + a.va % 2 ^ t.shift) kind
      else .refused

/-! ### Requests (R366, R367) -/

/-- The port changed. -/
def modGuest (s : State) (f : GuestPort → GuestPort) : State := modDev s fun d => { d with guest := f d.guest }

/-- A guest queue changed. -/
def modGq (s : State) (q : Fin 64) (f : GuestQueue → GuestQueue) : State :=
  modGuest s fun g => { g with queues := g.queues.set q (f g.queues[q]) }

/-- Outstanding requests of a queue. -/
def reqsOut (g : GuestPort) (q : Fin 64) : Nat := g.reqs.countP (·.q == q)

/-- A word of a packet. -/
def pktWord (p : List Word) (i : Nat) : Nat := ((p[i]?).getD 0).toNat

/-- Whether an address is a core-local word of a tile core. -/
def localWord (v : Nat) : Bool :=
  v / 2 ^ 44 == 0xF && bits v 32 20 == 0 && bits v 43 33 % 4 != 3 && v % 8 == 0

/-- Whether the port takes the fields that the program writes in a packet (R367). Types 0xFFFE and 0xFFFF are no message's
own, so a packet that asks for one as its completion message is not taken (R225; log entry 124). -/
def packetFormed (p : List Word) : Bool :=
  let w0 := pktWord p 0
  decide (w0 % 256 < 0xF0) && bits w0 31 30 == 0 && bits w0 15 14 == 0 && bits (pktWord p 2) 63 48 == 0
    && bits (pktWord p 3) 63 43 == 0 && bits (pktWord p 3) 15 0 == 0 && (!bit w0 28 || localWord (pktWord p 2))
    && (!bit w0 29 || decide (bits (pktWord p 3) 31 16 < 0xFFFE))

/-- Whether queue `q` takes a packet of a launch (R366). -/
def queueTakes (g : GuestPort) (q : Fin 64) (launch : Option Nat) : Bool :=
  let x := g.queues[q]
  x.valid && launch == some x.launch && !x.held && decide (reqsOut g q < x.depth) && g.en && g.up

/-- The packet as the port passes it on: SEQ, ASID and QUEUE of word 0, the slate, and SRC are the port's (Table
16.6). -/
def stampPacket (p : List Word) (q : Fin 64) (x : GuestQueue) (slate : Word) (src : Nat) : List Word :=
  let w0 := pktWord p 0
  let w3 := pktWord p 3
  w64 (bits w0 63 48 * 2 ^ 48 + x.seq.toNat * 2 ^ 32 + bits w0 29 28 * 2 ^ 28 + x.asid.toNat * 2 ^ 16 + q.val * 2 ^ 8
      + w0 % 256) :: slate :: w64 (pktWord p 2) :: w64 (src % 2 ^ 11 * 2 ^ 32 + bits w3 31 16 * 2 ^ 16) :: p.drop 4

/-- The eight words of 64 bytes. -/
def wordsOf (bs : List Byte) : List Word := (List.range (bs.length / 8)).map fun i => w64 (natOf ((bs.drop (8 * i)).take 8))

/-- GUEST_SUBMIT (R366): the VST at index `n` submits its packet, or is refused with cause 0x29. -/
def execGuestSubmit (n : Nat) (s : State) : Out :=
  match takePkt s n with
  | some (⟨_, .guest, _, .access a, _, _⟩, t) =>
    match a.op with
    | .st bs =>
      if a.addr < submitBase ∨ bs.length ≠ 64 then event s
      else
        let q := Fin.ofNat 64 ((a.addr - submitBase) / 64)
        let g := t.dev.guest
        let x := g.queues[q]
        let p := wordsOf bs
        if !queueTakes g q a.launch || !packetFormed p then event (refuse t .guest a 0x29 (w64 a.va))
        else
          let p := stampPacket p q x a.slate (agentNo a.src)
          let t := modGq t q fun x => { x with seq := x.seq + 1 }
          let t := modGuest t fun g => { g with reqs := g.reqs ++ [⟨q, x.seq, a.who, p⟩], sent := p :: g.sent }
          match a.jn with
          | some j => event (sendPkt t .guest (nodeOf a.src) 1 (.ack j))
          | none => event t
    | _ => event s
  | _ => event s

/-! ### Answers (R368, R370) -/

/-- The outstanding request that a packet of the guest names. -/
def findReq (s : State) (q : Fin 64) (n : BitVec 16) : Option GuestReq :=
  s.dev.guest.reqs.find? fun r => r.q == q && r.seq == n

/-- The request is outstanding no longer. -/
def dropReq (s : State) (r : GuestReq) : State := modGuest s fun g => { g with reqs := g.reqs.erase r }

/-- A packet of the guest that is discarded; FW4 records it. -/
def discardPacket (s : State) (kind : Nat) (q : Fin 64) (n : BitVec 16) : State := record s 0 0 [kind, q.val, n.toNat]

/-- The completion message of a request (R368). -/
def completionMessage (s : State) (r : GuestReq) (status : Word) : State :=
  let w3 := pktWord r.packet 3
  let ty : BitVec 16 := BitVec.ofNat 16 (bits w3 31 16)
  let m : Message := ⟨ty, ty, w64 (pktWord r.packet 1), 0, [status, w64 r.seq.toNat], .guest,
    some (s.dev.guest.queues[r.q]).launch, none⟩
  sendPkt s .guest (.core (bits w3 42 32)) 0 (.message m none none)

/-- The completion write of a request; none while its owner holds it. One that the owner refuses is recorded. The Completion is
a release at PACKAGE scope: the word's waiters see every write of the guest before it (R372). -/
def completionWrite (s : State) (r : GuestReq) (status : Word) : Option State :=
  let a := pktWord r.packet 2
  let core := bits a 43 33
  let off := bits a 19 0
  match ownerCheck s core off 8 .at_ none false (some (s.dev.guest.queues[r.q]).launch) with
  | .later => none
  | .role => some (record s 0x0A core [a])
  | .window => some (record s 0x08 core [a])
  | .perform =>
    let at_ := localAddr core off
    let t := (fePerform s at_ (.stfo status) 9 0 none).2
    some (modGuest t fun g => { g with released := addSorted at_ g.released })

/-- A Completion for a request (Table 16.7). -/
def completeReq (s : State) (r : GuestReq) (status : Word) : Option State :=
  let w0 := pktWord r.packet 0
  let t := dropReq s r
  (if bit w0 28 then completionWrite t r status else some t).map fun t =>
    if bit w0 29 then completionMessage t r status else t

/-- GUEST_COMPLETION (R368). -/
def execGuestCompletion (q : Fin 64) (n : BitVec 16) (status : Word) (s : State) : Out :=
  match findReq s q n with
  | some r => event ((completeReq s r status).getD s)
  | none => event (discardPacket s 1 q n)

/-- A Fault for a request (Table 16.7): cause 0x2F for its issuer, and a record. -/
def faultReq (s : State) (r : GuestReq) (status : Word) : State :=
  let tval : Word := w64 (r.seq.toNat * 2 ^ 48 + r.q.val * 2 ^ 40 + status.toNat % 2 ^ 40)
  raiseAsync (record (dropReq s r) 0x2F (agentNo r.who.ctx.agent) [tval.toNat]) r.who 0x2F tval

/-- GUEST_FAULT (R368). -/
def execGuestFault (q : Fin 64) (n : BitVec 16) (status : Word) (s : State) : Out :=
  match findReq s q n with
  | some r => event (faultReq s r status)
  | none => event (discardPacket s 2 q n)

/-- GUEST_REQUEST_TIMEOUT (R370): a request that has been outstanding for TMO ends as a fault with a status of ones. -/
def execGuestRequestTimeout (q : Fin 64) (n : BitVec 16) (s : State) : Out :=
  match findReq s q n with
  | some r => event (faultReq s r (BitVec.allOnes 64))
  | none => event s

/-! ### Pre-emption (R371) -/

/-- Whether the port asks the guest to give up queue `q`: FW2 holds its launch, or a killed activation waits for its
requests. -/
def preemptDue (s : State) (q : Fin 64) : Bool :=
  let x := s.dev.guest.queues[q]
  let holds := s.cores.any fun c => c.2.queues.toList.any fun y =>
    y.valid && y.launch == some x.launch && y.holdReqs.contains 0
  let killed := s.dev.guest.reqs.any fun r => r.q == q && (match findActivation s r.who.ctx r.who.gen with
    | some c => c.killed
    | none => false)
  x.valid && !x.held && (holds || killed)

/-- GUEST_PREEMPT_REQUEST (R371). -/
def execGuestPreemptRequest (q : Fin 64) (s : State) : Out :=
  if preemptDue s q then event (modGq s q fun x => { x with held := true, preempting := true }) else event s

/-- The answer to a pre-emption request; a packet that answers none is discarded. -/
def answerPreempt (s : State) (kind : Nat) (q : Fin 64) : State :=
  if (s.dev.guest.queues[q]).preempting then modGq s q fun x => { x with preempting := false }
  else discardPacket s kind q 0

/-- GUEST_DRAINED (R368, R371). -/
def execGuestDrained (q : Fin 64) (s : State) : Out := event (answerPreempt s 3 q)
/-- GUEST_SAVED (R368, R371). -/
def execGuestSaved (q : Fin 64) (s : State) : Out := event (answerPreempt s 4 q)

/-- GUEST_PREEMPT_TIMEOUT (R371): cause 0x30, BLOCK, and every request of the queue is cancelled. -/
def execGuestPreemptTimeout (q : Fin 64) (s : State) : Out :=
  if (s.dev.guest.queues[q]).preempting then
    let (v, s) := freshWord s
    let s := raiseDev s 2 0x30 v
    let s := modGq s q fun x => { x with block := true, preempting := false }
    event (modGuest s fun g => { g with reqs := g.reqs.filter fun r => r.q != q })
  else event s

/-! ### The guest's accesses and its link (R365, R369) -/

/-- The launch of the valid queues of an ASID; none where no queue has it, or one of them is blocked. -/
def guestLaunch (g : GuestPort) (asid : BitVec 12) : Option Nat :=
  let l := g.queues.toList.filter fun x => x.valid && x.asid == asid
  if l.any (·.block) then none else (l.head?).map (·.launch)

/-- The port's translation of an address: from its own 256, or a walk (R369). -/
def guestTranslation (s : State) (asid : BitVec 12) (va kind : Nat) : Do (State × Tlb) :=
  let put (s : State) (t : Tlb) : State := modGuest s fun g => { g with tlb := (t :: g.tlb.filter (fun e => !(e == t))).take 256 }
  match s.dev.guest.tlb.find? (·.hits asid va) with
  | some t => .ok (put s t, t)
  | none => (walk s asid va kind).map fun t => (put s t, t)

/-- An access refused to the guest, with cause 0x31 for FW3. -/
def refuseGuest (s : State) : State :=
  let (v, s) := freshWord s
  raiseDev (returned s none) 3 0x31 v

/-- GUEST_ACCESS (R369): while the port accepts accesses, a user-level access in the ASID of a valid queue. -/
def execGuestAccess (asid : BitVec 12) (a : OutsideAccess) (s : State) : Out :=
  let g := s.dev.guest
  if !g.en || !g.up || !outsideFormed a then event s
  else match guestLaunch g asid with
    | none => event (refuseGuest s)
    | some la =>
      match outsideAccess s a (guestTranslation s asid a.va (b2n a.store.isSome)) true 9 (some la) with
      | .held => event s
      | .refused => event (refuseGuest s)
      | .done t => event t

/-- GUEST_LINK_TRAINING (R365): discovery succeeds, or the link is lost. -/
def execGuestLinkTraining (up : Bool) (s : State) : Out := event (modGuest s fun g => { g with up := up })

end Sys2Proof.Machine
end

