-- ==== Sys2Proof/Machine/Launching.lean ====
section
/-! DEFINITION. Launch images: how FW2 reads, checks and places one (R118, R133 to R135, R226, R251 to R253, R260, R348,
R356, R376, R382, R398 to R401, R419). -/

namespace Sys2Proof.Machine

/-- A refusal of a launch: the status of the command, the step of R401, and the record's index. -/
abbrev Placing (α : Type) := Except (Nat × Nat × Nat) α

/-- A check of a step. -/
def ensure (b : Bool) (step idx : Nat) : Placing Unit := if b then .ok () else .error (3, step, idx)
/-- A check of the header or the directory. -/
def formed (b : Bool) : Placing Unit := if b then .ok () else .error (2, 1, 0)

/-! ### The header, the directory and the records (R399, R400) -/

/-- Where an address of the host's memory lies in the host window. -/
def hostAddr (a : Word) : Nat := 0x400000000000 + a.toNat % 2 ^ 44

/-- A launch image in memory: its fields are read from where it stands. -/
structure Img where
  mem : List Host.Cell
  base : Nat
  deriving DecidableEq, Repr

/-- `n` bytes at an offset. -/
def Img.at_ (i : Img) (off n : Nat) : Nat := readN i.mem (i.base + off) n

/-- A section: its kind, records, bytes and offset (Table 18.11). -/
structure Sect where
  kind : Nat
  count : Nat
  bytes : Nat
  off : Nat
  deriving DecidableEq, Repr

/-- The directory. -/
def Img.sects (i : Img) : List Sect := (List.range (i.at_ 0x2C 2)).map fun n =>
  let w0 := i.at_ (0x40 + 16 * n) 8
  let w1 := i.at_ (0x48 + 16 * n) 8
  ⟨w0 % 256, bits w0 63 32, bits w1 63 32, bits w1 31 0⟩

/-- The bytes of a record of a kind (Table 18.12); 0 for groups, whose records vary. -/
def recBytes (kind : Nat) : Nat :=
  match kind with
  | 1 => 2 | 2 => 32 | 3 => 24 | 4 => 16 | 5 => 8 | 6 => 0 | 7 => 32 | 8 => 48 | _ => 8

/-- The offsets of a section's records; none where the image has no such section. -/
def Img.recs (i : Img) (kind : Nat) : List Nat :=
  match i.sects.find? (·.kind == kind) with
  | some x => (List.range x.count).map fun n => x.off + recBytes kind * n
  | none => []

/-- Whether the header keeps Table 18.10. -/
def Img.headFormed (i : Img) : Bool :=
  let tokens := i.at_ 0x0A 2
  let budget := i.at_ 0x10 4
  let arena := i.at_ 0x28 4
  let nsect := i.at_ 0x2C 2
  i.at_ 0 4 == 0x4E4C4356 && i.at_ 4 2 == 1 && decide (i.at_ 6 2 < 4) && decide (i.at_ 8 2 < 0x1000)
    && decide (1 ≤ tokens) && decide (tokens ≤ 768) && i.at_ 0x0D 1 == 0 && decide (1 ≤ budget) && decide (budget ≤ 0xFFFFFFFE)
    && i.at_ 0x18 8 % 8 == 0 && (arena &&& 0xFF40) == 0 && decide (2 ≤ nsect)
    && decide (nsect ≤ 10) && i.at_ 0x2E 18 == 0

/-- The bytes of a group's record with `k` members: word 0, and the members padded to 8 bytes. -/
def groupRecBytes (k : Nat) : Nat := 8 + (2 * k + 7) / 8 * 8

/-- The bytes of `n` group records from an offset. -/
def Img.groupBytes (i : Img) : Nat → Nat → Nat
  | 0, _ => 0
  | n + 1, off =>
    let b := groupRecBytes (bits (i.at_ off 8) 42 32)
    b + i.groupBytes n (off + b)

/-- Whether the directory keeps Table 18.11: kinds, reserved bits and bounds. -/
def Img.dirFormed (i : Img) : Bool :=
  let l := i.sects
  let n := l.length
  l.zipIdx.all (fun x =>
      bits (i.at_ (0x40 + 16 * x.2) 8) 31 8 == 0 && decide (1 ≤ x.1.kind) && decide (x.1.kind ≤ 10) && x.1.off % 8 == 0
        && decide (0x40 + 16 * n ≤ x.1.off)
        && x.1.bytes == (if x.1.kind = 6 then i.groupBytes x.1.count x.1.off else recBytes x.1.kind * x.1.count)
        && (l.countP (·.kind == x.1.kind)) == 1)
    && l.any (·.kind == 1) && l.any (·.kind == 2)

/-- A segment. -/
structure Seg where
  va : Nat
  file : Nat
  size : Nat
  off : Nat
  perms : Nat
  deriving DecidableEq, Repr

/-- The segments. -/
def Img.segs (i : Img) : List Seg := (i.recs 2).map fun o =>
  let w1 := i.at_ (o + 8) 8
  ⟨i.at_ o 8, w1 % 2 ^ 32, bits w1 63 32, i.at_ (o + 16) 8, i.at_ (o + 24) 8⟩

/-- The pages of a segment. -/
def Seg.pages (g : Seg) : Nat := (g.size + 4095) / 4096
/-- The policy of a segment. -/
def Seg.pol (g : Seg) : Nat := bits g.perms 5 3

/-- A handler's binding. -/
structure Hand where
  addr : Nat
  ty : BitVec 16
  queue : Nat
  task : Bool
  pri : Nat
  maxage : Nat
  depth : Nat
  take : Nat
  act : Nat
  reserved : Bool
  deriving DecidableEq, Repr

/-- The bindings. -/
def Img.hands (i : Img) : List Hand := (i.recs 3).map fun o =>
  let w0 := i.at_ o 8
  let w1 := i.at_ (o + 8) 8
  let w2 := i.at_ (o + 16) 8
  ⟨w0 % 2 ^ 48, BitVec.ofNat 16 (bits w0 63 48), w1 % 64, bit w1 6, bits w1 9 8, bits w1 17 10, bits w1 25 18, bits w1 63 32,
    w2 % 2 ^ 32, bit w1 7 || bits w1 31 26 != 0 || bits w2 63 32 != 0⟩

/-- A declared region, its size rounded up to 256-byte units. -/
structure RegionRec where
  size : Nat
  cls : Nat
  ckpt : Bool
  digest : Bool
  ctl : Word
  reserved : Bool
  deriving DecidableEq, Repr

/-- The regions. -/
def Img.regs (i : Img) : List RegionRec := (i.recs 4).map fun o =>
  let w0 := i.at_ o 8
  let w1 := i.at_ (o + 8) 8
  ⟨(w0 % 2 ^ 32 + 255) / 256, bits w0 33 32, bit w0 34, bit w0 35,
    w64 (w1 % 256 * 2 ^ 40 + bits w1 8 8 * 2 ^ 33 + bits w1 9 9 * 2 ^ 32 + bits w1 31 16 * 2 ^ 16),
    bits w0 63 36 != 0 || bits w1 15 10 != 0 || bits w1 63 32 != 0⟩

/-- A declared ring. -/
structure RingRec where
  n : Nat
  slots : Nat
  slotb : Nat
  prod : Nat
  cons : Nat
  reserved : Bool
  deriving DecidableEq, Repr

/-- The rings as their records stand. -/
def Img.ringRecs (i : Img) : List RingRec := (i.recs 5).map fun o =>
  let w := i.at_ o 8
  ⟨w % 16, bits w 15 8, bits w 26 16, bits w 29 28, bits w 31 30, bits w 7 4 != 0 || bit w 27 || bits w 63 32 != 0⟩
/-- The rings in number order. -/
def Img.rings (i : Img) : List RingRec := (List.range 16).flatMap fun n => i.ringRecs.filter (·.n == n)

/-- The groups from an offset: index, whether the ASID is the group's own, the ASID, and the members. -/
def Img.groupsFrom (i : Img) (asid : BitVec 12) : Nat → Nat → List Group
  | 0, _ => []
  | n + 1, off =>
    let w := i.at_ off 8
    let k := bits w 42 32
    let g : Group := ⟨w % 256, if bit w 8 then BitVec.ofNat 12 (bits w 23 12) else asid,
      (List.range k).map fun j => i.at_ (off + 8 + 2 * j) 2⟩
    g :: i.groupsFrom asid n (off + groupRecBytes k)

/-- The groups of a launch with an ASID. -/
def Img.groups (i : Img) (asid : BitVec 12) : List Group :=
  match i.sects.find? (·.kind == 6) with
  | some x => i.groupsFrom asid x.count x.off
  | none => []

/-- A declared gate: its index, and its words. -/
structure GateRec where
  idx : Nat
  w0 : Nat
  w1 : Nat
  w2 : Nat
  group : Option Nat
  deriving DecidableEq, Repr

/-- The gates. -/
def Img.gates (i : Img) : List GateRec := (i.recs 7).map fun o =>
  let w3 := i.at_ (o + 24) 8
  ⟨w3 % 256, i.at_ o 8, i.at_ (o + 8) 8, i.at_ (o + 16) 8, if bit w3 16 then some (bits w3 15 8) else none⟩

/-- The distribution tables (R118). -/
def Img.dists (i : Img) : List DistTable := (i.recs 8).map fun o =>
  ⟨i.at_ o 8 % 32, w64 (i.at_ (o + 8) 8), (List.range 4).map fun k => w64 (i.at_ (o + 16 + 8 * k) 8)⟩

/-- The cores. -/
def Img.cores (i : Img) : List Nat := (i.recs 1).map fun o => i.at_ o 2

/-- The bytes of the image, to the end of its last part. -/
def Img.length (i : Img) : Nat :=
  let m := i.sects.foldl (fun n x => Nat.max n (x.off + x.bytes)) (0x40 + 16 * i.at_ 0x2C 2)
  i.segs.foldl (fun n g => Nat.max n (g.off + g.file)) m

/-! ### The checks (R401) -/

/-- Launches that a core serves. -/
def served (s : State) (core : Nat) : Nat := s.dev.launches.countP fun l => l.cores.contains core

/-- The splits of a core that a placement keeps to: the launch's own where the core serves no other, and otherwise the
core's. While a reshape of another launch runs they are the old and the new one: nothing is placed in a bank that changes
(R139). -/
def splitsFor (s : State) (split : Nat × Nat × Nat × Nat) (core : Nat) : List (Nat × Nat × Nat × Nat) :=
  let co := getCore s (.tile core)
  if served s core = 0 then [split] else [co.counts, governing co]

/-- Step 3: the core set. -/
def checkCores (s : State) (cs : List Nat) : Placing Unit := do
  ensure (!cs.isEmpty) 3 0
  for x in cs.zipIdx do
    ensure (decide (x.1 < 2048) && x.1 % 4 != 3 && decide (served s x.1 < 4)
      && (match cs[x.2 + 1]? with
        | some y => decide (x.1 < y)
        | none => true)) 3 x.2

/-- Step 4: the segments. A segment must be one that an address can reach, and its bytes lie in the segment. -/
def checkSegs (s : State) (asid : BitVec 12) (l : List Seg) : Placing Unit := do
  let shared := s.dev.launches.any fun x => x.asid == asid
  for x in l.zipIdx do
    let g := x.1
    ensure (g.va % 4096 == 0 && decide (g.va + 4096 * g.pages ≤ 0xF00000000000) && decide (g.file ≤ g.size)
      && decide (g.off < 2 ^ 32) && g.off % 8 == 0 && decide (g.perms < 64) && decide (g.pol ≤ 2) && !(bit g.perms 2 && g.pol == 2)) 4 x.2
    ensure ((l.take x.2).all fun h => decide (g.va + 4096 * g.pages ≤ h.va) || decide (h.va + 4096 * h.pages ≤ g.va)) 4 x.2
    ensure (!(shared && (List.range g.pages).any fun p => match walk s asid (g.va + 4096 * p) 0 with
      | .ok _ => true
      | .error (.hold _) => true
      | .error _ => false)) 4 x.2

/-- The queue numbers that a live launch uses on one of some cores. -/
def usedQueues (s : State) (cs : List Nat) : List Nat :=
  (List.range 64).filter fun q => cs.any fun c =>
    let x := (getCore s (.tile c)).queues[Fin.ofNat 64 q]
    x.valid && x.launch.isSome

/-- The numbers of the bindings, in order: a task's own, and for a concurrent queue the lowest that no task of the launch
and no other launch uses (R226). -/
def queueNumbers : List Hand → List Nat → List (Nat × Hand)
  | [], _ => []
  | h :: l, free =>
    if h.task then (h.queue, h) :: queueNumbers l free
    else match free with
      | [] => (64, h) :: queueNumbers l []
      | n :: r => (n, h) :: queueNumbers l r

/-- The bindings of an image on its cores. -/
def bindings (s : State) (i : Img) : List (Nat × Hand) :=
  let used := usedQueues s i.cores
  let tasks := (i.hands.filter (·.task)).map (·.queue)
  queueNumbers i.hands ((List.range 64).filter fun n => !used.contains n && !tasks.contains n)

/-- Step 5: the queues. A handler is 8-byte aligned (Table 10.2), and no record gives the budget that only BUDGET sets
(R90). -/
def checkQueues (s : State) (i : Img) : Placing Unit := do
  let used := usedQueues s i.cores
  for x in i.hands.zipIdx do
    ensure (!x.1.reserved && x.1.addr % 8 == 0 && x.1.act != 0xFFFFFFFF && (if x.1.task then !used.contains x.1.queue else x.1.queue == 0)
      && !(x.1.task && (i.hands.take x.2).any fun h => h.task && h.queue == x.1.queue)) 5 x.2
  for x in (bindings s i).zipIdx do
    ensure (decide (x.1.1 < 64)) 5 x.2

/-- The first of `count` headers of a core that no launch's block holds; none where no such block is free (R135). -/
def headerBlock (co : Core) (count : Nat) : Option Nat :=
  (List.range (65 - count)).find? fun f => co.regionBlocks.all fun b =>
    decide (f + count ≤ b.first) || decide (b.first + b.count ≤ f)

/-- The headers that belong to launches on a core. -/
def ownedRegions (co : Core) : List Region :=
  ((validRegions co).filter fun r => co.regionBlocks.any fun b => decide (b.first ≤ r.1) && decide (r.1 < b.first + b.count)).map
    (·.2)

/-- The bases of regions placed in order (R135); none where one does not fit. -/
def regionBases (lo hi : Nat) : List RegionRec → List (Nat × Nat) → Option (List Nat)
  | [], _ => some []
  | r :: l, taken =>
    match fitRange lo hi (256 * r.size) taken with
    | none => none
    | some b => (regionBases lo hi l ((b, 256 * r.size) :: taken)).map (b :: ·)

/-- The ranges that a reshape keeps for the regions that it moves (R136). -/
def keptPlaces (co : Core) : List (Nat × Nat) := match co.reshape with
  | some r => r.places.map fun p => (p.2, (co.regions[Fin.ofNat 64 p.1]).bytes)
  | none => []

/-- The bases of an image's regions on a core. -/
def basesOn (s : State) (l : List RegionRec) (split : Nat × Nat × Nat × Nat) (core : Nat) : Option (List Nat) :=
  let ks := splitsFor s split core
  let co := getCore s (.tile core)
  regionBases ((ks.map scratchLo).foldl Nat.max 0) ((ks.map scratchHi).foldl Nat.min 1048576) l
    ((ownedRegions co).map (fun r => (r.base, r.bytes)) ++ keptPlaces co)

/-- Step 5: the regions. One fails for which no header, or no room, is left beside those before it. -/
def checkRegions (s : State) (i : Img) (split : Nat × Nat × Nat × Nat) : Placing Unit := do
  for x in i.regs.zipIdx do
    ensure (!x.1.reserved && decide (x.1.cls ≤ 2) && decide (x.2 < 64)) 5 x.2
  for c in i.cores do
    for n in List.range i.regs.length do
      ensure ((headerBlock (getCore s (.tile c)) (n + 1)).isSome && (basesOn s (i.regs.take (n + 1)) split c).isSome) 5 n

/-- Whether a chunk of a size in 256-byte units keeps R356. -/
def arenaFits (i : Img) : Bool :=
  let a := i.at_ 0x28 4
  let chunk := bits a 31 16
  if !bit a 7 then true
  else match i.regs[a % 64]? with
    | some r => r.cls == 0 && chunk % 4 == 0 && decide (4 ≤ chunk) && decide (chunk ≤ 256) && decide (2 ≤ r.size / chunk)
        && decide (r.size / chunk ≤ 64)
    | none => false

/-- ARENA of a launch's activations (Table 15.17). -/
def arenaReg (i : Img) : Word :=
  let a := i.at_ 0x28 4
  let chunk := bits a 31 16
  match i.regs[a % 64]? with
  | some r => if bit a 7 then w64 (2 ^ 63 + r.size / chunk * 2 ^ 32 + chunk * 2 ^ 16 + a % 64) else 0
  | none => 0

/-- The lowest aligned offset of 64 bytes where `n` bytes fit beside some ranges (R260). -/
def fitSlots (lo hi n : Nat) (taken : List (Nat × Nat)) : Option Nat :=
  let starts := ((lo :: taken.map fun t => (t.1 + t.2 + 63) / 64 * 64).filter fun x =>
    decide (lo ≤ x) && decide (x + n ≤ hi) && taken.all fun t => decide (x + n ≤ t.1) || decide (t.1 + t.2 ≤ x))
  match starts with
  | [] => none
  | x :: l => some (l.foldl Nat.min x)

/-- The bytes of a ring's slots. -/
def RingRec.bytes (r : RingRec) : Nat := r.slots * (64 * r.slotb)

/-- Where the tile store begins under a split. -/
def storeLo (k : Nat × Nat × Nat × Nat) : Nat := (1 + k.1 + k.2.1 + k.2.2.1) * 16384

/-- The bases of rings placed in order in a tile store; none where one does not fit. -/
def ringBases (lo hi : Nat) : List RingRec → List (Nat × Nat) → Option (List Nat)
  | [], _ => some []
  | r :: l, taken =>
    match fitSlots lo hi r.bytes taken with
    | none => none
    | some b => (ringBases lo hi l ((b, r.bytes) :: taken)).map (b :: ·)

/-- The slots that the rings of a core occupy. -/
def ringSpace (co : Core) : List (Nat × Nat) :=
  (co.rings.toList.filter fun r => r.valid && !r.isAlias).map fun r => (r.base, r.slots * r.slotBytes)

/-- The bases of the rings that a core owns, of an image's first `n` in number order. -/
def ringBasesOn (s : State) (i : Img) (split : Nat × Nat × Nat × Nat) (n core : Nat) : Option (List Nat) :=
  let co := getCore s (.tile core)
  let ks := if i.cores.contains core then splitsFor s split core else [co.counts, governing co]
  ringBases ((ks.map storeLo).foldl Nat.max 0) 1048576 ((i.rings.take n).filter (·.cons == core % 4))
    (ringSpace (getCore s (.tile core)))

/-- The cores of the tiles of a launch. -/
def coresOfTiles (cs : List Nat) : List Nat :=
  ((cs.map (· / 4)).foldl (fun l t => addSorted t l) []).flatMap fun t => [4 * t, 4 * t + 1, 4 * t + 2]

/-- Step 5: the rings. A number is declared once, and no live launch on the tile has it. -/
def checkRings (s : State) (i : Img) (split : Nat × Nat × Nat × Nat) : Placing Unit := do
  for x in i.ringRecs.zipIdx do
    let r := x.1
    ensure (!r.reserved && decide (1 ≤ r.slots) && decide (1 ≤ r.slotb) && decide (r.slotb ≤ 1024) && decide (r.prod ≤ 2) && decide (r.cons ≤ 2)
      && !((i.ringRecs.take x.2).any (·.n == r.n))) 5 x.2
    ensure ((coresOfTiles i.cores).all fun c => !((getCore s (.tile c)).rings[Fin.ofNat 16 r.n]).valid) 5 x.2
  for c in coresOfTiles i.cores do
    for x in i.rings.zipIdx do
      ensure (ringBasesOn s i split (x.2 + 1) c).isSome 5 (i.ringRecs.idxOf x.1)

/-- Step 5: the groups (R253). -/
def checkGroups (cs : List Nat) (gs : List Group) : Placing Unit := do
  for x in gs.zipIdx do
    ensure (!x.1.members.isEmpty && x.1.members.all cs.contains && x.1.members.all (fun c => x.1.members.count c == 1)
      && (gs.filter (·.idx == x.1.idx)).length == 1) 5 x.2
  for c in cs do
    for x in gs.zipIdx do
      ensure (decide ((gs.take (x.2 + 1)).countP (fun g => g.members.contains c) ≤ 4)) 5 x.2

/-- Step 5: the gates (R348). -/
def checkGates (s : State) (i : Img) (gs : List Group) : Placing Unit := do
  for x in i.gates.zipIdx do
    let g := x.1
    ensure (g.idx != 255 && !(aget Gate.off g.idx s.dev.gates).valid
      && (List.range 8).all (fun k => g.w0 / 4 ^ k % 4 != 3) && !((i.gates.take x.2).any (·.idx == g.idx))
      && (match g.group with
        | some n => gs.any (·.idx == n)
        | none => true)) 5 x.2

/-- Step 5: the guest queues. -/
def checkGuest (s : State) (i : Img) : Placing Unit := do
  for x in (i.recs 10).zipIdx do
    let w := i.at_ x.1 8
    ensure (bits w 7 6 == 0 && bits w 63 16 == 0 && decide (1 ≤ bits w 15 8) && decide (bits w 15 8 ≤ 64)
      && !(s.dev.guest.queues[Fin.ofNat 64 (w % 64)]).valid) 5 x.2

/-- The worst case of a reel: every task queue with DEPTH messages, and every CKPT region (R382). -/
def reelWorst (s : State) (i : Img) : Nat :=
  let here := i.cores.length * (((i.hands.filter (·.task)).foldl (fun n h => n + 64 + 128 * Nat.max 1 h.depth) 0)
    + (i.regs.filter (·.ckpt)).foldl (fun n r => n + 256 * r.size) 0)
  s.cores.foldl (fun n c => n
    + (c.2.queues.toList.filter fun q => q.valid && q.serial && q.launch.isSome).foldl (fun n q => n + 64 + 128 * Nat.max 1 q.depth) 0
    + ((ownedRegions c.2).filter (·.ckpt)).foldl (fun n r => n + r.bytes) 0) (reelFixed + here)

/-- Tokens that live launches hold (R376). -/
def tokensGranted (s : State) : Nat := s.dev.launches.foldl (fun n l => n + l.tokens) 0

/-- The ASID of a launch: its header's, or the lowest that no live launch has (log entry 10). -/
def launchAsid (s : State) (i : Img) : BitVec 12 :=
  let a := i.at_ 8 2
  if a ≠ 0 then BitVec.ofNat 12 a
  else BitVec.ofNat 12 (((List.range 4095).map (· + 1)).find? fun n =>
    !(s.dev.launches.any fun l => l.asid == BitVec.ofNat 12 n)).get!

/-- Every check of R401, in the order of its steps. -/
def checkLaunch (s : State) (i : Img) : Placing Unit := do
  let split := poolCounts (i.at_ 0x14 4)
  formed (i.headFormed && i.dirFormed)
  ensure ((i.at_ 0x0E 2 &&& 0xFFFF - 0x7F) == 0 && i.at_ 0x0C 1 == 1) 2 0
  checkCores s i.cores
  checkSegs s (launchAsid s i) i.segs
  ensure (decide (split.1 + split.2.1 + split.2.2.1 + split.2.2.2 = 63) && decide (2 ≤ split.1) && decide (24 ≤ split.2.1)) 5 0
  checkRegions s i split
  ensure (arenaFits i) 5 0
  checkQueues s i
  checkRings s i split
  checkGroups i.cores (i.groups (launchAsid s i))
  checkGates s i (i.groups (launchAsid s i))
  checkGuest s i
  ensure (decide (reelWorst s i ≤ 32 * 1048576)) 5 0
  ensure (decide (tokensGranted s + i.at_ 0x0A 2 ≤ 768)) 6 0

/-! ### Segments and page tables (R176 to R179, R401 step 4) -/

/-- A fresh page of DRAM, cleared (log entry 10). -/
def allocPage (s : State) : Nat × State :=
  let p := s.dev.nextPage
  (4096 * p, modDev { s with mem := zeroBytes s.mem (4096 * p) 4096 } fun d => { d with nextPage := p + 1 })

/-- The table that an entry points to, made where it points to none. -/
def tableAt (s : State) (entry : Nat) : Nat × State :=
  let e := readN s.mem entry 8
  if bit e 0 && !bit e 1 then (bits e 46 12 * 4096, s)
  else
    let (p, s) := allocPage s
    (p, homeWrite s entry (bytesOf (p + 1) 8) 5 0 none)

/-- The tables of a virtual address from one table down, `n` levels. -/
def tablesDown (s : State) (va table : Nat) : Nat → Nat × State
  | 0 => (table, s)
  | n + 1 =>
    let (t, s) := tableAt s (table + 8 * (va / 2 ^ (12 + 9 * (n + 1)) % 512))
    tablesDown s va t n

/-- A page mapped by a leaf of level 3 (R176). -/
def mapPage (s : State) (asid : BitVec 12) (va leaf : Nat) : State :=
  let (t, s) := tableAt s (bits s.dev.ptroot.toNat 46 15 * 2 ^ 15 + 8 * asid.toNat)
  let (t, s) := tablesDown s va t 3
  homeWrite s (t + 8 * (va / 4096 % 512)) (bytesOf leaf 8) 5 0 none

/-- The pages of a segment from a page number: each a fresh page of DRAM with U = 1, with its file bytes copied. -/
def mapPages (i : Img) (asid : BitVec 12) (g : Seg) : Nat → Nat → State → State
  | 0, _, s => s
  | n + 1, p, s =>
    let (pa, s) := allocPage s
    let len := Nat.min 4096 (g.file - 4096 * p)
    let s := triggersCopy { s with mem := moveBytes s.mem (i.base + g.off + 4096 * p) pa len } pa len
    let leaf := 3 + g.perms % 8 * 4 + 0x20 + g.pol * 2 ^ 8 + pa
    mapPages i asid g n (p + 1) (mapPage s asid (g.va + 4096 * p) leaf)

/-- Every segment mapped. -/
def mapSegs (s : State) (i : Img) (asid : BitVec 12) : State :=
  let s := i.segs.foldl (fun s g => mapPages i asid g g.pages 0 s) s
  dropTranslations s fun t => t.asid == asid

/-! ### Cores (R401 steps 5 and 7) -/

/-- The pool split of a core that serves no launch: its lines are written back, and banks that enter data start with 0
and empty (R132). What a reel has restored stays. DESIGN CHOICE: a reshape that an ended launch has left behind is over with
it: no activation, region or ring is left for its handshakes, and the split takes its place (R139 is silent; log entry
132). -/
def setSplit (s : State) (split : Nat × Nat × Nat × Nat) (core : Nat) : State :=
  let a := Agent.tile core
  let co := getCore s a
  if served s core ≠ 0 || (co.counts == split && co.reshape.isNone) then s
  else
    let s := (getCore s a).l1.foldl (fun s l => flushLine s a l.line) s
    let lo := localAddr core 0
    let kept (x : Nat) : Bool := (validRegions co).any fun r => decide (r.2.base ≤ x) && decide (x < r.2.base + r.2.bytes)
    let goes (x : Nat) : Bool := decide (lo ≤ x) && decide (x < lo + 1048576)
      && roleUnder co.counts ((x - lo) / 16384) != roleUnder split ((x - lo) / 16384) && !kept (x - lo)
    modCore { s with mem := s.mem.filter (fun c => !goes c.1), full := s.full.filter fun x => !goes x } a fun co =>
      { co with counts := split, reshape := none, regions := co.regions.map fun r => { r with moving := false } }

/-- A region placed on a core. One that a reel has restored to the same header and place keeps what it holds. -/
def placeRegion (s : State) (core h : Nat) (r : RegionRec) (base : Nat) : State :=
  let old := (getCore s (.tile core)).regions[Fin.ofNat 64 h]
  let back := old.valid && old.ckpt && r.ckpt && old.base == base && old.size == r.size
  let s := if back then s else clearRange s (localAddr core base) (256 * r.size)
  let new : Region := ⟨true, false, false, r.cls, r.ckpt, 0, r.size, base, if back then old.slate else 0, r.ctl⟩
  modRegion s (.tile core) h fun _ => new

/-- A launch's regions on a core, in a block of headers. -/
def placeRegions (s : State) (i : Img) (la core : Nat) (bases : List Nat) : State :=
  let a := Agent.tile core
  match headerBlock (getCore s a) i.regs.length with
  | none => s
  | some first =>
    let s := ((i.regs.zip bases).zipIdx).foldl (fun s x => placeRegion s core (first + x.2) x.1.1 x.1.2) s
    if i.regs.isEmpty then s
    else modCore s a fun co => { co with regionBlocks := co.regionBlocks ++ [⟨la, first, i.regs.length⟩] }

/-- ASK, SINKEN and STALEQ of a task's queue (R419). -/
def queueControl (i : Img) (q : Nat) : Bool × Bool × Nat :=
  match (i.recs 9).find? fun o => i.at_ o 8 % 64 == q with
  | some o => let w := i.at_ o 8; (bit w 6, bit w 7, bits w 13 8)
  | none => (false, false, 0)

/-- A queue's descriptor as a launch binds it (R226); one that a reel has restored for the same task keeps its
messages and its resume (R383). -/
def bindQueue (i : Img) (la q : Nat) (h : Hand) (old : Queue) : Queue :=
  let ctl := if h.task then queueControl i q else (false, false, 0)
  let act := if h.act = 0 then i.at_ 0x10 4 else h.act
  let take := if h.task then h.take else 0
  let back := old.valid && old.launch.isNone && old.serial && h.task && old.type == h.ty
  let keep : Queue := if back then old else Queue.free
  { keep with
    valid := true, serial := h.task, pri := h.pri, budgetHold := back && old.budgetHold, holdReqs := [], deadHold := back && old.deadHold
    ask := ctl.1, sinken := ctl.2.1, staleq := ctl.2.2, maxage := h.maxage, depth := h.depth, tmask := 0xFFFF, type := h.ty
    handler := h.addr, launch := some la, takeBudget := take, actBudget := act, running := none
    takeLeft := if back then old.takeLeft else if take = 0 then 0xFFFFFFFF else take }

/-- A launch's queues on a core. -/
def bindQueues (i : Img) (la : Nat) (l : List (Nat × Hand)) (co : Core) : Core :=
  l.foldl (fun co x =>
    let q := Fin.ofNat 64 x.1
    { co with queues := co.queues.set q (bindQueue i la x.1 x.2 co.queues[q]) }) co

/-- A launch's rings on a tile's core that consumes them: it owns the descriptor, and the producer has an alias (R260). -/
def placeRings (s : State) (i : Img) (la core : Nat) (bases : List Nat) : State :=
  ((i.rings.filter (·.cons == core % 4)).zip bases).foldl (fun s x =>
    let r := x.1
    let n := Fin.ofNat 16 r.n
    let own : Ring := ⟨true, r.cons, r.prod, r.cons, false, r.slots, r.slotb % 1024, x.2, r.slots, 0, 0, 0, 0, 0, some la, []⟩
    let s := modCore s (.tile core) fun co => { co with rings := co.rings.set n own }
    if r.prod = r.cons then s
    else modCore s (.tile (core / 4 * 4 + r.prod)) fun co =>
      { co with rings := co.rings.set n { own with isAlias := true, nfree := 0 } }) s

/-- A gate's entry (R348). -/
def gateEntry (la : Nat) (gs : List Group) (g : GateRec) : Gate :=
  let asid := match g.group.bind fun n => gs.find? (·.idx == n) with
    | some x => x.asid
    | none => BitVec.ofNat 12 (bits g.w0 43 32)
  { valid := true, level := bit g.w0 62, callers := bits g.w0 61 60, grp := bits g.w0 59 52, narg := bits g.w0 51 48,
    nret := bits g.w0 47 44, asid := asid, akind := BitVec.ofNat 16 g.w0, handler := bits g.w1 47 0, budget := g.w2 % 2 ^ 32,
    fails := 0, launch := some la }

/-- The record of a live launch; `key` is that of its module's translations, and its image stands for it where it is no module's
(log entry 107). -/
def launchOfImg (s : State) (i : Img) (la : Nat) (tag : BitVec 32) (key : List Byte) : Launch where
  la := la
  tag := tag
  asid := launchAsid s i
  cores := i.cores
  det := bit (i.at_ 6 2) 0
  compat := bit (i.at_ 6 2) 1
  tvec := w64 (i.at_ 0x18 8)
  htable := i.at_ 0x20 8
  budget := i.at_ 0x10 4
  tokens := i.at_ 0x0A 2
  arena := arenaReg i
  groups := i.groups (launchAsid s i)
  dists := i.dists
  gates := i.gates.map (·.idx)
  guestQueues := (i.recs 10).map fun o => i.at_ o 8
  regionSizes := i.regs.map (·.size)
  digests := (i.regs.zipIdx.filter fun x => x.1.digest).map (·.2)
  image := readBytes i.mem i.base i.length
  key := if key.isEmpty then readBytes i.mem i.base i.length else key
  ending := false
  endTag := none

/-- The group tag and the child-report mask of the barriers of a core that no live launch holds, cleared at launch (R254;
log entry 123). -/
def clearTags (s : State) (core : Nat) : State :=
  modCore s (.tile core) fun co => { co with
    barriers := co.barriers.map fun b => if b.2.launch.isNone then (b.1, { b.2 with tag := 0, children := 0 }) else b }

/-- The lowest number that no live launch has. -/
def freeLaunch (s : State) : Nat :=
  ((List.range (s.dev.launches.length + 1)).find? fun n => !(s.dev.launches.any (·.la == n))).getD 0

/-- A module that a launch runs: the entries of its handler table, one for each binding of its image in order, and the key of
its translations; of a launch image that is no module's, there are none (R402). -/
structure ModuleOf where
  table : List ModEntry
  key : List Byte
  deriving DecidableEq, Repr

/-- Whether the binding of a number is made on a core: that of a module's entry is made on the cores of its role (R402). -/
def ModuleOf.binds (x : ModuleOf) (n core : Nat) : Bool := match x.table[n]? with
  | some e => e.role == 3 || e.role.val == core % 4
  | none => true

/-- The address of a handler's translation in the code heap (R403). -/
def translationOf (s : State) (key : List Byte) (h : Nat) : Option Nat :=
  (s.dev.heap.find? fun t => t.key == key && t.handler == h).map (·.addr)

/-- A doubleword of a launch's handler table written (R404). -/
def writeHandler (s : State) (l : Launch) (h addr : Nat) : State :=
  let va := l.htable + 8 * h
  match walk s l.asid va 0 with
  | .error _ => s
  | .ok t => homeWrite s (t.ppn * 2 ^ t.shift + va % 2 ^ t.shift) (bytesOf addr 8) 5 0 none

/-- The 512 doublewords of a module's handler table: a translation of the heap, or else the stub address (R403, R404). -/
def writeHandlers (s : State) (l : Launch) : State :=
  (List.range 512).foldl (fun s h => writeHandler s l h ((translationOf s l.key h).getD (8 * h))) s

/-- Steps 4, 5 and 7: the launch is placed and is live. -/
def placeLaunch (s : State) (i : Img) (tag : BitVec 32) (m : ModuleOf) : State :=
  let split := poolCounts (i.at_ 0x14 4)
  let la := freeLaunch s
  let l := launchOfImg s i la tag m.key
  let binds (c : Nat) : List (Nat × Hand) := ((bindings s i).zipIdx.filter fun x => m.binds x.2 c).map (·.1)
  let bases := i.cores.map fun c => (c, (basesOn s i.regs split c).getD [])
  let slots := (coresOfTiles i.cores).map fun c => (c, (ringBasesOn s i split 16 c).getD [])
  let s := mapSegs s i l.asid
  let s := i.cores.foldl (fun s c => clearTags (setSplit s split c) c) s
  let s := bases.foldl (fun s x => placeRegions s i la x.1 x.2) s
  let s := i.cores.foldl (fun s c => modCore s (.tile c) (bindQueues i la (binds c))) s
  let s := slots.foldl (fun s x => placeRings s i la x.1 x.2) s
  let s := if m.table.isEmpty then s else writeHandlers s l
  modDev s fun d => { d with
    launches := d.launches ++ [l]
    gates := i.gates.foldl (fun t g => aset g.idx (gateEntry la l.groups g) t) d.gates
    guest := { d.guest with queues := (i.recs 10).foldl (fun v o =>
      let w := i.at_ o 8
      let q := Fin.ofNat 64 w
      v.set q { GuestQueue.reset with valid := true, asid := l.asid, depth := bits w 15 8, launch := la, seq := (v[q]).seq }) d.guest.queues } }

/-- A launch image checked and placed (R401). FW4 records a refusal's step and record, and FW0 measures the image of a
launch that is placed. A launch whose pages DRAM cannot hold is refused at step 4. -/
def launchImage (s : State) (tag : BitVec 32) (addr : Word) (m : ModuleOf := ⟨[], []⟩) : State :=
  let i : Img := ⟨s.mem, hostAddr addr⟩
  let refused (x : Nat × Nat × Nat) : State := hostDone (record s 0 0 [x.2.1, x.2.2]) tag x.1
  match checkLaunch s i with
  | .error x => refused x
  | .ok () =>
    let t := placeLaunch s i tag m
    if dramEnd < 4096 * t.dev.nextPage then refused (3, 4, 0)
    else hostDone (measure t 5 (readBytes i.mem i.base i.length)) tag 0

end Sys2Proof.Machine
end

