-- ==== Sys2Proof/Machine/Pairs.lean ====
section
/-! DEFINITION. The pair: pairing, reconciliation, digests, heartbeats and the switchover, and the continuity link (R23,
R24, R358 to R364). -/

namespace Sys2Proof.Machine

/-- The pair block changed. -/
def modPair (s : State) (f : PairBlock → PairBlock) : State := modDev s fun d => { d with pair := f d.pair }

/-- Cause 0x2E to FW6, with a record. TVAL is not stated (log entry 16). -/
def linkFault (s : State) (vals : List Nat) : State :=
  let (v, s) := freshWord s
  raiseDev (record s 0x2E 0 vals) 6 0x2E v

/-! ### Pairing (R358) -/

/-- The half-take that has begun at a time of the current take, as 2n or 2n + 1 of take n. -/
def halfAt (t : TimeBlock) (at_ : Nat) : Option Nat :=
  if !t.fired || decide (at_ < t.due t.takeno) then none
  else some (2 * t.takeno + b2n (decide (t.due t.takeno + t.period / 2 ≤ at_)))

/-- The bytes over which FW6 takes the configuration digest: the images of the live launches, the image maps, the call sheet
and the gate table, as the model holds them (log entry 29). -/
def configBytes (d : Device) : List Byte :=
  (d.launches.flatMap fun l => bytesOf l.la 8 ++ l.image) ++ d.image.maps.bytes ++ d.sheet.active.flatMap (·.bytes)
    ++ d.gates.flatMap fun g => [g.1, g.2.asid.toNat, g.2.handler, g.2.budget, g.2.akind.toNat, g.2.narg, g.2.nret, g.2.grp,
        g.2.callers, b2n g.2.level, b2n g.2.valid].flatMap fun x => bytesOf x 8

/-- The pair configuration digest. -/
def configDigest (s : State) : List Byte := Config.shake256 64 (configBytes s.dev)

/-- REASON of a refused pairing, 0 when the five conditions hold (Table 16.3). -/
def pairReason (s : State) (v : PartnerView) : Nat :=
  let t := s.dev.time
  if !v.linkUp then 1
  else if v.role == s.dev.pair.role then 2
  else if v.epoch.toNat ≠ t.epochNow ∨ v.period ≠ t.period ∨ v.egress ≠ t.egress ∨ v.guard ≠ t.guardNs then 3
  else if v.configDigest ≠ configDigest s then 4
  else if t.guardNs < 1500 then 5
  else 0

/-- PAIR_FORM (R358): the link trains, whether or not the package is paired (R364, R393); while ENABLE is 1, FW6 pairs, or
shows why it does not. The take that runs as the pair forms is not one to reconcile (R360). -/
def pairForm (s : State) (v : PartnerView) : State :=
  let p := s.dev.pair
  let s := modPair s fun p => { p with linkUp := v.linkUp }
  if p.paired || !(p.enable && fwWorks s 6) then s
  else
    let r := pairReason s v
    let s := modPair s fun p => { p with reason := r }
    if r ≠ 0 then s
    else
      let s := modPair s fun p => { p with
        paired := true, member := p.role, driving := !p.role && !p.rejoin, misses := 0, mirroring := true
        mirrorOut := [], mirrorLate := [], markerSent := [], markerGot := [s.dev.time.takeno], ownDigests := [], digestSent := none
        peerDigests := [], lastBeat := halfAt s.dev.time s.dev.time.dtime
        judged := halfAt s.dev.time s.dev.time.dtime }
      measure s 7 (configDigest s)

/-- PAIR_FORM (R358). -/
def execPairForm (v : PartnerView) (s : State) : Out := event (pairForm s v)

/-- PAIRSTAT_CLEAR (R2). -/
def execPairstatClear (mismatch unrec : Bool) (s : State) : Out := event (pairstatSet s mismatch unrec)

/-! ### Reconciliation (R359, R360) -/

/-- MIRROR_MARKER_SEND (R359): at the ingress guard before the coming clapper, once. -/
def execMirrorMarkerSend (s : State) : Out :=
  let t := s.dev.time
  match markerDue s with
  | none => event s
  | some due => match timeTo s (Nat.max t.dtime due) with
    | none => event s
    | some s => event (modPair s fun p => { p with
        markerSent := t.first :: p.markerSent.take 1, mirroring := p.mirroring || p.markerGot.contains t.first })

/-- MIRROR_MARKER_ARRIVAL (R359): every earlier mirrored write has arrived. A marker that comes after its take's clapper
reconciles nothing; mirroring resumes with the take for which both markers have arrived (R360). -/
def execMirrorMarkerArrival (take : Nat) (s : State) : Out :=
  let p := s.dev.pair
  let late := s.dev.time.fired && decide (take ≤ s.dev.time.takeno)
  if p.paired && p.linkUp && !late && !p.markerGot.contains take then
    event (modPair s fun p => { p with
      markerGot := take :: p.markerGot.take 1, mirroring := p.mirroring || p.markerSent.contains take })
  else event s

/-- UNRECONCILED_TAKE (R360): the partner's marker for the current take has not arrived by its clapper. Disciplined time
goes no further without it. -/
def execUnreconciledTake (s : State) : Out :=
  let n := s.dev.time.takeno
  if unreconciled s then
    event (linkFault (modPair s fun p => { p with unrec := true, mirroring := false, markerGot := n :: p.markerGot.take 1 }) [n])
  else event s

/-! ### Digests (R24, R361) -/

/-- One byte of the CRC-64. -/
def crcByte (c : BitVec 64) (b : Byte) : BitVec 64 :=
  let c := c ^^^ (b.zeroExtend 64 <<< 56)
  (List.range 8).foldl (fun c _ => if c.msb then (c <<< 1) ^^^ 0x42F0E1EBA9EA3693#64 else c <<< 1) c

/-- The CRC-64 of R361. -/
def crc64 (l : List Byte) : Word := l.foldl crcByte 0

/-- A slate with bit 7 taken as 0. -/
def noMember (x : Nat) : Nat := x - x / 128 % 2 * 128

/-- The output stamp table as sent, with bit 7 of every slate taken as 0. -/
def stampBytes (s : State) : List Byte :=
  (List.range 2048).flatMap fun i => bytesOf (noMember (readN s.mem (imageBack + 0x801000 + 8 * i) 8)) 8

/-- The digested regions in order of core and index: each one's bytes, and its slate (R361). -/
def digestedBytes (s : State) : List Byte :=
  (List.range 2048).flatMap fun core => (List.finRange 64).flatMap fun h =>
    let co := getCore s (.tile core)
    let r := co.regions[h]
    let marked := s.dev.launches.any fun l => l.cores.contains core && l.digests.any fun i =>
      headerOf co (some l.la) i == some h.val
    if r.valid && marked then
      readBytes s.mem (localAddr core r.base) (256 * r.size) ++ bytesOf (noMember r.slate.toNat) 8
    else []

/-- The take digest. -/
def takeDigest (s : State) : Word :=
  crc64 (readBytes s.mem (imageBase + 0x1400000) 0x400000 ++ stampBytes s ++ digestedBytes s)

/-- A mismatch of a take's digests (R24): the flag, MMTAKE and the record. -/
def mismatchAt (s : State) (take : Nat) : State :=
  record (modPair s fun p => { p with mismatch := true, mmtake := BitVec.ofNat 32 take }) 0 0 [take]

/-- Two digests of a take compared, and forgotten. -/
def compareDigests (s : State) (take : Nat) (own peer : Word) : State :=
  let s := modPair s fun p => { p with
    ownDigests := p.ownDigests.filter (·.1 != take), peerDigests := p.peerDigests.filter (·.1 != take) }
  if own = peer then s else mismatchAt s take

/-- TAKE_DIGEST_SEND (R361): FW6 sends it after the egress of the current take. -/
def execTakeDigestSend (s : State) : Out :=
  let p := s.dev.pair
  let n := s.dev.time.takeno
  if p.paired && s.dev.time.fired && s.dev.image.egressDone && fwWorks s 6 && !(p.digestSent == some n) then
    let d := takeDigest s
    let s := modPair s fun p => { p with digestSent := some n }
    match p.peerDigests.find? (·.1 == n) with
    | some (_, v) => event (compareDigests s n d v)
    | none => event (modPair s fun p => { p with ownDigests := p.ownDigests ++ [(n, d)] })
  else event s

/-- TAKE_DIGEST_ARRIVAL (R24). One that comes two clappers after its take's counts no more (R361). -/
def execTakeDigestArrival (take : Nat) (digest : Word) (s : State) : Out :=
  let p := s.dev.pair
  if !(p.paired && p.linkUp) || decide (take + 2 ≤ s.dev.time.takeno) then event s
  else match p.ownDigests.find? (·.1 == take) with
    | some (_, d) => event (compareDigests s take d digest)
    | none =>
      if p.peerDigests.any (·.1 == take) then event s
      else event (modPair s fun p => { p with peerDigests := p.peerDigests ++ [(take, digest)] })

/-- DIGEST_TIMEOUT (R361): the partner's digest of a take has not arrived two clappers later. Disciplined time goes no
further without it. -/
def execDigestTimeout (s : State) : Out :=
  match digestLate s with
  | some n => event (mismatchAt (modPair s fun p => { p with ownDigests := p.ownDigests.filter (·.1 != n) }) n)
  | none => event s

/-! ### Heartbeats and the switchover (R23, R362 to R364) -/

/-- HEARTBEAT_SEND (R23, R362): FW6 sends the take number, the role and TERM, once in each half-take. -/
def execHeartbeatSend (s : State) : Out :=
  match beatDue s with
  | none => event s
  | some (h, due) => match timeTo s (Nat.max s.dev.time.dtime due) with
    | none => event s
    | some s => event (modPair s fun p => { p with
        beats := ((takeNo s, p.driving, p.term) :: p.beats).take 4, lastBeat := some h })

/-- HEARTBEAT_ARRIVAL (R362, R363): MISSES is reset; a driving package yields to a higher term. -/
def execHeartbeatArrival (_take : Nat) (driving : Bool) (term : BitVec 16) (s : State) : Out :=
  let p := s.dev.pair
  if !(p.paired && p.linkUp) then event s
  else
    let yield_ := p.driving && driving && decide (p.term.toNat < term.toNat)
    let t := s.dev.time
    event (modPair s fun p => { p with
      misses := 0, driving := p.driving && !yield_, term := if yield_ then term else p.term, judged := halfAt t t.dtime })

/-- A hold request on every queue, by its requester (R88). -/
def holdAll (s : State) (who : Nat) : State :=
  let hold (q : Queue) : Queue := if q.valid then { q with holdReqs := who :: q.holdReqs.filter (· != who) } else q
  { s with cores := s.cores.map fun (c : Agent × Core) => (c.1, { c.2 with queues := c.2.queues.map hold }) }

/-- The end of a requester's hold requests (R88). -/
def endHolds (s : State) (who : Nat) : State :=
  let free (q : Queue) : Queue := { q with holdReqs := q.holdReqs.filter (· != who) }
  { s with cores := s.cores.map fun (c : Agent × Core) => (c.1, { c.2 with queues := c.2.queues.map free }) }

/-- A hold request of FW2 or FW5 for one queue, or its end (R88). -/
def holdQueue (s : State) (fw5 : Bool) (core : Nat) (q : Fin 64) (on : Bool) : State :=
  let who := b2n fw5
  if !fwWorks s (if fw5 then 5 else 2) || !(getCore s (.tile core)).queues[q].valid then s
  else modQueue s (.tile core) q fun x => { x with
    holdReqs := (if on then [who] else []) ++ x.holdReqs.filter (· != who) }

/-- The partner's heartbeat of half-take `h` is missed (R362, R363, R23): a silent package that has missed two in succession
drives, under a new term, from the Qbv windows that open next; the switchover asks for a hold of the queues (R88). -/
def missBeat (s : State) (h : Nat) : State :=
  let p := s.dev.pair
  let n := Nat.min 2 (p.misses + 1)
  let takes := decide (n = 2) && !p.driving
  let now := s.dev.time.dtime
  let s := modPair s fun p => { p with
    misses := n, driving := p.driving || takes, term := if takes then p.term + 1 else p.term, judged := some h
    openAfter := if takes then some now else p.openAfter }
  if takes then holdAll (linkFault s [takeNo s, s.dev.pair.term.toNat]) 3 else s

/-- HEARTBEAT_MISS (R362): HBTOL after the time of a half-take's heartbeat none has arrived. -/
def execHeartbeatMiss (s : State) : Out :=
  match missDue s with
  | none => event s
  | some (h, due) => match timeTo s (Nat.max s.dev.time.dtime due) with
    | none => event s
    | some s => event (missBeat s h)

/-- CONTINUITY_LINK_DOWN (R364): the link is down, and cause 0x2E goes to FW6. PAIRED and DRIVING change by the rules
of heartbeats alone (R363). -/
def execContinuityLinkDown (s : State) : Out :=
  event (linkFault (modPair s fun p => { p with linkUp := false }) [takeNo s])

end Sys2Proof.Machine
end

