-- ==== Sys2Proof/Machine/Power.lean ====
section
/-! DEFINITION. Throttling, heat, the power-fail sequence and the reel (R378 to R384, R386). -/

namespace Sys2Proof.Machine

/-- The power block changed. -/
def modPower (s : State) (f : Power → Power) : State := modDev s fun d => { d with power := f d.power }

/-- A die's part of a pair. -/
def onDie {α : Type} (die : Nat) (x : α × α) : α := if die = 0 then x.1 else x.2
/-- The pair with a die's part replaced. -/
def putDie {α : Type} (die : Nat) (x : α × α) (v : α) : α × α := if die = 0 then (v, x.2) else (x.1, v)

/-- PWRCTL_WRITE (R378). -/
def execPwrctlWrite (v : Word) (s : State) : Out := event (pwrctlSet s v)

/-- THROTTLE_STEP_CHANGE (R378): the effective step of a die comes into force. -/
def execThrottleStepChange (die : Fin 2) (s : State) : Out :=
  event (modPower s fun p => { p with step := putDie die.val p.step (dieStep p die.val) })

/-! ### The governor (R379) -/

/-- A sample above the limit: GSTEP of the die with the higher estimate rises, and FW5 is told (R422). -/
def stepUp (s : State) (w0 w1 : Nat) : State :=
  let die := if w0 < w1 then 1 else 0
  let g := onDie die s.dev.power.gstep
  let s := modPower s fun p => { p with below := 0 }
  if 7 ≤ g then s
  else raiseDev (modPower s fun p => { p with gstep := putDie die p.gstep (g + 1) }) 5 0x36
    (w64 (die + (g + 1) * 2 + (w0 + w1) % 2 ^ 16 * 2 ^ 16))

/-- A sample below the limit by more than HYST: after DOWN of them in succession GSTEP of the die with the higher one
falls. -/
def stepDown (s : State) : State :=
  let p := s.dev.power
  let n := p.below + 1
  if n < p.downNow then modPower s fun p => { p with below := n }
  else
    let die := if p.gstep.1 < p.gstep.2 then 1 else 0
    modPower s fun p => { p with below := 0, gstep := putDie die p.gstep (onDie die p.gstep - 1) }

/-- GOVERNOR_SAMPLE (R379), with the estimates of the two dies in W. -/
def execGovernorSample (w0 w1 : Nat) (s : State) : Out :=
  let p := s.dev.power
  if p.plimit < w0 + w1 then event (stepUp s w0 w1)
  else if w0 + w1 + p.hystNow < p.plimit then event (stepDown s)
  else event (modPower s fun p => { p with below := 0 })

/-! ### Sensors (R380, R386) -/

/-- A die trips: its TRIP is set, and with the sixteenth trip REPLACE shows it. -/
def tripDie (s : State) (die : Nat) : State :=
  let n := onDie die s.dev.power.trips + 1
  let s := modPower s fun p => { p with trip := putDie die p.trip true, trips := putDie die p.trips n }
  if n = 16 then modDev s fun d => { d with replace := d.replace ||| 32 } else s

/-- THERMAL_SAMPLE (R380): a sensor's reading, with the alert and the trip that it causes. -/
def execThermalSample (sensor : Fin 128) (reading : BitVec 16) (s : State) : Out :=
  let die := sensor.val / 64
  let r := reading.toInt
  let s := modPower s fun p => { p with temps := aset sensor.val r p.temps }
  let p := s.dev.power
  let tval (trip : Bool) : Word := w64 (sensor.val + b2n trip * 256 + reading.toNat * 2 ^ 16)
  let s := if (p.talert : Int) ≤ r ∧ !onDie die p.alerted then
      raiseDev (modPower s fun p => { p with alerted := putDie die p.alerted true }) 5 0x37 (tval false)
    else if (dieTemps p die).all fun t => decide (t < (p.talert : Int) - 20) then
      modPower s fun p => { p with alerted := putDie die p.alerted false }
    else s
  event (if (p.tcrit : Int) ≤ r ∧ !onDie die p.trip then raiseDev (tripDie s die) 5 0x37 (tval true) else s)

/-- CLRTRIP (R380). -/
def execClrtrip (die : Fin 2) (s : State) : Out := event (clrtripSet s die.val)

/-! ### The thermal service of FW5 (R416, R417) -/

/-- The hottest reading of a die (MAXT of Table 17.5). -/
def hottest (p : Power) (die : Nat) : Int := (dieTemps p die).foldl max (aget 0 (64 * die) p.temps)

/-- A firmware message of FW5 to FW4, which enters it in the dailies (R416). -/
def fw5Log (s : State) (w1 : Nat) : State :=
  let (now, s) := readTimeOn s 1
  let m : Mail := ⟨mailWord0 s 1 0 true 5, w64 w1, w64 now, 0⟩
  let s := postMail s 4 m
  record s 0 5 [m.w1.toNat, m.w2.toNat, m.w3.toNat, m.w0.toNat]

/-- Word 1 of a thermal record (Table 20.4). -/
def thermalWord (ev die floor : Nat) (reading : BitVec 16) : Nat := ev + die * 2 ^ 8 + floor % 8 * 2 ^ 16 + reading.toNat * 2 ^ 32

/-- FLOOR of a die set, or left as it is at a trip's end, with its record. -/
def setFloor (s : State) (die n ev : Nat) (reading : BitVec 16) : State :=
  fw5Log (modPower s fun p => { p with floor := putDie die p.floor n }) (thermalWord ev die n reading)

/-- The count of cool ticks of a die: byte `die` of g26 of FW5, whose g29 holds 7. -/
def coolCount (s : State) (die : Nat) : Nat := bits ((getCtx s ⟨.fw 5, 0⟩).g[26]).toNat (8 * die + 7) (8 * die)
/-- The count set. -/
def setCool (s : State) (die n : Nat) : State :=
  modCtx s ⟨.fw 5, 0⟩ fun c =>
    let v := c.g[26].toNat
    { c with g := (c.g.set 26 (w64 (v - bits v (8 * die + 7) (8 * die) * 2 ^ (8 * die) + n % 256 * 2 ^ (8 * die)))).set 29 7 }

/-- FW5's service of cause 0x37: one step up, or 7 where the die has tripped. Its next tick falls 250 µs later. -/
def fw5Alert (s : State) (tval : Nat) : State :=
  let die := bits tval 6 6
  let n := if bit tval 8 then 7 else Nat.min 7 (onDie die s.dev.power.floor + 1)
  let s := setCool (setFloor s die n 1 (BitVec.ofNat 16 (bits tval 31 16))) die 0
  modPower s fun p => { p with tick := some (s.dev.time.dtime + 250000) }

/-- FW5's policy for a die at a tick. -/
def fw5Tick (s : State) (die : Nat) : State :=
  let p := s.dev.power
  let t := hottest p die
  let n := onDie die p.floor
  let shown : BitVec 16 := BitVec.ofInt 16 t
  if (p.talert : Int) ≤ t then
    setCool (if n = 7 then s else setFloor s die (n + 1) 2 shown) die 0
  else if (p.talert : Int) - 20 ≤ t then setCool s die 0
  else
    let s := if onDie die p.trip then setFloor (clrtripSet s die) die n 4 shown else s
    if n = 0 then setCool s die 0
    else
      let k := coolCount s die + 1
      if k < 4 then setCool s die k else setCool (setFloor s die (n - 1) 3 shown) die 0

/-- FW5's tick, at its time: both dies, and the next one 250 µs later. -/
def fw5Ticks (s : State) : State :=
  match tickDue s with
  | none => s
  | some due => match timeTo s (Nat.max s.dev.time.dtime due) with
    | none => s
    | some s => modPower (fw5Tick (fw5Tick s 0) 1) fun p => { p with tick := some (due + 250000) }

/-- FW5 pops the entry at the head of its mailbox, and serves cause 0x37. -/
def fw5Serve (s : State) : State :=
  match (s.fws[5]).mailbox with
  | [] => s
  | m :: _ =>
    let s := mailPop s 5
    if bits m.w0.toNat 63 56 = 0 ∧ bits m.w0.toNat 53 48 = 0x37 then fw5Alert s m.w1.toNat else s

/-! ### Failing power (R381, R384) -/

/-- POWER_FAIL_WARNING (R381 step 1): FW2 holds every queue, FW5 sets the floors to 7, and the drain begins. While the
sequence runs a further warning is ignored (Table 17.8). -/
def execPowerFailWarning (s : State) : Out :=
  if s.dev.power.failing ≠ 0 then event s
  else
    let (v, s) := freshWord s
    let s := raiseDev (raiseDev (raiseDev s 0 0x38 v) 2 0x38 v) 5 0x38 v
    let s := if fwWorks s 2 then holdAll s 2 else s
    event (modPower s fun p => { p with floor := if fwWorks s 5 then (7, 7) else p.floor, failing := 1 })

/-- DRAIN_EXPIRY (R381 step 2): the activations that remain are killed with their engine work and guest requests, an
accepted reshape is abandoned (Table 17.8), and egress stops. -/
def execDrainExpiry (s : State) : Out :=
  if s.dev.power.failing ≠ 1 then event s
  else
    let here := (s.ctxs.filter fun x => x.2.used && !isFw x.1.agent).map fun x => (x.1, x.2.gen)
    let gone := s.cores.flatMap fun c => c.2.spilled.map fun x => ((⟨c.1, x.slot⟩ : CtxKey), x.ctx.gen)
    let s := (here ++ gone).foldl (fun s x => killAct s x.1 x.2) s
    let s : State := { s with cores := s.cores.map fun (c : Agent × Core) => (c.1, { c.2 with reshape := none }) }
    event (modPower s fun p => { p with failing := 2 })

/-! ### The reel (R382, R383) -/

/-- The messages of a core that the overflow store holds for a queue, in their order. -/
def parkedFor (co : Core) (q : Fin 64) : List (Message × Bool) := co.overflow.filterMap fun p => match p with
  | .message r m aged => if r = q then some (m, aged) else none
  | _ => none

/-- The task queues of every core, with the messages that the reel saves: at most DEPTH of each, those of the overflow store
behind those of the queue. -/
def reelTasks (s : State) : List (Nat × Nat × Queue) :=
  s.cores.flatMap fun c => match c.1 with
    | .tile n => (List.finRange 64).filterMap fun q =>
      let x := c.2.queues[q]
      let d := Nat.max 1 x.depth
      let l := parkedFor c.2 q
      if x.valid && x.serial then
        some (n, q.val, { x with
          msgs := (x.msgs ++ l.map (·.1)).take d, aged := (x.aged ++ l.map (·.2)).take d, running := none })
      else none
    | .fw _ => []

/-- Messages that the reel does not save (R382). -/
def reelDropped (s : State) : Nat :=
  s.cores.foldl (fun n c => (List.finRange 64).foldl (fun n q =>
    let x := c.2.queues[q]
    let k := x.msgs.length + (parkedFor c.2 q).length
    n + (if x.serial then k - Nat.max 1 x.depth else k)) n) 0

/-- The regions of class CKPT, with their headers and bytes. -/
def reelRegions (s : State) : List (Nat × Nat × Region × List Host.Cell) :=
  s.cores.flatMap fun c => match c.1 with
    | .tile n => (List.finRange 64).filterMap fun h =>
      let r := c.2.regions[h]
      if r.valid && r.ckpt then some (n, h.val, r, cellsIn s.mem (localAddr n r.base) (256 * r.size)) else none
    | .fw _ => []

/-- The bytes of a reel's sections (Table 17.6). -/
def reelSize (tasks : List (Nat × Nat × Queue)) (regions : List (Nat × Nat × Region × List Host.Cell)) : Nat :=
  reelFixed + (tasks.map fun t => 64 + 128 * Nat.max 1 t.2.2.depth).sum
    + (regions.map fun r => r.2.2.1.bytes).sum

/-- The sections of a reel, before its header is written. -/
def reelImage (s : State) : ReelImage where
  seq := (match newestReel s.dev.reels with | some r => r.seq + 1 | none => 1)
  take := takeNo s
  size := reelSize (reelTasks s) (reelRegions s)
  digest := none
  dropped := reelDropped s
  image := cellsIn s.mem imageBase 0x800000 ++ cellsIn s.mem (imageBase + 0x1000000) 0x400000 ++ cellsIn s.mem (imageBase + 0x801000) 0x4000
  ctrl := s.dev.ctrl.toList
  tasks := reelTasks s
  regions := reelRegions s

/-- Whether a reel goes to slot 1: it goes to the slot that does not hold the newest valid one. -/
def Reels.second (r : Reels) : Bool := (newestReel r).isSome && r.slot0 == newestReel r

/-- The sections of a reel written to its slot. -/
def Reels.put (r : Reels) (x : ReelImage) : Reels :=
  if r.second then { r with slot1 := some x } else { r with slot0 := some x }

/-- The header of the reel whose sections have been written: the digest of those sections makes it valid. -/
def Reels.seal (r : Reels) : Reels :=
  let ok (x : ReelImage) : ReelImage := { x with digest := some (Config.shake256 64 x.bytes) }
  if r.second then { r with slot1 := r.slot1.map ok } else { r with slot0 := r.slot0.map ok }

/-- A byte of a slot's images is lost in the store: the digest tells it on read-back (R383, R386). -/
def Reels.damage (r : Reels) (slot1 : Bool) (a : Nat) (b : Byte) : Reels :=
  let bad (x : ReelImage) : ReelImage := { x with image := writeByte x.image a b }
  if slot1 then { r with slot1 := r.slot1.map bad } else { r with slot0 := r.slot0.map bad }

/-- Whether every activation that the drain killed has quiesced (R97, R381 step 2). -/
def drainedAll (s : State) : Bool :=
  !(s.ctxs.any fun x => x.2.used && !isFw x.1.agent) && s.cores.all fun c => c.2.spilled.isEmpty

/-- REEL_WRITE (R381 steps 3 and 4): once the drain is over, FW0 first writes the sections, and then the header. -/
def execReelWrite (s : State) : Out :=
  let r := s.dev.reels
  if !r.en || !fwWorks s 0 || !drainedAll s then event s
  else match s.dev.power.failing with
    | 2 => event (modPower (modDev s fun d => { d with reels := d.reels.put (reelImage s) }) fun p => { p with failing := 3 })
    | 3 => event (modPower (modDev s fun d => { d with reels := d.reels.seal }) fun p => { p with failing := 4 })
    | _ => event s

/-- A saved task on its core, which waits for its launch: its holds by request are cleared (R88). -/
def restoreTask (s : State) (x : Nat × Nat × Queue) : State :=
  modQueue s (.tile x.1) (Fin.ofNat 64 x.2.1) fun _ => { x.2.2 with holdReqs := [], launch := none }

/-- A saved region on its core. -/
def restoreRegion (s : State) (x : Nat × Nat × Region × List Host.Cell) : State :=
  let s := modRegion s (.tile x.1) x.2.1 fun _ => { x.2.2.1 with pins := 0, moving := false }
  { s with mem := x.2.2.2.foldl (fun m c => writeByte m c.1 c.2) s.mem }

/-- What a reel holds, restored (R383). -/
def restoreReel (s : State) (r : ReelImage) : State :=
  let mem := r.image.foldl (fun m c => writeByte m c.1 c.2) s.mem
  let back := moveBytes mem imageBase imageBack 0x800000
  let s := modDev { s with mem := back } fun d => { d with
    ctrl := Vector.ofFn fun i => (r.ctrl[i.val]?).getD CtrlCore.reset
    pair := { d.pair with rejoin := true } }
  r.regions.foldl restoreRegion (r.tasks.foldl restoreTask s)

/-- Whether a written reel fails its digest on read-back, or its header was never written (R383, R386). -/
def brokenReel (r : Reels) : Bool :=
  (match r.slot0 with | some x => !x.valid | none => false) || (match r.slot1 with | some x => !x.valid | none => false)

/-- Whether the power-fail sequence is over: the reel is complete, or, with REELCTL.EN = 0 or without FW0, the drain is
(R381). It cannot be withdrawn before. -/
def failOver (s : State) : Bool :=
  let n := s.dev.power.failing
  n == 4 || (decide (2 ≤ n) && (!s.dev.reels.en || !fwWorks s 0) && drainedAll s)

/-- REEL_RESTART (R383): on power-good after the power-fail sequence, the device boots and FW0 restores the newest valid
reel. It then waits for the host to relaunch the code. -/
def execReelRestart (s : State) : Out :=
  if !failOver s then event s
  else
    let broken := brokenReel s.dev.reels
    let r := newestReel s.dev.reels
    let t := coldReset s
    let t := if broken then modDev t fun d => { d with replace := d.replace ||| 16 } else t
    match r with
    | some x => event (restoreReel t x)
    | none => event t

end Sys2Proof.Machine
end

