-- ==== Sys2Proof/Machine/Host.lean ====
section
/-! DEFINITION. The host port: doorbells, the host commands, the aperture, and the handlers that the translator publishes
(R242, R326, R329, R331, R359, R374, R375, R393 to R396, R404, R414). -/

namespace Sys2Proof.Machine

/-! ### Commands (R374, R393) -/

/-- A host command as FW1 reads it: served once the boot has opened the queues; in recovery mode it completes with status
3 (R393). -/
def command (s : State) (tag : BitVec 32) (f : State → State) : State :=
  if s.dev.sec.booted && !(s.fws[1]).failed && decide (s.dev.power.failing ≤ 1) then f s
  else if s.dev.sec.recovery.isSome then hostDone s tag 3
  else s

/-- A host command that another firmware core's function serves: it waits while that core has failed (R15). -/
def commandBy (s : State) (k : Nat) (tag : BitVec 32) (f : State → State) : State :=
  if fwWorks s k then command s tag f else s

/-- HOST_DOORBELL (R374): FW1's mailbox receives an entry of KIND 2; word 1 names the queue. -/
def execHostDoorbell (q : Fin 16) (s : State) : Out :=
  if s.dev.sec.booted then
    let (v, s) := freshWord s
    let s := postMail s 1 ⟨mailWord0 s 2 0 false (v.toNat % 2 ^ 11), w64 q.val, 0, 0⟩
    event (modDev s fun d => { d with host := { d.host with doorbells := d.host.doorbells ++ [q.val] } })
  else event s

/-- LAUNCH (R401): command 0x01. -/
def execLaunch (tag : BitVec 32) (addr : Word) (s : State) : Out :=
  event (commandBy s 2 tag fun s => launchImage s tag addr)

/-- ACTIVE_MESSAGE (R242): command 0x02; its slate is unstamped. -/
def execActiveMessage (tag : BitVec 32) (la ty : BitVec 16) (role : Fin 4) (data : Word) (payload : List Word) (s : State) : Out :=
  event (command s tag fun s =>
    if 7 < payload.length then hostDone s tag 2
    else match postActive s .hostFront la.toNat ty.toNat role.val (data.toNat % 2 ^ 48) none payload 0 with
      | some s => hostDone s tag 0
      | none => hostDone s tag 3)

/-! ### The call sheet (R326) -/

/-- An entry of a call sheet at an address. -/
def sheetEntryAt (m : List Host.Cell) (a : Nat) : SheetEntry := ⟨(List.range 16).map fun i => w64 (readN m (a + 8 * i) 8), false⟩

/-- Whether FW2 accepts a sheet. -/
def sheetAccepted (period : Nat) (l : List SheetEntry) : Bool :=
  let p := l.filter fun e => e.valid && !e.abs
  p.all (fun e => decide (e.offset < period) && e.every != 0 && decide (e.on < e.every))
    && (p.zip p.tail).all fun x => decide (x.1.offset ≤ x.2.offset)

/-- LOAD_CALL_SHEET (R326): command 0x03. -/
def execLoadCallSheet (tag : BitVec 32) (addr : Word) (count : Nat) (sheet : BitVec 16) (s : State) : Out :=
  event (commandBy s 2 tag fun s =>
    if 1024 < count then hostDone s tag 2
    else
      let l := (List.range count).map fun n => sheetEntryAt s.mem (hostAddr addr + 128 * n)
      if sheetAccepted s.dev.time.period l then
        hostDone (modDev s fun d => { d with sheet := { d.sheet with pending := some (sheet, l) } }) tag 0
      else hostDone s tag 3)

/-- RELEASE_QUEUE (R88, R96): command 0x04 clears the deadlock hold. A number that names no tile core is malformed. -/
def execReleaseQueue (tag : BitVec 32) (core : Nat) (q : Fin 64) (s : State) : Out :=
  event (command s tag fun s =>
    if 2048 ≤ core ∨ core % 4 = 3 then hostDone s tag 2
    else hostDone (modQueue s (.tile core) q fun x => { x with deadHold := false }) tag 0)

/-- END_LAUNCH (R374): command 0x05. -/
def execEndLaunch (tag : BitVec 32) (la : BitVec 16) (s : State) : Out :=
  event (command s tag fun s =>
    match findLaunch s la.toNat with
    | some l => if l.ending then hostDone s tag 3 else beginEnd s la.toNat (some tag)
    | none => hostDone s tag 3)

/-! ### Image maps (R329, R331, R359) -/

/-- The input map at an address. Whether an imaged stream carries an R-TAG is its configuration's, which the command does
not give (log entry 16). -/
def inMapAt (s : State) (a : Nat) : List MapEntry := (List.range 4096).map fun n =>
  inEntry (readN s.mem (a + 16 * n) 8) (readN s.mem (a + 16 * n + 8) 8) ((Config.openWord (s.fresh + n)).getLsbD 0)

/-- The output map at an address. -/
def outMapAt (s : State) (a : Nat) : List MapEntry := (List.range 2048).map fun n =>
  outEntry (readN s.mem (a + 16 * n) 8) (readN s.mem (a + 16 * n + 8) 8)

/-- The 512 frame descriptors that FW7 loads with the output map, whose place no rule gives (log entry 16). -/
def descsFor (s : State) : List FrameDesc := (List.range 512).map fun n =>
  let w (k : Nat) : Nat := (Config.openWord (s.fresh + 4096 + 9 * n + k)).toNat
  ⟨w 0 % 16 % 10, w 0 / 16 % 8, (List.range 8).flatMap fun k => bytesOf (w (k + 1)) 8, w 0 / 2 ^ 8 % 1501⟩

/-- Whether FW7 accepts an input map; a paired package asks for R-TAGs, and for streams that do not share a byte. -/
def inMapAccepted (paired : Bool) (l : List MapEntry) : Bool :=
  let v := l.filter (·.valid)
  v.all (fun m => decide (m.imgOff + m.len ≤ 0x800000) && decide (1 ≤ m.len) && decide (m.len ≤ 1500) && (!paired || m.rtag))
    && (!paired || v.all fun m => v.all fun k =>
      m.stream == k.stream || decide (m.imgOff + m.len ≤ k.imgOff) || decide (k.imgOff + k.len ≤ m.imgOff))

/-- Whether FW7 accepts an output map with its descriptors. -/
def outMapAccepted (l : List MapEntry) (ds : List FrameDesc) : Bool :=
  (l.filter (·.valid)).all fun m =>
    (match ds[m.stream]? with
      | some f => decide (m.payOff + m.len ≤ f.len)
      | none => false)
    && (if m.stamp then m.len == 8 && decide (m.imgOff + 8 ≤ 0x4000) else decide (m.imgOff + m.len ≤ 0x400000))

/-- LOAD_IMAGE_MAPS (R331): command 0x06. -/
def execLoadImageMaps (tag : BitVec 32) (inAddr outAddr : Word) (s : State) : Out :=
  event (commandBy s 7 tag fun s =>
    let m : Maps := ⟨inMapAt s (hostAddr inAddr), outMapAt s (hostAddr outAddr), descsFor s⟩
    let s := { s with fresh := s.fresh + 4096 + 9 * 512 }
    if inMapAccepted s.dev.pair.paired m.inMap && outMapAccepted m.outMap m.descs then
      hostDone (modDev s fun d => { d with image := { d.image with loaded := some m } }) tag 0
    else hostDone s tag 3)

/-! ### The aperture (R375) -/

/-- OPEN_APERTURE (R375): command 0x07. -/
def execOpenAperture (tag : BitVec 32) (asid : BitVec 12) (gib : Nat) (s : State) : Out :=
  event (command s tag fun s =>
    if 1 ≤ gib ∧ gib ≤ 64 then
      hostDone (modDev s fun d => { d with host := { d.host with aperture := some (asid, gib) } }) tag 0
    else hostDone s tag 2)

/-- HOST_APERTURE_ACCESS (R375): an access of the host bridge at an aperture offset; one that is refused returns an
unsupported request. -/
def execHostApertureAccess (a : OutsideAccess) (s : State) : Out :=
  if !outsideFormed a then event s
  else match s.dev.host.aperture with
    | none => event (returned s none)
    | some (asid, gib) =>
      if gib * 2 ^ 30 < a.va + a.size then event (returned s none)
      else
        match outsideAccess s a ((walk s asid a.va (b2n a.store.isSome)).map fun t => (s, t)) false 8 none with
        | .held => event s
        | .refused => event (returned s none)
        | .done t => event t

/-! ### Owners, versions, quotes and images (R393 to R396) -/

/-- CLAIM_OWNERSHIP (R394): command 0x08, which the ROM serves too in recovery mode. -/
def execClaimOwnership (tag : BitVec 32) (key : List Byte) (s : State) : Out :=
  let x := s.dev.sec
  if (!x.booted && x.recovery.isNone) || (x.booted && !fwWorks s 0) then event s
  else if (liveSlot x).isSome || decide (8 ≤ x.owners.length) then event (hostDone s tag 3)
  else
    let dig := Config.shake256 32 (key.take 57)
    event (hostDone (modSec s fun x => { x with owners := x.owners ++ [(dig, false)] }) tag 0)

/-- The public key of the live owner, as the FW0 image of the store holds it. -/
def ownerKey (x : Security) : List Byte := match storedImage x 0 with
  | some b => imgBytes b 0x1C0 57
  | none => []

/-- Whether a signature by the live owner verifies over the digest of a command (R394). -/
def ownerSigned (x : Security) (sig item : List Byte) : Bool :=
  match liveSlot x with
  | some i =>
    some (Config.shake256 32 (ownerKey x)) == (x.owners[i]?).map (·.1)
      && Config.ed448Verify (ownerKey x) (sig.take 114) (Config.shake256 64 item)
  | none => false

/-- kind ‖ serial ‖ slot number. -/
def ownerItem (x : Security) (kind : Nat) : List Byte :=
  bytesOf kind 1 ++ Config.deviceSerial ++ bytesOf ((liveSlot x).getD 0) 1

/-- TRANSFER_OWNERSHIP (R394): command 0x09 revokes the live slot, erases both reels and resets the device. -/
def execTransferOwnership (tag : BitVec 32) (sig : List Byte) (s : State) : Out :=
  event (commandBy s 0 tag fun s =>
    let x := s.dev.sec
    if ownerSigned x sig (ownerItem x 9) then
      let slot := (liveSlot x).getD 0
      let s := modSec (hostDone s tag 0) fun x =>
        { x with owners := x.owners.zipIdx.map fun o => if o.2 = slot then (o.1.1, true) else o.1 }
      coldReset (modDev s fun d => { d with reels := { d.reels with slot0 := none, slot1 := none } })
    else hostDone s tag 3)

/-- ADVANCE_VERSION (R394): command 0x0A, accepted, blows fuses one at a time until the count is SVN. A second one waits for
the first. -/
def execAdvanceVersion (tag : BitVec 32) (svn : BitVec 8) (sig : List Byte) (s : State) : Out :=
  if s.dev.sec.advance.isSome then event s
  else event (commandBy s 0 tag fun s =>
    let x := s.dev.sec
    if ownerSigned x sig (ownerItem x 10 ++ bytesOf svn.toNat 1) && decide (x.svn < svn.toNat) && decide (svn.toNat ≤ 64) then
      modSec s fun x => { x with advance := some (tag, svn.toNat) }
    else hostDone s tag 3)

/-- Whether FW0 blows fuses for an accepted Advance: a power failure stops it with the count that it has reached (R394). -/
def burning (s : State) : Bool := s.dev.sec.advance.isSome && fwWorks s 0 && decide (s.dev.power.failing ≤ 1)

/-- FW0 blows the next fuse of the version counter; the command is complete when the count is its SVN (R394). -/
def burnFuse (s : State) : State :=
  match s.dev.sec.advance with
  | none => s
  | some (tag, n) =>
    let k := s.dev.sec.svn + 1
    if k < n then modSec s fun x => { x with svn := k }
    else hostDone (modSec s fun x => { x with svn := n, advance := none }) tag 0

/-- The structure of a quote (R396). -/
def quoteBytes (s : State) (nonce : List Byte) : List Byte :=
  nonce.take 32 ++ Config.deviceSerial ++ (s.dev.sec.mrs.toList.take 8).flatten ++ bytesOf (fusestatWord s.dev.sec).toNat 8
    ++ bytesOf (takeNo s) 8 ++ Config.identityKey ++ Config.makerCertificate

/-- ATTESTATION_QUOTE (R396): command 0x0B. -/
def execAttestationQuote (tag : BitVec 32) (nonce : List Byte) (addr : Word) (s : State) : Out :=
  event (commandBy s 0 tag fun s =>
    let q := quoteBytes s nonce
    hostDone (storeMem s (hostAddr addr) (q ++ Config.ed448Sign (Config.shake256 64 q))) tag 0)

/-- STORE_IMAGE (R393): command 0x0C; the image runs from the next cold reset. -/
def execStoreImage (tag : BitVec 32) (addr : Word) (size : Nat) (s : State) : Out :=
  event (commandBy s 0 tag fun s =>
    let b := readBytes s.mem (hostAddr addr) size
    if accepted s.dev.sec b then hostDone (modSec s fun x => x.keep (imgNat b 4 1) b) tag 0 else hostDone s tag 3)

/-! ### SPLIT_DOMAIN (R414) -/

/-- Whether the operands of command 0x0D are accepted. -/
def splitAccepted (d : Domains) (n m : Fin 16) (g : Nat) (slices : Word) : Bool :=
  d.expen && n != m && slices != 0 && (slices &&& ~~~d.mask[n]) == 0 && slices != d.mask[n] && d.mask[m] == 0
    && !selected d.sel m.val && decide (g < 480) && domSel d (g * 2 ^ 30) == n.val

/-- DOMSEL of a granule with its nibble replaced. -/
def selWith (d : Domains) (g m : Nat) : Word :=
  let v := (d.sel[Fin.ofNat 30 (g / 16)]).toNat
  let at_ := 4 * (g % 16)
  w64 (v - bits v (at_ + 3) at_ * 2 ^ at_ + m * 2 ^ at_)

/-- SPLIT_DOMAIN (R414): command 0x0D performs three writes, each a domain switch; it waits while a switch is in
progress. -/
def execSplitDomain (tag : BitVec 32) (n m : Fin 16) (g : Nat) (slices : Word) (s : State) : Out :=
  let d := s.dev.dom
  if d.switch.isSome || d.split.isSome then event s
  else event (commandBy s 3 tag fun s =>
    if splitAccepted d n m g slices then
      let l : List DomWrite := [.mask n (d.mask[n] &&& ~~~slices), .mask m slices, .sel (Fin.ofNat 30 (g / 16)) (selWith d g m.val)]
      splitNext (modDev s fun x => { x with dom := { x.dom with split := some (tag, l) } })
    else hostDone s tag 3)

/-! ### The translator (R404) -/

/-- The contexts that wait for a handler of a launch. -/
def requesters (s : State) (la h : Nat) : List Who :=
  (s.dev.requests.filter fun r => r.1 == la && r.2.1 == h).map fun r => r.2.2

/-- The requests for a handler have been answered. -/
def dropRequests (s : State) (la h : Nat) : State :=
  modDev s fun d => { d with requests := d.requests.filter fun r => !(r.1 == la && r.2.1 == h) }

/-- Bytes written through the page table of an address space, as FW1 does; none where an address is not mapped. -/
def writeThrough (asid : BitVec 12) : Nat → List Byte → State → Option State
  | _, [], s => some s
  | va, b :: bs, s => match walk s asid va 1 with
    | .ok t => writeThrough asid (va + 1) bs (homeWrite s (t.ppn * 2 ^ t.shift + va % 2 ^ t.shift) [b] 5 0 none)
    | .error _ => none

/-- Whether the handler table of a live launch names a translation (R405). -/
def named (s : State) (addr : Nat) : Bool := s.dev.launches.any fun l => l.htable != 0 && (List.range 512).any fun k =>
  match walk s l.asid (l.htable + 8 * k) 0 with
  | .ok t => readN s.mem (t.ppn * 2 ^ t.shift + (l.htable + 8 * k) % 2 ^ t.shift) 8 == addr
  | .error _ => false

/-- The bytes of the translations of a heap. -/
def heapUsed (l : List Translation) : Nat := (l.map (·.size)).sum

/-- A heap with room for `n` bytes, from which translations that may be evicted have gone in order; none where they do not
free enough. -/
def evictFor (n : Nat) : List Translation → List Translation → Option (List Translation)
  | l, h =>
    if heapUsed h + n ≤ Config.heapBytes then some h
    else match l with
      | [] => none
      | x :: l => evictFor n l (h.erase x)

/-- FW1 makes room for `n` bytes of code: it evicts the translations used longest ago among those that no live launch's table
names (R405). -/
def makeRoom (s : State) (n : Nat) : Option State :=
  if !fwWorks s 1 then none
  else (evictFor n (s.dev.heap.filter fun x => !named s x.addr) s.dev.heap).map fun h => modDev s fun d => { d with heap := h }

/-- A translation of a handler under its key, with its body at an address, in the heap; one that is there already is used
again (R403). None where there is no room. -/
def keepBody (s : State) (key : List Byte) (h addr : Nat) : Option State :=
  if (translationOf s key h).isSome then some s
  else
    let n := (Config.bodyCode key h).length
    (makeRoom s n).map fun s => modDev s fun d => { d with heap := d.heap ++ [⟨key, h, addr, n⟩] }

/-- A handler of a launch published (R404): its body is in the heap and written whole, FW1's writes are performed at their homes,
which is R222's release, and then its table doubleword holds its address. None where there is no room, or no page for it. -/
def publish (s : State) (l : Launch) (h addr : Nat) : Option State :=
  let old := translationOf s l.key h
  ((keepBody s l.key h addr).bind fun s =>
    if old.isSome then some s else writeThrough l.asid addr (Config.bodyCode l.key h) s).map fun s =>
      dropRequests (writeHandler s l h (old.getD addr)) l.la h

/-- HANDLER_PUBLISH (R404): the translator publishes a handler of a live launch; where it cannot, cause 0x3C goes to every
context that has asked for it and is still live, and the doubleword keeps its value. -/
def execHandlerPublish (la : BitVec 16) (h : BitVec 9) (addr : Option Word) (s : State) : Out :=
  match findLaunch s la.toNat with
  | none => event s
  | some l =>
    if !s.dev.sec.translator || l.htable = 0 then event s
    else match addr.bind fun a => publish s l h.toNat (a.toNat % 2 ^ 48) with
      | some t => event t
      | none =>
        let ws := (requesters s l.la h.toNat).filter fun w => (findActivation s w.ctx w.gen).isSome
        event (dropRequests (ws.foldl (fun s w => raiseAsync s w 0x3C (w64 h.toNat)) s) l.la h.toNat)

/-! ### Modules (R402, R403) -/

/-- The key of a module's translations: the digest of the inputs of Table 18.8, in order (R403). -/
def moduleKey (s : State) (module_ : List Byte) : List Byte :=
  let version := match storedImage s.dev.sec 9 with
    | some b => imgBytes b 8 8
    | none => []
  let f := (features s).toNat
  Config.shake256 32 (module_ ++ version ++ bytesOf (f % 2 ^ 16) 2 ++ bytesOf (bits f 47 32) 2 ++ bytesOf (bits f 63 56) 1)

/-- Whether a binding is what a module's entry becomes. -/
def ModEntry.bindsAs (e : ModEntry) (h : Hand) : Bool :=
  h.ty == e.ty && h.task == e.serial && h.pri == e.pri.val && h.maxage == e.maxage.toNat && h.act == e.budget.toNat

/-- Whether a launch image is what the translator builds of a module (R402): a binding for each of its 1 to 512 entries, and a
handler table of 512 doublewords in a segment mapped read-only. -/
def moduleFits (i : Img) (l : List ModEntry) : Bool :=
  let table := i.at_ 0x20 8
  decide (1 ≤ l.length) && decide (l.length ≤ 512) && l.length == i.hands.length && (l.zip i.hands).all (fun x => x.1.bindsAs x.2)
    && table != 0 && table % 8 == 0
    && i.segs.any fun g => g.perms % 8 == 1 && decide (g.va ≤ table) && decide (table + 4096 ≤ g.va + g.size)

/-- The bodies of a module's eager handlers, which stand in the launch image, are in the heap before the launch is placed
(R404); none where there is no room. -/
def keepEager (s : State) (key : List Byte) (l : List ModEntry) : Option State :=
  l.zipIdx.foldl (fun s x => s.bind fun s => match x.1.eager with
    | some a => keepBody s key x.2 a
    | none => some s) (some s)

/-- A launch command whose module FW1 has translated (R402): the launch image that the translator has built is placed. After a
refused translator or library the launch is refused with status 3 (R392). Where no evictable translation frees enough room for
its code, it fails with status 4, and FW1 takes cause 0x3C (R405). -/
def translated (s : State) (tag : BitVec 32) (module_ : List Byte) (table : List ModEntry) (image : Option Word) : State :=
  commandBy s 2 tag fun s =>
    let full (s : State) : State := let (v, s) := freshWord s; hostDone (raiseDev s 1 0x3C v) tag 4
    if !(s.dev.sec.translator && s.dev.sec.library) then hostDone s tag 3
    else match image with
      | none => full s
      | some a =>
        let key := moduleKey s module_
        if !moduleFits ⟨s.mem, hostAddr a⟩ table then s
        else match keepEager s key table with
          | some t => launchImage t tag a ⟨table, key⟩
          | none => full s

/-! ### The command queues (R374) -/

/-- Command `n` of a queue in host memory. -/
def commandAt (s : State) (q : HostQueue) (n : Nat) : List Byte := readBytes s.mem (q.base + 128 * n) 128

/-- Word `k` of a command. -/
def cmdWord (b : List Byte) (k : Nat) : Nat := natOf ((b.drop (8 * k)).take 8)

/-- What serves a command (Tables 16.8, 18.4 and 20.1), or the status with which FW1 completes one of an unknown kind, or of which
a field does not fit what it names (log entry 142). -/
def commandOf (b : List Byte) : Except Nat (State → Out) :=
  let w := cmdWord b
  let tag := BitVec.ofNat 32 (bits (w 0) 63 32)
  let fits (ok : Bool) (f : State → Out) : Except Nat (State → Out) := if ok then .ok f else .error 2
  match w 0 % 256 with
  | 0x01 => .ok (execLaunch tag (w64 (w 1)))
  | 0x02 => fits (bits (w 1) 63 34 == 0) (execActiveMessage tag (BitVec.ofNat 16 (w 1)) (BitVec.ofNat 16 (bits (w 1) 31 16))
      (Fin.ofNat 4 (bits (w 1) 33 32)) (w64 (w 2)) ((List.range 7).map fun k => w64 (w (3 + k))))
  | 0x03 => fits (decide (w 3 < 2 ^ 16)) (execLoadCallSheet tag (w64 (w 1)) (w 2) (BitVec.ofNat 16 (w 3)))
  | 0x04 => fits (decide (w 2 < 64)) (execReleaseQueue tag (w 1) (Fin.ofNat 64 (w 2)))
  | 0x05 => fits (decide (w 1 < 2 ^ 16)) (execEndLaunch tag (BitVec.ofNat 16 (w 1)))
  | 0x06 => .ok (execLoadImageMaps tag (w64 (w 1)) (w64 (w 2)))
  | 0x07 => fits (decide (w 1 < 2 ^ 12)) (execOpenAperture tag (BitVec.ofNat 12 (w 1)) (w 2))
  | 0x08 => .ok (execClaimOwnership tag ((b.drop 8).take 57))
  | 0x09 => .ok (execTransferOwnership tag ((b.drop 8).take 120))
  | 0x0A => .ok (execAdvanceVersion tag (BitVec.ofNat 8 (bits (w 0) 15 8)) ((b.drop 8).take 120))
  | 0x0B => .ok (execAttestationQuote tag ((b.drop 8).take 32) (w64 (w 5)))
  | 0x0C => .ok (execStoreImage tag (w64 (w 1)) (w 2))
  | 0x0D => fits (bits (w 1) 63 17 == 0) (execSplitDomain tag (Fin.ofNat 16 (w 1 % 16)) (Fin.ofNat 16 (bits (w 1) 7 4)) (bits (w 1) 16 8)
      (w64 (w 2)))
  | _ => .error 1

/-- Whether a command waits for one before it: a split for a domain switch, and an Advance for the fuses of another. -/
def commandWaits (s : State) (kind : Nat) : Bool :=
  (kind == 0x0D && (s.dev.dom.switch.isSome || s.dev.dom.split.isSome)) || (kind == 0x0A && s.dev.sec.advance.isSome)

/-- Whether FW1, or the ROM in recovery mode, reads the next command of a queue. -/
def commandReady (s : State) (n : Fin 16) : Bool :=
  let q := s.dev.host.queues[n]
  let x := s.dev.sec
  ((x.booted && fwWorks s 1 && decide (s.dev.power.failing ≤ 1)) || x.recovery.isSome)
    && q.new != 0 && q.size != 0 && !commandWaits s (cmdWord (commandAt s q q.head) 0 % 256)

/-- The state after an event. -/
def after (s : State) (o : Out) : State := match o with
  | .next t => t
  | _ => s

/-- FW1 reads the next command of a queue, serves it, and writes its completion when it is done (R374). In recovery mode the ROM
completes every command but 0x08 with status 3 (R394). -/
def readCommand (s : State) (n : Fin 16) : State :=
  let q := s.dev.host.queues[n]
  let b := commandAt s q q.head
  let tag := BitVec.ofNat 32 (bits (cmdWord b 0) 63 32)
  let s := modDev s fun d => { d with host := { d.host with
    queues := d.host.queues.set n { q with head := (q.head + 1) % q.size, new := q.new - 1 }
    open_ := d.host.open_ ++ [(tag, n.val)] } }
  match commandOf b with
  | .error st => hostDone s tag (if s.dev.sec.recovery.isSome then 3 else st)
  | .ok f => after s (f s)

/-- The host writes the registers of a command queue: where the queue and its completion queue stand, and how many entries each
has. The queue starts anew (log entry 142). -/
def hostQueue (s : State) (n : Fin 16) (base done size : Nat) : State :=
  let q : HostQueue := ⟨0x400000000000 + base % 2 ^ 44, 0x400000000000 + done % 2 ^ 44, size, 0, 0, 0⟩
  modDev s fun d => { d with host := { d.host with queues := d.host.queues.set n q } }

/-- The host's doorbell write for `k` new commands of a queue. -/
def hostCommands (s : State) (n : Fin 16) (k : Nat) : State :=
  after s (execHostDoorbell n (modDev s fun d => { d with host := { d.host with
    queues := d.host.queues.set n { d.host.queues[n] with new := d.host.queues[n].new + k } } }))

end Sys2Proof.Machine
end

