-- ==== Sys2Proof/Machine/Link.lean ====
section
/-! DEFINITION. The neighbour links of the M-cores (R311 to R314). -/

namespace Sys2Proof.Machine

/-- The port opposite to a port: W and E, N and S (R311). -/
def oppositePort (p : Nat) : Nat :=
  match p with
  | 0 => 1 | 1 => 0 | 2 => 3 | _ => 2
/-- The neighbour M-core to which a port leads (R311). -/
def neighbour (core p : Nat) : Nat :=
  let x := tileX core
  let y := tileY core
  match p with
  | 0 => coreNo (x + 31) y 0
  | 1 => coreNo (x + 1) y 0
  | 2 => coreNo x (y + 15) 0
  | _ => coreNo x (y + 1) 0

/-- The ports of a 4-bit field. -/
def portsOf (m : Nat) : List Nat := (List.range 4).filter fun p => bit m p
/-- The field of a list of ports. -/
def portMask (l : List Nat) : Nat := ((List.range 4).filter l.contains).foldl (fun m p => m + 2 ^ p) 0
/-- The ports that other activations of the core own. -/
def otherPorts (s : State) : List Nat :=
  (s.ctxs.filter fun x => x.1.agent == s.cur.agent && x.1 != s.cur).flatMap fun x => x.2.ports

/-- Registers of ports that are owned no longer read 0 (R312). A load into one of them that is on its way still sends its
vector. -/
def clearPorts (c : Ctx) (l : List Nat) : Ctx :=
  let reg (p : Nat) : FReg := Fin.ofNat 32 (28 + p)
  let loads (p : Nat) : Bool := c.awaits.any fun a => a.what.regs.contains (.f (reg p))
  { c with
    f := (l.filter fun p => !loads p).foldl (fun f p => f.set (reg p) 0) c.f
    portLoads := c.portLoads ++ (l.filter loads).map reg }

/-- LINK.CFG's effect (R314). -/
def linkCfgOp (d a : GReg) (s : State) : Do Done :=
  let v := (rg s a).toNat
  let en := portsOf (v % 16)
  let fwd := (portsOf (v / 16 % 16)).filter en.contains
  if en.any (otherPorts s).contains then ok (wgSlow s d 1)
  else if en.any fun p => !inLaunch s (opCtx s) (neighbour (agentNo s.cur.agent) p) then ok (wgSlow s d 2)
  else
    let s := modCur s fun c =>
      { clearPorts c (c.ports.filter fun p => !en.contains p) with ports := en, forwards := fwd }
    ok (wgSlow s d 0)

/-- LINK.CFG (R314). -/
def execLinkCfg (d a : GReg) (s : State) : Out :=
  issue { aForm (wR 0x34 d a 0 0) with gr := [a], gw := [d], sb := [28, 29, 30, 31] } (linkCfgOp d a) s

/-- LINK.STAT's value (R314). -/
def linkStatus (s : State) : Word :=
  let c := opCtx s
  let co := curCore s
  let counts := (List.finRange 4).foldl (fun n p =>
    n + ((co.linkIn[p]).length % 16 + (co.linkOut[p]).length % 16 * 16) * 2 ^ (16 + 8 * p.val)) 0
  w64 (portMask c.ports + portMask c.forwards * 16 + portMask (otherPorts s) * 256 + counts)

/-- LINK.STAT (R314). -/
def execLinkStat (d : GReg) (s : State) : Out :=
  issue { aForm (wR 0x34 d 0 0 1) with gw := [d] } (fun s => ok (wgSlow s d (linkStatus s))) s

/-- Whether the owner of a port of a core forwards what arrives on it (R313). -/
def forwarding (s : State) (core p : Nat) : Bool :=
  s.ctxs.any fun x => x.1.agent == .tile core && x.2.ports.contains p && x.2.forwards.contains p

/-- Room of a port's output buffer that a load or a tree's result on its way has taken: it pushes its vector when it returns
(R312). -/
def pendingPush (s : State) (core p : Nat) : Nat :=
  let reg : FReg := Fin.ofNat 32 (28 + p)
  (s.ctxs.filter fun x => x.1.agent == .tile core && (x.2.ports.contains p || x.2.portLoads.contains reg)
    && x.2.awaits.any fun a => a.what.regs.contains (.f reg)).length

/-- LINK_VECTOR_ARRIVAL's effect: the oldest vector of an output buffer enters the opposite port of the neighbour,
and where that port forwards, the output buffer of the port beyond, in one step (R311, R313). -/
def linkArrival (s : State) (core p : Nat) : State :=
  let me := Agent.tile core
  let there := Agent.tile (neighbour core p)
  let q := oppositePort p
  let p' : Fin 4 := Fin.ofNat 4 p
  let q' : Fin 4 := Fin.ofNat 4 q
  match (getCore s me).linkOut[p'] with
  | [] => s
  | v :: l =>
    let s' := modCore s me fun co => { co with linkOut := co.linkOut.set p' l }
    let co := getCore s' there
    let fwd := forwarding s (neighbour core p) q
    if cutOff s (.core core) (.core (neighbour core p)) then s
    else if 8 ≤ (co.linkIn[q']).length ∨ (fwd ∧ 8 ≤ (co.linkOut[p']).length + pendingPush s (neighbour core p) p'.val) then s
    else modCore s' there fun co => { co with
      linkIn := co.linkIn.set q' (co.linkIn[q'] ++ [v])
      linkOut := if fwd then co.linkOut.set p' (co.linkOut[p'] ++ [v]) else co.linkOut }

/-- LINK_VECTOR_ARRIVAL (R311): the vector that has travelled from port `n % 4` of core `n / 4`. -/
def execLinkVectorArrival (n : Nat) (s : State) : Out := event (linkArrival s (n / 4 % 2048) (n % 4))

end Sys2Proof.Machine
end

