-- ==== Sys2Proof/Machine/Matrix.lean ====
section
/-! DEFINITION. The matrix engine: MMA, MMA.G, MMROT and the ACC family, and how their operations wait, start and
complete (R271 to R296). -/

namespace Sys2Proof.Machine

/-! ### Operands (R275, R276) -/

/-- Bytes of a row or column entry of a format code (Table 12.2). -/
def entryBytes (code : Nat) : Nat := if code ≤ 5 then mxBytes code else 64
/-- Bytes of an A or a B operand. -/
def operandBytes (code : Nat) (isB : Bool) : Nat := entryBytes code * (if isB then 64 else 32)
/-- The scale of an entry, and its 32 values without it; BF16 and FP16 entries have a scale of 255 (R276). -/
def entryValues (code v : Nat) : Nat × List Num :=
  if code ≤ 5 then (mxScale code v, (mxCodes code v).map (mxElem code))
  else (255, (List.range 32).map fun k => decodeNum (if code = 6 then bf16 else fp16) false (v / 2 ^ (16 * k) % 2 ^ 16))
/-- Whether an entry makes every element that it touches NaN (R278). -/
def entryBad (x : Nat × List Num) : Bool := x.1 == 511 || x.2.any (!·.finite)

/-! ### Accumulator tiles (R69, R277, R278) -/

/-- An element's running sum. -/
def AccTile.sum (t : AccTile) (e : Nat) : BitVec 144 := aget 0 e t.elems
/-- A of an element (R69). -/
def accA (x : BitVec 144) : Int := (x.truncate 128 : BitVec 128).toInt
/-- W of an element (R69). -/
def accW (x : BitVec 144) : Int :=
  ((x.extractLsb' 128 16 : BitVec 16) + (if accA x < 0 then 1 else 0)).toInt
/-- The running sum of a pair A, W. -/
def accOf (a w : Int) : BitVec 144 := BitVec.ofInt 144 (a + w * 2 ^ 128)
/-- An element's sum replaced; a sum of 0 is not listed. -/
def AccTile.put (t : AccTile) (e : Nat) (v : BitVec 144) : AccTile :=
  let rest := t.elems.filter (·.1 != e)
  { t with elems := if v = 0 then rest else (e, v) :: rest }
/-- An element's N. -/
def AccTile.isNan (t : AccTile) (e : Nat) : Bool := t.nans.contains e
/-- N set. -/
def AccTile.setNan (t : AccTile) (e : Nat) : AccTile := { t with nans := addSorted e t.nans }

/-- The exact sum of two dyadic numbers m × 2^e. -/
def dyadicAdd (a b : Int × Int) : Int × Int :=
  let q := min a.2 b.2
  (a.1 * 2 ^ (a.2 - q).toNat + b.1 * 2 ^ (b.2 - q).toNat, q)
/-- The exact sum of products of finite values. -/
def dotProduct (a b : List Num) : Int × Int :=
  (List.zipWith (fun (x y : Num) => match x, y with
    | .fin n m e, .fin n' m' e' =>
      let p : Int := (m : Int) * m'
      (if n = n' then p else -p, e + e')
    | _, _ => ((0, 0) : Int × Int)) a b).foldl dyadicAdd (0, 0)

/-- The contribution of a row and a column to element `e` (R70, R278). -/
def AccTile.add (t : AccTile) (e : Nat) (a b : Nat × List Num) : AccTile :=
  if entryBad a || entryBad b then t.setNan e
  else
    let d := dotProduct a.2 b.2
    let (k, loss) := floorGrid (decide (d.1 < 0)) d.1.natAbs (d.2 + (a.1 + b.1 : Nat) - 510) t.anch
    { t.put e (t.sum e + BitVec.ofInt 144 k) with loss := t.loss || loss }

/-- AccumulateBlock over `n` rows from `first` (R278). -/
def accumulateBlock (t : AccTile) (first n : Nat) (a b : List (Nat × List Num)) : AccTile :=
  ((List.range n).map (first + ·)).foldl (fun t i =>
    b.zipIdx.foldl (fun t y => t.add (64 * i + y.2) ((a[i]?).getD (0, [])) y.1) t) t

/-! ### Where a tile stands (R274) -/

/-- The tile of an operation: its context's, or that of its ended activation. -/
def tileOf (s : State) (o : EngOp) : AccTile :=
  match findActivation s o.who.ctx o.who.gen with
  | some c => c.acc[Fin.ofNat 2 o.acc]
  | none =>
    match (getCore s o.who.ctx.agent).draining.find? fun d => d.ctx == o.who.ctx && d.gen == o.who.gen with
    | some d => d.acc[Fin.ofNat 2 o.acc]
    | none => AccTile.zero
/-- The tile of an operation replaced. -/
def putTile (s : State) (o : EngOp) (t : AccTile) : State :=
  let s := modActivation s o.who.ctx o.who.gen fun c => { c with acc := c.acc.set (Fin.ofNat 2 o.acc) t }
  modCore s o.who.ctx.agent fun co => { co with draining := co.draining.map fun d =>
    if d.ctx = o.who.ctx ∧ d.gen = o.who.gen then { d with acc := d.acc.set (Fin.ofNat 2 o.acc) t } else d }

/-! ### The instructions -/

/-- The hold of a bundle that finds the engine's queue full (R271). -/
def matRoom (s : State) : Do Unit := if 8 ≤ (curCore s).matOps.length then .error (.hold s) else .ok ()

/-- Whether an error that cannot be corrected stands in the accumulator of an operation (R294). -/
def tileBad (s : State) (o : EngOp) : Bool := (getCore s o.who.ctx.agent).badTiles.contains (o.who.ctx, o.who.gen, o.acc)
/-- A tile written whole has no such error any longer. -/
def freshTile (s : State) (o : EngOp) (t : AccTile) : State :=
  modCore (putTile s o t) o.who.ctx.agent fun co =>
    { co with badTiles := co.badTiles.filter (· ≠ (o.who.ctx, o.who.gen, o.acc)) }

/-- The checks of R280 on the format pair and the rings. `g` is the B slots that an MMA.G takes, else 0. -/
def matRings (s : State) (kind ha hb g : Nat) (f : MmaField) : Do Unit :=
  let me := agentNo s.cur.agent
  let a := (curCore s).rings[Fin.ofNat 16 ha]
  let b := (curCore s).rings[Fin.ofNat 16 hb]
  let own (r : Ring) (h : Nat) : Ring := ringOf s (r.ownerCore me) h
  let fa := f.fa.toNat
  let fb := f.fb.toNat
  if (6 ≤ fa ∨ 6 ≤ fb) ∧ fa ≠ fb then engTrap s kind 0x1F 1 0
  else if !a.valid || !(own a ha).valid then engTrap s kind 0x0D 1 ha
  else if !b.valid || !(own b hb).valid then engTrap s kind 0x0D 1 hb
  else if a.cons ≠ 2 then engTrap s kind 0x0D 2 ha
  else if b.cons ≠ 2 then engTrap s kind 0x0D 2 hb
  else if (own a ha).slotBytes < operandBytes fa false then engTrap s kind 0x1F 2 ha
  else if (own b hb).slotBytes < operandBytes fb true then engTrap s kind 0x1F 3 hb
  else if (own b hb).slots < g then engTrap s kind 0x0D 4 hb
  else .ok ()

/-- MMA's effect (R279 to R282). -/
def mmaOp (d : AccReg) (a b : Handle) (f : MmaField) (s : State) : Do Done := do
  matRings s 0 (handle s a.val) (handle s b.val) 0 f
  matRoom s
  let (o, t) := newOp s 0
  ok (acceptOp t { o with acc := d.val, ra := handle s a.val, rb := handle s b.val, mma := f })

/-- MMA (R282). -/
def execMma (d : AccReg) (a b : Handle) (fw : MmaField) (s : State) : Out :=
  issue { xForm (wR 0x32 d a b 0) with aw := [d.val] } (mmaOp d a b fw) s

/-- Groups of an MMA.G. -/
def mmaGroups (f : MmaField) : Nat := f.gm1.toNat + 1

/-- MMA.G's effect (R280, R283). -/
def mmaGOp (d : GReg) (a b : Handle) (f : MmaField) (s : State) : Do Done := do
  let ea := rg s d
  if ea.toNat % 8 ≠ 0 then trap 0x05 ea
  else
    matRings s 1 (handle s a.val) (handle s b.val) (mmaGroups f) f
    let off ← ownRange s ea 8
    matRoom s
    let (o, t) := newOp s 1
    ok (acceptOp t { o with acc := f.acc.toNat, ra := handle s a.val, rb := handle s b.val, src := off, mma := f })

/-- MMA.G (R283). -/
def execMmaG (d : GReg) (a b : Handle) (fw : MmaField) (s : State) : Out :=
  issue { xForm (wR 0x32 d a b 1) with gr := [d] } (mmaGOp d a b fw) s

/-- The A-cores of the west and the north neighbour tiles (R284). -/
def westA (core : Nat) : Nat := coreNo (tileX core + 31) (tileY core) 2
def northA (core : Nat) : Nat := coreNo (tileX core) (tileY core + 15) 2

/-- MMROT's effect (R280, R284). -/
def mmrotOp (d : AccReg) (a b : Handle) (f : MmaField) (s : State) : Do Done := do
  let me := agentNo s.cur.agent
  matRings s 2 (handle s a.val) (handle s b.val) 0 f
  if !inLaunch s (opCtx s) (westA me) then trap 0x08 (reason2 (westA me))
  else if !inLaunch s (opCtx s) (northA me) then trap 0x08 (reason2 (northA me))
  else
    matRoom s
    let (o, t) := newOp s 2
    ok (acceptOp t { o with acc := d.val, ra := handle s a.val, rb := handle s b.val, mma := f })

/-- MMROT (R284). -/
def execMmrot (d : AccReg) (a b : Handle) (fw : MmaField) (s : State) : Out :=
  issue { xForm (wR 0x32 d a b 2) with aw := [d.val] } (mmrotOp d a b fw) s

/-- ACC.CLR's effect (R288). -/
def accClrOp (d : AccReg) (s : State) : Do Done := do
  matRoom s
  let (o, s) := newOp s 3
  ok (acceptOp s { o with acc := d.val })

/-- ACC.CLR (R288). -/
def execAccClr (d : AccReg) (s : State) : Out :=
  issue { aForm (wR 0x33 d 0 0 0) with aw := [d.val] } (accClrOp d) s

/-- ACC.ANCH's effect (R288). -/
def accAnchOp (d : AccReg) (a : GReg) (s : State) : Do Done := do
  matRoom s
  let (o, s) := newOp s 4
  ok (acceptOp s { o with acc := d.val, seed := rg s a })

/-- ACC.ANCH (R288). -/
def execAccAnch (d : AccReg) (a : GReg) (s : State) : Out :=
  issue { aForm (wR 0x33 d a 0 1) with gr := [a], aw := [d.val] } (accAnchOp d a) s

/-- Bytes of an accumulator layout (Table 12.7). -/
def accBytes (fmt : Nat) : Nat :=
  match fmt with
  | 0 => 8192 | 1 => 4096 | 2 => 2048 | 3 => 2048 | 15 => 65536
  | c => 64 * mxBytes (c - 8)

/-- The handle or local offset of ACC.RD's or ACC.WR's data, checked (R289). -/
def accTarget (s : State) (kind : Nat) (a : GReg) (op : RingOp) (f : AccField) : Do Nat :=
  let n := accBytes f.fmt.toNat
  if f.ring then do
    let h := handle s a.val
    engRing s kind h op 2 n 2
    .ok h
  else if (rg s a).toNat % 64 ≠ 0 then trap 0x05 (rg s a)
  else ownRange s (rg s a) n

/-- ACC.RD's effect (R289, R290). -/
def accRdOp (d : AccReg) (a b : GReg) (f : AccField) (s : State) : Do Done := do
  let dst ← accTarget s 5 a .waite f
  matRoom s
  let (o, s) := newOp s 5
  ok (acceptOp s { o with acc := d.val, dst := dst, seed := if f.sr then rg s b else 0, accF := f })

/-- ACC.RD (R290). -/
def execAccRd (d : AccReg) (a b : GReg) (fw : AccField) (s : State) : Out :=
  issue { xForm (wR 0x33 d a b 2) with gr := (if fw.ring then [] else [a]) ++ [b] } (accRdOp d a b fw) s

/-- ACC.WR's effect (R289, R291). -/
def accWrOp (d : AccReg) (a : GReg) (f : AccField) (s : State) : Do Done := do
  let src ← accTarget s 6 a .waitf f
  matRoom s
  let (o, s) := newOp s 6
  ok (acceptOp s { o with acc := d.val, src := src, accF := f })

/-- ACC.WR (R291). -/
def execAccWr (d : AccReg) (a : GReg) (fw : AccField) (s : State) : Out :=
  issue { xForm (wR 0x33 d a 0 3) with gr := (if fw.ring then [] else [a]), aw := [d.val] } (accWrOp d a fw) s

/-- ACC.STAT's effect (R288). -/
def accStatOp (d : GReg) (a : AccReg) (s : State) : Do Done := do
  matRoom s
  let (o, s) := newOp s 7
  let (id, s) := awaitReg s d
  ok (acceptOp s { o with id := id, who := { o.who with id := id }, acc := a.val })

/-- ACC.STAT (R288). -/
def execAccStat (d : GReg) (a : AccReg) (s : State) : Out :=
  issue { aForm (wR 0x33 d a 0 4) with gw := [d] } (accStatOp d a) s

/-! ### Waiting (R281, R283, R285) -/

/-- Whether an operation is a multiply. -/
def EngOp.multiply (o : EngOp) : Bool := decide (o.kind ≤ 2)
/-- B slots that an operation takes. -/
def needB (o : EngOp) : Nat := if !o.mma.takeB then 0 else if o.kind = 1 then mmaGroups o.mma else 1
/-- Slots that an engine holds of a ring, most recent first. -/
def heldSlots (co : Core) (h : Nat) : List Nat := aget [] h co.engHeld
/-- The slots that an engine holds of a ring replaced. -/
def setHeld (s : State) (core h : Nat) (l : List Nat) : State :=
  modCore s (.tile core) fun co => { co with engHeld := aset h l co.engHeld }

/-- Step 1 of R281. -/
def matBarrier (s : State) (core : Nat) (o : EngOp) : State :=
  let b := barOf s core o.mma.bar.toNat
  if !o.mma.ben then putOp s { o with phase := .past }
  else if !b.live then faultOp121 s o 0x09 1 0
  else putOp s { o with phase := if b.phase = o.mma.bph then .atBarrier else .past }

/-- Whether a neighbour's ring is a rotation ring with slots of `n` bytes (R285). -/
def rotates (s : State) (core h n : Nat) : Bool :=
  let r := ringOf s core h
  r.valid && r.prod == 2 && r.cons == 2 && decide (n ≤ r.slotBytes)

/-- The join of the waiters of every ring from which an operation takes (R281). -/
def matAsk (s : State) (core : Nat) (o : EngOp) : State :=
  let ag := Agent.tile core
  let s := if o.mma.takeA then engAsk s (ringOwner s core o.ra) o.ra (.matrix ag o.id false) .waitf 1 else s
  let s := if o.mma.takeB then engAsk s (ringOwner s core o.rb) o.rb (.matrix ag o.id true) .waitf (needB o) else s
  putOp s { o with phase := .atRings }

/-- Step 2 of R281, after the list of MMA.G and MMROT's probes; none while it waits. A ring whose banks a reshape has taken
gives cause 0x27 (R141, R294). -/
def matSlots (s : State) (core : Nat) (o : EngOp) : Option State :=
  let fa := o.mma.fa.toNat
  let fb := o.mma.fb.toNat
  let co := getCore s (.tile core)
  let missing (take : Bool) (h : Nat) : Bool := !take && (heldSlots co h).isEmpty
  let join (o : EngOp) : State :=
    if missing o.mma.takeA o.ra then faultOp121 s o 0x0D 3 o.ra
    else if missing o.mma.takeB o.rb then faultOp121 s o 0x0D 3 o.rb
    else if o.mma.takeA && ringLost s core o.ra o.id then faultOp121 s o 0x27 0 o.ra
    else if o.mma.takeB && ringLost s core o.rb o.id then faultOp121 s o 0x27 0 o.rb
    else matAsk s core o
  match o.kind with
  | 1 =>
    match rangeStill s o o.src 8 with
    | .later => none
    | .no => some (faultOp121 s o 0x27 0 0)
    | .yes =>
      let a := localAddr core o.src
      if (failedIn s a 8).isSome then some (faultOp121 s o 0x2C 0 0)
      else
        let rows : List Nat := (readBytes s.mem a (mmaGroups o.mma)).map fun b => b.toNat
        if 32 < rows.foldl (fun n x => n + x) (0 : Nat) then some (faultOp121 s o 0x1E 1 0)
        else some (join { o with rows := rows })
  | 2 =>
    if !rotates s (westA core) o.ra (operandBytes fa false) then some (faultOp121 s o 0x0D 1 o.ra)
    else if !rotates s (northA core) o.rb (operandBytes fb true) then some (faultOp121 s o 0x0D 1 o.rb)
    else some (join o)
  | _ => some (join o)

/-- An ACC operation's place among its ring's waiters. A ring whose banks a reshape has taken gives cause 0x27 (R141, R294). -/
def accAsk (s : State) (core : Nat) (o : EngOp) : State :=
  let ag := Agent.tile core
  let ring := if o.kind = 5 then o.dst else o.src
  if o.accF.ring && ringLost s core ring o.id then faultOp121 s o 0x27 0 ring
  else
  let s :=
    if !o.accF.ring then s
    else if o.kind = 5 then engAsk s (ringOwner s core o.dst) o.dst (.matrix ag o.id false) .waite 1
    else engAsk s (ringOwner s core o.src) o.src (.matrix ag o.id false) .waitf 1
  putOp s { o with phase := .atRings }

/-- Whether an operation has been granted every slot that it takes. -/
def matGranted (o : EngOp) : Bool :=
  if o.multiply then (!o.mma.takeA || !o.slotsA.isEmpty) && decide (needB o ≤ o.slotsB.length)
  else !o.accF.ring || !o.slotsA.isEmpty

/-- Whether two operations act on one tile. -/
def EngOp.sameTile (o p : EngOp) : Bool := o.sameAct p && o.acc == p.acc

/-- Whether an operation may start now (R272, R285). -/
def matReady (s : State) (core : Nat) (l : List EngOp) (o : EngOp) : Bool :=
  o.phase == .atRings && nextOfAct l o && matGranted o && !opKilled s o
    && !(l.any fun p => p.started && (p.multiply == o.multiply || p.sameTile o))
    && (o.multiply || !(l.any fun p => p.sameTile o && decide (p.id < o.id)))
    && (o.kind != 2 || (getCore s (.tile core)).forwards.isEmpty)

/-! ### Multiplying (R278, R281 to R285) -/

/-- The entries of a slot, as stored. -/
def slotEntries (s : State) (a code n : Nat) : List Nat :=
  (List.range n).map fun i => readN s.mem (a + i * entryBytes code) (entryBytes code)

/-- The first fault of the contents of some entries (R281). -/
def entriesFault (code : Nat) (l : List Nat) : Option Nat :=
  if code ≤ 5 then l.findSome? (mxCheck code) else none

/-- A multiply's slots leave its hands or stay in the engine's (R281): the slots of one ring that it has used. -/
def leaveSlots (s : State) (core h : Nat) (take rel : Bool) (slots : List Nat) : State :=
  let held := heldSlots (getCore s (.tile core)) h
  let o := ringOwner s core h
  match take, rel with
  | true, true => engAdvance s o h .advc slots.length
  | true, false => setHeld s core h (slots.reverse ++ held)
  | false, true => engAdvance (setHeld s core h held.tail) o h .advc 1
  | false, false => s

/-- A fault of a multiply that holds its slots: those that it has taken are released where its flags say so (R273). -/
def mmaFault (s : State) (core : Nat) (o : EngOp) (code reason ring : Nat) : State :=
  let s := if o.mma.takeA then leaveSlots s core o.ra true o.mma.relA o.slotsA else s
  let s := if o.mma.takeB then leaveSlots s core o.rb true o.mma.relB o.slotsB else s
  faultOp121 s o code reason ring

/-- The groups of a multiply: for each, the first row, the rows, and the number of its B slot. -/
def rowGroups : List Nat → Nat → Nat → List (Nat × Nat × Nat)
  | [], _, _ => []
  | n :: l, first, g => (first, n, g) :: rowGroups l (first + n) (g + 1)

/-- The start of a multiply. -/
def mmaRun (s : State) (core : Nat) (o : EngOp) : State :=
  let co := getCore s (.tile core)
  let fa := o.mma.fa.toNat
  let fb := o.mma.fb.toNat
  let oa := ringOwner s core o.ra
  let ob := ringOwner s core o.rb
  let slotsA := if o.mma.takeA then o.slotsA else (heldSlots co o.ra).take 1
  let slotsB := if o.mma.takeB then o.slotsB else (heldSlots co o.rb).take 1
  let aAddr := (ringOf s oa o.ra).slotAddr oa (slotsA.headD 0)
  let bAddr (g : Nat) : Nat := (ringOf s ob o.rb).slotAddr ob ((slotsB[g]?).getD 0)
  let groups := (rowGroups (if o.kind = 1 then o.rows else [32]) 0 0).filter fun g => g.2.1 != 0
  let used := groups.foldl (fun n g => n + g.2.1) 0
  let ae := slotEntries s aAddr fa used
  let be := groups.map fun g => (g, slotEntries s (bAddr g.2.2) fb 64)
  if slotsA = [] then mmaFault s core o 0x0D 3 o.ra
  else if slotsB = [] then mmaFault s core o 0x0D 3 o.rb
  else if slotStill s oa o.id aAddr (operandBytes fa false) == .no then mmaFault s core o 0x27 0 o.ra
  else if groups.any fun g => slotStill s ob o.id (bAddr g.2.2) (operandBytes fb true) == .no then mmaFault s core o 0x27 0 o.rb
  else if tileBad s o then mmaFault s core o 0x2C 0 0
  else if (failedIn s aAddr (operandBytes fa false)).isSome then mmaFault s core o 0x2C 0 o.ra
  else if groups.any fun g => (failedIn s (bAddr g.2.2) (operandBytes fb true)).isSome then mmaFault s core o 0x2C 0 o.rb
  else
    match entriesFault fa ae, be.findSome? fun x => entriesFault fb x.2 with
    | some reason, _ => mmaFault s core o 0x1F reason o.ra
    | none, some reason => mmaFault s core o 0x1F reason o.rb
    | none, none =>
      let a := ae.map (entryValues fa)
      let t := be.foldl (fun t x => accumulateBlock t x.1.1 x.1.2.1 a (x.2.map (entryValues fb))) (tileOf s o)
      let s := putOp (putTile s o t) { o with phase := .running }
      let s :=
        if o.kind ≠ 2 then s
        else
          let fwd (a n h dest : Nat) : Forward := ⟨readBytes s.mem a n, h, dest, o, false, none⟩
          modCore s (.tile core) fun co => { co with forwards :=
            [(false, fwd aAddr (operandBytes fa false) o.ra (westA core)),
             (true, fwd (bAddr 0) (operandBytes fb true) o.rb (northA core))] }
      leaveSlots (leaveSlots s core o.ra o.mma.takeA o.mma.relA slotsA) core o.rb o.mma.takeB o.mma.relB slotsB

/-! ### Reading and loading a tile (R288 to R291) -/

/-- ACC.STAT's value (Table 12.8). -/
def accStatus (t : AccTile) : Word :=
  w64 (b2n (!t.nans.isEmpty) * 2 ^ 63 + b2n (t.elems.any fun e => accW e.2 != 0) * 2 ^ 62 + b2n t.wrap * 2 ^ 61
    + b2n t.loss * 2 ^ 60 + (t.anch % 2 ^ 16).toNat)

/-- The value of an element as a read rounds it, and its own flags (R72, R290). -/
def accNum (t : AccTile) (e : Nat) : Num × FpFlags :=
  let x := t.sum e
  if t.isNan e then (.nan false false 0, 8)
  else if accW x ≠ 0 then
    match decodeNum fp32 false fp32.maxCode with
    | .fin _ m g => (.fin (decide (accW x < 0)) m g, 5)
    | y => (y, 5)
  else (.fin (decide (accA x < 0)) (accA x).natAbs t.anch, 0)

/-- The number format of layouts 0 to 3 (Table 12.7). -/
def accFmt (fmt : Nat) : Fmt :=
  match fmt with
  | 0 => fp32 | 1 => bf16 | 2 => e4m3 | _ => e5m2

/-- An element in layouts 0 to 3. -/
def accElem (t : AccTile) (f : Fmt) (mode : RMode) (e : Nat) : Nat × FpFlags :=
  let x := t.sum e
  if t.isNan e then (f.canon, 8)
  else if accW x ≠ 0 then (b2n (decide (accW x < 0)) * 2 ^ f.low + f.maxCode, 5)
  else roundFin f mode false false (decide (accA x < 0)) (accA x).natAbs t.anch

/-- Whether a read of a tile finds a wrap count that is not 0 (R71, R290). -/
def accWrapped (t : AccTile) : Bool := t.elems.any fun e => accW e.2 != 0 && !t.isNan e.1

/-- A tile in a layout: its bytes and the flags (R290). DESIGN CHOICE: an MX9 block that holds a NaN element and one
that saturates gives invalid, overflow and inexact, as R290 sets them by element; R60 gives such a block invalid alone.
DESIGN CHOICE: a read in FMT 15, which saturates nothing, sets WRAP and gives overflow and inexact where a wrap count is not
0, since R290's pseudocode draws no line between the formats; R71 and Table 3.5 speak of a read that saturates (log entry
134). -/
def accData (t : AccTile) (fmt : Nat) (mode : Nat → RMode) : List Byte × FpFlags :=
  if fmt ≤ 3 then
    let n := accBytes fmt / 2048
    let r := (List.range 2048).map fun e => accElem t (accFmt fmt) (mode e) e
    (r.flatMap fun x => bytesOf x.1 n, allFlags (r.map (·.2)))
  else if fmt = 15 then
    ((List.range 2048).flatMap fun e =>
      let x := t.sum e
      bytesOf (x.toNat % 2 ^ 128 + (accW x % 2 ^ 16).toNat * 2 ^ 128 + b2n (t.isNan e) * 2 ^ 144) 32,
      (if t.nans.isEmpty then 0 else 8) ||| (if accWrapped t then 5 else 0))
  else
    let r := (List.range 64).map fun b =>
      let v := (List.range 32).map fun k => accNum t (32 * b + k)
      let x := scaleForBlock (fmt - 8) (fun k => mode (32 * b + k)) (v.map (·.1))
      (x.1, x.2 ||| allFlags (v.map (·.2)))
    (r.flatMap fun x => bytesOf x.1 (mxBytes (fmt - 8)), allFlags (r.map (·.2)))


/-- The home address of ACC.RD's or ACC.WR's data. -/
def accAddr (s : State) (core : Nat) (o : EngOp) (x : Nat) : Nat :=
  if o.accF.ring then
    let w := ringOwner s core x
    (ringOf s w x).slotAddr w (o.slotsA.headD 0)
  else localAddr core x

/-- The start of ACC.RD. -/
def accRdRun (s : State) (core : Nat) (o : EngOp) : State :=
  let fmt := o.accF.fmt.toNat
  let n := accBytes fmt
  let a := accAddr s core o o.dst
  match if o.accF.ring then slotStill s (ringOwner s core o.dst) o.id a n else rangeStill s o o.dst n with
  | .later => s
  | .no => faultOp121 s o 0x27 0 (if o.accF.ring then o.dst else 0)
  | .yes =>
    let owner := ringOwner s core o.dst
    if o.accF.ring && !engWindow s core owner (a - localAddr owner 0) n o.launch true then
      faultOp121 s o 0x27 0 o.dst
    else if tileBad s o then faultOp121 s o 0x2C 0 0
    else
      let t := tileOf s o
      let r := accData t fmt (seedMode o.accF.sr o.seed)
      let wrapped := accWrapped t
      let s := engPut s (opSrc core 2 o (if o.accF.ring then o.dst else 0)) a r.1
      let s := putTile s o { t with wrap := t.wrap || wrapped }
      putOp s { o with phase := .running, bytes := n, flags := r.2, wrapped := wrapped }

/-- A tile with element `e` loaded from its bytes (R291): the tile and the flags. -/
def loadElem (m : List Host.Cell) (a fmt : Nat) (x : AccTile × FpFlags) (e : Nat) : AccTile × FpFlags :=
  let t := x.1
  if fmt = 15 then
    let v := readN m (a + 32 * e) 32
    let w : Int := (BitVec.ofNat 16 (v / 2 ^ 128)).toInt
    let t := t.put e (accOf (BitVec.ofNat 128 v).toInt w)
    ({ t with nans := if bit v 144 then addSorted e t.nans else t.nans.filter (· ≠ e) }, x.2)
  else
    let v := readN m (a + 4 * e) 4
    let r := floorToGrid v t.anch
    let bad := !(decodeNum fp32 false v).finite
    let t := t.put e (accOf (if bad then 0 else r.1) 0)
    ({ t with
      nans := if bad then addSorted e t.nans else t.nans.filter (· ≠ e)
      loss := t.loss || r.2.2 }, x.2 ||| r.2.1)

/-- The start of ACC.WR. -/
def accWrRun (s : State) (core : Nat) (o : EngOp) : State :=
  let fmt := o.accF.fmt.toNat
  let n := accBytes fmt
  let a := accAddr s core o o.src
  match if o.accF.ring then slotStill s (ringOwner s core o.src) o.id a n else rangeStill s o o.src n with
  | .later => s
  | .no => faultOp121 s o 0x27 0 (if o.accF.ring then o.src else 0)
  | .yes =>
    if (failedIn s a n).isSome then faultOp121 s o 0x2C 0 (if o.accF.ring then o.src else 0)
    else
      let r := (List.range 2048).foldl (loadElem s.mem a fmt) (tileOf s o, 0)
      putOp (freshTile s o r.1) { o with phase := .running, bytes := n, flags := r.2 }

/-- The start of an operation. -/
def matRun (s : State) (core : Nat) (o : EngOp) : State :=
  let t := tileOf s o
  match o.kind with
  | 3 => putOp (freshTile s o { AccTile.zero with anch := t.anch }) { o with phase := .running }
  | 4 => putOp (freshTile s o { AccTile.zero with anch := (BitVec.ofNat 16 o.seed.toNat).toInt }) { o with phase := .running }
  | 5 => accRdRun s core o
  | 6 => accWrRun s core o
  | 7 => if tileBad s o then faultOp121 s o 0x2C 0 0 else putOp s { o with phase := .running, value := accStatus t }
  | _ => mmaRun s core o

/-! ### The events -/

/-- What the engine does next for the operation at index `i`: its wait at a barrier, its place at its rings, or its
start, which goes to the oldest operation that is ready (R272). -/
def matStep (s : State) (core i : Nat) : State :=
  let l := (getCore s (.tile core)).matOps
  match l[i]? with
  | none => s
  | some o =>
    if o.started then s
    else if opKilled s o then discardOp s o
    else if !nextOfAct l o then s
    else
      match o.phase with
      | .queued => if o.multiply then matBarrier s core o else accAsk s core o
      | .past => (matSlots s core o).getD s
      | .atRings =>
        if matReady s core l o && !((l.take i).any (matReady s core l)) then matRun s core o else s
      | _ => s

/-- MATRIX_OP_START (R281). -/
def execMatrixOpStart (ag : Agent) (i : Nat) (s : State) : Out :=
  match ag with
  | .fw _ => event s
  | .tile n => event (matStep s n i)

/-- Whether a read that saturates on a wrap count raises cause 0x20: FPCTL.AWE is 1, or was when the activation ended (R71,
R274). -/
def wrapTraps (s : State) (o : EngOp) : Bool :=
  o.wrapped && match findActivation s o.who.ctx o.who.gen with
    | some c => (c.fpctlAt o).getLsbD 20
    | none => (getCore s o.who.ctx.agent).draining.any fun d =>
        d.ctx == o.who.ctx && d.gen == o.who.gen && d.awe.contains o.id

/-- Cause 0x20 of a read that saturates: each such read sets WRAP and raises it, whether WRAP was set before or not (R66, R71,
R290; log entry 133). An activation that has ended leaves it to FW4's record (R274). -/
def wrapCause (s : State) (o : EngOp) (traps : Bool) : State :=
  if traps then raiseAsync s o.who 0x20 (engTval 0 0 (if o.accF.ring then o.dst else 0) o.kind o.opno.toNat) else s

/-- The completion of a started operation: ring slots are published or released, the barrier event and the flags
follow, and ACC.STAT's result lands (R273, R288 to R291). -/
def matDone (s : State) (core : Nat) (o : EngOp) : State :=
  let traps := wrapTraps s o
  let s := dropOp s o
  if o.kind = 7 then landReply s o.who o.id o.value.toNat
  else if o.kind = 5 ∨ o.kind = 6 then
    let s :=
      if !o.accF.ring then s
      else if o.kind = 5 then engAdvance s (ringOwner s core o.dst) o.dst .advp 1
      else engAdvance s (ringOwner s core o.src) o.src .advc 1
    let s := opBar s core o.accF.ben o.accF.bar.toNat o
    wrapCause (opFlags s o) o traps
  else s

/-- MATRIX_OP_COMPLETE (R273). -/
def execMatrixOpComplete (ag : Agent) (i : Nat) (s : State) : Out :=
  match ag with
  | .fw _ => event s
  | .tile n =>
    match (getCore s ag).matOps[i]? with
    | some o => if o.started then event (matDone s n o) else event s
    | none => event s

/-- MMROT_FORWARD's effect: the forward claims a slot of the neighbour's ring, and once it is granted writes and
publishes it (R285). A neighbour whose windows or reshape refuse the write leaves the slot claimed (R141, R237). -/
def forwardStep (s : State) (ag : Agent) (isB : Bool) : State :=
  match (getCore s ag).forwards.find? (·.1 == isB) with
  | none => s
  | some (_, f) =>
    let others := (getCore s ag).forwards.filter (·.1 != isB)
    match f.slot with
    | none =>
      if f.asked then s
      else
        let s := modCore s ag fun co => { co with forwards := (isB, { f with asked := true }) :: others }
        engAsk s f.dest f.ring (.forward ag isB) .waite 1
    | some i =>
      let off := (ringOf s f.dest f.ring).slotOff i
      let n := f.data.length
      let gone (s : State) : State := modCore s ag fun co => { co with forwards := others }
      if !engWindow s (agentNo ag) f.dest off n f.op.launch true || engRole (getCore s (.tile f.dest)) f.op.id off n == .no then
        faultOp121 (gone s) f.op 0x27 0 f.ring
      else
        match overVn2 s (nodeOf ag) (.core f.dest) with
        | none => s
        | some s =>
          let s := engPut s (opSrc (agentNo ag) 2 f.op f.ring) (localAddr f.dest off) f.data
          gone (engAdvance s f.dest f.ring .advp 1)

/-- MMROT_FORWARD (R285). -/
def execMmrotForward (ag : Agent) (isB : Bool) (s : State) : Out := event (forwardStep s ag isB)

/-! ### Rings at their owner (R261) -/

/-- A slot granted to an operation of an engine. -/
def grantOp (s : State) (ag : Agent) (id : Nat) (isB : Bool) (slots : List Nat) : State :=
  let put (l : List EngOp) : List EngOp := l.map fun o =>
    if o.id = id then (if isB then { o with slotsB := slots } else { o with slotsA := slots }) else o
  modCore s ag fun co => { co with matOps := put co.matOps, convOps := put co.convOps }

/-- The first destination of a transfer that waits for a slot of a ring's owner receives it. -/
def grantDest (s : State) (owner h slot : Nat) : List XferDest → List XferDest
  | [] => []
  | d :: l =>
    match d.core with
    | some c =>
      if d.asked && d.slot.isNone && ringOwner s c h == owner then { d with slot := some slot } :: l
      else d :: grantDest s owner h slot l
    | none => d :: grantDest s owner h slot l

/-- A waiter of a ring is granted `k` slots from `i`. -/
def grantUser (s : State) (owner h i k : Nat) (u : RingUser) : State :=
  let r := ringOf s owner h
  let slots := (List.range k).map fun j => (i + j) % Nat.max 1 r.slots
  match u with
  | .ctx w => ownerReply s owner w (r.slotAddr owner i)
  | .matrix ag id isB => grantOp s ag id isB slots
  | .conv ag id isDst => grantOp s ag id isDst slots
  | .copy ag id => modCore s ag fun co => { co with xfers := co.xfers.map fun x =>
      if x.id = id then { x with dests := grantDest s owner h i x.dests } else x }
  | .forward ag isB => modCore s ag fun co => { co with forwards := co.forwards.map fun f =>
      if f.1 = isB then (f.1, { f.2 with slot := some i }) else f }

/-- The first waiter of a ring that can proceed: the first of its kind, with enough slots. -/
def readyWaiter (r : Ring) : List RingWaiter → List RingWaiter → Option (RingWaiter × Nat × Ring)
  | _, [] => none
  | before, w :: l =>
    if before.any (·.op == w.op) then readyWaiter r (before ++ [w]) l
    else
      match r.grab w.op w.k with
      | some (i, r') => some (w, i, { r' with waiters := before ++ l })
      | none => readyWaiter r (before ++ [w]) l

/-- The first packet for a ring that has reached its owner. -/
def ringPacket (s : State) (owner h : Nat) : Option Nat :=
  (List.range s.net.length).find? fun n =>
    isFirst s n && match s.net[n]? with
      | some ⟨_, .core o, _, .ring _ _ _ ring _, _, _⟩ => o == owner && ring == h
      | _ => false

/-- RING_OPERATION_AT_OWNER's effect: a waiter that can proceed is granted its slots; else the next operation that
has reached the owner is performed. -/
def ringEvent (s : State) (owner h : Nat) : State :=
  let r := ringOf s owner h
  match readyWaiter r [] r.waiters with
  | some (w, i, r') => grantUser (putRing s owner h r') owner h i w.k w.user
  | none =>
    match (ringPacket s owner h).bind (takePkt s) with
    | some (⟨_, _, _, .ring w op _ _ k, _, _⟩, t) => ringAtOwner t owner h w op k
    | _ => s

/-- RING_OPERATION_AT_OWNER (R261). -/
def execRingOperationAtOwner (ag : Agent) (h : Handle) (s : State) : Out :=
  match ag with
  | .fw _ => event s
  | .tile n => event (ringEvent s n h.val)

end Sys2Proof.Machine
end

