-- ==== Sys2Proof/Machine/Old.lean ====
section
/-! DEFINITION. The deprecated forms of Cricy-1: their expansion into micro-steps (R46, R47). -/

namespace Sys2Proof.Machine

/-- A deprecated form: cause 0x3E when STATUS.COMPAT is 0 (R46). -/
def issueOld (f : Form) (body : Effect) (s : State) : Out :=
  if (opCtx s).st 9 then issue f body s else .next (raisePrecise f s 0x3E (encTval f.word 0 false))

/-- TVAL of cause 0x26 for a fault inside an expansion (R47). -/
def stepTval (i code : Nat) (tval : Word) : Word := w64 (i + code * 2 ^ 8 + tval.toNat % 2 ^ 48 * 2 ^ 16)

/-- The micro-steps of the issuing bundle that have been committed: they are kept beside the requests of the
context under the number 0, until the bundle commits or the context takes a trap. -/
def stepsDone (s : State) : Nat :=
  match (opCtx s).grants.find? fun g => g.pc == (opCtx s).pc && g.id == 0 with
  | some g => (g.value.getD 0).toNat
  | none => 0

/-- The state with the number of committed micro-steps noted. -/
def noteSteps (s : State) (n : Nat) : State :=
  modCur s fun c => { c with grants := ⟨c.pc, 0, some (w64 n)⟩ :: c.grants.filter fun g => !(g.pc == c.pc && g.id == 0) }

/-- `n` micro-steps from step `i`. A step that must wait, and a fault, leave the steps before them committed
(R47); a fault is raised by the attempt that begins with its step. -/
def microSteps (step : Nat → State → Do State) (start : Nat) : Nat → Nat → State → Do State
  | 0, _, s => .ok s
  | n + 1, i, s =>
    match step i s with
    | .ok s => microSteps step start n (i + 1) s
    | .error (.trap code tval) =>
      if i = start then trap 0x26 (stepTval i code tval) else .error (.hold (noteSteps s i))
    | .error (.hold s) => .error (.hold (noteSteps s i))
    | .error e => .error e

/-- LDM's effect: micro-step i loads g[d + i] from base + 8i (R46). -/
def ldmOp (d a : GReg) (n : Nat) (s : State) : Do Done := do
  let k := stepsDone s
  let base := rg s a
  let s ← microSteps (fun i s => load s (base + w64 (8 * i)) 8 (.load (Fin.ofNat 32 (d.val + i)) 3)) k (n - k) k s
  ok s

/-- STM's effect: micro-step i stores g[d + i] at base + 8i (R46). -/
def stmOp (r a : GReg) (n : Nat) (s : State) : Do Done := do
  let k := stepsDone s
  let base := rg s a
  let s ← microSteps (fun i s =>
    store s (base + w64 (8 * i)) (bytesOf (rg s (Fin.ofNat 32 (r.val + i))).toNat 8)) k (n - k) k s
  ok s

/-- VDOT.I8's sum (R46). -/
def vdot8 (x y : Word) : Word :=
  i64 ((List.range 8).foldl (fun t i =>
    t + (x.extractLsb' (8 * i) 8).toInt * (y.extractLsb' (8 * i) 8).toInt) 0)

/-- LDM (R46). -/
def execLdm (d a : GReg) (n1 : Fin 32) (s : State) : Out :=
  issueOld { formDAB 0x27 0 d a n1 with gr := [a], gw := regRange d (n1.val + 1) } (ldmOp d a (n1.val + 1)) s

/-- STM (R46). -/
def execStm (r a : GReg) (n1 : Fin 32) (s : State) : Out :=
  issueOld { formDAB 0x27 1 r a n1 with gr := a :: regRange r (n1.val + 1), gw := [] } (stmOp r a (n1.val + 1)) s

/-- VDOT.I8 (R46). -/
def execVdotI8 (d a b : GReg) (s : State) : Out :=
  issueOld (formDAB 0x27 2 d a b) (fun s => ok (wgSlow s d (vdot8 (rg s a) (rg s b)))) s

/-- MACA, modulo 2^64 (R46). -/
def execMaca (d a b : GReg) (s : State) : Out :=
  issueOld { formDAB 0x27 3 d a b with gr := [a, b, d] }
    (fun s => ok (wgSlow s d (rg s d + rg s a * rg s b))) s

end Sys2Proof.Machine
end

