-- ==== Sys2Proof/Machine/Reshape.lean ====
section
/-! DEFINITION. How an accepted reshape of the SRAM pool runs to its end: the handshakes of Table 6.6 in their order (R136, R139
to R142). -/

namespace Sys2Proof.Machine

/-! ### Engine work on a leaving bank (R141) -/

/-- The ranges of its own core's pool that an operation of the matrix engine or the conversion unit names by offset: offset and
length. -/
def EngOp.ranges (o : EngOp) : List (Nat × Nat) :=
  if 8 ≤ o.kind then
    let g := convGroups o.kind o.conv
    (if o.conv.srcr then [] else [(o.src, g * groupBytes o.conv.sf.toNat)])
      ++ (if o.conv.dstr then [] else [(o.dst, g * groupBytes o.conv.df.toNat)])
  else if o.accF.ring then []
  else if o.kind = 1 then [(o.src, 8)]
  else if o.kind = 5 then [(o.dst, accBytes o.accF.fmt.toNat)]
  else if o.kind = 6 then [(o.src, accBytes o.accF.fmt.toNat)]
  else []

/-- Whether an access of a copy transfer reaches one of some banks of a core. -/
def reaches (s : State) (x : EngSrc) (va n core : Nat) (banks : List Nat) : Bool :=
  match resolve s (.tile x.core) x.asid x.user (w64 va) 0 .rd with
  | .ok (_, .own off) => x.core == core && touches banks off n
  | .ok (_, .pool c off) => c == core && touches banks off n
  | _ => false

/-- Whether a copy transfer reads or writes one of some banks of a core in what is left of it. -/
def xferOn (s : State) (ag : Agent) (t : Xfer) (core : Nat) (banks : List Nat) : Bool :=
  let src := blockPattern t.block 2
  let dst := blockPattern t.block 6
  ((List.range (patCount src)).any fun n =>
      reaches s (xferSrc ag t) (patAddr (blockWord t.block 0) src n) (copyBytes t.fw.sf.toNat) core banks)
    || t.dests.any fun d => (List.range (patCount dst)).any fun n =>
      decide (d.next ≤ n) && reaches s (xferSrc ag t) (destAddr s t d n) (copyBytes t.fw.df.toNat) core banks

/-- Whether engine work that was accepted before a reshape of a core reads or writes one of some banks that leave, on whichever
core it runs (R141; log entry 122). No ring with slots in such a bank has an operation: code 6 has refused the reshape. -/
def engineBefore (s : State) (core id : Nat) (banks : List Nat) : Bool :=
  let named (o : EngOp) : Bool := decide (o.who.id < id) && o.ranges.any fun r => touches banks r.1 r.2
  let co := getCore s (.tile core)
  co.matOps.any named || co.convOps.any named
    || s.cores.any fun c => c.2.xfers.any fun x => decide (x.who.id < id) && xferOn s c.1 x core banks

/-! ### Regions (R136, R143) -/

/-- The contents of a region: its bytes, and the offsets of its full words. -/
def regionImage (s : State) (core : Nat) (r : Region) : List Byte × List Nat :=
  let a := localAddr core r.base
  (readBytes s.mem a r.bytes, (List.range (r.bytes / 8)).filter fun i => isFull s (a + 8 * i))

/-- A region at its new place: moved with its contents, replaced empty, or gone (R136). -/
def putRegion (s : State) (a : Agent) (h : Nat) (r : Region) (img : List Byte × List Nat) (at_ : Option Nat) : State :=
  match at_ with
  | none => modRegion s a h fun _ => { r with valid := false, moving := false, lost := true }
  | some x =>
    let lo := localAddr (agentNo a) x
    let s := clearRange s lo r.bytes
    if r.mob = 1 then
      let s := storeMem s lo img.1
      let s := img.2.foldl (fun s i => setFe s (lo + 8 * i) true) s
      modRegion s a h fun _ => { r with base := x, moving := false }
    else modRegion s a h fun _ => { r with base := x, moving := false, lost := true, slate := 0 }

/-- The banks that a moving region takes at its new place, when it has one. -/
def newBanks (r : Reshape) (p : Nat × Region) : List Nat :=
  match r.places.find? (·.1 == p.1) with
  | some x => (List.range 64).filter fun b => touches [b] x.2 p.2.bytes
  | none => []

/-- The regions that a reshape moves or replaces. -/
def movingRegions (co : Core) : List (Nat × Region) := (validRegions co).filter (·.2.moving)

/-- The handshake of the leaving scratchpad banks: every region that moves goes to the place that it was given at acceptance, and
the POOL.PINs that have waited for it are performed (R136, R143). -/
def moveRegions (s : State) (a : Agent) (r : Reshape) : State :=
  let regs := (movingRegions (getCore s a)).map fun p =>
    (p.1, p.2, regionImage s (agentNo a) p.2, (r.places.find? (·.1 == p.1)).map (·.2))
  endPins (regs.foldl (fun s x => putRegion s a x.1 x.2.1 x.2.2.1 x.2.2.2) s) a

/-- The parts of the banks that enter the data roles which hold no region already placed there: in units of 256 bytes. -/
def enteringUnits (co : Core) (k' : Nat × Nat × Nat × Nat) : List Nat :=
  let entering := (List.range 64).filter fun b => isData (roleUnder k' b) && roleUnder co.counts b != roleUnder k' b
  (entering.flatMap fun b => (List.range 64).map fun u => b * 16384 + 256 * u).filter fun x =>
    !(validRegions co).any fun p => decide (p.2.base ≤ x) && decide (x < p.2.base + p.2.bytes)

/-- The end of an accepted reshape once its handshakes are done: rings of leaving tile-store banks lose VALID, the entering
banks start with 0 and empty, and the new counts hold (R132, R139). -/
def finishReshape (s : State) (a : Agent) (r : Reshape) : State :=
  let co := getCore s a
  let s := (enteringUnits co r.counts).foldl (fun s x => clearRange s (localAddr (agentNo a) x) 256) s
  let gone := (ringsIn co (leavingBanks co.counts r.counts 4)).map (·.1)
  let s := modCore s a fun co => { co with
    counts := r.counts
    reshape := none
    rings := gone.foldl (fun r h => r.set (Fin.ofNat 16 h) { r[Fin.ofNat 16 h] with valid := false }) co.rings }
  landReply s r.who r.id 0

/-- RESHAPE_COMPLETE: the handshakes of an accepted reshape, in their order (Table 6.6). FW2 spills the leaving slots
once they wait; then the regions of leaving scratchpad banks move, once the engines' earlier work there has ended; then the
leaving cache ways are written back; and when no earlier work is left in a leaving tile-store bank, the new counts hold. A
region whose new place stands in a bank that leaves the tile store waits for the work there too. -/
def reshapeComplete (s : State) (a : Agent) : State :=
  let co := getCore s a
  match co.reshape with
  | none => s
  | some r =>
    let slots := (leavingSlots co r.counts).filter fun i => (getCtx s ⟨a, i⟩).used
    let store := leavingBanks co.counts r.counts 4
    let onto := (movingRegions co).flatMap (newBanks r)
    let early := leavingBanks co.counts r.counts 2 ++ store.filter onto.contains
    match slots.find? fun i => fwWorks s 2 && (getCtx s ⟨a, i⟩).wait.isSome && mayLeave s ⟨a, i⟩ with
    | some i => spillCtx s ⟨a, i⟩
    | none =>
      if !slots.isEmpty || engineBefore s (agentNo a) r.id early then s
      else if !(movingRegions co).isEmpty then moveRegions s a r
      else
        let ways := leavingBanks co.counts r.counts 3
        match co.l1.find? fun l => ways.contains l.way with
        | some l => flushLine s a l.line
        | none => if co.writeBacks.isEmpty && !engineBefore s (agentNo a) r.id store then finishReshape s a r else s

/-- RESHAPE_COMPLETE (R139). -/
def execReshapeComplete (ag : Agent) (s : State) : Out :=
  match ag with
  | .tile _ => event (reshapeComplete s ag)
  | .fw _ => event s

end Sys2Proof.Machine
end

