-- ==== Sys2Proof/Machine/Tree.lean ====
section
/-! DEFINITION. The TREE family: reductions, scans and broadcasts over a group (R263 to R266, R269, R74). -/

namespace Sys2Proof.Machine

/-- What the nodes combine with: FP32 in RNE with subnormals kept, or INT32 (R264). -/
def treeStep (op : Nat) (x y : Nat) : Nat × FpFlags :=
  let dx := decodeNum fp32 false x
  let dy := decodeNum fp32 false y
  match op with
  | 0 => arith fp32 .rne false [dx, dy] (addNum .rne dx dy)
  | 1 => pickNum fp32 false dx dy
  | 2 => pickNum fp32 true dx dy
  | _ => ((x + y) % 2 ^ 32, 0)

/-- The identity of an operation (R264). -/
def treeIdentity (op : Nat) : Nat :=
  match op with
  | 0 => 0x80000000
  | 1 => 0x7F800000
  | 2 => 0xFF800000
  | _ => 0

/-- A combination of two vectors, by 32-bit lane, with the flags that arise. -/
def treeJoin (op : Nat) (x y : Vec × FpFlags) : Vec × FpFlags :=
  let r := map2 32 (treeStep op) x.1 y.1
  (r.1, x.2 ||| y.2 ||| allFlags r.2)

/-- A node's subtree result and the flags of the node's own combinations: ((c₁ + … + cₖ) + own) (R74). -/
def treeUp (g : Group) (op : Nat) (val : Nat → Vec) : Nat → Nat → Vec × FpFlags
  | 0, n => (val n, 0)
  | fuel + 1, n =>
    match (g.children n).map fun c => ((treeUp g op val fuel c).1, (0 : FpFlags)) with
    | [] => (val n, 0)
    | c :: l => treeJoin op (l.foldl (treeJoin op) c) (val n, 0)

/-- The prefix that enters a node of the down-sweep (R74). -/
def treePrefix (g : Group) (op : Nat) (val : Nat → Vec) : Nat → Nat → Vec
  | 0, _ => packElems 32 (List.replicate 16 (treeIdentity op))
  | fuel + 1, n =>
    if g.root = n then packElems 32 (List.replicate 16 (treeIdentity op))
    else
      let p := g.parent n
      let before := (g.children p).takeWhile (· != n)
      (before.foldl (fun acc c => treeJoin op acc ((treeUp g op val g.members.length c).1, 0))
        (treePrefix g op val fuel p, 0)).1

/-- A member's result and the flags of the combinations that its node performs (R264). -/
def treeResult (g : Group) (kind op : Nat) (val : Nat → Vec) (n : Nat) : Vec × FpFlags :=
  let up := treeUp g op val g.members.length n
  match kind with
  | 0 => up
  | 1 =>
    let r := (g.children n).foldl (fun acc c => treeJoin op acc ((treeUp g op val g.members.length c).1, 0))
      (treePrefix g op val g.members.length n, 0)
    (r.1, r.2 ||| up.2)
  | _ => (val g.root, 0)

/-- The operations that a core has issued on a group of a launch, modulo 2^16 (R263). -/
def treeCount (co : Core) (la g : Nat) : BitVec 16 :=
  ((co.treeCounts.find? fun x => x.1 == la && x.2.1 == g).map (·.2.2)).getD 0

/-- The parts of a core's operations on a group that have not landed. -/
def treePending (s : State) (la g core : Nat) : Nat :=
  s.dev.trees.foldl (fun n t => if t.launch = la ∧ t.group = g then n + t.parts.countP (fun p => p.core == core && !p.landed) else n) 0

/-- A part joins the operation of its count. -/
def addPart (l : List Tree) (la g : Nat) (count : BitVec 16) (p : TreePart) : List Tree :=
  let is (t : Tree) : Bool := t.launch == la && t.group == g && t.count == count
    && !t.parts.any fun q => q.core == p.core
  if l.any is then l.map fun t => if is t then { t with parts := t.parts ++ [p] } else t
  else l ++ [⟨la, g, count, [p]⟩]

/-- RED, SCAN and BCAST as they issue (R263). -/
def treeOp (kind op : Nat) (d a : FReg) (b : GReg) (s : State) : Do Done := do
  let i := (rg s b).toNat % 256
  let g ← memberOf s i
  let me := agentNo s.cur.agent
  let la := (opCtx s).launch.getD 0
  if 8 ≤ treePending s la i me then .error (.hold s)
  else
    let count := treeCount (curCore s) la i
    let v := rf s a
    let (id, s) := newId s
    let p : TreePart := ⟨me, kind, op, v, curWho s id, d, id, false⟩
    let s := modCurCore s fun co => { co with
      treeCounts := (la, i, count + 1) :: co.treeCounts.filter fun x => !(x.1 == la && x.2.1 == i) }
    let s := modDev s fun x => { x with trees := addPart x.trees la i count p }
    ok (modCur s fun c => (c.pushing d).await ⟨id, .vec d i g.root⟩)

/-- The code of a reduction's operation (Table 2.7). -/
def redCode : RedOp → Nat
  | .fadd => 0
  | .fmin => 1
  | .fmax => 2
  | .iadd => 3

/-- RED (R264). -/
def execRed (op : RedOp) (d a : FReg) (b : GReg) (s : State) : Out :=
  issue { cForm (wP 0x1C d a b 0 (redCode op)) with gr := [b], fr := [a], fw := [d] } (treeOp 0 (redCode op) d a b) s

/-- SCAN (R264). -/
def execScan (op : RedOp) (d a : FReg) (b : GReg) (s : State) : Out :=
  issue { cForm (wP 0x1C d a b 1 (redCode op)) with gr := [b], fr := [a], fw := [d] } (treeOp 1 (redCode op) d a b) s

/-- BCAST (R264). -/
def execBcast (d a : FReg) (b : GReg) (s : State) : Out :=
  issue { cForm (wP 0x1C d a b 2 0) with gr := [b], fr := [a], fw := [d] } (treeOp 2 0 d a b) s

/-- Whether an operation in which a core has a part has not come down from the root of the group (R269). -/
def rootPending (s : State) (la : Nat) (g : Group) (core : Nat) : Bool :=
  s.dev.trees.any fun t => t.launch == la && t.group == g.idx && t.parts.any (·.core == core)
    && !t.parts.any fun p => p.core == g.root && p.landed

/-- TREE.WAIT's effect (R269). -/
def treeWaitOp (d a : GReg) (s : State) : Do Done := do
  let i := (rg s a).toNat % 256
  let g ← memberOf s i
  let la := (opCtx s).launch.getD 0
  let me := agentNo s.cur.agent
  if treePending s la i me ≠ 0 ∨ rootPending s la g me then .error (.wait s 10 i g.root)
  else ok (wgSlow s d ((treeCount (curCore s) la i).zeroExtend 64))

/-- TREE.WAIT (R269). -/
def execTreeWait (d a : GReg) (s : State) : Out :=
  issue { cForm (wP 0x1C d a 0 3 0) with gr := [a], gw := [d] } (treeWaitOp d a) s

/-- Contexts of a core that wait with kind 10 for a group are ready to look again. -/
def wakeTree (s : State) (core g : Nat) : State := wakeWaiting s (.tile core) fun w => w.kind == 10 && w.obj == g

/-- The landing of a member's part of a complete operation (R264, R265). -/
def landTree (s : State) (g : Group) (t : Tree) (p : TreePart) : State :=
  let same := t.parts.all fun q => q.op == p.op && q.redOp == p.redOp
  let val (n : Nat) : Vec := ((t.parts.find? (·.core == n)).map (·.value)).getD 0
  let r := if same then treeResult g p.op p.redOp val p.core else (0, 0)
  let parts := t.parts.map fun q => if q.id = p.id then { q with landed := true } else q
  let part (u : Tree) : Tree := if u = t then { u with parts := parts } else u
  let open_ (u : Tree) : Bool := !(u.parts.all (·.landed)) || decide (u.parts.length < g.members.length)
  let s := modDev s fun x => { x with trees := (x.trees.map part).filter open_ }
  let s := landReply s p.who p.id r.1.toNat
  let c := getCtx s p.who.ctx
  let s := if c.used && c.gen == p.who.gen then finishVec s p.who.ctx p.d else s
  let s := modActivation s p.who.ctx p.who.gen fun c => c.orFlags r.2
  let s := if same then s else raiseAsync s p.who 0x1C (w64 (t.group + 2 ^ 8 + t.count.toNat * 2 ^ 16))
  (if p.core = g.root then g.members else [p.core]).foldl (fun s n => wakeTree s n t.group) s

/-- TREE_RESULT (R263): operation `i` of the device, to which every member has contributed, lands its result at a
core. -/
def execTreeResult (ag : Agent) (i : Nat) (s : State) : Out :=
  match s.dev.trees[i]? with
  | none => event s
  | some t =>
    match findGroup s (some t.launch) t.group with
    | none => event s
    | some g =>
      match t.parts.find? fun p => Agent.tile p.core == ag && !p.landed with
      | some p => if g.members.all fun m => t.parts.any (·.core == m) then event (landTree s g t p) else event s
      | none => event s

end Sys2Proof.Machine
end

