-- ==== Sys2Proof/Machine/Dispatch.lean ====
section
/-! DEFINITION. The dispatch: one arm per instruction and event, each a direct call of its meaning. -/

namespace Sys2Proof.Machine

/-- The meaning of an instruction or an event in a state. -/
def exec (i : Instr) (s : State) : Host.Outcome State Fault Refusal :=
  match i with
  | .nop => Sys2Proof.Machine.execNop s
  | .anop => Sys2Proof.Machine.execAnop s
  | .hint x0 x1 x2 x3 => Sys2Proof.Machine.execHint x0 x1 x2 x3 s
  | .endAct => Sys2Proof.Machine.execEndAct s
  | .yield => Sys2Proof.Machine.execYield s
  | .fenceRel x0 => Sys2Proof.Machine.execFenceRel x0 s
  | .fenceAcq x0 => Sys2Proof.Machine.execFenceAcq x0 s
  | .fenceAr x0 => Sys2Proof.Machine.execFenceAr x0 s
  | .ifence x0 => Sys2Proof.Machine.execIfence x0 s
  | .tret => Sys2Proof.Machine.execTret s
  | .syscall x0 => Sys2Proof.Machine.execSyscall x0 s
  | .brk x0 => Sys2Proof.Machine.execBrk x0 s
  | .snap x0 => Sys2Proof.Machine.execSnap x0 s
  | .sysr x0 x1 => Sys2Proof.Machine.execSysr x0 x1 s
  | .sysw x0 x1 => Sys2Proof.Machine.execSysw x0 x1 s
  | .gate x0 x1 => Sys2Proof.Machine.execGate x0 x1 s
  | .gret => Sys2Proof.Machine.execGret s
  | .slateMin x0 x1 => Sys2Proof.Machine.execSlateMin x0 x1 s
  | .slateSet x0 x1 => Sys2Proof.Machine.execSlateSet x0 x1 s
  | .slateRgn x0 x1 => Sys2Proof.Machine.execSlateRgn x0 x1 s
  | .slateRd x0 => Sys2Proof.Machine.execSlateRd x0 s
  | .slateFold x0 x1 => Sys2Proof.Machine.execSlateFold x0 x1 s
  | .slchk x0 x1 => Sys2Proof.Machine.execSlchk x0 x1 s
  | .slchkTrap x0 x1 => Sys2Proof.Machine.execSlchkTrap x0 x1 s
  | .time x0 => Sys2Proof.Machine.execTime x0 s
  | .timeSinceClapper x0 => Sys2Proof.Machine.execTimeSinceClapper x0 s
  | .timeToEgress x0 => Sys2Proof.Machine.execTimeToEgress x0 s
  | .kill x0 x1 => Sys2Proof.Machine.execKill x0 x1 s
  | .invpg x0 x1 x2 => Sys2Proof.Machine.execInvpg x0 x1 x2 s
  | .add x0 x1 x2 => Sys2Proof.Machine.execAdd x0 x1 x2 s
  | .sub x0 x1 x2 => Sys2Proof.Machine.execSub x0 x1 x2 s
  | .and x0 x1 x2 => Sys2Proof.Machine.execAnd x0 x1 x2 s
  | .or x0 x1 x2 => Sys2Proof.Machine.execOr x0 x1 x2 s
  | .xor x0 x1 x2 => Sys2Proof.Machine.execXor x0 x1 x2 s
  | .shl x0 x1 x2 => Sys2Proof.Machine.execShl x0 x1 x2 s
  | .shr x0 x1 x2 => Sys2Proof.Machine.execShr x0 x1 x2 s
  | .sra x0 x1 x2 => Sys2Proof.Machine.execSra x0 x1 x2 s
  | .rotl x0 x1 x2 => Sys2Proof.Machine.execRotl x0 x1 x2 s
  | .mul x0 x1 x2 => Sys2Proof.Machine.execMul x0 x1 x2 s
  | .mulh x0 x1 x2 => Sys2Proof.Machine.execMulh x0 x1 x2 s
  | .mulhu x0 x1 x2 => Sys2Proof.Machine.execMulhu x0 x1 x2 s
  | .div x0 x1 x2 => Sys2Proof.Machine.execDiv x0 x1 x2 s
  | .divu x0 x1 x2 => Sys2Proof.Machine.execDivu x0 x1 x2 s
  | .rem x0 x1 x2 => Sys2Proof.Machine.execRem x0 x1 x2 s
  | .remu x0 x1 x2 => Sys2Proof.Machine.execRemu x0 x1 x2 s
  | .min x0 x1 x2 => Sys2Proof.Machine.execMin x0 x1 x2 s
  | .max x0 x1 x2 => Sys2Proof.Machine.execMax x0 x1 x2 s
  | .minu x0 x1 x2 => Sys2Proof.Machine.execMinu x0 x1 x2 s
  | .maxu x0 x1 x2 => Sys2Proof.Machine.execMaxu x0 x1 x2 s
  | .slt x0 x1 x2 => Sys2Proof.Machine.execSlt x0 x1 x2 s
  | .sltu x0 x1 x2 => Sys2Proof.Machine.execSltu x0 x1 x2 s
  | .clz x0 x1 => Sys2Proof.Machine.execClz x0 x1 s
  | .ctz x0 x1 => Sys2Proof.Machine.execCtz x0 x1 s
  | .popc x0 x1 => Sys2Proof.Machine.execPopc x0 x1 s
  | .bswap x0 x1 => Sys2Proof.Machine.execBswap x0 x1 s
  | .sextb x0 x1 => Sys2Proof.Machine.execSextb x0 x1 s
  | .sexth x0 x1 => Sys2Proof.Machine.execSexth x0 x1 s
  | .sextw x0 x1 => Sys2Proof.Machine.execSextw x0 x1 s
  | .zextb x0 x1 => Sys2Proof.Machine.execZextb x0 x1 s
  | .zexth x0 x1 => Sys2Proof.Machine.execZexth x0 x1 s
  | .zextw x0 x1 => Sys2Proof.Machine.execZextw x0 x1 s
  | .sel x0 x1 x2 => Sys2Proof.Machine.execSel x0 x1 x2 s
  | .addi x0 x1 x2 => Sys2Proof.Machine.execAddi x0 x1 x2 s
  | .addiLong x0 x1 x2 => Sys2Proof.Machine.execAddiLong x0 x1 x2 s
  | .andi x0 x1 x2 => Sys2Proof.Machine.execAndi x0 x1 x2 s
  | .andiLong x0 x1 x2 => Sys2Proof.Machine.execAndiLong x0 x1 x2 s
  | .ori x0 x1 x2 => Sys2Proof.Machine.execOri x0 x1 x2 s
  | .oriLong x0 x1 x2 => Sys2Proof.Machine.execOriLong x0 x1 x2 s
  | .xori x0 x1 x2 => Sys2Proof.Machine.execXori x0 x1 x2 s
  | .xoriLong x0 x1 x2 => Sys2Proof.Machine.execXoriLong x0 x1 x2 s
  | .slti x0 x1 x2 => Sys2Proof.Machine.execSlti x0 x1 x2 s
  | .sltiLong x0 x1 x2 => Sys2Proof.Machine.execSltiLong x0 x1 x2 s
  | .sltiu x0 x1 x2 => Sys2Proof.Machine.execSltiu x0 x1 x2 s
  | .sltiuLong x0 x1 x2 => Sys2Proof.Machine.execSltiuLong x0 x1 x2 s
  | .shli x0 x1 x2 => Sys2Proof.Machine.execShli x0 x1 x2 s
  | .shliLong x0 x1 x2 => Sys2Proof.Machine.execShliLong x0 x1 x2 s
  | .shri x0 x1 x2 => Sys2Proof.Machine.execShri x0 x1 x2 s
  | .shriLong x0 x1 x2 => Sys2Proof.Machine.execShriLong x0 x1 x2 s
  | .srai x0 x1 x2 => Sys2Proof.Machine.execSrai x0 x1 x2 s
  | .sraiLong x0 x1 x2 => Sys2Proof.Machine.execSraiLong x0 x1 x2 s
  | .rotli x0 x1 x2 => Sys2Proof.Machine.execRotli x0 x1 x2 s
  | .rotliLong x0 x1 x2 => Sys2Proof.Machine.execRotliLong x0 x1 x2 s
  | .movhi x0 x1 => Sys2Proof.Machine.execMovhi x0 x1 s
  | .leaScale1 x0 x1 x2 => Sys2Proof.Machine.execLeaScale1 x0 x1 x2 s
  | .leaScale2 x0 x1 x2 => Sys2Proof.Machine.execLeaScale2 x0 x1 x2 s
  | .leaScale4 x0 x1 x2 => Sys2Proof.Machine.execLeaScale4 x0 x1 x2 s
  | .leaScale8 x0 x1 x2 => Sys2Proof.Machine.execLeaScale8 x0 x1 x2 s
  | .gaddr x0 x1 x2 => Sys2Proof.Machine.execGaddr x0 x1 x2 s
  | .beq x0 x1 x2 => Sys2Proof.Machine.execBeq x0 x1 x2 s
  | .beqLong x0 x1 x2 => Sys2Proof.Machine.execBeqLong x0 x1 x2 s
  | .bne x0 x1 x2 => Sys2Proof.Machine.execBne x0 x1 x2 s
  | .bneLong x0 x1 x2 => Sys2Proof.Machine.execBneLong x0 x1 x2 s
  | .blt x0 x1 x2 => Sys2Proof.Machine.execBlt x0 x1 x2 s
  | .bltLong x0 x1 x2 => Sys2Proof.Machine.execBltLong x0 x1 x2 s
  | .bge x0 x1 x2 => Sys2Proof.Machine.execBge x0 x1 x2 s
  | .bgeLong x0 x1 x2 => Sys2Proof.Machine.execBgeLong x0 x1 x2 s
  | .bltu x0 x1 x2 => Sys2Proof.Machine.execBltu x0 x1 x2 s
  | .bltuLong x0 x1 x2 => Sys2Proof.Machine.execBltuLong x0 x1 x2 s
  | .bgeu x0 x1 x2 => Sys2Proof.Machine.execBgeu x0 x1 x2 s
  | .bgeuLong x0 x1 x2 => Sys2Proof.Machine.execBgeuLong x0 x1 x2 s
  | .jal x0 x1 => Sys2Proof.Machine.execJal x0 x1 s
  | .jalLong x0 x1 => Sys2Proof.Machine.execJalLong x0 x1 s
  | .jalr x0 x1 x2 => Sys2Proof.Machine.execJalr x0 x1 x2 s
  | .jalrLong x0 x1 x2 => Sys2Proof.Machine.execJalrLong x0 x1 x2 s
  | .rand x0 x1 x2 => Sys2Proof.Machine.execRand x0 x1 x2 s
  | .cvtfx x0 x1 x2 => Sys2Proof.Machine.execCvtfx x0 x1 x2 s
  | .cvtxf x0 x1 x2 => Sys2Proof.Machine.execCvtxf x0 x1 x2 s
  | .ldb x0 x1 x2 => Sys2Proof.Machine.execLdb x0 x1 x2 s
  | .ldbLong x0 x1 x2 => Sys2Proof.Machine.execLdbLong x0 x1 x2 s
  | .ldh x0 x1 x2 => Sys2Proof.Machine.execLdh x0 x1 x2 s
  | .ldhLong x0 x1 x2 => Sys2Proof.Machine.execLdhLong x0 x1 x2 s
  | .ldw x0 x1 x2 => Sys2Proof.Machine.execLdw x0 x1 x2 s
  | .ldwLong x0 x1 x2 => Sys2Proof.Machine.execLdwLong x0 x1 x2 s
  | .ldd x0 x1 x2 => Sys2Proof.Machine.execLdd x0 x1 x2 s
  | .lddLong x0 x1 x2 => Sys2Proof.Machine.execLddLong x0 x1 x2 s
  | .ldbu x0 x1 x2 => Sys2Proof.Machine.execLdbu x0 x1 x2 s
  | .ldbuLong x0 x1 x2 => Sys2Proof.Machine.execLdbuLong x0 x1 x2 s
  | .ldhu x0 x1 x2 => Sys2Proof.Machine.execLdhu x0 x1 x2 s
  | .ldhuLong x0 x1 x2 => Sys2Proof.Machine.execLdhuLong x0 x1 x2 s
  | .ldwu x0 x1 x2 => Sys2Proof.Machine.execLdwu x0 x1 x2 s
  | .ldwuLong x0 x1 x2 => Sys2Proof.Machine.execLdwuLong x0 x1 x2 s
  | .ldq x0 x1 x2 => Sys2Proof.Machine.execLdq x0 x1 x2 s
  | .ldqLong x0 x1 x2 => Sys2Proof.Machine.execLdqLong x0 x1 x2 s
  | .stb x0 x1 x2 => Sys2Proof.Machine.execStb x0 x1 x2 s
  | .stbLong x0 x1 x2 => Sys2Proof.Machine.execStbLong x0 x1 x2 s
  | .sth x0 x1 x2 => Sys2Proof.Machine.execSth x0 x1 x2 s
  | .sthLong x0 x1 x2 => Sys2Proof.Machine.execSthLong x0 x1 x2 s
  | .stw x0 x1 x2 => Sys2Proof.Machine.execStw x0 x1 x2 s
  | .stwLong x0 x1 x2 => Sys2Proof.Machine.execStwLong x0 x1 x2 s
  | .std x0 x1 x2 => Sys2Proof.Machine.execStd x0 x1 x2 s
  | .stdLong x0 x1 x2 => Sys2Proof.Machine.execStdLong x0 x1 x2 s
  | .stq x0 x1 x2 => Sys2Proof.Machine.execStq x0 x1 x2 s
  | .stqLong x0 x1 x2 => Sys2Proof.Machine.execStqLong x0 x1 x2 s
  | .ldf x0 x1 x2 => Sys2Proof.Machine.execLdf x0 x1 x2 s
  | .ldfLong x0 x1 x2 => Sys2Proof.Machine.execLdfLong x0 x1 x2 s
  | .ldc x0 x1 x2 => Sys2Proof.Machine.execLdc x0 x1 x2 s
  | .ldcLong x0 x1 x2 => Sys2Proof.Machine.execLdcLong x0 x1 x2 s
  | .stf x0 x1 x2 => Sys2Proof.Machine.execStf x0 x1 x2 s
  | .stfLong x0 x1 x2 => Sys2Proof.Machine.execStfLong x0 x1 x2 s
  | .stfo x0 x1 x2 => Sys2Proof.Machine.execStfo x0 x1 x2 s
  | .stfoLong x0 x1 x2 => Sys2Proof.Machine.execStfoLong x0 x1 x2 s
  | .empty x0 x1 => Sys2Proof.Machine.execEmpty x0 x1 s
  | .emptyLong x0 x1 => Sys2Proof.Machine.execEmptyLong x0 x1 s
  | .feq x0 x1 x2 => Sys2Proof.Machine.execFeq x0 x1 x2 s
  | .feqLong x0 x1 x2 => Sys2Proof.Machine.execFeqLong x0 x1 x2 s
  | .feWaitDone x0 x1 => Sys2Proof.Machine.execFeWaitDone x0 x1 s
  | .vld x0 x1 x2 => Sys2Proof.Machine.execVld x0 x1 x2 s
  | .vldLong x0 x1 x2 => Sys2Proof.Machine.execVldLong x0 x1 x2 s
  | .vst x0 x1 x2 => Sys2Proof.Machine.execVst x0 x1 x2 s
  | .vstLong x0 x1 x2 => Sys2Proof.Machine.execVstLong x0 x1 x2 s
  | .vlds x0 x1 x2 x3 => Sys2Proof.Machine.execVlds x0 x1 x2 x3 s
  | .vldsLong x0 x1 x2 x3 => Sys2Proof.Machine.execVldsLong x0 x1 x2 x3 s
  | .vsts x0 x1 x2 x3 => Sys2Proof.Machine.execVsts x0 x1 x2 x3 s
  | .vstsLong x0 x1 x2 x3 => Sys2Proof.Machine.execVstsLong x0 x1 x2 x3 s
  | .vgath x0 x1 x2 x3 => Sys2Proof.Machine.execVgath x0 x1 x2 x3 s
  | .vgathLong x0 x1 x2 x3 => Sys2Proof.Machine.execVgathLong x0 x1 x2 x3 s
  | .vscat x0 x1 x2 x3 => Sys2Proof.Machine.execVscat x0 x1 x2 x3 s
  | .vscatLong x0 x1 x2 x3 => Sys2Proof.Machine.execVscatLong x0 x1 x2 x3 s
  | .amoadd x0 x1 x2 x3 => Sys2Proof.Machine.execAmoadd x0 x1 x2 x3 s
  | .amoand x0 x1 x2 x3 => Sys2Proof.Machine.execAmoand x0 x1 x2 x3 s
  | .amoor x0 x1 x2 x3 => Sys2Proof.Machine.execAmoor x0 x1 x2 x3 s
  | .amoxor x0 x1 x2 x3 => Sys2Proof.Machine.execAmoxor x0 x1 x2 x3 s
  | .amomin x0 x1 x2 x3 => Sys2Proof.Machine.execAmomin x0 x1 x2 x3 s
  | .amomax x0 x1 x2 x3 => Sys2Proof.Machine.execAmomax x0 x1 x2 x3 s
  | .amominu x0 x1 x2 x3 => Sys2Proof.Machine.execAmominu x0 x1 x2 x3 s
  | .amomaxu x0 x1 x2 x3 => Sys2Proof.Machine.execAmomaxu x0 x1 x2 x3 s
  | .amoswap x0 x1 x2 x3 => Sys2Proof.Machine.execAmoswap x0 x1 x2 x3 s
  | .amocas x0 x1 x2 x3 => Sys2Proof.Machine.execAmocas x0 x1 x2 x3 s
  | .pref x0 x1 => Sys2Proof.Machine.execPref x0 x1 s
  | .prefLong x0 x1 => Sys2Proof.Machine.execPrefLong x0 x1 s
  | .cwb x0 x1 => Sys2Proof.Machine.execCwb x0 x1 s
  | .cwbLong x0 x1 => Sys2Proof.Machine.execCwbLong x0 x1 s
  | .cinv x0 x1 => Sys2Proof.Machine.execCinv x0 x1 s
  | .cinvLong x0 x1 => Sys2Proof.Machine.execCinvLong x0 x1 s
  | .cwbinv x0 x1 => Sys2Proof.Machine.execCwbinv x0 x1 s
  | .cwbinvLong x0 x1 => Sys2Proof.Machine.execCwbinvLong x0 x1 s
  | .cwbL2 x0 x1 => Sys2Proof.Machine.execCwbL2 x0 x1 s
  | .cwbL2Long x0 x1 => Sys2Proof.Machine.execCwbL2Long x0 x1 s
  | .vadd x0 x1 x2 x3 x4 => Sys2Proof.Machine.execVadd x0 x1 x2 x3 x4 s
  | .vsub x0 x1 x2 x3 x4 => Sys2Proof.Machine.execVsub x0 x1 x2 x3 x4 s
  | .vmul x0 x1 x2 x3 x4 => Sys2Proof.Machine.execVmul x0 x1 x2 x3 x4 s
  | .vmin x0 x1 x2 x3 => Sys2Proof.Machine.execVmin x0 x1 x2 x3 s
  | .vmax x0 x1 x2 x3 => Sys2Proof.Machine.execVmax x0 x1 x2 x3 s
  | .vabs x0 x1 x2 => Sys2Proof.Machine.execVabs x0 x1 x2 s
  | .vneg x0 x1 x2 => Sys2Proof.Machine.execVneg x0 x1 x2 s
  | .vdiv x0 x1 x2 x3 x4 => Sys2Proof.Machine.execVdiv x0 x1 x2 x3 x4 s
  | .vsqrt x0 x1 x2 x3 => Sys2Proof.Machine.execVsqrt x0 x1 x2 x3 s
  | .vfma x0 x1 x2 x3 => Sys2Proof.Machine.execVfma x0 x1 x2 x3 s
  | .vfms x0 x1 x2 x3 => Sys2Proof.Machine.execVfms x0 x1 x2 x3 s
  | .vfnma x0 x1 x2 x3 => Sys2Proof.Machine.execVfnma x0 x1 x2 x3 s
  | .vfnms x0 x1 x2 x3 => Sys2Proof.Machine.execVfnms x0 x1 x2 x3 s
  | .vaddI x0 x1 x2 => Sys2Proof.Machine.execVaddI x0 x1 x2 s
  | .vsubI x0 x1 x2 => Sys2Proof.Machine.execVsubI x0 x1 x2 s
  | .vmulI x0 x1 x2 => Sys2Proof.Machine.execVmulI x0 x1 x2 s
  | .vmulhI x0 x1 x2 => Sys2Proof.Machine.execVmulhI x0 x1 x2 s
  | .vand x0 x1 x2 => Sys2Proof.Machine.execVand x0 x1 x2 s
  | .vor x0 x1 x2 => Sys2Proof.Machine.execVor x0 x1 x2 s
  | .vxor x0 x1 x2 => Sys2Proof.Machine.execVxor x0 x1 x2 s
  | .vshl x0 x1 x2 => Sys2Proof.Machine.execVshl x0 x1 x2 s
  | .vshr x0 x1 x2 => Sys2Proof.Machine.execVshr x0 x1 x2 s
  | .vsra x0 x1 x2 => Sys2Proof.Machine.execVsra x0 x1 x2 s
  | .vminI x0 x1 x2 => Sys2Proof.Machine.execVminI x0 x1 x2 s
  | .vmaxI x0 x1 x2 => Sys2Proof.Machine.execVmaxI x0 x1 x2 s
  | .vminuI x0 x1 x2 => Sys2Proof.Machine.execVminuI x0 x1 x2 s
  | .vmaxuI x0 x1 x2 => Sys2Proof.Machine.execVmaxuI x0 x1 x2 s
  | .vdot4I8 x0 x1 x2 => Sys2Proof.Machine.execVdot4I8 x0 x1 x2 s
  | .vcmp x0 x1 x2 x3 x4 => Sys2Proof.Machine.execVcmp x0 x1 x2 x3 x4 s
  | .vsel x0 x1 x2 => Sys2Proof.Machine.execVsel x0 x1 x2 s
  | .mand x0 x1 x2 => Sys2Proof.Machine.execMand x0 x1 x2 s
  | .mor x0 x1 x2 => Sys2Proof.Machine.execMor x0 x1 x2 s
  | .mxor x0 x1 x2 => Sys2Proof.Machine.execMxor x0 x1 x2 s
  | .mnot x0 x1 => Sys2Proof.Machine.execMnot x0 x1 s
  | .mmov x0 x1 => Sys2Proof.Machine.execMmov x0 x1 s
  | .mset x0 x1 => Sys2Proof.Machine.execMset x0 x1 s
  | .mpopc x0 x1 => Sys2Proof.Machine.execMpopc x0 x1 s
  | .vrcp x0 x1 => Sys2Proof.Machine.execVrcp x0 x1 s
  | .vrsq x0 x1 => Sys2Proof.Machine.execVrsq x0 x1 s
  | .vexp2 x0 x1 => Sys2Proof.Machine.execVexp2 x0 x1 s
  | .vlog2 x0 x1 => Sys2Proof.Machine.execVlog2 x0 x1 s
  | .vtanh x0 x1 => Sys2Proof.Machine.execVtanh x0 x1 s
  | .vsigm x0 x1 => Sys2Proof.Machine.execVsigm x0 x1 s
  | .vcvt x0 x1 x2 => Sys2Proof.Machine.execVcvt x0 x1 x2 s
  | .vcvtSr x0 x1 x2 x3 => Sys2Proof.Machine.execVcvtSr x0 x1 x2 x3 s
  | .vrand x0 x1 x2 => Sys2Proof.Machine.execVrand x0 x1 x2 s
  | .vmov x0 x1 => Sys2Proof.Machine.execVmov x0 x1 s
  | .vbcast x0 x1 => Sys2Proof.Machine.execVbcast x0 x1 s
  | .vext x0 x1 x2 => Sys2Proof.Machine.execVext x0 x1 x2 s
  | .vins x0 x1 x2 => Sys2Proof.Machine.execVins x0 x1 x2 s
  | .vperm x0 x1 x2 => Sys2Proof.Machine.execVperm x0 x1 x2 s
  | .vred x0 x1 x2 => Sys2Proof.Machine.execVred x0 x1 x2 s
  | .vscan x0 x1 x2 => Sys2Proof.Machine.execVscan x0 x1 x2 s
  | .vseq x0 x1 => Sys2Proof.Machine.execVseq x0 x1 s
  | .vseqS x0 x1 => Sys2Proof.Machine.execVseqS x0 x1 s
  | .vseqStop x0 => Sys2Proof.Machine.execVseqStop x0 s
  | .sequencerReplayStep x0 => Sys2Proof.Machine.execSequencerReplayStep x0 s
  | .send x0 x1 x2 => Sys2Proof.Machine.execSend x0 x1 x2 s
  | .sendq x0 x1 x2 => Sys2Proof.Machine.execSendq x0 x1 x2 s
  | .sendr x0 x1 x2 => Sys2Proof.Machine.execSendr x0 x1 x2 s
  | .reply x0 x1 => Sys2Proof.Machine.execReply x0 x1 s
  | .replyQ x0 x1 => Sys2Proof.Machine.execReplyQ x0 x1 s
  | .cut x0 => Sys2Proof.Machine.execCut x0 s
  | .putn x0 x1 x2 x3 => Sys2Proof.Machine.execPutn x0 x1 x2 x3 s
  | .getr x0 x1 x2 => Sys2Proof.Machine.execGetr x0 x1 x2 s
  | .getrArm x0 => Sys2Proof.Machine.execGetrArm x0 s
  | .getrDis x0 => Sys2Proof.Machine.execGetrDis x0 s
  | .qpop x0 x1 x2 => Sys2Proof.Machine.execQpop x0 x1 x2 s
  | .qpeek x0 x1 x2 => Sys2Proof.Machine.execQpeek x0 x1 x2 s
  | .qstat x0 x1 => Sys2Proof.Machine.execQstat x0 x1 s
  | .qstatClr x0 x1 => Sys2Proof.Machine.execQstatClr x0 x1 s
  | .spawn x0 x1 x2 x3 => Sys2Proof.Machine.execSpawn x0 x1 x2 x3 s
  | .forkR x0 x1 x2 x3 => Sys2Proof.Machine.execForkR x0 x1 x2 x3 s
  | .join x0 x1 x2 => Sys2Proof.Machine.execJoin x0 x1 x2 s
  | .joinOpen x0 x1 x2 => Sys2Proof.Machine.execJoinOpen x0 x1 x2 s
  | .joinSeal x0 x1 => Sys2Proof.Machine.execJoinSeal x0 x1 s
  | .joinWait x0 x1 => Sys2Proof.Machine.execJoinWait x0 x1 s
  | .budgetAct x0 x1 => Sys2Proof.Machine.execBudgetAct x0 x1 s
  | .budgetTake x0 x1 => Sys2Proof.Machine.execBudgetTake x0 x1 s
  | .barInit x0 x1 => Sys2Proof.Machine.execBarInit x0 x1 s
  | .barArr x0 x1 x2 => Sys2Proof.Machine.execBarArr x0 x1 x2 s
  | .barWait x0 x1 x2 => Sys2Proof.Machine.execBarWait x0 x1 x2 s
  | .barArw x0 x1 x2 => Sys2Proof.Machine.execBarArw x0 x1 x2 s
  | .barTx x0 x1 => Sys2Proof.Machine.execBarTx x0 x1 s
  | .barQry x0 x1 => Sys2Proof.Machine.execBarQry x0 x1 s
  | .ringWaitf x0 x1 x2 => Sys2Proof.Machine.execRingWaitf x0 x1 x2 s
  | .ringWaite x0 x1 x2 => Sys2Proof.Machine.execRingWaite x0 x1 x2 s
  | .ringAdvp x0 x1 => Sys2Proof.Machine.execRingAdvp x0 x1 s
  | .ringAdvc x0 x1 => Sys2Proof.Machine.execRingAdvc x0 x1 s
  | .ringQry x0 x1 => Sys2Proof.Machine.execRingQry x0 x1 s
  | .grpMem x0 x1 => Sys2Proof.Machine.execGrpMem x0 x1 s
  | .red x0 x1 x2 x3 => Sys2Proof.Machine.execRed x0 x1 x2 x3 s
  | .scan x0 x1 x2 x3 => Sys2Proof.Machine.execScan x0 x1 x2 x3 s
  | .bcast x0 x1 x2 => Sys2Proof.Machine.execBcast x0 x1 x2 s
  | .treeWait x0 x1 => Sys2Proof.Machine.execTreeWait x0 x1 s
  | .poolSet x0 x1 => Sys2Proof.Machine.execPoolSet x0 x1 s
  | .poolQry x0 x1 => Sys2Proof.Machine.execPoolQry x0 x1 s
  | .poolPin x0 x1 => Sys2Proof.Machine.execPoolPin x0 x1 s
  | .poolUnpin x0 x1 => Sys2Proof.Machine.execPoolUnpin x0 x1 s
  | .cpy x0 x1 x2 => Sys2Proof.Machine.execCpy x0 x1 x2 s
  | .cpyCancel x0 x1 => Sys2Proof.Machine.execCpyCancel x0 x1 s
  | .cpyStat x0 x1 x2 => Sys2Proof.Machine.execCpyStat x0 x1 x2 s
  | .scfg x0 x1 x2 x3 x4 => Sys2Proof.Machine.execScfg x0 x1 x2 x3 x4 s
  | .sclose x0 => Sys2Proof.Machine.execSclose x0 s
  | .sstat x0 x1 => Sys2Proof.Machine.execSstat x0 x1 s
  | .ldm x0 x1 x2 => Sys2Proof.Machine.execLdm x0 x1 x2 s
  | .stm x0 x1 x2 => Sys2Proof.Machine.execStm x0 x1 x2 s
  | .vdotI8 x0 x1 x2 => Sys2Proof.Machine.execVdotI8 x0 x1 x2 s
  | .maca x0 x1 x2 => Sys2Proof.Machine.execMaca x0 x1 x2 s
  | .cvtMx x0 x1 x2 x3 => Sys2Proof.Machine.execCvtMx x0 x1 x2 x3 s
  | .cvtUnmx x0 x1 x2 x3 => Sys2Proof.Machine.execCvtUnmx x0 x1 x2 x3 s
  | .rescaleMx x0 x1 x2 x3 => Sys2Proof.Machine.execRescaleMx x0 x1 x2 x3 s
  | .transp x0 x1 x2 x3 => Sys2Proof.Machine.execTransp x0 x1 x2 x3 s
  | .convOpStart x0 => Sys2Proof.Machine.execConvOpStart x0 s
  | .convOpComplete x0 => Sys2Proof.Machine.execConvOpComplete x0 s
  | .mma x0 x1 x2 x3 => Sys2Proof.Machine.execMma x0 x1 x2 x3 s
  | .mmaG x0 x1 x2 x3 => Sys2Proof.Machine.execMmaG x0 x1 x2 x3 s
  | .mmrot x0 x1 x2 x3 => Sys2Proof.Machine.execMmrot x0 x1 x2 x3 s
  | .accClr x0 => Sys2Proof.Machine.execAccClr x0 s
  | .accAnch x0 x1 => Sys2Proof.Machine.execAccAnch x0 x1 s
  | .accRd x0 x1 x2 x3 => Sys2Proof.Machine.execAccRd x0 x1 x2 x3 s
  | .accWr x0 x1 x2 => Sys2Proof.Machine.execAccWr x0 x1 x2 s
  | .accStat x0 x1 => Sys2Proof.Machine.execAccStat x0 x1 s
  | .matrixOpStart x0 x1 => Sys2Proof.Machine.execMatrixOpStart x0 x1 s
  | .matrixOpComplete x0 x1 => Sys2Proof.Machine.execMatrixOpComplete x0 x1 s
  | .mmrotForward x0 x1 => Sys2Proof.Machine.execMmrotForward x0 x1 s
  | .linkCfg x0 x1 => Sys2Proof.Machine.execLinkCfg x0 x1 s
  | .linkStat x0 => Sys2Proof.Machine.execLinkStat x0 s
  | .linkVectorArrival x0 => Sys2Proof.Machine.execLinkVectorArrival x0 s
  | .streamFetch x0 x1 => Sys2Proof.Machine.execStreamFetch x0 x1 s
  | .streamDrain x0 x1 => Sys2Proof.Machine.execStreamDrain x0 x1 s
  | .trapEntry x0 x1 x2 => Sys2Proof.Machine.execTrapEntry x0 x1 x2 s
  | .asyncCauseDelivery x0 => Sys2Proof.Machine.execAsyncCauseDelivery x0 s
  | .copyCompletionInterrupt x0 => Sys2Proof.Machine.execCopyCompletionInterrupt x0 s
  | .singleStep x0 => Sys2Proof.Machine.execSingleStep x0 s
  | .gateUnwind x0 x1 x2 => Sys2Proof.Machine.execGateUnwind x0 x1 x2 s
  | .activationStart x0 => Sys2Proof.Machine.execActivationStart x0 s
  | .contextLoad x0 => Sys2Proof.Machine.execContextLoad x0 s
  | .contextWriteback x0 => Sys2Proof.Machine.execContextWriteback x0 s
  | .activationBudgetExpiry x0 => Sys2Proof.Machine.execActivationBudgetExpiry x0 s
  | .budgetGraceExpiry x0 => Sys2Proof.Machine.execBudgetGraceExpiry x0 s
  | .deadlockSuspected x0 => Sys2Proof.Machine.execDeadlockSuspected x0 s
  | .takeBudgetSpent x0 x1 => Sys2Proof.Machine.execTakeBudgetSpent x0 x1 s
  | .slotExhaustion x0 => Sys2Proof.Machine.execSlotExhaustion x0 s
  | .spilledContextReturn x0 => Sys2Proof.Machine.execSpilledContextReturn x0 s
  | .absentContextMessage x0 => Sys2Proof.Machine.execAbsentContextMessage x0 s
  | .quiesceAck x0 => Sys2Proof.Machine.execQuiesceAck x0 s
  | .spawnArrival x0 => Sys2Proof.Machine.execSpawnArrival x0 s
  | .spawnRetry x0 => Sys2Proof.Machine.execSpawnRetry x0 s
  | .joinArrival x0 => Sys2Proof.Machine.execJoinArrival x0 s
  | .depositArrival x0 => Sys2Proof.Machine.execDepositArrival x0 s
  | .depositLanding x0 x1 => Sys2Proof.Machine.execDepositLanding x0 x1 s
  | .parkedReturn x0 => Sys2Proof.Machine.execParkedReturn x0 s
  | .messageArrival x0 => Sys2Proof.Machine.execMessageArrival x0 s
  | .replyArrival x0 => Sys2Proof.Machine.execReplyArrival x0 s
  | .remoteAccessArrival x0 => Sys2Proof.Machine.execRemoteAccessArrival x0 s
  | .accessReplyArrival x0 => Sys2Proof.Machine.execAccessReplyArrival x0 s
  | .storeAckArrival x0 => Sys2Proof.Machine.execStoreAckArrival x0 s
  | .refusalArrival x0 => Sys2Proof.Machine.execRefusalArrival x0 s
  | .journalTimeout x0 x1 => Sys2Proof.Machine.execJournalTimeout x0 x1 s
  | .linkReroute x0 x1 x2 => Sys2Proof.Machine.execLinkReroute x0 x1 x2 s
  | .barrierEvent x0 => Sys2Proof.Machine.execBarrierEvent x0 s
  | .barrierHoldRetry x0 => Sys2Proof.Machine.execBarrierHoldRetry x0 s
  | .ringOperationAtOwner x0 x1 => Sys2Proof.Machine.execRingOperationAtOwner x0 x1 s
  | .treeResult x0 x1 => Sys2Proof.Machine.execTreeResult x0 x1 s
  | .reshapeComplete x0 => Sys2Proof.Machine.execReshapeComplete x0 s
  | .copyTransferStart x0 => Sys2Proof.Machine.execCopyTransferStart x0 s
  | .copyTransferDone x0 => Sys2Proof.Machine.execCopyTransferDone x0 s
  | .copyTransferFault x0 => Sys2Proof.Machine.execCopyTransferFault x0 s
  | .clapper x0 => Sys2Proof.Machine.execClapper x0 s
  | .egressSwap x0 => Sys2Proof.Machine.execEgressSwap x0 s
  | .frameTransmit x0 => Sys2Proof.Machine.execFrameTransmit x0 s
  | .frameIngress x0 => Sys2Proof.Machine.execFrameIngress x0 s
  | .callSheetEntryFire x0 => Sys2Proof.Machine.execCallSheetEntryFire x0 s
  | .oneShotFire x0 x1 => Sys2Proof.Machine.execOneShotFire x0 x1 s
  | .heartbeatSend => Sys2Proof.Machine.execHeartbeatSend s
  | .heartbeatArrival x0 x1 x2 => Sys2Proof.Machine.execHeartbeatArrival x0 x1 x2 s
  | .heartbeatMiss => Sys2Proof.Machine.execHeartbeatMiss s
  | .mirrorWrite x0 x1 x2 => Sys2Proof.Machine.execMirrorWrite x0 x1 x2 s
  | .mirrorMarkerSend => Sys2Proof.Machine.execMirrorMarkerSend s
  | .unreconciledTake => Sys2Proof.Machine.execUnreconciledTake s
  | .takeDigestSend => Sys2Proof.Machine.execTakeDigestSend s
  | .takeDigestArrival x0 x1 => Sys2Proof.Machine.execTakeDigestArrival x0 x1 s
  | .digestTimeout => Sys2Proof.Machine.execDigestTimeout s
  | .pairForm x0 => Sys2Proof.Machine.execPairForm x0 s
  | .guestSubmit x0 => Sys2Proof.Machine.execGuestSubmit x0 s
  | .guestCompletion x0 x1 x2 => Sys2Proof.Machine.execGuestCompletion x0 x1 x2 s
  | .guestFault x0 x1 x2 => Sys2Proof.Machine.execGuestFault x0 x1 x2 s
  | .guestDrained x0 => Sys2Proof.Machine.execGuestDrained x0 s
  | .guestSaved x0 => Sys2Proof.Machine.execGuestSaved x0 s
  | .guestAccess x0 x1 => Sys2Proof.Machine.execGuestAccess x0 x1 s
  | .guestRequestTimeout x0 x1 => Sys2Proof.Machine.execGuestRequestTimeout x0 x1 s
  | .guestPreemptRequest x0 => Sys2Proof.Machine.execGuestPreemptRequest x0 s
  | .guestPreemptTimeout x0 => Sys2Proof.Machine.execGuestPreemptTimeout x0 s
  | .hostDoorbell x0 => Sys2Proof.Machine.execHostDoorbell x0 s
  | .launch x0 x1 => Sys2Proof.Machine.execLaunch x0 x1 s
  | .activeMessage x0 x1 x2 x3 x4 x5 => Sys2Proof.Machine.execActiveMessage x0 x1 x2 x3 x4 x5 s
  | .loadCallSheet x0 x1 x2 x3 => Sys2Proof.Machine.execLoadCallSheet x0 x1 x2 x3 s
  | .releaseQueue x0 x1 x2 => Sys2Proof.Machine.execReleaseQueue x0 x1 x2 s
  | .endLaunch x0 x1 => Sys2Proof.Machine.execEndLaunch x0 x1 s
  | .loadImageMaps x0 x1 x2 => Sys2Proof.Machine.execLoadImageMaps x0 x1 x2 s
  | .openAperture x0 x1 x2 => Sys2Proof.Machine.execOpenAperture x0 x1 x2 s
  | .claimOwnership x0 x1 => Sys2Proof.Machine.execClaimOwnership x0 x1 s
  | .transferOwnership x0 x1 => Sys2Proof.Machine.execTransferOwnership x0 x1 s
  | .advanceVersion x0 x1 x2 => Sys2Proof.Machine.execAdvanceVersion x0 x1 x2 s
  | .attestationQuote x0 x1 x2 => Sys2Proof.Machine.execAttestationQuote x0 x1 x2 s
  | .storeImage x0 x1 x2 => Sys2Proof.Machine.execStoreImage x0 x1 x2 s
  | .splitDomain x0 x1 x2 x3 x4 => Sys2Proof.Machine.execSplitDomain x0 x1 x2 x3 x4 s
  | .hostApertureAccess x0 => Sys2Proof.Machine.execHostApertureAccess x0 s
  | .hashmaskWrite x0 x1 => Sys2Proof.Machine.execHashmaskWrite x0 x1 s
  | .domselWrite x0 x1 => Sys2Proof.Machine.execDomselWrite x0 x1 s
  | .l2ctlWrite x0 => Sys2Proof.Machine.execL2ctlWrite x0 s
  | .domainSwitchApply => Sys2Proof.Machine.execDomainSwitchApply s
  | .losingSliceSignal => Sys2Proof.Machine.execLosingSliceSignal s
  | .domainSwitchEnd => Sys2Proof.Machine.execDomainSwitchEnd s
  | .domstatRead => Sys2Proof.Machine.execDomstatRead s
  | .pageMigration x0 x1 x2 => Sys2Proof.Machine.execPageMigration x0 x1 x2 s
  | .invpgAck x0 => Sys2Proof.Machine.execInvpgAck x0 s
  | .uncorrectableError x0 x1 x2 => Sys2Proof.Machine.execUncorrectableError x0 x1 x2 s
  | .tileRetire x0 x1 => Sys2Proof.Machine.execTileRetire x0 x1 s
  | .watchpointTrigger x0 x1 x2 x3 x4 => Sys2Proof.Machine.execWatchpointTrigger x0 x1 x2 x3 x4 s
  | .wpctlWrite x0 x1 x2 => Sys2Proof.Machine.execWpctlWrite x0 x1 x2 s
  | .wpctlRead x0 x1 => Sys2Proof.Machine.execWpctlRead x0 x1 s
  | .snapshotTrigger x0 => Sys2Proof.Machine.execSnapshotTrigger x0 s
  | .snapshotPin => Sys2Proof.Machine.execSnapshotPin s
  | .snaptimeReached x0 => Sys2Proof.Machine.execSnaptimeReached x0 s
  | .rearm => Sys2Proof.Machine.execRearm s
  | .timectlWrite x0 => Sys2Proof.Machine.execTimectlWrite x0 s
  | .takecfgWrite x0 => Sys2Proof.Machine.execTakecfgWrite x0 s
  | .servoStep x0 => Sys2Proof.Machine.execServoStep x0 s
  | .lockedChange x0 => Sys2Proof.Machine.execLockedChange x0 s
  | .timestatErrClear => Sys2Proof.Machine.execTimestatErrClear s
  | .dtimeDivergence x0 => Sys2Proof.Machine.execDtimeDivergence x0 s
  | .mapsw => Sys2Proof.Machine.execMapsw s
  | .csstatRead => Sys2Proof.Machine.execCsstatRead s
  | .detstatRead => Sys2Proof.Machine.execDetstatRead s
  | .pairstatClear x0 x1 => Sys2Proof.Machine.execPairstatClear x0 x1 s
  | .statusLostaClear x0 => Sys2Proof.Machine.execStatusLostaClear x0 s
  | .governorSample x0 x1 => Sys2Proof.Machine.execGovernorSample x0 x1 s
  | .thermalSample x0 x1 => Sys2Proof.Machine.execThermalSample x0 x1 s
  | .clrtrip x0 => Sys2Proof.Machine.execClrtrip x0 s
  | .throttleStepChange x0 => Sys2Proof.Machine.execThrottleStepChange x0 s
  | .pwrctlWrite x0 => Sys2Proof.Machine.execPwrctlWrite x0 s
  | .powerFailWarning => Sys2Proof.Machine.execPowerFailWarning s
  | .drainExpiry => Sys2Proof.Machine.execDrainExpiry s
  | .reelWrite => Sys2Proof.Machine.execReelWrite s
  | .reelRestart => Sys2Proof.Machine.execReelRestart s
  | .coldReset => Sys2Proof.Machine.execColdReset s
  | .recoveryMode x0 x1 => Sys2Proof.Machine.execRecoveryMode x0 x1 s
  | .firmwareWatchdog x0 => Sys2Proof.Machine.execFirmwareWatchdog x0 s
  | .mbxgo x0 x1 => Sys2Proof.Machine.execMbxgo x0 x1 s
  | .mbxpop x0 => Sys2Proof.Machine.execMbxpop x0 s
  | .kick x0 => Sys2Proof.Machine.execKick x0 s
  | .mailboxEntryArrival x0 => Sys2Proof.Machine.execMailboxEntryArrival x0 s
  | .handlerPublish x0 x1 x2 => Sys2Proof.Machine.execHandlerPublish x0 x1 x2 s
  | .vtakenoRead x0 => Sys2Proof.Machine.execVtakenoRead x0 s
  | .vcauseRead x0 => Sys2Proof.Machine.execVcauseRead x0 s
  | .voutdone x0 => Sys2Proof.Machine.execVoutdone x0 s
  | .messagePortSend x0 x1 => Sys2Proof.Machine.execMessagePortSend x0 x1 s
  | .pops x0 x1 => Sys2Proof.Machine.execPops x0 x1 s
  | .popv x0 x1 => Sys2Proof.Machine.execPopv x0 x1 s
  | .messagePortStatusRead x0 => Sys2Proof.Machine.execMessagePortStatusRead x0 s
  | .resultQueueAppend x0 x1 x2 x3 => Sys2Proof.Machine.execResultQueueAppend x0 x1 x2 x3 s
  | .continuityLinkDown => Sys2Proof.Machine.execContinuityLinkDown s
  | .guestLinkTraining x0 => Sys2Proof.Machine.execGuestLinkTraining x0 s
  | .epochWrite x0 => Sys2Proof.Machine.execEpochWrite x0 s
  | .slewComplete => Sys2Proof.Machine.execSlewComplete s
  | .mirrorMarkerArrival x0 => Sys2Proof.Machine.execMirrorMarkerArrival x0 s
  | .sendQueueEntryFreed x0 x1 => Sys2Proof.Machine.execSendQueueEntryFreed x0 x1 s
  | .inFlightWriteLands x0 x1 => Sys2Proof.Machine.execInFlightWriteLands x0 x1 s
  | .writeBackAck x0 => Sys2Proof.Machine.execWriteBackAck x0 s
  | .killAcceptance x0 => Sys2Proof.Machine.execKillAcceptance x0 s
  | .hostAccessTimeout x0 => Sys2Proof.Machine.execHostAccessTimeout x0 s
  | .recruitmentAnswer x0 x1 => Sys2Proof.Machine.execRecruitmentAnswer x0 x1 s

end Sys2Proof.Machine
end

