-- ==== Sys2Proof/Machine/Bundle.lean ====
section
/-! DEFINITION. A bundle: its fetch, its decoding, and the issue of both words of a pair as one (R27 to R32, R39, R159,
R175, R180, R211, R404). -/

namespace Sys2Proof.Machine

noncomputable section

/-! ### Fetch (R175, R180, R211, R404) -/

/-- The bundle at a physical address: the fetch cache may give the one that it has fetched before (log entry 11). -/
def fetchWord (s : State) (pa : Nat) : State × Nat :=
  let v := readN s.mem pa 8
  let put (s : State) : State := modCurCore s fun co => { co with icache := aset pa v co.icache }
  match (curCore s).icache.find? (·.1 == pa) with
  | some (_, old) =>
    if old = v then (s, v)
    else
      let t := { s with fresh := s.fresh + 1 }
      if Config.fetchStale s.fresh then (t, old) else (put t, v)
  | none => (put s, v)

/-- The bundle at an offset of the body of the image that a firmware core runs; none outside it, and on a tile core (R387;
log entry 88). -/
def fetchBody (s : State) : Option Nat :=
  let pc := (curCtx s).pc
  match s.cur.agent with
  | .tile _ => none
  | .fw k =>
    let b := (s.fws[Fin.ofNat 8 k]).body
    if pc + 8 ≤ b.length then some (natOf ((b.drop pc).take 8)) else none

/-- The fetch of the issuing context's bundle: virtual page 0 is the stub page. -/
def fetch (s : State) : Do (State × Nat) := do
  let c := curCtx s
  if let some w := fetchBody s then .ok (s, w)
  else if c.pc < 4096 then trap 0x3B (w64 c.pc)
  else do
    let (s, t) ← resolve s s.cur.agent c.asid (curLevel s == 0) (w64 c.pc) 2 .fetch
    match t with
    | .phys pa _ _ =>
      if homeBusy s pa then .error (.hold s)
      else do
        loadCheck s pa 8
        .ok (fetchWord s pa)
    | _ => trap 0x07 (fv c.pc 2 4 false)

/-- The request for a handler that a fetch from the stub page posts to FW1 (R388, R404). -/
def stubRequest (s : State) (k : CtxKey) (c : Ctx) : State :=
  let la := c.launch.getD 0
  let h := c.pc / 8 % 512
  let s := postMail s 1 ⟨mailWord0 s 3 0 (isFw k.agent) (agentNo k.agent), w64 (c.pc % 2 ^ 48), ctxAddr k c.gen,
    w64 (la % 2 ^ 16 + h * 2 ^ 16)⟩
  modDev s fun d => { d with requests := d.requests ++ [(la, h, ⟨k, c.gen, c.depth, 0⟩)] }

/-- A cause of a word of the bundle: 0 for word 0 or a 64-bit instruction, 1 for word 1. -/
def wordTrap (s : State) (slot code : Nat) (tval : Word) : State := raisePrecise { cForm 0 with slot := slot } s code tval

/-- A fetch that does not give a bundle. -/
def fetchStall (s : State) (e : Stall) : State :=
  match e with
  | .trap code tval =>
    let t := wordTrap s 0 code tval
    if code = 0x3B ∧ t.last = .trapped then stubRequest t s.cur (curCtx s) else t
  | e => stall (cForm 0) s e

/-! ### Pairs (R29 to R31) -/

/-- The first fault of a word that needs no operand, in the order of R31. -/
def staticFault (s : State) (w : Nat) (r : DecRes) : Option (Nat × Word) :=
  match r with
  | .error e => some (e.cause, encTval w e.sub false)
  | .ok i => (wordFault (form i) s).map fun code => (code, encTval w 0 false)

/-- The vector registers that an instruction writes, by SCFG and SCLOSE too (R30). -/
def Form.vecWrites (f : Form) : List FReg := f.fw ++ (if f.major = 0x1F ∧ f.word % 1024 ≠ 2 then f.sb else [])

/-- Whether two words write one register (R30). -/
def Form.clash (f g : Form) : Bool :=
  (f.gw.filter (· ≠ 0)).any g.gw.contains || f.vecWrites.any g.vecWrites.contains || f.mw.any g.mw.contains
    || f.aw.any g.aw.contains || f.sw.any g.sw.contains

/-- Whether an instruction writes, beside what its form names, a register that a form writes: GATE and GRET write every vector
and mask register (R349, R351), and TRET the registers that its handler has banked (R341, R345). -/
def writesBeside (c : Ctx) (i : Instr) (g : Form) : Bool :=
  let files := !g.vecWrites.isEmpty || !g.mw.isEmpty
  match i with
  | .gate _ _ => files
  | .gret => files
  | .tret => if c.inTrap then g.gw.any fun r => decide (24 ≤ r.val) else c.inUi && g.gw.any fun r => decide (28 ≤ r.val)
  | _ => false

/-- Whether the two words of a pair write one register (R30). -/
def clash (ctx : Ctx) (c a : Instr) : Bool := (form c).clash (form a) || writesBeside ctx c (form a)

/-- Whether a captured A-slot may hold a word: ANOP, an instruction of majors 0x28 to 0x2F, or VSEQ.STOP (R159). -/
def capturable (w : Nat) : Bool :=
  let m := w / 2 ^ 25 % 64
  m == 0x3F || (decide (0x28 ≤ m) && decide (m ≤ 0x2F)) || (m == 0x30 && w / 2 ^ 5 % 32 == 1)

/-- Whether the capture of a word is the first fault of R31: it stands beside the operand limits, after an unassigned code and
before causes 0x02, 0x04 and 0x03. -/
def captureFaults (s : State) (w : Nat) (r : DecRes) : Bool :=
  capturing (curCtx s) && decide (0x28 ≤ w / 2 ^ 25 % 64) && !capturable w && match r with
    | .error e => e.cause == 2
    | .ok _ => true

/-- NOP, and ANOP. -/
def isNop : Instr → Bool
  | .nop => true
  | _ => false
def isAnop : Instr → Bool
  | .anop => true
  | _ => false


/-- A stream or a port as it stood at the issue: a register that both words read is popped once (R153). -/
def unpop (s t : State) (r : FReg) : State :=
  match streamOf (curCtx s) r with
  | some st => modCur t fun c => c.setStream r st
  | none => match portOf (curCtx s) r with
    | some p => modCurCore t fun co => { co with linkIn := co.linkIn.set p (curCore s).linkIn[p] }
    | none => t

/-- `t` with the presence bits of some registers as `u` has them: a read does not consume what the other word writes. -/
def keepPresence (u t : State) (l : List GReg) : State :=
  let m := regMask l
  modCur t fun c => { c with p := (c.p &&& ~~~m) ||| ((curCtx u).p &&& m) }

/-- `i` executed in `t`, where the other word has committed, with the registers of the issue `s`; none when it does not
commit there. -/
def afterOther (s t : State) (i other : Instr) : Option State :=
  let both := (form i).fr.filter (form other).fr.contains
  match exec i { both.dedup.foldl (unpop s) t with latch := some (curCtx s) } with
  | .next v => if v.last = .committed then some { v with latch := none } else none
  | _ => none

/-- Both words commit: word 0, and then word 1. -/
def inOrder (s t : State) (c a : Instr) : Option State :=
  (afterOther s t a c).map fun v => keepPresence t v (form c).gw

/-- Both words commit where word 0 takes the context elsewhere: word 1's results come first. -/
def leavingLast (s t : State) (c a : Instr) : Option State :=
  let t := modCur t fun x => { x with grants := (curCtx s).grants }
  (afterOther s t c a).map fun v =>
    if (curCtx v).gen = (curCtx s).gen then
      modCur v fun x => { x with grants := x.grants.filter (·.pc != (curCtx s).pc) }
    else v

/-- A pair whose words a sequencer captures: word 1 joins the sequence (R159). -/
def capturePair (s : State) (c a : Instr) : Host.Outcome State Fault Refusal :=
  match exec c s with
  | .next t =>
    if t.last = .committed ∧ !leaves s t then
      .next (modCur t fun x => { x with seqr := (curCtx s).seqr.bind fun q => q.take a (curCtx s).pc })
    else .next t
  | o => o

/-- Whether a bundle does not issue in a state that it leaves: it waits, or it is held. -/
def stuck (t : State) : Bool := t.last == .waiting || t.last == .held

/-- Whether a bundle that does not issue yet has had an effect: its request is on its way to an owner, or a step of its
expansion has been committed. -/
def asked (s t : State) : Bool := (curCtx t).grants != (curCtx s).grants

/-- A pair of instructions. Where word 0 would leave a request to an owner, or commit a step of an expansion, it does so
only when word 1 neither waits, nor is held, nor faults: a bundle that has not issued has had no effect, and neither word
of a bundle that faults commits (R29, R31; log entry 130). -/
def runPair (s : State) (c a : Instr) : Host.Outcome State Fault Refusal :=
  if isNop c then exec a s
  else if isAnop a then exec c s
  else if capturing (curCtx s) then capturePair s c a
  else match exec c s, exec a s with
    | .next t, .next u =>
      if stuck t && !asked s t then .next t
      else if stuck u then .next u
      else if t.last = .trapped then .next t
      else if u.last = .trapped then .next u
      else if stuck t then .next t
      else .next ((if leaves s t then leavingLast s u c a else inOrder s t c a).getD { s with last := .held })
    | .next _, o => o
    | o, _ => o

/-- The two words of a bundle as the issuing context executes them. -/
def runWords (s : State) (w0 w1 : Nat) : Host.Outcome State Fault Refusal :=
  match decodeBundle ((curCtx s).st 9) w0 w1 with
  | .malformed cause sub word => .next (wordTrap s word cause (encTval (if word = 0 then w0 else w1) sub false))
  | .one (.ok i) => exec i s
  | .one (.error e) =>
    if captureFaults s w0 (.error e) then .next (refuseCapture (cForm w0) s)
    else .next (wordTrap s 0 e.cause (encTval (if e.ext then w1 else w0) e.sub e.ext))
  | .two r0 r1 =>
    match staticFault s w0 r0, staticFault s w1 r1 with
    | some (code, tval), _ => .next (wordTrap s 0 code tval)
    | none, f1 =>
      if captureFaults s w1 r1 then .next (refuseCapture { cForm w1 with slot := 1 } s)
      else match f1, r0, r1 with
      | some (code, tval), _, _ => .next (wordTrap s 1 code tval)
      | none, .ok c, .ok a =>
        if clash (curCtx s) c a then .next (wordTrap s 1 0x01 (encTval w1 1 false)) else runPair s c a
      | _, _, _ => .next s

/-- The next bundle of a context. -/
def runBundle (s : State) (k : CtxKey) : Host.Outcome State Fault Refusal :=
  let s := { s with cur := k, latch := none }
  match fetch s with
  | .ok (t, v) => runWords t (v % 2 ^ 32) (v / 2 ^ 32)
  | .error e => .next (fetchStall s e)

end

end Sys2Proof.Machine
end

