-- ==== Sys2Proof/Machine/Outside.lean ====
section
/-! DEFINITION. What the world outside does beside the events of the opcode table: the control cores' own instructions, the
partner's accesses, the hold requests of firmware, FW7's configuration of the Ethernet engine and its advertising, the host's
command queues, the guest's other packets, and the translator's and the links' services (R14, R88, R191, R202, R217, R224,
R328, R331, R335, R336, R368, R371, R374, R386, R389, R402, R405; log entry 118). -/

namespace Sys2Proof.Machine

/-- The partner's access to a line of this package's DRAM, as the continuity port performs it at its home (R202, R224); none
while the home holds it, or the link is down. -/
def partnerAccess (s : State) (op : AOp) (pa : Nat) : Option State :=
  let n := op.bytes
  let reads (go : Option State) : Option State := if (failedIn s pa n).isSome then some (returned s none) else go
  if !s.dev.pair.linkUp || decide (dramEnd < pa + n) || homeBusy s pa then none
  else match op with
    | .ld n => reads (some (returned (l2Use s pa n false false) (some (readBytes s.mem pa n))))
    | .st bs => some (returned (homeWrite s pa bs 10 0 none false) (some []))
    | .amo k w v e =>
      reads (let r := homeAmo s pa k w v e 10 0 none false; some (returned r.2 (some (bytesOf r.1 w))))
    | _ => some s

/-- A list with one place written, brought to `n` places first. -/
def putAt {α : Type} (n : Nat) (blank : α) (l : List α) (i : Nat) (x : α) : List α :=
  (l ++ List.replicate (n - l.length) blank).set i x

/-- An entry that is not in use, and a descriptor that no entry fills. -/
def MapEntry.blank : MapEntry := inEntry 0 0 false
def FrameDesc.blank : FrameDesc := ⟨0, 0, List.replicate 64 0, 0⟩

/-- FW7's configuration port writes the active maps while IMGCTL.EXPEN is 1 (R331); FW7 refuses maps that break R329, R331 or
R359. -/
def configMaps (s : State) (f : Maps → Maps) : State :=
  let m := f s.dev.image.maps
  if s.dev.image.expen && fwWorks s 7 && inMapAccepted s.dev.pair.paired m.inMap && outMapAccepted m.outMap m.descs then
    modDev s fun d => { d with image := { d.image with maps := m } }
  else s

/-- Whether an entry of the input map has the fields of Table 14.15. -/
def MapEntry.inFormed (e : MapEntry) : Bool :=
  decide (e.stream < 2048) && decide (e.imgOff < 2 ^ 23) && decide (e.len < 2048) && decide (e.payOff < 2048) && !e.stamp
/-- Whether an entry of the output map has the fields of R331. -/
def MapEntry.outFormed (e : MapEntry) : Bool :=
  decide (e.stream < 512) && decide (e.imgOff < 2 ^ 22) && decide (e.len < 2048) && decide (e.payOff < 2048) && !e.rtag
/-- Whether a descriptor gives a port, a class, a header of 64 bytes and a payload length of at most 1,500. -/
def FrameDesc.formed (f : FrameDesc) : Bool :=
  decide (f.port < 10) && decide (f.cls < 8) && f.header.length == 64 && decide (f.len ≤ 1500)

/-- The REPLACE pin (R386). -/
def replacePin (s : State) : Bool := s.dev.replace != 0

/-- What an outer input does; none where it has to wait: a store to SEND, or a FENCE, while the message port is busy, and an
access that its home holds. -/
def outerStep (s : State) : Outer → Option State
  | .ctrlCompute c rd v => some (modCtrl s c fun x => x.put rd v)
  | .ctrlMode c user => some (modCtrl s c fun x => { x with user := user })
  | .ctrlPmp c i cfg addr => some (ctrlPmp s c i cfg addr)
  | .ctrlLoad c rd addr n => some (ctrlLoad s c rd addr.toNat n.val)
  | .ctrlStore c rs addr n =>
    if addr.toNat = portBase + 0x40 ∧ (s.dev.ctrl[c]).busy then none else some (ctrlStore s c rs addr.toNat n.val)
  | .ctrlAmo c rd rs addr k wide => some (ctrlAmo s c rd rs addr.toNat k wide)
  | .ctrlCsrRead c rd num => some (ctrlCsrRead s c rd num.toNat)
  | .ctrlCsrWrite c rs num => some (ctrlCsrWrite s c rs num.toNat)
  | .ctrlMie c v => some (ctrlMie s c v)
  | .ctrlFloat c rd v fcsr => some (modCtrl s c fun x => { x with f := x.f.set rd v, fcsr := fcsr })
  | .ctrlJump c pc => some (modCtrl s c fun x => { x with pc := pc })
  | .ctrlMret c => some (ctrlMret s c)
  | .ctrlInterrupt c => some (ctrlInterrupt s c)
  | .ctrlFence c => if ctrlFenceDone s c then some s else none
  | .partnerAccess op addr => partnerAccess s op addr
  | .holdQueue fw5 core q on => some (holdQueue s fw5 core q on)
  | .endHolds power => some (endHolds s (if power then 2 else 3))
  | .portGates port g => some (setPortGates s port g)
  | .streamFilter stream f => some (setStreamFilter s stream.val f)
  | .fw7Frame => some (toFw7 s)
  | .inEntry i e => some (if e.inFormed then configMaps s fun m => { m with inMap := putAt 4096 .blank m.inMap i.val e } else s)
  | .outEntry i e => some (if e.outFormed then configMaps s fun m => { m with outMap := putAt 2048 .blank m.outMap i.val e } else s)
  | .frameDesc i f => some (if f.formed then configMaps s fun m => { m with descs := putAt 512 .blank m.descs i.val f } else s)
  | .translated tag module_ table image => some (translated s tag module_ table image)
  | .fwClock k ns => some (fwClock s k ns)
  | .hostQueue q base done size => some (hostQueue s q base done size)
  | .hostCommands q n => some (hostCommands s q n)
  | .hostReplace => some (returned s (some (bytesOf s.dev.replace.toNat 8)))
  | .advertise =>
    some (if fwWorks s 7 then modDev s fun d => { d with host := { d.host with advertised := d.replace } } else s)
  | .guestOther kind q seq =>
    some (if 1 ≤ kind.toNat ∧ kind.toNat ≤ 4 then s else discardPacket s kind.toNat q seq)
  | .guestRelease q => some (if fwWorks s 2 then modGq s q fun x => { x with held := false, block := false } else s)
  | .reelError slot1 a b => some (modDev s fun d => { d with reels := d.reels.damage slot1 a b })
  | .accError k acc => some (accError s k acc)
  | .resend n => some (resendLost s n)
  | .corrected => some (if fwWorks s 4 then modDev s fun d => { d with corrected := d.corrected + 1 } else s)

/-- The outer input at the head of its list: it leaves the list once it has taken effect. -/
def runOuter (s : State) (o : Outer) : State := (outerStep { s with outer := s.outer.tail } o).getD s

end Sys2Proof.Machine
end

