-- ==== Sys2Proof/Machine/Turns.lean ====
section
/-! DEFINITION. What may happen next: the events that the machine's own state makes possible, the events that the world
outside offers, and the contexts whose bundles may issue (R31, R87, R204, R205, R342, R345, R387; log entries 1, 2, 4,
5). -/

namespace Sys2Proof.Machine

noncomputable section

/-! ### Contexts that may issue (R87) -/

/-- Whether a context's next bundle may issue: it is live and waits for nothing, and no cause is delivered first. An
expansion under way goes on to its end before a cause is delivered (R33). -/
def mayIssue (a : Agent) (c : Ctx) : Bool :=
  (match c.place with
    | .live _ => true
    | _ => false)
    && !c.killed && c.wait.isNone
    && (c.inExpansion || (c.stepped.isNone && !(c.due12 && !c.inTrap) && c.nextCause.isNone && (isFw a || c.actLeft != 0)))

/-- Whether a firmware core issues: it has been started, and has not failed or stopped (R387). -/
def fwIssues (s : State) (n : Nat) : Bool :=
  let f := s.fws[Fin.ofNat 8 n]
  f.started && !f.failed && !f.asleep

/-- The contexts of an agent that are ready. -/
def readyCtxs (s : State) (a : Agent) : List (CtxKey × Ctx) :=
  s.ctxs.filter fun x => x.1.agent == a && mayIssue a x.2 && (match a with
    | .fw n => fwIssues s n
    | .tile _ => true)

/-- The live position of a context. -/
def posOf (c : Ctx) : Nat := match c.place with
  | .live p => p.val
  | _ => 0

/-- The ready contexts of an agent in their order: by priority, and then round-robin by live position. -/
def issueOrder (s : State) (a : Agent) : List CtxKey :=
  let l := readyCtxs s a
  let from_ := (getCore s a).rrPos
  (List.range 4).flatMap fun pri => (List.range 4).filterMap fun i =>
    (l.find? fun x => x.2.pri % 4 == pri && posOf x.2 == (from_ + 1 + i) % 4).map (·.1)

/-- Whether a context's bundle is held, so that it does not issue and another ready context may (R110). -/
def heldNow (s : State) (k : CtxKey) : Bool := match runBundle s k with
  | .next t => t.last == .held
  | _ => false

/-- The first context whose bundle is not held, and those before it, which are tried. -/
def tried (s : State) : List CtxKey → List CtxKey
  | [] => []
  | k :: l => if heldNow s k then k :: tried s l else [k]

/-- The agents that hold a context. -/
def agents (s : State) : List Agent := (s.ctxs.map (·.1.agent)).eraseDups

/-- The bundles that may issue, and those that are held meanwhile. -/
def issues (s : State) : List CtxKey := (agents s).flatMap fun a => tried s (issueOrder s a)

/-- The round robin of a context's core, moved on to its live position where its bundle has issued. -/
def moveOn (s t : State) (k : CtxKey) : State :=
  if t.last = .committed ∨ t.last = .trapped then modCore t k.agent fun co => { co with rrPos := posOf (getCtx s k) } else t

/-- The issue of a context's bundle moves the round robin on. -/
def issueNext (s : State) (k : CtxKey) : Host.Outcome State Fault Refusal :=
  match runBundle s k with
  | .next t => .next (moveOn s t k)
  | o => o

/-! ### Events of the machine's own -/

/-- What the packet at an index may do. -/
def packetEvents (n : Nat) (p : Packet) : List Instr :=
  match p.body with
  | .access _ => [.remoteAccessArrival n, .guestSubmit n]
  | .reply _ _ _ => [.accessReplyArrival n]
  | .fillReply _ _ _ _ => [.accessReplyArrival n]
  | .ack _ => [.storeAckArrival n]
  | .wbAck _ => [.writeBackAck n]
  | .refusal _ _ _ _ _ => [.refusalArrival n]
  | .message _ _ _ => [.messageArrival n]
  | .putn _ _ _ _ _ _ _ => [.messageArrival n]
  | .deposit _ _ _ => [.absentContextMessage n, .depositArrival n]
  | .sinkReply _ _ _ => [.replyArrival n]
  | .spawn _ _ _ => [.spawnArrival n]
  | .join _ _ _ _ => [.joinArrival n]
  | .barrier _ _ _ (.refused _) => [.barrierHoldRetry n]
  | .barrier _ _ _ _ => [.barrierEvent n]
  | .ring _ _ _ _ _ => []
  | .kill _ _ _ _ => [.killAcceptance n]

/-- What a context may do beside issuing. -/
def ctxEvents (k : CtxKey) (c : Ctx) : List Instr :=
  List.flatten [
    [Instr.asyncCauseDelivery k, Instr.copyCompletionInterrupt k, Instr.singleStep k, Instr.contextLoad k,
      Instr.contextWriteback k, Instr.activationBudgetExpiry k, Instr.budgetGraceExpiry k, Instr.quiesceAck k, Instr.invpgAck k,
      Instr.gateUnwind k 0x12 (w64 c.actLoaded), Instr.sequencerReplayStep k, Instr.spilledContextReturn k],
    c.busy.map fun r => Instr.inFlightWriteLands k r,
    c.streams.flatMap fun x => [Instr.streamFetch k x.1, Instr.streamDrain k x.1]]

/-- What a core's own parts may do. -/
def coreEvents (a : Agent) (co : Core) : List Instr :=
  List.flatten [
    [Instr.activationStart a, Instr.slotExhaustion a, Instr.parkedReturn a, Instr.reshapeComplete a, Instr.copyTransferStart a,
      Instr.copyTransferDone a, Instr.copyTransferFault a, Instr.convOpStart a, Instr.convOpComplete a,
      Instr.mmrotForward a false, Instr.mmrotForward a true],
    (List.finRange 4).map fun n => Instr.sendQueueEntryFreed a n,
    (List.finRange 64).map fun q => Instr.takeBudgetSpent a q,
    (List.finRange 16).map fun h => Instr.ringOperationAtOwner a h,
    (List.range co.recvQ.length).map fun i => Instr.depositLanding a i,
    (List.range 16).map fun i => Instr.depositLanding a (16 + i),
    (List.range co.feWaits.length).map fun i => Instr.feWaitDone a i,
    (List.range co.matOps.length).flatMap fun i => [Instr.matrixOpStart a i, Instr.matrixOpComplete a i],
    (List.range co.recruits.length).map fun i => Instr.recruitmentAnswer a i,
    co.spawnOut.map fun x => Instr.spawnRetry x.id,
    co.spilled.flatMap fun x => [Instr.spilledContextReturn ⟨a, x.slot⟩, Instr.quiesceAck ⟨a, x.slot⟩],
    match a with
    | .tile n => (List.range 4).map fun p => Instr.linkVectorArrival (4 * n + p)
    | .fw _ => []]

/-- What the device's blocks may do. Time moves to a clapper or an egress phase as one of them comes (log entry 5). -/
def deviceEvents (s : State) : List Instr :=
  let d := s.dev
  let t := d.time
  List.flatten [
    [Instr.clapper (w64 (Nat.max t.dtime (t.due t.first))),
      Instr.egressSwap (w64 (Nat.max t.dtime (t.due t.takeno + t.egress))), Instr.heartbeatSend,
      Instr.mirrorMarkerSend, Instr.unreconciledTake, Instr.takeDigestSend, Instr.heartbeatMiss,
      Instr.digestTimeout, Instr.domainSwitchApply, Instr.losingSliceSignal,
      Instr.domainSwitchEnd, Instr.reelWrite, Instr.throttleStepChange 0, Instr.throttleStepChange 1,
      Instr.snaptimeReached (w64 (Nat.max t.dtime d.snap.time.toNat))],
    (List.range d.image.egMaps.descs.length).map fun i => Instr.frameTransmit i,
    (List.range d.sheet.active.length).map fun i => Instr.callSheetEntryFire i,
    d.sheet.active.zipIdx.map fun x => Instr.oneShotFire x.2 (w64 (Nat.max t.dtime (x.1.word 1))),
    (List.finRange 64).map fun q => Instr.guestPreemptRequest q,
    (List.finRange 8).map fun k => Instr.mailboxEntryArrival k,
    d.trigs.map fun x => Instr.watchpointTrigger x.ag (Fin.ofNat 4 x.n) (Fin.ofNat 11 x.kind) (BitVec.ofNat 11 x.writer)
      (BitVec.ofNat 48 x.addr),
    (List.range d.trees.length).flatMap fun i => s.cores.map fun c => Instr.treeResult c.1 i]

/-- Every event that the state may make possible. -/
def ownEvents (s : State) : List Instr :=
  (s.net.zipIdx.flatMap fun x => packetEvents x.2 x.1) ++ (s.ctxs.flatMap fun x => ctxEvents x.1 x.2)
    ++ (s.cores.flatMap fun x => coreEvents x.1 x.2) ++ deviceEvents s

/-- Whether an event changes the machine. -/
def changes (s : State) (i : Instr) : Bool :=
  match exec i s with
  | .next t => t != { s with last := .event }
  | _ => true

/-! ### Events of the world outside -/

/-- Whether an event is one that the world outside the modelled parts brings: the ports and pins, sensors and clocks,
bounds of time that have run out, and the services of firmware, whose code the spec does not give (log entries 1, 5). -/
def fromOutside : Instr → Bool
  | .frameIngress _ => true
  | .heartbeatArrival _ _ _ => true
  | .mirrorWrite _ _ _ => true
  | .mirrorMarkerArrival _ => true
  | .takeDigestArrival _ _ => true
  | .pairForm _ => true
  | .continuityLinkDown => true
  | .guestCompletion _ _ _ => true
  | .guestFault _ _ _ => true
  | .guestDrained _ => true
  | .guestSaved _ => true
  | .guestAccess _ _ => true
  | .guestRequestTimeout _ _ => true
  | .guestPreemptTimeout _ => true
  | .guestLinkTraining _ => true
  | .hostDoorbell _ => true
  | .launch _ _ => true
  | .activeMessage _ _ _ _ _ _ => true
  | .loadCallSheet _ _ _ _ => true
  | .releaseQueue _ _ _ => true
  | .endLaunch _ _ => true
  | .loadImageMaps _ _ _ => true
  | .openAperture _ _ _ => true
  | .claimOwnership _ _ => true
  | .transferOwnership _ _ => true
  | .advanceVersion _ _ _ => true
  | .attestationQuote _ _ _ => true
  | .storeImage _ _ _ => true
  | .splitDomain _ _ _ _ _ => true
  | .hostApertureAccess _ => true
  | .hostAccessTimeout _ => true
  | .journalTimeout _ _ => true
  | .linkReroute _ _ _ => true
  | .deadlockSuspected _ => true
  | .hashmaskWrite _ _ => true
  | .domselWrite _ _ => true
  | .l2ctlWrite _ => true
  | .domstatRead => true
  | .pageMigration _ _ _ => true
  | .uncorrectableError _ _ _ => true
  | .tileRetire _ _ => true
  | .wpctlWrite _ _ _ => true
  | .wpctlRead _ _ => true
  | .snapshotTrigger _ => true
  | .snapshotPin => true
  | .rearm => true
  | .timectlWrite _ => true
  | .takecfgWrite _ => true
  | .epochWrite _ => true
  | .servoStep _ => true
  | .slewComplete => true
  | .lockedChange _ => true
  | .timestatErrClear => true
  | .dtimeDivergence _ => true
  | .mapsw => true
  | .csstatRead => true
  | .detstatRead => true
  | .pairstatClear _ _ => true
  | .statusLostaClear _ => true
  | .governorSample _ _ => true
  | .thermalSample _ _ => true
  | .clrtrip _ => true
  | .pwrctlWrite _ => true
  | .powerFailWarning => true
  | .drainExpiry => true
  | .reelRestart => true
  | .coldReset => true
  | .recoveryMode _ _ => true
  | .firmwareWatchdog _ => true
  | .mbxgo _ _ => true
  | .mbxpop _ => true
  | .kick _ => true
  | .handlerPublish _ _ _ => true
  | .vtakenoRead _ => true
  | .vcauseRead _ => true
  | .voutdone _ => true
  | .messagePortSend _ _ => true
  | .pops _ _ => true
  | .popv _ _ => true
  | .messagePortStatusRead _ => true
  | .resultQueueAppend _ _ _ _ => true
  | .clapper _ => true
  | .egressSwap _ => true
  | _ => false

/-- The next event that the world outside has offered. -/
def offered (s : State) : List Instr := match s.inputs with
  | i :: _ => [i]
  | [] => []

/-! ### What firmware has begun and goes on with by itself -/

/-- The next part of a work that firmware has begun. -/
inductive Chore where
  /-- a page that is blocked moves (R219) -/
  | migrate (g : Migration)
  /-- a fuse of the version counter is blown (R394) -/
  | burn
  /-- FW1 reads the next command of a host queue (R374) -/
  | command (q : Fin 16)
  /-- FW5 pops an entry of its mailbox, and its tick falls (R417) -/
  | serve5
  | tick5
  deriving DecidableEq, Repr

/-- The works that firmware may go on with. -/
def chores (s : State) : List Chore :=
  (if fwWorks s 3 then s.dev.migrations.map .migrate else []) ++ (if burning s then [.burn] else [])
    ++ ((List.finRange 16).filter (commandReady s)).map .command
    ++ (if fwWorks s 5 && !(s.fws[5]).mailbox.isEmpty then [.serve5] else [])
    ++ (if ((tickDue s).bind fun due => timeTo s (Nat.max s.dev.time.dtime due)).isSome then [.tick5] else [])

/-- A part of such a work done. -/
def runChore (s : State) : Chore → State
  | .migrate g => movePage s g
  | .burn => burnFuse s
  | .command q => readCommand s q
  | .serve5 => fw5Serve s
  | .tick5 => fw5Ticks s

/-! ### The choice (log entry 2) -/

/-- One thing that may happen next. -/
inductive Choice where
  | input (i : Instr)
  | own (i : Instr)
  | issue (k : CtxKey)
  | outer (o : Outer)
  | chore (c : Chore)
  deriving DecidableEq, Repr

/-- Everything that may happen next. -/
def choices (s : State) : List Choice :=
  (offered s).map .input ++ ((ownEvents s).filter (changes s)).map .own ++ (issues s).map .issue
    ++ (s.outer.take 1).map .outer ++ (chores s).map .chore

/-- What happens. An offered event that the world outside cannot bring is dropped. -/
def perform (s : State) : Choice → Host.Outcome State Fault Refusal
  | .input i =>
    let s := { s with inputs := s.inputs.tail }
    if fromOutside i then exec i s else .next s
  | .own i => exec i s
  | .issue k => issueNext s k
  | .outer o => event (runOuter s o)
  | .chore c => event (runChore s c)

/-- A step with nothing fixed: one of the choices, or none where nothing can happen. -/
def chooseStep (s : State) : Host.Outcome State Fault Refusal :=
  let l := choices s
  match l[Config.pick s.fresh % l.length]? with
  | some c => perform { s with fresh := s.fresh + 1 } c
  | none => .next s

/-- What a step runs when it is fixed (log entry 1). -/
def runTurn (s : State) : Turn → Host.Outcome State Fault Refusal
  | .issue k => issueNext s k
  | .event i => exec i s

end

end Sys2Proof.Machine
end

