-- ==== Sys2Proof/Machine/Step.lean ====
section
/-! DEFINITION. One step of the machine, and the placing of an instruction where the next step fetches it. -/

namespace Sys2Proof.Machine

noncomputable section

/-- One step: what is fixed to come next (log entry 1), or else one of the things that may happen (log entry 2). -/
def step (s : State) : Host.Outcome State Fault Refusal :=
  match s.turn with
  | some t => runTurn { s with turn := none } t
  | none => chooseStep s

/-- The context that a placed instruction runs in: on a core that has its family (Table 2.8), and for INVPG on FW3. -/
def fetchKey (w : Nat) : CtxKey :=
  let major := w / 2 ^ 25 % 64
  if major = 0x31 then ⟨.tile 1, 0⟩
  else if major = 0x32 ∨ major = 0x33 then ⟨.tile 2, 0⟩
  else if major = 0 ∧ w / 32 % 32 = 17 then ⟨.fw 3, 0⟩
  else ⟨.tile 0, 0⟩

/-- Page tables at 0x8000 and up that map virtual page 0x400000 of address space 1 to physical page 0x14000, with a bundle
at its start (R176 to R179). -/
def fetchMem (m : List Host.Cell) (w0 w1 : Nat) : List Host.Cell :=
  let m := writeN m 0x8008 8 0x10001
  let m := writeN m 0x10000 8 0x11001
  let m := writeN m 0x11000 8 0x12001
  let m := writeN m 0x12010 8 0x13001
  let m := writeN m 0x13000 8 0x14037
  writeN m 0x14000 8 (w0 + w1 * 2 ^ 32)

/-- The state with an instruction of the opcode table placed where the next step fetches it: a live context of a core
at a virtual page that holds its bundle, and that context's turn (log entry 1). -/
def State.withFetchWord (s : State) (nbits w : Nat) : State :=
  let ws := tableWords (w % 2 ^ nbits)
  let k := fetchKey (if ws.1 = 0 then ws.2 else ws.1)
  let c := getCtx s k
  let s := setCtx s k { c with place := .live 0, pc := 0x400000, asid := 1, wait := none, killed := false }
  let s := { s with mem := fetchMem s.mem ws.1 ws.2, turn := some (.issue k) }
  modDev s fun d => { d with ptroot := 0x8001 }

end

end Sys2Proof.Machine
end

