-- ==== Sys2Proof/Safety.lean ====
section
/-! DEFINITION. What the claims are stated in: when an instruction's own effect may run, what it leaves where it commits,
and what a well-formed state is. -/

namespace Sys2Proof.Machine

/-- Nothing comes before an instruction's own effect (R31, R40, R104, R110, R161): its word has no fault, the sequencer does
not capture, and the checks and holds of `before` leave the state `t`, which differs from `s` only by an acquire that is due
and by translations that the checks of a write-bound register have cached. -/
def Ready (f : Form) (s t : State) : Prop :=
  wordFault f s = none ∧ (capturing (opCtx s) && s.latch.isNone) = false ∧ before f s = .ok t

/-- The instruction commits (R29): its context takes the registers that its effect `d` leaves and goes on. -/
def Commits (i : Instr) (s : State) (d : Done) : Prop :=
  exec i s = .next (commit (form i) (opCtx s) d)

/-- An instruction whose context goes on to the next bundle leaves this state. -/
def goesOn (s : State) : Done := { s := s }

/-- An instruction whose context goes on at an address leaves this state. -/
def jumpsTo (s : State) (pc : Nat) : Done := { s := s, npc := some pc }

/-- An instruction with which the activation ends leaves this state. -/
def finishes (s : State) : Done := { s := s, ended := true }

/-- Wherever nothing comes before the instruction's own effect, it commits, and its effect is `eff` of the state that the
checks left. -/
def Answers (i : Instr) (eff : State → Done) : Prop := ∀ s t, Ready (form i) s t → Commits i s (eff t)

/-- The same where the state that the checks left meets a condition. -/
def AnswersIf (i : Instr) (pre : State → Prop) (eff : State → Done) : Prop :=
  ∀ s t, Ready (form i) s t → pre t → Commits i s (eff t)

/-- The instruction raises a precise cause at the state where it issues (R31). -/
def Raises (i : Instr) (s : State) (code : Nat) (tval : Word) : Prop :=
  exec i s = .next (raisePrecise (form i) s code tval)

/-- Wherever nothing comes before the instruction's own effect and a condition holds, it raises a precise cause. -/
def RaisesIf (i : Instr) (pre : State → Prop) (code : Nat) (tval : State → Word) : Prop :=
  ∀ s t, Ready (form i) s t → pre t → Raises i s code (tval t)

/-- A context in which nothing holds or delays a bundle: no pair is half issued, every presence bit is set, no write is in
flight, no sequencer, stream or port is bound, no acquire is due, and no engine operation of the core is outstanding, and no
pushed vector waits for its store. -/
abbrev Calm (s : State) : Prop :=
  s.latch = none ∧ (opCtx s).p = BitVec.allOnes 32 ∧ (opCtx s).busy = [] ∧ (opCtx s).awaits = [] ∧ (opCtx s).seqr = none ∧
  (opCtx s).streams = [] ∧ (opCtx s).ports = [] ∧ (opCtx s).acquire = none ∧
  (curCore s).matOps = [] ∧ (curCore s).convOps = [] ∧ (opCtx s).pushes = []

/-- A resolved target that an access leaves the core for: another core's pool, or a physical page that no L1 serves. -/
def Target.afar (p : Target) (s : State) : Prop :=
  match p with
  | .own _ => False
  | .pool _ _ => True
  | .phys pa pol _ => ¬(pol = 0 ∧ servesL1 s s.cur.agent pa = true)

/-- A request that a core has sent: its number is taken, a slot of the load-return buffer holds it, and the context awaits
its reply (R234). -/
def requested (u : State) (dst : Node) (what : Awaited) (a : Access) : State :=
  let s := (newId u).2
  let s := modCurCore s fun c => { c with loads := c.loads ++ [u.ids + 1] }
  let s := modCur s (·.await ⟨u.ids + 1, what⟩)
  sendPkt s (nodeOf u.cur.agent) dst 0 (.access a)

/-- The home address of an offset of the issuing core's own pool. -/
def ownAddr (s : State) (off : Nat) : Nat := localAddr (agentNo s.cur.agent) off

/-- An aligned access of `n` bytes at an effective address reaches a data bank of the issuing core's own pool (R129, R193):
it resolves to an offset, in the state `u`. -/
def OwnPool (t u : State) (ea : Word) (kind : Nat) (need : Need) (off n : Nat) : Prop :=
  ea.toNat % n = 0 ∧ resolveCur t ea kind need = .ok (u, .own off) ∧ roleAdmit (curCore u) off n = .yes

/-- A load whose bytes lie in the issuing core's own pool, with no failed sector, commits with the bytes that the memory
holds there. -/
def LoadsOwn (i : Instr) (ea : State → Word) (n : Nat) (what : Awaited) : Prop :=
  ∀ s t u off, Ready (form i) s t → OwnPool t u (ea t) 0 .rd off n → failedIn u (ownAddr u off) n = none →
    Commits i s (goesOn (landNow u what (readN u.mem (ownAddr u off) n)))

/-- A load that resolves elsewhere, past any L1, commits: a request for its bytes is on its way to their home, and the
registers await the reply. -/
def LoadsAfar (i : Instr) (ea : State → Word) (n : Nat) (what : Awaited) : Prop :=
  ∀ s t u p, Ready (form i) s t → (ea t).toNat % n = 0 → resolveCur t (ea t) 0 .rd = .ok (u, p) → p.afar u →
    failedIn u (p.addr u.cur.agent) n = none → (curCore u).loads.length < 32 →
    Commits i s (goesOn (requested u (p.node u u.cur.agent) what
      (mkAccess u (u.ids + 1) (.ld n) (p.addr u.cur.agent) (ea t).toNat none p.policy)))

/-- A load that the L1 holds the bytes of commits with them, and marks the line as used (R182, R184). -/
def LoadsHit (i : Instr) (ea : State → Word) (n : Nat) (what : Awaited) : Prop :=
  ∀ s t u pa lvl v, Ready (form i) s t → (ea t).toNat % n = 0 → resolveCur t (ea t) 0 .rd = .ok (u, .phys pa 0 lvl) →
    servesL1 u u.cur.agent pa = true → l1Read (curCore u) pa n = some v →
    Commits i s (goesOn (landNow (allocLine u u.cur.agent (lineOf pa)).1 what v))

/-- A store whose bytes lie in the issuing core's own pool commits with them written there. -/
def StoresOwn (i : Instr) (ea : State → Word) (bs : State → List Byte) : Prop :=
  ∀ s t u off, Ready (form i) s t → OwnPool t u (ea t) 1 .wr off (bs t).length →
    Commits i s (goesOn (homeWrite u (ownAddr u off) (bs t) 0 (writerNo u.cur.agent) (some (curWho u 0))))

/-- A store that resolves elsewhere commits as the store of a resolved target does: it is posted, or it changes the L1. -/
def StoresAfar (i : Instr) (ea : State → Word) (bs : State → List Byte) : Prop :=
  ∀ s t u p v, Ready (form i) s t → (ea t).toNat % (bs t).length = 0 → resolveCur t (ea t) 1 .wr = .ok (u, p) →
    storeTo u p (ea t) (bs t) = .ok v → Commits i s (goesOn v)

/-- An atomic whose location lies in the issuing core's own pool, with no failed sector, commits: its release is done, the
location holds the result, gd the old value, and an acquiring form leaves an acquire due (R199, R212). -/
def AmoOwn (k : AmoK) (i : Instr) (p : AmoP) (d a b : GReg) : Prop :=
  ∀ s t u v off, Ready (form i) s t → OwnPool t u (rg t a) 3 .wr off (amoBytes p.w) →
    (if p.rel then release u .package else .ok u) = .ok v → roleAdmit (curCore v) off (amoBytes p.w) = .yes →
    failedIn v (ownAddr v off) (amoBytes p.w) = none →
    let old := readN v.mem (ownAddr v off) (amoBytes p.w)
    let new := amoNew k (amoBytes p.w) old (amoOperand v p.w b) (casExpected v k p.w d)
    let w := homeWrite v (ownAddr v off) (bytesOf new (amoBytes p.w)) 0 (writerNo v.cur.agent) (some (curWho v 0))
    let w := landNow w (.amo d (amoBytes p.w)) old
    Commits i s (goesOn (if p.acq then modCur w fun c => { c with acquire := some .package } else w))

/-- The offset of an address of core-local space (R173). -/
def localOff (ea : Word) : Nat := bits ea.toNat 19 0

/-- Every part of a vector access lies in the issuing core's own pool, and no sector of it has failed. -/
def PartsOwn (t : State) (parts : List (Nat × Word)) (kind : Nat) (need : Need) (n : Nat) : Prop :=
  ∀ p ∈ parts, OwnPool t t p.2 kind need (localOff p.2) n ∧ failedIn t (ownAddr t (localOff p.2)) n = none

/-- A vector load whose parts lie in the own pool commits with their bytes in the register. -/
def VecLoadsOwn (i : Instr) (d : FReg) (n : Nat) (parts : State → List (Nat × Word)) : Prop :=
  ∀ s t, Ready (form i) s t → PartsOwn t (parts t) 0 .rd n → (curCore t).loads.length ≤ 32 →
    Commits i s (goesOn (finishVec (modCur ((parts t).foldl (fun u p =>
      landNow u (.lane d p.1 n) (readN t.mem (ownAddr t (localOff p.2)) n)) t) (·.pushing d)) t.cur d))

/-- A vector store whose parts lie in the own pool, where no sector has failed, commits with each part written. -/
def VecStoresOwn (i : Instr) (r : FReg) (n : Nat) (parts : State → List (Nat × Word)) : Prop :=
  ∀ s t, Ready (form i) s t → PartsOwn t (parts t) 1 .wr n → t.dev.failed = [] → (curCore t).journal.length ≤ 64 →
    Commits i s (goesOn ((parts t).foldl (fun u p =>
      homeWrite u (ownAddr t (localOff p.2)) (bytesOf ((rf t r).toNat / 256 ^ p.1) n) 0 (writerNo t.cur.agent)
        (some (curWho t 0))) t))

/-- A vector floating-point instruction commits, where none of the flags that its lanes raise is enabled to trap, with the
flags set in FPCTL and the lanes in its register (R65). -/
def FpAnswers (i : Instr) (d : FReg) (r : State → Vec × List FpFlags) : Prop :=
  ∀ s t u, Ready (form i) s t → setFlags t (r t).2 = .ok u → Commits i s (goesOn (wfSlow u d (r t).1))

/-- The lanes of a VFP operation of two operands (R163). -/
def vfpLanes (l : Lanes) (op : Fmt → Num → Num → Nat × FpFlags) (a b : FReg) (t : State) : Vec × List FpFlags :=
  map2 (lanesFmt l).2 (fun x y => op (lanesFmt l).1 (decodeNum (lanesFmt l).1 (fpFtz (opCtx t)) x)
    (decodeNum (lanesFmt l).1 (fpFtz (opCtx t)) y)) (rf t a) (rf t b)

/-- The lanes of VABS and VNEG (R163): the new sign of each, and its other bits; under FTZ those of a subnormal are 0. -/
def signLanes (l : Lanes) (sign : Nat → Nat) (a : FReg) (t : State) : Vec :=
  let f := (lanesFmt l).1
  packElems (lanesFmt l).2 ((elems (lanesFmt l).2 (rf t a)).map fun x => sign (x / 2 ^ f.low % 2) * 2 ^ f.low +
    if fpFtz (opCtx t) = true ∧ x / 2 ^ f.mb % 2 ^ f.eb = 0 then 0 else x % 2 ^ f.low)

/-- The lanes that VSCAN scans: under FTZ a subnormal FP32 lane counts as a zero of its sign (R170). -/
def scanned (t : State) (op : RedOp) (a : FReg) : Vec :=
  packElems 32 ((elems 32 (rf t a)).map fun x =>
    if op ≠ .iadd ∧ fpFtz (opCtx t) = true ∧ x / 2 ^ 23 % 256 = 0 then x / 2 ^ 31 % 2 * 2 ^ 31 else x)

/-- What PREF of a CL1 page leaves (R200): the line is allocated, and each sector that it lacks is fetched. -/
def prefetched (u : State) (line : Nat) : State :=
  (List.range 8).foldl (fun s i => prefSector s (line * 256 + 32 * i)) (allocLine u u.cur.agent line).1

/-- The lanes of a fused multiply-add: the exact product and addend, either negated, rounded once (R164). -/
def fmaLanes (negP negC : Bool) (a b c : FReg) (t : State) : Vec × List FpFlags :=
  let m := fpRm (opCtx t)
  let dec := decodeNum fp32 (fpFtz (opCtx t))
  map3 32 (fun x y z => arith fp32 m (fpFtz (opCtx t)) [dec x, dec y, dec z] (do
    let p ← mulNum (dec x) (dec y)
    addNum m (if negP then p.flip else p) (if negC then (dec z).flip else dec z))) (rf t a) (rf t b) (rf t c)

/-- The lanes of a special function, rounded to the nearest (R167). -/
def sfuLanes (op : Sfu) (a : FReg) (t : State) : Vec × List FpFlags :=
  map1 32 (fun x => arith fp32 .rne (fpFtz (opCtx t)) [decodeNum fp32 (fpFtz (opCtx t)) x]
    (sfuNum op (decodeNum fp32 (fpFtz (opCtx t)) x))) (rf t a)

/-- The lanes of an integer operation. -/
def intLanes (op : BitVec 32 → BitVec 32 → BitVec 32) (a b : FReg) (t : State) : Vec :=
  packElems 32 ((List.range 16).map fun i => (op (lane (rf t a) i) (lane (rf t b) i)).toNat)

/-- The lanes of a conversion (Table 7.10): FP32 to INT32, INT32 to FP32, the widening of the upper or lower narrow elements,
and the narrowing into a part of fd, whose other elements stay. -/
def cvtLanes (code : Nat) (d a : FReg) (mode : Nat → RMode) (t : State) : Vec × List FpFlags :=
  let ftz := fpFtz (opCtx t)
  let src (i : Nat) : Num := decodeNum fp32 ftz (elem 32 (rf t a) i)
  let n := narrowOf code
  let r : List (Nat × FpFlags) := (List.range 16).map fun i =>
    if code = 0 then let x := toIntNum (mode i) (-(2 ^ 31)) (2 ^ 31 - 1) (src i); ((x.1 % 2 ^ 32).toNat, x.2)
    else if code = 1 then convertNum fp32 (mode i) ftz (ofIntNum (lane (rf t a) i).toInt)
    else if widens code then convertNum fp32 (mode i) ftz (decodeNum n.1 ftz (elem n.2.1 (rf t a) (n.2.2 + i)))
    else convertNum n.1 (mode i) ftz (src i)
  if code ≤ 1 ∨ widens code = true then (packElems 32 (r.map (·.1)), r.map (·.2))
  else (packElems n.2.1 ((elems n.2.1 (rf t d)).take n.2.2 ++ r.map (·.1) ++ (elems n.2.1 (rf t d)).drop (n.2.2 + 16)), r.map (·.2))

/-- An entry of a send queue taken (R235). -/
def sendSlot (s : State) (vn : Fin 4) : State :=
  modCurCore s fun co => { co with sendq := co.sendq.set vn ((curCore s).sendq[vn] ++ [⟨s.cur, (curCtx s).gen, false, none⟩]) }

/-- Whether a send queue has a free entry (R235). -/
def sendRoom (s : State) (vn : Fin 4) : Prop := ((curCore s).sendq[vn]).length < 32

/-- A request that the journal keeps in entry `j` is on its way (R216). -/
def posted (s : State) (j : Nat) (dst : Node) (va : Word) (b : Body) : State :=
  let s := if dst = .host then modCur s fun c => { c with hostWrites := true } else s
  let p := mkPkt s (nodeOf s.cur.agent) dst 0 b
  let t := modCurCore s fun c => { c with journal := c.journal ++ [⟨j, curWho s 0, dst, va, p, 0, none⟩] }
  sendPkt t (nodeOf s.cur.agent) dst 0 b

/-- The low 11 bits of a register name a core of the issuing launch (R237). -/
def destOk (s : State) (v : Word) : Prop := inLaunch s (opCtx s) (v.toNat % 2 ^ 11) = true

/-- A payload of `n` registers from one (Table 10.7). -/
def payloadOk (b : GReg) (n : BitVec 4) : Prop := n.toNat ≤ 8 ∧ (0 < n.toNat → b.val + n.toNat ≤ 32)

/-- The bundle waits, with a kind, an object and an owner of Table 4.2 (R83). -/
def WaitsIf (i : Instr) (pre : State → Prop) (kind : Nat) (obj owner : State → Nat) : Prop :=
  ∀ s t, Ready (form i) s t → pre t → exec i s = .next (beginWait t kind (obj t) (owner t))

/-- A request of the bundle to an owner that has not answered: it has a number, under which `send` leaves the state in which
it is on its way. -/
def asks (s : State) (send : Nat → State → State) : State :=
  let r := newId s
  send r.1 (modCur r.2 fun c => { c with grants := c.grants ++ [⟨c.pc, r.1, none⟩] })

/-- The descriptor that a ring form names through its handle (R108, R262). -/
def ringNamed (s : State) (h : Handle) : Ring := ringOf s (agentNo s.cur.agent) (handle s h.val)

/-- That descriptor is valid, and so is its owner's (R262). -/
def RingOk (s : State) (h : Handle) : Prop :=
  (ringNamed s h).valid = true ∧ (ringOf s ((ringNamed s h).ownerCore (agentNo s.cur.agent)) (handle s h.val)).valid = true

/-- The owner of a bundle's request has answered it. -/
def answered (s : State) (v : Word) : Prop := ∃ g, grantOf s = some g ∧ g.value = some v

/-- An instruction of an engine commits with its operation accepted (R273, R310): the operation, of which `p` holds, joins
the end of its queue, the activation's operation number rises, and its context keeps its live position. -/
def Accepts (i : Instr) (s t : State) (p : EngOp → Prop) : Prop :=
  ∃ u o, Commits i s (goesOn u) ∧ p o ∧ o.phase = .queued ∧ o.opno = (curCtx t).opno ∧ o.who = curWho t o.id ∧
    (curCtx u).opno = (curCtx t).opno + 1 ∧ (curCtx u).engineUsed = true ∧
    (if 8 ≤ o.kind then (curCore u).convOps = (curCore t).convOps ++ [o] else (curCore u).matOps = (curCore t).matOps ++ [o])

/-- Addresses rise strictly from a bound. -/
def risingFrom : Nat → List Nat → Bool
  | _, [] => true
  | n, a :: l => decide (n ≤ a) && risingFrom (a + 1) l

/-- The canonical form of memory and of the full/empty bits. -/
def State.Inv (s : State) : Prop :=
  Memory.wf s.mem = true ∧ risingFrom 0 s.full = true ∧ s.full.all (fun a => a % 8 == 0) = true

/-- Major opcodes whose instructions change registers alone, beside what the memory system does for a load (Table 2.5): the
scalar, branch and load majors, and those of the vector unit. -/
def registerMajor (m : Nat) : Bool := decide ((1 ≤ m ∧ m ≤ 0x13) ∨ m = 0x20 ∨ (0x28 ≤ m ∧ m ≤ 0x2F))

/-- What stays of a context's registers, where `gw`, `fw` and `mw` are those that an instruction writes, `gr` those whose
presence it may consume, and `fl` whether it may set the floating-point flags, FPCTL[11:8]. -/
def KeepsCtx (gw gr : List GReg) (fw : List FReg) (mw : List MReg) (fl : Bool) (c d : Ctx) : Prop :=
  (∀ r : GReg, r ∉ gw → d.g[r] = c.g[r]) ∧ (∀ r : FReg, r ∉ fw → d.f[r] = c.f[r]) ∧
  (∀ r : MReg, r ∉ mw → d.m[r] = c.m[r]) ∧
  (∀ r : GReg, r ∉ gw → r ∉ gr → d.p.getLsbD r.val = c.p.getLsbD r.val) ∧
  (∀ n : Nat, (fl = false ∨ n < 8 ∨ 12 ≤ n) → d.fpctl.getLsbD n = c.fpctl.getLsbD n) ∧
  (d.a = c.a ∧ d.acc = c.acc ∧ d.status = c.status ∧ d.cause = c.cause ∧ d.epc = c.epc ∧ d.tval = c.tval ∧
    d.tvec = c.tvec ∧ d.uepc = c.uepc ∧ d.asid = c.asid ∧ d.arena = c.arena ∧ d.cpyid = c.cpyid ∧ d.slate = c.slate ∧
    d.trap = c.trap ∧ d.ui = c.ui ∧ d.causes = c.causes ∧ d.gen = c.gen ∧ d.pri = c.pri ∧ d.launch = c.launch ∧
    d.queue = c.queue ∧ d.path = c.path)

/-- The same of the issuing context, with every other context as it was. -/
def KeepsRegs (gw gr : List GReg) (fw : List FReg) (mw : List MReg) (fl : Bool) (s t : State) : Prop :=
  KeepsCtx gw gr fw mw fl (curCtx s) (curCtx t) ∧ t.cur = s.cur ∧ ∀ k : CtxKey, k ≠ s.cur → getCtx t k = getCtx s k

/-- Every byte of memory outside a range, and every full/empty bit, is as it was. -/
def KeepsMemoryBut (lo n : Nat) (s t : State) : Prop :=
  (∀ x : Nat, (x < lo ∨ lo + n ≤ x) → readByte t.mem x = readByte s.mem x) ∧ ∀ x : Nat, isFull t x = isFull s x

/-- A store into the own pool, where no sector has failed, commits: its bytes stand at the address, every other byte of memory
and every register but the program counter is as it was. -/
def StoresAlone (i : Instr) (ea : State → Word) (bs : State → List Byte) : Prop :=
  ∀ s t u off, State.Inv s → Ready (form i) s t → OwnPool t u (ea t) 1 .wr off (bs t).length →
    failedIn u (ownAddr u off) (bs t).length = none →
    ∃ v, exec i s = .next v ∧ v.last = .committed ∧ readBytes v.mem (ownAddr u off) (bs t).length = bs t ∧
      KeepsMemoryBut (ownAddr u off) (bs t).length s v ∧ KeepsRegs [] (form i).gr [] [] false s v

/-- A store that leaves its core (R202) commits and is posted: the packet holds its bytes for the home address of the resolved
target, and neither memory nor a register but the program counter has changed. -/
def StoresPosted (i : Instr) (ea : State → Word) (bs : State → List Byte) : Prop :=
  ∀ s t u p v, Ready (form i) s t → (ea t).toNat % (bs t).length = 0 → resolveCur t (ea t) 1 .wr = .ok (u, p) → p.afar u →
    storeTo u p (ea t) (bs t) = .ok v →
    ∃ w q a, exec i s = .next w ∧ w.last = .committed ∧ w.net = u.net ++ [q] ∧ q.body = .access a ∧ a.op = .st (bs t) ∧
      a.addr = p.addr u.cur.agent ∧ q.dst = p.node u u.cur.agent ∧ w.mem = s.mem ∧ w.full = s.full ∧
      KeepsRegs [] (form i).gr [] [] false s w

/-- A store into a line of the L1 (R184) commits: the L1 has its bytes at the physical address, and neither memory nor a register
but the program counter has changed. -/
def StoresCached (i : Instr) (ea : State → Word) (bs : State → List Byte) : Prop :=
  ∀ s t u pa lvl, Ready (form i) s t → (ea t).toNat % (bs t).length = 0 → resolveCur t (ea t) 1 .wr = .ok (u, .phys pa 0 lvl) →
    servesL1 u u.cur.agent pa = true →
    ∃ w l, exec i s = .next w ∧ w.last = .committed ∧ findLine (curCore w) (lineOf pa) = some l ∧ l.sectors[sectorOf pa].dirty = true ∧
      (∀ n, n < (bs t).length → l.sectors[sectorOf pa].mask.getLsbD (pa % 32 + n) = true ∧
        l.sectors[sectorOf pa].data.toNat / 256 ^ (pa % 32 + n) % 256 = natOf (bs t) / 256 ^ n % 256) ∧
      w.mem = s.mem ∧ w.full = s.full ∧ KeepsRegs [] (form i).gr [] [] false s w

/-- Two slates, or two results, that agree apart from bit 7. -/
def sameSlate (x y : Word) : Prop := ∀ i : Nat, i ≠ 7 → x.getLsbD i = y.getLsbD i

/-- A slate that is absent, or that bit 7 does not alone make. -/
def slateOk (x : Word) : Prop := x = 0 ∨ x &&& ~~~(0x80#64) ≠ 0

/-- A step of the device leaves `t`. -/
def Becomes (i : Instr) (s t : State) : Prop := exec i s = .next { t with last := .event }

end Sys2Proof.Machine
end

