-- ==== Sys2Proof/Certificates/Slice0/Obligations.lean ====
section
/-! DEFINITION. The statements about the model, each with the rule of spec/ that it formalises. -/

open Sys2Proof Sys2Proof.Machine

/-- ALU-R instructions of two operands and LEA commit with their result in gd (Table 5.6, R117). ALU-R instructions of one operand, and SEL, commit with their result in gd (Table 5.6). -/
def Obligations.AluAnswers : Prop :=
  (∀ d a b : GReg,
  Answers (.add d a b) (fun t => goesOn (wg t d (rg t a + rg t b))) ∧
  Answers (.sub d a b) (fun t => goesOn (wg t d (rg t a - rg t b))) ∧
  Answers (.and d a b) (fun t => goesOn (wg t d (rg t a &&& rg t b))) ∧
  Answers (.or d a b) (fun t => goesOn (wg t d (rg t a ||| rg t b))) ∧
  Answers (.xor d a b) (fun t => goesOn (wg t d (rg t a ^^^ rg t b))) ∧
  Answers (.shl d a b) (fun t => goesOn (wg t d (rg t a <<< ((rg t b).toNat % 64)))) ∧
  Answers (.shr d a b) (fun t => goesOn (wg t d (rg t a >>> ((rg t b).toNat % 64)))) ∧
  Answers (.sra d a b) (fun t => goesOn (wg t d ((rg t a).sshiftRight ((rg t b).toNat % 64)))) ∧
  Answers (.rotl d a b) (fun t => goesOn (wg t d ((rg t a).rotateLeft ((rg t b).toNat % 64)))) ∧
  Answers (.min d a b) (fun t => goesOn (wg t d (if (rg t a).toInt ≤ (rg t b).toInt then rg t a else rg t b))) ∧
  Answers (.max d a b) (fun t => goesOn (wg t d (if (rg t a).toInt ≤ (rg t b).toInt then rg t b else rg t a))) ∧
  Answers (.minu d a b) (fun t => goesOn (wg t d (if (rg t a).toNat ≤ (rg t b).toNat then rg t a else rg t b))) ∧
  Answers (.maxu d a b) (fun t => goesOn (wg t d (if (rg t a).toNat ≤ (rg t b).toNat then rg t b else rg t a))) ∧
  Answers (.slt d a b) (fun t => goesOn (wg t d (ofBool (decide ((rg t a).toInt < (rg t b).toInt))))) ∧
  Answers (.sltu d a b) (fun t => goesOn (wg t d (ofBool (decide ((rg t a).toNat < (rg t b).toNat))))) ∧
  Answers (.leaScale1 d a b) (fun t => goesOn (wg t d (rg t a + rg t b))) ∧
  Answers (.leaScale2 d a b) (fun t => goesOn (wg t d (rg t a + 2 * rg t b))) ∧
  Answers (.leaScale4 d a b) (fun t => goesOn (wg t d (rg t a + 4 * rg t b))) ∧
  Answers (.leaScale8 d a b) (fun t => goesOn (wg t d (rg t a + 8 * rg t b)))) ∧
  (∀ d a b : GReg,
  Answers (.clz d a) (fun t => goesOn (wg t d (clzW (rg t a)))) ∧
  Answers (.ctz d a) (fun t => goesOn (wg t d (ctzW (rg t a)))) ∧
  Answers (.popc d a) (fun t => goesOn (wg t d (popcW (rg t a)))) ∧
  Answers (.bswap d a) (fun t => goesOn (wg t d (bswapW (rg t a)))) ∧
  Answers (.sextb d a) (fun t => goesOn (wg t d (((rg t a).truncate 8 : BitVec 8).signExtend 64))) ∧
  Answers (.sexth d a) (fun t => goesOn (wg t d (((rg t a).truncate 16 : BitVec 16).signExtend 64))) ∧
  Answers (.sextw d a) (fun t => goesOn (wg t d (((rg t a).truncate 32 : BitVec 32).signExtend 64))) ∧
  Answers (.zextb d a) (fun t => goesOn (wg t d (((rg t a).truncate 8 : BitVec 8).zeroExtend 64))) ∧
  Answers (.zexth d a) (fun t => goesOn (wg t d (((rg t a).truncate 16 : BitVec 16).zeroExtend 64))) ∧
  Answers (.zextw d a) (fun t => goesOn (wg t d (((rg t a).truncate 32 : BitVec 32).zeroExtend 64))) ∧
  Answers (.sel d a b) (fun t => goesOn (wg t d (if rg t d ≠ 0 then rg t a else rg t b))))

/-- The multiplications and divisions (Table 5.6, R113): a divisor of 0 raises cause 0x25, and −2^63 by −1 wraps. -/
def Obligations.MultiplyAndDivideAnswer : Prop :=
  ∀ d a b : GReg,
  Answers (.mul d a b) (fun t => goesOn (wgSlow t d (rg t a * rg t b))) ∧
  Answers (.mulh d a b) (fun t => goesOn (wgSlow t d (mulh (rg t a) (rg t b)))) ∧
  Answers (.mulhu d a b) (fun t => goesOn (wgSlow t d (mulhu (rg t a) (rg t b)))) ∧
  AnswersIf (.div d a b) (fun t => rg t b ≠ 0) (fun t => goesOn (wgSlow t d ((rg t a).sdiv (rg t b)))) ∧
  AnswersIf (.divu d a b) (fun t => rg t b ≠ 0) (fun t => goesOn (wgSlow t d (rg t a / rg t b))) ∧
  AnswersIf (.rem d a b) (fun t => rg t b ≠ 0) (fun t => goesOn (wgSlow t d ((rg t a).srem (rg t b)))) ∧
  AnswersIf (.remu d a b) (fun t => rg t b ≠ 0) (fun t => goesOn (wgSlow t d (rg t a % rg t b))) ∧
  RaisesIf (.div d a b) (fun t => rg t b = 0) 0x25 (fun _ => 0) ∧
  RaisesIf (.divu d a b) (fun t => rg t b = 0) 0x25 (fun _ => 0) ∧
  RaisesIf (.rem d a b) (fun t => rg t b = 0) 0x25 (fun _ => 0) ∧
  RaisesIf (.remu d a b) (fun t => rg t b = 0) 0x25 (fun _ => 0)

/-- The high halves of the products, said with 128-bit words (Table 5.6). The counts of leading and trailing zeros, of ones, and the byte reversal (Table 5.6). -/
def Obligations.ProductsAndCountsAreExact : Prop :=
  (∀ x y : Word,
  mulhu x y = ((x.zeroExtend 128 * y.zeroExtend 128) >>> 64).truncate 64 ∧
  mulh x y = ((x.signExtend 128 * y.signExtend 128) >>> 64).truncate 64) ∧
  (clzW 0 = 64 ∧ ctzW 0 = 64 ∧ ∀ x : Word,
  (x ≠ 0 → x.getLsbD (63 - (clzW x).toNat) = true ∧ ∀ i, 63 - (clzW x).toNat < i → x.getLsbD i = false) ∧
  (x ≠ 0 → x.getLsbD (ctzW x).toNat = true ∧ ∀ i, i < (ctzW x).toNat → x.getLsbD i = false) ∧
  (popcW x).toNat = ((List.range 64).map fun i => (x.getLsbD i).toNat).sum ∧
  (∀ i j : Nat, i < 8 → j < 8 → (bswapW x).getLsbD (8 * i + j) = x.getLsbD (8 * (7 - i) + j)))

/-- The immediate forms (R114, R115, R35) and MOVHI (R116). -/
def Obligations.ImmediatesAnswer : Prop :=
  ∀ (d a : GReg) (i : BitVec 15) (j : BitVec 32) (n : BitVec 6) (h : BitVec 20),
  Answers (.addi d a i) (fun t => goesOn (wg t d ((rg t a) + (i.signExtend 64)))) ∧
  Answers (.andi d a i) (fun t => goesOn (wg t d ((rg t a) &&& (i.signExtend 64)))) ∧
  Answers (.ori d a i) (fun t => goesOn (wg t d ((rg t a) ||| (i.signExtend 64)))) ∧
  Answers (.xori d a i) (fun t => goesOn (wg t d ((rg t a) ^^^ (i.signExtend 64)))) ∧
  Answers (.slti d a i) (fun t => goesOn (wg t d (ofBool (decide ((rg t a).toInt < (i.signExtend 64).toInt))))) ∧
  Answers (.sltiu d a i) (fun t => goesOn (wg t d (ofBool (decide ((rg t a).toNat < (i.signExtend 64).toNat))))) ∧
  Answers (.addiLong d a j) (fun t => goesOn (wg t d ((rg t a) + (j.signExtend 64)))) ∧
  Answers (.andiLong d a j) (fun t => goesOn (wg t d ((rg t a) &&& (j.signExtend 64)))) ∧
  Answers (.oriLong d a j) (fun t => goesOn (wg t d ((rg t a) ||| (j.signExtend 64)))) ∧
  Answers (.xoriLong d a j) (fun t => goesOn (wg t d ((rg t a) ^^^ (j.signExtend 64)))) ∧
  Answers (.sltiLong d a j) (fun t => goesOn (wg t d (ofBool (decide ((rg t a).toInt < (j.signExtend 64).toInt))))) ∧
  Answers (.sltiuLong d a j) (fun t => goesOn (wg t d (ofBool (decide ((rg t a).toNat < (j.signExtend 64).toNat))))) ∧
  Answers (.shli d a n) (fun t => goesOn (wg t d ((rg t a) <<< n.toNat))) ∧
  Answers (.shliLong d a n) (fun t => goesOn (wg t d ((rg t a) <<< n.toNat))) ∧
  Answers (.shri d a n) (fun t => goesOn (wg t d ((rg t a) >>> n.toNat))) ∧
  Answers (.shriLong d a n) (fun t => goesOn (wg t d ((rg t a) >>> n.toNat))) ∧
  Answers (.srai d a n) (fun t => goesOn (wg t d ((rg t a).sshiftRight n.toNat))) ∧
  Answers (.sraiLong d a n) (fun t => goesOn (wg t d ((rg t a).sshiftRight n.toNat))) ∧
  Answers (.rotli d a n) (fun t => goesOn (wg t d ((rg t a).rotateLeft n.toNat))) ∧
  Answers (.rotliLong d a n) (fun t => goesOn (wg t d ((rg t a).rotateLeft n.toNat))) ∧
  Answers (.movhi d h) (fun t => goesOn (wg t d ((h ++ 0#12).signExtend 64)))

/-- The conditional branches (R121): their target is the bundle address plus 8 times the offset (R32). JAL and JALR (R122). -/
def Obligations.BranchesAndJumpsAnswer : Prop :=
  (∀ (a b : GReg) (o : BitVec 15) (j : BitVec 32),
  AnswersIf (.beq a b o) (fun t => rg t a = rg t b) (fun t => jumpsTo t (w64 (opCtx t).pc + 8 * o.signExtend 64).toNat) ∧
  AnswersIf (.beq a b o) (fun t => ¬(rg t a = rg t b)) goesOn ∧
  AnswersIf (.beqLong a b j) (fun t => rg t a = rg t b) (fun t => jumpsTo t (w64 (opCtx t).pc + 8 * j.signExtend 64).toNat) ∧
  AnswersIf (.beqLong a b j) (fun t => ¬(rg t a = rg t b)) goesOn ∧
  AnswersIf (.bne a b o) (fun t => rg t a ≠ rg t b) (fun t => jumpsTo t (w64 (opCtx t).pc + 8 * o.signExtend 64).toNat) ∧
  AnswersIf (.bne a b o) (fun t => ¬(rg t a ≠ rg t b)) goesOn ∧
  AnswersIf (.bneLong a b j) (fun t => rg t a ≠ rg t b) (fun t => jumpsTo t (w64 (opCtx t).pc + 8 * j.signExtend 64).toNat) ∧
  AnswersIf (.bneLong a b j) (fun t => ¬(rg t a ≠ rg t b)) goesOn ∧
  AnswersIf (.blt a b o) (fun t => (rg t a).toInt < (rg t b).toInt) (fun t => jumpsTo t (w64 (opCtx t).pc + 8 * o.signExtend 64).toNat) ∧
  AnswersIf (.blt a b o) (fun t => ¬((rg t a).toInt < (rg t b).toInt)) goesOn ∧
  AnswersIf (.bltLong a b j) (fun t => (rg t a).toInt < (rg t b).toInt) (fun t => jumpsTo t (w64 (opCtx t).pc + 8 * j.signExtend 64).toNat) ∧
  AnswersIf (.bltLong a b j) (fun t => ¬((rg t a).toInt < (rg t b).toInt)) goesOn ∧
  AnswersIf (.bge a b o) (fun t => (rg t b).toInt ≤ (rg t a).toInt) (fun t => jumpsTo t (w64 (opCtx t).pc + 8 * o.signExtend 64).toNat) ∧
  AnswersIf (.bge a b o) (fun t => ¬((rg t b).toInt ≤ (rg t a).toInt)) goesOn ∧
  AnswersIf (.bgeLong a b j) (fun t => (rg t b).toInt ≤ (rg t a).toInt) (fun t => jumpsTo t (w64 (opCtx t).pc + 8 * j.signExtend 64).toNat) ∧
  AnswersIf (.bgeLong a b j) (fun t => ¬((rg t b).toInt ≤ (rg t a).toInt)) goesOn ∧
  AnswersIf (.bltu a b o) (fun t => (rg t a).toNat < (rg t b).toNat) (fun t => jumpsTo t (w64 (opCtx t).pc + 8 * o.signExtend 64).toNat) ∧
  AnswersIf (.bltu a b o) (fun t => ¬((rg t a).toNat < (rg t b).toNat)) goesOn ∧
  AnswersIf (.bltuLong a b j) (fun t => (rg t a).toNat < (rg t b).toNat) (fun t => jumpsTo t (w64 (opCtx t).pc + 8 * j.signExtend 64).toNat) ∧
  AnswersIf (.bltuLong a b j) (fun t => ¬((rg t a).toNat < (rg t b).toNat)) goesOn ∧
  AnswersIf (.bgeu a b o) (fun t => (rg t b).toNat ≤ (rg t a).toNat) (fun t => jumpsTo t (w64 (opCtx t).pc + 8 * o.signExtend 64).toNat) ∧
  AnswersIf (.bgeu a b o) (fun t => ¬((rg t b).toNat ≤ (rg t a).toNat)) goesOn ∧
  AnswersIf (.bgeuLong a b j) (fun t => (rg t b).toNat ≤ (rg t a).toNat) (fun t => jumpsTo t (w64 (opCtx t).pc + 8 * j.signExtend 64).toNat) ∧
  AnswersIf (.bgeuLong a b j) (fun t => ¬((rg t b).toNat ≤ (rg t a).toNat)) goesOn) ∧
  (∀ (d a : GReg) (o : BitVec 20) (i : BitVec 15) (j : BitVec 32),
  Answers (.jal d o) (fun t => jumpsTo (wg t d (w64 (opCtx t).pc + 8)) (w64 (opCtx t).pc + 8 * o.signExtend 64).toNat) ∧
  Answers (.jalLong d j) (fun t => jumpsTo (wg t d (w64 (opCtx t).pc + 8)) (w64 (opCtx t).pc + 8 * j.signExtend 64).toNat) ∧
  AnswersIf (.jalr d a i) (fun t => (rg t a + i.signExtend 64).toNat % 8 = 0)
    (fun t => jumpsTo (wg t d (w64 (opCtx t).pc + 8)) (rg t a + i.signExtend 64).toNat) ∧
  RaisesIf (.jalr d a i) (fun t => (rg t a + i.signExtend 64).toNat % 8 ≠ 0) 0x05 (fun t => rg t a + i.signExtend 64) ∧
  AnswersIf (.jalrLong d a j) (fun t => (rg t a + j.signExtend 64).toNat % 8 = 0)
    (fun t => jumpsTo (wg t d (w64 (opCtx t).pc + 8)) (rg t a + j.signExtend 64).toNat) ∧
  RaisesIf (.jalrLong d a j) (fun t => (rg t a + j.signExtend 64).toNat % 8 ≠ 0) 0x05 (fun t => rg t a + j.signExtend 64))

/-- GADDR (R119) and its cause 0x1D (R120). That an activation without a live launch takes cause 0x1D with reason 0 is the model's choice (log entry 23). The NUM instructions (R124 to R126): where the flags trap nothing, they commit with their results. -/
def Obligations.GaddrAndNumberInstructionsAnswer : Prop :=
  (∀ (d a b : GReg) (s t : State), Ready (form (.gaddr d a b)) s t →
  (∀ l v, launchOf t (opCtx t) = some l → gaddrOf l (rg t a).toNat ((rg t b).toNat % 32) = .ok v →
    Commits (.gaddr d a b) s (goesOn (wgSlow t d v))) ∧
  (∀ l v, launchOf t (opCtx t) = some l → gaddrOf l (rg t a).toNat ((rg t b).toNat % 32) = .error v →
    Raises (.gaddr d a b) s 0x1D v) ∧
  (launchOf t (opCtx t) = none → Raises (.gaddr d a b) s 0x1D (gaddrTval ((rg t b).toNat % 32) 0 0 0))) ∧
  (∀ d a b : GReg,
  AnswersIf (.rand d a b) (fun _ => d ≠ a ∨ d = 0)
    (fun t => goesOn (wgSlow (wg t a (rg t a + 1)) d (w64 (cmix32 (lo32 (rg t a)) (lo32 (rg t b))).toNat))) ∧
  RaisesIf (.rand d a b) (fun _ => d = a ∧ d ≠ 0) 0x01 (fun _ => encTval (form (.rand d a b)).word 3 false) ∧
  (∀ s t u : State, Ready (form (.cvtfx d a b)) s t → d ≠ 0 → d.val % 2 = 0 →
    setFlags t [(floorToGrid (lo32 (rg t a)).toNat (anchor (rg t b))).2.1] = .ok u →
    Commits (.cvtfx d a b) s (goesOn (inFlight
      (wgPair u d ((floorToGrid (lo32 (rg t a)).toNat (anchor (rg t b))).1 % 2 ^ 128).toNat) [.g d, .g (nextReg d)]))) ∧
  RaisesIf (.cvtfx d a b) (fun _ => d = 0 ∨ d.val % 2 = 1) 0x01 (fun _ => encTval (form (.cvtfx d a b)).word 3 false) ∧
  (∀ (s t u : State) (m : RMode), Ready (form (.cvtxf d a b)) s t → a.val % 2 = 0 → bits (rg t b).toNat 18 16 ≤ 4 →
    m = (if bits (rg t b).toNat 18 16 = 4 then fpRm (opCtx t) else rmode (bits (rg t b).toNat 18 16)) →
    setFlags t [(roundFromFixed (BitVec.ofNat 128 (rgPair t a)).toInt (anchor (rg t b)) m).2] = .ok u →
    Commits (.cvtxf d a b) s (goesOn
      (wgSlow u d (w64 (roundFromFixed (BitVec.ofNat 128 (rgPair t a)).toInt (anchor (rg t b)) m).1)))) ∧
  RaisesIf (.cvtxf d a b) (fun t => a.val % 2 = 1 ∨ 4 < bits (rg t b).toNat 18 16) 0x01
    (fun _ => encTval (form (.cvtxf d a b)).word 3 false))

/-- LDB to LDQ, short and with an extension, of the own pool (R194). -/
def Obligations.LoadsOfTheOwnPoolAnswer : Prop :=
  ∀ (d a : GReg) (o : BitVec 12) (j : BitVec 32),
  LoadsOwn (.ldb d a o) (effAddr · a (imm12 o)) 1 (.load d 0) ∧
  LoadsOwn (.ldbLong d a j) (effAddr · a (imm32 j)) 1 (.load d 0) ∧
  LoadsOwn (.ldh d a o) (effAddr · a (imm12 o)) 2 (.load d 1) ∧
  LoadsOwn (.ldhLong d a j) (effAddr · a (imm32 j)) 2 (.load d 1) ∧
  LoadsOwn (.ldw d a o) (effAddr · a (imm12 o)) 4 (.load d 2) ∧
  LoadsOwn (.ldwLong d a j) (effAddr · a (imm32 j)) 4 (.load d 2) ∧
  LoadsOwn (.ldd d a o) (effAddr · a (imm12 o)) 8 (.load d 3) ∧
  LoadsOwn (.lddLong d a j) (effAddr · a (imm32 j)) 8 (.load d 3) ∧
  LoadsOwn (.ldbu d a o) (effAddr · a (imm12 o)) 1 (.load d 4) ∧
  LoadsOwn (.ldbuLong d a j) (effAddr · a (imm32 j)) 1 (.load d 4) ∧
  LoadsOwn (.ldhu d a o) (effAddr · a (imm12 o)) 2 (.load d 5) ∧
  LoadsOwn (.ldhuLong d a j) (effAddr · a (imm32 j)) 2 (.load d 5) ∧
  LoadsOwn (.ldwu d a o) (effAddr · a (imm12 o)) 4 (.load d 6) ∧
  LoadsOwn (.ldwuLong d a j) (effAddr · a (imm32 j)) 4 (.load d 6) ∧
  LoadsOwn (.ldq d a o) (effAddr · a (imm12 o)) 16 (.load d 7) ∧
  LoadsOwn (.ldqLong d a j) (effAddr · a (imm32 j)) 16 (.load d 7)

/-- Loads of another pool, of a page past any L1, and of a line that the L1 holds (R182, R193, R194). -/
def Obligations.LoadsElsewhereAnswer : Prop :=
  ∀ (d a : GReg) (o : BitVec 12) (j : BitVec 32),
  LoadsAfar (.ldb d a o) (effAddr · a (imm12 o)) 1 (.load d 0) ∧ LoadsHit (.ldb d a o) (effAddr · a (imm12 o)) 1 (.load d 0) ∧
  LoadsAfar (.ldbLong d a j) (effAddr · a (imm32 j)) 1 (.load d 0) ∧ LoadsHit (.ldbLong d a j) (effAddr · a (imm32 j)) 1 (.load d 0) ∧
  LoadsAfar (.ldh d a o) (effAddr · a (imm12 o)) 2 (.load d 1) ∧ LoadsHit (.ldh d a o) (effAddr · a (imm12 o)) 2 (.load d 1) ∧
  LoadsAfar (.ldhLong d a j) (effAddr · a (imm32 j)) 2 (.load d 1) ∧ LoadsHit (.ldhLong d a j) (effAddr · a (imm32 j)) 2 (.load d 1) ∧
  LoadsAfar (.ldw d a o) (effAddr · a (imm12 o)) 4 (.load d 2) ∧ LoadsHit (.ldw d a o) (effAddr · a (imm12 o)) 4 (.load d 2) ∧
  LoadsAfar (.ldwLong d a j) (effAddr · a (imm32 j)) 4 (.load d 2) ∧ LoadsHit (.ldwLong d a j) (effAddr · a (imm32 j)) 4 (.load d 2) ∧
  LoadsAfar (.ldd d a o) (effAddr · a (imm12 o)) 8 (.load d 3) ∧ LoadsHit (.ldd d a o) (effAddr · a (imm12 o)) 8 (.load d 3) ∧
  LoadsAfar (.lddLong d a j) (effAddr · a (imm32 j)) 8 (.load d 3) ∧ LoadsHit (.lddLong d a j) (effAddr · a (imm32 j)) 8 (.load d 3) ∧
  LoadsAfar (.ldbu d a o) (effAddr · a (imm12 o)) 1 (.load d 4) ∧ LoadsHit (.ldbu d a o) (effAddr · a (imm12 o)) 1 (.load d 4) ∧
  LoadsAfar (.ldbuLong d a j) (effAddr · a (imm32 j)) 1 (.load d 4) ∧ LoadsHit (.ldbuLong d a j) (effAddr · a (imm32 j)) 1 (.load d 4) ∧
  LoadsAfar (.ldhu d a o) (effAddr · a (imm12 o)) 2 (.load d 5) ∧ LoadsHit (.ldhu d a o) (effAddr · a (imm12 o)) 2 (.load d 5) ∧
  LoadsAfar (.ldhuLong d a j) (effAddr · a (imm32 j)) 2 (.load d 5) ∧ LoadsHit (.ldhuLong d a j) (effAddr · a (imm32 j)) 2 (.load d 5) ∧
  LoadsAfar (.ldwu d a o) (effAddr · a (imm12 o)) 4 (.load d 6) ∧ LoadsHit (.ldwu d a o) (effAddr · a (imm12 o)) 4 (.load d 6) ∧
  LoadsAfar (.ldwuLong d a j) (effAddr · a (imm32 j)) 4 (.load d 6) ∧ LoadsHit (.ldwuLong d a j) (effAddr · a (imm32 j)) 4 (.load d 6) ∧
  LoadsAfar (.ldq d a o) (effAddr · a (imm12 o)) 16 (.load d 7) ∧ LoadsHit (.ldq d a o) (effAddr · a (imm12 o)) 16 (.load d 7) ∧
  LoadsAfar (.ldqLong d a j) (effAddr · a (imm32 j)) 16 (.load d 7) ∧ LoadsHit (.ldqLong d a j) (effAddr · a (imm32 j)) 16 (.load d 7)

/-- The extension of a loaded value (Table 2.4, R194), with g0 discarding it (R103). -/
def Obligations.LoadedValuesExtend : Prop :=
  ∀ (c : Ctx) (d : GReg) (v : Nat),
  (d ≠ 0 →
    (c.land (.load d 0) v).g[d] = (BitVec.ofNat 8 v).signExtend 64 ∧
    (c.land (.load d 1) v).g[d] = (BitVec.ofNat 16 v).signExtend 64 ∧
    (c.land (.load d 2) v).g[d] = (BitVec.ofNat 32 v).signExtend 64 ∧
    (c.land (.load d 3) v).g[d] = BitVec.ofNat 64 v ∧
    (c.land (.load d 4) v).g[d] = BitVec.ofNat 64 (v % 2 ^ 8) ∧
    (c.land (.load d 5) v).g[d] = BitVec.ofNat 64 (v % 2 ^ 16) ∧
    (c.land (.load d 6) v).g[d] = BitVec.ofNat 64 (v % 2 ^ 32) ∧
    (d.val % 2 = 0 → (c.land (.load d 7) v).g[d] = BitVec.ofNat 64 v ∧
      (c.land (.load d 7) v).g[nextReg d] = BitVec.ofNat 64 (v / 2 ^ 64))) ∧
  (∀ code, code ≠ 7 → (c.land (.load 0 code) v) = c) ∧
  (∀ code (r : GReg), r ≠ d → (code = 7 → r ≠ nextReg d) → (c.land (.load d code) v).g[r] = c.g[r]) ∧
  (∀ code, d ≠ 0 → (c.land (.load d code) v).p.getLsbD d.val = true)

/-- STB to STQ, short and with an extension (R194). -/
def Obligations.StoresAnswer : Prop :=
  ∀ (d a : GReg) (o : BitVec 12) (j : BitVec 32),
  StoresOwn (.stb d a o) (effAddr · a (imm12 o)) (fun t => bytesOf (rg t d).toNat 1) ∧
  StoresAfar (.stb d a o) (effAddr · a (imm12 o)) (fun t => bytesOf (rg t d).toNat 1) ∧
  StoresOwn (.stbLong d a j) (effAddr · a (imm32 j)) (fun t => bytesOf (rg t d).toNat 1) ∧
  StoresAfar (.stbLong d a j) (effAddr · a (imm32 j)) (fun t => bytesOf (rg t d).toNat 1) ∧
  StoresOwn (.sth d a o) (effAddr · a (imm12 o)) (fun t => bytesOf (rg t d).toNat 2) ∧
  StoresAfar (.sth d a o) (effAddr · a (imm12 o)) (fun t => bytesOf (rg t d).toNat 2) ∧
  StoresOwn (.sthLong d a j) (effAddr · a (imm32 j)) (fun t => bytesOf (rg t d).toNat 2) ∧
  StoresAfar (.sthLong d a j) (effAddr · a (imm32 j)) (fun t => bytesOf (rg t d).toNat 2) ∧
  StoresOwn (.stw d a o) (effAddr · a (imm12 o)) (fun t => bytesOf (rg t d).toNat 4) ∧
  StoresAfar (.stw d a o) (effAddr · a (imm12 o)) (fun t => bytesOf (rg t d).toNat 4) ∧
  StoresOwn (.stwLong d a j) (effAddr · a (imm32 j)) (fun t => bytesOf (rg t d).toNat 4) ∧
  StoresAfar (.stwLong d a j) (effAddr · a (imm32 j)) (fun t => bytesOf (rg t d).toNat 4) ∧
  StoresOwn (.std d a o) (effAddr · a (imm12 o)) (fun t => bytesOf (rg t d).toNat 8) ∧
  StoresAfar (.std d a o) (effAddr · a (imm12 o)) (fun t => bytesOf (rg t d).toNat 8) ∧
  StoresOwn (.stdLong d a j) (effAddr · a (imm32 j)) (fun t => bytesOf (rg t d).toNat 8) ∧
  StoresAfar (.stdLong d a j) (effAddr · a (imm32 j)) (fun t => bytesOf (rg t d).toNat 8) ∧
  StoresOwn (.stq d a o) (effAddr · a (imm12 o)) (fun t => bytesOf ((rg t d).toNat + (rg t (nextReg d)).toNat * 2 ^ 64) 16) ∧
  StoresAfar (.stq d a o) (effAddr · a (imm12 o)) (fun t => bytesOf ((rg t d).toNat + (rg t (nextReg d)).toNat * 2 ^ 64) 16) ∧
  StoresOwn (.stqLong d a j) (effAddr · a (imm32 j)) (fun t => bytesOf ((rg t d).toNat + (rg t (nextReg d)).toNat * 2 ^ 64) 16) ∧
  StoresAfar (.stqLong d a j) (effAddr · a (imm32 j)) (fun t => bytesOf ((rg t d).toNat + (rg t (nextReg d)).toNat * 2 ^ 64) 16)

/-- The alignment check of memory accesses (R193). -/
def Obligations.MisalignedAccessesTrap : Prop :=
  ∀ (d a b : GReg) (f : FReg) (p : AmoP) (o : BitVec 12) (j : BitVec 32),
  RaisesIf (.ldh d a o) (fun t => (effAddr t a (imm12 o)).toNat % 2 ≠ 0) 0x05 (fun t => effAddr t a (imm12 o)) ∧
  RaisesIf (.ldhLong d a j) (fun t => (effAddr t a (imm32 j)).toNat % 2 ≠ 0) 0x05 (fun t => effAddr t a (imm32 j)) ∧
  RaisesIf (.ldw d a o) (fun t => (effAddr t a (imm12 o)).toNat % 4 ≠ 0) 0x05 (fun t => effAddr t a (imm12 o)) ∧
  RaisesIf (.ldwLong d a j) (fun t => (effAddr t a (imm32 j)).toNat % 4 ≠ 0) 0x05 (fun t => effAddr t a (imm32 j)) ∧
  RaisesIf (.ldd d a o) (fun t => (effAddr t a (imm12 o)).toNat % 8 ≠ 0) 0x05 (fun t => effAddr t a (imm12 o)) ∧
  RaisesIf (.lddLong d a j) (fun t => (effAddr t a (imm32 j)).toNat % 8 ≠ 0) 0x05 (fun t => effAddr t a (imm32 j)) ∧
  RaisesIf (.ldhu d a o) (fun t => (effAddr t a (imm12 o)).toNat % 2 ≠ 0) 0x05 (fun t => effAddr t a (imm12 o)) ∧
  RaisesIf (.ldhuLong d a j) (fun t => (effAddr t a (imm32 j)).toNat % 2 ≠ 0) 0x05 (fun t => effAddr t a (imm32 j)) ∧
  RaisesIf (.ldwu d a o) (fun t => (effAddr t a (imm12 o)).toNat % 4 ≠ 0) 0x05 (fun t => effAddr t a (imm12 o)) ∧
  RaisesIf (.ldwuLong d a j) (fun t => (effAddr t a (imm32 j)).toNat % 4 ≠ 0) 0x05 (fun t => effAddr t a (imm32 j)) ∧
  RaisesIf (.ldq d a o) (fun t => (effAddr t a (imm12 o)).toNat % 16 ≠ 0) 0x05 (fun t => effAddr t a (imm12 o)) ∧
  RaisesIf (.ldqLong d a j) (fun t => (effAddr t a (imm32 j)).toNat % 16 ≠ 0) 0x05 (fun t => effAddr t a (imm32 j)) ∧
  RaisesIf (.sth d a o) (fun t => (effAddr t a (imm12 o)).toNat % 2 ≠ 0) 0x05 (fun t => effAddr t a (imm12 o)) ∧
  RaisesIf (.sthLong d a j) (fun t => (effAddr t a (imm32 j)).toNat % 2 ≠ 0) 0x05 (fun t => effAddr t a (imm32 j)) ∧
  RaisesIf (.stw d a o) (fun t => (effAddr t a (imm12 o)).toNat % 4 ≠ 0) 0x05 (fun t => effAddr t a (imm12 o)) ∧
  RaisesIf (.stwLong d a j) (fun t => (effAddr t a (imm32 j)).toNat % 4 ≠ 0) 0x05 (fun t => effAddr t a (imm32 j)) ∧
  RaisesIf (.std d a o) (fun t => (effAddr t a (imm12 o)).toNat % 8 ≠ 0) 0x05 (fun t => effAddr t a (imm12 o)) ∧
  RaisesIf (.stdLong d a j) (fun t => (effAddr t a (imm32 j)).toNat % 8 ≠ 0) 0x05 (fun t => effAddr t a (imm32 j)) ∧
  RaisesIf (.stq d a o) (fun t => (effAddr t a (imm12 o)).toNat % 16 ≠ 0) 0x05 (fun t => effAddr t a (imm12 o)) ∧
  RaisesIf (.stqLong d a j) (fun t => (effAddr t a (imm32 j)).toNat % 16 ≠ 0) 0x05 (fun t => effAddr t a (imm32 j)) ∧
  RaisesIf (.ldf d a o) (fun t => (effAddr t a (imm12 o)).toNat % 8 ≠ 0) 0x05 (fun t => effAddr t a (imm12 o)) ∧
  RaisesIf (.ldfLong d a j) (fun t => (effAddr t a (imm32 j)).toNat % 8 ≠ 0) 0x05 (fun t => effAddr t a (imm32 j)) ∧
  RaisesIf (.ldc d a o) (fun t => (effAddr t a (imm12 o)).toNat % 8 ≠ 0) 0x05 (fun t => effAddr t a (imm12 o)) ∧
  RaisesIf (.ldcLong d a j) (fun t => (effAddr t a (imm32 j)).toNat % 8 ≠ 0) 0x05 (fun t => effAddr t a (imm32 j)) ∧
  RaisesIf (.stf d a o) (fun t => (effAddr t a (imm12 o)).toNat % 8 ≠ 0) 0x05 (fun t => effAddr t a (imm12 o)) ∧
  RaisesIf (.stfLong d a j) (fun t => (effAddr t a (imm32 j)).toNat % 8 ≠ 0) 0x05 (fun t => effAddr t a (imm32 j)) ∧
  RaisesIf (.stfo d a o) (fun t => (effAddr t a (imm12 o)).toNat % 8 ≠ 0) 0x05 (fun t => effAddr t a (imm12 o)) ∧
  RaisesIf (.stfoLong d a j) (fun t => (effAddr t a (imm32 j)).toNat % 8 ≠ 0) 0x05 (fun t => effAddr t a (imm32 j)) ∧
  RaisesIf (.feq d a o) (fun t => (effAddr t a (imm12 o)).toNat % 8 ≠ 0) 0x05 (fun t => effAddr t a (imm12 o)) ∧
  RaisesIf (.feqLong d a j) (fun t => (effAddr t a (imm32 j)).toNat % 8 ≠ 0) 0x05 (fun t => effAddr t a (imm32 j)) ∧
  RaisesIf (.empty a o) (fun t => (effAddr t a (imm12 o)).toNat % 8 ≠ 0) 0x05 (fun t => effAddr t a (imm12 o)) ∧
  RaisesIf (.emptyLong a j) (fun t => (effAddr t a (imm32 j)).toNat % 8 ≠ 0) 0x05 (fun t => effAddr t a (imm32 j)) ∧
  RaisesIf (.vld f a o) (fun t => (effAddr t a (imm12 o)).toNat % 64 ≠ 0) 0x05 (fun t => effAddr t a (imm12 o)) ∧
  RaisesIf (.vst f a o) (fun t => (effAddr t a (imm12 o)).toNat % 64 ≠ 0) 0x05 (fun t => effAddr t a (imm12 o)) ∧
  RaisesIf (.vldLong f a j) (fun t => (effAddr t a (imm32 j)).toNat % 64 ≠ 0) 0x05 (fun t => effAddr t a (imm32 j)) ∧
  RaisesIf (.vstLong f a j) (fun t => (effAddr t a (imm32 j)).toNat % 64 ≠ 0) 0x05 (fun t => effAddr t a (imm32 j)) ∧
  RaisesIf (.amoadd p d a b) (fun t => (rg t a).toNat % amoBytes p.w ≠ 0) 0x05 (fun t => rg t a) ∧
  RaisesIf (.amoand p d a b) (fun t => (rg t a).toNat % amoBytes p.w ≠ 0) 0x05 (fun t => rg t a) ∧
  RaisesIf (.amoor p d a b) (fun t => (rg t a).toNat % amoBytes p.w ≠ 0) 0x05 (fun t => rg t a) ∧
  RaisesIf (.amoxor p d a b) (fun t => (rg t a).toNat % amoBytes p.w ≠ 0) 0x05 (fun t => rg t a) ∧
  RaisesIf (.amomin p d a b) (fun t => (rg t a).toNat % amoBytes p.w ≠ 0) 0x05 (fun t => rg t a) ∧
  RaisesIf (.amomax p d a b) (fun t => (rg t a).toNat % amoBytes p.w ≠ 0) 0x05 (fun t => rg t a) ∧
  RaisesIf (.amominu p d a b) (fun t => (rg t a).toNat % amoBytes p.w ≠ 0) 0x05 (fun t => rg t a) ∧
  RaisesIf (.amomaxu p d a b) (fun t => (rg t a).toNat % amoBytes p.w ≠ 0) 0x05 (fun t => rg t a) ∧
  RaisesIf (.amoswap p d a b) (fun t => (rg t a).toNat % amoBytes p.w ≠ 0) 0x05 (fun t => rg t a) ∧
  RaisesIf (.amocas p d a b) (fun t => (rg t a).toNat % amoBytes p.w ≠ 0) 0x05 (fun t => rg t a)

/-- The full/empty operations on the own pool (Table 8.11, R196). The model's choices: the precise cause of a failed sector (log entry 26) with a free TVAL (log entry 16), and that only an earlier operation that may itself be performed goes first (log entry 112). -/
def Obligations.FullEmptyOperationsAnswer : Prop :=
  ∀ (d a : GReg) (o : BitVec 12) (j : BitVec 32),
  (∀ s t u off, Ready (form (.ldf d a o)) s t → OwnPool t u (effAddr t a (imm12 o)) 0 .rd off 8 →
    grantOf u = none → isFull u (ownAddr u off) = true → feWaiters u u.cur.agent (ownAddr u off) = false →
    failedIn u (ownAddr u off) 8 = none → Commits (.ldf d a o) s (goesOn (wgSlow (seeReleased u (ownAddr u off) (some (curWho u 0))) d (w64 (readN u.mem (ownAddr u off) 8))))) ∧
  (∀ s t u off, Ready (form (.ldc d a o)) s t → OwnPool t u (effAddr t a (imm12 o)) 0 .rd off 8 →
    grantOf u = none → isFull u (ownAddr u off) = true → feWaiters u u.cur.agent (ownAddr u off) = false →
    failedIn u (ownAddr u off) 8 = none → Commits (.ldc d a o) s (goesOn (wgSlow (unreleased (setFe (seeReleased u (ownAddr u off) (some (curWho u 0))) (ownAddr u off) false) (ownAddr u off)) d
      (w64 (readN u.mem (ownAddr u off) 8))))) ∧
  (∀ s t u off, Ready (form (.stf d a o)) s t → OwnPool t u (effAddr t a (imm12 o)) 1 .wr off 8 →
    grantOf u = none → isFull u (ownAddr u off) = false → feWaiters u u.cur.agent (ownAddr u off) = false →
    Commits (.stf d a o) s (goesOn (setFe (homeWrite u (ownAddr u off) (bytesOf (rg u d).toNat 8) 0 (writerNo u.cur.agent) (some (curWho u 0)))
      (ownAddr u off) true))) ∧
  (∀ s t u off, Ready (form (.stfo d a o)) s t → OwnPool t u (effAddr t a (imm12 o)) 1 .wr off 8 →
    Commits (.stfo d a o) s (goesOn (setFe (homeWrite u (ownAddr u off) (bytesOf (rg u d).toNat 8) 0 (writerNo u.cur.agent) (some (curWho u 0)))
      (ownAddr u off) true))) ∧
  (∀ s t u off, Ready (form (.empty a o)) s t → OwnPool t u (effAddr t a (imm12 o)) 1 .wr off 8 →
    Commits (.empty a o) s (goesOn (unreleased (setFe u (ownAddr u off) false) (ownAddr u off)))) ∧
  (∀ s t u off, Ready (form (.feq d a o)) s t → OwnPool t u (effAddr t a (imm12 o)) 0 .rd off 8 →
    Commits (.feq d a o) s (goesOn (wgSlow u d (if isFull u (ownAddr u off) then 1 else 0)))) ∧
  (∀ s t u off, Ready (form (.ldf d a o)) s t → OwnPool t u (effAddr t a (imm12 o)) 0 .rd off 8 →
    grantOf u = none → isFull u (ownAddr u off) = true → feWaiters u u.cur.agent (ownAddr u off) = false →
    ∀ sram, failedIn u (ownAddr u off) 8 = some sram → Raises (.ldf d a o) s (if sram then 0x2C else 0x2B) (Config.openWord u.fresh)) ∧
  (∀ s t u off, Ready (form (.ldc d a o)) s t → OwnPool t u (effAddr t a (imm12 o)) 0 .rd off 8 →
    grantOf u = none → isFull u (ownAddr u off) = true → feWaiters u u.cur.agent (ownAddr u off) = false →
    ∀ sram, failedIn u (ownAddr u off) 8 = some sram → Raises (.ldc d a o) s (if sram then 0x2C else 0x2B) (Config.openWord u.fresh)) ∧
  (∀ s t u off, Ready (form (.ldfLong d a j)) s t → OwnPool t u (effAddr t a (imm32 j)) 0 .rd off 8 →
    grantOf u = none → isFull u (ownAddr u off) = true → feWaiters u u.cur.agent (ownAddr u off) = false →
    failedIn u (ownAddr u off) 8 = none → Commits (.ldfLong d a j) s (goesOn (wgSlow (seeReleased u (ownAddr u off) (some (curWho u 0))) d (w64 (readN u.mem (ownAddr u off) 8))))) ∧
  (∀ s t u off, Ready (form (.ldcLong d a j)) s t → OwnPool t u (effAddr t a (imm32 j)) 0 .rd off 8 →
    grantOf u = none → isFull u (ownAddr u off) = true → feWaiters u u.cur.agent (ownAddr u off) = false →
    failedIn u (ownAddr u off) 8 = none → Commits (.ldcLong d a j) s (goesOn (wgSlow (unreleased (setFe (seeReleased u (ownAddr u off) (some (curWho u 0))) (ownAddr u off) false) (ownAddr u off)) d
      (w64 (readN u.mem (ownAddr u off) 8))))) ∧
  (∀ s t u off, Ready (form (.stfLong d a j)) s t → OwnPool t u (effAddr t a (imm32 j)) 1 .wr off 8 →
    grantOf u = none → isFull u (ownAddr u off) = false → feWaiters u u.cur.agent (ownAddr u off) = false →
    Commits (.stfLong d a j) s (goesOn (setFe (homeWrite u (ownAddr u off) (bytesOf (rg u d).toNat 8) 0 (writerNo u.cur.agent) (some (curWho u 0)))
      (ownAddr u off) true))) ∧
  (∀ s t u off, Ready (form (.stfoLong d a j)) s t → OwnPool t u (effAddr t a (imm32 j)) 1 .wr off 8 →
    Commits (.stfoLong d a j) s (goesOn (setFe (homeWrite u (ownAddr u off) (bytesOf (rg u d).toNat 8) 0 (writerNo u.cur.agent) (some (curWho u 0)))
      (ownAddr u off) true))) ∧
  (∀ s t u off, Ready (form (.emptyLong a j)) s t → OwnPool t u (effAddr t a (imm32 j)) 1 .wr off 8 →
    Commits (.emptyLong a j) s (goesOn (unreleased (setFe u (ownAddr u off) false) (ownAddr u off)))) ∧
  (∀ s t u off, Ready (form (.feqLong d a j)) s t → OwnPool t u (effAddr t a (imm32 j)) 0 .rd off 8 →
    Commits (.feqLong d a j) s (goesOn (wgSlow u d (if isFull u (ownAddr u off) then 1 else 0)))) ∧
  (∀ s t u off, Ready (form (.ldfLong d a j)) s t → OwnPool t u (effAddr t a (imm32 j)) 0 .rd off 8 →
    grantOf u = none → isFull u (ownAddr u off) = true → feWaiters u u.cur.agent (ownAddr u off) = false →
    ∀ sram, failedIn u (ownAddr u off) 8 = some sram → Raises (.ldfLong d a j) s (if sram then 0x2C else 0x2B) (Config.openWord u.fresh)) ∧
  (∀ s t u off, Ready (form (.ldcLong d a j)) s t → OwnPool t u (effAddr t a (imm32 j)) 0 .rd off 8 →
    grantOf u = none → isFull u (ownAddr u off) = true → feWaiters u u.cur.agent (ownAddr u off) = false →
    ∀ sram, failedIn u (ownAddr u off) 8 = some sram → Raises (.ldcLong d a j) s (if sram then 0x2C else 0x2B) (Config.openWord u.fresh)) ∧
  (∀ s addr w, s.dev.guest.released.contains addr = false → seeReleased s addr w = s)

/-- The wait of a full/empty operation whose condition does not hold (R196). -/
def Obligations.FullEmptyWaits : Prop :=
  ∀ (d a : GReg) (o : BitVec 12) (j : BitVec 32) (s t u : State) (off : Nat) (i : Instr) (ea : Word) (op : AOp) (k : Nat) (n : Need),
  (i, ea, op, k, n) ∈ [(Instr.ldf d a o, effAddr t a (imm12 o), AOp.ldf, 0, Need.rd), (.ldc d a o, effAddr t a (imm12 o), .ldc, 0, .rd),
    (.stf d a o, effAddr t a (imm12 o), .stf (rg u d), 1, .wr), (.ldfLong d a j, effAddr t a (imm32 j), .ldf, 0, .rd),
    (.ldcLong d a j, effAddr t a (imm32 j), .ldc, 0, .rd), (.stfLong d a j, effAddr t a (imm32 j), .stf (rg u d), 1, .wr)] →
  Ready (form i) s t → OwnPool t u ea k n off 8 → grantOf u = none → feReady u (ownAddr u off) op = false →
  ∃ v, exec i s = .next v ∧ v.last = .waiting ∧ v.mem = u.mem ∧ v.full = u.full ∧
    (∃ w, (curCtx v).wait = some w ∧ w.kind = 2 ∧ w.obj = ea.toNat % 2 ^ 32) ∧
    (curCtx v).g = (curCtx u).g ∧ (curCtx v).pc = (curCtx u).pc ∧
    ∃ x, (curCore v).feWaits = (curCore u).feWaits ++ [x] ∧ x.a.addr = ownAddr u off ∧ x.a.op = op

/-- The atomics on the own pool (R199, R212). -/
def Obligations.AtomicsOfTheOwnPoolAnswer : Prop :=
  ∀ (p : AmoP) (d a b : GReg),
  AmoOwn .add (.amoadd p d a b) p d a b ∧
  AmoOwn .and (.amoand p d a b) p d a b ∧
  AmoOwn .or (.amoor p d a b) p d a b ∧
  AmoOwn .xor (.amoxor p d a b) p d a b ∧
  AmoOwn .min (.amomin p d a b) p d a b ∧
  AmoOwn .max (.amomax p d a b) p d a b ∧
  AmoOwn .minu (.amominu p d a b) p d a b ∧
  AmoOwn .maxu (.amomaxu p d a b) p d a b ∧
  AmoOwn .swap (.amoswap p d a b) p d a b ∧
  AmoOwn .cas (.amocas p d a b) p d a b

/-- The results of the atomics at 4, 8 and 16 bytes (Table of R199), their operand, and the old value in gd. -/
def Obligations.AtomicResults : Prop :=
  ∀ (w : Nat) (x y e : BitVec (8 * w)), w = 4 ∨ w = 8 ∨ w = 16 →
  amoNew .add w x.toNat y.toNat e.toNat = (x + y).toNat ∧
  amoNew .and w x.toNat y.toNat e.toNat = (x &&& y).toNat ∧
  amoNew .or w x.toNat y.toNat e.toNat = (x ||| y).toNat ∧
  amoNew .xor w x.toNat y.toNat e.toNat = (x ^^^ y).toNat ∧
  amoNew .min w x.toNat y.toNat e.toNat = (if x.toInt ≤ y.toInt then x else y).toNat ∧
  amoNew .max w x.toNat y.toNat e.toNat = (if x.toInt ≤ y.toInt then y else x).toNat ∧
  amoNew .minu w x.toNat y.toNat e.toNat = (if x.toNat ≤ y.toNat then x else y).toNat ∧
  amoNew .maxu w x.toNat y.toNat e.toNat = (if x.toNat ≤ y.toNat then y else x).toNat ∧
  amoNew .swap w x.toNat y.toNat e.toNat = y.toNat ∧
  amoNew .cas w x.toNat y.toNat e.toNat = (if x = e then y else x).toNat ∧
  ∀ (s : State) (r : GReg) (c : Ctx) (d : GReg) (v : Nat),
    (amoOperand s .word r = (rg s r).toNat % 2 ^ 32 ∧ amoOperand s .double r = (rg s r).toNat ∧
      amoOperand s .quad r = (rg s r).toNat + (rg s (nextReg r)).toNat * 2 ^ 64) ∧
    (d ≠ 0 → (c.land (.amo d 4) v).g[d] = (BitVec.ofNat 32 v).signExtend 64 ∧ (c.land (.amo d 8) v).g[d] = BitVec.ofNat 64 v ∧
      (d.val % 2 = 0 → (c.land (.amo d 16) v).g[d] = BitVec.ofNat 64 v ∧
        (c.land (.amo d 16) v).g[nextReg d] = BitVec.ofNat 64 (v / 2 ^ 64)))

/-- VLD, VST, VLDS, VSTS, VGATH and VSCAT on the own pool (Table 8.12, R198). -/
def Obligations.VectorMemoryAnswers : Prop :=
  ∀ (f g : FReg) (a b : GReg) (o : BitVec 12) (q : BitVec 7) (j : BitVec 32),
  VecLoadsOwn (.vld f a o) f 64 (fun t => [(0, effAddr t a (imm12 o))]) ∧
  VecLoadsOwn (.vldLong f a j) f 64 (fun t => [(0, effAddr t a (imm32 j))]) ∧
  VecStoresOwn (.vst f a o) f 64 (fun t => [(0, effAddr t a (imm12 o))]) ∧
  VecStoresOwn (.vstLong f a j) f 64 (fun t => [(0, effAddr t a (imm32 j))]) ∧
  VecLoadsOwn (.vlds f a b q) f 4 (fun t => laneAddrs (effAddr t a (imm7 q)) (strided t b)) ∧
  VecLoadsOwn (.vldsLong f a b j) f 4 (fun t => laneAddrs (effAddr t a (imm32 j)) (strided t b)) ∧
  VecStoresOwn (.vsts f a b q) f 4 (fun t => laneAddrs (effAddr t a (imm7 q)) (strided t b)) ∧
  VecStoresOwn (.vstsLong f a b j) f 4 (fun t => laneAddrs (effAddr t a (imm32 j)) (strided t b)) ∧
  VecLoadsOwn (.vgath f a g q) f 4 (fun t => laneAddrs (effAddr t a (imm7 q)) (gathered t g)) ∧
  VecLoadsOwn (.vgathLong f a g j) f 4 (fun t => laneAddrs (effAddr t a (imm32 j)) (gathered t g)) ∧
  VecStoresOwn (.vscat f a g q) f 4 (fun t => laneAddrs (effAddr t a (imm7 q)) (gathered t g)) ∧
  VecStoresOwn (.vscatLong f a g j) f 4 (fun t => laneAddrs (effAddr t a (imm32 j)) (gathered t g))

/-- The cache instructions (Table 8.13, R200). -/
def Obligations.CacheInstructionsAnswer : Prop :=
  ∀ (a : GReg) (o : BitVec 12) (j : BitVec 32),
  AnswersIf (.pref a o) (fun t => isLocalEa (effAddr t a (imm12 o)) = true) goesOn ∧
  AnswersIf (.prefLong a j) (fun t => isLocalEa (effAddr t a (imm32 j)) = true) goesOn ∧
  AnswersIf (.cwb a o) (fun t => isLocalEa (effAddr t a (imm12 o)) = true) goesOn ∧
  AnswersIf (.cwbLong a j) (fun t => isLocalEa (effAddr t a (imm32 j)) = true) goesOn ∧
  AnswersIf (.cinv a o) (fun t => isLocalEa (effAddr t a (imm12 o)) = true) goesOn ∧
  AnswersIf (.cinvLong a j) (fun t => isLocalEa (effAddr t a (imm32 j)) = true) goesOn ∧
  AnswersIf (.cwbinv a o) (fun t => isLocalEa (effAddr t a (imm12 o)) = true) goesOn ∧
  AnswersIf (.cwbinvLong a j) (fun t => isLocalEa (effAddr t a (imm32 j)) = true) goesOn ∧
  AnswersIf (.cwbL2 a o) (fun t => isLocalEa (effAddr t a (imm12 o)) = true) goesOn ∧
  AnswersIf (.cwbL2Long a j) (fun t => isLocalEa (effAddr t a (imm32 j)) = true) goesOn ∧
  (∀ s t u pa pol lvl, Ready (form (.cwb a o)) s t → isLocalEa (effAddr t a (imm12 o)) = false →
    resolveCur t (effAddr t a (imm12 o)) 3 .rd = .ok (u, .phys pa pol lvl) → pol ≤ 2 → Commits (.cwb a o) s (goesOn (cwbLine u pa))) ∧
  (∀ s t u pa pol lvl, Ready (form (.cwbLong a j)) s t → isLocalEa (effAddr t a (imm32 j)) = false →
    resolveCur t (effAddr t a (imm32 j)) 3 .rd = .ok (u, .phys pa pol lvl) → pol ≤ 2 → Commits (.cwbLong a j) s (goesOn (cwbLine u pa))) ∧
  (∀ s t u pa pol lvl, Ready (form (.cinv a o)) s t → isLocalEa (effAddr t a (imm12 o)) = false →
    resolveCur t (effAddr t a (imm12 o)) 3 .wr = .ok (u, .phys pa pol lvl) → pol ≤ 2 → Commits (.cinv a o) s (goesOn (dropLine u u.cur.agent (lineOf pa)))) ∧
  (∀ s t u pa pol lvl, Ready (form (.cinvLong a j)) s t → isLocalEa (effAddr t a (imm32 j)) = false →
    resolveCur t (effAddr t a (imm32 j)) 3 .wr = .ok (u, .phys pa pol lvl) → pol ≤ 2 → Commits (.cinvLong a j) s (goesOn (dropLine u u.cur.agent (lineOf pa)))) ∧
  (∀ s t u pa pol lvl, Ready (form (.cwbinv a o)) s t → isLocalEa (effAddr t a (imm12 o)) = false →
    resolveCur t (effAddr t a (imm12 o)) 3 .rd = .ok (u, .phys pa pol lvl) → pol ≤ 2 → Commits (.cwbinv a o) s (goesOn (flushLine u u.cur.agent (lineOf pa)))) ∧
  (∀ s t u pa pol lvl, Ready (form (.cwbinvLong a j)) s t → isLocalEa (effAddr t a (imm32 j)) = false →
    resolveCur t (effAddr t a (imm32 j)) 3 .rd = .ok (u, .phys pa pol lvl) → pol ≤ 2 → Commits (.cwbinvLong a j) s (goesOn (flushLine u u.cur.agent (lineOf pa)))) ∧
  (∀ s t u pa pol lvl, Ready (form (.cwbL2 a o)) s t → isLocalEa (effAddr t a (imm12 o)) = false →
    resolveCur t (effAddr t a (imm12 o)) 3 .rd = .ok (u, .phys pa pol lvl) → pol ≤ 2 → Commits (.cwbL2 a o) s (goesOn (cwbL2Line u pa))) ∧
  (∀ s t u pa pol lvl, Ready (form (.cwbL2Long a j)) s t → isLocalEa (effAddr t a (imm32 j)) = false →
    resolveCur t (effAddr t a (imm32 j)) 3 .rd = .ok (u, .phys pa pol lvl) → pol ≤ 2 → Commits (.cwbL2Long a j) s (goesOn (cwbL2Line u pa))) ∧
  (∀ s t u pa pol lvl, Ready (form (.pref a o)) s t → isLocalEa (effAddr t a (imm12 o)) = false →
    resolveCur t (effAddr t a (imm12 o)) 3 .any = .ok (u, .phys pa pol lvl) →
    Commits (.pref a o) s (goesOn (if pol = 0 ∧ hasL1 u u.cur.agent = true then prefetched u (lineOf pa)
      else if pol ≤ 1 then sendPkt u (nodeOf u.cur.agent) (homeNode u pa) 0 (.access (mkAccess u 0 .pref (lineOf pa * 256) pa none))
      else u))) ∧
  (∀ s t e, Ready (form (.pref a o)) s t → isLocalEa (effAddr t a (imm12 o)) = false →
    resolveCur t (effAddr t a (imm12 o)) 3 .any = .error e → Commits (.pref a o) s (goesOn t)) ∧
  (∀ s t u pa pol lvl, Ready (form (.prefLong a j)) s t → isLocalEa (effAddr t a (imm32 j)) = false →
    resolveCur t (effAddr t a (imm32 j)) 3 .any = .ok (u, .phys pa pol lvl) →
    Commits (.prefLong a j) s (goesOn (if pol = 0 ∧ hasL1 u u.cur.agent = true then prefetched u (lineOf pa)
      else if pol ≤ 1 then sendPkt u (nodeOf u.cur.agent) (homeNode u pa) 0 (.access (mkAccess u 0 .pref (lineOf pa * 256) pa none))
      else u))) ∧
  (∀ s t e, Ready (form (.prefLong a j)) s t → isLocalEa (effAddr t a (imm32 j)) = false →
    resolveCur t (effAddr t a (imm32 j)) 3 .any = .error e → Commits (.prefLong a j) s (goesOn t))

/-- The vector floating-point instructions (Tables 7.5, 7.6 and 7.9). That VRCP, VRSQ, VEXP2, VLOG2, VTANH and VSIGM give the exact result rounded once is the model's choice (log entry 8). -/
def Obligations.VectorFloatsAnswer : Prop :=
  ∀ (l : Lanes) (r : Rnd) (d a b c : FReg),
  FpAnswers (.vadd l r d a b) d (fun t => vfpLanes l (rounded t r addNum) a b t) ∧
  FpAnswers (.vsub l r d a b) d (fun t => vfpLanes l (rounded t r (fun m x y => addNum m x y.flip)) a b t) ∧
  FpAnswers (.vmul l r d a b) d (fun t => vfpLanes l (rounded t r (fun _ => mulNum)) a b t) ∧
  FpAnswers (.vdiv l r d a b) d (fun t => vfpLanes l (rounded t r (fun _ => divNum)) a b t) ∧
  FpAnswers (.vsqrt l r d a) d (fun t => vfpLanes l (rounded t r (fun _ x _ => sqrtNum x)) a a t) ∧
  FpAnswers (.vmin l d a b) d (fun t => vfpLanes l (fun f => pickNum f false) a b t) ∧
  FpAnswers (.vmax l d a b) d (fun t => vfpLanes l (fun f => pickNum f true) a b t) ∧
  FpAnswers (.vfma d a b c) d (fmaLanes false false a b c) ∧
  FpAnswers (.vfms d a b c) d (fmaLanes false true a b c) ∧
  FpAnswers (.vfnma d a b c) d (fmaLanes true true a b c) ∧
  FpAnswers (.vfnms d a b c) d (fmaLanes true false a b c) ∧
  FpAnswers (.vrcp d a) d (sfuLanes .rcp a) ∧
  FpAnswers (.vrsq d a) d (sfuLanes .rsq a) ∧
  FpAnswers (.vexp2 d a) d (sfuLanes .exp2 a) ∧
  FpAnswers (.vlog2 d a) d (sfuLanes .log2 a) ∧
  FpAnswers (.vtanh d a) d (sfuLanes .tanh a) ∧
  FpAnswers (.vsigm d a) d (sfuLanes .sigm a)

/-- VABS and VNEG (R163): their lanes, and that each differs from the operand in the sign bit only, but for a subnormal under FTZ (R64). -/
def Obligations.SignOperationsAnswer : Prop :=
  ∀ (l : Lanes) (d a : FReg),
  Answers (.vabs l d a) (fun t => goesOn (wfSlow (modCur t (·.orFlags 0)) d (signLanes l (fun _ => 0) a t))) ∧
  Answers (.vneg l d a) (fun t => goesOn (wfSlow (modCur t (·.orFlags 0)) d (signLanes l (fun n => 1 - n) a t))) ∧
  (∀ (t : State) (f : Nat → Nat) (i : Nat), (∀ n, f n ≤ 1) → i < 512 / (lanesFmt l).2 →
    let x := elem (lanesFmt l).2 (rf t a) i
    elem (lanesFmt l).2 (signLanes l f a t) i / 2 ^ (lanesFmt l).1.low = f (x / 2 ^ (lanesFmt l).1.low) ∧
    elem (lanesFmt l).2 (signLanes l f a t) i % 2 ^ (lanesFmt l).1.low =
      (if fpFtz (opCtx t) = true ∧ x / 2 ^ (lanesFmt l).1.mb % 2 ^ (lanesFmt l).1.eb = 0 then 0 else x % 2 ^ (lanesFmt l).1.low)) ∧
  ∀ c : Ctx, (c.orFlags 0).fpctl = c.fpctl

/-- The vector integer instructions (Table 7.7). -/
def Obligations.VectorIntegersAnswer : Prop :=
  ∀ (d a b : FReg),
  Answers (.vaddI d a b) (fun t => goesOn (wfSlow t d (intLanes (fun x y => x + y) a b t))) ∧
  Answers (.vsubI d a b) (fun t => goesOn (wfSlow t d (intLanes (fun x y => x - y) a b t))) ∧
  Answers (.vmulI d a b) (fun t => goesOn (wfSlow t d (intLanes (fun x y => x * y) a b t))) ∧
  Answers (.vmulhI d a b) (fun t => goesOn (wfSlow t d (intLanes (fun x y => ((x.signExtend 64 * y.signExtend 64) >>> 32).truncate 32) a b t))) ∧
  Answers (.vand d a b) (fun t => goesOn (wfSlow t d (intLanes (fun x y => x &&& y) a b t))) ∧
  Answers (.vor d a b) (fun t => goesOn (wfSlow t d (intLanes (fun x y => x ||| y) a b t))) ∧
  Answers (.vxor d a b) (fun t => goesOn (wfSlow t d (intLanes (fun x y => x ^^^ y) a b t))) ∧
  Answers (.vshl d a b) (fun t => goesOn (wfSlow t d (intLanes (fun x y => x <<< (y.toNat % 32)) a b t))) ∧
  Answers (.vshr d a b) (fun t => goesOn (wfSlow t d (intLanes (fun x y => x >>> (y.toNat % 32)) a b t))) ∧
  Answers (.vsra d a b) (fun t => goesOn (wfSlow t d (intLanes (fun x y => x.sshiftRight (y.toNat % 32)) a b t))) ∧
  Answers (.vminI d a b) (fun t => goesOn (wfSlow t d (intLanes (fun x y => if x.toInt ≤ y.toInt then x else y) a b t))) ∧
  Answers (.vmaxI d a b) (fun t => goesOn (wfSlow t d (intLanes (fun x y => if x.toInt ≤ y.toInt then y else x) a b t))) ∧
  Answers (.vminuI d a b) (fun t => goesOn (wfSlow t d (intLanes (fun x y => if x.toNat ≤ y.toNat then x else y) a b t))) ∧
  Answers (.vmaxuI d a b) (fun t => goesOn (wfSlow t d (intLanes (fun x y => if x.toNat ≤ y.toNat then y else x) a b t))) ∧
  Answers (.vdot4I8 d a b) (fun t => goesOn (wfSlow t d (packElems 32 ((List.range 16).map fun i =>
    (dot4 (lane (rf t d) i) (lane (rf t a) i) (lane (rf t b) i)).toNat))))

/-- Compares, selection and masks (R166, Table 7.8). That a compare reads a subnormal as it is, whatever FTZ says, is the model's choice (log entry 36). -/
def Obligations.ComparesAndMasksAnswer : Prop :=
  ∀ (c : Cond) (d a b : FReg) (q x w : MReg) (g : GReg),
  Answers (.vsel d a w) (fun t => goesOn (wfSlow t d (packElems 32 ((List.range 16).map fun i =>
    if (rm t w).getLsbD i then elem 32 (rf t a) i else elem 32 (rf t d) i)))) ∧
  Answers (.mand q x w) (fun t => goesOn (wm t q (rm t x &&& rm t w))) ∧
  Answers (.mor q x w) (fun t => goesOn (wm t q (rm t x ||| rm t w))) ∧
  Answers (.mxor q x w) (fun t => goesOn (wm t q (rm t x ^^^ rm t w))) ∧
  Answers (.mnot q x) (fun t => goesOn (wm t q (~~~ rm t x))) ∧
  Answers (.mmov q x) (fun t => goesOn (wm t q (rm t x))) ∧
  Answers (.mset q g) (fun t => goesOn (wm t q ((rg t g).truncate 16))) ∧
  Answers (.mpopc g x) (fun t => goesOn (wgSlow t g (w64 ((List.range 16).countP fun i => (rm t x).getLsbD i)))) ∧
  Answers (.vcmp .i32 c q a b) (fun t => goesOn (wmSlow t q (packMask ((List.range 16).map fun i =>
    intCond c ((fun (x y : BitVec 32) => x.toInt - y.toInt) (lane (rf t a) i) (lane (rf t b) i)))))) ∧
  Answers (.vcmp .u32 c q a b) (fun t => goesOn (wmSlow t q (packMask ((List.range 16).map fun i =>
    intCond c ((fun (x y : BitVec 32) => (x.toNat : Int) - y.toNat) (lane (rf t a) i) (lane (rf t b) i)))))) ∧
  (∀ s t u, Ready (form (.vcmp .f32 c q a b)) s t →
    let r := List.zipWith (fun x y => fpCond c (decodeNum fp32 false x) (decodeNum fp32 false y)) (elems 32 (rf t a)) (elems 32 (rf t b))
    setFlags t (r.map fun x => if x.2 then 8 else 0) = .ok u →
    Commits (.vcmp .f32 c q a b) s (goesOn (wmSlow u q (packMask ((r.map (·.1))))))) ∧
  (∀ s t u, Ready (form (.vcmp .bf16 c q a b)) s t →
    let r := List.zipWith (fun x y => fpCond c (decodeNum bf16 false x) (decodeNum bf16 false y)) (elems 16 (rf t a)) (elems 16 (rf t b))
    setFlags t (r.map fun x => if x.2 then 8 else 0) = .ok u →
    Commits (.vcmp .bf16 c q a b) s (goesOn (wmSlow u q (packMask (pairsHold (r.map (·.1)))))))

/-- Vector moves, reductions, scans, random words and conversions (R168 to R170). -/
def Obligations.VectorMovesAndConversionsAnswer : Prop :=
  ∀ (op : RedOp) (k : Fin 26) (d a b : FReg) (g h : GReg) (n : Fin 16),
  Answers (.vmov d a) (fun t => goesOn (wf t d (rf t a))) ∧
  Answers (.vbcast d g) (fun t => goesOn (wfSlow t d (packElems 32 (List.replicate 16 ((rg t g).toNat % 2 ^ 32))))) ∧
  Answers (.vext g a n) (fun t => goesOn (wgSlow t g (w64 (elem 32 (rf t a) n)))) ∧
  Answers (.vins d g n) (fun t => goesOn (wfSlow t d (packElems 32 ((elems 32 (rf t d)).set n ((rg t g).toNat % 2 ^ 32))))) ∧
  Answers (.vperm d a b) (fun t => goesOn (wfSlow t d (packElems 32 ((elems 32 (rf t b)).map fun x => elem 32 (rf t a) (x % 16))))) ∧
  Answers (.vrand d g h) (fun t => goesOn (wfSlow (wg t g (rg t g + 16)) d (packElems 32 ((List.range 16).map fun i =>
    (cmix32 (lo32 (rg t g) + BitVec.ofNat 32 i) (lo32 (rg t h))).toNat)))) ∧
  (∀ s t u, Ready (form (.vred op g a)) s t → setFlags t [(redLevels (redStep t op) 4 (elems 32 (rf t a)) 0).2] = .ok u →
    Commits (.vred op g a) s (goesOn (wgSlow u g (w64 (redLevels (redStep t op) 4 (elems 32 (rf t a)) 0).1)))) ∧
  FpAnswers (.vscan op d a) d (fun t => (packElems 32 ((scanLanes (redStep t op) (scanned t op a)).map (·.1)),
    (scanLanes (redStep t op) (scanned t op a)).map (·.2))) ∧
  FpAnswers (.vcvt k d a) d (fun t => cvtLanes k d a (fun _ => fpRm (opCtx t)) t) ∧
  FpAnswers (.vcvtSr k d a b) d (fun t => cvtLanes k d a (fun i => .sr (elem 32 (rf t b) i)) t)

/-- The flags of a floating-point result and their traps (R65). -/
def Obligations.EnabledFlagsTrap : Prop :=
  ∀ (s : State) (l : List FpFlags),
  let on (bit : Nat) := allFlags l &&& fpEnabled (opCtx s) &&& bit
  (on 8 ≠ 0 → setFlags s l = trap 0x21 (w64 (laneMask l 8))) ∧
  (on 8 = 0 → on 4 ≠ 0 → setFlags s l = trap 0x22 (w64 (laneMask l 4))) ∧
  (on 8 = 0 → on 4 = 0 → on 2 ≠ 0 → setFlags s l = trap 0x23 (w64 (laneMask l 2))) ∧
  (on 8 = 0 → on 4 = 0 → on 2 = 0 → on 1 ≠ 0 → setFlags s l = trap 0x24 (w64 (laneMask l 1))) ∧
  (on 8 = 0 → on 4 = 0 → on 2 = 0 → on 1 = 0 → setFlags s l = .ok (modCur s fun c =>
    { c with fpctl := c.fpctl ||| w64 (allFlags l % 16 * 256) }))

/-- The sequencer (R158 to R162): capture, and one step of a replay. -/
def Obligations.SequencerCapturesAndReplays : Prop :=
  ∀ (g : GReg) (r : SReg) (m : MReg) (n : Fin 16),
  Answers (.vseq g n) (fun t => goesOn (modCur t fun c =>
    { c with seqr := some ⟨[], n.val + 1, (rg t g).toNat % 2 ^ 32, none, 0, false, false⟩ })) ∧
  AnswersIf (.vseqS r n) (fun t => (streamOf (opCtx t) (Fin.ofNat 32 r.val)).isSome = true) (fun t => goesOn (modCur t fun c =>
    { c with seqr := some ⟨[], n.val + 1, 0, some r, 0, false, false⟩ })) ∧
  RaisesIf (.vseqS r n) (fun t => streamOf (opCtx t) (Fin.ofNat 32 r.val) = none) 0x0C (fun _ => w64 (5 + r.val * 256)) ∧
  Answers (.vseqStop m) goesOn ∧ Answers .anop goesOn ∧
  ∀ (s u : State) (k : CtxKey) (q : Seqr) (i : Instr) (pc : Nat) (e : Effect) (d : Done),
    (getCtx s k).seqr = some q → q.capture = 0 → q.stop = false → q.faulted = false → (getCtx s k).killed = false →
    q.streamEnded (getCtx s k) = false → q.body[q.at_]? = some (i, pc) → seqEffect i = some e →
    (∀ a, i ≠ .vseqStop a) →
    presence { s with cur := k, latch := none } (form i).gr = .ok () →
    flightCheck (form i) { s with cur := k, latch := none } = .ok () →
    writeChecks { s with cur := k, latch := none } (form i).fw.dedup = .ok u →
    readChecks u (form i).fr.dedup = .ok () → e u = .ok d →
    Becomes (.sequencerReplayStep k) s ((form i).fr.dedup.foldl popVec (modCur d.s fun x =>
      { x with p := x.p &&& ~~~ consumed (form i) (getCtx s k), seqr := some (q.past false) }))

/-- The effects of NOP, hints, END, YIELD, FENCE, IFENCE, SNAP and TIME. The value that a read of disciplined time gives is free (log entry 6). -/
def Obligations.SystemInstructionsAnswer : Prop :=
  ∀ (sc : Scope) (d : GReg),
  Answers .nop goesOn ∧ (∀ a b c n, Answers (.hint a b c n) goesOn) ∧
  AnswersIf .endAct (fun t => (opCtx t).depth = 0 ∧ (opCtx t).seqr = none ∧ (opCtx t).cpyOpen = 0 ∧ recruiting t = false)
    (fun t => { s := endActivation t t.cur, ended := !isFw t.cur.agent }) ∧
  AnswersIf .yield (fun t => (opCtx t).depth = 0 ∧ (opCtx t).seqr = none ∧ (opCtx t).cpyOpen = 0 ∧ recruiting t = false ∧
      (opCtx t).spawned = false)
    (fun t =>
      let u := match (opCtx t).queue with
        | some q => modQueue t t.cur.agent q fun x => { x with resume := true, resumeSlate := (opCtx t).slate }
        | none => t
      { s := endActivation u u.cur, ended := !isFw u.cur.agent }) ∧
  (∀ s n k, getCtx (endActivation s ⟨.tile n, k⟩) ⟨.tile n, k⟩ = { Ctx.idle with gen := (getCtx s ⟨.tile n, k⟩).gen }) ∧
  AnswersIf (.fenceRel sc) (fun t => released (startWriteBacks t sc) sc = true) (fun t => goesOn (startWriteBacks t sc)) ∧
  AnswersIf (.fenceAcq sc) (fun t => accessesOut (curCtx t) = false ∧ sinksOut t t.cur = false) (fun t => goesOn (acquireNow t sc)) ∧
  AnswersIf (.fenceAr sc) (fun t => released (startWriteBacks t sc) sc = true)
    (fun t => goesOn (acquireNow (startWriteBacks t sc) sc)) ∧
  Answers (.ifence sc) (fun t => goesOn (modCurCore t fun co =>
    { co with icache := co.icache.filter fun e => !inScope t sc (homeNode t e.1) })) ∧
  AnswersIf (.snap d) (fun t => t.dev.snap.swEn = true ∧ t.dev.snap.held = false)
    (fun t => goesOn (wgSlow (snapshot t 1) d ((t.dev.snap.seq + 1).zeroExtend 64))) ∧
  AnswersIf (.snap d) (fun t => t.dev.snap.swEn = false ∨ t.dev.snap.held = true)
    (fun t => goesOn (wgSlow t d (w64 (2 ^ 63 + t.dev.snap.seq.toNat)))) ∧
  Answers (.time d) (fun t => goesOn (wgSlow (readTime t).2 d (w64 (readTime t).1))) ∧
  Answers (.timeSinceClapper d) (fun t => goesOn (wgSlow (readTime t).2 d (if t.dev.time.fired then
    i64 ((readTime t).1 - (t.dev.time.epochNow + t.dev.time.takeno * t.dev.time.period : Nat)) else 0))) ∧
  Answers (.timeToEgress d) (fun t => goesOn (wgSlow (readTime t).2 d
    (i64 ((t.dev.time.epochNow + t.dev.time.takeno * t.dev.time.period + t.dev.time.egress : Nat) - ((readTime t).1 : Int)))))

/-- SYSCALL and BRK (R346): the context enters its handler. TRET (R344). A sequence that the handler still captures ends with the return by the model's choice (log entry 38). -/
def Obligations.TrapInstructionsAnswer : Prop :=
  (∀ (n : BitVec 10) (s t : State), (opCtx s).quiet = true → (opCtx s).depth = 0 →
  (getCtx s s.cur).inTrap = false → (getCtx s s.cur).tvec ≠ 0 →
  (Ready (form (.syscall n)) s t → exec (.syscall n) s = .next { setCtx s s.cur
    ((getCtx s s.cur).enterTrap 0x3D (n.zeroExtend 64) ((opCtx s).pc + 0) false) with last := .trapped }) ∧
  (Ready (form (.brk n)) s t → exec (.brk n) s = .next { setCtx s s.cur
    ((getCtx s s.cur).enterTrap 0x33 (n.zeroExtend 64) ((opCtx s).pc + 0) false) with last := .trapped })) ∧
  ((∀ b, AnswersIf .tret (fun t => (opCtx t).quiet = true ∧ (opCtx t).inTrap = true ∧ (opCtx t).trap = some b)
    (fun t => jumpsTo (setCtx t t.cur ((opCtx t).leaveTrap b)) ((opCtx t).epc.toNat / 8 * 8))) ∧
  (∀ b, AnswersIf .tret (fun t => (opCtx t).quiet = true ∧ (opCtx t).inTrap = false ∧ (opCtx t).ui = some b)
    (fun t => jumpsTo (setCtx t t.cur ((opCtx t).leaveUi b)) ((opCtx t).uepc.toNat / 8 * 8))) ∧
  (∀ s, absent (form .tret) s = false → (opCtx s).inTrap = false → (opCtx s).inUi = false →
    Raises .tret s 0x03 (w64 (0xA0 * 2 ^ 32))))

/-- Trap entry and the return from it, field by field (R340, R344). -/
def Obligations.TrapEntrySaves : Prop :=
  ∀ (c : Ctx) (code : Nat) (tval : Word) (epc : Nat) (async : Bool),
  let h := c.enterTrap code tval epc async
  (h.cause = w64 (code % 64 + b2n async * 128 + c.depth * 256) ∧ h.epc = w64 epc ∧ h.tval = tval ∧ h.pc = c.tvec.toNat ∧
    h.fpctl = 0 ∧ h.slate = 0 ∧ h.p = BitVec.allOnes 32 ∧ h.a = 0 ∧ h.seqr = none ∧ h.wait = none ∧
    h.st 0 = true ∧ h.st 1 = c.st 0 ∧ h.st 3 = true) ∧
  (∀ i : Nat, i ≠ 0 → i ≠ 1 → i ≠ 3 → h.st i = c.st i) ∧
  (∀ r : Fin 32, 24 ≤ r.val → h.g[r] = 0) ∧ (∀ r : Fin 32, r.val < 24 → h.g[r] = c.g[r]) ∧
  (h.f = c.f ∧ h.m = c.m ∧ h.acc = c.acc ∧ h.asid = c.asid ∧ h.tvec = c.tvec ∧ h.frames = c.frames ∧ h.causes = c.causes ∧
    h.uepc = c.uepc ∧ h.arena = c.arena ∧ h.cpyid = c.cpyid ∧ h.gen = c.gen ∧ h.place = c.place) ∧
  ∃ b, h.trap = some b ∧
    (∀ r : Fin 32, (h.leaveTrap b).g[r] = c.g[r]) ∧ (h.leaveTrap b).p = c.p ∧ (h.leaveTrap b).a = c.a ∧
    (h.leaveTrap b).fpctl = c.fpctl ∧ (h.leaveTrap b).slate = c.slate ∧ (h.leaveTrap b).trap = none ∧
    (h.leaveTrap b).pc = (w64 epc).toNat / 8 * 8 ∧ (h.leaveTrap b).st 0 = c.st 0 ∧ (h.leaveTrap b).st 3 = false ∧
    (h.leaveTrap b).seqr = (if code = 0x26 then Seqr.clear c.seqr else c.seqr) ∧
    (∀ q, c.seqr = some q → code ≠ 0x26 → (h.leaveTrap b).seqr = some q)

/-- SYSR (R49, R347): which register each number names. SYSW (R49, R347): which bits each number writes. -/
def Obligations.SystemRegistersAnswer : Prop :=
  (∀ (d : GReg),
  Answers (.sysr d 0x002#10) (fun t => goesOn (wgSlow t d (w64 (t.dev.time.takeno % 2 ^ 48)))) ∧
  Answers (.sysr d 0x004#10) (fun t => goesOn (wgSlow t d ((opCtx t).cpyid))) ∧
  Answers (.sysr d 0x005#10) (fun t => goesOn (wgSlow t d ((opCtx t).uepc))) ∧
  Answers (.sysr d 0x006#10) (fun t => goesOn (wgSlow t d (w64 ((opCtx t).gateIdx % 256 * 256 + (opCtx t).depth % 8)))) ∧
  Answers (.sysr d 0x008#10) (fun t => goesOn (wgSlow t d ((opCtx t).fpctl))) ∧
  Answers (.sysr d 0x00A#10) (fun t => goesOn (wgSlow t d ((opCtx t).arena))) ∧
  Answers (.sysr d 0x100#10) (fun t => goesOn (wgSlow t d ((opCtx t).cause))) ∧
  Answers (.sysr d 0x101#10) (fun t => goesOn (wgSlow t d ((opCtx t).epc))) ∧
  Answers (.sysr d 0x102#10) (fun t => goesOn (wgSlow t d ((opCtx t).tval))) ∧
  Answers (.sysr d 0x103#10) (fun t => goesOn (wgSlow t d ((opCtx t).tvec))) ∧
  Answers (.sysr d 0x104#10) (fun t => goesOn (wgSlow t d ((opCtx t).status))) ∧
  Answers (.sysr d 0x105#10) (fun t => goesOn (wgSlow t d ((opCtx t).asid.zeroExtend 64))) ∧
  (∀ n : BitVec 10, n.toNat < 0x200 → Answers (.sysr d n) (fun t => goesOn (wgSlow (readSys t n.toNat).2 d (readSys t n.toNat).1))) ∧
  (∀ n : BitVec 10, 0x200 ≤ n.toNat → Answers (.sysr d n) (fun t =>
    goesOn (wgSlow (readDev t (agentNo t.cur.agent) n.toNat).2 d (readDev t (agentNo t.cur.agent) n.toNat).1))) ∧
  (∀ (n : Nat) (t : State), (n = 0x00B ∨ (0x106 ≤ n ∧ n < 0x120) ∨ (0x149 ≤ n ∧ n < 0x200)) → readSys t n = (0, t))) ∧
  (∀ (a : GReg),
  Answers (.sysw 0x005#10 a) (fun t => let v := rg t a; goesOn (modCur t fun c => { c with uepc := v &&& 0xFFFFFFFFFFFF#64 })) ∧
  Answers (.sysw 0x008#10 a) (fun t => let v := rg t a; goesOn (modCur t fun c => { c with fpctl := fpWrite c.fpctl v })) ∧
  Answers (.sysw 0x100#10 a) (fun t => let v := rg t a; goesOn (modCur t fun c => { c with cause := v &&& 0x7BF#64 })) ∧
  Answers (.sysw 0x101#10 a) (fun t => let v := rg t a; goesOn (modCur t fun c => { c with epc := v })) ∧
  Answers (.sysw 0x102#10 a) (fun t => let v := rg t a; goesOn (modCur t fun c => { c with tval := v })) ∧
  Answers (.sysw 0x103#10 a) (fun t => let v := rg t a; goesOn (modCur t fun c => { c with tvec := v &&& 0xFFFFFFFFFFF8#64 })) ∧
  Answers (.sysw 0x104#10 a) (fun t => let v := rg t a; goesOn (modCur t fun c => { c with status := statusWrite c.status v })) ∧
  Answers (.sysw 0x105#10 a) (fun t => let v := rg t a; goesOn (modCur t fun c => { c with asid := v.truncate 12 })) ∧
  (∀ n : BitVec 10, n.toNat < 0x200 → Answers (.sysw n a) (fun t => goesOn (writeSys t n.toNat (rg t a)))) ∧
  (∀ n : BitVec 10, n.toNat ∈ [0, 1, 2, 3, 4, 6, 7, 9, 10] → Answers (.sysw n a) goesOn) ∧
  (∀ (n : BitVec 10) (s t u : State), 0x200 ≤ n.toNat → Ready (form (.sysw n a)) s t →
    writeDev t (agentNo t.cur.agent) n.toNat (rg t a) = .ok u → Commits (.sysw n a) s (goesOn u)) ∧
  (∀ (n : Nat) (t : State) (k : Nat) (v : Word), n ≠ 0x30C →
    (t.dev.dom.switch = none ∨ ¬((0x200 ≤ n ∧ n ≤ 0x210) ∨ (0x220 ≤ n ∧ n < 0x23E))) → ∃ u, writeDev t k n v = .ok u) ∧
  (∀ (old v : Word) (i : Nat), i < 64 → (statusWrite old v).getLsbD i =
    if 8 ≤ i ∧ i < 12 then v.getLsbD i else old.getLsbD i && !(i == 15 && v.getLsbD 15)))

/-- GATE and GRET (R349 to R351), and the resident allocator behind gate 255 (R356). A callee's sequence ends with it by the model's choice (log entry 131). -/
def Obligations.GatesAnswer : Prop :=
  ∀ (d : GReg),
  (∀ (i : Nat) (t : State) (s : State) (n : BitVec 10), n.toNat = i → i < 255 → Ready (form (.gate d n)) s t →
    d ≠ 0 → (d.val < 4 ∨ 11 < d.val) → (aget Gate.off i t.dev.gates).valid = true → gateAdmits t (aget Gate.off i t.dev.gates) = true →
    (opCtx t).depth < 4 → (opCtx t).inTrap = false → (opCtx t).inUi = false →
    (∀ k < (aget Gate.off i t.dev.gates).narg, argReason t (aget Gate.off i t.dev.gates).akind k = 0) →
    (opCtx t).streams = [] → (opCtx t).ports = [] → (opCtx t).a &&& 0xFFFE#32 = 0 → (opCtx t).seqr = none → (opCtx t).quiet = true →
    sinksOut t t.cur = false → framesHeld t t.cur.agent < 4 → (aget Gate.off i t.dev.gates).handler % 8 = 0 →
    released (startWriteBacks t .core) .core = true →
    Commits (.gate d n) s (jumpsTo (modCur (elapse (acquireNow (startWriteBacks t .core) .core)) fun c => enterGate c d i (aget Gate.off i t.dev.gates))
      (aget Gate.off i t.dev.gates).handler)) ∧
  (∀ (t v : State) (s : State) (x : Word), Ready (form (.gate d 255)) s t →
    d ≠ 0 → (d.val < 4 ∨ 11 < d.val) → (aget Gate.off 255 t.dev.gates).valid = true → gateAdmits t (aget Gate.off 255 t.dev.gates) = true →
    (opCtx t).depth < 4 → (opCtx t).inTrap = false → (opCtx t).inUi = false →
    (∀ k < (aget Gate.off 255 t.dev.gates).narg, argReason t (aget Gate.off 255 t.dev.gates).akind k = 0) →
    (opCtx t).streams = [] → (opCtx t).ports = [] → (opCtx t).a &&& 0xFFFE#32 = 0 → (opCtx t).seqr = none → (opCtx t).quiet = true →
    sinksOut t t.cur = false → framesHeld t t.cur.agent < 4 → released (startWriteBacks t .core) .core = true →
    arenaCall (acquireNow (startWriteBacks t .core) .core) = .ok (v, x) →
    Commits (.gate d 255) s (goesOn (modCur v fun c => afterArena c d x))) ∧
  (∀ (n : BitVec 10), n.toNat ≤ 255 → d ≠ 0 → (d.val < 4 ∨ 11 < d.val) →
    RaisesIf (.gate d n) (fun t => (aget Gate.off n.toNat t.dev.gates).valid = false) 0x14 (fun _ => w64 (1 + n.toNat * 256))) ∧
  (∀ (f : GateFrame) (l : List GateFrame) (s t : State), Ready (form .gret) s t → (opCtx t).frames = f :: l → replaying (opCtx t) = false →
    (opCtx t).quiet = true → sinksOut t t.cur = false → released (startWriteBacks t .core) .core = true →
    Commits .gret s (jumpsTo (modCur (acquireNow (startWriteBacks t .core) .core) fun c => leaveGate c f l) f.ret)) ∧
  RaisesIf .gret (fun t => (opCtx t).frames = []) 0x14 (fun _ => 4) ∧
  (∀ (c : Ctx) (i : Nat) (e : Gate), e.narg ≤ 8 →
    let h := enterGate c d i e
    h.frames = gateFrame c d i e.nret :: c.frames ∧ h.asid = e.asid ∧ h.st 0 = e.level ∧ h.fpctl = 0 ∧ h.p = BitVec.allOnes 32 ∧
    h.a = 0 ∧ h.f = Vector.replicate 32 0 ∧ h.m = Vector.replicate 8 0 ∧ h.actLeft = Nat.min c.actLeft e.budget ∧ h.slate = c.slate ∧
    h.g[(1 : GReg)] = w64 (c.asid.toNat + b2n (c.st 0) * 2 ^ 12 + (c.depth + 1) * 2 ^ 16 + i * 2 ^ 20) ∧ h.g[(2 : GReg)] = c.slate ∧
    (∀ k < e.narg, h.g[Fin.ofNat 32 (4 + k)] = c.g[Fin.ofNat 32 (4 + k)]) ∧
    (∀ r : Fin 32, (r = 0 ∨ r = 3 ∨ 4 + e.narg ≤ r.val) → h.g[r] = 0) ∧
    let b := leaveGate h (gateFrame c d i e.nret) c.frames
    b.frames = c.frames ∧ b.asid = c.asid ∧ b.status = c.status ∧ b.fpctl = c.fpctl ∧ b.slate = c.slate ∧ b.m = c.m ∧
    b.pc = (c.pc + 8) % 2 ^ 64 ∧ b.actLeft = c.actLeft ∧ b.inGrace = c.inGrace ∧ b.seqr = none ∧ b.f = Vector.replicate 32 0 ∧ (d ≠ 0 → b.g[d] = 0) ∧
    (∀ r : Fin 32, 16 ≤ r.val → r ≠ d → b.g[r] = c.g[r] ∧ b.p.getLsbD r.val = c.p.getLsbD r.val ∧ b.a.getLsbD r.val = c.a.getLsbD r.val) ∧
    (∀ r : Fin 32, 1 ≤ r.val → r.val < 16 → b.p.getLsbD r.val = true ∧ b.a.getLsbD r.val = false ∧
      (e.nret ≤ 8 → (r.val < 4 ∨ 4 + e.nret ≤ r.val) → b.g[r] = 0)) ∧
    (∀ k < e.nret, e.nret ≤ 8 → d ≠ Fin.ofNat 32 (4 + k) → b.g[Fin.ofNat 32 (4 + k)] = h.g[Fin.ofNat 32 (4 + k)]))

/-- SLATE and SLCHK (R323, R324). -/
def Obligations.SlateInstructionsAnswer : Prop :=
  ∀ (d a : GReg),
  Answers (.slateMin d a) (fun t => goesOn (wg (setSlate t (oldest t (opCtx t).slate (rg t a))) d (oldest t (opCtx t).slate (rg t a)))) ∧
  AnswersIf (.slateSet d a) (fun t => rg t a = 0) (fun t => goesOn (wg (setSlate t 0) d (opCtx t).slate)) ∧
  AnswersIf (.slateSet d a) (fun t => rg t a ≠ 0 ∧ (rg t a).toNat / 2 ^ 16 ≤ takeNo t)
    (fun t => goesOn (wg (setSlate t (stampMember t (rg t a))) d (opCtx t).slate)) ∧
  RaisesIf (.slateSet d a) (fun t => rg t a ≠ 0 ∧ takeNo t < (rg t a).toNat / 2 ^ 16) 0x18 (fun _ => 1) ∧
  Answers (.slateRd d) (fun t => goesOn (wg t d (opCtx t).slate)) ∧
  (∀ h r, AnswersIf (.slateRgn d a) (fun t => findRegion (curCore t) (opCtx t).launch ((rg t a).toNat % 64) = some (h, r)) (fun t => goesOn (wgSlow (modRegion t t.cur.agent h fun x => { x with slate := (opCtx t).slate }) d r.slate))) ∧
  (∀ h r, AnswersIf (.slateFold d a) (fun t => findRegion (curCore t) (opCtx t).launch ((rg t a).toNat % 64) = some (h, r)) (fun t => goesOn (wgSlow (setSlate t (oldest t (opCtx t).slate r.slate)) d (oldest t (opCtx t).slate r.slate)))) ∧
  (∀ h r, AnswersIf (.slchk d a) (fun t => findRegion (curCore t) (opCtx t).launch ((rg t a).toNat % 64) = some (h, r) ∧ r.slate = 0) (fun t => goesOn (wgSlow t d (w64 (2 ^ 62))))) ∧
  (∀ h r, AnswersIf (.slchk d a) (fun t => findRegion (curCore t) (opCtx t).launch ((rg t a).toNat % 64) = some (h, r) ∧ r.slate ≠ 0 ∧
      (r.maxage = 255 ∨ slateAge t r.slate ≤ r.maxage)) (fun t => goesOn (wgSlow t d (w64 (slateAge t r.slate))))) ∧
  (∀ h r, AnswersIf (.slchkTrap d a) (fun t => findRegion (curCore t) (opCtx t).launch ((rg t a).toNat % 64) = some (h, r) ∧ r.slate = 0) (fun t => goesOn (wgSlow t d (w64 (2 ^ 62))))) ∧
  (∀ h r, AnswersIf (.slchkTrap d a) (fun t => findRegion (curCore t) (opCtx t).launch ((rg t a).toNat % 64) = some (h, r) ∧ r.slate ≠ 0 ∧
      (r.maxage = 255 ∨ slateAge t r.slate ≤ r.maxage)) (fun t => goesOn (wgSlow t d (w64 (slateAge t r.slate))))) ∧
  (∀ (h : Nat) (r : Region) (s t : State), Ready (form (.slchk d a)) s t → findRegion (curCore t) (opCtx t).launch ((rg t a).toNat % 64) = some (h, r) → r.slate ≠ 0 → r.maxage ≠ 255 →
    r.maxage < slateAge t r.slate →
    let u := modRegion t t.cur.agent h Region.countStale
    let u := if r.ask then raiseFw (record u 0x17 (agentNo t.cur.agent) [(w64 ((rg t a).toNat % 64 + agentNo t.cur.agent % 2 ^ 11 * 2 ^ 6 + r.slate.toNat % 2 ^ 47 * 2 ^ 17)).toNat]) (logCore u) 0x17 (w64 ((rg t a).toNat % 64 + agentNo t.cur.agent % 2 ^ 11 * 2 ^ 6 + r.slate.toNat % 2 ^ 47 * 2 ^ 17)) t.cur.agent else u
    let m : Message := ⟨r.stype, r.stype, r.slate, 0, [w64 (localAddr (agentNo t.cur.agent) r.base), w64 ((rg t a).toNat % 64)],
      nodeOf t.cur.agent, (opCtx u).launch, none⟩
    (r.sinken = false → Commits (.slchk d a) s (goesOn (wgSlow u d (w64 (2 ^ 63 + slateAge t r.slate))))) ∧
    (∀ v, r.sinken = true → placeMsg u t.cur.agent m = .done v →
      Commits (.slchk d a) s (goesOn (wgSlow v d (w64 (2 ^ 63 + slateAge t r.slate))))) ∧
    (r.sinken = true → placeMsg u t.cur.agent m = .unmatched →
      Commits (.slchk d a) s (goesOn (wgSlow (record u 0x17 (agentNo t.cur.agent) [(rg t a).toNat % 64]) d
        (w64 (2 ^ 63 + slateAge t r.slate)))))) ∧
  (∀ h r, RaisesIf (.slchkTrap d a) (fun t => findRegion (curCore t) (opCtx t).launch ((rg t a).toNat % 64) = some (h, r) ∧ r.slate ≠ 0 ∧ r.maxage ≠ 255 ∧ r.maxage < slateAge t r.slate)
    0x17 (fun t => w64 ((rg t a).toNat % 64 + agentNo t.cur.agent % 2 ^ 11 * 2 ^ 6 + r.slate.toNat % 2 ^ 47 * 2 ^ 17))) ∧
  RaisesIf (.slateRgn d a) (fun t => findRegion (curCore t) (opCtx t).launch ((rg t a).toNat % 64) = none) 0x18 (fun t => w64 (2 + (rg t a).toNat % 64 * 256)) ∧
  RaisesIf (.slateFold d a) (fun t => findRegion (curCore t) (opCtx t).launch ((rg t a).toNat % 64) = none) 0x18 (fun t => w64 (2 + (rg t a).toNat % 64 * 256)) ∧
  RaisesIf (.slchk d a) (fun t => findRegion (curCore t) (opCtx t).launch ((rg t a).toNat % 64) = none) 0x18 (fun t => w64 (2 + (rg t a).toNat % 64 * 256)) ∧
  RaisesIf (.slchkTrap d a) (fun t => findRegion (curCore t) (opCtx t).launch ((rg t a).toNat % 64) = none) 0x18 (fun t => w64 (2 + (rg t a).toNat % 64 * 256))

/-- R320: Oldest, and that its folds depend on no order. -/
def Obligations.OldestSlate : Prop :=
  ∀ (s : State) (x y : Word), oldest s 0 y = y ∧ oldest s x 0 = x ∧
  (x ≠ 0 → y ≠ 0 → x.toNat / 256 < y.toNat / 256 → oldest s x y = stampMember s x ∧ oldest s y x = stampMember s x) ∧
  (x ≠ 0 → y ≠ 0 → x.toNat / 256 = y.toNat / 256 → x.toNat % 128 < y.toNat % 128 →
    oldest s x y = stampMember s x ∧ oldest s y x = stampMember s x) ∧
  (stampMember s x).getLsbD 7 = memberBit s ∧ (∀ i, i ≠ 7 → (stampMember s x).getLsbD i = x.getLsbD i) ∧
  (x ≠ 0 → y ≠ 0 → x.toNat / 256 = y.toNat / 256 → x.toNat % 128 = y.toNat % 128 → oldest s x y = stampMember s x) ∧
  oldest s x y = oldest s y x ∧
  (∀ l k : List Word, l.Perm k → (∀ z ∈ l, slateOk z) → l.foldl (oldest s) 0 = k.foldl (oldest s) 0) ∧
  (∀ (r : State) (l : List Word), (∀ z ∈ l, slateOk z) → sameSlate (l.foldl (oldest s) 0) (l.foldl (oldest r) 0))

/-- Privilege (R41, R49) and absent units (R40): the first fault of a word. -/
def Obligations.PrivilegeAndAbsenceFault : Prop :=
  (∀ (d a b : GReg) (n : BitVec 10) (s : State) (code : Nat), ∀ i ∈ [Instr.tret, .snap d, .sysr d n, .sysw n a, .kill d a, .invpg d a b],
    wordFault (form i) s = some code → Raises i s code (encTval (form i).word 0 false)) ∧
  (∀ (i : Instr) (s : State) (code : Nat), (form i).major ∈ [0x19, 0x1A, 0x1B, 0x1C, 0x1D, 0x1E, 0x1F, 0x31, 0x32, 0x33, 0x34] →
    wordFault (form i) s = some code → Raises i s code (encTval (form i).word 0 false)) ∧
  (∀ (i : Instr) (s : State),
    ((form i).major ∈ [0x19, 0x1A, 0x1B, 0x1C, 0x1D] → isFw s.cur.agent = true → wordFault (form i) s = some 0x04) ∧
    ((form i).major ∈ [0x1E, 0x1F, 0x34] → roleOf s.cur.agent ≠ 0 → wordFault (form i) s = some 0x04) ∧
    ((form i).major = 0x31 → roleOf s.cur.agent ≠ 1 → wordFault (form i) s = some 0x04) ∧
    ((form i).major ∈ [0x32, 0x33] → roleOf s.cur.agent ≠ 2 → wordFault (form i) s = some 0x04) ∧
    ((opCtx s).depth = 0 → roleOf s.cur.agent ≠ 3 → (form i).major ∉ [0x1E, 0x1F, 0x31, 0x32, 0x33, 0x34] →
      wordFault (form i) s ≠ some 0x04)) ∧
  ∀ (d a b : GReg) (n : BitVec 10) (s : State), (opCtx s).depth = 0 →
    (wordFault (form .tret) s = some 0x03 ↔ (opCtx s).inTrap = false ∧ (opCtx s).inUi = false) ∧
    (wordFault (form (.snap d)) s = some 0x03 ↔ curLevel s = 0) ∧
    (wordFault (form (.kill d a)) s = some 0x03 ↔ curLevel s = 0) ∧
    (wordFault (form (.invpg d a b)) s = some 0x03 ↔ ¬(s.cur.agent = .fw 3 ∧ curLevel s = 2)) ∧
    (wordFault (form (.sysr d n)) s = some 0x03 ↔
      (curLevel s = 0 ∧ 0x100 ≤ n.toNat) ∨ (curLevel s = 1 ∧ 0x200 ≤ n.toNat)) ∧
    (wordFault (form (.sysw n a)) s = some 0x03 ↔
      (curLevel s = 0 ∧ n ≠ 5 ∧ n ≠ 8) ∨ (curLevel s = 1 ∧ 0x200 ≤ n.toNat)) ∧
    (wordFault (form (.cpyStat d a false)) s = some 0x04 ↔ roleOf s.cur.agent ≠ 0)

/-- The MSG family's sending forms (R243 to R245, R247). -/
def Obligations.SendingAnswers : Prop :=
  ∀ (d a b : GReg) (n : BitVec 4) (r : Fin 32) (k : Nat),
  AnswersIf (.send a b n) (fun t => destOk t (rg t a) ∧ bits (rg t a).toNat 31 16 < 0xFFFE ∧ payloadOk b n ∧ sendRoom t 0 ∧ freeEntry (curCore t).journal = some k)
    (fun t => goesOn (holdPkt (posted (sendSlot t 0) k (.core ((rg t a).toNat % 2 ^ 11)) 0 (.message (mkMsg t (bits (rg t a).toNat 31 16) (bits (rg t a).toNat 31 16) 0 (payloadOf t b n.toNat)) none (some k))) 0)) ∧
  AnswersIf (.sendq a b n) (fun t => destOk t (rg t a) ∧ bits (rg t a).toNat 31 16 < 0xFFFE ∧ payloadOk b n ∧ sendRoom t 0 ∧ freeEntry (curCore t).journal = some k)
    (fun t => goesOn (holdPkt (posted (sendSlot t 0) k (.core ((rg t a).toNat % 2 ^ 11)) 0 (.message (mkMsg t (bits (rg t a).toNat 31 16) (bits (rg t a).toNat 31 16) 0 (payloadOf t b n.toNat)) none (some k))) 0)) ∧
  AnswersIf (.cut a) (fun t => destOk t (rg t a) ∧ bits (rg t a).toNat 31 16 < 0xFFFE ∧ sendRoom t 0 ∧ freeEntry (curCore t).journal = some k)
    (fun t => goesOn (holdPkt (posted (sendSlot t 0) k (.core ((rg t a).toNat % 2 ^ 11)) 0 (.message (mkMsg t (0xFFFE) (bits (rg t a).toNat 31 16) 0 ([])) none (some k))) 0)) ∧
  AnswersIf (.sendr a b r) (fun t => destOk t (rg t a) ∧ sendRoom t 0 ∧ freeEntry (curCore t).journal = some k)
    (fun t => goesOn (holdPkt (posted (sendSlot t 0) k (.core ((rg t a).toNat % 2 ^ 11)) 0 (.deposit ⟨bits (rg t a).toNat 21 16,
      BitVec.ofNat 16 (bits (rg t a).toNat 47 32), r, rg t b, agentNo t.cur.agent⟩ (curWho (sendSlot t 0) 0) (some k))) 0)) ∧
  AnswersIf (.reply a b) (fun t => bit (rg t a).toNat 63 = false) goesOn ∧
  AnswersIf (.reply a b) (fun t => bit (rg t a).toNat 63 = true ∧ sendRoom t 1)
    (fun t => goesOn (holdPkt (sendPkt (sendSlot t 1) (nodeOf t.cur.agent) (.core ((rg t a).toNat % 2 ^ 11)) 1 (.sinkReply (bits (rg t a).toNat 23 20)
      (BitVec.ofNat 16 (bits (rg t a).toNat 47 32)) (rg t b))) 1)) ∧
  AnswersIf (.replyQ a b) (fun t => bit (rg t a).toNat 63 = false) goesOn ∧
  AnswersIf (.replyQ a b) (fun t => bit (rg t a).toNat 63 = true ∧ sendRoom t 1)
    (fun t => goesOn (holdPkt (sendPkt (sendSlot t 1) (nodeOf t.cur.agent) (.core ((rg t a).toNat % 2 ^ 11)) 1 (.sinkReply (bits (rg t a).toNat 23 20)
      (BitVec.ofNat 16 (bits (rg t a).toNat 47 32)) (rg t b))) 1)) ∧
  AnswersIf (.putn d a b n) (fun t => 0 < n.toNat ∧ payloadOk b n ∧ (rg t a).toNat % 8 = 0 ∧ isLocal (rg t a).toNat = true ∧
      bits (rg t d).toNat 31 16 < 0xFFFE ∧ inLaunch t (opCtx t) (bits (rg t a).toNat 43 33) = true ∧ sendRoom t 0 ∧ freeEntry (curCore t).journal = some k)
    (fun t => goesOn (holdPkt (posted (sendSlot t 0) k (.core (bits (rg t a).toNat 43 33)) (rg t a) (.putn (curWho t 0) (some k) (rg t a).toNat (rg t a)
      (payloadOf t b n.toNat) (mkMsg t (bits (rg t d).toNat 31 16) (bits (rg t d).toNat 31 16) 0 [rg t a, w64 n.toNat]) (opCtx t).launch)) 0)) ∧
  RaisesIf (.send a b n) (fun t => inLaunch t (opCtx t) ((rg t a).toNat % 2 ^ 11) = false) 0x08 (fun t => reason2 ((rg t a).toNat % 2 ^ 11)) ∧
  RaisesIf (.sendq a b n) (fun t => inLaunch t (opCtx t) ((rg t a).toNat % 2 ^ 11) = false) 0x08 (fun t => reason2 ((rg t a).toNat % 2 ^ 11)) ∧
  RaisesIf (.cut a) (fun t => inLaunch t (opCtx t) ((rg t a).toNat % 2 ^ 11) = false) 0x08 (fun t => reason2 ((rg t a).toNat % 2 ^ 11)) ∧
  RaisesIf (.sendr a b r) (fun t => inLaunch t (opCtx t) ((rg t a).toNat % 2 ^ 11) = false) 0x08 (fun t => reason2 ((rg t a).toNat % 2 ^ 11)) ∧
  WaitsIf (.send a b n) (fun t => destOk t (rg t a) ∧ bits (rg t a).toNat 31 16 < 0xFFFE ∧ payloadOk b n ∧ ¬sendRoom t 0) 7 (fun _ => 0) (fun _ => 0x7FF) ∧
  RaisesIf (.sendq a b n) (fun t => destOk t (rg t a) ∧ bits (rg t a).toNat 31 16 < 0xFFFE ∧ payloadOk b n ∧ ¬sendRoom t 0) 0x0E (fun _ => 0)

/-- GETR (R246), QPOP and QPEEK (R248) with their record (Table 10.8), and QSTAT (R249). -/
def Obligations.ReceivingAnswers : Prop :=
  ∀ (d a b : GReg),
  (∀ x : Fin 16, d ≠ 0 → AnswersIf (.getr d a b) (fun t => destOk t (rg t a) ∧ bits (rg t a).toNat 31 16 < 0xFFFE ∧ getrHold t d = .ok () ∧
      freeSink (curCore t) = some x ∧ sendRoom t 0)
    (fun t =>
      let gen := ((curCore t).sinks[x]).gen + 1
      let token : Word := w64 (2 ^ 63 + gen.toNat * 2 ^ 32 + x.val * 2 ^ 20 + agentNo t.cur.agent % 2 ^ 11)
      let u := sendSlot t 0
      let u := modCurCore u fun co => { co with sinks := co.sinks.set x ⟨gen, some (curWho t 0, d), ((rg t a).toNat % 2 ^ 11), none⟩ }
      goesOn (setBits (holdPkt (sendPkt u (nodeOf t.cur.agent) (.core ((rg t a).toNat % 2 ^ 11)) 0
        (.message (mkMsg t (bits (rg t a).toNat 31 16) (bits (rg t a).toNat 31 16) token [rg t b]) (some (curWho t 0)) none)) 0) d false true))) ∧
  (d ≠ 0 → WaitsIf (.getr d a b) (fun t => destOk t (rg t a) ∧ bits (rg t a).toNat 31 16 < 0xFFFE ∧ getrHold t d = .ok () ∧ freeSink (curCore t) = none)
    6 (fun _ => 0) (fun t => ((rg t a).toNat % 2 ^ 11))) ∧
  AnswersIf (.getrArm d) (fun t => getrHold t d = .ok ()) (fun t => goesOn (setBits t d false true)) ∧
  AnswersIf (.getrDis d) (fun t => getrHold t d = .ok ()) (fun t => goesOn (setBits t d true false)) ∧
  AnswersIf (.qpop d a b) (fun t => ((curCore t).queues[(Fin.ofNat 64 (rg t a).toNat)]).valid = false ∨ ((curCore t).queues[(Fin.ofNat 64 (rg t a).toNat)]).launch ≠ (opCtx t).launch)
    (fun t => goesOn (wgSlow t d 1)) ∧
  AnswersIf (.qpop d a b) (fun t => ((curCore t).queues[(Fin.ofNat 64 (rg t a).toNat)]).valid = true ∧ ((curCore t).queues[(Fin.ofNat 64 (rg t a).toNat)]).launch = (opCtx t).launch ∧
      ((curCore (readyQueue t t.cur.agent (Fin.ofNat 64 (rg t a).toNat))).queues[(Fin.ofNat 64 (rg t a).toNat)]).msgs = [])
    (fun t => goesOn (wgSlow (readyQueue t t.cur.agent (Fin.ofNat 64 (rg t a).toNat)) d 0)) ∧
  (∀ (s t u : State) (q : Fin 64) (msg : Message) (l : List Message) (off : Nat), Ready (form (.qpop d a b)) s t → q = (Fin.ofNat 64 (rg t a).toNat) →
    ((curCore t).queues[q]).valid = true → ((curCore t).queues[q]).launch = (opCtx t).launch →
    let r := readyQueue t t.cur.agent q
    ((curCore r).queues[q]).msgs = msg :: l → staleHead r ((curCore r).queues[q]) = false → (rg t b).toNat % 8 = 0 →
    resolveCur r (rg t b) 1 .wr = .ok (u, .own off) → ownCheck u (rg t b) off 88 true = .ok () →
    let w := homeWrite u (localAddr (agentNo t.cur.agent) off) (msgRecord q msg) 0 (writerNo t.cur.agent) (some (curWho u 0))
    Commits (.qpop d a b) s (goesOn (wgSlow (dropHead w t.cur.agent q) d (w64 (2 ^ 63 + q.val * 2 ^ 20 + msg.payload.length % 16 * 2 ^ 16 + msg.ty.toNat))))) ∧
  AnswersIf (.qpeek d a b) (fun t => ((curCore t).queues[(Fin.ofNat 64 (rg t a).toNat)]).valid = false ∨ ((curCore t).queues[(Fin.ofNat 64 (rg t a).toNat)]).launch ≠ (opCtx t).launch)
    (fun t => goesOn (wgSlow t d 1)) ∧
  AnswersIf (.qpeek d a b) (fun t => ((curCore t).queues[(Fin.ofNat 64 (rg t a).toNat)]).valid = true ∧ ((curCore t).queues[(Fin.ofNat 64 (rg t a).toNat)]).launch = (opCtx t).launch ∧
      ((curCore (readyQueue t t.cur.agent (Fin.ofNat 64 (rg t a).toNat))).queues[(Fin.ofNat 64 (rg t a).toNat)]).msgs = [])
    (fun t => goesOn (wgSlow (readyQueue t t.cur.agent (Fin.ofNat 64 (rg t a).toNat)) d 0)) ∧
  (∀ (s t u : State) (q : Fin 64) (msg : Message) (l : List Message) (off : Nat), Ready (form (.qpeek d a b)) s t → q = (Fin.ofNat 64 (rg t a).toNat) →
    ((curCore t).queues[q]).valid = true → ((curCore t).queues[q]).launch = (opCtx t).launch →
    let r := readyQueue t t.cur.agent q
    ((curCore r).queues[q]).msgs = msg :: l → staleHead r ((curCore r).queues[q]) = false → (rg t b).toNat % 8 = 0 →
    resolveCur r (rg t b) 1 .wr = .ok (u, .own off) → ownCheck u (rg t b) off 88 true = .ok () →
    let w := homeWrite u (localAddr (agentNo t.cur.agent) off) (msgRecord q msg) 0 (writerNo t.cur.agent) (some (curWho u 0))
    Commits (.qpeek d a b) s (goesOn (wgSlow (w) d (w64 (2 ^ 63 + q.val * 2 ^ 20 + msg.payload.length % 16 * 2 ^ 16 + msg.ty.toNat))))) ∧
  Answers (.qstat d a) (fun t => goesOn (wgSlow t d (queueStatus t (Fin.ofNat 64 (rg t a).toNat)))) ∧
  AnswersIf (.qstatClr d a) (fun t => ((curCore t).queues[(Fin.ofNat 64 (rg t a).toNat)]).valid = true ∧ ((curCore t).queues[(Fin.ofNat 64 (rg t a).toNat)]).launch = (opCtx t).launch)
    (fun t => goesOn (wgSlow (modQueue t t.cur.agent (Fin.ofNat 64 (rg t a).toNat) fun x => { x with stalecnt := 0 }) d (queueStatus t (Fin.ofNat 64 (rg t a).toNat)))) ∧
  AnswersIf (.qstatClr d a) (fun t => ((curCore t).queues[(Fin.ofNat 64 (rg t a).toNat)]).valid = false ∨ ((curCore t).queues[(Fin.ofNat 64 (rg t a).toNat)]).launch ≠ (opCtx t).launch)
    (fun t => goesOn (wgSlow t d 0)) ∧
  (∀ (q : Fin 64) (msg : Message), (msgRecord q msg).length = 88 ∧ natOf ((msgRecord q msg).take 8) =
      msg.ty.toNat + msg.payload.length % 16 * 2 ^ 16 + q.val * 2 ^ 20 ∧
    natOf (((msgRecord q msg).drop 8).take 8) = msg.slate.toNat ∧ natOf (((msgRecord q msg).drop 16).take 8) = msg.token.toNat ∧
    ∀ j < 8, natOf (((msgRecord q msg).drop (24 + 8 * j)).take 8) = (msg.payload[j]?.getD 0).toNat)

/-- The SCHED family (R90 to R102). The model's choices: a raise by BUDGET.ACT ends the grace (log entry 58), JOIN.OPEN of an open cell reports that before a misaligned RBASE (log entry 126), a misaligned start address comes before the exit of FORK.R with no iterations (log entry 139), and the cycles that elapse are free (log entry 5). KILL (R352) and INVPG (R353). -/
def Obligations.SchedulingAndKillAnswer : Prop :=
  (∀ (d j a b : GReg) (n : Fin 32),
  (∀ (s t : State), Ready (form (.spawn j a b n)) s t → (rg t b).toNat % 8 = 0 → (j ≠ 0 → n.val ≤ 30) → (rg t a).toNat % 4 ≠ 3 →
    (bit (rg t a).toNat 63 = false → inLaunch t (opCtx t) ((rg t a).toNat % 2 ^ 11) = true) →
    (bit (rg t a).toNat 63 = true → ∃ l, launchOf t (opCtx t) = some l ∧ roleCores l ((rg t a).toNat % 4) ≠ []) →
    recruiting t = false → sendRoom t 3 → (j ≠ 0 → t.cur.agent = .tile (jwOwner (rg t j)) ∧ (getCell (curCore t) (jwCell (rg t j))).isOpen = true ∧
      opened (jwOwner (rg t j)) (getCell (curCore t) (jwCell (rg t j))) (curWho t 0) = true ∧ (getCell (curCore t) (jwCell (rg t j))).spawned < 65535) →
    ∃ u x, Commits (.spawn j a b n) s (goesOn u) ∧ (curCtx u).spawnCount = (curCtx t).spawnCount + 1 ∧
      (curCore u).spawnOut = (curCore t).spawnOut ++ [x] ∧
      x.target = (if bit (rg t a).toNat 63 = false then some ((rg t a).toNat % 2 ^ 11)
        else if isDet t = true then some (detCore t (opCtx t).launch ((rg t a).toNat % 4) x.child.path) else none) ∧
      x.role = (rg t a).toNat % 4 ∧ x.sent = false ∧
      x.child.pc = (rg t b).toNat ∧ x.child.pri = (opCtx t).pri ∧ x.child.asid = (opCtx t).asid ∧ x.child.launch = (opCtx t).launch ∧
      x.child.slate = (opCtx t).slate ∧ x.child.path = cmix32 ((opCtx t).spawnCount + 1) (opCtx t).path ∧
      (∀ i < 30, x.child.g[i]? = some (if i < n.val then rg t (Fin.ofNat 32 (i + 1)) else 0)) ∧
      (j = 0 → x.child.g[30]? = some (if 30 < n.val then rg t 31 else 0)) ∧
      (j ≠ 0 → x.child.g[30]? = some (joinWord (jwOwner (rg t j)) (jwCell (rg t j)) (getCell (curCore t) (jwCell (rg t j))).spawned) ∧
        (getCell (curCore u) (jwCell (rg t j))).spawned = (getCell (curCore t) (jwCell (rg t j))).spawned + 1)) ∧
  AnswersIf (.forkR j a b n) (fun t => n.val ≤ 28 ∧ (rg t b).toNat % 8 = 0 ∧ (rg t a).toNat % 2 ^ 32 = 0) goesOn ∧
  (∀ (s t : State), Ready (form (.forkR j a b n)) s t → n.val ≤ 28 → (rg t b).toNat % 8 = 0 → (rg t a).toNat % 2 ^ 32 ≠ 0 →
    recruiting t = false → sendRoom t 3 →
    (j ≠ 0 → t.cur.agent = .tile (jwOwner (rg t j)) ∧ (getCell (curCore t) (jwCell (rg t j))).isOpen = true ∧
      opened (jwOwner (rg t j)) (getCell (curCore t) (jwCell (rg t j))) (curWho t 0) = true ∧ (getCell (curCore t) (jwCell (rg t j))).spawned +
      ((rg t a).toNat % 2 ^ 32 + Nat.max 1 (bits (rg t a).toNat 47 32) - 1) / Nat.max 1 (bits (rg t a).toNat 47 32) ≤ 65535) →
    ∃ u r, Commits (.forkR j a b n) s (goesOn u) ∧ (curCore u).recruits = (curCore t).recruits ++ [r] ∧
      r.trip = (rg t a).toNat % 2 ^ 32 ∧ r.chunk = Nat.max 1 (bits (rg t a).toNat 47 32) ∧
      r.count = ((rg t a).toNat % 2 ^ 32 + r.chunk - 1) / r.chunk ∧ r.word = (if j = 0 then none else some (rg t j)) ∧
      r.template.pc = (rg t b).toNat ∧ r.template.pri = (opCtx t).pri ∧ r.template.asid = (opCtx t).asid ∧
      r.template.launch = (opCtx t).launch ∧ r.template.slate = (opCtx t).slate ∧
      ∀ i < 31, r.template.g[i]? = some (if i < n.val then rg t (Fin.ofNat 32 (i + 1)) else 0)) ∧
  RaisesIf (.spawn j a b n) (fun t => (j ≠ 0 → n.val ≤ 30) ∧ n.val ≤ 28 ∧ (rg t b).toNat % 8 ≠ 0) 0x05 (fun t => rg t b) ∧
  RaisesIf (.forkR j a b n) (fun t => (j ≠ 0 → n.val ≤ 30) ∧ n.val ≤ 28 ∧ (rg t b).toNat % 8 ≠ 0) 0x05 (fun t => rg t b) ∧
  AnswersIf (.joinOpen d a b) (fun t => (getCell (curCore t) ((rg t a).toNat % 256)).isOpen = false ∧
      (bit (rg t b).toNat 20 = true → (rg t b).toNat % 8 = 0))
    (fun t => goesOn (wgSlow (setCell t t.cur.agent ((rg t a).toNat % 256) { Cell.closed with
      isOpen := true, det := isDet t, opener := t.cur.slot, openerGen := (opCtx t).gen, ren := bit (rg t b).toNat 20, rbase := (rg t b).toNat % 2 ^ 20 })
      d (joinWord (agentNo t.cur.agent) ((rg t a).toNat % 256) 0xFFFF))) ∧
  RaisesIf (.joinOpen d a b) (fun t => (getCell (curCore t) ((rg t a).toNat % 256)).isOpen = true) 0x1A
    (fun t => joinTval 3 (joinWord (agentNo t.cur.agent) ((rg t a).toNat % 256) 0xFFFF)) ∧
  (∀ (s t : State) (v : Word), Ready (form (.join d a b)) s t → answered t v → bits v.toNat 39 32 = 0 →
    (bit v.toNat 62 = false → accessesOut (curCtx t) = false → sinksOut t t.cur = false →
      Commits (.join d a b) s (goesOn (wgSlow (acquireNow t .package) d v))) ∧
    (bit v.toNat 62 = true → endCheck t = .ok () → Commits (.join d a b) s { s := endActivation t t.cur, ended := !isFw t.cur.agent })) ∧
  (∀ v, RaisesIf (.join d a b) (fun t => answered t v ∧ bits v.toNat 39 32 ≠ 0) 0x1A (fun t => joinTval (bits v.toNat 39 32) (rg t a))) ∧
  (∀ (s t : State) (v : Word), Ready (form (.joinSeal d a)) s t → answered t v → bits v.toNat 39 32 = 0 →
    (bit v.toNat 62 = false → accessesOut (curCtx t) = false → sinksOut t t.cur = false →
      Commits (.joinSeal d a) s (goesOn (wgSlow (acquireNow t .package) d v))) ∧
    (bit v.toNat 62 = true → endCheck t = .ok () → Commits (.joinSeal d a) s { s := endActivation t t.cur, ended := !isFw t.cur.agent })) ∧
  (∀ v, RaisesIf (.joinSeal d a) (fun t => answered t v ∧ bits v.toNat 39 32 ≠ 0) 0x1A (fun t => joinTval (bits v.toNat 39 32) (rg t a))) ∧
  (∀ (s t : State) (v : Word), Ready (form (.joinWait d a)) s t → answered t v → bits v.toNat 39 32 = 0 →
    (bit v.toNat 62 = false → accessesOut (curCtx t) = false → sinksOut t t.cur = false →
      Commits (.joinWait d a) s (goesOn (wgSlow (acquireNow t .package) d v))) ∧
    (bit v.toNat 62 = true → endCheck t = .ok () → Commits (.joinWait d a) s { s := endActivation t t.cur, ended := !isFw t.cur.agent })) ∧
  (∀ v, RaisesIf (.joinWait d a) (fun t => answered t v ∧ bits v.toNat 39 32 ≠ 0) 0x1A (fun t => joinTval (bits v.toNat 39 32) (rg t a))) ∧
  (∀ (s t : State), Ready (form (.join d a b)) s t → grantOf t = none → inLaunch t (opCtx t) (jwOwner (rg t a)) = true → t.cur.agent = .tile (jwOwner (rg t a)) → recruiting t = false →
    jwIndex (rg t a) ≠ 0xFFFF → let u := startWriteBacks t .package
    released u .package = true → (getCell (curCore u) (jwCell (rg t a))).isOpen = true → (getCell (curCore u) (jwCell (rg t a))).ren = false →
    (getCell (curCore u) (jwCell (rg t a))).arrived + 1 < (getCell (curCore u) (jwCell (rg t a))).spawned → endCheck u = .ok () →
    ∃ v, Commits (.join d a b) s { s := endActivation v v.cur, ended := true } ∧
      getCell (curCore v) (jwCell (rg t a)) = { getCell (curCore u) (jwCell (rg t a)) with
        arrived := (getCell (curCore u) (jwCell (rg t a))).arrived + 1 }) ∧
  (∀ (s t : State), Ready (form (.joinSeal d a)) s t → grantOf t = none → inLaunch t (opCtx t) (jwOwner (rg t a)) = true → t.cur.agent = .tile (jwOwner (rg t a)) → recruiting t = false → (getCell (curCore t) (jwCell (rg t a))).isOpen = true →
    opened (jwOwner (rg t a)) (getCell (curCore t) (jwCell (rg t a))) (curWho t 0) = true →
    accessesOut (curCtx t) = false → sinksOut t t.cur = false →
    (getCell (curCore t) (jwCell (rg t a))).arrived = (getCell (curCore t) (jwCell (rg t a))).spawned →
    ∃ u, Commits (.joinSeal d a) s (goesOn (wgSlow (acquireNow u .package) d (w64 (getCell (curCore t) (jwCell (rg t a))).result))) ∧
      getCell (curCore u) (jwCell (rg t a)) = Cell.closed) ∧
  (∀ (s t : State), Ready (form (.joinWait d a)) s t → grantOf t = none → inLaunch t (opCtx t) (jwOwner (rg t a)) = true → t.cur.agent = .tile (jwOwner (rg t a)) → recruiting t = false → (getCell (curCore t) (jwCell (rg t a))).isOpen = true →
    opened (jwOwner (rg t a)) (getCell (curCore t) (jwCell (rg t a))) (curWho t 0) = true →
    accessesOut (curCtx t) = false → sinksOut t t.cur = false →
    (getCell (curCore t) (jwCell (rg t a))).arrived = (getCell (curCore t) (jwCell (rg t a))).spawned →
    ∃ u, Commits (.joinWait d a) s (goesOn (wgSlow (acquireNow u .package) d (w64 (getCell (curCore t) (jwCell (rg t a))).result))) ∧
      getCell (curCore u) (jwCell (rg t a)) = Cell.closed) ∧
  (∀ (s t : State), Ready (form (.joinSeal d a)) s t → grantOf t = none → inLaunch t (opCtx t) (jwOwner (rg t a)) = true → t.cur.agent = .tile (jwOwner (rg t a)) → recruiting t = false → (getCell (curCore t) (jwCell (rg t a))).isOpen = true →
    opened (jwOwner (rg t a)) (getCell (curCore t) (jwCell (rg t a))) (curWho t 0) = true →
    (getCell (curCore t) (jwCell (rg t a))).arrived ≠ (getCell (curCore t) (jwCell (rg t a))).spawned →
    (getCell (curCore t) (jwCell (rg t a))).det = false → endCheck t = .ok () →
    ∃ u, Commits (.joinSeal d a) s { s := endActivation u u.cur, ended := true } ∧
      getCell (curCore u) (jwCell (rg t a)) = { getCell (curCore t) (jwCell (rg t a)) with sealed := true }) ∧
  AnswersIf (.budgetAct d a) (fun t => curLevel t ≠ 0 ∨
      (Nat.min (rg t a).toNat 0xFFFFFFFF ≤ (curCtx (elapse t)).actLeft ∧ Nat.min (rg t a).toNat 0xFFFFFFFF ≠ 0xFFFFFFFF))
    (fun t => goesOn (wg (modCur (elapse t) fun c => { c with actLeft := Nat.min (rg t a).toNat 0xFFFFFFFF, inGrace := c.inGrace && !decide ((curCtx (elapse t)).actLeft < Nat.min (rg t a).toNat 0xFFFFFFFF) }) d (w64 (curCtx (elapse t)).actLeft))) ∧
  RaisesIf (.budgetAct d a) (fun t => curLevel t = 0 ∧ ((curCtx (elapse t)).actLeft < Nat.min (rg t a).toNat 0xFFFFFFFF ∨ Nat.min (rg t a).toNat 0xFFFFFFFF = 0xFFFFFFFF)) 0x03
    (fun _ => encTval (wP 0x1A d a 0 3 0) 0 false) ∧
  AnswersIf (.budgetTake d a) (fun t => taskOf t (opCtx t) = none) (fun t => goesOn (wg t d 0xFFFFFFFF)) ∧
  (∀ q, AnswersIf (.budgetTake d a) (fun t => taskOf t (opCtx t) = some q ∧
      (curLevel t ≠ 0 ∨ Nat.min (rg t a).toNat 0xFFFFFFFF ≤ ((curCore t).queues[q]).takeLeft))
    (fun t => goesOn (wg (modQueue t t.cur.agent q fun x => { x with
      takeLeft := Nat.min (rg t a).toNat 0xFFFFFFFF, budgetHold := x.budgetHold || Nat.min (rg t a).toNat 0xFFFFFFFF == 0 }) d
      (w64 ((curCore t).queues[q]).takeLeft)))) ∧
  (∀ q, RaisesIf (.budgetTake d a) (fun t => taskOf t (opCtx t) = some q ∧ curLevel t = 0 ∧
      ((curCore t).queues[q]).takeLeft < Nat.min (rg t a).toNat 0xFFFFFFFF) 0x03 (fun _ => encTval (wP 0x1A d a 0 3 1) 0 false))) ∧
  (∀ (d a b : GReg),
  (∀ (t : State), inLaunch t (opCtx t) ((rg t a).toNat % 2 ^ 11) = false → ∀ s, Ready (form (.kill d a)) s t →
    Raises (.kill d a) s 0x08 (reason2 ((rg t a).toNat % 2 ^ 11))) ∧
  AnswersIf (.kill d a) (fun t => inLaunch t (opCtx t) ((rg t a).toNat % 2 ^ 11) = true ∧ t.cur.agent = .tile ((rg t a).toNat % 2 ^ 11) ∧
      bits (rg t a).toNat 21 16 = t.cur.slot ∧ bits (rg t a).toNat 47 32 = (opCtx t).gen.toNat)
    (fun t => { s := killCtx t t.cur, ended := true }) ∧
  AnswersIf (.kill d a) (fun t => inLaunch t (opCtx t) ((rg t a).toNat % 2 ^ 11) = true ∧
      ¬(t.cur.agent = .tile ((rg t a).toNat % 2 ^ 11) ∧ bits (rg t a).toNat 21 16 = t.cur.slot ∧
        bits (rg t a).toNat 47 32 = (opCtx t).gen.toNat))
    (fun t => let r := awaitReg t d
      goesOn (sendPkt r.2 (nodeOf t.cur.agent) (.core ((rg t a).toNat % 2 ^ 11)) 3 (.kill (curWho r.2 r.1) r.1 (rg t a) (bit (rg t a).toNat 63)))) ∧
  AnswersIf (.invpg d a b) (fun t => t.dev.invpg = none)
    (fun t => let r := awaitReg t d
      goesOn (modDev r.2 fun x => { x with invpg := some ⟨curWho r.2 r.1, r.1, (rg t a).toNat, (rg t b).toNat % 2 ^ 12,
        bits (rg t b).toNat 13 12, bit (rg t b).toNat 14⟩ })))

/-- Barriers as their instructions see them (R255 to R259, R267), and GRP.MEM (R268). The completion of a phase (R256) of a barrier of CORE scope, and the pending count (R258). -/
def Obligations.BarriersAnswer : Prop :=
  (∀ (sc : Scope) (d a b : GReg),
  Answers (.grpMem d a) (fun t => goesOn (wgSlow t d (groupRecord t ((rg t a).toNat % 256)))) ∧
  AnswersIf (.barInit a b) (fun t => t.cur.agent = .tile (barOwner (rg t a)) ∧ ((rg t b).toNat % 2 ^ 16 = 0 ∨ bit (rg t b).toNat 16 = false ∨
      ∃ g, memberOf t (bits (rg t b).toNat 31 24) = .ok g) ∧
      ((barOf t (barOwner (rg t a)) (barIdx (rg t a))).live = false ∨ ((barOf t (barOwner (rg t a)) (barIdx (rg t a))).waiters = [] ∧ engineWaits t (barOwner (rg t a)) (barIdx (rg t a)) = false ∧ (barOf t (barOwner (rg t a)) (barIdx (rg t a))).arrived = 0 ∧ (barOf t (barOwner (rg t a)) (barIdx (rg t a))).pend = 0)))
    (fun t => goesOn (putBar t (barOwner (rg t a)) (barIdx (rg t a)) { Barrier.off with
      live := (rg t b).toNat % 2 ^ 16 != 0, scope := bit (rg t b).toNat 16, expect := (rg t b).toNat % 2 ^ 16,
      tag := bits (rg t b).toNat 31 24, launch := (opCtx t).launch, children := (barOf t (barOwner (rg t a)) (barIdx (rg t a))).children, holds := (barOf t (barOwner (rg t a)) (barIdx (rg t a))).holds })) ∧
  (∀ (s t : State), Ready (form (.barArr sc d a)) s t → inLaunch t (opCtx t) (barOwner (rg t a)) = true → released (startWriteBacks t sc) sc = true →
    (t.cur.agent ≠ .tile (barOwner (rg t a)) → Commits (.barArr sc d a) s (goesOn (let r := awaitReg (startWriteBacks t sc) d
      sendBar r.2 (barOwner (rg t a)) (barIdx (rg t a)) (curWho r.2 r.1) (.arrive false)))) ∧
    (t.cur.agent = .tile (barOwner (rg t a)) →
      let r := awaitReg (startWriteBacks t sc) d
      let x := barOf r.2 (barOwner (rg t a)) (barIdx (rg t a))
      let v := arriveBar r.2 (barOwner (rg t a)) (barIdx (rg t a)) (curWho r.2 r.1) false
      (x.live = true → (x.scope && x.rep) = false → x.arrived ≠ x.expect →
        Commits (.barArr sc d a) s (goesOn (landReply v.1 (curWho v.1 r.1) r.1 (b2n x.phase)))) ∧
      (x.live = true → x.scope = true → x.rep = true → x.holds.length < 8 → Commits (.barArr sc d a) s (goesOn v.1)) ∧
      (∀ n, v.2 = .bad n → exec (.barArr sc d a) s = .next (raiseAfter (form (.barArr sc d a)) s
        (putBar (startWriteBacks t sc) (barOwner (rg t a)) (barIdx (rg t a)) (barOf v.1 (barOwner (rg t a)) (barIdx (rg t a)))) 0x09 (barTval n (barIdx (rg t a)) (barOwner (rg t a))))))) ∧
  (∀ (s t : State), Ready (form (.barWait sc a b)) s t → grantOf t = none → barOwner (rg t a) = agentNo t.cur.agent →
    let x := barOf t (agentNo t.cur.agent) (barIdx (rg t a))
    let u := barAcquire t (agentNo t.cur.agent) (barIdx (rg t a)) t.cur
    (x.live = true → x.phase ≠ (rg t b).getLsbD 0 → accessesOut (curCtx u) = false → sinksOut u u.cur = false →
      Commits (.barWait sc a b) s (goesOn (acquireNow u sc))) ∧
    (x.live = true → x.phase = (rg t b).getLsbD 0 → exec (.barWait sc a b) s = .next (beginWait (asks t fun id v =>
      putBar v (agentNo t.cur.agent) (barIdx (rg t a)) { x with waiters := x.waiters ++ [curWho v id] }) 3 (8 * (barIdx (rg t a))) (agentNo t.cur.agent))) ∧
    (x.live = false → Raises (.barWait sc a b) s 0x09 (barTval 1 (barIdx (rg t a)) (agentNo t.cur.agent)))) ∧
  AnswersIf (.barWait sc a b) (fun t => (∃ v, answered t v) ∧ accessesOut (curCtx t) = false ∧ sinksOut t t.cur = false)
    (fun t => goesOn (acquireNow t sc)) ∧
  (∀ v, AnswersIf (.barArw sc d a) (fun t => answered t v ∧ bit v.toNat 63 = false ∧ accessesOut (curCtx t) = false ∧ sinksOut t t.cur = false)
    (fun t => goesOn (wgSlow (acquireNow t sc) d (v &&& 1)))) ∧
  (∀ (s t : State), Ready (form (.barArw sc d a)) s t → grantOf t = none → inLaunch t (opCtx t) (barOwner (rg t a)) = true → released (startWriteBacks t sc) sc = true →
    (t.cur.agent ≠ .tile (barOwner (rg t a)) → exec (.barArw sc d a) s = .next (beginWait (asks (startWriteBacks t sc) fun id v =>
      sendBar v (barOwner (rg t a)) (barIdx (rg t a)) (curWho v id) (.arrive true)) 3 (8 * (barIdx (rg t a))) (barOwner (rg t a)))) ∧
    (t.cur.agent = .tile (barOwner (rg t a)) →
      let r := newId (startWriteBacks t sc)
      let v := arriveBar r.2 (barOwner (rg t a)) (barIdx (rg t a)) (curWho r.2 r.1) true
      (∀ ph, v.2 = .counted ph true →
        let u := keepAnswer (barAcquire v.1 (barOwner (rg t a)) (barIdx (rg t a)) t.cur) (w64 (b2n ph))
        accessesOut (curCtx u) = false → sinksOut u u.cur = false →
        Commits (.barArw sc d a) s (goesOn (wgSlow (acquireNow u sc) d (w64 (b2n ph))))) ∧
      (∀ ph, v.2 = .counted ph false → ∃ u, exec (.barArw sc d a) s = .next u ∧ u.last = .waiting ∧
        barOf u (barOwner (rg t a)) (barIdx (rg t a)) = { barOf v.1 (barOwner (rg t a)) (barIdx (rg t a)) with
          waiters := (barOf v.1 (barOwner (rg t a)) (barIdx (rg t a))).waiters ++ [curWho (startWriteBacks t sc) r.1] }))) ∧
  AnswersIf (.barTx a b) (fun t => inLaunch t (opCtx t) (barOwner (rg t a)) = true ∧ t.cur.agent ≠ .tile (barOwner (rg t a)))
    (fun t => goesOn (sendBar t (barOwner (rg t a)) (barIdx (rg t a)) (curWho t 0) (.tx (rg t b).toInt))) ∧
  AnswersIf (.barTx a b) (fun t => inLaunch t (opCtx t) (barOwner (rg t a)) = true ∧ t.cur.agent = .tile (barOwner (rg t a)) ∧ (barOf t (barOwner (rg t a)) (barIdx (rg t a))).live = true ∧
      -(2 ^ 23) ≤ (barOf t (barOwner (rg t a)) (barIdx (rg t a))).pend + (rg t b).toInt ∧ (barOf t (barOwner (rg t a)) (barIdx (rg t a))).pend + (rg t b).toInt < 2 ^ 23)
    (fun t => goesOn (addPend t (barOwner (rg t a)) (barIdx (rg t a)) (rg t b).toInt).1) ∧
  (∀ (s t : State), Ready (form (.barTx a b)) s t → inLaunch t (opCtx t) (barOwner (rg t a)) = true → t.cur.agent = .tile (barOwner (rg t a)) → (barOf t (barOwner (rg t a)) (barIdx (rg t a))).live = true →
    ¬(-(2 ^ 23) ≤ (barOf t (barOwner (rg t a)) (barIdx (rg t a))).pend + (rg t b).toInt ∧ (barOf t (barOwner (rg t a)) (barIdx (rg t a))).pend + (rg t b).toInt < 2 ^ 23) →
    exec (.barTx a b) s = .next (raiseAfter (form (.barTx a b)) s (addPend t (barOwner (rg t a)) (barIdx (rg t a)) (rg t b).toInt).1 0x09 (barTval 4 (barIdx (rg t a)) (barOwner (rg t a))))) ∧
  AnswersIf (.barQry d a) (fun t => inLaunch t (opCtx t) (barOwner (rg t a)) = true ∧ t.cur.agent = .tile (barOwner (rg t a))) (fun t => goesOn (wgSlow t d (barOf t (barOwner (rg t a)) (barIdx (rg t a))).word)) ∧
  AnswersIf (.barQry d a) (fun t => inLaunch t (opCtx t) (barOwner (rg t a)) = true ∧ t.cur.agent ≠ .tile (barOwner (rg t a)))
    (fun t => goesOn (let r := awaitReg t d
      sendBar r.2 (barOwner (rg t a)) (barIdx (rg t a)) (curWho r.2 r.1) .query)) ∧
  RaisesIf (.barArr sc d a) (fun t => inLaunch t (opCtx t) (barOwner (rg t a)) = false) 0x08 (fun t => reason2 (barOwner (rg t a))) ∧
  RaisesIf (.barArw sc d a) (fun t => grantOf t = none ∧ inLaunch t (opCtx t) (barOwner (rg t a)) = false) 0x08 (fun t => reason2 (barOwner (rg t a))) ∧
  RaisesIf (.barTx a b) (fun t => inLaunch t (opCtx t) (barOwner (rg t a)) = false) 0x08 (fun t => reason2 (barOwner (rg t a))) ∧
  RaisesIf (.barQry d a) (fun t => inLaunch t (opCtx t) (barOwner (rg t a)) = false) 0x08 (fun t => reason2 (barOwner (rg t a))) ∧
  RaisesIf (.barInit a b) (fun t => barOwner (rg t a) ≠ agentNo t.cur.agent) 0x09 (fun t => barTval 5 (barIdx (rg t a)) (barOwner (rg t a)))) ∧
  (∀ (s : State) (o i : Nat) (w : Who) (wait : Bool), let b := barOf s o i
  (b.live = false → arriveBar s o i w wait = (s, .bad 1)) ∧
  (b.live = true → b.scope = false → b.rep = false → b.holds = [] →
    (b.arrived = b.expect → arriveBar s o i w wait = (putBar s o i { b with ovr := true }, .bad 2)) ∧
    (b.arrived ≠ b.expect → (b.arrived + 1 ≠ b.expect ∨ b.pend ≠ 0) → arriveBar s o i w wait =
      (putBar s o i { b with arrived := b.arrived + 1 }, .counted b.phase false)) ∧
    (b.arrived + 1 = b.expect → b.pend = 0 → b.waiters = [] →
      (arriveBar s o i w wait) = (completeBar (putBar s o i { b with arrived := b.arrived + 1 }) o i, .counted b.phase true) ∧
      barOf (arriveBar s o i w wait).1 o i = { b with phase := !b.phase, arrived := 0, children := 0, homes := [], lastHomes := b.homes }) ∧
    (b.arrived = b.expect → b.pend = 0 → testBar s o i = completeBar s o i ∧
      let u := putBar s o i { b with phase := !b.phase, arrived := 0, rep := false, children := 0, waiters := [], homes := [], lastHomes := b.homes }
      let u := b.waiters.foldl (fun u w => ownerReply (barAcquire u o i w.ctx) o w (b2n b.phase)) u
      completeBar s o i = modCore u (.tile o) fun co => { co with matOps := co.matOps.map fun x =>
        if x.phase = .atBarrier ∧ x.mma.bar.toNat = i then { x with phase := .past } else x }) ∧
    (∀ v : Int,
      let p := max (-(2 ^ 23)) (min (2 ^ 23 - 1) (b.pend + v))
      (addPend s o i v).2 = (decide (-(2 ^ 23) ≤ b.pend + v) && decide (b.pend + v < 2 ^ 23)) ∧
      (b.arrived ≠ b.expect ∨ b.pend + v ≠ 0 → (addPend s o i v).1 = putBar s o i { b with pend := p, txerr := b.txerr || !(addPend s o i v).2 }) ∧
      (b.arrived = b.expect → b.pend + v = 0 → b.waiters = [] →
        barOf (addPend s o i v).1 o i = { b with pend := 0, phase := !b.phase, arrived := 0, children := 0, homes := [], lastHomes := b.homes }))))

/-- The RING forms (R261, R262, R268). That an alias form counts what is on its way to the owner, and traps precisely at its bundle, is the model's choice (log entry 54). -/
def Obligations.RingsAnswer : Prop :=
  ∀ (d : GReg) (h : Handle) (k : Fin 32),
  (∀ (s t : State), Ready (form (.ringWaitf d h k)) s t → grantOf t = none → k ≠ 0 → RingOk t h → (ringNamed t h).cons = (agentNo t.cur.agent) % 4 → k.val ≤ (ringNamed t h).slots →
    let x := (ringNamed t h)
    let v := w64 (x.slotAddr (agentNo t.cur.agent) x.cidx)
    let u := keepAnswer (putRing t (agentNo t.cur.agent) (handle t h.val) { x with filled := x.filled - k.val, held := x.held + k.val, cidx := (x.cidx + k.val) % Nat.max 1 x.slots }) v
    (((ringNamed t h).ownerCore (agentNo t.cur.agent)) = (agentNo t.cur.agent) → x.queued .waitf = false → k.val ≤ x.filled → v ≠ w64 (2 ^ 63) → accessesOut (curCtx u) = false → sinksOut u u.cur = false →
      Commits (.ringWaitf d h k) s (goesOn (wgSlow (acquireNow u .tile) d v))) ∧
    (((ringNamed t h).ownerCore (agentNo t.cur.agent)) = (agentNo t.cur.agent) → (x.queued .waitf = true ∨ x.filled < k.val) → exec (.ringWaitf d h k) s = .next (beginWait (asks t fun id v =>
      putRing v (agentNo t.cur.agent) (handle t h.val) { x with waiters := x.waiters ++ [⟨.ctx (curWho v id), .waitf, k⟩] }) 4 (0x1800 + 16 * (handle t h.val)) (agentNo t.cur.agent))) ∧
    (((ringNamed t h).ownerCore (agentNo t.cur.agent)) ≠ (agentNo t.cur.agent) → exec (.ringWaitf d h k) s = .next (beginWait (asks t fun id v => sendRing v ((ringNamed t h).ownerCore (agentNo t.cur.agent)) (curWho v id) .waitf (handle t h.val) k)
      4 (0x1800 + 16 * (handle t h.val)) ((ringNamed t h).ownerCore (agentNo t.cur.agent))))) ∧
  (∀ v, AnswersIf (.ringWaitf d h k) (fun t => answered t v ∧ v ≠ w64 (2 ^ 63) ∧ accessesOut (curCtx t) = false ∧ sinksOut t t.cur = false)
    (fun t => goesOn (wgSlow (acquireNow t .tile) d v))) ∧
  (∀ (s t : State), Ready (form (.ringWaite d h k)) s t → grantOf t = none → k ≠ 0 → RingOk t h → (ringNamed t h).prod = (agentNo t.cur.agent) % 4 → k.val ≤ (ringNamed t h).slots →
    let x := (ringNamed t h)
    let v := w64 (x.slotAddr (agentNo t.cur.agent) x.pidx)
    let u := keepAnswer (putRing t (agentNo t.cur.agent) (handle t h.val) { x with nfree := x.nfree - k.val, claim := x.claim + k.val, pidx := (x.pidx + k.val) % Nat.max 1 x.slots }) v
    (((ringNamed t h).ownerCore (agentNo t.cur.agent)) = (agentNo t.cur.agent) → x.queued .waite = false → k.val ≤ x.nfree → v ≠ w64 (2 ^ 63) → accessesOut (curCtx u) = false → sinksOut u u.cur = false →
      Commits (.ringWaite d h k) s (goesOn (wgSlow (acquireNow u .tile) d v))) ∧
    (((ringNamed t h).ownerCore (agentNo t.cur.agent)) = (agentNo t.cur.agent) → (x.queued .waite = true ∨ x.nfree < k.val) → exec (.ringWaite d h k) s = .next (beginWait (asks t fun id v =>
      putRing v (agentNo t.cur.agent) (handle t h.val) { x with waiters := x.waiters ++ [⟨.ctx (curWho v id), .waite, k⟩] }) 4 (0x1800 + 16 * (handle t h.val)) (agentNo t.cur.agent))) ∧
    (((ringNamed t h).ownerCore (agentNo t.cur.agent)) ≠ (agentNo t.cur.agent) → exec (.ringWaite d h k) s = .next (beginWait (asks t fun id v => sendRing v ((ringNamed t h).ownerCore (agentNo t.cur.agent)) (curWho v id) .waite (handle t h.val) k)
      4 (0x1800 + 16 * (handle t h.val)) ((ringNamed t h).ownerCore (agentNo t.cur.agent))))) ∧
  (∀ v, AnswersIf (.ringWaite d h k) (fun t => answered t v ∧ v ≠ w64 (2 ^ 63) ∧ accessesOut (curCtx t) = false ∧ sinksOut t t.cur = false)
    (fun t => goesOn (wgSlow (acquireNow t .tile) d v))) ∧
  (∀ (s t : State), Ready (form (.ringAdvp h k)) s t → k ≠ 0 → RingOk t h → (ringNamed t h).prod = (agentNo t.cur.agent) % 4 → k.val ≤ (ringNamed t h).slots →
    released (startWriteBacks t .tile) .tile = true →
    let x := (ringNamed t h)
    let u := startWriteBacks t .tile
    (((ringNamed t h).ownerCore (agentNo t.cur.agent)) = (agentNo t.cur.agent) → k.val ≤ x.claim → Commits (.ringAdvp h k) s (goesOn (putRing u (agentNo t.cur.agent) (handle t h.val) { x with claim := x.claim - k.val, filled := x.filled + k.val }))) ∧
    (((ringNamed t h).ownerCore (agentNo t.cur.agent)) = (agentNo t.cur.agent) → x.claim < k.val → Raises (.ringAdvp h k) s 0x0D (ringTval 3 (handle t h.val) (agentNo t.cur.agent))) ∧
    (((ringNamed t h).ownerCore (agentNo t.cur.agent)) ≠ (agentNo t.cur.agent) → advancesOut u ((ringNamed t h).ownerCore (agentNo t.cur.agent)) (handle t h.val) .advp + k.val ≤ (ringOf u ((ringNamed t h).ownerCore (agentNo t.cur.agent)) (handle t h.val)).claim →
      Commits (.ringAdvp h k) s (goesOn (sendRing u ((ringNamed t h).ownerCore (agentNo t.cur.agent)) (curWho u 0) .advp (handle t h.val) k))) ∧
    (((ringNamed t h).ownerCore (agentNo t.cur.agent)) ≠ (agentNo t.cur.agent) → (ringOf u ((ringNamed t h).ownerCore (agentNo t.cur.agent)) (handle t h.val)).claim < advancesOut u ((ringNamed t h).ownerCore (agentNo t.cur.agent)) (handle t h.val) .advp + k.val →
      Raises (.ringAdvp h k) s 0x0D (ringTval 3 (handle t h.val) (agentNo t.cur.agent)))) ∧
  (∀ (s t : State), Ready (form (.ringAdvc h k)) s t → k ≠ 0 → RingOk t h → (ringNamed t h).cons = (agentNo t.cur.agent) % 4 → k.val ≤ (ringNamed t h).slots →
    released (startWriteBacks t .tile) .tile = true →
    let x := (ringNamed t h)
    let u := startWriteBacks t .tile
    (((ringNamed t h).ownerCore (agentNo t.cur.agent)) = (agentNo t.cur.agent) → k.val ≤ x.held → Commits (.ringAdvc h k) s (goesOn (putRing u (agentNo t.cur.agent) (handle t h.val) { x with held := x.held - k.val, nfree := x.nfree + k.val }))) ∧
    (((ringNamed t h).ownerCore (agentNo t.cur.agent)) = (agentNo t.cur.agent) → x.held < k.val → Raises (.ringAdvc h k) s 0x0D (ringTval 3 (handle t h.val) (agentNo t.cur.agent))) ∧
    (((ringNamed t h).ownerCore (agentNo t.cur.agent)) ≠ (agentNo t.cur.agent) → advancesOut u ((ringNamed t h).ownerCore (agentNo t.cur.agent)) (handle t h.val) .advc + k.val ≤ (ringOf u ((ringNamed t h).ownerCore (agentNo t.cur.agent)) (handle t h.val)).held →
      Commits (.ringAdvc h k) s (goesOn (sendRing u ((ringNamed t h).ownerCore (agentNo t.cur.agent)) (curWho u 0) .advc (handle t h.val) k))) ∧
    (((ringNamed t h).ownerCore (agentNo t.cur.agent)) ≠ (agentNo t.cur.agent) → (ringOf u ((ringNamed t h).ownerCore (agentNo t.cur.agent)) (handle t h.val)).held < advancesOut u ((ringNamed t h).ownerCore (agentNo t.cur.agent)) (handle t h.val) .advc + k.val →
      Raises (.ringAdvc h k) s 0x0D (ringTval 3 (handle t h.val) (agentNo t.cur.agent)))) ∧
  AnswersIf (.ringQry d h) (fun t => RingOk t h ∧ ((ringNamed t h).ownerCore (agentNo t.cur.agent)) = (agentNo t.cur.agent)) (fun t => goesOn (wgSlow t d (ringNamed t h).word1)) ∧
  AnswersIf (.ringQry d h) (fun t => RingOk t h ∧ ((ringNamed t h).ownerCore (agentNo t.cur.agent)) ≠ (agentNo t.cur.agent))
    (fun t => goesOn (let r := awaitReg t d
      sendRing r.2 ((ringNamed t h).ownerCore (agentNo t.cur.agent)) (curWho r.2 r.1) .qry (handle t h.val) 0)) ∧
  RaisesIf (.ringQry d h) (fun t => ¬RingOk t h) 0x0D (fun t => ringTval 1 (handle t h.val) (agentNo t.cur.agent)) ∧
  RaisesIf (.ringWaitf d h k) (fun t => grantOf t = none ∧ k ≠ 0 ∧ ¬RingOk t h) 0x0D (fun t => ringTval 1 (handle t h.val) (agentNo t.cur.agent)) ∧
  RaisesIf (.ringWaitf d h k) (fun t => grantOf t = none ∧ k ≠ 0 ∧ RingOk t h ∧ (ringNamed t h).cons ≠ (agentNo t.cur.agent) % 4) 0x0D (fun t => ringTval 2 (handle t h.val) (agentNo t.cur.agent)) ∧
  RaisesIf (.ringWaitf d h k) (fun t => grantOf t = none ∧ k ≠ 0 ∧ RingOk t h ∧ (ringNamed t h).cons = (agentNo t.cur.agent) % 4 ∧ (ringNamed t h).slots < k.val) 0x0D (fun t => ringTval 4 (handle t h.val) (agentNo t.cur.agent)) ∧
  RaisesIf (.ringWaite d h k) (fun t => grantOf t = none ∧ k ≠ 0 ∧ ¬RingOk t h) 0x0D (fun t => ringTval 1 (handle t h.val) (agentNo t.cur.agent)) ∧
  RaisesIf (.ringWaite d h k) (fun t => grantOf t = none ∧ k ≠ 0 ∧ RingOk t h ∧ (ringNamed t h).prod ≠ (agentNo t.cur.agent) % 4) 0x0D (fun t => ringTval 2 (handle t h.val) (agentNo t.cur.agent)) ∧
  RaisesIf (.ringWaite d h k) (fun t => grantOf t = none ∧ k ≠ 0 ∧ RingOk t h ∧ (ringNamed t h).prod = (agentNo t.cur.agent) % 4 ∧ (ringNamed t h).slots < k.val) 0x0D (fun t => ringTval 4 (handle t h.val) (agentNo t.cur.agent)) ∧
  RaisesIf (.ringAdvp h k) (fun t => k ≠ 0 ∧ ¬RingOk t h) 0x0D (fun t => ringTval 1 (handle t h.val) (agentNo t.cur.agent)) ∧
  RaisesIf (.ringAdvp h k) (fun t => k ≠ 0 ∧ RingOk t h ∧ (ringNamed t h).prod ≠ (agentNo t.cur.agent) % 4) 0x0D (fun t => ringTval 2 (handle t h.val) (agentNo t.cur.agent)) ∧
  RaisesIf (.ringAdvp h k) (fun t => k ≠ 0 ∧ RingOk t h ∧ (ringNamed t h).prod = (agentNo t.cur.agent) % 4 ∧ (ringNamed t h).slots < k.val) 0x0D (fun t => ringTval 4 (handle t h.val) (agentNo t.cur.agent)) ∧
  RaisesIf (.ringAdvc h k) (fun t => k ≠ 0 ∧ ¬RingOk t h) 0x0D (fun t => ringTval 1 (handle t h.val) (agentNo t.cur.agent)) ∧
  RaisesIf (.ringAdvc h k) (fun t => k ≠ 0 ∧ RingOk t h ∧ (ringNamed t h).cons ≠ (agentNo t.cur.agent) % 4) 0x0D (fun t => ringTval 2 (handle t h.val) (agentNo t.cur.agent)) ∧
  RaisesIf (.ringAdvc h k) (fun t => k ≠ 0 ∧ RingOk t h ∧ (ringNamed t h).cons = (agentNo t.cur.agent) % 4 ∧ (ringNamed t h).slots < k.val) 0x0D (fun t => ringTval 4 (handle t h.val) (agentNo t.cur.agent))

/-- The TREE family (R263 to R265, R269). -/
def Obligations.TreesAnswer : Prop :=
  ∀ (o : RedOp) (d a b : GReg) (f a' : FReg),
  (∀ (s t : State) (g : Group), Ready (form (.red o f a' b)) s t → memberOf t ((rg t b).toNat % 256) = .ok g →
    treePending t ((opCtx t).launch.getD 0) ((rg t b).toNat % 256) (agentNo t.cur.agent) < 8 →
    ∃ (u : State) (p : TreePart), Commits (.red o f a' b) s (goesOn u) ∧
      p.core = agentNo t.cur.agent ∧ p.op = 0 ∧ p.redOp = Machine.redCode o ∧ p.value = rf t a' ∧ p.d = f ∧ p.landed = false ∧
      u.dev.trees = addPart t.dev.trees ((opCtx t).launch.getD 0) ((rg t b).toNat % 256) (treeCount (curCore t) ((opCtx t).launch.getD 0) ((rg t b).toNat % 256)) p ∧
      treeCount (curCore u) ((opCtx t).launch.getD 0) ((rg t b).toNat % 256) = treeCount (curCore t) ((opCtx t).launch.getD 0) ((rg t b).toNat % 256) + 1 ∧
      (curCtx u).awaits = (curCtx t).awaits ++ [⟨p.id, .vec f ((rg t b).toNat % 256) g.root⟩]) ∧
  (∀ (s t : State) (g : Group), Ready (form (.scan o f a' b)) s t → memberOf t ((rg t b).toNat % 256) = .ok g →
    treePending t ((opCtx t).launch.getD 0) ((rg t b).toNat % 256) (agentNo t.cur.agent) < 8 →
    ∃ (u : State) (p : TreePart), Commits (.scan o f a' b) s (goesOn u) ∧
      p.core = agentNo t.cur.agent ∧ p.op = 1 ∧ p.redOp = Machine.redCode o ∧ p.value = rf t a' ∧ p.d = f ∧ p.landed = false ∧
      u.dev.trees = addPart t.dev.trees ((opCtx t).launch.getD 0) ((rg t b).toNat % 256) (treeCount (curCore t) ((opCtx t).launch.getD 0) ((rg t b).toNat % 256)) p ∧
      treeCount (curCore u) ((opCtx t).launch.getD 0) ((rg t b).toNat % 256) = treeCount (curCore t) ((opCtx t).launch.getD 0) ((rg t b).toNat % 256) + 1 ∧
      (curCtx u).awaits = (curCtx t).awaits ++ [⟨p.id, .vec f ((rg t b).toNat % 256) g.root⟩]) ∧
  (∀ (s t : State) (g : Group), Ready (form (.bcast f a' b)) s t → memberOf t ((rg t b).toNat % 256) = .ok g →
    treePending t ((opCtx t).launch.getD 0) ((rg t b).toNat % 256) (agentNo t.cur.agent) < 8 →
    ∃ (u : State) (p : TreePart), Commits (.bcast f a' b) s (goesOn u) ∧
      p.core = agentNo t.cur.agent ∧ p.op = 2 ∧ p.redOp = 0 ∧ p.value = rf t a' ∧ p.d = f ∧ p.landed = false ∧
      u.dev.trees = addPart t.dev.trees ((opCtx t).launch.getD 0) ((rg t b).toNat % 256) (treeCount (curCore t) ((opCtx t).launch.getD 0) ((rg t b).toNat % 256)) p ∧
      treeCount (curCore u) ((opCtx t).launch.getD 0) ((rg t b).toNat % 256) = treeCount (curCore t) ((opCtx t).launch.getD 0) ((rg t b).toNat % 256) + 1 ∧
      (curCtx u).awaits = (curCtx t).awaits ++ [⟨p.id, .vec f ((rg t b).toNat % 256) g.root⟩]) ∧
  (∀ g, AnswersIf (.treeWait d a) (fun t => memberOf t ((rg t a).toNat % 256) = .ok g ∧ treePending t ((opCtx t).launch.getD 0) ((rg t a).toNat % 256) (agentNo t.cur.agent) = 0 ∧
      rootPending t ((opCtx t).launch.getD 0) g (agentNo t.cur.agent) = false)
    (fun t => goesOn (wgSlow t d ((treeCount (curCore t) ((opCtx t).launch.getD 0) ((rg t a).toNat % 256)).zeroExtend 64)))) ∧
  (∀ g, WaitsIf (.treeWait d a) (fun t => memberOf t ((rg t a).toNat % 256) = .ok g ∧ (treePending t ((opCtx t).launch.getD 0) ((rg t a).toNat % 256) (agentNo t.cur.agent) ≠ 0 ∨
      rootPending t ((opCtx t).launch.getD 0) g (agentNo t.cur.agent) = true))
    10 (fun t => ((rg t a).toNat % 256)) (fun _ => g.root)) ∧
  RaisesIf (.red o f a' b) (fun t => ∀ g, findGroup t (opCtx t).launch ((rg t b).toNat % 256) = some g → agentNo t.cur.agent ∉ g.members) 0x1B (fun t => w64 ((rg t b).toNat % 256)) ∧
  RaisesIf (.scan o f a' b) (fun t => ∀ g, findGroup t (opCtx t).launch ((rg t b).toNat % 256) = some g → agentNo t.cur.agent ∉ g.members) 0x1B (fun t => w64 ((rg t b).toNat % 256)) ∧
  RaisesIf (.bcast f a' b) (fun t => ∀ g, findGroup t (opCtx t).launch ((rg t b).toNat % 256) = some g → agentNo t.cur.agent ∉ g.members) 0x1B (fun t => w64 ((rg t b).toNat % 256)) ∧
  RaisesIf (.treeWait d a) (fun t => ∀ g, findGroup t (opCtx t).launch ((rg t a).toNat % 256) = some g → agentNo t.cur.agent ∉ g.members) 0x1B (fun t => w64 ((rg t a).toNat % 256)) ∧
  (∀ (g : Group) (op : Nat) (val : Nat → Vec) (n fuel : Nat), g.children n = [] → treeUp g op val (fuel + 1) n = (val n, 0))

/-- The POOL family (R144 to R146) and the deprecated forms of Cricy-1 (R46, R47). The model's choices: the index that a refused POOL.SET gives (log entry 55), and that POOL.QRY counts every valid ring descriptor, aliases included (log entry 127). -/
def Obligations.PoolAndDeprecatedFormsAnswer : Prop :=
  ∀ (d a b : GReg),
  AnswersIf (.poolSet d a) (fun t => (firstRefusal t (poolCounts (rg t a).toNat)).1 ≠ 0)
    (fun t => goesOn (wgSlow t d (w64 ((firstRefusal t (poolCounts (rg t a).toNat)).1 + (firstRefusal t (poolCounts (rg t a).toNat)).2 * 256)))) ∧
  AnswersIf (.poolSet d a) (fun t => (firstRefusal t (poolCounts (rg t a).toNat)).1 = 0 ∧ poolCounts (rg t a).toNat = (curCore t).counts)
    (fun t => goesOn (wgSlow t d 0)) ∧
  (∀ s t, Ready (form (.poolSet d a)) s t → (firstRefusal t (poolCounts (rg t a).toNat)).1 = 0 →
    poolCounts (rg t a).toNat ≠ (curCore t).counts →
    ∃ u r, Commits (.poolSet d a) s (goesOn u) ∧ (curCore u).reshape = some r ∧ r.counts = poolCounts (rg t a).toNat ∧
      (curCore u).counts = (curCore t).counts ∧ (curCtx u).awaits = (curCtx t).awaits ++ [⟨r.id, .reg d⟩]) ∧
  (∀ (t : State) (k : Nat × Nat × Nat × Nat), (k.1 + k.2.1 + k.2.2.1 + k.2.2.2 ≠ 63 → (firstRefusal t k).1 = 1) ∧
    (k.1 + k.2.1 + k.2.2.1 + k.2.2.2 = 63 → (k.1 < 2 ∨ (curLevel t = 0 ∧ k.2.1 < 24)) → (firstRefusal t k).1 = 2) ∧
    (k.1 + k.2.1 + k.2.2.1 + k.2.2.2 = 63 → 2 ≤ k.1 → (curLevel t ≠ 0 ∨ 24 ≤ k.2.1) → (curCore t).reshape.isSome = true →
      (firstRefusal t k).1 = 3)) ∧
  AnswersIf (.poolQry d a) (fun t => (rg t a).toNat % 256 = 0) (fun t => goesOn (wgSlow t d
    (w64 (poolWord (curCore t).counts + (slotsUnder (curCore t).counts - 1) * 2 ^ 40 + b2n (curCore t).reshape.isSome * 2 ^ 63)))) ∧
  AnswersIf (.poolQry d a) (fun t => (rg t a).toNat % 256 = 2) (fun t => goesOn (wgSlow t d (namedRegion t (bits (rg t a).toNat 13 8)).word0)) ∧
  AnswersIf (.poolQry d a) (fun t => (rg t a).toNat % 256 = 3 ∧ bits (rg t a).toNat 13 8 ≠ 0)
    (fun t => goesOn (wgSlow t d (bankWord (curCore t) (bits (rg t a).toNat 13 8)))) ∧
  AnswersIf (.poolQry d a) (fun t => (rg t a).toNat % 256 = 4) (fun t => goesOn (wgSlow t d (namedRegion t (bits (rg t a).toNat 13 8)).slate)) ∧
  AnswersIf (.poolQry d a) (fun t => (rg t a).toNat % 256 = 1) (fun t => goesOn (wgSlow t d
    (w64 (((List.range 64).countP fun k => (getCtx t ⟨t.cur.agent, k⟩).used) +
      (validRegions (curCore t)).foldl (fun n r => n + r.2.bytes) 0 % 2 ^ 20 * 2 ^ 16 + dirtyWays (curCore t) * 2 ^ 36 +
      (curCore t).rings.toList.countP (·.valid) * 2 ^ 48)))) ∧
  RaisesIf (.poolQry d a) (fun t => 5 ≤ (rg t a).toNat % 256 ∨ ((rg t a).toNat % 256 = 3 ∧ bits (rg t a).toNat 13 8 = 0)) 0x01
    (fun _ => encTval (form (.poolQry d a)).word 3 false) ∧
  AnswersIf (.poolPin d a) (fun t => findRegion (curCore t) (opCtx t).launch ((rg t a).toNat % 64) = none) (fun t => goesOn (wgSlow t d 9)) ∧
  AnswersIf (.poolUnpin d a) (fun t => findRegion (curCore t) (opCtx t).launch ((rg t a).toNat % 64) = none) (fun t => goesOn (wgSlow t d 9)) ∧
  (∀ h r, AnswersIf (.poolPin d a) (fun t => findRegion (curCore t) (opCtx t).launch ((rg t a).toNat % 64) = some (h, r) ∧ r.moving = false ∧ 255 ≤ r.pins) (fun t => goesOn (wgSlow t d 10))) ∧
  (∀ h r, AnswersIf (.poolPin d a) (fun t => findRegion (curCore t) (opCtx t).launch ((rg t a).toNat % 64) = some (h, r) ∧ r.moving = false ∧ r.pins < 255 ∧ bit (rg t a).toNat 8 = false ∧
      16 ≤ (opCtx t).pins.length) (fun t => goesOn (wgSlow t d 11))) ∧
  (∀ h r, AnswersIf (.poolPin d a) (fun t => findRegion (curCore t) (opCtx t).launch ((rg t a).toNat % 64) = some (h, r) ∧ r.moving = false ∧ r.pins < 255 ∧ bit (rg t a).toNat 8 = true)
    (fun t => goesOn (wgSlow (modRegion t t.cur.agent h fun r => { r with pins := r.pins + 1, lost := false }) d
      (w64 (localAddr (agentNo t.cur.agent) r.base))))) ∧
  (∀ h r, AnswersIf (.poolPin d a) (fun t => findRegion (curCore t) (opCtx t).launch ((rg t a).toNat % 64) = some (h, r) ∧ r.moving = false ∧ r.pins < 255 ∧ bit (rg t a).toNat 8 = false ∧
      (opCtx t).pins.length < 16)
    (fun t => goesOn (wgSlow (modActivation (modRegion t t.cur.agent h fun r => { r with pins := r.pins + 1, lost := false })
      t.cur (opCtx t).gen fun c => { c with pins := h :: c.pins }) d (w64 (localAddr (agentNo t.cur.agent) r.base))))) ∧
  (∀ h r, AnswersIf (.poolPin d a) (fun t => findRegion (curCore t) (opCtx t).launch ((rg t a).toNat % 64) = some (h, r) ∧ r.moving = true) (fun t =>
    let r := awaitReg t d
    goesOn (modCurCore r.2 fun co => { co with pinWaits := co.pinWaits ++ [((rg t a).toNat, curWho r.2 r.1)] }))) ∧
  (∀ h r, AnswersIf (.poolUnpin d a) (fun t => findRegion (curCore t) (opCtx t).launch ((rg t a).toNat % 64) = some (h, r) ∧ bit (rg t a).toNat 8 = false ∧ h ∈ (opCtx t).pins)
    (fun t => goesOn (wgSlow (modCur (modRegion t t.cur.agent h fun r => { r with pins := r.pins - 1 })
      fun c => { c with pins := c.pins.erase h }) d 0))) ∧
  (∀ h r, AnswersIf (.poolUnpin d a) (fun t => findRegion (curCore t) (opCtx t).launch ((rg t a).toNat % 64) = some (h, r) ∧ bit (rg t a).toNat 8 = true ∧ actPins t t.cur.agent h < r.pins)
    (fun t => goesOn (wgSlow (modRegion t t.cur.agent h fun r => { r with pins := r.pins - 1 }) d 0))) ∧
  (∀ h r, AnswersIf (.poolUnpin d a) (fun t => findRegion (curCore t) (opCtx t).launch ((rg t a).toNat % 64) = some (h, r) ∧ (if bit (rg t a).toNat 8 then r.pins ≤ actPins t t.cur.agent h
      else h ∉ (opCtx t).pins)) (fun t => goesOn (wgSlow t d 12))) ∧
  (∀ n : Fin 32, (∀ s, (opCtx s).st 9 = false →
      Raises (.ldm d a n) s 0x3E (encTval (form (.ldm d a n)).word 0 false) ∧ Raises (.stm d a n) s 0x3E (encTval (form (.stm d a n)).word 0 false) ∧
      Raises (.vdotI8 d a b) s 0x3E (encTval (form (.vdotI8 d a b)).word 0 false) ∧ Raises (.maca d a b) s 0x3E (encTval (form (.maca d a b)).word 0 false)) ∧
    (∀ (s t : State), Ready (form (.vdotI8 d a b)) s t → (opCtx s).st 9 = true →
      Commits (.vdotI8 d a b) s (goesOn (wgSlow t d (i64 ((List.range 8).foldl (fun x i =>
        x + ((rg t a).extractLsb' (8 * i) 8).toInt * ((rg t b).extractLsb' (8 * i) 8).toInt) 0))))) ∧
    (∀ (s t : State), Ready (form (.maca d a b)) s t → (opCtx s).st 9 = true →
      Commits (.maca d a b) s (goesOn (wgSlow t d (rg t d + rg t a * rg t b)))) ∧
    (∀ (s t u : State), Ready (form (.ldm d a n)) s t → (opCtx s).st 9 = true → stepsDone t = 0 →
      microSteps (fun i s => load s (rg t a + w64 (8 * i)) 8 (.load (Fin.ofNat 32 (d.val + i)) 3)) 0 (n.val + 1) 0 t = .ok u →
      Commits (.ldm d a n) s (goesOn u)) ∧
    (∀ (s t u : State), Ready (form (.stm d a n)) s t → (opCtx s).st 9 = true → stepsDone t = 0 →
      microSteps (fun i s => store s (rg t a + w64 (8 * i)) (bytesOf (rg s (Fin.ofNat 32 (d.val + i))).toNat 8)) 0 (n.val + 1) 0 t = .ok u →
      Commits (.stm d a n) s (goesOn u)))

/-- The COPY and STREAM instructions (R297 to R300, R306, R307, R155 to R157). -/
def Obligations.CopiesAndStreamsAnswer : Prop :=
  ∀ (d a b : GReg) (r : SReg) (fw : CpyField) (sel : Bool) (size : StreamSize),
  (∀ (s t u : State) (b : List Word), Ready (form (.cpy d a fw)) s t → (rg t a).toNat % 8 = 0 → (curCore t).xfers.length < 16 →
    readBlock t (rg t a) 13 0 = .ok (u, b) →
    (cpyReason u (agentNo t.cur.agent) (opCtx u) fw b ≠ 0 →
      Raises (.cpy d a fw) s 0x27 (cpyTval 0 (cpyReason u (agentNo t.cur.agent) (opCtx u) fw b))) ∧
    (cpyReason u (agentNo t.cur.agent) (opCtx u) fw b = 0 → (doneIrq fw = true → blockWord b 11 % 2 ^ 48 % 8 = 0) →
      ∃ (v : State) (x : Xfer), Commits (.cpy d a fw) s (goesOn (wgSlow v d (w64 (curCore u).xferNext.toNat))) ∧
        (curCore v).xfers = (curCore u).xfers ++ [x] ∧ x.id = (curCore u).xferNext ∧ x.block = b ∧ x.fw = fw ∧ x.state = 1 ∧
        x.bytes = 0 ∧ x.asid = (opCtx u).asid ∧ x.launch = (opCtx u).launch ∧
        (curCore v).xferNext = (if (curCore u).xferNext = 0xFFFF then 1 else (curCore u).xferNext + 1) ∧
        (curCtx v).cpyOpen = (curCtx u).cpyOpen + if doneIrq fw then 1 else 0)) ∧
  (∀ x, AnswersIf (.cpyCancel d a) (fun t => ((curCore t).xfers.find? fun x => x.id == BitVec.ofNat 16 (rg t a).toNat && ownXfer t x) = some x)
    (fun t => goesOn (wgSlow (cancelXfer t t.cur.agent x) d (w64 (xferTotal (agentNo t.cur.agent) x.fw x.block - x.bytes))))) ∧
  (∀ x, AnswersIf (.cpyCancel d a) (fun t => ((curCore t).xfers.find? fun x => x.id == BitVec.ofNat 16 (rg t a).toNat && ownXfer t x) = none ∧ ((curCore t).xfersDone.find? fun x => x.id == BitVec.ofNat 16 (rg t a).toNat && ownXfer t x) = some x)
    (fun t => goesOn (wgSlow t d (if x.state = 3 then 0 else w64 (xferTotal (agentNo t.cur.agent) x.fw x.block - x.bytes))))) ∧
  AnswersIf (.cpyCancel d a) (fun t => ((curCore t).xfers.find? fun x => x.id == BitVec.ofNat 16 (rg t a).toNat && ownXfer t x) = none ∧ ((curCore t).xfersDone.find? fun x => x.id == BitVec.ofNat 16 (rg t a).toNat && ownXfer t x) = none) (fun t => goesOn (wgSlow t d 0x8000000000000000#64)) ∧
  RaisesIf (.cpy d a fw) (fun t => (rg t a).toNat % 8 ≠ 0) 0x05 (fun t => rg t a) ∧
  (∀ (s t u : State) (b : List Word), Ready (form (.cpy d a fw)) s t → (rg t a).toNat % 8 = 0 → (curCore t).xfers.length < 16 →
    readBlock t (rg t a) 13 0 = .ok (u, b) → cpyReason u (agentNo t.cur.agent) (opCtx u) fw b = 0 → doneIrq fw = true →
    blockWord b 11 % 2 ^ 48 % 8 ≠ 0 → Raises (.cpy d a fw) s 0x05 (w64 (blockWord b 11 % 2 ^ 48))) ∧
  RaisesIf (.scfg r a b sel size) (fun t => (rg t b).toNat % 8 ≠ 0) 0x05 (fun t => rg t b) ∧
  Answers (.cpyStat d a sel) (fun t => goesOn (wgSlow t d (cpyStatus (curCore t) (BitVec.ofNat 16 (rg t a).toNat) sel))) ∧
  (∀ (s t u : State) (p : List (Nat × Int)), Ready (form (.scfg r a b sel size)) s t → (rg t b).toNat % 8 = 0 →
    readPattern t (rg t b) 4 0 = .ok (u, p) →
    (patternFits size (rg t a) p = false → Raises (.scfg r a b sel size) s 0x05 (rg t a)) ∧
    (patternFits size (rg t a) p = true → 2 ^ 48 - 1 < p.foldl (fun n x => n * x.1) 1 → Raises (.scfg r a b sel size) s 0x0C (streamTval 6 r.val)) ∧
    (patternFits size (rg t a) p = true → p.foldl (fun n x => n * x.1) 1 ≤ 2 ^ 48 - 1 → closeCheck u r = .ok () →
      ∃ (v : State) (x : Stream), Commits (.scfg r a b sel size) s (goesOn v) ∧ streamOf (curCtx v) (Fin.ofNat 32 r.val) = some x ∧
        x.write = sel ∧ x.size = size ∧ x.base = rg t a ∧ x.counts = p.map (·.1) ∧ x.strides = p.map (·.2) ∧ x.next = 0 ∧ x.done = 0 ∧
        x.total = p.foldl (fun n x => n * x.1) 1 ∧ x.buf = [] ∧ x.outq = [] ∧ (curCtx v).f[(Fin.ofNat 32 r.val : Fin 32)] = 0)) ∧
  AnswersIf (.sclose r) (fun t => closeCheck t r = .ok ()) (fun t => goesOn (unbind t t.cur r)) ∧
  (∀ (s : State) (k : CtxKey), streamOf (getCtx (unbind s k r) k) (Fin.ofNat 32 r.val) = none ∧
    ((getCtx s k).streams.any (·.1 == r) = true → (getCtx (unbind s k r) k).f[(Fin.ofNat 32 r.val : Fin 32)] = 0)) ∧
  Answers (.sstat d r) (fun t => goesOn (wgSlow t d (streamStatus t r)))

/-- The CONV, MATRIX, ACC and LINK instructions (R271 to R291, R308, R309, R314). -/
def Obligations.EnginesAccept : Prop :=
  ∀ (d a b : GReg) (q : AccReg) (h h' : Handle) (fw : ConvField) (mf : MmaField) (af : AccField),
  (∀ (s t : State) (x y : Nat), Ready (form (.cvtMx d a b fw)) s t → (curCore t).convOps.length < 8 →
    convPair 8 fw.sf.toNat fw.df.toNat = true → (fw.srcr = true ∨ (rg t a).toNat % 64 = 0) → (fw.dstr = true ∨ (rg t d).toNat % 64 = 0) →
    convOperand t 8 fw.srcr a .waitf (convGroups 8 fw * groupBytes fw.sf.toNat) 2 = .ok x →
    convOperand t 8 fw.dstr d .waite (convGroups 8 fw * groupBytes fw.df.toNat) 3 = .ok y →
    Accepts (.cvtMx d a b fw) s t fun o => o.kind = 8 ∧ o.src = x ∧ o.dst = y ∧ o.conv = fw ∧ o.seed = if fw.sr then rg t b else 0) ∧
  RaisesIf (.cvtMx d a b fw) (fun t => (curCore t).convOps.length < 8 ∧ convPair 8 fw.sf.toNat fw.df.toNat = false) 0x1F
    (fun t => engTval 0 1 0 8 (curCtx t).opno.toNat) ∧
  (∀ (s t : State) (x y : Nat), Ready (form (.cvtUnmx d a b fw)) s t → (curCore t).convOps.length < 8 →
    convPair 9 fw.sf.toNat fw.df.toNat = true → (fw.srcr = true ∨ (rg t a).toNat % 64 = 0) → (fw.dstr = true ∨ (rg t d).toNat % 64 = 0) →
    convOperand t 9 fw.srcr a .waitf (convGroups 9 fw * groupBytes fw.sf.toNat) 2 = .ok x →
    convOperand t 9 fw.dstr d .waite (convGroups 9 fw * groupBytes fw.df.toNat) 3 = .ok y →
    Accepts (.cvtUnmx d a b fw) s t fun o => o.kind = 9 ∧ o.src = x ∧ o.dst = y ∧ o.conv = fw ∧ o.seed = if fw.sr then rg t b else 0) ∧
  RaisesIf (.cvtUnmx d a b fw) (fun t => (curCore t).convOps.length < 8 ∧ convPair 9 fw.sf.toNat fw.df.toNat = false) 0x1F
    (fun t => engTval 0 1 0 9 (curCtx t).opno.toNat) ∧
  (∀ (s t : State) (x y : Nat), Ready (form (.rescaleMx d a b fw)) s t → (curCore t).convOps.length < 8 →
    convPair 10 fw.sf.toNat fw.df.toNat = true → (fw.srcr = true ∨ (rg t a).toNat % 64 = 0) → (fw.dstr = true ∨ (rg t d).toNat % 64 = 0) →
    convOperand t 10 fw.srcr a .waitf (convGroups 10 fw * groupBytes fw.sf.toNat) 2 = .ok x →
    convOperand t 10 fw.dstr d .waite (convGroups 10 fw * groupBytes fw.df.toNat) 3 = .ok y →
    Accepts (.rescaleMx d a b fw) s t fun o => o.kind = 10 ∧ o.src = x ∧ o.dst = y ∧ o.conv = fw ∧ o.seed = if fw.sr then rg t b else 0) ∧
  RaisesIf (.rescaleMx d a b fw) (fun t => (curCore t).convOps.length < 8 ∧ convPair 10 fw.sf.toNat fw.df.toNat = false) 0x1F
    (fun t => engTval 0 1 0 10 (curCtx t).opno.toNat) ∧
  (∀ (s t : State) (x y : Nat), Ready (form (.transp d a b fw)) s t → (curCore t).convOps.length < 8 →
    convPair 11 fw.sf.toNat fw.df.toNat = true → (fw.srcr = true ∨ (rg t a).toNat % 64 = 0) → (fw.dstr = true ∨ (rg t d).toNat % 64 = 0) →
    convOperand t 11 fw.srcr a .waitf (convGroups 11 fw * groupBytes fw.sf.toNat) 2 = .ok x →
    convOperand t 11 fw.dstr d .waite (convGroups 11 fw * groupBytes fw.df.toNat) 3 = .ok y →
    Accepts (.transp d a b fw) s t fun o => o.kind = 11 ∧ o.src = x ∧ o.dst = y ∧ o.conv = fw ∧ o.seed = if fw.sr then rg t b else 0) ∧
  RaisesIf (.transp d a b fw) (fun t => (curCore t).convOps.length < 8 ∧ convPair 11 fw.sf.toNat fw.df.toNat = false) 0x1F
    (fun t => engTval 0 1 0 11 (curCtx t).opno.toNat) ∧
  (∀ (s t : State), Ready (form (.mma q h h' mf)) s t → matRings t 0 (handle t h.val) (handle t h'.val) 0 mf = .ok () → (curCore t).matOps.length < 8 →
    Accepts (.mma q h h' mf) s t fun o => o.kind = 0 ∧ o.acc = q.val ∧ o.ra = handle t h.val ∧ o.rb = handle t h'.val ∧ o.mma = mf) ∧
  (∀ (s t : State), Ready (form (.mmrot q h h' mf)) s t → matRings t 2 (handle t h.val) (handle t h'.val) 0 mf = .ok () → inLaunch t (opCtx t) (westA (agentNo t.cur.agent)) = true → inLaunch t (opCtx t) (northA (agentNo t.cur.agent)) = true →
    (curCore t).matOps.length < 8 →
    Accepts (.mmrot q h h' mf) s t fun o => o.kind = 2 ∧ o.acc = q.val ∧ o.ra = handle t h.val ∧ o.rb = handle t h'.val ∧ o.mma = mf) ∧
  (∀ (s t : State) (x : Nat), Ready (form (.mmaG d h h' mf)) s t → (rg t d).toNat % 8 = 0 →
    matRings t 1 (handle t h.val) (handle t h'.val) (mf.gm1.toNat + 1) mf = .ok () → ownRange t (rg t d) 8 = .ok x → (curCore t).matOps.length < 8 →
    Accepts (.mmaG d h h' mf) s t fun o => o.kind = 1 ∧ o.acc = mf.acc.toNat ∧ o.ra = handle t h.val ∧ o.rb = handle t h'.val ∧ o.src = x ∧ o.mma = mf) ∧
  (∀ (s t : State), Ready (form (.accClr q)) s t → (curCore t).matOps.length < 8 →
    Accepts (.accClr q) s t fun o => o.kind = 3 ∧ o.acc = q.val) ∧
  (∀ (s t : State), Ready (form (.accAnch q a)) s t → (curCore t).matOps.length < 8 →
    Accepts (.accAnch q a) s t fun o => o.kind = 4 ∧ o.acc = q.val ∧ o.seed = rg t a) ∧
  (∀ (s t : State) (x : Nat), Ready (form (.accRd q a b af)) s t → accTarget t 5 a .waite af = .ok x → (curCore t).matOps.length < 8 →
    Accepts (.accRd q a b af) s t fun o => o.kind = 5 ∧ o.acc = q.val ∧ o.dst = x ∧ o.accF = af ∧ o.seed = if af.sr then rg t b else 0) ∧
  (∀ (s t : State) (x : Nat), Ready (form (.accWr q a af)) s t → accTarget t 6 a .waitf af = .ok x → (curCore t).matOps.length < 8 →
    Accepts (.accWr q a af) s t fun o => o.kind = 6 ∧ o.acc = q.val ∧ o.src = x ∧ o.accF = af) ∧
  (∀ (s t : State), Ready (form (.accStat d q)) s t → (curCore t).matOps.length < 8 →
    Accepts (.accStat d q) s t fun o => o.kind = 7 ∧ o.acc = q.val) ∧
  AnswersIf (.linkCfg d a) (fun t => (portsOf ((rg t a).toNat % 16)).any (otherPorts t).contains = true) (fun t => goesOn (wgSlow t d 1)) ∧
  AnswersIf (.linkCfg d a) (fun t => (portsOf ((rg t a).toNat % 16)).any (otherPorts t).contains = false ∧
      ∃ p ∈ portsOf ((rg t a).toNat % 16), inLaunch t (opCtx t) (neighbour (agentNo t.cur.agent) p) = false) (fun t => goesOn (wgSlow t d 2)) ∧
  AnswersIf (.linkCfg d a) (fun t => (portsOf ((rg t a).toNat % 16)).any (otherPorts t).contains = false ∧
      ∀ p ∈ portsOf ((rg t a).toNat % 16), inLaunch t (opCtx t) (neighbour (agentNo t.cur.agent) p) = true)
    (fun t => goesOn (wgSlow (modCur t fun c => { clearPorts c (c.ports.filter fun p => !(portsOf ((rg t a).toNat % 16)).contains p) with
      ports := portsOf ((rg t a).toNat % 16), forwards := (portsOf ((rg t a).toNat / 16 % 16)).filter (portsOf ((rg t a).toNat % 16)).contains }) d 0)) ∧
  Answers (.linkStat d) (fun t => goesOn (wgSlow t d (linkStatus t)))

/-- The events of the networks and of the homes of accesses (R196 to R240). The model's choices: that only an earlier waiter which may itself be performed goes before a full/empty operation (log entry 112), which packets a failing link loses and how its pairs are repaired (log entry 32), and the record of cause 0x2D with a free value (log entry 16). -/
def Obligations.NetworkEventsAnswer : Prop :=
  (∀ (s : State) (i j : Nat) (p q : Packet), i < j → s.net[i]? = some p → s.net[j]? = some q → p.src = q.src → p.dst = q.dst → p.vn = q.vn →
    s.dev.repair.contains (q.src, q.dst) = false → takePkt s j = none) ∧
  (∀ (s : State) (j : Nat) (p q : Packet), s.net[j]? = some q → numbered q.vn = true → q.fwd = false → s.dev.repair.contains (q.src, q.dst) = true →
    p ∈ s.dev.lost → p.src = q.src → p.dst = q.dst → numbered p.vn = true → p.fwd = false → seqAfter q.seq p.seq = false → takePkt s j = none) ∧
  (∀ (s : State) (j c : Nat) (q : Packet), s.net[j]? = some q → q.vn = 0 → q.dst = .core c →
    512 ≤ (getCore s (.tile c)).overflow.length → takePkt s j = none) ∧
  (∀ (s t : State) (i : Nat) (p : Packet), takePkt s i = some (p, t) → s.net[i]? = some p ∧ t = { s with net := s.net.eraseIdx i }) ∧
  (∀ (s : State) (ag : Agent) (i : Nat) (a : Access), (getCore s ag).feWaits[i]? = some ⟨a⟩ → feReady s a.addr a.op = true →
    roleAdmit (getCore s ag) (a.addr - localAddr (agentNo ag) 0) 8 = .yes → (a.op = .ldf ∨ a.op = .ldc → failedIn s a.addr 8 = none) →
    (∀ w ∈ (getCore s ag).feWaits.take i, feFirst s a.addr w = false) →
    let u := modCore s ag fun co => { co with feWaits := co.feWaits.eraseIdx i }
    let r := fePerform u a.addr a.op a.kind (writerNo a.src) (some a.who)
    Becomes (.feWaitDone ag i) s (if a.src = ag then answer r.2 a.who (w64 r.1) else sendReply r.2 (nodeOf ag) a r.1)) ∧
  (∀ (s t : State) (n : Nat) (src : Node) (vn : Fin 4) (sq : BitVec 12) (fwd : Bool) (c m : Nat) (a : Access), takePkt s n = some (⟨src, .core c, vn, .access a, sq, fwd⟩, t) → behindForwarded s n ⟨src, .core c, vn, .access a, sq, fwd⟩ a.addr = false → a.src = .tile m →
    (ownerCheck t c (a.addr - localAddr c 0) a.op.bytes a.op.grants (some m) false a.launch = .role → a.op.isFe = false → Becomes (.remoteAccessArrival n) s (refuse t (.core c) a 0x0B (w64 a.va))) ∧
    (ownerCheck t c (a.addr - localAddr c 0) a.op.bytes a.op.grants (some m) false a.launch = .window → Becomes (.remoteAccessArrival n) s (refuse t (.core c) a 0x08 (reason1 a.va))) ∧
    (∀ k, ownerCheck t c (a.addr - localAddr c 0) a.op.bytes a.op.grants (some m) false a.launch = .perform → a.op = .ld k → failedIn t a.addr k = none →
      Becomes (.remoteAccessArrival n) s (sendReply (l2Use t a.addr k false (polAllocates a.pol)) (.core c) a (readN t.mem a.addr k))) ∧
    (∀ bs j, ownerCheck t c (a.addr - localAddr c 0) a.op.bytes a.op.grants (some m) false a.launch = .perform → a.op = .st bs → a.jn = some j →
      Becomes (.remoteAccessArrival n) s (sendPkt (homeWrite t a.addr bs a.kind (writerNo a.src) (some a.who) (polAllocates a.pol)) (.core c) (nodeOf a.src) 1 (.ack j)))) ∧
  (∀ (s t : State) (n : Nat) (src : Node) (vn : Fin 4) (sq : BitVec 12) (fwd : Bool) (u : State) (dst : Node) (a : Access), takePkt s n = some (⟨src, dst, vn, .access a, sq, fwd⟩, t) → behindForwarded s n ⟨src, dst, vn, .access a, sq, fwd⟩ a.addr = false → accessAt t dst a = some u → Becomes (.remoteAccessArrival n) s u) ∧
  (∀ (s t : State) (n : Nat) (src : Node) (vn : Fin 4) (sq : BitVec 12) (fwd : Bool) (dst : Node) (ag : Agent) (w : Who) (id v : Nat), takePkt s n = some (⟨src, dst, vn, .reply w id v, sq, fwd⟩, t) → agentAt dst = some ag →
    Becomes (.accessReplyArrival n) s (landReply (freeLoad t ag id) w id v)) ∧
  (∀ (s t : State) (n : Nat) (src : Node) (vn : Fin 4) (sq : BitVec 12) (fwd : Bool) (dst : Node) (ag : Agent) (w : Who) (id pa v : Nat), takePkt s n = some (⟨src, dst, vn, .fillReply w id pa v, sq, fwd⟩, t) → agentAt dst = some ag →
    Becomes (.accessReplyArrival n) s (landFill (freeLoad t ag id) ag w id pa v)) ∧
  (∀ (s t : State) (n : Nat) (src : Node) (vn : Fin 4) (sq : BitVec 12) (fwd : Bool) (dst : Node) (ag : Agent) (j : Nat), takePkt s n = some (⟨src, dst, vn, .ack j, sq, fwd⟩, t) → agentAt dst = some ag →
    Becomes (.storeAckArrival n) s (freeJournal t ag j)) ∧
  (∀ (s t : State) (n : Nat) (src : Node) (vn : Fin 4) (sq : BitVec 12) (fwd : Bool) (dst : Node) (ag : Agent) (w : Who) (j cause : Nat) (tval : Word), takePkt s n = some (⟨src, dst, vn, .refusal w none (some j) cause tval, sq, fwd⟩, t) → agentAt dst = some ag →
    Becomes (.refusalArrival n) s (refuseEntry t ag j cause tval)) ∧
  (∀ (s t : State) (n : Nat) (src : Node) (vn : Fin 4) (sq : BitVec 12) (fwd : Bool) (dst : Node) (ag : Agent) (w : Who) (id cause : Nat) (tval : Word), takePkt s n = some (⟨src, dst, vn, .refusal w (some id) none cause tval, sq, fwd⟩, t) → agentAt dst = some ag →
    cause ≠ 0x09 → cause ≠ 0x0D →
    Becomes (.refusalArrival n) s (raiseAsync (landReply (modCore (freeLoad t ag id) ag fun co => { co with fills := co.fills.filter (·.id != id) }) w id 0) w cause tval)) ∧
  (∀ (s : State) (ag : Agent) (e : Fin 64) (x : JEntry), (getCore s ag).journal.find? (·.idx == e.val) = some x →
    (x.tries < 3 → ∃ u, Becomes (.journalTimeout ag e) s u ∧
      (getCore u ag).journal = (getCore s ag).journal.map (fun y => if y.idx = x.idx then { y with tries := y.tries + 1 } else y) ∧
      (∀ p ∈ s.dev.lost, p.body.entry = some x.idx → p.src = nodeOf ag → (∀ j, p.body ≠ .ack j) →
        (∀ w id jn c tv, p.body ≠ .refusal w id jn c tv) → p ∈ u.net ∧ p ∉ u.dev.lost) ∧
      ∀ p ∈ s.net, p ∈ u.net) ∧
    (3 ≤ x.tries → Becomes (.journalTimeout ag e) s
      (raiseAt (freeJournal (forgetEntry s ag x.idx) ag x.idx) x.who 0x2A (w64 (x.va.toNat % 2 ^ 48 + x.idx % 64 * 2 ^ 48)) [x.home]))) ∧
  (∀ (s t : State) (n : Nat) (src : Node) (vn : Fin 4) (sq : BitVec 12) (fwd : Bool) (dst : Node) (ag : Agent) (id : Nat), takePkt s n = some (⟨src, dst, vn, .wbAck id, sq, fwd⟩, t) → agentAt dst = some ag →
    ∃ u, Becomes (.writeBackAck n) s u ∧ (getCore u ag).writeBacks = (getCore t ag).writeBacks.filter (·.id != id)) ∧
  (∀ (s t : State) (n : Nat) (src : Node) (vn : Fin 4) (sq : BitVec 12) (fwd : Bool) (a : Access), takePkt s n = some (⟨src, .host, vn, .access a, sq, fwd⟩, t) → Becomes (.hostAccessTimeout n) s (refuse t .host a 0x08 (reason1 a.va))) ∧
  (∀ (s : State) (k : CtxKey) (r : RegName), Becomes (.inFlightWriteLands k r) s (modCtx s k fun c => { c with busy := c.busy.filter (· ≠ r) })) ∧
  (∀ (s : State) (a b : Nat), ∃ u, Becomes (.linkReroute a b true) s u ∧ u.dev.linksDown = s.dev.linksDown.filter (· ≠ (a, b)) ∧ u.dev.dailies = s.dev.dailies) ∧
  (∀ (s : State) (a b : Nat), ∃ u, Becomes (.linkReroute a b false) s u ∧ u.dev.linksDown = (a, b) :: s.dev.linksDown.filter (· ≠ (a, b)) ∧
    u.dev.dailies = s.dev.dailies ++ [⟨0x2D, a, [b]⟩]) ∧
  (∀ (s t : State) (n : Nat) (src : Node) (vn : Fin 4) (sq : BitVec 12) (fwd : Bool) (c m' : Nat) (m : Message) (w : Option Who) (jn : Option Nat) (q : Fin 64), src = .core m' → takePkt s n = some (⟨src, .core c, vn, .message m w jn, sq, fwd⟩, t) →
    matchQueue t (.tile c) m = some q → hasRoom (getCore t (.tile c)) q = true → parkedOf (getCore t (.tile c)) q = 0 →
    Becomes (.messageArrival n) s (sendAck (modQueue t (.tile c) q fun x => { x with msgs := x.msgs ++ [m], aged := x.aged ++ [false] }) (.core c) src jn)) ∧
  (∀ (s t : State) (n : Nat) (src : Node) (vn : Fin 4) (sq : BitVec 12) (fwd : Bool) (c : Nat) (m : Message) (w : Option Who) (jn : Option Nat), takePkt s n = some (⟨src, .core c, vn, .message m w jn, sq, fwd⟩, t) →
    matchQueue t (.tile c) m = none → Becomes (.messageArrival n) s (refuseMsg t c src m w jn)) ∧
  (∀ (s t : State) (n : Nat) (src : Node) (vn : Fin 4) (sq : BitVec 12) (fwd : Bool) (u : State) (c addr : Nat) (w : Who) (jn : Option Nat) (va : Word) (data : List Word) (m : Message) (la : Option Nat),
    takePkt s n = some (⟨src, .core c, vn, .putn w jn addr va data m la, sq, fwd⟩, t) → putnAt t c src w jn addr data m la = some u → Becomes (.messageArrival n) s u) ∧
  (∀ (s : State) (a : Agent) (m : Message) (q : Fin 64), matchQueue s a m = some q →
    ((getCore s a).queues[q]).valid = true ∧ (m.route &&& ((getCore s a).queues[q]).tmask) = (((getCore s a).queues[q]).type &&& ((getCore s a).queues[q]).tmask) ∧
    ∀ i : Fin 64, i < q → ((getCore s a).queues[i]).valid = true → queueAdmits s (getCore s a).queues[i] m = true →
      (m.route &&& ((getCore s a).queues[i]).tmask) ≠ (((getCore s a).queues[i]).type &&& ((getCore s a).queues[i]).tmask)) ∧
  (∀ (s t : State) (n : Nat) (src : Node) (vn : Fin 4) (sq : BitVec 12) (fwd : Bool) (c : Nat) (d : Deposit) (w : Who) (jn : Option Nat), takePkt s n = some (⟨src, .core c, vn, .deposit d w jn, sq, fwd⟩, t) →
    (depositGone t (.tile c) d = true → Becomes (.depositArrival n) s (sendAck (discardDeposit t c d) (.core c) src jn)) ∧
    (depositGone t (.tile c) d = false → d.reg = 0 → Becomes (.depositArrival n) s (sendAck t (.core c) src jn)) ∧
    (depositGone t (.tile c) d = false → d.reg ≠ 0 → spilledHas (getCore t (.tile c)) d.slot d.gen = false →
      (getCore t (.tile c)).recvQ.length < 16 → (getCore t (.tile c)).overflow = [] →
      Becomes (.depositArrival n) s (sendAck (modCore t (.tile c) fun co => { co with recvQ := co.recvQ ++ [d] }) (.core c) src jn))) ∧
  (∀ (s t : State) (n : Nat) (src : Node) (vn : Fin 4) (sq : BitVec 12) (fwd : Bool) (c : Nat) (d : Deposit) (w : Who) (jn : Option Nat), takePkt s n = some (⟨src, .core c, vn, .deposit d w jn, sq, fwd⟩, t) → spilledHas (getCore t (.tile c)) d.slot d.gen = true →
    depositGone t (.tile c) d = false → d.reg ≠ 0 → (getCore t (.tile c)).overflow.length < overflowSize →
    ∃ u, Becomes (.absentContextMessage n) s u ∧ (getCore u (.tile c)).overflow = (getCore t (.tile c)).overflow ++ [.absent d.slot d] ∧
      ∀ x ∈ (getCore u (.tile c)).spilled, x.slot = d.slot → x.ctx.gen = d.gen → x.pending = true) ∧
  (∀ (s : State) (a : Agent) (d : Deposit), depositGone s a d = true ↔
    (findActivation s ⟨a, d.slot⟩ d.gen = none ∨ ∃ c, findActivation s ⟨a, d.slot⟩ d.gen = some c ∧ c.killed = true)) ∧
  (∀ (s : State) (a : Agent) (i : Nat) (d : Deposit), i < 16 → (getCore s a).recvQ[i]? = some d →
    (depositGone s a d = true → Becomes (.depositLanding a i) s
      (discardDeposit (modCore s a fun co => { co with recvQ := co.recvQ.eraseIdx i }) (agentNo a) d)) ∧
    (depositGone s a d = false → depositLands s a d = true → (∀ e ∈ (getCore s a).recvQ.take i, depositLands s a e = false) →
      (∀ x ∈ (getCore s a).sinks.toList, sinkLands s x = false) →
      Becomes (.depositLanding a i) s (wakeReg (modCtx (modCore s a fun co => { co with recvQ := co.recvQ.eraseIdx i }) ⟨a, d.slot⟩
        fun c => c.wg d.reg d.value) ⟨a, d.slot⟩ d.reg))) ∧
  (∀ (s t : State) (n : Nat) (src : Node) (vn : Fin 4) (sq : BitVec 12) (fwd : Bool) (c i : Nat) (gen : Gen) (v : Word) (x : Who × GReg), takePkt s n = some (⟨src, .core c, vn, .sinkReply i gen v, sq, fwd⟩, t) →
    ((getCore t (.tile c)).sinks[Fin.ofNat 16 i]).bound = some x → ((getCore t (.tile c)).sinks[Fin.ofNat 16 i]).gen = gen →
    ((getCore t (.tile c)).sinks[Fin.ofNat 16 i]).value = none → (getCtx t x.1.ctx).used = true → (getCtx t x.1.ctx).gen = x.1.gen →
    Becomes (.replyArrival n) s (modCore t (.tile c) fun co => { co with
      sinks := co.sinks.set (Fin.ofNat 16 i) { co.sinks[Fin.ofNat 16 i] with value := some v } })) ∧
  (∀ (s : State) (a : Agent), Becomes (.parkedReturn a) s
    (unparkDeposits a (getCore (unpark a (getCore s a).overflow s) a).overflow (unpark a (getCore s a).overflow s))) ∧
  (∀ (s : State) (a : Agent) (vn : Fin 4), vn ≠ 3 → Becomes (.sendQueueEntryFreed a vn) s (freeSend s a vn)) ∧
  (∀ (s : State) (a : Agent) (x : SpawnOut), readySpawn s a = some x →
    Becomes (.sendQueueEntryFreed a 3) s (freeSpawnEntry (launchSpawn s a x) a x.who))

/-- The events of slots, budgets, joins, spawns and kills (R78 to R102, R352). The model's choices: the cycles that a budget loses between two bundles, and a deadlock that is suspected after any time (log entry 5), the order in which spawn requests leave (log entry 53), and the core that a request for any core finds (log entry 27). -/
def Obligations.RunQueueEventsAnswer : Prop :=
  (∀ (s : State) (c : Nat) (p : Fin 4) (k : CtxKey), freePosition s (.tile c) = some p →
    nextLive s (.tile c) = some (.parked k) →
    Becomes (.activationStart (.tile c)) s (modCtx s k fun x => { x with place := .loading p })) ∧
  (∀ (s : State) (c e pri slot : Nat) (p : Fin 4), freePosition s (.tile c) = some p →
    nextLive s (.tile c) = some (.fresh pri e) → freeSlot s (.tile c) = some slot →
    let u := modCore s (.tile c) fun co => { co with last := co.last.set (Fin.ofNat 4 pri) e }
    Becomes (.activationStart (.tile c)) s (if e = 64 then startChild u (.tile c) pri slot p else startQueue u (.tile c) (Fin.ofNat 64 e) slot p)) ∧
  (∀ (s : State) (a : Agent) (q : Fin 64) (slot : Nat) (p : Fin 4) (m : Message) (l : List Message),
    ((getCore s a).queues[q]).resume = false → ((getCore s a).queues[q]).msgs = m :: l → staleHead s ((getCore s a).queues[q]) = false → m.payload.length ≤ 8 →
    ∃ u : State, startQueue s a q slot p = (if m.src = .guest then acquireFor u ⟨a, slot⟩ else u) ∧
    let c := getCtx u ⟨a, slot⟩
    c.pc = ((getCore s a).queues[q]).handler ∧ c.pri = ((getCore s a).queues[q]).pri ∧ c.slate = m.slate ∧ c.place = .live p ∧ c.queue = some q ∧
    c.launch = ((getCore s a).queues[q]).launch ∧ c.p = BitVec.allOnes 32 ∧ c.a = 0 ∧
    c.gen = (getCore s a).gens[Fin.ofNat 64 slot] + 1 ∧ c.g[(1 : GReg)] = w64 (m.ty.toNat % 2 ^ 16 + q.val * 2 ^ 16) ∧
    c.g[(2 : GReg)] = m.slate ∧ c.g[(3 : GReg)] = m.token ∧ (∀ i : Nat, i < 8 → c.g[Fin.ofNat 32 (4 + i)] = (m.payload[i]?).getD 0) ∧
    (∀ i : Fin 32, 12 ≤ i.val → c.g[i] = 0) ∧
    ((getCore u a).queues[q]).msgs = l) ∧
  (∀ (s : State) (k : CtxKey) (p : Fin 4), (getCtx s k).place = .loading p → Becomes (.contextLoad k) s (modCtx s k fun c => { c with place := .live p })) ∧
  (∀ (s : State) (k : CtxKey), victim s k.agent = some k → (nextLive s k.agent).isSome = true →
    Becomes (.contextWriteback k) s (modCtx s k fun c => { c with place := .parked })) ∧
  (∀ (s : State) (c p : Nat), allWait s (.tile c) = true → p < 4 → (startable s (.tile c) p).isEmpty = false → fwWorks s 2 = true →
    Becomes (.slotExhaustion (.tile c)) s (spillWaiters (.tile c) ((List.range 4).map fun p => (startable s (.tile c) p).length).sum
      (raiseFw s 2 0x11 (w64 (c % 2 ^ 11)) (.tile c)))) ∧
  (∀ (s : State) (a : Agent) (n : Nat), (areaSize ≤ (getCore s a).spilled.length → spillWaiters a (n + 1) s = record s 0x11 (agentNo a) [areaSize]) ∧
    ∀ k l, (getCore s a).spilled.length < areaSize → (((List.range (slotCount (getCore s a))).map fun i => (⟨a, i⟩ : CtxKey)).filter fun k => (getCtx s k).wait.isSome && mayLeave s k) = k :: l →
      spillWaiters a (n + 1) s = spillWaiters a n (spillCtx s (l.foldl (longer s) k))) ∧
  (∀ (s : State) (k : CtxKey) (x : Spilled), ((getCore s k.agent).spilled.find? fun x => x.slot == k.slot && x.pending) = some x → x.ctx.killed = false →
    (getCtx s k).used = false → k.slot < slotCount (getCore s k.agent) →
    Becomes (.spilledContextReturn k) s (setCtx (modCore s k.agent fun co => { co with spilled := co.spilled.erase x }) k x.ctx)) ∧
  (∀ (s : State) (k : CtxKey) (n : Nat), k.agent = .tile n → (getCtx s k).used = true → (getCtx s k).killed = false → (getCtx s k).wait = none → runOut s (getCtx s k) = true →
    (getCtx s k).inGrace = false → (getCtx s k).frames = [] → let u := { s with fresh := s.fresh + 1 }
    (((getCtx s k).inTrap || (getCtx s k).inExpansion || !(getCtx s k).quiet || (getCtx s k).stepped.isSome) = true →
      Becomes (.activationBudgetExpiry k) s (setCtx u k { (getCtx s k) with inGrace := true, actLeft := 4096, due12 := true })) ∧
    (((getCtx s k).inTrap || (getCtx s k).inExpansion || !(getCtx s k).quiet || (getCtx s k).stepped.isSome) = false → Becomes (.activationBudgetExpiry k) s
      (takeTrap (setCtx u k { (getCtx s k) with inGrace := true, actLeft := 4096 }) k 0x12 (w64 (getCtx s k).actLoaded) (getCtx s k).pc true))) ∧
  (∀ (s : State) (k : CtxKey) (n : Nat), k.agent = .tile n → (getCtx s k).used = true → (getCtx s k).killed = false → (getCtx s k).inGrace = true → (getCtx s k).frames = [] → runOut s (getCtx s k) = true →
    fwWorks s 2 = true →
    Becomes (.budgetGraceExpiry k) s (killCtx (record (raiseFw s 2 0x12 (w64 (getCtx s k).actLoaded) k.agent) 0x12 n
      [(getCtx s k).actLoaded, k.slot, (getCtx s k).gen.toNat]) k)) ∧
  (∀ (s : State) (c : Ctx), runOut s c = true ↔ c.actLeft ≠ 0xFFFFFFFF ∧ c.actLeft ≤ Config.cycles s.fresh) ∧
  (∀ (s : State) (k : CtxKey) (n : Nat) (w : Wait), k.agent = .tile n → (getCtx s k).wait = some w → (getCtx s k).used = true → (getCtx s k).killed = false →
    (getCtx s k).actLeft ≠ 0xFFFFFFFF → (∀ x ∈ (getCore s k.agent).spilled, x.slot ≠ k.slot) →
    Becomes (.deadlockSuspected k) s (deadlock { s with fresh := s.fresh + 1 } k (getCtx s k) w false)) ∧
  (∀ (s : State) (k : CtxKey) (x : Spilled) (w : Wait), (getCtx s k).used = false → ((getCore s k.agent).spilled.filter (·.slot == k.slot)) = [x] →
    x.ctx.wait = some w → x.ctx.killed = false → x.ctx.actLeft ≠ 0xFFFFFFFF →
    Becomes (.deadlockSuspected k) s (deadlock { s with fresh := s.fresh + 1 } k x.ctx w true)) ∧
  (∀ (s : State) (a : Agent) (q : Fin 64), ((getCore s a).queues[q]).valid = true → ((getCore s a).queues[q]).serial = true →
    ((getCore s a).queues[q]).takeLeft = 0 → Becomes (.takeBudgetSpent a q) s (modQueue s a q fun x => { x with budgetHold := true })) ∧
  (∀ (s t : State) (n : Nat) (src : Node) (vn : Fin 4) (sq : BitVec 12) (fwd : Bool) (o kind : Nat) (w : Who) (jw value v : Word), takePkt s n = some (⟨src, .core o, vn, .join w kind jw value, sq, fwd⟩, t) → (kind = 0 → joinLater s o jw = false) →
    (joinAt t o kind jw w value).2 = some v →
    Becomes (.joinArrival n) s (sendPkt (joinAt t o kind jw w value).1 (.core o) (nodeOf w.ctx.agent) 1 (.reply w w.id v.toNat))) ∧
  (∀ (s : State) (a : Agent) (i : Nat) (x : SpawnOut), (getCore s a).spawnOut[i]? = some x → x.target = none → x.released s a = true →
    Becomes (.recruitmentAnswer a i) s (modCore s a fun co => { co with spawnOut := co.spawnOut.map fun y => if y.id = x.id then { y with
      target := some ((idleCores s x.child.launch x.role (agentNo a)).headD (busyCore s x.child.launch x.role (agentNo a))) } else y })) ∧
  (∀ (s : State) (a : Agent) (i : Nat) (r : Recruit), (getCore s a).spawnOut[i]? = none →
    (getCore s a).recruits[i - (getCore s a).spawnOut.length]? = some r → r.released s a = true →
    (∀ y ∈ (getCore s a).spawnOut, y.who.ctx = r.who.ctx → y.who.gen = r.who.gen → y.sent = true) →
    Becomes (.recruitmentAnswer a i) s (answerRecruit s a r)) ∧
  (∀ (s t : State) (n : Nat) (src : Node) (vn : Fin 4) (sq : BitVec 12) (fwd : Bool) (c m id : Nat) (ch : Child), takePkt s n = some (⟨src, .core c, vn, .spawn ch m id, sq, fwd⟩, t) →
    (∃ la l, ch.launch = some la ∧ findLaunch t la = some l ∧ l.ending = false) →
    ((getCore t (.tile c)).spawnList.length < spawnListSize → Becomes (.spawnArrival n) s
      (modCore (modCore t (.tile c) fun co => { co with spawnList := co.spawnList ++ [ch] }) (.tile m)
        fun co => { co with spawnOut := co.spawnOut.filter (·.id != id) })) ∧
    (spawnListSize ≤ (getCore t (.tile c)).spawnList.length → Becomes (.spawnArrival n) s
      (modCore t (.tile m) fun co => { co with spawnOut := co.spawnOut.map fun y =>
        if y.id = id then { y with sent := false, retry := true } else y }))) ∧
  (∀ (s : State) (n : Nat) (a : Agent) (x : SpawnOut),
    (s.cores.findSome? fun c => (c.2.spawnOut.find? fun x => x.id == n && x.retry).map fun x => (c.1, x)) = some (a, x) →
    Becomes (.spawnRetry n) s (launchSpawn s a x)) ∧
  (∀ (s : State) (k : CtxKey) (n : Nat), k.agent = .tile n → (getCtx s k).used = true → (getCtx s k).killed = true → drained s k (getCtx s k) = true →
    Becomes (.quiesceAck k) s (finishLaunches (answerKillers (releaseCtx s k) (getCtx s k).killers))) ∧
  (∀ (s t : State) (n : Nat) (src : Node) (vn : Fin 4) (sq : BitVec 12) (fwd : Bool) (c id : Nat) (w : Who) (target : Word) (nw : Bool), takePkt s n = some (⟨src, .core c, vn, .kill w id target nw, sq, fwd⟩, t) →
    let k : CtxKey := ⟨.tile c, bits target.toNat 21 16⟩
    let gen : Gen := BitVec.ofNat 16 (bits target.toNat 47 32)
    (findActivation t k gen = none → Becomes (.killAcceptance n) s (landReply t w id 1)) ∧
    (∀ x, findActivation t k gen = some x → x.killed = true → Becomes (.killAcceptance n) s (landReply t w id 2)) ∧
    (∀ x, findActivation t k gen = some x → x.killed = false → nw = true → Becomes (.killAcceptance n) s (landReply (killAct t k gen) w id 0)) ∧
    (∀ x, findActivation t k gen = some x → x.killed = false → nw = false → Becomes (.killAcceptance n) s
      (modActivation (killAct t k gen) k gen fun c => { c with killers := c.killers ++ [(w, id)] })))

/-- The events of barriers, rings, trees, reshapes, streams, engines and links (R139, R151, R256 to R264, R273 to R311). The model's choices: which engine work a reshape waits for and which it refuses (log entries 57 and 122), that a forward of MMROT meets the neighbour's windows and reshape (log entry 68), that a conversion writes in the step that starts it (log entry 65), that each read which saturates raises cause 0x20 (log entry 133), and that an arrival refused by a full hold list travels back on VN1 (log entry 50). -/
def Obligations.EngineEventsAnswer : Prop :=
  (∀ (s t : State) (n : Nat) (src dst : Node) (vn : Fin 4) (sq : BitVec 12) (fwd : Bool) (o i from_ : Nat) (w : Who), takePkt s n = some (⟨src, .core o, vn, .barrier from_ (some w) i .query, sq, fwd⟩, t) → Becomes (.barrierEvent n) s (ownerReply t o w (barOf t o i).word.toNat)) ∧
  (∀ (s t : State) (n : Nat) (src dst : Node) (vn : Fin 4) (sq : BitVec 12) (fwd : Bool) (o i from_ : Nat) (w : Who) (wait : Bool), takePkt s n = some (⟨src, .core o, vn, .barrier from_ (some w) i (.arrive wait), sq, fwd⟩, t) →
    ((barOf t o i).live = false → Becomes (.barrierEvent n) s (ownerRefuse t o w 0x09 (barTval 1 i o))) ∧
    ((barOf t o i).live = true → (barOf t o i).scope = true → (barOf t o i).rep = true → (barOf t o i).holds.length < 8 →
      Becomes (.barrierEvent n) s (putBar t o i { (barOf t o i) with holds := (barOf t o i).holds ++ [(w, wait)] })) ∧
    ((barOf t o i).live = true → (barOf t o i).scope = true → (barOf t o i).rep = true → 8 ≤ (barOf t o i).holds.length →
      Becomes (.barrierEvent n) s (sendPkt t (.core o) (.core from_) 1 (.barrier o (some w) i (.refused wait)))) ∧
    ((barOf t o i).live = true → (barOf t o i).rep = false → (barOf t o i).arrived = (barOf t o i).expect →
      Becomes (.barrierEvent n) s (ownerRefuse (drainHolds o i 8 (putBar t o i { (barOf t o i) with ovr := true })) o w 0x09 (barTval 2 i o)))) ∧
  (∀ (s t : State) (n : Nat) (src dst : Node) (vn : Fin 4) (sq : BitVec 12) (fwd : Bool) (o i from_ : Nat) (w : Who) (v : Int), takePkt s n = some (⟨src, .core o, vn, .barrier from_ (some w) i (.tx v), sq, fwd⟩, t) →
    ((barOf t o i).live = false → Becomes (.barrierEvent n) s (ownerRefuse t o w 0x09 (barTval 1 i o))) ∧
    ((barOf t o i).live = true → (addPend t o i v).2 = true → Becomes (.barrierEvent n) s (addPend t o i v).1)) ∧
  (∀ (s t : State) (n : Nat) (src dst : Node) (vn : Fin 4) (sq : BitVec 12) (fwd : Bool) (o i from_ tag child : Nat) (w : Option Who), takePkt s n = some (⟨src, .core o, vn, .barrier from_ w i (.report tag child), sq, fwd⟩, t) →
    (barOf t o i).live = true → (barOf t o i).scope = true → ((barOf t o i).tag ≠ tag → Becomes (.barrierEvent n) s (wrongTag t o i tag)) ∧
    ((barOf t o i).tag = tag → Becomes (.barrierEvent n) s (drainHolds o i 8 (testBar (putBar t o i { (barOf t o i) with children := (barOf t o i).children ||| BitVec.ofNat 4 (2 ^ child) }) o i)))) ∧
  (∀ (s t : State) (n : Nat) (src dst : Node) (vn : Fin 4) (sq : BitVec 12) (fwd : Bool) (o i from_ tag : Nat) (w : Option Who), takePkt s n = some (⟨src, .core o, vn, .barrier from_ w i (.release tag), sq, fwd⟩, t) →
    (barOf t o i).live = true → (barOf t o i).scope = true → ((barOf t o i).tag ≠ tag → Becomes (.barrierEvent n) s (wrongTag t o i tag)) ∧
    ((barOf t o i).tag = tag → Becomes (.barrierEvent n) s (drainHolds o i 8 (completeBar t o i)))) ∧
  (∀ (s t : State) (n me owner i : Nat) (src : Node) (vn : Fin 4) (sq : BitVec 12) (fwd : Bool) (w : Option Who) (wait : Bool),
    takePkt s n = some (⟨src, .core me, vn, .barrier owner w i (.refused wait), sq, fwd⟩, t) →
    Becomes (.barrierHoldRetry n) s (sendPkt t (.core me) (.core owner) 3 (.barrier me w i (.arrive wait)))) ∧
  (∀ (s : State) (o : Nat) (h : Handle) (w : RingWaiter) (i : Nat) (r : Ring),
    readyWaiter (ringOf s o h.val) [] (ringOf s o h.val).waiters = some (w, i, r) →
    Becomes (.ringOperationAtOwner (.tile o) h) s (grantUser (putRing s o h.val r) o h.val i w.k w.user)) ∧
  (∀ (s t : State) (o n owner ring k : Nat) (h : Handle) (src dst : Node) (vn : Fin 4) (sq : BitVec 12) (fwd : Bool) (w : Who) (op : RingOp),
    (ringOf s o h.val).waiters = [] → ringPacket s o h.val = some n → takePkt s n = some (⟨src, dst, vn, .ring w op owner ring k, sq, fwd⟩, t) →
    Becomes (.ringOperationAtOwner (.tile o) h) s (ringAtOwner t o h.val w op k)) ∧
  (∀ (s : State) (c i : Nat) (t : Tree) (g : Group) (p : TreePart), s.dev.trees[i]? = some t → findGroup s (some t.launch) t.group = some g →
    (t.parts.find? fun p => Agent.tile p.core == .tile c && !p.landed) = some p → (g.members.all fun m => t.parts.any (·.core == m)) = true →
    Becomes (.treeResult (.tile c) i) s (landTree s g t p)) ∧
  (∀ (s : State) (c : Nat) (r : Reshape), (getCore s (.tile c)).reshape = some r →
    ((leavingSlots (getCore s (.tile c)) r.counts).filter fun i => (getCtx s ⟨.tile c, i⟩).used) = [] →
    let co := getCore s (.tile c)
    let store := leavingBanks co.counts r.counts 4
    let early := leavingBanks co.counts r.counts 2 ++ store.filter ((movingRegions co).flatMap (newBanks r)).contains
    let way := co.l1.find? fun l => (leavingBanks co.counts r.counts 3).contains l.way
    (engineBefore s c r.id early = true → Becomes (.reshapeComplete (.tile c)) s s) ∧
    (engineBefore s c r.id early = false → movingRegions co ≠ [] → Becomes (.reshapeComplete (.tile c)) s (moveRegions s (.tile c) r)) ∧
    (∀ l, engineBefore s c r.id early = false → movingRegions co = [] → way = some l →
      Becomes (.reshapeComplete (.tile c)) s (flushLine s (.tile c) l.line)) ∧
    (engineBefore s c r.id early = false → movingRegions co = [] → way = none →
      (co.writeBacks ≠ [] ∨ engineBefore s c r.id store = true) → Becomes (.reshapeComplete (.tile c)) s s) ∧
    (engineBefore s c r.id early = false → movingRegions co = [] → way = none → co.writeBacks = [] → engineBefore s c r.id store = false →
      Becomes (.reshapeComplete (.tile c)) s (finishReshape s (.tile c) r))) ∧
  (∀ (s : State) (ag : Agent) (x : Xfer) (l : List Xfer), (getCore s ag).xfers = x :: l → xferKilled s x = false → x.reason = 0 → x.faultCause = 0 →
    Becomes (.copyTransferStart ag) s
      (((servedDests x.dests).findSome? (destStep s ag { x with state := 2 })).getD (putXfer s ag { x with state := 2 }))) ∧
  (∀ (s : State) (ag : Agent) (x : Xfer), (getCore s ag).xfers.find? (xferKilled s) = some x → Becomes (.copyTransferDone ag) s (cancelXfer s ag x)) ∧
  (∀ (s : State) (ag : Agent) (x : Xfer) (l : List Xfer), (getCore s ag).xfers.find? (xferKilled s) = none → (getCore s ag).xfers = x :: l → x.state = 2 → x.dests = [] →
    x.reason = 0 → x.faultCause = 0 → Becomes (.copyTransferDone ag) s (xferIrq (xferBar (retire s ag x 3) ag x) x)) ∧
  (∀ (s : State) (ag : Agent) (x : Xfer) (l : List Xfer), (getCore s ag).xfers = x :: l →
    (x.faultCause = 0 → x.reason ≠ 0 → Becomes (.copyTransferFault ag) s
      (raiseAsync (closeCpy (xferBar (retire s ag x 5) ag x) x) x.who 0x27 (cpyTval x.id.toNat x.reason))) ∧
    (x.faultCause ≠ 0 → Becomes (.copyTransferFault ag) s
      (raiseAsync (closeCpy (xferBar (retire s ag x 5) ag x) x) x.who x.faultCause (w64 x.id.toNat)))) ∧
  (∀ (s : State) (k : CtxKey) (r : SReg) (st : Stream), streamOf (getCtx s k) (Fin.ofNat 32 r.val) = some st → st.write = false →
    st.buf.length < 8 → st.next < st.total → st.fault = none → (getCtx s k).killed = false →
    (∀ u vs, fetchElems { s with cur := k, latch := none } st ((List.range (Nat.min st.per (st.total - st.next))).map (st.next + ·)) = .ok (u, vs) → Becomes (.streamFetch k r) s (modCtx u k fun c => c.setStream (Fin.ofNat 32 r.val)
      { st with buf := st.buf ++ [packElems (8 * sizeBytes st.size) vs], next := st.next + Nat.min st.per (st.total - st.next) })) ∧
    (∀ code tval, fetchElems { s with cur := k, latch := none } st ((List.range (Nat.min st.per (st.total - st.next))).map (st.next + ·)) = .error (.trap code tval) → Becomes (.streamFetch k r) s (modCtx { s with cur := k, latch := none } k fun c =>
      c.setStream (Fin.ofNat 32 r.val) { st with fault := some (BitVec.ofNat 6 code, tval) }))) ∧
  (∀ (s u : State) (k : CtxKey) (r : SReg) (st : Stream), streamOf (getCtx s k) (Fin.ofNat 32 r.val) = some st → st.write = true →
    st.buf ≠ [] → (getCtx s k).pushes.head? = some (Fin.ofNat 32 r.val) → drainElems { s with cur := k, latch := none } st r (st.done - st.buf.length) st.outq = (u, []) →
    Becomes (.streamDrain k r) s (modCtx u k fun c => { c.setStream (Fin.ofNat 32 r.val) { st with outq := [], buf := st.buf.tail } with pushes := c.pushes.tail })) ∧
  (∀ (s : State) (c : Nat) (o : EngOp) (l : List EngOp), (getCore s (.tile c)).convOps = o :: l → nextOfAct (o :: l) o = true → opKilled s o = false →
    (o.phase = .queued → (o.conv.srcr = true → ringLost s c o.src o.id = false) → (o.conv.dstr = true → ringLost s c o.dst o.id = false) →
      Becomes (.convOpStart (.tile c)) s (convAsk s c o)) ∧
    (o.phase = .queued → o.conv.srcr = true → ringLost s c o.src o.id = true →
      Becomes (.convOpStart (.tile c)) s (faultOp121 s o 0x27 0 o.src)) ∧
    (o.phase = .atRings → convGranted o = true → l.any (·.started) = false → Becomes (.convOpStart (.tile c)) s (convRun s c o))) ∧
  (∀ (s : State) (c : Nat) (o : EngOp), o.conv.srcr = false → o.conv.dstr = false →
    let n := convGroups o.kind o.conv * groupBytes o.conv.sf.toNat
    let m := convGroups o.kind o.conv * groupBytes o.conv.df.toNat
    let blocks := (List.range (convGroups o.kind o.conv)).map fun g =>
      readN s.mem (localAddr c o.src + g * groupBytes o.conv.sf.toNat) (groupBytes o.conv.sf.toNat)
    rangeStill s o o.src n = .yes → rangeStill s o o.dst m = .yes → failedIn s (localAddr c o.src) n = none →
    (if 8 ≤ o.conv.sf.toNat then blocks.findSome? (mxCheck (o.conv.sf.toNat - 8)) else none) = none →
    convRun s c o = putOp (engPut s (opSrc c 3 o 0) (localAddr c o.dst)
      ((convOut o blocks).flatMap fun x => bytesOf x.1 (groupBytes o.conv.df.toNat)))
      { o with phase := .running, bytes := m, flags := allFlags ((convOut o blocks).map (·.2)) }) ∧
  (∀ (s : State) (c : Nat) (o : EngOp), (getCore s (.tile c)).convOps.find? (·.started) = some o → o.conv.srcr = false → o.conv.dstr = false →
    Becomes (.convOpComplete (.tile c)) s (opFlags (opBar (dropOp s o) c o.conv.ben o.conv.bar.toNat o) o)) ∧
  (∀ (s : State) (c i : Nat) (o : EngOp), (getCore s (.tile c)).matOps[i]? = some o → nextOfAct (getCore s (.tile c)).matOps o = true → opKilled s o = false →
    (o.phase = .queued → o.kind ≤ 2 → o.mma.ben = false → Becomes (.matrixOpStart (.tile c) i) s (putOp s { o with phase := .past })) ∧
    (o.phase = .queued → 2 < o.kind → o.kind ≤ 7 → Becomes (.matrixOpStart (.tile c) i) s (accAsk s c o)) ∧
    (o.phase = .past → ∀ u, matSlots s c o = some u → Becomes (.matrixOpStart (.tile c) i) s u) ∧
    (o.phase = .atRings → matReady s c (getCore s (.tile c)).matOps o = true → ((getCore s (.tile c)).matOps.take i).any (matReady s c (getCore s (.tile c)).matOps) = false →
      Becomes (.matrixOpStart (.tile c) i) s (matRun s c o))) ∧
  (∀ (s : State) (c : Nat) (o : EngOp),
    (o.kind = 3 → matRun s c o = putOp (freshTile s o ⟨[], [], (tileOf s o).anch, false, false⟩) { o with phase := .running }) ∧
    (o.kind = 4 → matRun s c o = putOp (freshTile s o ⟨[], [], (BitVec.ofNat 16 o.seed.toNat).toInt, false, false⟩) { o with phase := .running }) ∧
    (o.kind = 7 → tileBad s o = false → matRun s c o = putOp s { o with phase := .running, value := accStatus (tileOf s o) }) ∧
    (o.kind = 7 → tileBad s o = true → matRun s c o = faultOp121 s o 0x2C 0 0)) ∧
  (∀ (s : State) (c i : Nat) (o : EngOp), (getCore s (.tile c)).matOps[i]? = some o → o.phase = .running →
    (o.kind = 7 → Becomes (.matrixOpComplete (.tile c) i) s (landReply (dropOp s o) o.who o.id o.value.toNat)) ∧
    (o.kind ≤ 4 → Becomes (.matrixOpComplete (.tile c) i) s (dropOp s o)) ∧
    (o.kind = 5 ∨ o.kind = 6 → o.accF.ring = false → Becomes (.matrixOpComplete (.tile c) i) s
      (wrapCause (opFlags (opBar (dropOp s o) c o.accF.ben o.accF.bar.toNat o) o) o (wrapTraps s o)))) ∧
  (∀ (s : State) (o : EngOp) (k : Ctx), findActivation s o.who.ctx o.who.gen = some k →
    wrapTraps s o = (o.wrapped && (k.fpctlAt o).getLsbD 20)) ∧
  (∀ (s : State) (ag : Agent) (b : Bool) (f : Forward), (getCore s ag).forwards.find? (·.1 == b) = some (b, f) →
    let others := (getCore s ag).forwards.filter (·.1 != b)
    (f.slot = none → f.asked = false → Becomes (.mmrotForward ag b) s
      (engAsk (modCore s ag fun co => { co with forwards := (b, { f with asked := true }) :: others }) f.dest f.ring (.forward ag b) .waite 1)) ∧
    (∀ i, f.slot = some i →
      let off := (ringOf s f.dest f.ring).slotOff i
      let admitted := engWindow s (agentNo ag) f.dest off f.data.length f.op.launch true = true ∧ engRole (getCore s (.tile f.dest)) f.op.id off f.data.length ≠ .no
      (¬admitted → Becomes (.mmrotForward ag b) s
        (faultOp121 (modCore s ag fun co => { co with forwards := others }) f.op 0x27 0 f.ring)) ∧
      (admitted → ∀ t, overVn2 s (nodeOf ag) (.core f.dest) = some t → Becomes (.mmrotForward ag b) s
        (modCore (engAdvance (engPut t (opSrc (agentNo ag) 2 f.op f.ring) (localAddr f.dest off) f.data)
          f.dest f.ring .advp 1) ag fun co => { co with forwards := others })) ∧
      (admitted → overVn2 s (nodeOf ag) (.core f.dest) = none → Becomes (.mmrotForward ag b) s s))) ∧
  (∀ (s : State) (c p : Nat) (v : Vec) (l : List Vec), c < 2048 → p < 4 → (getCore s (.tile c)).linkOut[Fin.ofNat 4 p] = v :: l →
    let u := modCore s (.tile c) fun co => { co with linkOut := co.linkOut.set (Fin.ofNat 4 p) l }
    let there := Agent.tile (neighbour c p)
    cutOff s (.core c) (.core (neighbour c p)) = false → forwarding s (neighbour c p) (oppositePort p) = false → ((getCore u there).linkIn[Fin.ofNat 4 (oppositePort p)]).length < 8 →
    Becomes (.linkVectorArrival (4 * c + p)) s (modCore u there fun co => { co with
      linkIn := co.linkIn.set (Fin.ofNat 4 (oppositePort p)) (co.linkIn[Fin.ofNat 4 (oppositePort p)] ++ [v]) }))

/-- Delivery of causes, watchpoints and snapshots (R224, R340 to R355). -/
def Obligations.TrapEventsAnswer : Prop :=
  (∀ (s : State) (k : CtxKey) (code : BitVec 6) (tval : Word), (getCtx s k).used = true → (getCtx s k).killed = false → (getCtx s k).quiet = true → (getCtx s k).stepped = none → (getCtx s k).frames = [] →
    Becomes (.trapEntry k code tval) s (nowReady (takeTrap s k code.toNat tval (getCtx s k).pc false) k)) ∧
  (∀ (s : State) (k : CtxKey), canDeliver (getCtx s k) = true → budgetDue s k = true → Becomes (.asyncCauseDelivery k) s (budgetExpiry s k)) ∧
  (∀ (s : State) (k : CtxKey), canDeliver (getCtx s k) = true → budgetDue s k = false →
    ((getCtx s k).due12 = true → (getCtx s k).inTrap = false → Becomes (.asyncCauseDelivery k) s
      (nowReady (takeTrap (setCtx s k { (getCtx s k) with due12 := false }) k 0x12 (w64 (getCtx s k).actLoaded) (getCtx s k).pc true) k)) ∧
    (∀ e, (getCtx s k).due12 = false → (getCtx s k).nextCause = some e → e.code ≠ 0x28#6 → Becomes (.asyncCauseDelivery k) s (takeQueued s k e))) ∧
  (∀ (s : State) (k : CtxKey) (e : CauseEntry), canDeliver (getCtx s k) = true → budgetDue s k = false → (getCtx s k).due12 = false → (getCtx s k).nextCause = some e → e.code = 0x28#6 →
    Becomes (.copyCompletionInterrupt k) s (enterInterrupt s k e) ∧ Becomes (.asyncCauseDelivery k) s (enterInterrupt s k e)) ∧
  (∀ (c : Ctx) (e : CauseEntry), c.nextCause = some e → c.inTrap = false ∧ e.depth = c.depth ∧ (e.code = 0x28#6 → c.st 8 = true ∧ c.inUi = false)) ∧
  (∀ (s : State) (k : CtxKey) (b : Nat), (getCtx s k).stepped = some b → (getCtx s k).used = true → (getCtx s k).killed = false → (getCtx s k).quiet = true → (getCtx s k).inTrap = false →
    Becomes (.singleStep k) s (nowReady (takeTrap (setCtx s k { (getCtx s k) with stepped := none }) k 0x34 (w64 b) (getCtx s k).pc true) k)) ∧
  (∀ (s : State) (k : CtxKey) (code : BitVec 6) (tval : Word), (getCtx s k).used = true → (getCtx s k).killed = false → 0 < (getCtx s k).depth → (getCtx s k).quiet = true →
    code.toNat ≠ 0x12 → sinksOut s k = false → let u := startWriteBacks { s with cur := k, latch := none } .core
    released u .core = true →
    Becomes (.gateUnwind k code tval) s (nowReady (unwind { acquireNow u .core with cur := s.cur, latch := s.latch } k code.toNat tval (getCtx s k).pc) k)) ∧
  (∀ (s : State) (k : CtxKey), Becomes (.statusLostaClear k) s (modCtx s k fun c => { c with status := stSet c.status 15 false })) ∧
  (∀ (s : State) (ag : Agent) (n : Fin 4) (kind : Fin 11) (writer : BitVec 11) (addr : BitVec 48) (t : Trig),
    (s.dev.trigs.find? fun t => t.ag == ag && t.n == n.val && t.kind == kind.val && t.writer == writer.toNat && t.addr % 2 ^ 48 == addr.toNat) = some t →
    Becomes (.watchpointTrigger ag n kind writer addr) s
      (watchHit (modDev s fun d => { d with trigs := d.trigs.erase t }) ag n (w64 (writer.toNat + kind.val * 2 ^ 11 + addr.toNat * 2 ^ 16)))) ∧
  (∀ (s : State) (ag : Agent) (n : Fin 4) (tval : Word) (who : Who),
    let w := (getCore s ag).watches[n]
    let counted := modCore s ag fun co => { co with watches := co.watches.set n { w with hits := Nat.min (w.hits + 1) 0xFFFF } }
    (w.deliv = 0 → w.who = some who → watchHit s ag n tval = raiseAsync counted who 0x32 tval) ∧
    (w.deliv = 1 → watchHit s ag n tval = record counted 0x32 (agentNo ag) [tval.toNat, n.val]) ∧
    (w.deliv = 2 → s.dev.snap.watchEn = true → watchHit s ag n tval = snapshot (record counted 0x32 (agentNo ag) [tval.toNat, n.val]) 4)) ∧
  (∀ (s : State) (c slot : Nat) (n : Fin 4) (v : Word), Becomes (.wpctlWrite ⟨.tile c, slot⟩ n v) s (writeWatch s ⟨.tile c, slot⟩ n v)) ∧
  (∀ (s : State) (c slot : Nat) (n : Fin 4), Becomes (.wpctlRead ⟨.tile c, slot⟩ n) s
    { modCore s (.tile c) (fun co => { co with watches := co.watches.set n { co.watches[n] with hits := 0 } }) with
      devRead := (getCore s (.tile c)).watches[n].word }) ∧
  (∀ (s : State) (src : BitVec 4), Becomes (.snapshotTrigger src) s (snapshot s src) ∧
    (s.dev.snap.held = true → snapshot s src =
      modDev s fun d => { d with snap := { d.snap with ignored := Nat.min (d.snap.ignored + 1) 0xFFFFFFFF } }) ∧
    (s.dev.snap.held = false → (snapshot s src).dev.snap.held = true ∧ (snapshot s src).dev.snap.last = src ∧
      (snapshot s src).dev.snap.seq = s.dev.snap.seq + 1)) ∧
  (∀ (s : State), s.dev.snap.pinEn = true → Becomes .snapshotPin s (snapshot s 2)) ∧
  (∀ (s t : State) (dtime : Word), timeTo s dtime.toNat = some t → t.dev.snap.armed = true → t.dev.snap.timeEn = true →
    t.dev.snap.time.toNat ≤ dtime.toNat → Becomes (.snaptimeReached dtime) s
      (snapshot (modDev t fun d => { d with snap := { d.snap with armed := false } }) 8)) ∧
  (∀ (s : State), Becomes .rearm s (modDev s fun d => { d with snap := { d.snap with held := false } }))

/-- Time, takes, images, the call sheet and control cores (R2, R18, R315 to R336). That disciplined time, which moves on at the model's free choice (log entries 5 and 6), does not pass an event that is due (the timeTo and timeCap clause) is the model's choice (log entry 76). -/
def Obligations.TakeEventsAnswer : Prop :=
  (∀ (s : State) (v : BitVec 32), fwWorks s 7 = true → Becomes (.servoStep v) s (modDev s fun d => { d with time := { d.time with slewLeft := d.time.slewLeft + v.toInt } })) ∧
  (∀ (s t : State), timeTo s (s.dev.time.dtime + (1000 * s.dev.time.slewLeft.natAbs - s.dev.time.slewAcc)) = some t →
    Becomes .slewComplete s t ∧ t.dev.time.slewLeft = 0) ∧
  (∀ (s t : State) (now : Nat), timeTo s now = some t → s.dev.time.dtime ≤ now ∧ (∀ cap, timeCap s = some cap → now ≤ cap) ∧
    t = modDev s fun d => { d with time := d.time.advance now }) ∧
  (∀ (s : State), Becomes (.timestatErrClear) s (modDev s fun d => { d with time := { d.time with err := false } })) ∧
  (∀ (s : State), fwWorks s 7 = true → (s.dev.time.locked = false → Becomes (.lockedChange true) s (modDev s fun d => { d with time := { d.time with locked := true } })) ∧
    (s.dev.time.locked = true → ∃ u, Becomes (.lockedChange false) s u ∧ u.dev.time.locked = false ∧ u.dev.time.timeLost = true)) ∧
  (∀ (s : State) (v : Word), Becomes (.timectlWrite v) s (timectlSet s v) ∧
    (s.dev.time.period ≤ v.toNat % 2 ^ 32 → (timectlSet s v).dev.time.err = true ∧ (timectlSet s v).dev.time.run = s.dev.time.run ∧
      (timectlSet s v).dev.time.phase = s.dev.time.phase ∧ (timectlSet s v).dev.time.guardNs = s.dev.time.guardNs) ∧
    (v.toNat % 2 ^ 32 < s.dev.time.period → s.dev.time.run = false → let u := (timectlSet s v).dev.time
      u.phase = v.toNat % 2 ^ 32 ∧ u.guardNs = Nat.max 400 (bits v.toNat 58 48) ∧ u.run = bit v.toNat 62 ∧ u.expen = bit v.toNat 63 ∧ u.err = s.dev.time.err)) ∧
  (∀ (s : State) (v : Word),
    (s.dev.time.run = false → 10000 ≤ v.toNat % 2 ^ 32 → v.toNat % 2 ^ 32 ≤ 100000000 → bits v.toNat 63 32 < v.toNat % 2 ^ 32 →
      s.dev.time.phase < v.toNat % 2 ^ 32 → Becomes (.takecfgWrite v) s (modDev s fun d => { d with time := { d.time with period := v.toNat % 2 ^ 32, egress := bits v.toNat 63 32 } })) ∧
    (s.dev.time.run = true → Becomes (.takecfgWrite v) s (modDev s fun d => { d with time := { d.time with err := true } }))) ∧
  (∀ (s : State) (v : Word), (s.dev.time.run = false → s.dev.time.expen = false → Becomes (.epochWrite v) s (s)) ∧
    (s.dev.time.run = false → s.dev.time.expen = true → Becomes (.epochWrite v) s (modDev s fun d => { d with time := { d.time with epoch := v, epochNow := v.toNat } })) ∧
    (s.dev.time.run = true → Becomes (.epochWrite v) s (modDev s fun d => { d with time := { d.time with err := true } }))) ∧
  (∀ (s u : State) (diff : BitVec 32), (diff.toInt < -2 ∨ 2 < diff.toInt) → diverge s diff.toInt = some u →
    let tval : Word := w64 (2 + diff.toNat * 2 ^ 32)
    Becomes (.dtimeDivergence diff) s (raiseDev (record u 0x39 0 [tval.toNat]) (logCore u) 0x39 tval) ∧
    s.dev.time.dtime1 ≤ u.dev.time.dtime1 ∧ s.dev.time.dtime ≤ u.dev.time.dtime) ∧
  (∀ (s : State), s.dev.image.loaded.isSome = true → s.dev.image.expen = false → Becomes (.mapsw) s (modDev s fun d => { d with image := { d.image with mapPend := true } })) ∧
  (∀ (s : State), Becomes .csstatRead s { (csstatGet s).2 with devRead := (csstatGet s).1 } ∧ (csstatGet s).2.dev.sheet.late = 0) ∧
  (∀ (s : State), Becomes .detstatRead s { modDev s (fun d => { d with slips := 0 }) with
    devRead := w64 (s.dev.slips % 2 ^ 16 * 2 ^ 48 + s.dev.lastSlip % 2 ^ 48) }) ∧
  (∀ (s t : State) (dtime : Word), s.dev.time.run = true → swapPending s = false → timeTo s dtime.toNat = some t →
    s.dev.time.due s.dev.time.first ≤ dtime.toNat + 4 → dtime.toNat ≤ s.dev.time.due s.dev.time.first + 4 → Becomes (.clapper dtime) s (clapper s dtime.toNat)) ∧
  (∀ (s : State) (now : Nat), s.dev.power.failing ≠ 0 → clapper s now =
    modDev s fun d => { d with time := { d.time.advance now with takeno := d.time.first, first := d.time.first + 1, fired := true, epochNow := d.time.epochSet }, pair := { d.pair with hbtol := if d.pair.hbtolBack then 5000 else d.pair.hbtol, hbtolBack := false } }) ∧
  (∀ (s t : State) (dtime : Word), s.dev.time.run = true → s.dev.time.fired = true → s.dev.image.egressDone = false → s.dev.power.failing ≤ 1 →
    s.dev.time.due s.dev.time.takeno + s.dev.time.egress ≤ dtime.toNat → timeTo s dtime.toNat = some t → Becomes (.egressSwap dtime) s (egressSwap t)) ∧
  (∀ (s t : State) (i at_ : Nat) (f : FrameDesc), s.dev.image.egMaps.descs[i]? = some f → s.dev.time.fired = true →
    drives s = true → i ∉ s.dev.image.sent → (s.dev.image.egMaps.outMap.any fun m => m.valid && m.stream == i) = true →
    sendTime s f = some at_ → timeTo s at_ = some t →
    Becomes (.frameTransmit i) s (modDev { t with fresh := t.fresh + f.len } fun d => { d with image := { d.image with
      sent := i :: d.image.sent, wire := (f.header ++ buildPayload t i f.len) :: d.image.wire } }) ∧
    windowOpen s f at_ = true ∧ s.dev.time.dtime ≤ at_) ∧
  (∀ (s t : State) (f : Frame) (stream : Nat), f.fcsOk = true → f.duplicate = false → f.stream = some stream → tooLate s.dev.time f = false →
    timeTo s (Nat.max s.dev.time.dtime f.endNs) = some t →
    (dropOf t f stream = none → Becomes (.frameIngress f) s (acceptFrame t f)) ∧
    (∀ filter kind, dropOf t f stream = some (filter, kind) → Becomes (.frameIngress f) s (noteDrop t filter (gateTval stream filter f.port kind 0)))) ∧
  (∀ (s t : State) (f : Frame), f.fcsOk = true → f.duplicate = false → f.stream = none → tooLate s.dev.time f = false →
    timeTo s (Nat.max s.dev.time.dtime f.endNs) = some t → Becomes (.frameIngress f) s (toFw7 t)) ∧
  (∀ (s : State) (f : Frame), (s.dev.time.run = false ∨ f.endNs + s.dev.time.guardNs < s.dev.time.due s.dev.time.first → acceptFrame s f = takeFrame s f) ∧
    (s.dev.time.run = true → s.dev.time.due s.dev.time.first ≤ f.endNs + s.dev.time.guardNs →
      acceptFrame s f = modDev s fun d => { d with image := { d.image with late := d.image.late ++ [f] } })) ∧
  (∀ (s t : State) (i : Nat) (e : SheetEntry), s.dev.sheet.active[i]? = some e → fwWorks s 2 = true → e.abs = false → entryDue s.dev.time e = true →
    entryFirst s i e = true → let now := Nat.max s.dev.time.dtime (entryTime s.dev.time e)
    timeTo s now = some t → Becomes (.callSheetEntryFire i) s (fireEntry t i e now)) ∧
  (∀ (s t : State) (i : Nat) (dtime : Word) (e : SheetEntry), s.dev.sheet.active[i]? = some e → timeTo s dtime.toNat = some t → fwWorks s 2 = true →
    e.valid = true → e.abs = true → entryFirst s i e = true → e.word 1 ≤ dtime.toNat →
    Becomes (.oneShotFire i dtime) s (fireEntry t i e dtime.toNat)) ∧
  (∀ (s : State) (c : Fin 8), Becomes (.vtakenoRead c) s { (modDev s fun d => { d with ctrl := d.ctrl.set c { d.ctrl[c] with takeIrq := false } }) with devRead := w64 (takeNo s) }) ∧
  (∀ (s : State) (c : Fin 8), Becomes (.vcauseRead c) s { (modDev s fun d => { d with ctrl := d.ctrl.set c { d.ctrl[c] with devIrq := false } }) with devRead := (s.dev.ctrl[c]).vcause }) ∧
  (∀ (s : State) (c : Fin 8), Becomes (.voutdone c) s (modDev s fun d => { d with ctrl := d.ctrl.set c { d.ctrl[c] with outdone := true } })) ∧
  (∀ (s : State) (c : Fin 8) (v : Word), (s.dev.ctrl[c]).busy = false →
    (8 < bits v.toNat 35 32 → Becomes (.messagePortSend c v) s (modDev s fun d => { d with ctrl := d.ctrl.set c { d.ctrl[c] with err := 4 } })) ∧
    (bits v.toNat 35 32 ≤ 8 → 0xFFFE ≤ bits v.toNat 31 16 → Becomes (.messagePortSend c v) s (modDev s fun d => { d with ctrl := d.ctrl.set c { d.ctrl[c] with err := 5 } })) ∧
    (bits v.toNat 35 32 ≤ 8 → bits v.toNat 31 16 < 0xFFFE → v.toNat % 2 ^ 11 % 4 = 3 → Becomes (.messagePortSend c v) s (modDev s fun d => { d with ctrl := d.ctrl.set c { d.ctrl[c] with err := 2 } })) ∧
    (bits v.toNat 35 32 ≤ 8 → bits v.toNat 31 16 < 0xFFFE → v.toNat % 2 ^ 11 % 4 ≠ 3 →
      let ty : BitVec 16 := BitVec.ofNat 16 (bits v.toNat 31 16)
      Becomes (.messagePortSend c v) s (sendPkt (modDev s fun d => { d with ctrl := d.ctrl.set c { d.ctrl[c] with busy := true } }) (.ctrl c.val) (.core (v.toNat % 2 ^ 11)) 0
        (.message ⟨ty, ty, portSlate s c, 0, (s.dev.ctrl[c]).data.toList.take (bits v.toNat 35 32), .ctrl c.val, none, none⟩ none none)))) ∧
  (∀ (s : State) (c : Fin 8), Becomes (.messagePortStatusRead c) s { (modDev s fun d => { d with ctrl := d.ctrl.set c { d.ctrl[c] with err := 0 } }) with
    devRead := w64 (b2n (s.dev.ctrl[c]).busy + (s.dev.ctrl[c]).err % 256 * 256) }) ∧
  (∀ (s : State) (c : Fin 8) (q : Fin 4) (v slate : Word) (l : List (Word × Word)), (s.dev.ctrl[c]).tested[q] = true → (s.dev.ctrl[c]).results[q] = (v, slate) :: l →
    ∃ u, Becomes (.popv c q) s u ∧ u.devRead = v ∧ (u.dev.ctrl[c]).results[q] = l ∧ (u.dev.ctrl[c]).tested[q] = false) ∧
  (∀ (s : State) (c : Fin 8) (q : Fin 4) (v slate : Word) (l : List (Word × Word)), (s.dev.ctrl[c]).results[q] = (v, slate) :: l →
    (slate = 0 ∨ (s.dev.ctrl[c]).maxage[q] = 255 ∨ slateAge s slate ≤ (s.dev.ctrl[c]).maxage[q]) →
    ∃ u, Becomes (.pops c q) s u ∧ u.devRead = slate ∧ (u.dev.ctrl[c]).results[q] = (v, slate) :: l ∧ (u.dev.ctrl[c]).tested[q] = true) ∧
  (∀ (s t : State) (c : Fin 8) (q : Fin 4) (v slate : Word), appendResult s (4 * c.val + q.val) v slate = some t →
    Becomes (.resultQueueAppend c q v slate) s t)

/-- The pair (R23, R24, R358 to R364). -/
def Obligations.PairEventsAnswer : Prop :=
  (∀ (s : State) (mismatch unrec : Bool), Becomes (.pairstatClear mismatch unrec) s (modDev s fun d => { d with pair := { d.pair with mismatch := d.pair.mismatch && !mismatch, unrec := d.pair.unrec && !unrec } })) ∧
  (∀ (s : State) (v : PartnerView), s.dev.pair.paired = false → s.dev.pair.enable = true → fwWorks s 6 = true →
    let r := pairReason (modDev s fun d => { d with pair := { d.pair with linkUp := v.linkUp } }) v
    (r ≠ 0 → Becomes (.pairForm v) s (modDev s fun d => { d with pair := { d.pair with linkUp := v.linkUp, reason := r } })) ∧
    (r = 0 → ∃ u, Becomes (.pairForm v) s u ∧ u.dev.pair.paired = true ∧ u.dev.pair.member = s.dev.pair.role ∧
      u.dev.pair.driving = (!s.dev.pair.role && !s.dev.pair.rejoin) ∧ u.dev.pair.misses = 0 ∧ u.dev.pair.reason = 0)) ∧
  (∀ (s : State) (v : PartnerView), (s.dev.pair.paired = true ∨ s.dev.pair.enable = false ∨ fwWorks s 6 = false) →
    Becomes (.pairForm v) s (modDev s fun d => { d with pair := { d.pair with linkUp := v.linkUp } })) ∧
  (∀ (s : State) (v : PartnerView), pairReason s v = 0 → v.linkUp = true ∧ v.role ≠ s.dev.pair.role ∧ v.epoch.toNat = s.dev.time.epochNow ∧
    v.period = s.dev.time.period ∧ v.egress = s.dev.time.egress ∧ v.guard = s.dev.time.guardNs ∧ v.configDigest = configDigest s ∧
    1500 ≤ s.dev.time.guardNs) ∧
  (∀ (s : State) (entry : Nat) (data : List Byte) (seqNo : BitVec 16), s.dev.pair.paired = true → s.dev.pair.linkUp = true → s.dev.pair.mirroring = true →
    (s.dev.time.first ∈ s.dev.pair.markerGot → Becomes (.mirrorWrite entry data seqNo) s (modDev s fun d => { d with pair := { d.pair with mirrorLate := d.pair.mirrorLate ++ [⟨entry, data, seqNo⟩] } })) ∧
    (s.dev.time.first ∉ s.dev.pair.markerGot → Becomes (.mirrorWrite entry data seqNo) s (takeMirrored s ⟨entry, data, seqNo⟩))) ∧
  (∀ (s t : State), s.dev.pair.paired = true → s.dev.time.run = true → s.dev.time.first ∉ s.dev.pair.markerSent →
    timeTo s (Nat.max s.dev.time.dtime (s.dev.time.due s.dev.time.first - s.dev.time.guardNs)) = some t →
    Becomes .mirrorMarkerSend s (modDev t fun d => { d with pair := { d.pair with markerSent := s.dev.time.first :: d.pair.markerSent.take 1, mirroring := d.pair.mirroring || d.pair.markerGot.contains s.dev.time.first } })) ∧
  (∀ (s : State) (take : Nat), s.dev.pair.paired = true → s.dev.pair.linkUp = true → take ∉ s.dev.pair.markerGot →
    (s.dev.time.fired = false ∨ s.dev.time.takeno < take) →
    Becomes (.mirrorMarkerArrival take) s (modDev s fun d => { d with pair := { d.pair with markerGot := take :: d.pair.markerGot.take 1, mirroring := d.pair.mirroring || d.pair.markerSent.contains take } })) ∧
  (∀ (s : State), s.dev.pair.paired = true → s.dev.time.fired = true → s.dev.power.failing = 0 → s.dev.time.takeno ∉ s.dev.pair.markerGot →
    ∃ u, Becomes .unreconciledTake s u ∧ u.dev.pair.unrec = true ∧ u.dev.pair.mirroring = false) ∧
  (∀ (s : State), s.dev.pair.paired = true → s.dev.time.fired = true → s.dev.image.egressDone = true → fwWorks s 6 = true → s.dev.pair.digestSent ≠ some s.dev.time.takeno →
    (s.dev.pair.peerDigests.find? (·.1 == s.dev.time.takeno)) = none → Becomes (.takeDigestSend) s (modDev s fun d => { d with pair := { d.pair with digestSent := some s.dev.time.takeno, ownDigests := d.pair.ownDigests ++ [(s.dev.time.takeno, takeDigest s)] } })) ∧
  (∀ (s : State) (take : Nat) (digest own : Word), s.dev.pair.paired = true → s.dev.pair.linkUp = true → s.dev.time.takeno < take + 2 →
    s.dev.pair.ownDigests.find? (·.1 == take) = some (take, own) → ∃ u, Becomes (.takeDigestArrival take digest) s u ∧
      u.dev.pair.mismatch = (s.dev.pair.mismatch || digest != own) ∧ (digest ≠ own → u.dev.pair.mmtake = BitVec.ofNat 32 take)) ∧
  (∀ (s : State) (take : Nat) (own : Word), (s.dev.pair.ownDigests.find? fun x => x.1 + 2 ≤ s.dev.time.takeno) = some (take, own) →
    ∃ u, Becomes .digestTimeout s u ∧ u.dev.pair.mismatch = true ∧ u.dev.pair.mmtake = BitVec.ofNat 32 take) ∧
  (∀ (s t : State) (half due : Nat), beatDue s = some (half, due) → timeTo s (Nat.max s.dev.time.dtime due) = some t →
    Becomes .heartbeatSend s (modDev t fun d => { d with pair := { d.pair with
      beats := ((takeNo t, d.pair.driving, d.pair.term) :: d.pair.beats).take 4, lastBeat := some half } })) ∧
  (∀ (s : State), s.dev.pair.paired = true → s.dev.time.run = true → s.dev.time.fired = true → fwWorks s 6 = true →
    let n := s.dev.time.takeno
    (s.dev.pair.lastBeat ≠ some (2 * n) → s.dev.pair.lastBeat ≠ some (2 * n + 1) → beatDue s = some (2 * n, s.dev.time.due n)) ∧
    (s.dev.pair.lastBeat = some (2 * n) → beatDue s = some (2 * n + 1, s.dev.time.due n + s.dev.time.period / 2))) ∧
  (∀ (s : State) (take : Nat) (driving : Bool) (term : BitVec 16), s.dev.pair.paired = true → s.dev.pair.linkUp = true →
    (s.dev.pair.driving = true → driving = true → s.dev.pair.term.toNat < term.toNat →
      Becomes (.heartbeatArrival take driving term) s (modDev s fun d => { d with pair := { d.pair with misses := 0, driving := false, term := term, judged := halfAt s.dev.time s.dev.time.dtime } })) ∧
    ((s.dev.pair.driving = false ∨ driving = false ∨ term.toNat ≤ s.dev.pair.term.toNat) →
      Becomes (.heartbeatArrival take driving term) s (modDev s fun d => { d with pair := { d.pair with misses := 0, judged := halfAt s.dev.time s.dev.time.dtime } }))) ∧
  (∀ (s : State) (j : Nat), s.dev.pair.paired = true → s.dev.time.run = true → s.dev.time.fired = true → fwWorks s 6 = true →
    s.dev.pair.judged = some j → missDue s = some (j + 1, s.dev.time.halfDue (j + 1) + s.dev.pair.hbtol)) ∧
  (∀ (s t : State) (half due : Nat), missDue s = some (half, due) → timeTo s (Nat.max s.dev.time.dtime due) = some t →
    (s.dev.pair.misses = 0 → Becomes .heartbeatMiss s (modDev t fun d => { d with pair := { d.pair with misses := 1, judged := some half } })) ∧
    (s.dev.pair.misses = 1 → s.dev.pair.driving = false → ∃ u, Becomes .heartbeatMiss s u ∧ u.dev.pair.misses = 2 ∧ u.dev.pair.driving = true ∧
      u.dev.pair.term = s.dev.pair.term + 1 ∧ u.dev.pair.openAfter = some t.dev.time.dtime) ∧
    (s.dev.pair.driving = true → ∃ u, Becomes .heartbeatMiss s u ∧ u.dev.pair.driving = true ∧ u.dev.pair.term = s.dev.pair.term)) ∧
  (∀ (s : State), ∃ u, Becomes .continuityLinkDown s u ∧ u.dev.pair.linkUp = false ∧ u.dev.pair.paired = s.dev.pair.paired ∧
    u.dev.pair.driving = s.dev.pair.driving)

/-- The guest socket, the host port and launches (R366 to R375, R394 to R404, R414). The model's choices: an outside access is of at most 64 bytes in one aligned block and one step (log entry 98), commands are served until the drain has ended (log entry 102), a release of a queue of a core that is no tile core is malformed (log entry 103), and the layout of a completion (log entry 142). -/
def Obligations.GuestAndHostEventsAnswer : Prop :=
  (∀ (s t : State) (n j : Nat) (src : Node) (vn : Fin 4) (a : Access) (bs : List Byte) (e : BitVec 12) (fwd : Bool),
    takePkt s n = some (⟨src, .guest, vn, .access a, e, fwd⟩, t) →
    a.op = .st bs → submitBase ≤ a.addr → bs.length = 64 → a.jn = some j →
    let q : Fin 64 := Fin.ofNat 64 ((a.addr - submitBase) / 64)
    let x := t.dev.guest.queues[q]
    let p := stampPacket (wordsOf bs) q x a.slate (agentNo a.src)
    (queueTakes t.dev.guest q a.launch = true → packetFormed (wordsOf bs) = true → Becomes (.guestSubmit n) s
      (sendPkt (modGuest (modGq t q fun x => { x with seq := x.seq + 1 }) fun g =>
        { g with reqs := g.reqs ++ [⟨q, x.seq, a.who, p⟩], sent := p :: g.sent }) .guest (nodeOf a.src) 1 (.ack j))) ∧
    ((queueTakes t.dev.guest q a.launch = false ∨ packetFormed (wordsOf bs) = false) → Becomes (.guestSubmit n) s (refuse t .guest a 0x29 (w64 a.va)))) ∧
  (∀ (g : GuestPort) (q : Fin 64) (la : Option Nat), queueTakes g q la = true → (g.queues[q]).valid = true ∧ la = some (g.queues[q]).launch ∧
    (g.queues[q]).held = false ∧ g.reqs.countP (·.q == q) < (g.queues[q]).depth ∧ g.en = true ∧ g.up = true) ∧
  (∀ (s : State) (q : Fin 64) (n : BitVec 16) (status : Word) (r : GuestReq), findReq s q n = some r →
    (∀ u, completeReq s r status = some u → Becomes (.guestCompletion q n status) s u) ∧
    (completeReq s r status = none → Becomes (.guestCompletion q n status) s s) ∧
    Becomes (.guestFault q n status) s (faultReq s r status) ∧ Becomes (.guestRequestTimeout q n) s (faultReq s r (BitVec.allOnes 64))) ∧
  (∀ (s : State) (r : GuestReq) (status : Word), let w0 := pktWord r.packet 0
    let answered (t : State) : State := if bit w0 29 then completionMessage t r status else t
    let a := pktWord r.packet 2
    let own := ownerCheck (dropReq s r) (bits a 43 33) (bits a 19 0) 8 .at_ none false (some (s.dev.guest.queues[r.q]).launch)
    (bit w0 28 = false → completeReq s r status = some (answered (dropReq s r))) ∧
    (bit w0 28 = true → own = .later → completeReq s r status = none) ∧
    (bit w0 28 = true → own = .perform → completeReq s r status =
      some (answered (modGuest (fePerform (dropReq s r) (localAddr (bits a 43 33) (bits a 19 0)) (.stfo status) 9 0 none).2 fun g =>
        { g with released := addSorted (localAddr (bits a 43 33) (bits a 19 0)) g.released })))) ∧
  (∀ (s : State) (q : Fin 64) (n : BitVec 16) (status : Word), findReq s q n = none →
    Becomes (.guestCompletion q n status) s (record s 0 0 [1, q.val, n.toNat]) ∧ Becomes (.guestFault q n status) s (record s 0 0 [2, q.val, n.toNat])) ∧
  (∀ (s : State) (q : Fin 64), preemptDue s q = true →
    Becomes (.guestPreemptRequest q) s (modGq s q fun x => { x with held := true, preempting := true })) ∧
  (∀ (s : State) (q : Fin 64), (s.dev.guest.queues[q]).preempting = true →
    Becomes (.guestDrained q) s (modGq s q fun x => { x with preempting := false }) ∧
    Becomes (.guestSaved q) s (modGq s q fun x => { x with preempting := false }) ∧
    ∃ u, Becomes (.guestPreemptTimeout q) s u ∧ (u.dev.guest.queues[q]).block = true ∧ (u.dev.guest.queues[q]).preempting = false ∧
      ∀ r ∈ u.dev.guest.reqs, r.q ≠ q) ∧
  (∀ (s : State) (asid : BitVec 12) (a : OutsideAccess), s.dev.guest.en = true → s.dev.guest.up = true → outsideFormed a = true →
    (guestLaunch s.dev.guest asid = none → Becomes (.guestAccess asid a) s (refuseGuest s)) ∧
    (∀ la, guestLaunch s.dev.guest asid = some la →
      (∀ t, outsideAccess s a (guestTranslation s asid a.va (b2n a.store.isSome)) true 9 (some la) = .done t → Becomes (.guestAccess asid a) s t) ∧
      (outsideAccess s a (guestTranslation s asid a.va (b2n a.store.isSome)) true 9 (some la) = .held → Becomes (.guestAccess asid a) s (s)) ∧
      (outsideAccess s a (guestTranslation s asid a.va (b2n a.store.isSome)) true 9 (some la) = .refused → Becomes (.guestAccess asid a) s (refuseGuest s)))) ∧
  (∀ (s : State) (up : Bool), Becomes (.guestLinkTraining up) s (modGuest s fun g => { g with up := up })) ∧
  (∀ (s : State) (q : Fin 16), s.dev.sec.booted = true → ∃ u, Becomes (.hostDoorbell q) s u ∧ u.dev.host.doorbells = s.dev.host.doorbells ++ [q.val]) ∧
  (∀ (s : State) (tag : BitVec 32) (addr : Word), fwWorks s 2 = true → s.dev.sec.booted = true → (s.fws[1]).failed = false → s.dev.power.failing ≤ 1 → Becomes (.launch tag addr) s (launchImage s tag addr)) ∧
  (∀ (s : State) (tag : BitVec 32) (addr : Word), (∀ x, checkLaunch s ⟨s.mem, hostAddr addr⟩ = .error x →
      launchImage s tag addr = hostDone (record s 0 0 [x.2.1, x.2.2]) tag x.1) ∧
    (checkLaunch s ⟨s.mem, hostAddr addr⟩ = .ok () → let t := placeLaunch s ⟨s.mem, hostAddr addr⟩ tag ⟨[], []⟩
      (4096 * t.dev.nextPage ≤ dramEnd → launchImage s tag addr =
        hostDone (Machine.measure t 5 (readBytes s.mem (hostAddr addr) (Img.length ⟨s.mem, hostAddr addr⟩))) tag 0) ∧
      (dramEnd < 4096 * t.dev.nextPage → launchImage s tag addr = hostDone (record s 0 0 [4, 0]) tag 3))) ∧
  (∀ (s : State) (tag : BitVec 32) (la ty : BitVec 16) (role : Fin 4) (data : Word) (payload : List Word), s.dev.sec.booted = true → (s.fws[1]).failed = false → s.dev.power.failing ≤ 1 →
    (7 < payload.length → Becomes (.activeMessage tag la ty role data payload) s (hostDone s tag 2)) ∧
    (payload.length ≤ 7 → ∀ u, postActive s .hostFront la.toNat ty.toNat role.val (data.toNat % 2 ^ 48) none payload 0 = some u →
      Becomes (.activeMessage tag la ty role data payload) s (hostDone u tag 0)) ∧
    (payload.length ≤ 7 → postActive s .hostFront la.toNat ty.toNat role.val (data.toNat % 2 ^ 48) none payload 0 = none →
      Becomes (.activeMessage tag la ty role data payload) s (hostDone s tag 3))) ∧
  (∀ (s : State) (tag : BitVec 32) (addr : Word) (count : Nat) (sheet : BitVec 16), fwWorks s 2 = true → s.dev.sec.booted = true → (s.fws[1]).failed = false → s.dev.power.failing ≤ 1 →
    (1024 < count → Becomes (.loadCallSheet tag addr count sheet) s (hostDone s tag 2)) ∧
    (count ≤ 1024 → let l := (List.range count).map fun n => sheetEntryAt s.mem (hostAddr addr + 128 * n)
      (sheetAccepted s.dev.time.period l = true → Becomes (.loadCallSheet tag addr count sheet) s (hostDone (modDev s fun d => { d with sheet := { d.sheet with pending := some (sheet, l) } }) tag 0)) ∧
      (sheetAccepted s.dev.time.period l = false → Becomes (.loadCallSheet tag addr count sheet) s (hostDone s tag 3)))) ∧
  (∀ (s : State) (tag : BitVec 32) (core : Nat) (q : Fin 64), s.dev.sec.booted = true → (s.fws[1]).failed = false → s.dev.power.failing ≤ 1 →
    (core < 2048 → core % 4 ≠ 3 →
      Becomes (.releaseQueue tag core q) s (hostDone (modQueue s (.tile core) q fun x => { x with deadHold := false }) tag 0)) ∧
    ((2048 ≤ core ∨ core % 4 = 3) → Becomes (.releaseQueue tag core q) s (hostDone s tag 2))) ∧
  (∀ (s : State) (tag : BitVec 32) (la : BitVec 16), s.dev.sec.booted = true → (s.fws[1]).failed = false → s.dev.power.failing ≤ 1 →
    (findLaunch s la.toNat = none → Becomes (.endLaunch tag la) s (hostDone s tag 3)) ∧
    (∀ l, findLaunch s la.toNat = some l → l.ending = true → Becomes (.endLaunch tag la) s (hostDone s tag 3)) ∧
    (∀ l, findLaunch s la.toNat = some l → l.ending = false → Becomes (.endLaunch tag la) s (beginEnd s la.toNat (some tag)))) ∧
  (∀ (s : State) (tag : BitVec 32) (i o : Word), fwWorks s 7 = true → s.dev.sec.booted = true → (s.fws[1]).failed = false → s.dev.power.failing ≤ 1 →
    let m : Maps := ⟨inMapAt s (hostAddr i), outMapAt s (hostAddr o), descsFor s⟩
    let t : State := { s with fresh := s.fresh + 4096 + 9 * 512 }
    ((inMapAccepted s.dev.pair.paired m.inMap && outMapAccepted m.outMap m.descs) = true →
      Becomes (.loadImageMaps tag i o) s (hostDone (modDev t fun d => { d with image := { d.image with loaded := some m } }) tag 0)) ∧
    ((inMapAccepted s.dev.pair.paired m.inMap && outMapAccepted m.outMap m.descs) = false → Becomes (.loadImageMaps tag i o) s (hostDone t tag 3))) ∧
  (∀ (s : State) (tag : BitVec 32) (asid : BitVec 12) (gib : Nat), s.dev.sec.booted = true → (s.fws[1]).failed = false → s.dev.power.failing ≤ 1 →
    (1 ≤ gib → gib ≤ 64 → Becomes (.openAperture tag asid gib) s (hostDone (modDev s fun d => { d with host := { d.host with aperture := some (asid, gib) } }) tag 0)) ∧
    ((gib = 0 ∨ 64 < gib) → Becomes (.openAperture tag asid gib) s (hostDone s tag 2))) ∧
  (∀ (s : State) (a : OutsideAccess), outsideFormed a = true →
    (s.dev.host.aperture = none → Becomes (.hostApertureAccess a) s (returned s none)) ∧
    (∀ asid gib, s.dev.host.aperture = some (asid, gib) →
      (gib * 2 ^ 30 < a.va + a.size → Becomes (.hostApertureAccess a) s (returned s none)) ∧
      (a.va + a.size ≤ gib * 2 ^ 30 → ∀ t, outsideAccess s a ((walk s asid a.va (b2n a.store.isSome)).map fun t => (s, t)) false 8 none = .done t → Becomes (.hostApertureAccess a) s t) ∧
      (a.va + a.size ≤ gib * 2 ^ 30 → outsideAccess s a ((walk s asid a.va (b2n a.store.isSome)).map fun t => (s, t)) false 8 none = .held → Becomes (.hostApertureAccess a) s (s)) ∧
      (a.va + a.size ≤ gib * 2 ^ 30 → outsideAccess s a ((walk s asid a.va (b2n a.store.isSome)).map fun t => (s, t)) false 8 none = .refused → Becomes (.hostApertureAccess a) s (returned s none)))) ∧
  (∀ (s : State) (tag : BitVec 32) (key : List Byte),
    ((s.dev.sec.booted = true ∧ fwWorks s 0 = true) ∨ (s.dev.sec.booted = false ∧ s.dev.sec.recovery.isSome = true)) →
    (liveSlot s.dev.sec = none → s.dev.sec.owners.length < 8 → Becomes (.claimOwnership tag key) s (hostDone (modSec s fun x =>
      { x with owners := x.owners ++ [(Config.shake256 32 (key.take 57), false)] }) tag 0)) ∧
    (((liveSlot s.dev.sec).isSome = true ∨ 8 ≤ s.dev.sec.owners.length) → Becomes (.claimOwnership tag key) s (hostDone s tag 3))) ∧
  (∀ (s : State) (tag : BitVec 32) (sig : List Byte), fwWorks s 0 = true → s.dev.sec.booted = true → (s.fws[1]).failed = false → s.dev.power.failing ≤ 1 →
    (ownerSigned s.dev.sec sig (ownerItem s.dev.sec 9) = false → Becomes (.transferOwnership tag sig) s (hostDone s tag 3)) ∧
    (ownerSigned s.dev.sec sig (ownerItem s.dev.sec 9) = true → ∃ u t, Becomes (.transferOwnership tag sig) s u ∧ u = coldReset t ∧
      t.dev.reels.slot0 = none ∧ t.dev.reels.slot1 = none ∧
      (∀ o, t.dev.sec.owners[(liveSlot s.dev.sec).getD 0]? = some o → o.2 = true))) ∧
  (∀ (s : State) (tag : BitVec 32) (svn : BitVec 8) (sig : List Byte), fwWorks s 0 = true → s.dev.sec.advance = none → s.dev.sec.booted = true → (s.fws[1]).failed = false → s.dev.power.failing ≤ 1 →
    let signed := ownerSigned s.dev.sec sig (ownerItem s.dev.sec 10 ++ bytesOf svn.toNat 1)
    (signed = true → s.dev.sec.svn < svn.toNat → svn.toNat ≤ 64 → Becomes (.advanceVersion tag svn sig) s (modSec s fun x => { x with advance := some (tag, svn.toNat) })) ∧
    ((signed = false ∨ svn.toNat ≤ s.dev.sec.svn ∨ 64 < svn.toNat) → Becomes (.advanceVersion tag svn sig) s (hostDone s tag 3))) ∧
  (∀ (s : State) (tag : BitVec 32) (n : Nat), s.dev.sec.advance = some (tag, n) →
    (s.dev.sec.svn + 1 < n → burnFuse s = modSec s fun x => { x with svn := s.dev.sec.svn + 1 }) ∧
    (n ≤ s.dev.sec.svn + 1 → burnFuse s = hostDone (modSec s fun x => { x with svn := n, advance := none }) tag 0)) ∧
  (∀ (s : State) (n : Fin 16),
    let q := s.dev.host.queues[n]
    let b := commandAt s q q.head
    let tag := BitVec.ofNat 32 (bits (cmdWord b 0) 63 32)
    let u := modDev s fun d => { d with host := { d.host with
      queues := d.host.queues.set n { q with head := (q.head + 1) % q.size, new := q.new - 1 }
      open_ := d.host.open_ ++ [(tag, n.val)] } }
    ((cmdWord b 0 % 256 = 0 ∨ 0x0D < cmdWord b 0 % 256) → commandOf b = .error 1) ∧
    (∀ st, commandOf b = .error st → s.dev.sec.recovery = none → readCommand s n = hostDone u tag st) ∧
    (∀ f t, commandOf b = .ok f → f u = .next t → readCommand s n = t)) ∧
  (∀ (s : State) (tag : BitVec 32) (st : Nat) (x : BitVec 32 × Nat), s.dev.host.open_.find? (·.1 == tag) = some x →
    let n := Fin.ofNat 16 x.2
    let q := s.dev.host.queues[n]
    (hostDone s tag st).mem = (homeWrite s (q.done + 16 * q.tail) (doneBytes tag st) 5 0 none).mem ∧
    ((hostDone s tag st).dev.host.queues[n]).tail = (q.tail + 1) % q.size ∧ (hostDone s tag st).dev.host.open_ = s.dev.host.open_.erase x) ∧
  (∀ (s : State) (tag : BitVec 32) (nonce : List Byte) (addr : Word), fwWorks s 0 = true → s.dev.sec.booted = true → (s.fws[1]).failed = false → s.dev.power.failing ≤ 1 → let q := quoteBytes s nonce
    Becomes (.attestationQuote tag nonce addr) s (hostDone (storeMem s (hostAddr addr) (q ++ Config.ed448Sign (Config.shake256 64 q))) tag 0)) ∧
  (∀ (s : State) (tag : BitVec 32) (addr : Word) (size : Nat), fwWorks s 0 = true → s.dev.sec.booted = true → (s.fws[1]).failed = false → s.dev.power.failing ≤ 1 → let b := readBytes s.mem (hostAddr addr) size
    (accepted s.dev.sec b = true → Becomes (.storeImage tag addr size) s (hostDone (modSec s fun x => x.keep (imgNat b 4 1) b) tag 0)) ∧
    (accepted s.dev.sec b = false → Becomes (.storeImage tag addr size) s (hostDone s tag 3))) ∧
  (∀ (s : State) (tag : BitVec 32) (n m : Fin 16) (g : Nat) (slices : Word), fwWorks s 3 = true → s.dev.sec.booted = true → (s.fws[1]).failed = false → s.dev.power.failing ≤ 1 → s.dev.dom.switch = none → s.dev.dom.split = none →
    (splitAccepted s.dev.dom n m g slices = false → Becomes (.splitDomain tag n m g slices) s (hostDone s tag 3)) ∧
    (splitAccepted s.dev.dom n m g slices = true → Becomes (.splitDomain tag n m g slices) s (splitNext (modDev s fun x => { x with dom := { x.dom with split := some (tag, [.mask n (s.dev.dom.mask[n] &&& ~~~slices), .mask m slices, .sel (Fin.ofNat 30 (g / 16)) (selWith s.dev.dom g m.val)]) } })))) ∧
  (∀ (s : State) (la : BitVec 16) (h : BitVec 9) (l : Launch), findLaunch s la.toNat = some l → s.dev.sec.translator = true → l.htable ≠ 0 →
    (∀ a t, publish s l h.toNat (a.toNat % 2 ^ 48) = some t → Becomes (.handlerPublish la h (some a)) s t) ∧
    (∀ a, publish s l h.toNat (a.toNat % 2 ^ 48) = none →
      ∃ u, Becomes (.handlerPublish la h (some a)) s u ∧ ∀ r ∈ u.dev.requests, ¬(r.1 = l.la ∧ r.2.1 = h.toNat)) ∧
    ∃ u, Becomes (.handlerPublish la h none) s u ∧ ∀ r ∈ u.dev.requests, ¬(r.1 = l.la ∧ r.2.1 = h.toNat))

/-- The device blocks (R188 to R191, R219, R220, R378 to R393). The model's choices: an invalidation flushes the CL1 lines of every page (log entry 30), the steps of a page migration (log entry 82), the free time that a firmware core's own clock takes (log entry 44), that a restart from a reel is a cold boot and then the restore (log entry 87), and the bytes that a reel's digest covers (log entry 141). -/
def Obligations.DeviceEventsAnswer : Prop :=
  (∀ (s : State), s.dev.dom.switch = none → (∀ i v, Becomes (.hashmaskWrite i v) s (hashmaskSet s i v)) ∧ (∀ j v, Becomes (.domselWrite j v) s (domselSet s j v)) ∧
    (∀ v, Becomes (.l2ctlWrite v) s (l2ctlSet s v))) ∧
  (∀ (s : State) (n : Fin 16) (v : Word), s.dev.dom.expen = true →
    (domRefusal (s.dev.dom.mask.set n v) s.dev.dom.sel = 0 → ∃ w, (hashmaskSet s n v).dev.dom.switch = some w ∧ w.newMask = s.dev.dom.mask.set n v ∧ w.newSel = s.dev.dom.sel ∧
      w.applied = false ∧ (hashmaskSet s n v).dev.dom.mask = s.dev.dom.mask) ∧
    (domRefusal (s.dev.dom.mask.set n v) s.dev.dom.sel ≠ 0 → hashmaskSet s n v =
      modDev s fun d => { d with dom := { d.dom with err := domRefusal (s.dev.dom.mask.set n v) s.dev.dom.sel } })) ∧
  (∀ (s : State) (w : Switch), s.dev.dom.switch = some w →
    (w.applied = false → Becomes (.domainSwitchApply) s (redirect (modDev s fun d => { d with dom := { d.dom with mask := w.newMask, sel := w.newSel, switch := some { w with applied := true } } }) fun pa => if w.moves { s.dev.dom with mask := w.newMask, sel := w.newSel, switch := some { w with applied := true } } pa then some pa else none)) ∧
    (w.applied = true → w.signalled = false → let moved (x : L2Line) : Bool := w.moves s.dev.dom (256 * x.line)
      Becomes (.losingSliceSignal) s (modDev s fun d => { d with dom := { d.dom with l2 := d.dom.l2.filter fun x => !moved x, switch := some { w with signalled := true, count := d.dom.l2.countP fun x => moved x && x.dirty != 0 } } })) ∧
    (w.signalled = true → s.net.any (·.fwd) = false → s.dev.lost.any (·.fwd) = false →
      Becomes (.domainSwitchEnd) s (splitNext (modDev s fun d => { d with dom := { d.dom with switch := none, moved := w.count } }))) ∧
    (s.dev.dom.split = none → splitNext s = s)) ∧
  (∀ (s : State), Becomes .domstatRead s { modDev s (fun x => { x with dom := { x.dom with err := 0 } }) with
    devRead := w64 (b2n s.dev.dom.switch.isSome * 2 ^ 63 + s.dev.dom.lastDom % 16 * 2 ^ 56 + s.dev.dom.moved % 2 ^ 32 * 2 ^ 8 + s.dev.dom.err % 256) }) ∧
  (∀ (s : State) (asid : BitVec 12) (va newPa : Word) (table at_ e level : Nat), fwWorks s 3 = true → topTable s asid = some table →
    leafEntry s.mem (va.toNat % 2 ^ 48) table 4 = some (at_, e, level) →
    let size := 2 ^ leafShift level (bit e 11)
    let old := bits e 46 12 * 2 ^ 12
    newPa.toNat % size = 0 → newPa.toNat + size ≤ dramEnd → old + size ≤ dramEnd → (newPa.toNat + size ≤ old ∨ old + size ≤ newPa.toNat) →
    inMigration s old size = false → inMigration s newPa.toNat size = false →
    Becomes (.pageMigration asid va newPa) s (modDev s fun d => { d with migrations := d.migrations ++ [⟨old, newPa.toNat, size⟩] })) ∧
  (∀ (s : State) (g : Migration) (pa : Nat), g ∈ s.dev.migrations → g.old ≤ pa → pa < g.old + g.size → homeHolds s pa = true) ∧
  (∀ (s : State) (k : CtxKey) (v : Invpg), s.dev.invpg = some v → v.who.ctx = k → accessesUnderWay s = false →
    Becomes (.invpgAck k) s (landReply (modDev (flushEverywhere (dropTranslations s v.drops) fun _ => true)
      fun d => { d with invpg := none }) v.who v.id 0)) ∧
  (∀ (s : State) (home : Nat) (sram : Bool), let a := home / 32 * 32
    Becomes (.uncorrectableError home sram none) s (listSector s a sram) ∧
    (s.dev.failed.any (·.1 == a) = true → listSector s a sram = s) ∧
    (s.dev.failed.any (·.1 == a) = false → s.dev.failed.countP (fun f => homeOf s f.1 == homeOf s a) < 64 → sram = false →
      listSector s a sram = modDev s fun d => { d with failed := d.failed ++ [(a, sram)] }) ∧
    (s.dev.failed.any (·.1 == a) = false → (listSector s a sram).dev.failed = s.dev.failed ++ [(a, sram)])) ∧
  (∀ (s : State) (home : Nat) (sram : Bool) (k : CtxKey), let t := listSector s (home / 32 * 32) sram
    Becomes (.uncorrectableError home sram (some k)) s (raiseAsync (freshWord t).2 ⟨k, (getCtx t k).gen, (getCtx t k).depth, 0⟩ (failCause sram) (freshWord t).1)) ∧
  (∀ (s : State) (x : Fin 32) (y : Fin 16), fwWorks s 4 = true → s.dev.retiring = [] → (∀ l ∈ s.dev.launches, ∀ c ∈ l.cores, c ∉ tileCores x.val y.val) →
    Becomes (.tileRetire x y) s (mapSpare (modDev s fun d => { d with retiring := [] }) x.val y.val)) ∧
  (∀ (s : State) (v : Word), Becomes (.pwrctlWrite v) s (pwrctlSet s v) ∧ (pwrctlSet s v).dev.power.floor = (bits v.toNat 34 32, bits v.toNat 38 36) ∧
    (pwrctlSet s v).dev.power.plimit = Nat.min 600 (v.toNat % 2 ^ 16)) ∧
  (∀ (s : State) (die : Fin 2), ∃ u, Becomes (.throttleStepChange die) s u ∧ onDie die.val u.dev.power.step = dieStep s.dev.power die.val) ∧
  (∀ (s : State) (w0 w1 : Nat), (s.dev.power.plimit < w0 + w1 → Becomes (.governorSample w0 w1) s (stepUp s w0 w1)) ∧
    (w0 + w1 ≤ s.dev.power.plimit → w0 + w1 + s.dev.power.hystNow < s.dev.power.plimit → Becomes (.governorSample w0 w1) s (stepDown s)) ∧
    (w0 + w1 ≤ s.dev.power.plimit → s.dev.power.plimit ≤ w0 + w1 + s.dev.power.hystNow → Becomes (.governorSample w0 w1) s (modPower s fun p => { p with below := 0 }))) ∧
  (∀ (s : State) (w0 w1 : Nat), (w0 < w1 → s.dev.power.gstep.2 < 7 → (stepUp s w0 w1).dev.power.gstep = (s.dev.power.gstep.1, s.dev.power.gstep.2 + 1)) ∧
    (w1 ≤ w0 → s.dev.power.gstep.1 < 7 → (stepUp s w0 w1).dev.power.gstep = (s.dev.power.gstep.1 + 1, s.dev.power.gstep.2)) ∧
    (s.dev.power.below + 1 < s.dev.power.downNow → stepDown s = modPower s fun p => { p with below := p.below + 1 }) ∧
    (s.dev.power.downNow ≤ s.dev.power.below + 1 → s.dev.power.gstep.1 < s.dev.power.gstep.2 → (stepDown s).dev.power.gstep = (s.dev.power.gstep.1, s.dev.power.gstep.2 - 1)) ∧
    (s.dev.power.downNow ≤ s.dev.power.below + 1 → s.dev.power.gstep.2 ≤ s.dev.power.gstep.1 → (stepDown s).dev.power.gstep = (s.dev.power.gstep.1 - 1, s.dev.power.gstep.2))) ∧
  (∀ (s : State) (sensor : Fin 128) (reading : BitVec 16), (s.dev.power.tcrit : Int) ≤ reading.toInt → onDie (sensor.val / 64) s.dev.power.trip = false →
    ∃ u, Becomes (.thermalSample sensor reading) s u ∧ onDie (sensor.val / 64) u.dev.power.trip = true ∧
      onDie (sensor.val / 64) u.dev.power.trips = onDie (sensor.val / 64) s.dev.power.trips + 1) ∧
  (∀ (s : State) (sensor : Fin 128) (reading : BitVec 16), ∃ u, Becomes (.thermalSample sensor reading) s u ∧
    aget 0 sensor.val u.dev.power.temps = reading.toInt ∧ (reading.toInt < (s.dev.power.tcrit : Int) → u.dev.power.trip = s.dev.power.trip ∧ u.dev.power.trips = s.dev.power.trips) ∧
    ((s.dev.power.talert : Int) ≤ reading.toInt → onDie (sensor.val / 64) u.dev.power.alerted = true)) ∧
  (∀ (s : State) (die : Fin 2), ((dieTemps s.dev.power die.val).all fun t => decide (t < (s.dev.power.talert : Int))) = true →
    ∃ u, Becomes (.clrtrip die) s u ∧ onDie die.val u.dev.power.trip = false) ∧
  (∀ (s : State), s.dev.power.failing = 0 → fwWorks s 5 = true → ∃ u, Becomes .powerFailWarning s u ∧ u.dev.power.failing = 1 ∧ u.dev.power.floor = (7, 7)) ∧
  (∀ (s : State), s.dev.power.failing = 1 → ∃ u, Becomes .drainExpiry s u ∧ u.dev.power.failing = 2 ∧
    ∀ x ∈ u.ctxs, isFw x.1.agent = false → x.2.used = true → x.2.killed = true) ∧
  (∀ (s : State), s.dev.reels.en = true → fwWorks s 0 = true → drainedAll s = true →
    (s.dev.power.failing = 2 → Becomes .reelWrite s (modPower (modDev s fun d => { d with reels := d.reels.put (reelImage s) }) fun p => { p with failing := 3 })) ∧
    (s.dev.power.failing = 3 → Becomes .reelWrite s (modPower (modDev s fun d => { d with reels := d.reels.seal }) fun p => { p with failing := 4 }))) ∧
  (∀ (s : State), failOver s = true →
    let t := if brokenReel s.dev.reels then modDev (coldReset s) fun d => { d with replace := d.replace ||| 16 } else coldReset s
    (∀ r, newestReel s.dev.reels = some r → Becomes .reelRestart s (restoreReel t r)) ∧
    (newestReel s.dev.reels = none → Becomes .reelRestart s t)) ∧
  (∀ (s : State), Becomes .coldReset s (coldReset s)) ∧
  (∀ (s : State) (k : Nat) (partner : Bool) (img : List Byte), s.dev.sec.recovery = some k → (partner = false ∨ s.dev.pair.linkUp = true) →
    accepted s.dev.sec img = true → imgNat img 4 1 = k →
    Becomes (.recoveryMode partner img) s (bootFrom (bootOrder.dropWhile (· != k)) (modSec s fun x => { x.keep k img with recovery := none }))) ∧
  (∀ (s : State) (k : Fin 8), (s.fws[k]).failed = false → (s.fws[k]).mailbox ≠ [] → 10000000 ≤ (s.fws[k]).idle →
    Becomes (.firmwareWatchdog k) s (machineCheck (modFw s k fun f => { f with failed := true }) 1 k.val 0 0)) ∧
  (∀ (s : State) (k tgt : Fin 8), ((s.fws[tgt]).mailbox.length < 64 → (s.fws[tgt]).held = [] →
      ∃ t m, mailGo s k.val tgt.val = some t ∧ Becomes (.mbxgo k tgt) s t ∧ (t.fws[tgt]).mailbox = (s.fws[tgt]).mailbox ++ [m] ∧
        m.w1 = (s.fws[k]).send[1] ∧ m.w2 = (s.fws[k]).send[2] ∧ m.w3 = (s.fws[k]).send[3]) ∧
    ((64 ≤ (s.fws[tgt]).mailbox.length ∨ (s.fws[tgt]).held ≠ []) → Becomes (.mbxgo k tgt) s s)) ∧
  (∀ (s : State) (k : Fin 8), ∃ u, Becomes (.mbxpop k) s u ∧ (u.fws[k]).idle = 0 ∧
    ((s.fws[k]).held = [] → (u.fws[k]).mailbox = (s.fws[k]).mailbox.tail) ∧
    (∀ m l, (s.fws[k]).held = m :: l → (u.fws[k]).mailbox = (s.fws[k]).mailbox.tail ++ [m] ∧ (u.fws[k]).held = l)) ∧
  (∀ (s : State) (k : Fin 8), ∃ u, Becomes (.kick k) s u ∧ (u.fws[k]).idle = 0 ∧ (u.fws[k]).mailbox = (s.fws[k]).mailbox) ∧
  (∀ (s : State) (k : Fin 8) (m : Mail) (l : List Mail), (s.fws[k]).held = m :: l → (s.fws[k]).mailbox.length < 64 →
    ∃ u, Becomes (.mailboxEntryArrival k) s u ∧ (u.fws[k]).mailbox = (s.fws[k]).mailbox ++ [m] ∧ (u.fws[k]).held = l)

/-- What the decoder reads from words of each family (Tables 2.2 to 2.7, and the worked encodings of the entries). -/
def Obligations.DecodedWords : Prop :=
  decodeTableWord 32 (0x0452FFFF) = some (.addi 5 5 0x7FFF#15) ∧
  decodeTableWord 32 (0x12380000) = some (.movhi 3 0x80000#20) ∧
  decodeTableWord 32 (0x18507FFF) = some (.bne 5 0 0x7FFF#15) ∧
  decodeTableWord 32 (0x14621404) = some (.gaddr 6 4 5) ∧
  decodeTableWord 64 (0xA671B000 + 0x00010000 * 2 ^ 32) = some (.lddLong 7 3 0x10000#32) ∧
  decodeTableWord 32 (0x26A17000) = some (.ldq 10 2 0#12) ∧
  decodeTableWord 32 (0x28857000) = some (.stq 8 10 0#12) ∧
  decodeTableWord 32 (0x2A930000) = some (.ldf 9 6 0#12) ∧
  decodeTableWord 32 (0x2E811002) = some (.amoadd ⟨.quad, false, false⟩ 8 2 4) ∧
  decodeTableWord 32 (0x52200440) = some (.vfma 2 0 1 2) ∧
  decodeTableWord 32 (0x40419801) = some (.cvtfx 4 3 6) ∧
  decodeTableWord 32 (0x34321420) = some (.forkR 3 4 5 0) ∧
  decodeTableWord 32 (0x32019460) = some (.reply 3 5) ∧
  decodeTableWord 32 (0x327298C0) = some (.getr 7 5 6) ∧
  decodeTableWord 32 (0x3A520000) = some (.poolSet 5 4) ∧
  decodeTableWord 32 (0x3A638001) = some (.poolQry 6 7) ∧
  decodeTableWord 64 (0xBC320000 + 0x2D84 * 2 ^ 32) = some (.cpy 3 4 ⟨false, false, 5#9, 2#2, true, 8#4, 4#4⟩) ∧
  decodeTableWord 64 (0xE4000400 + 0x3C0 * 2 ^ 32) = some (.mma 0 0 1 ⟨0#3, 0#1, 0#9, false, false, true, true, true, true, 0#3, 0#3⟩) ∧
  decodeTableWord 64 (0xE6030002) = some (.accRd 0 6 0 ⟨0#9, false, false, false, 0#4⟩) ∧
  decodeTableWord 32 (0x66020001) = some (.accAnch 0 4) ∧
  decodeTableWord 32 (0x66700004) = some (.accStat 7 0) ∧
  decodeTableWord 32 (0x00200066) = some (.fenceRel .package) ∧
  decodeTableWord 32 (0x00641140) = some (.sysw 0x104#10 6) ∧
  decodeTableWord 32 (0x00303160) = some (.gate 3 12#10) ∧
  decodeTableWord 32 (0x009211A0) = some (.slateFold 9 4) ∧
  decodeTableWord 32 (0x005201C0) = some (.slchk 5 4) ∧
  decodeTableWord 32 (0x00000020) = some (.endAct) ∧
  decodeTableWord 32 (0x00000040) = some (.yield) ∧
  decodeTableWord 32 (0x7E000000) = some (.anop) ∧
  decodeTableWord 32 (0x02432400) = some (.add 4 6 9) ∧
  decodeTableWord 32 (0x0E434001) = some (.slti 4 6 0x4001#15) ∧
  decodeTableWord 32 (0x0C43003F) = some (.shli 4 6 63#6) ∧
  decodeTableWord 32 (0x14432402) = some (.leaScale4 4 6 9) ∧
  decodeTableWord 32 (0x224FFFFF) = some (.jal 4 0xFFFFF#20) ∧
  decodeTableWord 32 (0x25FF8000) = some (.jalr 31 31 0#15) ∧
  decodeTableWord 32 (0x2C430FC0) = some (.vld 4 6 0xFC0#12) ∧
  decodeTableWord 32 (0x30031100) = some (.cwb 6 0x100#12) ∧
  decodeTableWord 32 (0x364780C2) = some (.ringWaitf 4 15 2) ∧
  decodeTableWord 32 (0x38432403) = some (.red .iadd 4 6 9) ∧
  decodeTableWord 32 (0x3E030001) = some (.sclose 6) ∧
  decodeTableWord 32 (0x50432413) = some (.vadd .f16 .rup 4 6 9) ∧
  decodeTableWord 32 (0x54432400) = some (.vaddI 4 6 9) ∧
  decodeTableWord 32 (0x56432412) = some (.vcmp .u32 .lt 4 6 9) ∧
  decodeTableWord 32 (0x58430000) = some (.vrcp 4 6) ∧
  decodeTableWord 32 (0x5A432422) = some (.vcvtSr 2 4 6 9) ∧
  decodeTableWord 32 (0x5C432400) = some (.vrand 4 6 9) ∧
  decodeTableWord 32 (0x5E432480) = some (.vperm 4 6 9) ∧
  decodeTableWord 32 (0x6003000F) = some (.vseq 6 15) ∧
  decodeTableWord 64 (0xE2432400 + 0x07005C81 * 2 ^ 32) = some (.cvtMx 4 6 9 ⟨7#8, 5#9, true, true, false, false, 8#4, 1#4⟩) ∧
  decodeTableWord 32 (0x68430000) = some (.linkCfg 4 6) ∧
  decodeTableWord 32 (0x4E448800) = some (.ldm 4 9 2)

/-- The decoder inverts the encoder on every well-formed instruction that has an encoding. -/
def Obligations.DecodeOfEncode : Prop :=
  ∀ i : Instr, i.wf = true →
  (∀ w : Nat, encode i = some (.c w) → w < 2 ^ 31 ∧ w / 2 ^ 25 < 0x28 ∧ decode32 true true w = .ok i ∧
    decodeBundle true w 0x7E000000 = .two (.ok i) (.ok .anop)) ∧
  (∀ w : Nat, encode i = some (.a w) → w < 2 ^ 31 ∧ 0x28 ≤ w / 2 ^ 25 ∧ decode32 true true w = .ok i ∧
    decodeBundle true 0 w = .two (.ok .nop) (.ok i)) ∧
  (∀ w e : Nat, encode i = some (.x w e) → 2 ^ 31 ≤ w ∧ w < 2 ^ 32 ∧ e < 2 ^ 32 ∧ decode64 w e = .ok i ∧
    decodeBundle true w e = .one (.ok i))

/-- The canonical form of memory (log entry 3) and of the full/empty bits, one for every aligned 8-byte word (R132), is kept by every step. -/
def Obligations.StepKeepsInv : Prop :=
  ∀ s t : State, State.Inv s → step s = .next t → State.Inv t

/-- The state after cold reset. DRAM reading 0 (log entry 3) and the unstated registers of firmware cores (log entry 14) are choices of the model. -/
def Obligations.ResetState : Prop :=
  State.Inv State.reset ∧ (∀ a : Nat, readByte State.reset.mem a = 0 ∧ isFull State.reset a = false) ∧
  (∀ n k : Nat, getCtx State.reset ⟨.tile n, k⟩ = Ctx.idle) ∧
  (Ctx.idle.place = .free ∧ Ctx.idle.status = 0x300 ∧ Ctx.idle.p = BitVec.allOnes 32 ∧ Ctx.idle.a = 0 ∧ Ctx.idle.fpctl = 0) ∧
  (∀ k : Fin 8, getCtx State.reset ⟨.fw k.val, 0⟩ = Ctx.fwReset ∧ (State.reset.fws[k]).started = false) ∧
  (Ctx.fwReset.place = .live 0 ∧ Ctx.fwReset.status = 0x301) ∧
  State.reset.net = [] ∧ State.reset.dev.launches = [] ∧ State.reset.dev.gates = [] ∧
  (State.reset.dev.time.run = false ∧ State.reset.dev.time.guardNs = 500 ∧ State.reset.dev.time.egress = 500000 ∧
    State.reset.dev.time.period = 1000000 ∧ State.reset.dev.time.takeno = 0) ∧
  (State.reset.dev.dom.mask[0] = BitVec.allOnes 64 ∧ State.reset.dev.dom.mask[1] = 0 ∧ State.reset.dev.ptroot = 0) ∧
  (State.reset.dev.pair.hbtol = 5000 ∧ State.reset.dev.guest.preempt = 50 ∧ State.reset.dev.guest.tmo = 100 ∧
    State.reset.dev.power.plimit = 600 ∧ State.reset.dev.power.tcrit = 440 ∧ State.reset.dev.power.talert = 380 ∧
    State.reset.dev.reels.drain = 500 ∧ State.reset.dev.image.outmask = 0xFF)

/-- The step fetches, decodes and executes. The order of issues and events is free (log entry 2), a turn may be fixed (log entry 1), and a firmware core runs the body of its image, which its own core holds (log entry 88). -/
def Obligations.StepRunsTheDecodedInstruction : Prop :=
  ∀ (s t : State) (k : CtxKey) (v : Nat),
  let r : State := { s with turn := none }
  let u : State := { r with cur := k, latch := none }
  let w0 := v % 2 ^ 32
  let w1 := v / 2 ^ 32
  (s.turn = some (.issue k) → fetch u = .ok (t, v) →
    (∀ (i : Instr) (x : State), decodeBundle ((curCtx t).st 9) w0 w1 = .one (.ok i) → exec i t = .next x → step s = .next (moveOn r x k)) ∧
    (∀ (c a : Instr) (x : State), decodeBundle ((curCtx t).st 9) w0 w1 = .two (.ok c) (.ok a) → wordFault (form c) t = none →
      wordFault (form a) t = none → captureFaults t w1 (.ok a) = false → clash (curCtx t) c a = false → runPair t c a = .next x →
      step s = .next (moveOn r x k))) ∧
  (∀ a : Instr, runPair t .nop a = exec a t) ∧ (∀ c : Instr, c ≠ .nop → runPair t c .anop = exec c t) ∧
  (∀ x : State, ((x.last = .committed ∨ x.last = .trapped) → moveOn r x k = modCore x k.agent fun co => { co with rrPos := posOf (getCtx r k) }) ∧
    (x.last ≠ .committed → x.last ≠ .trapped → moveOn r x k = x)) ∧
  (∀ (q : State) (pa pol lvl : Nat), fetchBody u = none → 4096 ≤ (curCtx u).pc →
    resolve u u.cur.agent (curCtx u).asid (curLevel u == 0) (w64 (curCtx u).pc) 2 .fetch = .ok (q, .phys pa pol lvl) →
    homeBusy q pa = false → failedIn q pa 8 = none → (curCore q).icache.find? (·.1 == pa) = none →
    fetch u = .ok (modCurCore q fun co => { co with icache := aset pa (readN q.mem pa 8) co.icache }, readN q.mem pa 8)) ∧
  (∀ w : Nat, fetchBody u = some w → fetch u = .ok (u, w)) ∧
  (∀ i : Instr, s.turn = some (.event i) → step s = exec i r) ∧
  (s.turn = none → choices s = [] → step s = .next s) ∧
  (s.turn = none → choices s = [.issue k] → step s = issueNext { s with fresh := s.fresh + 1 } k) ∧
  (s.turn = none → choices s ≠ [] → ∃ c ∈ choices s, step s = perform { s with fresh := s.fresh + 1 } c)

/-- exec and step end in a next state, in every state. That an event which its conditions do not allow leaves the machine unchanged is the model's choice (log entry 4). -/
def Obligations.EveryStepAnswers : Prop :=
  (∀ (i : Instr) (s : State), ∃ t : State, exec i s = .next t) ∧ ∀ s : State, ∃ t : State, step s = .next t

/-- What the register instructions leave unchanged when they commit. -/
def Obligations.RegisterInstructionsKeepTheRest : Prop :=
  ∀ (i : Instr) (s t : State), registerMajor (form i).major = true → exec i s = .next t → t.last = .committed →
  KeepsRegs (form i).gw (form i).gr (form i).fw (form i).mw (decide (0x20 ≤ (form i).major)) s t ∧ KeepsMemoryBut 0 0 s t

/-- What a store writes, and that it changes nothing else (R194, R214: a store leaves the full/empty bits). -/
def Obligations.StoresKeepTheRest : Prop :=
  ∀ (d a : GReg) (o : BitVec 12) (j : BitVec 32),
  StoresAlone (.stb d a o) (fun t => effAddr t a (imm12 o)) (fun t => bytesOf (rg t d).toNat 1) ∧
  StoresAlone (.stbLong d a j) (fun t => effAddr t a (imm32 j)) (fun t => bytesOf (rg t d).toNat 1) ∧
  StoresAlone (.sth d a o) (fun t => effAddr t a (imm12 o)) (fun t => bytesOf (rg t d).toNat 2) ∧
  StoresAlone (.sthLong d a j) (fun t => effAddr t a (imm32 j)) (fun t => bytesOf (rg t d).toNat 2) ∧
  StoresAlone (.stw d a o) (fun t => effAddr t a (imm12 o)) (fun t => bytesOf (rg t d).toNat 4) ∧
  StoresAlone (.stwLong d a j) (fun t => effAddr t a (imm32 j)) (fun t => bytesOf (rg t d).toNat 4) ∧
  StoresAlone (.std d a o) (fun t => effAddr t a (imm12 o)) (fun t => bytesOf (rg t d).toNat 8) ∧
  StoresAlone (.stdLong d a j) (fun t => effAddr t a (imm32 j)) (fun t => bytesOf (rg t d).toNat 8) ∧
  StoresAlone (.stq d a o) (fun t => effAddr t a (imm12 o)) (fun t => bytesOf ((rg t d).toNat + (rg t (nextReg d)).toNat * 2 ^ 64) 16) ∧
  StoresAlone (.stqLong d a j) (fun t => effAddr t a (imm32 j)) (fun t => bytesOf ((rg t d).toNat + (rg t (nextReg d)).toNat * 2 ^ 64) 16)

/-- What a posted, a cached and a performed store change, and that they change nothing else (R184, R194, R201, R214). -/
def Obligations.StoresElsewhereKeepTheRest : Prop :=
  (∀ (d a : GReg) (o : BitVec 12) (j : BitVec 32),
  StoresPosted (.stb d a o) (fun t => effAddr t a (imm12 o)) (fun t => bytesOf (rg t d).toNat 1) ∧
  StoresCached (.stb d a o) (fun t => effAddr t a (imm12 o)) (fun t => bytesOf (rg t d).toNat 1) ∧
  StoresPosted (.stbLong d a j) (fun t => effAddr t a (imm32 j)) (fun t => bytesOf (rg t d).toNat 1) ∧
  StoresCached (.stbLong d a j) (fun t => effAddr t a (imm32 j)) (fun t => bytesOf (rg t d).toNat 1) ∧
  StoresPosted (.sth d a o) (fun t => effAddr t a (imm12 o)) (fun t => bytesOf (rg t d).toNat 2) ∧
  StoresCached (.sth d a o) (fun t => effAddr t a (imm12 o)) (fun t => bytesOf (rg t d).toNat 2) ∧
  StoresPosted (.sthLong d a j) (fun t => effAddr t a (imm32 j)) (fun t => bytesOf (rg t d).toNat 2) ∧
  StoresCached (.sthLong d a j) (fun t => effAddr t a (imm32 j)) (fun t => bytesOf (rg t d).toNat 2) ∧
  StoresPosted (.stw d a o) (fun t => effAddr t a (imm12 o)) (fun t => bytesOf (rg t d).toNat 4) ∧
  StoresCached (.stw d a o) (fun t => effAddr t a (imm12 o)) (fun t => bytesOf (rg t d).toNat 4) ∧
  StoresPosted (.stwLong d a j) (fun t => effAddr t a (imm32 j)) (fun t => bytesOf (rg t d).toNat 4) ∧
  StoresCached (.stwLong d a j) (fun t => effAddr t a (imm32 j)) (fun t => bytesOf (rg t d).toNat 4) ∧
  StoresPosted (.std d a o) (fun t => effAddr t a (imm12 o)) (fun t => bytesOf (rg t d).toNat 8) ∧
  StoresCached (.std d a o) (fun t => effAddr t a (imm12 o)) (fun t => bytesOf (rg t d).toNat 8) ∧
  StoresPosted (.stdLong d a j) (fun t => effAddr t a (imm32 j)) (fun t => bytesOf (rg t d).toNat 8) ∧
  StoresCached (.stdLong d a j) (fun t => effAddr t a (imm32 j)) (fun t => bytesOf (rg t d).toNat 8) ∧
  StoresPosted (.stq d a o) (fun t => effAddr t a (imm12 o)) (fun t => bytesOf ((rg t d).toNat + (rg t (nextReg d)).toNat * 2 ^ 64) 16) ∧
  StoresCached (.stq d a o) (fun t => effAddr t a (imm12 o)) (fun t => bytesOf ((rg t d).toNat + (rg t (nextReg d)).toNat * 2 ^ 64) 16) ∧
  StoresPosted (.stqLong d a j) (fun t => effAddr t a (imm32 j)) (fun t => bytesOf ((rg t d).toNat + (rg t (nextReg d)).toNat * 2 ^ 64) 16) ∧
  StoresCached (.stqLong d a j) (fun t => effAddr t a (imm32 j)) (fun t => bytesOf ((rg t d).toNat + (rg t (nextReg d)).toNat * 2 ^ 64) 16)) ∧
  (∀ (s : State) (n : Node) (a : Access) (bs : List Byte), State.Inv s → a.op = .st bs → failedIn s a.addr bs.length = none →
    readBytes (performAccess s n a).mem a.addr bs.length = bs ∧ KeepsMemoryBut a.addr bs.length s (performAccess s n a)) ∧
  (∀ (s : State) (pa : Nat) (l : List (Nat × Byte)) (kind writer : Nat) (w : Option Who), State.Inv s → failedIn s pa l.length = none →
    (∀ x : Nat, (∀ y ∈ l, x ≠ pa + y.1) → readByte (homeMasked s pa l kind writer w).mem x = readByte s.mem x) ∧
    (∀ x : Nat, isFull (homeMasked s pa l kind writer w) x = isFull s x))

/-- R1: memory is little-endian, in values, in bundles and in register pairs. -/
def Obligations.MemoryIsLittleEndian : Prop :=
  ∀ (m : List Host.Cell) (a n v : Nat), Memory.wf m = true →
  (∀ i : Nat, i < n → readN m a n / 256 ^ i % 256 = (readByte m (a + i)).toNat) ∧
  (∀ i : Nat, i < n → (readByte (writeN m a n v) (a + i)).toNat = v / 256 ^ i % 256) ∧
  readN (writeN m a n v) a n = v % 256 ^ n ∧
  (∀ x : Nat, (x < a ∨ a + n ≤ x) → readByte (writeN m a n v) x = readByte m x) ∧
  (readN m a 8 % 2 ^ 32 = readN m a 4 ∧ readN m a 8 / 2 ^ 32 = readN m (a + 4) 4) ∧
  (∀ (s : State) (r : GReg), r.val % 2 = 0 → rgPair s r % 2 ^ 64 = (rg s r).toNat ∧
    rgPair s r / 2 ^ 64 = (rg s (nextReg r)).toNat) ∧
  (∀ (s : State) (r : GReg), r.val % 2 = 0 → r ≠ 0 → s.latch = none →
    rg (wgPair s r v) r = w64 v ∧ rg (wgPair s r v) (nextReg r) = w64 (v / 2 ^ 64))

/-- R45: the bundle of all-zero bytes. -/
def Obligations.ZeroBundleTraps : Prop :=
  ∀ (s t : State) (k : CtxKey),
  let u : State := { s with turn := none, cur := k, latch := none }
  (∀ compat alone : Bool, decode32 compat alone 0 = .ok .nop) ∧
  (s.turn = some (.issue k) → fetch u = .ok (t, 0) → t.latch = none → (curCtx t).pc % 8 = 0 → (curCtx t).pc < 2 ^ 48 →
    (curCtx t).quiet = true → (curCtx t).frames = [] → (curCtx t).inTrap = false → (curCtx t).tvec ≠ 0 →
    ∃ v : State, step s = .next v ∧ v.last = .trapped ∧ (curCtx v).cause = 0x01 ∧ (curCtx v).tval = 2 ∧
      (curCtx v).epc = w64 ((curCtx t).pc + 1) ∧ (curCtx v).epc.getLsbD 0 = true ∧ (curCtx v).pc = (curCtx t).tvec.toNat) ∧
  (∀ m : List Host.Cell, ∀ pa : Nat, (∀ i : Nat, i < 8 → readByte m (pa + i) = 0) → readN m pa 8 = 0)
end

