-- ==== Sys2Proof/Laws/State.lean ====
section
/-! SUPPORT. What each named update of the state leaves: one lemma per field and update, so that no proof unfolds a record
update. -/

namespace Sys2Proof.Laws

open Sys2Proof.Machine

@[simp] theorem setCtx_cur (s : State) (k : CtxKey) (c : Ctx) : (setCtx s k c).cur = s.cur := rfl
@[simp] theorem setCtx_cores (s : State) (k : CtxKey) (c : Ctx) : (setCtx s k c).cores = s.cores := rfl
@[simp] theorem setCtx_fws (s : State) (k : CtxKey) (c : Ctx) : (setCtx s k c).fws = s.fws := rfl
@[simp] theorem setCtx_mem (s : State) (k : CtxKey) (c : Ctx) : (setCtx s k c).mem = s.mem := rfl
@[simp] theorem setCtx_full (s : State) (k : CtxKey) (c : Ctx) : (setCtx s k c).full = s.full := rfl
@[simp] theorem setCtx_net (s : State) (k : CtxKey) (c : Ctx) : (setCtx s k c).net = s.net := rfl
@[simp] theorem setCtx_dev (s : State) (k : CtxKey) (c : Ctx) : (setCtx s k c).dev = s.dev := rfl
@[simp] theorem setCtx_last (s : State) (k : CtxKey) (c : Ctx) : (setCtx s k c).last = s.last := rfl
@[simp] theorem setCtx_latch (s : State) (k : CtxKey) (c : Ctx) : (setCtx s k c).latch = s.latch := rfl
@[simp] theorem setCtx_turn (s : State) (k : CtxKey) (c : Ctx) : (setCtx s k c).turn = s.turn := rfl
@[simp] theorem setCtx_inputs (s : State) (k : CtxKey) (c : Ctx) : (setCtx s k c).inputs = s.inputs := rfl
@[simp] theorem setCtx_outer (s : State) (k : CtxKey) (c : Ctx) : (setCtx s k c).outer = s.outer := rfl
@[simp] theorem setCtx_fresh (s : State) (k : CtxKey) (c : Ctx) : (setCtx s k c).fresh = s.fresh := rfl
@[simp] theorem setCtx_ids (s : State) (k : CtxKey) (c : Ctx) : (setCtx s k c).ids = s.ids := rfl
@[simp] theorem setCtx_devRead (s : State) (k : CtxKey) (c : Ctx) : (setCtx s k c).devRead = s.devRead := rfl

@[simp] theorem modCtx_cur (s : State) (k : CtxKey) (f : Ctx → Ctx) : (modCtx s k f).cur = s.cur := rfl
@[simp] theorem modCtx_cores (s : State) (k : CtxKey) (f : Ctx → Ctx) : (modCtx s k f).cores = s.cores := rfl
@[simp] theorem modCtx_fws (s : State) (k : CtxKey) (f : Ctx → Ctx) : (modCtx s k f).fws = s.fws := rfl
@[simp] theorem modCtx_mem (s : State) (k : CtxKey) (f : Ctx → Ctx) : (modCtx s k f).mem = s.mem := rfl
@[simp] theorem modCtx_full (s : State) (k : CtxKey) (f : Ctx → Ctx) : (modCtx s k f).full = s.full := rfl
@[simp] theorem modCtx_net (s : State) (k : CtxKey) (f : Ctx → Ctx) : (modCtx s k f).net = s.net := rfl
@[simp] theorem modCtx_dev (s : State) (k : CtxKey) (f : Ctx → Ctx) : (modCtx s k f).dev = s.dev := rfl
@[simp] theorem modCtx_last (s : State) (k : CtxKey) (f : Ctx → Ctx) : (modCtx s k f).last = s.last := rfl
@[simp] theorem modCtx_latch (s : State) (k : CtxKey) (f : Ctx → Ctx) : (modCtx s k f).latch = s.latch := rfl
@[simp] theorem modCtx_turn (s : State) (k : CtxKey) (f : Ctx → Ctx) : (modCtx s k f).turn = s.turn := rfl
@[simp] theorem modCtx_inputs (s : State) (k : CtxKey) (f : Ctx → Ctx) : (modCtx s k f).inputs = s.inputs := rfl
@[simp] theorem modCtx_outer (s : State) (k : CtxKey) (f : Ctx → Ctx) : (modCtx s k f).outer = s.outer := rfl
@[simp] theorem modCtx_fresh (s : State) (k : CtxKey) (f : Ctx → Ctx) : (modCtx s k f).fresh = s.fresh := rfl
@[simp] theorem modCtx_ids (s : State) (k : CtxKey) (f : Ctx → Ctx) : (modCtx s k f).ids = s.ids := rfl
@[simp] theorem modCtx_devRead (s : State) (k : CtxKey) (f : Ctx → Ctx) : (modCtx s k f).devRead = s.devRead := rfl

@[simp] theorem modCur_cur (s : State) (f : Ctx → Ctx) : (modCur s f).cur = s.cur := rfl
@[simp] theorem modCur_cores (s : State) (f : Ctx → Ctx) : (modCur s f).cores = s.cores := rfl
@[simp] theorem modCur_fws (s : State) (f : Ctx → Ctx) : (modCur s f).fws = s.fws := rfl
@[simp] theorem modCur_mem (s : State) (f : Ctx → Ctx) : (modCur s f).mem = s.mem := rfl
@[simp] theorem modCur_full (s : State) (f : Ctx → Ctx) : (modCur s f).full = s.full := rfl
@[simp] theorem modCur_net (s : State) (f : Ctx → Ctx) : (modCur s f).net = s.net := rfl
@[simp] theorem modCur_dev (s : State) (f : Ctx → Ctx) : (modCur s f).dev = s.dev := rfl
@[simp] theorem modCur_last (s : State) (f : Ctx → Ctx) : (modCur s f).last = s.last := rfl
@[simp] theorem modCur_latch (s : State) (f : Ctx → Ctx) : (modCur s f).latch = s.latch := rfl
@[simp] theorem modCur_turn (s : State) (f : Ctx → Ctx) : (modCur s f).turn = s.turn := rfl
@[simp] theorem modCur_inputs (s : State) (f : Ctx → Ctx) : (modCur s f).inputs = s.inputs := rfl
@[simp] theorem modCur_outer (s : State) (f : Ctx → Ctx) : (modCur s f).outer = s.outer := rfl
@[simp] theorem modCur_fresh (s : State) (f : Ctx → Ctx) : (modCur s f).fresh = s.fresh := rfl
@[simp] theorem modCur_ids (s : State) (f : Ctx → Ctx) : (modCur s f).ids = s.ids := rfl
@[simp] theorem modCur_devRead (s : State) (f : Ctx → Ctx) : (modCur s f).devRead = s.devRead := rfl

@[simp] theorem setCore_cur (s : State) (a : Agent) (c : Core) : (setCore s a c).cur = s.cur := rfl
@[simp] theorem setCore_ctxs (s : State) (a : Agent) (c : Core) : (setCore s a c).ctxs = s.ctxs := rfl
@[simp] theorem setCore_fws (s : State) (a : Agent) (c : Core) : (setCore s a c).fws = s.fws := rfl
@[simp] theorem setCore_mem (s : State) (a : Agent) (c : Core) : (setCore s a c).mem = s.mem := rfl
@[simp] theorem setCore_full (s : State) (a : Agent) (c : Core) : (setCore s a c).full = s.full := rfl
@[simp] theorem setCore_net (s : State) (a : Agent) (c : Core) : (setCore s a c).net = s.net := rfl
@[simp] theorem setCore_dev (s : State) (a : Agent) (c : Core) : (setCore s a c).dev = s.dev := rfl
@[simp] theorem setCore_last (s : State) (a : Agent) (c : Core) : (setCore s a c).last = s.last := rfl
@[simp] theorem setCore_latch (s : State) (a : Agent) (c : Core) : (setCore s a c).latch = s.latch := rfl
@[simp] theorem setCore_turn (s : State) (a : Agent) (c : Core) : (setCore s a c).turn = s.turn := rfl
@[simp] theorem setCore_inputs (s : State) (a : Agent) (c : Core) : (setCore s a c).inputs = s.inputs := rfl
@[simp] theorem setCore_outer (s : State) (a : Agent) (c : Core) : (setCore s a c).outer = s.outer := rfl
@[simp] theorem setCore_fresh (s : State) (a : Agent) (c : Core) : (setCore s a c).fresh = s.fresh := rfl
@[simp] theorem setCore_ids (s : State) (a : Agent) (c : Core) : (setCore s a c).ids = s.ids := rfl
@[simp] theorem setCore_devRead (s : State) (a : Agent) (c : Core) : (setCore s a c).devRead = s.devRead := rfl

@[simp] theorem modCore_cur (s : State) (a : Agent) (f : Core → Core) : (modCore s a f).cur = s.cur := rfl
@[simp] theorem modCore_ctxs (s : State) (a : Agent) (f : Core → Core) : (modCore s a f).ctxs = s.ctxs := rfl
@[simp] theorem modCore_fws (s : State) (a : Agent) (f : Core → Core) : (modCore s a f).fws = s.fws := rfl
@[simp] theorem modCore_mem (s : State) (a : Agent) (f : Core → Core) : (modCore s a f).mem = s.mem := rfl
@[simp] theorem modCore_full (s : State) (a : Agent) (f : Core → Core) : (modCore s a f).full = s.full := rfl
@[simp] theorem modCore_net (s : State) (a : Agent) (f : Core → Core) : (modCore s a f).net = s.net := rfl
@[simp] theorem modCore_dev (s : State) (a : Agent) (f : Core → Core) : (modCore s a f).dev = s.dev := rfl
@[simp] theorem modCore_last (s : State) (a : Agent) (f : Core → Core) : (modCore s a f).last = s.last := rfl
@[simp] theorem modCore_latch (s : State) (a : Agent) (f : Core → Core) : (modCore s a f).latch = s.latch := rfl
@[simp] theorem modCore_turn (s : State) (a : Agent) (f : Core → Core) : (modCore s a f).turn = s.turn := rfl
@[simp] theorem modCore_inputs (s : State) (a : Agent) (f : Core → Core) : (modCore s a f).inputs = s.inputs := rfl
@[simp] theorem modCore_outer (s : State) (a : Agent) (f : Core → Core) : (modCore s a f).outer = s.outer := rfl
@[simp] theorem modCore_fresh (s : State) (a : Agent) (f : Core → Core) : (modCore s a f).fresh = s.fresh := rfl
@[simp] theorem modCore_ids (s : State) (a : Agent) (f : Core → Core) : (modCore s a f).ids = s.ids := rfl
@[simp] theorem modCore_devRead (s : State) (a : Agent) (f : Core → Core) : (modCore s a f).devRead = s.devRead := rfl

@[simp] theorem modCurCore_cur (s : State) (f : Core → Core) : (modCurCore s f).cur = s.cur := rfl
@[simp] theorem modCurCore_ctxs (s : State) (f : Core → Core) : (modCurCore s f).ctxs = s.ctxs := rfl
@[simp] theorem modCurCore_fws (s : State) (f : Core → Core) : (modCurCore s f).fws = s.fws := rfl
@[simp] theorem modCurCore_mem (s : State) (f : Core → Core) : (modCurCore s f).mem = s.mem := rfl
@[simp] theorem modCurCore_full (s : State) (f : Core → Core) : (modCurCore s f).full = s.full := rfl
@[simp] theorem modCurCore_net (s : State) (f : Core → Core) : (modCurCore s f).net = s.net := rfl
@[simp] theorem modCurCore_dev (s : State) (f : Core → Core) : (modCurCore s f).dev = s.dev := rfl
@[simp] theorem modCurCore_last (s : State) (f : Core → Core) : (modCurCore s f).last = s.last := rfl
@[simp] theorem modCurCore_latch (s : State) (f : Core → Core) : (modCurCore s f).latch = s.latch := rfl
@[simp] theorem modCurCore_turn (s : State) (f : Core → Core) : (modCurCore s f).turn = s.turn := rfl
@[simp] theorem modCurCore_inputs (s : State) (f : Core → Core) : (modCurCore s f).inputs = s.inputs := rfl
@[simp] theorem modCurCore_outer (s : State) (f : Core → Core) : (modCurCore s f).outer = s.outer := rfl
@[simp] theorem modCurCore_fresh (s : State) (f : Core → Core) : (modCurCore s f).fresh = s.fresh := rfl
@[simp] theorem modCurCore_ids (s : State) (f : Core → Core) : (modCurCore s f).ids = s.ids := rfl
@[simp] theorem modCurCore_devRead (s : State) (f : Core → Core) : (modCurCore s f).devRead = s.devRead := rfl

@[simp] theorem modDev_cur (s : State) (f : Device → Device) : (modDev s f).cur = s.cur := rfl
@[simp] theorem modDev_ctxs (s : State) (f : Device → Device) : (modDev s f).ctxs = s.ctxs := rfl
@[simp] theorem modDev_cores (s : State) (f : Device → Device) : (modDev s f).cores = s.cores := rfl
@[simp] theorem modDev_fws (s : State) (f : Device → Device) : (modDev s f).fws = s.fws := rfl
@[simp] theorem modDev_mem (s : State) (f : Device → Device) : (modDev s f).mem = s.mem := rfl
@[simp] theorem modDev_full (s : State) (f : Device → Device) : (modDev s f).full = s.full := rfl
@[simp] theorem modDev_net (s : State) (f : Device → Device) : (modDev s f).net = s.net := rfl
@[simp] theorem modDev_last (s : State) (f : Device → Device) : (modDev s f).last = s.last := rfl
@[simp] theorem modDev_latch (s : State) (f : Device → Device) : (modDev s f).latch = s.latch := rfl
@[simp] theorem modDev_turn (s : State) (f : Device → Device) : (modDev s f).turn = s.turn := rfl
@[simp] theorem modDev_inputs (s : State) (f : Device → Device) : (modDev s f).inputs = s.inputs := rfl
@[simp] theorem modDev_outer (s : State) (f : Device → Device) : (modDev s f).outer = s.outer := rfl
@[simp] theorem modDev_fresh (s : State) (f : Device → Device) : (modDev s f).fresh = s.fresh := rfl
@[simp] theorem modDev_ids (s : State) (f : Device → Device) : (modDev s f).ids = s.ids := rfl
@[simp] theorem modDev_devRead (s : State) (f : Device → Device) : (modDev s f).devRead = s.devRead := rfl

@[simp] theorem record_cur (s : State) (c n : Nat) (l : List Nat) : (record s c n l).cur = s.cur := rfl
@[simp] theorem record_ctxs (s : State) (c n : Nat) (l : List Nat) : (record s c n l).ctxs = s.ctxs := rfl
@[simp] theorem record_cores (s : State) (c n : Nat) (l : List Nat) : (record s c n l).cores = s.cores := rfl
@[simp] theorem record_fws (s : State) (c n : Nat) (l : List Nat) : (record s c n l).fws = s.fws := rfl
@[simp] theorem record_mem (s : State) (c n : Nat) (l : List Nat) : (record s c n l).mem = s.mem := rfl
@[simp] theorem record_full (s : State) (c n : Nat) (l : List Nat) : (record s c n l).full = s.full := rfl
@[simp] theorem record_net (s : State) (c n : Nat) (l : List Nat) : (record s c n l).net = s.net := rfl
@[simp] theorem record_last (s : State) (c n : Nat) (l : List Nat) : (record s c n l).last = s.last := rfl
@[simp] theorem record_latch (s : State) (c n : Nat) (l : List Nat) : (record s c n l).latch = s.latch := rfl
@[simp] theorem record_turn (s : State) (c n : Nat) (l : List Nat) : (record s c n l).turn = s.turn := rfl
@[simp] theorem record_inputs (s : State) (c n : Nat) (l : List Nat) : (record s c n l).inputs = s.inputs := rfl
@[simp] theorem record_outer (s : State) (c n : Nat) (l : List Nat) : (record s c n l).outer = s.outer := rfl
@[simp] theorem record_fresh (s : State) (c n : Nat) (l : List Nat) : (record s c n l).fresh = s.fresh := rfl
@[simp] theorem record_ids (s : State) (c n : Nat) (l : List Nat) : (record s c n l).ids = s.ids := rfl
@[simp] theorem record_devRead (s : State) (c n : Nat) (l : List Nat) : (record s c n l).devRead = s.devRead := rfl

@[simp] theorem postMail_cur (s : State) (n : Nat) (m : Mail) : (postMail s n m).cur = s.cur := rfl
@[simp] theorem postMail_ctxs (s : State) (n : Nat) (m : Mail) : (postMail s n m).ctxs = s.ctxs := rfl
@[simp] theorem postMail_cores (s : State) (n : Nat) (m : Mail) : (postMail s n m).cores = s.cores := rfl
@[simp] theorem postMail_mem (s : State) (n : Nat) (m : Mail) : (postMail s n m).mem = s.mem := rfl
@[simp] theorem postMail_full (s : State) (n : Nat) (m : Mail) : (postMail s n m).full = s.full := rfl
@[simp] theorem postMail_net (s : State) (n : Nat) (m : Mail) : (postMail s n m).net = s.net := rfl
@[simp] theorem postMail_dev (s : State) (n : Nat) (m : Mail) : (postMail s n m).dev = s.dev := rfl
@[simp] theorem postMail_last (s : State) (n : Nat) (m : Mail) : (postMail s n m).last = s.last := rfl
@[simp] theorem postMail_latch (s : State) (n : Nat) (m : Mail) : (postMail s n m).latch = s.latch := rfl
@[simp] theorem postMail_turn (s : State) (n : Nat) (m : Mail) : (postMail s n m).turn = s.turn := rfl
@[simp] theorem postMail_inputs (s : State) (n : Nat) (m : Mail) : (postMail s n m).inputs = s.inputs := rfl
@[simp] theorem postMail_outer (s : State) (n : Nat) (m : Mail) : (postMail s n m).outer = s.outer := rfl
@[simp] theorem postMail_fresh (s : State) (n : Nat) (m : Mail) : (postMail s n m).fresh = s.fresh := rfl
@[simp] theorem postMail_ids (s : State) (n : Nat) (m : Mail) : (postMail s n m).ids = s.ids := rfl
@[simp] theorem postMail_devRead (s : State) (n : Nat) (m : Mail) : (postMail s n m).devRead = s.devRead := rfl

@[simp] theorem storeMem_cur (s : State) (a : Nat) (l : List Byte) : (storeMem s a l).cur = s.cur := rfl
@[simp] theorem storeMem_ctxs (s : State) (a : Nat) (l : List Byte) : (storeMem s a l).ctxs = s.ctxs := rfl
@[simp] theorem storeMem_cores (s : State) (a : Nat) (l : List Byte) : (storeMem s a l).cores = s.cores := rfl
@[simp] theorem storeMem_fws (s : State) (a : Nat) (l : List Byte) : (storeMem s a l).fws = s.fws := rfl
@[simp] theorem storeMem_full (s : State) (a : Nat) (l : List Byte) : (storeMem s a l).full = s.full := rfl
@[simp] theorem storeMem_net (s : State) (a : Nat) (l : List Byte) : (storeMem s a l).net = s.net := rfl
@[simp] theorem storeMem_dev (s : State) (a : Nat) (l : List Byte) : (storeMem s a l).dev = s.dev := rfl
@[simp] theorem storeMem_last (s : State) (a : Nat) (l : List Byte) : (storeMem s a l).last = s.last := rfl
@[simp] theorem storeMem_latch (s : State) (a : Nat) (l : List Byte) : (storeMem s a l).latch = s.latch := rfl
@[simp] theorem storeMem_turn (s : State) (a : Nat) (l : List Byte) : (storeMem s a l).turn = s.turn := rfl
@[simp] theorem storeMem_inputs (s : State) (a : Nat) (l : List Byte) : (storeMem s a l).inputs = s.inputs := rfl
@[simp] theorem storeMem_outer (s : State) (a : Nat) (l : List Byte) : (storeMem s a l).outer = s.outer := rfl
@[simp] theorem storeMem_fresh (s : State) (a : Nat) (l : List Byte) : (storeMem s a l).fresh = s.fresh := rfl
@[simp] theorem storeMem_ids (s : State) (a : Nat) (l : List Byte) : (storeMem s a l).ids = s.ids := rfl
@[simp] theorem storeMem_devRead (s : State) (a : Nat) (l : List Byte) : (storeMem s a l).devRead = s.devRead := rfl

@[simp] theorem setFe_cur (s : State) (a : Nat) (b : Bool) : (setFe s a b).cur = s.cur := rfl
@[simp] theorem setFe_ctxs (s : State) (a : Nat) (b : Bool) : (setFe s a b).ctxs = s.ctxs := rfl
@[simp] theorem setFe_cores (s : State) (a : Nat) (b : Bool) : (setFe s a b).cores = s.cores := rfl
@[simp] theorem setFe_fws (s : State) (a : Nat) (b : Bool) : (setFe s a b).fws = s.fws := rfl
@[simp] theorem setFe_mem (s : State) (a : Nat) (b : Bool) : (setFe s a b).mem = s.mem := rfl
@[simp] theorem setFe_net (s : State) (a : Nat) (b : Bool) : (setFe s a b).net = s.net := rfl
@[simp] theorem setFe_dev (s : State) (a : Nat) (b : Bool) : (setFe s a b).dev = s.dev := rfl
@[simp] theorem setFe_last (s : State) (a : Nat) (b : Bool) : (setFe s a b).last = s.last := rfl
@[simp] theorem setFe_latch (s : State) (a : Nat) (b : Bool) : (setFe s a b).latch = s.latch := rfl
@[simp] theorem setFe_turn (s : State) (a : Nat) (b : Bool) : (setFe s a b).turn = s.turn := rfl
@[simp] theorem setFe_inputs (s : State) (a : Nat) (b : Bool) : (setFe s a b).inputs = s.inputs := rfl
@[simp] theorem setFe_outer (s : State) (a : Nat) (b : Bool) : (setFe s a b).outer = s.outer := rfl
@[simp] theorem setFe_fresh (s : State) (a : Nat) (b : Bool) : (setFe s a b).fresh = s.fresh := rfl
@[simp] theorem setFe_ids (s : State) (a : Nat) (b : Bool) : (setFe s a b).ids = s.ids := rfl
@[simp] theorem setFe_devRead (s : State) (a : Nat) (b : Bool) : (setFe s a b).devRead = s.devRead := rfl

@[simp] theorem clearRange_cur (s : State) (a n : Nat) : (clearRange s a n).cur = s.cur := rfl
@[simp] theorem clearRange_ctxs (s : State) (a n : Nat) : (clearRange s a n).ctxs = s.ctxs := rfl
@[simp] theorem clearRange_cores (s : State) (a n : Nat) : (clearRange s a n).cores = s.cores := rfl
@[simp] theorem clearRange_fws (s : State) (a n : Nat) : (clearRange s a n).fws = s.fws := rfl
@[simp] theorem clearRange_net (s : State) (a n : Nat) : (clearRange s a n).net = s.net := rfl
@[simp] theorem clearRange_dev (s : State) (a n : Nat) : (clearRange s a n).dev = s.dev := rfl
@[simp] theorem clearRange_last (s : State) (a n : Nat) : (clearRange s a n).last = s.last := rfl
@[simp] theorem clearRange_latch (s : State) (a n : Nat) : (clearRange s a n).latch = s.latch := rfl
@[simp] theorem clearRange_turn (s : State) (a n : Nat) : (clearRange s a n).turn = s.turn := rfl
@[simp] theorem clearRange_inputs (s : State) (a n : Nat) : (clearRange s a n).inputs = s.inputs := rfl
@[simp] theorem clearRange_outer (s : State) (a n : Nat) : (clearRange s a n).outer = s.outer := rfl
@[simp] theorem clearRange_fresh (s : State) (a n : Nat) : (clearRange s a n).fresh = s.fresh := rfl
@[simp] theorem clearRange_ids (s : State) (a n : Nat) : (clearRange s a n).ids = s.ids := rfl
@[simp] theorem clearRange_devRead (s : State) (a n : Nat) : (clearRange s a n).devRead = s.devRead := rfl

@[simp] theorem sendPkt_cur (s : State) (x y : Node) (v : Fin 4) (b : Body) : (sendPkt s x y v b).cur = s.cur := rfl
@[simp] theorem sendPkt_ctxs (s : State) (x y : Node) (v : Fin 4) (b : Body) : (sendPkt s x y v b).ctxs = s.ctxs := rfl
@[simp] theorem sendPkt_cores (s : State) (x y : Node) (v : Fin 4) (b : Body) : (sendPkt s x y v b).cores = s.cores := rfl
@[simp] theorem sendPkt_fws (s : State) (x y : Node) (v : Fin 4) (b : Body) : (sendPkt s x y v b).fws = s.fws := rfl
@[simp] theorem sendPkt_mem (s : State) (x y : Node) (v : Fin 4) (b : Body) : (sendPkt s x y v b).mem = s.mem := rfl
@[simp] theorem sendPkt_full (s : State) (x y : Node) (v : Fin 4) (b : Body) : (sendPkt s x y v b).full = s.full := rfl
@[simp] theorem sendPkt_last (s : State) (x y : Node) (v : Fin 4) (b : Body) : (sendPkt s x y v b).last = s.last := rfl
@[simp] theorem sendPkt_latch (s : State) (x y : Node) (v : Fin 4) (b : Body) : (sendPkt s x y v b).latch = s.latch := rfl
@[simp] theorem sendPkt_turn (s : State) (x y : Node) (v : Fin 4) (b : Body) : (sendPkt s x y v b).turn = s.turn := rfl
@[simp] theorem sendPkt_inputs (s : State) (x y : Node) (v : Fin 4) (b : Body) : (sendPkt s x y v b).inputs = s.inputs := rfl
@[simp] theorem sendPkt_outer (s : State) (x y : Node) (v : Fin 4) (b : Body) : (sendPkt s x y v b).outer = s.outer := rfl
@[simp] theorem sendPkt_fresh (s : State) (x y : Node) (v : Fin 4) (b : Body) : (sendPkt s x y v b).fresh = s.fresh := rfl
@[simp] theorem sendPkt_ids (s : State) (x y : Node) (v : Fin 4) (b : Body) : (sendPkt s x y v b).ids = s.ids := rfl
@[simp] theorem sendPkt_devRead (s : State) (x y : Node) (v : Fin 4) (b : Body) : (sendPkt s x y v b).devRead = s.devRead := rfl

@[simp] theorem newId_cur (s : State) : ((newId s).2).cur = s.cur := rfl
@[simp] theorem newId_ctxs (s : State) : ((newId s).2).ctxs = s.ctxs := rfl
@[simp] theorem newId_cores (s : State) : ((newId s).2).cores = s.cores := rfl
@[simp] theorem newId_fws (s : State) : ((newId s).2).fws = s.fws := rfl
@[simp] theorem newId_mem (s : State) : ((newId s).2).mem = s.mem := rfl
@[simp] theorem newId_full (s : State) : ((newId s).2).full = s.full := rfl
@[simp] theorem newId_net (s : State) : ((newId s).2).net = s.net := rfl
@[simp] theorem newId_dev (s : State) : ((newId s).2).dev = s.dev := rfl
@[simp] theorem newId_last (s : State) : ((newId s).2).last = s.last := rfl
@[simp] theorem newId_latch (s : State) : ((newId s).2).latch = s.latch := rfl
@[simp] theorem newId_turn (s : State) : ((newId s).2).turn = s.turn := rfl
@[simp] theorem newId_inputs (s : State) : ((newId s).2).inputs = s.inputs := rfl
@[simp] theorem newId_outer (s : State) : ((newId s).2).outer = s.outer := rfl
@[simp] theorem newId_fresh (s : State) : ((newId s).2).fresh = s.fresh := rfl
@[simp] theorem newId_devRead (s : State) : ((newId s).2).devRead = s.devRead := rfl

@[simp] theorem wg_cur (s : State) (r : GReg) (v : Word) : (wg s r v).cur = s.cur := rfl
@[simp] theorem wg_cores (s : State) (r : GReg) (v : Word) : (wg s r v).cores = s.cores := rfl
@[simp] theorem wg_fws (s : State) (r : GReg) (v : Word) : (wg s r v).fws = s.fws := rfl
@[simp] theorem wg_mem (s : State) (r : GReg) (v : Word) : (wg s r v).mem = s.mem := rfl
@[simp] theorem wg_full (s : State) (r : GReg) (v : Word) : (wg s r v).full = s.full := rfl
@[simp] theorem wg_net (s : State) (r : GReg) (v : Word) : (wg s r v).net = s.net := rfl
@[simp] theorem wg_dev (s : State) (r : GReg) (v : Word) : (wg s r v).dev = s.dev := rfl
@[simp] theorem wg_last (s : State) (r : GReg) (v : Word) : (wg s r v).last = s.last := rfl
@[simp] theorem wg_latch (s : State) (r : GReg) (v : Word) : (wg s r v).latch = s.latch := rfl
@[simp] theorem wg_turn (s : State) (r : GReg) (v : Word) : (wg s r v).turn = s.turn := rfl
@[simp] theorem wg_inputs (s : State) (r : GReg) (v : Word) : (wg s r v).inputs = s.inputs := rfl
@[simp] theorem wg_outer (s : State) (r : GReg) (v : Word) : (wg s r v).outer = s.outer := rfl
@[simp] theorem wg_fresh (s : State) (r : GReg) (v : Word) : (wg s r v).fresh = s.fresh := rfl
@[simp] theorem wg_ids (s : State) (r : GReg) (v : Word) : (wg s r v).ids = s.ids := rfl
@[simp] theorem wg_devRead (s : State) (r : GReg) (v : Word) : (wg s r v).devRead = s.devRead := rfl

@[simp] theorem wm_cur (s : State) (r : MReg) (v : BitVec 16) : (wm s r v).cur = s.cur := rfl
@[simp] theorem wm_cores (s : State) (r : MReg) (v : BitVec 16) : (wm s r v).cores = s.cores := rfl
@[simp] theorem wm_fws (s : State) (r : MReg) (v : BitVec 16) : (wm s r v).fws = s.fws := rfl
@[simp] theorem wm_mem (s : State) (r : MReg) (v : BitVec 16) : (wm s r v).mem = s.mem := rfl
@[simp] theorem wm_full (s : State) (r : MReg) (v : BitVec 16) : (wm s r v).full = s.full := rfl
@[simp] theorem wm_net (s : State) (r : MReg) (v : BitVec 16) : (wm s r v).net = s.net := rfl
@[simp] theorem wm_dev (s : State) (r : MReg) (v : BitVec 16) : (wm s r v).dev = s.dev := rfl
@[simp] theorem wm_last (s : State) (r : MReg) (v : BitVec 16) : (wm s r v).last = s.last := rfl
@[simp] theorem wm_latch (s : State) (r : MReg) (v : BitVec 16) : (wm s r v).latch = s.latch := rfl
@[simp] theorem wm_turn (s : State) (r : MReg) (v : BitVec 16) : (wm s r v).turn = s.turn := rfl
@[simp] theorem wm_inputs (s : State) (r : MReg) (v : BitVec 16) : (wm s r v).inputs = s.inputs := rfl
@[simp] theorem wm_outer (s : State) (r : MReg) (v : BitVec 16) : (wm s r v).outer = s.outer := rfl
@[simp] theorem wm_fresh (s : State) (r : MReg) (v : BitVec 16) : (wm s r v).fresh = s.fresh := rfl
@[simp] theorem wm_ids (s : State) (r : MReg) (v : BitVec 16) : (wm s r v).ids = s.ids := rfl
@[simp] theorem wm_devRead (s : State) (r : MReg) (v : BitVec 16) : (wm s r v).devRead = s.devRead := rfl

@[simp] theorem wfRaw_cur (s : State) (r : FReg) (v : Vec) : (wfRaw s r v).cur = s.cur := rfl
@[simp] theorem wfRaw_cores (s : State) (r : FReg) (v : Vec) : (wfRaw s r v).cores = s.cores := rfl
@[simp] theorem wfRaw_fws (s : State) (r : FReg) (v : Vec) : (wfRaw s r v).fws = s.fws := rfl
@[simp] theorem wfRaw_mem (s : State) (r : FReg) (v : Vec) : (wfRaw s r v).mem = s.mem := rfl
@[simp] theorem wfRaw_full (s : State) (r : FReg) (v : Vec) : (wfRaw s r v).full = s.full := rfl
@[simp] theorem wfRaw_net (s : State) (r : FReg) (v : Vec) : (wfRaw s r v).net = s.net := rfl
@[simp] theorem wfRaw_dev (s : State) (r : FReg) (v : Vec) : (wfRaw s r v).dev = s.dev := rfl
@[simp] theorem wfRaw_last (s : State) (r : FReg) (v : Vec) : (wfRaw s r v).last = s.last := rfl
@[simp] theorem wfRaw_latch (s : State) (r : FReg) (v : Vec) : (wfRaw s r v).latch = s.latch := rfl
@[simp] theorem wfRaw_turn (s : State) (r : FReg) (v : Vec) : (wfRaw s r v).turn = s.turn := rfl
@[simp] theorem wfRaw_inputs (s : State) (r : FReg) (v : Vec) : (wfRaw s r v).inputs = s.inputs := rfl
@[simp] theorem wfRaw_outer (s : State) (r : FReg) (v : Vec) : (wfRaw s r v).outer = s.outer := rfl
@[simp] theorem wfRaw_fresh (s : State) (r : FReg) (v : Vec) : (wfRaw s r v).fresh = s.fresh := rfl
@[simp] theorem wfRaw_ids (s : State) (r : FReg) (v : Vec) : (wfRaw s r v).ids = s.ids := rfl
@[simp] theorem wfRaw_devRead (s : State) (r : FReg) (v : Vec) : (wfRaw s r v).devRead = s.devRead := rfl

@[simp] theorem ctx_wg_place (c : Ctx) (r : GReg) (v : Word) : (c.wg r v).place = c.place := by
  unfold Ctx.wg; split <;> rfl
@[simp] theorem ctx_wg_a (c : Ctx) (r : GReg) (v : Word) : (c.wg r v).a = c.a := by
  unfold Ctx.wg; split <;> rfl
@[simp] theorem ctx_wg_f (c : Ctx) (r : GReg) (v : Word) : (c.wg r v).f = c.f := by
  unfold Ctx.wg; split <;> rfl
@[simp] theorem ctx_wg_m (c : Ctx) (r : GReg) (v : Word) : (c.wg r v).m = c.m := by
  unfold Ctx.wg; split <;> rfl
@[simp] theorem ctx_wg_h (c : Ctx) (r : GReg) (v : Word) : (c.wg r v).h = c.h := by
  unfold Ctx.wg; split <;> rfl
@[simp] theorem ctx_wg_pc (c : Ctx) (r : GReg) (v : Word) : (c.wg r v).pc = c.pc := by
  unfold Ctx.wg; split <;> rfl
@[simp] theorem ctx_wg_fpctl (c : Ctx) (r : GReg) (v : Word) : (c.wg r v).fpctl = c.fpctl := by
  unfold Ctx.wg; split <;> rfl
@[simp] theorem ctx_wg_uepc (c : Ctx) (r : GReg) (v : Word) : (c.wg r v).uepc = c.uepc := by
  unfold Ctx.wg; split <;> rfl
@[simp] theorem ctx_wg_cause (c : Ctx) (r : GReg) (v : Word) : (c.wg r v).cause = c.cause := by
  unfold Ctx.wg; split <;> rfl
@[simp] theorem ctx_wg_epc (c : Ctx) (r : GReg) (v : Word) : (c.wg r v).epc = c.epc := by
  unfold Ctx.wg; split <;> rfl
@[simp] theorem ctx_wg_tval (c : Ctx) (r : GReg) (v : Word) : (c.wg r v).tval = c.tval := by
  unfold Ctx.wg; split <;> rfl
@[simp] theorem ctx_wg_tvec (c : Ctx) (r : GReg) (v : Word) : (c.wg r v).tvec = c.tvec := by
  unfold Ctx.wg; split <;> rfl
@[simp] theorem ctx_wg_status (c : Ctx) (r : GReg) (v : Word) : (c.wg r v).status = c.status := by
  unfold Ctx.wg; split <;> rfl
@[simp] theorem ctx_wg_asid (c : Ctx) (r : GReg) (v : Word) : (c.wg r v).asid = c.asid := by
  unfold Ctx.wg; split <;> rfl
@[simp] theorem ctx_wg_arena (c : Ctx) (r : GReg) (v : Word) : (c.wg r v).arena = c.arena := by
  unfold Ctx.wg; split <;> rfl
@[simp] theorem ctx_wg_cpyid (c : Ctx) (r : GReg) (v : Word) : (c.wg r v).cpyid = c.cpyid := by
  unfold Ctx.wg; split <;> rfl
@[simp] theorem ctx_wg_slate (c : Ctx) (r : GReg) (v : Word) : (c.wg r v).slate = c.slate := by
  unfold Ctx.wg; split <;> rfl
@[simp] theorem ctx_wg_frames (c : Ctx) (r : GReg) (v : Word) : (c.wg r v).frames = c.frames := by
  unfold Ctx.wg; split <;> rfl
@[simp] theorem ctx_wg_gen (c : Ctx) (r : GReg) (v : Word) : (c.wg r v).gen = c.gen := by
  unfold Ctx.wg; split <;> rfl
@[simp] theorem ctx_wg_pri (c : Ctx) (r : GReg) (v : Word) : (c.wg r v).pri = c.pri := by
  unfold Ctx.wg; split <;> rfl
@[simp] theorem ctx_wg_spawned (c : Ctx) (r : GReg) (v : Word) : (c.wg r v).spawned = c.spawned := by
  unfold Ctx.wg; split <;> rfl
@[simp] theorem ctx_wg_queue (c : Ctx) (r : GReg) (v : Word) : (c.wg r v).queue = c.queue := by
  unfold Ctx.wg; split <;> rfl
@[simp] theorem ctx_wg_launch (c : Ctx) (r : GReg) (v : Word) : (c.wg r v).launch = c.launch := by
  unfold Ctx.wg; split <;> rfl
@[simp] theorem ctx_wg_path (c : Ctx) (r : GReg) (v : Word) : (c.wg r v).path = c.path := by
  unfold Ctx.wg; split <;> rfl
@[simp] theorem ctx_wg_spawnCount (c : Ctx) (r : GReg) (v : Word) : (c.wg r v).spawnCount = c.spawnCount := by
  unfold Ctx.wg; split <;> rfl
@[simp] theorem ctx_wg_actLeft (c : Ctx) (r : GReg) (v : Word) : (c.wg r v).actLeft = c.actLeft := by
  unfold Ctx.wg; split <;> rfl
@[simp] theorem ctx_wg_actLoaded (c : Ctx) (r : GReg) (v : Word) : (c.wg r v).actLoaded = c.actLoaded := by
  unfold Ctx.wg; split <;> rfl
@[simp] theorem ctx_wg_inGrace (c : Ctx) (r : GReg) (v : Word) : (c.wg r v).inGrace = c.inGrace := by
  unfold Ctx.wg; split <;> rfl
@[simp] theorem ctx_wg_due12 (c : Ctx) (r : GReg) (v : Word) : (c.wg r v).due12 = c.due12 := by
  unfold Ctx.wg; split <;> rfl
@[simp] theorem ctx_wg_killed (c : Ctx) (r : GReg) (v : Word) : (c.wg r v).killed = c.killed := by
  unfold Ctx.wg; split <;> rfl
@[simp] theorem ctx_wg_killers (c : Ctx) (r : GReg) (v : Word) : (c.wg r v).killers = c.killers := by
  unfold Ctx.wg; split <;> rfl
@[simp] theorem ctx_wg_trap (c : Ctx) (r : GReg) (v : Word) : (c.wg r v).trap = c.trap := by
  unfold Ctx.wg; split <;> rfl
@[simp] theorem ctx_wg_ui (c : Ctx) (r : GReg) (v : Word) : (c.wg r v).ui = c.ui := by
  unfold Ctx.wg; split <;> rfl
@[simp] theorem ctx_wg_causes (c : Ctx) (r : GReg) (v : Word) : (c.wg r v).causes = c.causes := by
  unfold Ctx.wg; split <;> rfl
@[simp] theorem ctx_wg_wait (c : Ctx) (r : GReg) (v : Word) : (c.wg r v).wait = c.wait := by
  unfold Ctx.wg; split <;> rfl
@[simp] theorem ctx_wg_readyAt (c : Ctx) (r : GReg) (v : Word) : (c.wg r v).readyAt = c.readyAt := by
  unfold Ctx.wg; split <;> rfl
@[simp] theorem ctx_wg_stepped (c : Ctx) (r : GReg) (v : Word) : (c.wg r v).stepped = c.stepped := by
  unfold Ctx.wg; split <;> rfl
@[simp] theorem ctx_wg_grants (c : Ctx) (r : GReg) (v : Word) : (c.wg r v).grants = c.grants := by
  unfold Ctx.wg; split <;> rfl
@[simp] theorem ctx_wg_busy (c : Ctx) (r : GReg) (v : Word) : (c.wg r v).busy = c.busy := by
  unfold Ctx.wg; split <;> rfl
@[simp] theorem ctx_wg_awaits (c : Ctx) (r : GReg) (v : Word) : (c.wg r v).awaits = c.awaits := by
  unfold Ctx.wg; split <;> rfl
@[simp] theorem ctx_wg_acquire (c : Ctx) (r : GReg) (v : Word) : (c.wg r v).acquire = c.acquire := by
  unfold Ctx.wg; split <;> rfl
@[simp] theorem ctx_wg_streams (c : Ctx) (r : GReg) (v : Word) : (c.wg r v).streams = c.streams := by
  unfold Ctx.wg; split <;> rfl
@[simp] theorem ctx_wg_seqr (c : Ctx) (r : GReg) (v : Word) : (c.wg r v).seqr = c.seqr := by
  unfold Ctx.wg; split <;> rfl
@[simp] theorem ctx_wg_pins (c : Ctx) (r : GReg) (v : Word) : (c.wg r v).pins = c.pins := by
  unfold Ctx.wg; split <;> rfl
@[simp] theorem ctx_wg_acc (c : Ctx) (r : GReg) (v : Word) : (c.wg r v).acc = c.acc := by
  unfold Ctx.wg; split <;> rfl
@[simp] theorem ctx_wg_opno (c : Ctx) (r : GReg) (v : Word) : (c.wg r v).opno = c.opno := by
  unfold Ctx.wg; split <;> rfl
@[simp] theorem ctx_wg_engineUsed (c : Ctx) (r : GReg) (v : Word) : (c.wg r v).engineUsed = c.engineUsed := by
  unfold Ctx.wg; split <;> rfl
@[simp] theorem ctx_wg_cpyOpen (c : Ctx) (r : GReg) (v : Word) : (c.wg r v).cpyOpen = c.cpyOpen := by
  unfold Ctx.wg; split <;> rfl
@[simp] theorem ctx_wg_ports (c : Ctx) (r : GReg) (v : Word) : (c.wg r v).ports = c.ports := by
  unfold Ctx.wg; split <;> rfl
@[simp] theorem ctx_wg_forwards (c : Ctx) (r : GReg) (v : Word) : (c.wg r v).forwards = c.forwards := by
  unfold Ctx.wg; split <;> rfl
@[simp] theorem ctx_wg_pushes (c : Ctx) (r : GReg) (v : Word) : (c.wg r v).pushes = c.pushes := by
  unfold Ctx.wg; split <;> rfl
@[simp] theorem ctx_wg_portLoads (c : Ctx) (r : GReg) (v : Word) : (c.wg r v).portLoads = c.portLoads := by
  unfold Ctx.wg; split <;> rfl
@[simp] theorem ctx_wg_hostWrites (c : Ctx) (r : GReg) (v : Word) : (c.wg r v).hostWrites = c.hostWrites := by
  unfold Ctx.wg; split <;> rfl

end Sys2Proof.Laws
end

