-- ==== Sys2Proof/Laws/Context.lean ====
section
/-! SUPPORT. Contexts and cores as their lists hold them: what a read gives after a replacement. -/

namespace Sys2Proof.Laws

open Sys2Proof.Machine

@[simp] theorem aget_aset_same {κ ν : Type} [DecidableEq κ] (d v : ν) (k : κ) (l : List (κ × ν)) : aget d k (aset k v l) = v := by
  induction l with
  | nil => simp [aset, aget]
  | cons x l ih =>
    obtain ⟨a, b⟩ := x
    by_cases h : k = a <;> simp [aset, aget, h, ih]

theorem aget_aset_other {κ ν : Type} [DecidableEq κ] (d v : ν) {k j : κ} (h : j ≠ k) (l : List (κ × ν)) :
    aget d j (aset k v l) = aget d j l := by
  induction l with
  | nil => simp [aset, aget, h]
  | cons x l ih =>
    obtain ⟨a, b⟩ := x
    by_cases hk : k = a
    · subst hk; simp [aset, aget, h]
    · by_cases hj : j = a <;> simp [aset, aget, hk, hj, ih]

@[simp] theorem getCtx_setCtx_same (s : State) (k : CtxKey) (c : Ctx) : getCtx (setCtx s k c) k = c := aget_aset_same _ _ _ _

theorem getCtx_setCtx_other (s : State) {k j : CtxKey} (c : Ctx) (h : j ≠ k) : getCtx (setCtx s k c) j = getCtx s j :=
  aget_aset_other _ _ h _

@[simp] theorem getCtx_modCtx_same (s : State) (k : CtxKey) (f : Ctx → Ctx) : getCtx (modCtx s k f) k = f (getCtx s k) :=
  getCtx_setCtx_same _ _ _

theorem getCtx_modCtx_other (s : State) {k j : CtxKey} (f : Ctx → Ctx) (h : j ≠ k) : getCtx (modCtx s k f) j = getCtx s j :=
  getCtx_setCtx_other _ _ h

@[simp] theorem curCtx_modCur (s : State) (f : Ctx → Ctx) : curCtx (modCur s f) = f (curCtx s) := getCtx_modCtx_same _ _ _

@[simp] theorem curCtx_setCur (s : State) (c : Ctx) : curCtx (setCtx s s.cur c) = c := getCtx_setCtx_same _ _ _

@[simp] theorem curCtx_wg (s : State) (r : GReg) (v : Word) : curCtx (wg s r v) = (curCtx s).wg r v := curCtx_modCur _ _

@[simp] theorem getCore_setCore_same (s : State) (a : Agent) (c : Core) : getCore (setCore s a c) a = c := aget_aset_same _ _ _ _

theorem getCore_setCore_other (s : State) {a b : Agent} (c : Core) (h : b ≠ a) : getCore (setCore s a c) b = getCore s b :=
  aget_aset_other _ _ h _

@[simp] theorem curCore_modCurCore (s : State) (f : Core → Core) : curCore (modCurCore s f) = f (curCore s) :=
  getCore_setCore_same _ _ _

@[simp] theorem getCtx_modCore (s : State) (a : Agent) (f : Core → Core) (k : CtxKey) : getCtx (modCore s a f) k = getCtx s k := rfl
@[simp] theorem getCtx_modCurCore (s : State) (f : Core → Core) (k : CtxKey) : getCtx (modCurCore s f) k = getCtx s k := rfl
@[simp] theorem getCtx_modDev (s : State) (f : Device → Device) (k : CtxKey) : getCtx (modDev s f) k = getCtx s k := rfl
@[simp] theorem curCtx_modCore (s : State) (a : Agent) (f : Core → Core) : curCtx (modCore s a f) = curCtx s := rfl
@[simp] theorem curCtx_modCurCore (s : State) (f : Core → Core) : curCtx (modCurCore s f) = curCtx s := rfl
@[simp] theorem curCtx_modDev (s : State) (f : Device → Device) : curCtx (modDev s f) = curCtx s := rfl
@[simp] theorem opCtx_modCurCore (s : State) (f : Core → Core) : opCtx (modCurCore s f) = opCtx s := rfl
@[simp] theorem opCtx_modDev (s : State) (f : Device → Device) : opCtx (modDev s f) = opCtx s := rfl

/-- g0 reads 0 (R103). -/
@[simp] theorem rg_zero (s : State) : rg s 0 = 0 := by simp [rg]

/-- A write to g0 changes no register (R103). -/
@[simp] theorem wg_zero (c : Ctx) (v : Word) : c.wg 0 v = c := by simp [Ctx.wg]

/-- The register written holds the value. -/
theorem wg_same (c : Ctx) {r : GReg} (v : Word) (h : r ≠ 0) : (c.wg r v).g[r] = v := by simp [Ctx.wg, h]

/-- Every other register is as it was. -/
theorem wg_other (c : Ctx) {r q : GReg} (v : Word) (h : q ≠ r) : (c.wg r v).g[q] = c.g[q] := by
  unfold Ctx.wg
  split
  · rfl
  · have : r.val ≠ q.val := fun e => h (Fin.ext e.symm)
    simp [Vector.getElem_set, this]

/-- Every other presence bit is as it was. -/
theorem wg_present (c : Ctx) {r q : GReg} (v : Word) (h : q ≠ r) : (c.wg r v).p.getLsbD q.val = c.p.getLsbD q.val := by
  unfold Ctx.wg
  split
  · rfl
  · have : r.val ≠ q.val := fun e => h (Fin.ext e.symm)
    rw [BitVec.getLsbD_or, BitVec.getLsbD_ofNat, Nat.testBit_two_pow]
    simp [this]

end Sys2Proof.Laws
end

