-- ==== Sys2Proof/Laws/Exec.lean ====
section
/-! SUPPORT. What `exec` and `form` are at each instruction: the equations that a proof rewrites with. -/

namespace Sys2Proof.Laws

open Sys2Proof.Machine

/-! ### The meaning of each instruction -/

theorem exec_nop (s : State) : exec (.nop) s = execNop s := rfl
theorem exec_anop (s : State) : exec (.anop) s = execAnop s := rfl
theorem exec_hint (x0 x1 x2 x3) (s : State) : exec (.hint x0 x1 x2 x3) s = execHint x0 x1 x2 x3 s := rfl
theorem exec_endAct (s : State) : exec (.endAct) s = execEndAct s := rfl
theorem exec_yield (s : State) : exec (.yield) s = execYield s := rfl
theorem exec_fenceRel (x0) (s : State) : exec (.fenceRel x0) s = execFenceRel x0 s := rfl
theorem exec_fenceAcq (x0) (s : State) : exec (.fenceAcq x0) s = execFenceAcq x0 s := rfl
theorem exec_fenceAr (x0) (s : State) : exec (.fenceAr x0) s = execFenceAr x0 s := rfl
theorem exec_ifence (x0) (s : State) : exec (.ifence x0) s = execIfence x0 s := rfl
theorem exec_tret (s : State) : exec (.tret) s = execTret s := rfl
theorem exec_syscall (x0) (s : State) : exec (.syscall x0) s = execSyscall x0 s := rfl
theorem exec_brk (x0) (s : State) : exec (.brk x0) s = execBrk x0 s := rfl
theorem exec_snap (x0) (s : State) : exec (.snap x0) s = execSnap x0 s := rfl
theorem exec_sysr (x0 x1) (s : State) : exec (.sysr x0 x1) s = execSysr x0 x1 s := rfl
theorem exec_sysw (x0 x1) (s : State) : exec (.sysw x0 x1) s = execSysw x0 x1 s := rfl
theorem exec_gate (x0 x1) (s : State) : exec (.gate x0 x1) s = execGate x0 x1 s := rfl
theorem exec_gret (s : State) : exec (.gret) s = execGret s := rfl
theorem exec_slateMin (x0 x1) (s : State) : exec (.slateMin x0 x1) s = execSlateMin x0 x1 s := rfl
theorem exec_slateSet (x0 x1) (s : State) : exec (.slateSet x0 x1) s = execSlateSet x0 x1 s := rfl
theorem exec_slateRgn (x0 x1) (s : State) : exec (.slateRgn x0 x1) s = execSlateRgn x0 x1 s := rfl
theorem exec_slateRd (x0) (s : State) : exec (.slateRd x0) s = execSlateRd x0 s := rfl
theorem exec_slateFold (x0 x1) (s : State) : exec (.slateFold x0 x1) s = execSlateFold x0 x1 s := rfl
theorem exec_slchk (x0 x1) (s : State) : exec (.slchk x0 x1) s = execSlchk x0 x1 s := rfl
theorem exec_slchkTrap (x0 x1) (s : State) : exec (.slchkTrap x0 x1) s = execSlchkTrap x0 x1 s := rfl
theorem exec_time (x0) (s : State) : exec (.time x0) s = execTime x0 s := rfl
theorem exec_timeSinceClapper (x0) (s : State) : exec (.timeSinceClapper x0) s = execTimeSinceClapper x0 s := rfl
theorem exec_timeToEgress (x0) (s : State) : exec (.timeToEgress x0) s = execTimeToEgress x0 s := rfl
theorem exec_kill (x0 x1) (s : State) : exec (.kill x0 x1) s = execKill x0 x1 s := rfl
theorem exec_invpg (x0 x1 x2) (s : State) : exec (.invpg x0 x1 x2) s = execInvpg x0 x1 x2 s := rfl
theorem exec_add (x0 x1 x2) (s : State) : exec (.add x0 x1 x2) s = execAdd x0 x1 x2 s := rfl
theorem exec_sub (x0 x1 x2) (s : State) : exec (.sub x0 x1 x2) s = execSub x0 x1 x2 s := rfl
theorem exec_and (x0 x1 x2) (s : State) : exec (.and x0 x1 x2) s = execAnd x0 x1 x2 s := rfl
theorem exec_or (x0 x1 x2) (s : State) : exec (.or x0 x1 x2) s = execOr x0 x1 x2 s := rfl
theorem exec_xor (x0 x1 x2) (s : State) : exec (.xor x0 x1 x2) s = execXor x0 x1 x2 s := rfl
theorem exec_shl (x0 x1 x2) (s : State) : exec (.shl x0 x1 x2) s = execShl x0 x1 x2 s := rfl
theorem exec_shr (x0 x1 x2) (s : State) : exec (.shr x0 x1 x2) s = execShr x0 x1 x2 s := rfl
theorem exec_sra (x0 x1 x2) (s : State) : exec (.sra x0 x1 x2) s = execSra x0 x1 x2 s := rfl
theorem exec_rotl (x0 x1 x2) (s : State) : exec (.rotl x0 x1 x2) s = execRotl x0 x1 x2 s := rfl
theorem exec_mul (x0 x1 x2) (s : State) : exec (.mul x0 x1 x2) s = execMul x0 x1 x2 s := rfl
theorem exec_mulh (x0 x1 x2) (s : State) : exec (.mulh x0 x1 x2) s = execMulh x0 x1 x2 s := rfl
theorem exec_mulhu (x0 x1 x2) (s : State) : exec (.mulhu x0 x1 x2) s = execMulhu x0 x1 x2 s := rfl
theorem exec_div (x0 x1 x2) (s : State) : exec (.div x0 x1 x2) s = execDiv x0 x1 x2 s := rfl
theorem exec_divu (x0 x1 x2) (s : State) : exec (.divu x0 x1 x2) s = execDivu x0 x1 x2 s := rfl
theorem exec_rem (x0 x1 x2) (s : State) : exec (.rem x0 x1 x2) s = execRem x0 x1 x2 s := rfl
theorem exec_remu (x0 x1 x2) (s : State) : exec (.remu x0 x1 x2) s = execRemu x0 x1 x2 s := rfl
theorem exec_min (x0 x1 x2) (s : State) : exec (.min x0 x1 x2) s = execMin x0 x1 x2 s := rfl
theorem exec_max (x0 x1 x2) (s : State) : exec (.max x0 x1 x2) s = execMax x0 x1 x2 s := rfl
theorem exec_minu (x0 x1 x2) (s : State) : exec (.minu x0 x1 x2) s = execMinu x0 x1 x2 s := rfl
theorem exec_maxu (x0 x1 x2) (s : State) : exec (.maxu x0 x1 x2) s = execMaxu x0 x1 x2 s := rfl
theorem exec_slt (x0 x1 x2) (s : State) : exec (.slt x0 x1 x2) s = execSlt x0 x1 x2 s := rfl
theorem exec_sltu (x0 x1 x2) (s : State) : exec (.sltu x0 x1 x2) s = execSltu x0 x1 x2 s := rfl
theorem exec_clz (x0 x1) (s : State) : exec (.clz x0 x1) s = execClz x0 x1 s := rfl
theorem exec_ctz (x0 x1) (s : State) : exec (.ctz x0 x1) s = execCtz x0 x1 s := rfl
theorem exec_popc (x0 x1) (s : State) : exec (.popc x0 x1) s = execPopc x0 x1 s := rfl
theorem exec_bswap (x0 x1) (s : State) : exec (.bswap x0 x1) s = execBswap x0 x1 s := rfl
theorem exec_sextb (x0 x1) (s : State) : exec (.sextb x0 x1) s = execSextb x0 x1 s := rfl
theorem exec_sexth (x0 x1) (s : State) : exec (.sexth x0 x1) s = execSexth x0 x1 s := rfl
theorem exec_sextw (x0 x1) (s : State) : exec (.sextw x0 x1) s = execSextw x0 x1 s := rfl
theorem exec_zextb (x0 x1) (s : State) : exec (.zextb x0 x1) s = execZextb x0 x1 s := rfl
theorem exec_zexth (x0 x1) (s : State) : exec (.zexth x0 x1) s = execZexth x0 x1 s := rfl
theorem exec_zextw (x0 x1) (s : State) : exec (.zextw x0 x1) s = execZextw x0 x1 s := rfl
theorem exec_sel (x0 x1 x2) (s : State) : exec (.sel x0 x1 x2) s = execSel x0 x1 x2 s := rfl
theorem exec_addi (x0 x1 x2) (s : State) : exec (.addi x0 x1 x2) s = execAddi x0 x1 x2 s := rfl
theorem exec_addiLong (x0 x1 x2) (s : State) : exec (.addiLong x0 x1 x2) s = execAddiLong x0 x1 x2 s := rfl
theorem exec_andi (x0 x1 x2) (s : State) : exec (.andi x0 x1 x2) s = execAndi x0 x1 x2 s := rfl
theorem exec_andiLong (x0 x1 x2) (s : State) : exec (.andiLong x0 x1 x2) s = execAndiLong x0 x1 x2 s := rfl
theorem exec_ori (x0 x1 x2) (s : State) : exec (.ori x0 x1 x2) s = execOri x0 x1 x2 s := rfl
theorem exec_oriLong (x0 x1 x2) (s : State) : exec (.oriLong x0 x1 x2) s = execOriLong x0 x1 x2 s := rfl
theorem exec_xori (x0 x1 x2) (s : State) : exec (.xori x0 x1 x2) s = execXori x0 x1 x2 s := rfl
theorem exec_xoriLong (x0 x1 x2) (s : State) : exec (.xoriLong x0 x1 x2) s = execXoriLong x0 x1 x2 s := rfl
theorem exec_slti (x0 x1 x2) (s : State) : exec (.slti x0 x1 x2) s = execSlti x0 x1 x2 s := rfl
theorem exec_sltiLong (x0 x1 x2) (s : State) : exec (.sltiLong x0 x1 x2) s = execSltiLong x0 x1 x2 s := rfl
theorem exec_sltiu (x0 x1 x2) (s : State) : exec (.sltiu x0 x1 x2) s = execSltiu x0 x1 x2 s := rfl
theorem exec_sltiuLong (x0 x1 x2) (s : State) : exec (.sltiuLong x0 x1 x2) s = execSltiuLong x0 x1 x2 s := rfl
theorem exec_shli (x0 x1 x2) (s : State) : exec (.shli x0 x1 x2) s = execShli x0 x1 x2 s := rfl
theorem exec_shliLong (x0 x1 x2) (s : State) : exec (.shliLong x0 x1 x2) s = execShliLong x0 x1 x2 s := rfl
theorem exec_shri (x0 x1 x2) (s : State) : exec (.shri x0 x1 x2) s = execShri x0 x1 x2 s := rfl
theorem exec_shriLong (x0 x1 x2) (s : State) : exec (.shriLong x0 x1 x2) s = execShriLong x0 x1 x2 s := rfl
theorem exec_srai (x0 x1 x2) (s : State) : exec (.srai x0 x1 x2) s = execSrai x0 x1 x2 s := rfl
theorem exec_sraiLong (x0 x1 x2) (s : State) : exec (.sraiLong x0 x1 x2) s = execSraiLong x0 x1 x2 s := rfl
theorem exec_rotli (x0 x1 x2) (s : State) : exec (.rotli x0 x1 x2) s = execRotli x0 x1 x2 s := rfl
theorem exec_rotliLong (x0 x1 x2) (s : State) : exec (.rotliLong x0 x1 x2) s = execRotliLong x0 x1 x2 s := rfl
theorem exec_movhi (x0 x1) (s : State) : exec (.movhi x0 x1) s = execMovhi x0 x1 s := rfl
theorem exec_leaScale1 (x0 x1 x2) (s : State) : exec (.leaScale1 x0 x1 x2) s = execLeaScale1 x0 x1 x2 s := rfl
theorem exec_leaScale2 (x0 x1 x2) (s : State) : exec (.leaScale2 x0 x1 x2) s = execLeaScale2 x0 x1 x2 s := rfl
theorem exec_leaScale4 (x0 x1 x2) (s : State) : exec (.leaScale4 x0 x1 x2) s = execLeaScale4 x0 x1 x2 s := rfl
theorem exec_leaScale8 (x0 x1 x2) (s : State) : exec (.leaScale8 x0 x1 x2) s = execLeaScale8 x0 x1 x2 s := rfl
theorem exec_gaddr (x0 x1 x2) (s : State) : exec (.gaddr x0 x1 x2) s = execGaddr x0 x1 x2 s := rfl
theorem exec_beq (x0 x1 x2) (s : State) : exec (.beq x0 x1 x2) s = execBeq x0 x1 x2 s := rfl
theorem exec_beqLong (x0 x1 x2) (s : State) : exec (.beqLong x0 x1 x2) s = execBeqLong x0 x1 x2 s := rfl
theorem exec_bne (x0 x1 x2) (s : State) : exec (.bne x0 x1 x2) s = execBne x0 x1 x2 s := rfl
theorem exec_bneLong (x0 x1 x2) (s : State) : exec (.bneLong x0 x1 x2) s = execBneLong x0 x1 x2 s := rfl
theorem exec_blt (x0 x1 x2) (s : State) : exec (.blt x0 x1 x2) s = execBlt x0 x1 x2 s := rfl
theorem exec_bltLong (x0 x1 x2) (s : State) : exec (.bltLong x0 x1 x2) s = execBltLong x0 x1 x2 s := rfl
theorem exec_bge (x0 x1 x2) (s : State) : exec (.bge x0 x1 x2) s = execBge x0 x1 x2 s := rfl
theorem exec_bgeLong (x0 x1 x2) (s : State) : exec (.bgeLong x0 x1 x2) s = execBgeLong x0 x1 x2 s := rfl
theorem exec_bltu (x0 x1 x2) (s : State) : exec (.bltu x0 x1 x2) s = execBltu x0 x1 x2 s := rfl
theorem exec_bltuLong (x0 x1 x2) (s : State) : exec (.bltuLong x0 x1 x2) s = execBltuLong x0 x1 x2 s := rfl
theorem exec_bgeu (x0 x1 x2) (s : State) : exec (.bgeu x0 x1 x2) s = execBgeu x0 x1 x2 s := rfl
theorem exec_bgeuLong (x0 x1 x2) (s : State) : exec (.bgeuLong x0 x1 x2) s = execBgeuLong x0 x1 x2 s := rfl
theorem exec_jal (x0 x1) (s : State) : exec (.jal x0 x1) s = execJal x0 x1 s := rfl
theorem exec_jalLong (x0 x1) (s : State) : exec (.jalLong x0 x1) s = execJalLong x0 x1 s := rfl
theorem exec_jalr (x0 x1 x2) (s : State) : exec (.jalr x0 x1 x2) s = execJalr x0 x1 x2 s := rfl
theorem exec_jalrLong (x0 x1 x2) (s : State) : exec (.jalrLong x0 x1 x2) s = execJalrLong x0 x1 x2 s := rfl
theorem exec_rand (x0 x1 x2) (s : State) : exec (.rand x0 x1 x2) s = execRand x0 x1 x2 s := rfl
theorem exec_cvtfx (x0 x1 x2) (s : State) : exec (.cvtfx x0 x1 x2) s = execCvtfx x0 x1 x2 s := rfl
theorem exec_cvtxf (x0 x1 x2) (s : State) : exec (.cvtxf x0 x1 x2) s = execCvtxf x0 x1 x2 s := rfl
theorem exec_ldb (x0 x1 x2) (s : State) : exec (.ldb x0 x1 x2) s = execLdb x0 x1 x2 s := rfl
theorem exec_ldbLong (x0 x1 x2) (s : State) : exec (.ldbLong x0 x1 x2) s = execLdbLong x0 x1 x2 s := rfl
theorem exec_ldh (x0 x1 x2) (s : State) : exec (.ldh x0 x1 x2) s = execLdh x0 x1 x2 s := rfl
theorem exec_ldhLong (x0 x1 x2) (s : State) : exec (.ldhLong x0 x1 x2) s = execLdhLong x0 x1 x2 s := rfl
theorem exec_ldw (x0 x1 x2) (s : State) : exec (.ldw x0 x1 x2) s = execLdw x0 x1 x2 s := rfl
theorem exec_ldwLong (x0 x1 x2) (s : State) : exec (.ldwLong x0 x1 x2) s = execLdwLong x0 x1 x2 s := rfl
theorem exec_ldd (x0 x1 x2) (s : State) : exec (.ldd x0 x1 x2) s = execLdd x0 x1 x2 s := rfl
theorem exec_lddLong (x0 x1 x2) (s : State) : exec (.lddLong x0 x1 x2) s = execLddLong x0 x1 x2 s := rfl
theorem exec_ldbu (x0 x1 x2) (s : State) : exec (.ldbu x0 x1 x2) s = execLdbu x0 x1 x2 s := rfl
theorem exec_ldbuLong (x0 x1 x2) (s : State) : exec (.ldbuLong x0 x1 x2) s = execLdbuLong x0 x1 x2 s := rfl
theorem exec_ldhu (x0 x1 x2) (s : State) : exec (.ldhu x0 x1 x2) s = execLdhu x0 x1 x2 s := rfl
theorem exec_ldhuLong (x0 x1 x2) (s : State) : exec (.ldhuLong x0 x1 x2) s = execLdhuLong x0 x1 x2 s := rfl
theorem exec_ldwu (x0 x1 x2) (s : State) : exec (.ldwu x0 x1 x2) s = execLdwu x0 x1 x2 s := rfl
theorem exec_ldwuLong (x0 x1 x2) (s : State) : exec (.ldwuLong x0 x1 x2) s = execLdwuLong x0 x1 x2 s := rfl
theorem exec_ldq (x0 x1 x2) (s : State) : exec (.ldq x0 x1 x2) s = execLdq x0 x1 x2 s := rfl
theorem exec_ldqLong (x0 x1 x2) (s : State) : exec (.ldqLong x0 x1 x2) s = execLdqLong x0 x1 x2 s := rfl
theorem exec_stb (x0 x1 x2) (s : State) : exec (.stb x0 x1 x2) s = execStb x0 x1 x2 s := rfl
theorem exec_stbLong (x0 x1 x2) (s : State) : exec (.stbLong x0 x1 x2) s = execStbLong x0 x1 x2 s := rfl
theorem exec_sth (x0 x1 x2) (s : State) : exec (.sth x0 x1 x2) s = execSth x0 x1 x2 s := rfl
theorem exec_sthLong (x0 x1 x2) (s : State) : exec (.sthLong x0 x1 x2) s = execSthLong x0 x1 x2 s := rfl
theorem exec_stw (x0 x1 x2) (s : State) : exec (.stw x0 x1 x2) s = execStw x0 x1 x2 s := rfl
theorem exec_stwLong (x0 x1 x2) (s : State) : exec (.stwLong x0 x1 x2) s = execStwLong x0 x1 x2 s := rfl
theorem exec_std (x0 x1 x2) (s : State) : exec (.std x0 x1 x2) s = execStd x0 x1 x2 s := rfl
theorem exec_stdLong (x0 x1 x2) (s : State) : exec (.stdLong x0 x1 x2) s = execStdLong x0 x1 x2 s := rfl
theorem exec_stq (x0 x1 x2) (s : State) : exec (.stq x0 x1 x2) s = execStq x0 x1 x2 s := rfl
theorem exec_stqLong (x0 x1 x2) (s : State) : exec (.stqLong x0 x1 x2) s = execStqLong x0 x1 x2 s := rfl
theorem exec_ldf (x0 x1 x2) (s : State) : exec (.ldf x0 x1 x2) s = execLdf x0 x1 x2 s := rfl
theorem exec_ldfLong (x0 x1 x2) (s : State) : exec (.ldfLong x0 x1 x2) s = execLdfLong x0 x1 x2 s := rfl
theorem exec_ldc (x0 x1 x2) (s : State) : exec (.ldc x0 x1 x2) s = execLdc x0 x1 x2 s := rfl
theorem exec_ldcLong (x0 x1 x2) (s : State) : exec (.ldcLong x0 x1 x2) s = execLdcLong x0 x1 x2 s := rfl
theorem exec_stf (x0 x1 x2) (s : State) : exec (.stf x0 x1 x2) s = execStf x0 x1 x2 s := rfl
theorem exec_stfLong (x0 x1 x2) (s : State) : exec (.stfLong x0 x1 x2) s = execStfLong x0 x1 x2 s := rfl
theorem exec_stfo (x0 x1 x2) (s : State) : exec (.stfo x0 x1 x2) s = execStfo x0 x1 x2 s := rfl
theorem exec_stfoLong (x0 x1 x2) (s : State) : exec (.stfoLong x0 x1 x2) s = execStfoLong x0 x1 x2 s := rfl
theorem exec_empty (x0 x1) (s : State) : exec (.empty x0 x1) s = execEmpty x0 x1 s := rfl
theorem exec_emptyLong (x0 x1) (s : State) : exec (.emptyLong x0 x1) s = execEmptyLong x0 x1 s := rfl
theorem exec_feq (x0 x1 x2) (s : State) : exec (.feq x0 x1 x2) s = execFeq x0 x1 x2 s := rfl
theorem exec_feqLong (x0 x1 x2) (s : State) : exec (.feqLong x0 x1 x2) s = execFeqLong x0 x1 x2 s := rfl
theorem exec_feWaitDone (x0 x1) (s : State) : exec (.feWaitDone x0 x1) s = execFeWaitDone x0 x1 s := rfl
theorem exec_vld (x0 x1 x2) (s : State) : exec (.vld x0 x1 x2) s = execVld x0 x1 x2 s := rfl
theorem exec_vldLong (x0 x1 x2) (s : State) : exec (.vldLong x0 x1 x2) s = execVldLong x0 x1 x2 s := rfl
theorem exec_vst (x0 x1 x2) (s : State) : exec (.vst x0 x1 x2) s = execVst x0 x1 x2 s := rfl
theorem exec_vstLong (x0 x1 x2) (s : State) : exec (.vstLong x0 x1 x2) s = execVstLong x0 x1 x2 s := rfl
theorem exec_vlds (x0 x1 x2 x3) (s : State) : exec (.vlds x0 x1 x2 x3) s = execVlds x0 x1 x2 x3 s := rfl
theorem exec_vldsLong (x0 x1 x2 x3) (s : State) : exec (.vldsLong x0 x1 x2 x3) s = execVldsLong x0 x1 x2 x3 s := rfl
theorem exec_vsts (x0 x1 x2 x3) (s : State) : exec (.vsts x0 x1 x2 x3) s = execVsts x0 x1 x2 x3 s := rfl
theorem exec_vstsLong (x0 x1 x2 x3) (s : State) : exec (.vstsLong x0 x1 x2 x3) s = execVstsLong x0 x1 x2 x3 s := rfl
theorem exec_vgath (x0 x1 x2 x3) (s : State) : exec (.vgath x0 x1 x2 x3) s = execVgath x0 x1 x2 x3 s := rfl
theorem exec_vgathLong (x0 x1 x2 x3) (s : State) : exec (.vgathLong x0 x1 x2 x3) s = execVgathLong x0 x1 x2 x3 s := rfl
theorem exec_vscat (x0 x1 x2 x3) (s : State) : exec (.vscat x0 x1 x2 x3) s = execVscat x0 x1 x2 x3 s := rfl
theorem exec_vscatLong (x0 x1 x2 x3) (s : State) : exec (.vscatLong x0 x1 x2 x3) s = execVscatLong x0 x1 x2 x3 s := rfl
theorem exec_amoadd (x0 x1 x2 x3) (s : State) : exec (.amoadd x0 x1 x2 x3) s = execAmoadd x0 x1 x2 x3 s := rfl
theorem exec_amoand (x0 x1 x2 x3) (s : State) : exec (.amoand x0 x1 x2 x3) s = execAmoand x0 x1 x2 x3 s := rfl
theorem exec_amoor (x0 x1 x2 x3) (s : State) : exec (.amoor x0 x1 x2 x3) s = execAmoor x0 x1 x2 x3 s := rfl
theorem exec_amoxor (x0 x1 x2 x3) (s : State) : exec (.amoxor x0 x1 x2 x3) s = execAmoxor x0 x1 x2 x3 s := rfl
theorem exec_amomin (x0 x1 x2 x3) (s : State) : exec (.amomin x0 x1 x2 x3) s = execAmomin x0 x1 x2 x3 s := rfl
theorem exec_amomax (x0 x1 x2 x3) (s : State) : exec (.amomax x0 x1 x2 x3) s = execAmomax x0 x1 x2 x3 s := rfl
theorem exec_amominu (x0 x1 x2 x3) (s : State) : exec (.amominu x0 x1 x2 x3) s = execAmominu x0 x1 x2 x3 s := rfl
theorem exec_amomaxu (x0 x1 x2 x3) (s : State) : exec (.amomaxu x0 x1 x2 x3) s = execAmomaxu x0 x1 x2 x3 s := rfl
theorem exec_amoswap (x0 x1 x2 x3) (s : State) : exec (.amoswap x0 x1 x2 x3) s = execAmoswap x0 x1 x2 x3 s := rfl
theorem exec_amocas (x0 x1 x2 x3) (s : State) : exec (.amocas x0 x1 x2 x3) s = execAmocas x0 x1 x2 x3 s := rfl
theorem exec_pref (x0 x1) (s : State) : exec (.pref x0 x1) s = execPref x0 x1 s := rfl
theorem exec_prefLong (x0 x1) (s : State) : exec (.prefLong x0 x1) s = execPrefLong x0 x1 s := rfl
theorem exec_cwb (x0 x1) (s : State) : exec (.cwb x0 x1) s = execCwb x0 x1 s := rfl
theorem exec_cwbLong (x0 x1) (s : State) : exec (.cwbLong x0 x1) s = execCwbLong x0 x1 s := rfl
theorem exec_cinv (x0 x1) (s : State) : exec (.cinv x0 x1) s = execCinv x0 x1 s := rfl
theorem exec_cinvLong (x0 x1) (s : State) : exec (.cinvLong x0 x1) s = execCinvLong x0 x1 s := rfl
theorem exec_cwbinv (x0 x1) (s : State) : exec (.cwbinv x0 x1) s = execCwbinv x0 x1 s := rfl
theorem exec_cwbinvLong (x0 x1) (s : State) : exec (.cwbinvLong x0 x1) s = execCwbinvLong x0 x1 s := rfl
theorem exec_cwbL2 (x0 x1) (s : State) : exec (.cwbL2 x0 x1) s = execCwbL2 x0 x1 s := rfl
theorem exec_cwbL2Long (x0 x1) (s : State) : exec (.cwbL2Long x0 x1) s = execCwbL2Long x0 x1 s := rfl
theorem exec_vadd (x0 x1 x2 x3 x4) (s : State) : exec (.vadd x0 x1 x2 x3 x4) s = execVadd x0 x1 x2 x3 x4 s := rfl
theorem exec_vsub (x0 x1 x2 x3 x4) (s : State) : exec (.vsub x0 x1 x2 x3 x4) s = execVsub x0 x1 x2 x3 x4 s := rfl
theorem exec_vmul (x0 x1 x2 x3 x4) (s : State) : exec (.vmul x0 x1 x2 x3 x4) s = execVmul x0 x1 x2 x3 x4 s := rfl
theorem exec_vmin (x0 x1 x2 x3) (s : State) : exec (.vmin x0 x1 x2 x3) s = execVmin x0 x1 x2 x3 s := rfl
theorem exec_vmax (x0 x1 x2 x3) (s : State) : exec (.vmax x0 x1 x2 x3) s = execVmax x0 x1 x2 x3 s := rfl
theorem exec_vabs (x0 x1 x2) (s : State) : exec (.vabs x0 x1 x2) s = execVabs x0 x1 x2 s := rfl
theorem exec_vneg (x0 x1 x2) (s : State) : exec (.vneg x0 x1 x2) s = execVneg x0 x1 x2 s := rfl
theorem exec_vdiv (x0 x1 x2 x3 x4) (s : State) : exec (.vdiv x0 x1 x2 x3 x4) s = execVdiv x0 x1 x2 x3 x4 s := rfl
theorem exec_vsqrt (x0 x1 x2 x3) (s : State) : exec (.vsqrt x0 x1 x2 x3) s = execVsqrt x0 x1 x2 x3 s := rfl
theorem exec_vfma (x0 x1 x2 x3) (s : State) : exec (.vfma x0 x1 x2 x3) s = execVfma x0 x1 x2 x3 s := rfl
theorem exec_vfms (x0 x1 x2 x3) (s : State) : exec (.vfms x0 x1 x2 x3) s = execVfms x0 x1 x2 x3 s := rfl
theorem exec_vfnma (x0 x1 x2 x3) (s : State) : exec (.vfnma x0 x1 x2 x3) s = execVfnma x0 x1 x2 x3 s := rfl
theorem exec_vfnms (x0 x1 x2 x3) (s : State) : exec (.vfnms x0 x1 x2 x3) s = execVfnms x0 x1 x2 x3 s := rfl
theorem exec_vaddI (x0 x1 x2) (s : State) : exec (.vaddI x0 x1 x2) s = execVaddI x0 x1 x2 s := rfl
theorem exec_vsubI (x0 x1 x2) (s : State) : exec (.vsubI x0 x1 x2) s = execVsubI x0 x1 x2 s := rfl
theorem exec_vmulI (x0 x1 x2) (s : State) : exec (.vmulI x0 x1 x2) s = execVmulI x0 x1 x2 s := rfl
theorem exec_vmulhI (x0 x1 x2) (s : State) : exec (.vmulhI x0 x1 x2) s = execVmulhI x0 x1 x2 s := rfl
theorem exec_vand (x0 x1 x2) (s : State) : exec (.vand x0 x1 x2) s = execVand x0 x1 x2 s := rfl
theorem exec_vor (x0 x1 x2) (s : State) : exec (.vor x0 x1 x2) s = execVor x0 x1 x2 s := rfl
theorem exec_vxor (x0 x1 x2) (s : State) : exec (.vxor x0 x1 x2) s = execVxor x0 x1 x2 s := rfl
theorem exec_vshl (x0 x1 x2) (s : State) : exec (.vshl x0 x1 x2) s = execVshl x0 x1 x2 s := rfl
theorem exec_vshr (x0 x1 x2) (s : State) : exec (.vshr x0 x1 x2) s = execVshr x0 x1 x2 s := rfl
theorem exec_vsra (x0 x1 x2) (s : State) : exec (.vsra x0 x1 x2) s = execVsra x0 x1 x2 s := rfl
theorem exec_vminI (x0 x1 x2) (s : State) : exec (.vminI x0 x1 x2) s = execVminI x0 x1 x2 s := rfl
theorem exec_vmaxI (x0 x1 x2) (s : State) : exec (.vmaxI x0 x1 x2) s = execVmaxI x0 x1 x2 s := rfl
theorem exec_vminuI (x0 x1 x2) (s : State) : exec (.vminuI x0 x1 x2) s = execVminuI x0 x1 x2 s := rfl
theorem exec_vmaxuI (x0 x1 x2) (s : State) : exec (.vmaxuI x0 x1 x2) s = execVmaxuI x0 x1 x2 s := rfl
theorem exec_vdot4I8 (x0 x1 x2) (s : State) : exec (.vdot4I8 x0 x1 x2) s = execVdot4I8 x0 x1 x2 s := rfl
theorem exec_vcmp (x0 x1 x2 x3 x4) (s : State) : exec (.vcmp x0 x1 x2 x3 x4) s = execVcmp x0 x1 x2 x3 x4 s := rfl
theorem exec_vsel (x0 x1 x2) (s : State) : exec (.vsel x0 x1 x2) s = execVsel x0 x1 x2 s := rfl
theorem exec_mand (x0 x1 x2) (s : State) : exec (.mand x0 x1 x2) s = execMand x0 x1 x2 s := rfl
theorem exec_mor (x0 x1 x2) (s : State) : exec (.mor x0 x1 x2) s = execMor x0 x1 x2 s := rfl
theorem exec_mxor (x0 x1 x2) (s : State) : exec (.mxor x0 x1 x2) s = execMxor x0 x1 x2 s := rfl
theorem exec_mnot (x0 x1) (s : State) : exec (.mnot x0 x1) s = execMnot x0 x1 s := rfl
theorem exec_mmov (x0 x1) (s : State) : exec (.mmov x0 x1) s = execMmov x0 x1 s := rfl
theorem exec_mset (x0 x1) (s : State) : exec (.mset x0 x1) s = execMset x0 x1 s := rfl
theorem exec_mpopc (x0 x1) (s : State) : exec (.mpopc x0 x1) s = execMpopc x0 x1 s := rfl
theorem exec_vrcp (x0 x1) (s : State) : exec (.vrcp x0 x1) s = execVrcp x0 x1 s := rfl
theorem exec_vrsq (x0 x1) (s : State) : exec (.vrsq x0 x1) s = execVrsq x0 x1 s := rfl
theorem exec_vexp2 (x0 x1) (s : State) : exec (.vexp2 x0 x1) s = execVexp2 x0 x1 s := rfl
theorem exec_vlog2 (x0 x1) (s : State) : exec (.vlog2 x0 x1) s = execVlog2 x0 x1 s := rfl
theorem exec_vtanh (x0 x1) (s : State) : exec (.vtanh x0 x1) s = execVtanh x0 x1 s := rfl
theorem exec_vsigm (x0 x1) (s : State) : exec (.vsigm x0 x1) s = execVsigm x0 x1 s := rfl
theorem exec_vcvt (x0 x1 x2) (s : State) : exec (.vcvt x0 x1 x2) s = execVcvt x0 x1 x2 s := rfl
theorem exec_vcvtSr (x0 x1 x2 x3) (s : State) : exec (.vcvtSr x0 x1 x2 x3) s = execVcvtSr x0 x1 x2 x3 s := rfl
theorem exec_vrand (x0 x1 x2) (s : State) : exec (.vrand x0 x1 x2) s = execVrand x0 x1 x2 s := rfl
theorem exec_vmov (x0 x1) (s : State) : exec (.vmov x0 x1) s = execVmov x0 x1 s := rfl
theorem exec_vbcast (x0 x1) (s : State) : exec (.vbcast x0 x1) s = execVbcast x0 x1 s := rfl
theorem exec_vext (x0 x1 x2) (s : State) : exec (.vext x0 x1 x2) s = execVext x0 x1 x2 s := rfl
theorem exec_vins (x0 x1 x2) (s : State) : exec (.vins x0 x1 x2) s = execVins x0 x1 x2 s := rfl
theorem exec_vperm (x0 x1 x2) (s : State) : exec (.vperm x0 x1 x2) s = execVperm x0 x1 x2 s := rfl
theorem exec_vred (x0 x1 x2) (s : State) : exec (.vred x0 x1 x2) s = execVred x0 x1 x2 s := rfl
theorem exec_vscan (x0 x1 x2) (s : State) : exec (.vscan x0 x1 x2) s = execVscan x0 x1 x2 s := rfl
theorem exec_vseq (x0 x1) (s : State) : exec (.vseq x0 x1) s = execVseq x0 x1 s := rfl
theorem exec_vseqS (x0 x1) (s : State) : exec (.vseqS x0 x1) s = execVseqS x0 x1 s := rfl
theorem exec_vseqStop (x0) (s : State) : exec (.vseqStop x0) s = execVseqStop x0 s := rfl
theorem exec_sequencerReplayStep (x0) (s : State) : exec (.sequencerReplayStep x0) s = execSequencerReplayStep x0 s := rfl
theorem exec_send (x0 x1 x2) (s : State) : exec (.send x0 x1 x2) s = execSend x0 x1 x2 s := rfl
theorem exec_sendq (x0 x1 x2) (s : State) : exec (.sendq x0 x1 x2) s = execSendq x0 x1 x2 s := rfl
theorem exec_sendr (x0 x1 x2) (s : State) : exec (.sendr x0 x1 x2) s = execSendr x0 x1 x2 s := rfl
theorem exec_reply (x0 x1) (s : State) : exec (.reply x0 x1) s = execReply x0 x1 s := rfl
theorem exec_replyQ (x0 x1) (s : State) : exec (.replyQ x0 x1) s = execReplyQ x0 x1 s := rfl
theorem exec_cut (x0) (s : State) : exec (.cut x0) s = execCut x0 s := rfl
theorem exec_putn (x0 x1 x2 x3) (s : State) : exec (.putn x0 x1 x2 x3) s = execPutn x0 x1 x2 x3 s := rfl
theorem exec_getr (x0 x1 x2) (s : State) : exec (.getr x0 x1 x2) s = execGetr x0 x1 x2 s := rfl
theorem exec_getrArm (x0) (s : State) : exec (.getrArm x0) s = execGetrArm x0 s := rfl
theorem exec_getrDis (x0) (s : State) : exec (.getrDis x0) s = execGetrDis x0 s := rfl
theorem exec_qpop (x0 x1 x2) (s : State) : exec (.qpop x0 x1 x2) s = execQpop x0 x1 x2 s := rfl
theorem exec_qpeek (x0 x1 x2) (s : State) : exec (.qpeek x0 x1 x2) s = execQpeek x0 x1 x2 s := rfl
theorem exec_qstat (x0 x1) (s : State) : exec (.qstat x0 x1) s = execQstat x0 x1 s := rfl
theorem exec_qstatClr (x0 x1) (s : State) : exec (.qstatClr x0 x1) s = execQstatClr x0 x1 s := rfl
theorem exec_spawn (x0 x1 x2 x3) (s : State) : exec (.spawn x0 x1 x2 x3) s = execSpawn x0 x1 x2 x3 s := rfl
theorem exec_forkR (x0 x1 x2 x3) (s : State) : exec (.forkR x0 x1 x2 x3) s = execForkR x0 x1 x2 x3 s := rfl
theorem exec_join (x0 x1 x2) (s : State) : exec (.join x0 x1 x2) s = execJoin x0 x1 x2 s := rfl
theorem exec_joinOpen (x0 x1 x2) (s : State) : exec (.joinOpen x0 x1 x2) s = execJoinOpen x0 x1 x2 s := rfl
theorem exec_joinSeal (x0 x1) (s : State) : exec (.joinSeal x0 x1) s = execJoinSeal x0 x1 s := rfl
theorem exec_joinWait (x0 x1) (s : State) : exec (.joinWait x0 x1) s = execJoinWait x0 x1 s := rfl
theorem exec_budgetAct (x0 x1) (s : State) : exec (.budgetAct x0 x1) s = execBudgetAct x0 x1 s := rfl
theorem exec_budgetTake (x0 x1) (s : State) : exec (.budgetTake x0 x1) s = execBudgetTake x0 x1 s := rfl
theorem exec_barInit (x0 x1) (s : State) : exec (.barInit x0 x1) s = execBarInit x0 x1 s := rfl
theorem exec_barArr (x0 x1 x2) (s : State) : exec (.barArr x0 x1 x2) s = execBarArr x0 x1 x2 s := rfl
theorem exec_barWait (x0 x1 x2) (s : State) : exec (.barWait x0 x1 x2) s = execBarWait x0 x1 x2 s := rfl
theorem exec_barArw (x0 x1 x2) (s : State) : exec (.barArw x0 x1 x2) s = execBarArw x0 x1 x2 s := rfl
theorem exec_barTx (x0 x1) (s : State) : exec (.barTx x0 x1) s = execBarTx x0 x1 s := rfl
theorem exec_barQry (x0 x1) (s : State) : exec (.barQry x0 x1) s = execBarQry x0 x1 s := rfl
theorem exec_ringWaitf (x0 x1 x2) (s : State) : exec (.ringWaitf x0 x1 x2) s = execRingWaitf x0 x1 x2 s := rfl
theorem exec_ringWaite (x0 x1 x2) (s : State) : exec (.ringWaite x0 x1 x2) s = execRingWaite x0 x1 x2 s := rfl
theorem exec_ringAdvp (x0 x1) (s : State) : exec (.ringAdvp x0 x1) s = execRingAdvp x0 x1 s := rfl
theorem exec_ringAdvc (x0 x1) (s : State) : exec (.ringAdvc x0 x1) s = execRingAdvc x0 x1 s := rfl
theorem exec_ringQry (x0 x1) (s : State) : exec (.ringQry x0 x1) s = execRingQry x0 x1 s := rfl
theorem exec_grpMem (x0 x1) (s : State) : exec (.grpMem x0 x1) s = execGrpMem x0 x1 s := rfl
theorem exec_red (x0 x1 x2 x3) (s : State) : exec (.red x0 x1 x2 x3) s = execRed x0 x1 x2 x3 s := rfl
theorem exec_scan (x0 x1 x2 x3) (s : State) : exec (.scan x0 x1 x2 x3) s = execScan x0 x1 x2 x3 s := rfl
theorem exec_bcast (x0 x1 x2) (s : State) : exec (.bcast x0 x1 x2) s = execBcast x0 x1 x2 s := rfl
theorem exec_treeWait (x0 x1) (s : State) : exec (.treeWait x0 x1) s = execTreeWait x0 x1 s := rfl
theorem exec_poolSet (x0 x1) (s : State) : exec (.poolSet x0 x1) s = execPoolSet x0 x1 s := rfl
theorem exec_poolQry (x0 x1) (s : State) : exec (.poolQry x0 x1) s = execPoolQry x0 x1 s := rfl
theorem exec_poolPin (x0 x1) (s : State) : exec (.poolPin x0 x1) s = execPoolPin x0 x1 s := rfl
theorem exec_poolUnpin (x0 x1) (s : State) : exec (.poolUnpin x0 x1) s = execPoolUnpin x0 x1 s := rfl
theorem exec_cpy (x0 x1 x2) (s : State) : exec (.cpy x0 x1 x2) s = execCpy x0 x1 x2 s := rfl
theorem exec_cpyCancel (x0 x1) (s : State) : exec (.cpyCancel x0 x1) s = execCpyCancel x0 x1 s := rfl
theorem exec_cpyStat (x0 x1 x2) (s : State) : exec (.cpyStat x0 x1 x2) s = execCpyStat x0 x1 x2 s := rfl
theorem exec_scfg (x0 x1 x2 x3 x4) (s : State) : exec (.scfg x0 x1 x2 x3 x4) s = execScfg x0 x1 x2 x3 x4 s := rfl
theorem exec_sclose (x0) (s : State) : exec (.sclose x0) s = execSclose x0 s := rfl
theorem exec_sstat (x0 x1) (s : State) : exec (.sstat x0 x1) s = execSstat x0 x1 s := rfl
theorem exec_ldm (x0 x1 x2) (s : State) : exec (.ldm x0 x1 x2) s = execLdm x0 x1 x2 s := rfl
theorem exec_stm (x0 x1 x2) (s : State) : exec (.stm x0 x1 x2) s = execStm x0 x1 x2 s := rfl
theorem exec_vdotI8 (x0 x1 x2) (s : State) : exec (.vdotI8 x0 x1 x2) s = execVdotI8 x0 x1 x2 s := rfl
theorem exec_maca (x0 x1 x2) (s : State) : exec (.maca x0 x1 x2) s = execMaca x0 x1 x2 s := rfl
theorem exec_cvtMx (x0 x1 x2 x3) (s : State) : exec (.cvtMx x0 x1 x2 x3) s = execCvtMx x0 x1 x2 x3 s := rfl
theorem exec_cvtUnmx (x0 x1 x2 x3) (s : State) : exec (.cvtUnmx x0 x1 x2 x3) s = execCvtUnmx x0 x1 x2 x3 s := rfl
theorem exec_rescaleMx (x0 x1 x2 x3) (s : State) : exec (.rescaleMx x0 x1 x2 x3) s = execRescaleMx x0 x1 x2 x3 s := rfl
theorem exec_transp (x0 x1 x2 x3) (s : State) : exec (.transp x0 x1 x2 x3) s = execTransp x0 x1 x2 x3 s := rfl
theorem exec_convOpStart (x0) (s : State) : exec (.convOpStart x0) s = execConvOpStart x0 s := rfl
theorem exec_convOpComplete (x0) (s : State) : exec (.convOpComplete x0) s = execConvOpComplete x0 s := rfl
theorem exec_mma (x0 x1 x2 x3) (s : State) : exec (.mma x0 x1 x2 x3) s = execMma x0 x1 x2 x3 s := rfl
theorem exec_mmaG (x0 x1 x2 x3) (s : State) : exec (.mmaG x0 x1 x2 x3) s = execMmaG x0 x1 x2 x3 s := rfl
theorem exec_mmrot (x0 x1 x2 x3) (s : State) : exec (.mmrot x0 x1 x2 x3) s = execMmrot x0 x1 x2 x3 s := rfl
theorem exec_accClr (x0) (s : State) : exec (.accClr x0) s = execAccClr x0 s := rfl
theorem exec_accAnch (x0 x1) (s : State) : exec (.accAnch x0 x1) s = execAccAnch x0 x1 s := rfl
theorem exec_accRd (x0 x1 x2 x3) (s : State) : exec (.accRd x0 x1 x2 x3) s = execAccRd x0 x1 x2 x3 s := rfl
theorem exec_accWr (x0 x1 x2) (s : State) : exec (.accWr x0 x1 x2) s = execAccWr x0 x1 x2 s := rfl
theorem exec_accStat (x0 x1) (s : State) : exec (.accStat x0 x1) s = execAccStat x0 x1 s := rfl
theorem exec_matrixOpStart (x0 x1) (s : State) : exec (.matrixOpStart x0 x1) s = execMatrixOpStart x0 x1 s := rfl
theorem exec_matrixOpComplete (x0 x1) (s : State) : exec (.matrixOpComplete x0 x1) s = execMatrixOpComplete x0 x1 s := rfl
theorem exec_mmrotForward (x0 x1) (s : State) : exec (.mmrotForward x0 x1) s = execMmrotForward x0 x1 s := rfl
theorem exec_linkCfg (x0 x1) (s : State) : exec (.linkCfg x0 x1) s = execLinkCfg x0 x1 s := rfl
theorem exec_linkStat (x0) (s : State) : exec (.linkStat x0) s = execLinkStat x0 s := rfl
theorem exec_linkVectorArrival (x0) (s : State) : exec (.linkVectorArrival x0) s = execLinkVectorArrival x0 s := rfl
theorem exec_streamFetch (x0 x1) (s : State) : exec (.streamFetch x0 x1) s = execStreamFetch x0 x1 s := rfl
theorem exec_streamDrain (x0 x1) (s : State) : exec (.streamDrain x0 x1) s = execStreamDrain x0 x1 s := rfl
theorem exec_trapEntry (x0 x1 x2) (s : State) : exec (.trapEntry x0 x1 x2) s = execTrapEntry x0 x1 x2 s := rfl
theorem exec_asyncCauseDelivery (x0) (s : State) : exec (.asyncCauseDelivery x0) s = execAsyncCauseDelivery x0 s := rfl
theorem exec_copyCompletionInterrupt (x0) (s : State) : exec (.copyCompletionInterrupt x0) s = execCopyCompletionInterrupt x0 s := rfl
theorem exec_singleStep (x0) (s : State) : exec (.singleStep x0) s = execSingleStep x0 s := rfl
theorem exec_gateUnwind (x0 x1 x2) (s : State) : exec (.gateUnwind x0 x1 x2) s = execGateUnwind x0 x1 x2 s := rfl
theorem exec_activationStart (x0) (s : State) : exec (.activationStart x0) s = execActivationStart x0 s := rfl
theorem exec_contextLoad (x0) (s : State) : exec (.contextLoad x0) s = execContextLoad x0 s := rfl
theorem exec_contextWriteback (x0) (s : State) : exec (.contextWriteback x0) s = execContextWriteback x0 s := rfl
theorem exec_activationBudgetExpiry (x0) (s : State) : exec (.activationBudgetExpiry x0) s = execActivationBudgetExpiry x0 s := rfl
theorem exec_budgetGraceExpiry (x0) (s : State) : exec (.budgetGraceExpiry x0) s = execBudgetGraceExpiry x0 s := rfl
theorem exec_deadlockSuspected (x0) (s : State) : exec (.deadlockSuspected x0) s = execDeadlockSuspected x0 s := rfl
theorem exec_takeBudgetSpent (x0 x1) (s : State) : exec (.takeBudgetSpent x0 x1) s = execTakeBudgetSpent x0 x1 s := rfl
theorem exec_slotExhaustion (x0) (s : State) : exec (.slotExhaustion x0) s = execSlotExhaustion x0 s := rfl
theorem exec_spilledContextReturn (x0) (s : State) : exec (.spilledContextReturn x0) s = execSpilledContextReturn x0 s := rfl
theorem exec_absentContextMessage (x0) (s : State) : exec (.absentContextMessage x0) s = execAbsentContextMessage x0 s := rfl
theorem exec_quiesceAck (x0) (s : State) : exec (.quiesceAck x0) s = execQuiesceAck x0 s := rfl
theorem exec_spawnArrival (x0) (s : State) : exec (.spawnArrival x0) s = execSpawnArrival x0 s := rfl
theorem exec_spawnRetry (x0) (s : State) : exec (.spawnRetry x0) s = execSpawnRetry x0 s := rfl
theorem exec_joinArrival (x0) (s : State) : exec (.joinArrival x0) s = execJoinArrival x0 s := rfl
theorem exec_depositArrival (x0) (s : State) : exec (.depositArrival x0) s = execDepositArrival x0 s := rfl
theorem exec_depositLanding (x0 x1) (s : State) : exec (.depositLanding x0 x1) s = execDepositLanding x0 x1 s := rfl
theorem exec_parkedReturn (x0) (s : State) : exec (.parkedReturn x0) s = execParkedReturn x0 s := rfl
theorem exec_messageArrival (x0) (s : State) : exec (.messageArrival x0) s = execMessageArrival x0 s := rfl
theorem exec_replyArrival (x0) (s : State) : exec (.replyArrival x0) s = execReplyArrival x0 s := rfl
theorem exec_remoteAccessArrival (x0) (s : State) : exec (.remoteAccessArrival x0) s = execRemoteAccessArrival x0 s := rfl
theorem exec_accessReplyArrival (x0) (s : State) : exec (.accessReplyArrival x0) s = execAccessReplyArrival x0 s := rfl
theorem exec_storeAckArrival (x0) (s : State) : exec (.storeAckArrival x0) s = execStoreAckArrival x0 s := rfl
theorem exec_refusalArrival (x0) (s : State) : exec (.refusalArrival x0) s = execRefusalArrival x0 s := rfl
theorem exec_journalTimeout (x0 x1) (s : State) : exec (.journalTimeout x0 x1) s = execJournalTimeout x0 x1 s := rfl
theorem exec_linkReroute (x0 x1 x2) (s : State) : exec (.linkReroute x0 x1 x2) s = execLinkReroute x0 x1 x2 s := rfl
theorem exec_barrierEvent (x0) (s : State) : exec (.barrierEvent x0) s = execBarrierEvent x0 s := rfl
theorem exec_barrierHoldRetry (x0) (s : State) : exec (.barrierHoldRetry x0) s = execBarrierHoldRetry x0 s := rfl
theorem exec_ringOperationAtOwner (x0 x1) (s : State) : exec (.ringOperationAtOwner x0 x1) s = execRingOperationAtOwner x0 x1 s := rfl
theorem exec_treeResult (x0 x1) (s : State) : exec (.treeResult x0 x1) s = execTreeResult x0 x1 s := rfl
theorem exec_reshapeComplete (x0) (s : State) : exec (.reshapeComplete x0) s = execReshapeComplete x0 s := rfl
theorem exec_copyTransferStart (x0) (s : State) : exec (.copyTransferStart x0) s = execCopyTransferStart x0 s := rfl
theorem exec_copyTransferDone (x0) (s : State) : exec (.copyTransferDone x0) s = execCopyTransferDone x0 s := rfl
theorem exec_copyTransferFault (x0) (s : State) : exec (.copyTransferFault x0) s = execCopyTransferFault x0 s := rfl
theorem exec_clapper (x0) (s : State) : exec (.clapper x0) s = execClapper x0 s := rfl
theorem exec_egressSwap (x0) (s : State) : exec (.egressSwap x0) s = execEgressSwap x0 s := rfl
theorem exec_frameTransmit (x0) (s : State) : exec (.frameTransmit x0) s = execFrameTransmit x0 s := rfl
theorem exec_frameIngress (x0) (s : State) : exec (.frameIngress x0) s = execFrameIngress x0 s := rfl
theorem exec_callSheetEntryFire (x0) (s : State) : exec (.callSheetEntryFire x0) s = execCallSheetEntryFire x0 s := rfl
theorem exec_oneShotFire (x0 x1) (s : State) : exec (.oneShotFire x0 x1) s = execOneShotFire x0 x1 s := rfl
theorem exec_heartbeatSend (s : State) : exec (.heartbeatSend) s = execHeartbeatSend s := rfl
theorem exec_heartbeatArrival (x0 x1 x2) (s : State) : exec (.heartbeatArrival x0 x1 x2) s = execHeartbeatArrival x0 x1 x2 s := rfl
theorem exec_heartbeatMiss (s : State) : exec (.heartbeatMiss) s = execHeartbeatMiss s := rfl
theorem exec_mirrorWrite (x0 x1 x2) (s : State) : exec (.mirrorWrite x0 x1 x2) s = execMirrorWrite x0 x1 x2 s := rfl
theorem exec_mirrorMarkerSend (s : State) : exec (.mirrorMarkerSend) s = execMirrorMarkerSend s := rfl
theorem exec_unreconciledTake (s : State) : exec (.unreconciledTake) s = execUnreconciledTake s := rfl
theorem exec_takeDigestSend (s : State) : exec (.takeDigestSend) s = execTakeDigestSend s := rfl
theorem exec_takeDigestArrival (x0 x1) (s : State) : exec (.takeDigestArrival x0 x1) s = execTakeDigestArrival x0 x1 s := rfl
theorem exec_digestTimeout (s : State) : exec (.digestTimeout) s = execDigestTimeout s := rfl
theorem exec_pairForm (x0) (s : State) : exec (.pairForm x0) s = execPairForm x0 s := rfl
theorem exec_guestSubmit (x0) (s : State) : exec (.guestSubmit x0) s = execGuestSubmit x0 s := rfl
theorem exec_guestCompletion (x0 x1 x2) (s : State) : exec (.guestCompletion x0 x1 x2) s = execGuestCompletion x0 x1 x2 s := rfl
theorem exec_guestFault (x0 x1 x2) (s : State) : exec (.guestFault x0 x1 x2) s = execGuestFault x0 x1 x2 s := rfl
theorem exec_guestDrained (x0) (s : State) : exec (.guestDrained x0) s = execGuestDrained x0 s := rfl
theorem exec_guestSaved (x0) (s : State) : exec (.guestSaved x0) s = execGuestSaved x0 s := rfl
theorem exec_guestAccess (x0 x1) (s : State) : exec (.guestAccess x0 x1) s = execGuestAccess x0 x1 s := rfl
theorem exec_guestRequestTimeout (x0 x1) (s : State) : exec (.guestRequestTimeout x0 x1) s = execGuestRequestTimeout x0 x1 s := rfl
theorem exec_guestPreemptRequest (x0) (s : State) : exec (.guestPreemptRequest x0) s = execGuestPreemptRequest x0 s := rfl
theorem exec_guestPreemptTimeout (x0) (s : State) : exec (.guestPreemptTimeout x0) s = execGuestPreemptTimeout x0 s := rfl
theorem exec_hostDoorbell (x0) (s : State) : exec (.hostDoorbell x0) s = execHostDoorbell x0 s := rfl
theorem exec_launch (x0 x1) (s : State) : exec (.launch x0 x1) s = execLaunch x0 x1 s := rfl
theorem exec_activeMessage (x0 x1 x2 x3 x4 x5) (s : State) : exec (.activeMessage x0 x1 x2 x3 x4 x5) s = execActiveMessage x0 x1 x2 x3 x4 x5 s := rfl
theorem exec_loadCallSheet (x0 x1 x2 x3) (s : State) : exec (.loadCallSheet x0 x1 x2 x3) s = execLoadCallSheet x0 x1 x2 x3 s := rfl
theorem exec_releaseQueue (x0 x1 x2) (s : State) : exec (.releaseQueue x0 x1 x2) s = execReleaseQueue x0 x1 x2 s := rfl
theorem exec_endLaunch (x0 x1) (s : State) : exec (.endLaunch x0 x1) s = execEndLaunch x0 x1 s := rfl
theorem exec_loadImageMaps (x0 x1 x2) (s : State) : exec (.loadImageMaps x0 x1 x2) s = execLoadImageMaps x0 x1 x2 s := rfl
theorem exec_openAperture (x0 x1 x2) (s : State) : exec (.openAperture x0 x1 x2) s = execOpenAperture x0 x1 x2 s := rfl
theorem exec_claimOwnership (x0 x1) (s : State) : exec (.claimOwnership x0 x1) s = execClaimOwnership x0 x1 s := rfl
theorem exec_transferOwnership (x0 x1) (s : State) : exec (.transferOwnership x0 x1) s = execTransferOwnership x0 x1 s := rfl
theorem exec_advanceVersion (x0 x1 x2) (s : State) : exec (.advanceVersion x0 x1 x2) s = execAdvanceVersion x0 x1 x2 s := rfl
theorem exec_attestationQuote (x0 x1 x2) (s : State) : exec (.attestationQuote x0 x1 x2) s = execAttestationQuote x0 x1 x2 s := rfl
theorem exec_storeImage (x0 x1 x2) (s : State) : exec (.storeImage x0 x1 x2) s = execStoreImage x0 x1 x2 s := rfl
theorem exec_splitDomain (x0 x1 x2 x3 x4) (s : State) : exec (.splitDomain x0 x1 x2 x3 x4) s = execSplitDomain x0 x1 x2 x3 x4 s := rfl
theorem exec_hostApertureAccess (x0) (s : State) : exec (.hostApertureAccess x0) s = execHostApertureAccess x0 s := rfl
theorem exec_hashmaskWrite (x0 x1) (s : State) : exec (.hashmaskWrite x0 x1) s = execHashmaskWrite x0 x1 s := rfl
theorem exec_domselWrite (x0 x1) (s : State) : exec (.domselWrite x0 x1) s = execDomselWrite x0 x1 s := rfl
theorem exec_l2ctlWrite (x0) (s : State) : exec (.l2ctlWrite x0) s = execL2ctlWrite x0 s := rfl
theorem exec_domainSwitchApply (s : State) : exec (.domainSwitchApply) s = execDomainSwitchApply s := rfl
theorem exec_losingSliceSignal (s : State) : exec (.losingSliceSignal) s = execLosingSliceSignal s := rfl
theorem exec_domainSwitchEnd (s : State) : exec (.domainSwitchEnd) s = execDomainSwitchEnd s := rfl
theorem exec_domstatRead (s : State) : exec (.domstatRead) s = execDomstatRead s := rfl
theorem exec_pageMigration (x0 x1 x2) (s : State) : exec (.pageMigration x0 x1 x2) s = execPageMigration x0 x1 x2 s := rfl
theorem exec_invpgAck (x0) (s : State) : exec (.invpgAck x0) s = execInvpgAck x0 s := rfl
theorem exec_uncorrectableError (x0 x1 x2) (s : State) : exec (.uncorrectableError x0 x1 x2) s = execUncorrectableError x0 x1 x2 s := rfl
theorem exec_tileRetire (x0 x1) (s : State) : exec (.tileRetire x0 x1) s = execTileRetire x0 x1 s := rfl
theorem exec_watchpointTrigger (x0 x1 x2 x3 x4) (s : State) : exec (.watchpointTrigger x0 x1 x2 x3 x4) s = execWatchpointTrigger x0 x1 x2 x3 x4 s := rfl
theorem exec_wpctlWrite (x0 x1 x2) (s : State) : exec (.wpctlWrite x0 x1 x2) s = execWpctlWrite x0 x1 x2 s := rfl
theorem exec_wpctlRead (x0 x1) (s : State) : exec (.wpctlRead x0 x1) s = execWpctlRead x0 x1 s := rfl
theorem exec_snapshotTrigger (x0) (s : State) : exec (.snapshotTrigger x0) s = execSnapshotTrigger x0 s := rfl
theorem exec_snapshotPin (s : State) : exec (.snapshotPin) s = execSnapshotPin s := rfl
theorem exec_snaptimeReached (x0) (s : State) : exec (.snaptimeReached x0) s = execSnaptimeReached x0 s := rfl
theorem exec_rearm (s : State) : exec (.rearm) s = execRearm s := rfl
theorem exec_timectlWrite (x0) (s : State) : exec (.timectlWrite x0) s = execTimectlWrite x0 s := rfl
theorem exec_takecfgWrite (x0) (s : State) : exec (.takecfgWrite x0) s = execTakecfgWrite x0 s := rfl
theorem exec_servoStep (x0) (s : State) : exec (.servoStep x0) s = execServoStep x0 s := rfl
theorem exec_lockedChange (x0) (s : State) : exec (.lockedChange x0) s = execLockedChange x0 s := rfl
theorem exec_timestatErrClear (s : State) : exec (.timestatErrClear) s = execTimestatErrClear s := rfl
theorem exec_dtimeDivergence (x0) (s : State) : exec (.dtimeDivergence x0) s = execDtimeDivergence x0 s := rfl
theorem exec_mapsw (s : State) : exec (.mapsw) s = execMapsw s := rfl
theorem exec_csstatRead (s : State) : exec (.csstatRead) s = execCsstatRead s := rfl
theorem exec_detstatRead (s : State) : exec (.detstatRead) s = execDetstatRead s := rfl
theorem exec_pairstatClear (x0 x1) (s : State) : exec (.pairstatClear x0 x1) s = execPairstatClear x0 x1 s := rfl
theorem exec_statusLostaClear (x0) (s : State) : exec (.statusLostaClear x0) s = execStatusLostaClear x0 s := rfl
theorem exec_governorSample (x0 x1) (s : State) : exec (.governorSample x0 x1) s = execGovernorSample x0 x1 s := rfl
theorem exec_thermalSample (x0 x1) (s : State) : exec (.thermalSample x0 x1) s = execThermalSample x0 x1 s := rfl
theorem exec_clrtrip (x0) (s : State) : exec (.clrtrip x0) s = execClrtrip x0 s := rfl
theorem exec_throttleStepChange (x0) (s : State) : exec (.throttleStepChange x0) s = execThrottleStepChange x0 s := rfl
theorem exec_pwrctlWrite (x0) (s : State) : exec (.pwrctlWrite x0) s = execPwrctlWrite x0 s := rfl
theorem exec_powerFailWarning (s : State) : exec (.powerFailWarning) s = execPowerFailWarning s := rfl
theorem exec_drainExpiry (s : State) : exec (.drainExpiry) s = execDrainExpiry s := rfl
theorem exec_reelWrite (s : State) : exec (.reelWrite) s = execReelWrite s := rfl
theorem exec_reelRestart (s : State) : exec (.reelRestart) s = execReelRestart s := rfl
theorem exec_coldReset (s : State) : exec (.coldReset) s = execColdReset s := rfl
theorem exec_recoveryMode (x0 x1) (s : State) : exec (.recoveryMode x0 x1) s = execRecoveryMode x0 x1 s := rfl
theorem exec_firmwareWatchdog (x0) (s : State) : exec (.firmwareWatchdog x0) s = execFirmwareWatchdog x0 s := rfl
theorem exec_mbxgo (x0 x1) (s : State) : exec (.mbxgo x0 x1) s = execMbxgo x0 x1 s := rfl
theorem exec_mbxpop (x0) (s : State) : exec (.mbxpop x0) s = execMbxpop x0 s := rfl
theorem exec_kick (x0) (s : State) : exec (.kick x0) s = execKick x0 s := rfl
theorem exec_mailboxEntryArrival (x0) (s : State) : exec (.mailboxEntryArrival x0) s = execMailboxEntryArrival x0 s := rfl
theorem exec_handlerPublish (x0 x1 x2) (s : State) : exec (.handlerPublish x0 x1 x2) s = execHandlerPublish x0 x1 x2 s := rfl
theorem exec_vtakenoRead (x0) (s : State) : exec (.vtakenoRead x0) s = execVtakenoRead x0 s := rfl
theorem exec_vcauseRead (x0) (s : State) : exec (.vcauseRead x0) s = execVcauseRead x0 s := rfl
theorem exec_voutdone (x0) (s : State) : exec (.voutdone x0) s = execVoutdone x0 s := rfl
theorem exec_messagePortSend (x0 x1) (s : State) : exec (.messagePortSend x0 x1) s = execMessagePortSend x0 x1 s := rfl
theorem exec_pops (x0 x1) (s : State) : exec (.pops x0 x1) s = execPops x0 x1 s := rfl
theorem exec_popv (x0 x1) (s : State) : exec (.popv x0 x1) s = execPopv x0 x1 s := rfl
theorem exec_messagePortStatusRead (x0) (s : State) : exec (.messagePortStatusRead x0) s = execMessagePortStatusRead x0 s := rfl
theorem exec_resultQueueAppend (x0 x1 x2 x3) (s : State) : exec (.resultQueueAppend x0 x1 x2 x3) s = execResultQueueAppend x0 x1 x2 x3 s := rfl
theorem exec_continuityLinkDown (s : State) : exec (.continuityLinkDown) s = execContinuityLinkDown s := rfl
theorem exec_guestLinkTraining (x0) (s : State) : exec (.guestLinkTraining x0) s = execGuestLinkTraining x0 s := rfl
theorem exec_epochWrite (x0) (s : State) : exec (.epochWrite x0) s = execEpochWrite x0 s := rfl
theorem exec_slewComplete (s : State) : exec (.slewComplete) s = execSlewComplete s := rfl
theorem exec_mirrorMarkerArrival (x0) (s : State) : exec (.mirrorMarkerArrival x0) s = execMirrorMarkerArrival x0 s := rfl
theorem exec_sendQueueEntryFreed (x0 x1) (s : State) : exec (.sendQueueEntryFreed x0 x1) s = execSendQueueEntryFreed x0 x1 s := rfl
theorem exec_inFlightWriteLands (x0 x1) (s : State) : exec (.inFlightWriteLands x0 x1) s = execInFlightWriteLands x0 x1 s := rfl
theorem exec_writeBackAck (x0) (s : State) : exec (.writeBackAck x0) s = execWriteBackAck x0 s := rfl
theorem exec_killAcceptance (x0) (s : State) : exec (.killAcceptance x0) s = execKillAcceptance x0 s := rfl
theorem exec_hostAccessTimeout (x0) (s : State) : exec (.hostAccessTimeout x0) s = execHostAccessTimeout x0 s := rfl
theorem exec_recruitmentAnswer (x0 x1) (s : State) : exec (.recruitmentAnswer x0 x1) s = execRecruitmentAnswer x0 x1 s := rfl

/-! ### What each instruction names -/

theorem form_nop : form (.nop) = cForm 0 := rfl
theorem form_anop : form (.anop) = aForm (0x3F * 2 ^ 25) := rfl
theorem form_hint (d a b n) : form (.hint d a b n) = cForm (wP 0 d a b 31 n) := rfl
theorem form_endAct : form (.endAct) = cForm 0x20 := rfl
theorem form_yield : form (.yield) = cForm 0x40 := rfl
theorem form_fenceRel (s) : form (.fenceRel s) = cForm (wP 0 2 0 0 3 (scopeCode s)) := rfl
theorem form_fenceAcq (s) : form (.fenceAcq s) = cForm (wP 0 1 0 0 3 (scopeCode s)) := rfl
theorem form_fenceAr (s) : form (.fenceAr s) = cForm (wP 0 3 0 0 3 (scopeCode s)) := rfl
theorem form_ifence (s) : form (.ifence s) = cForm (wP 0 0 0 0 4 (scopeCode s)) := rfl
theorem form_tret : form (.tret) = cForm 0xA0 := rfl
theorem form_syscall (n) : form (.syscall n) = cForm (wP 0 0 (n.toNat / 32) (n.toNat % 32) 6 0) := rfl
theorem form_brk (n) : form (.brk n) = cForm (wP 0 0 (n.toNat / 32) (n.toNat % 32) 7 0) := rfl
theorem form_snap (d) : form (.snap d) = { cForm (wP 0 d 0 0 8 0) with gw := [d] } := rfl
theorem form_sysr (d n) : form (.sysr d n) = { cForm (wP 0 d (n.toNat / 32) (n.toNat % 32) 9 0) with gw := [d] } := rfl
theorem form_sysw (n r) : form (.sysw n r) = { cForm (wP 0 r (n.toNat / 32) (n.toNat % 32) 10 0) with gr := [r], sw := [n.toNat] } := rfl
theorem form_gate (d n) : form (.gate d n) = { cForm (wP 0 d (n.toNat / 32) (n.toNat % 32) 11 0) with gw := (List.range 31).map fun i => Fin.ofNat 32 (i + 1) } := rfl
theorem form_gret : form (.gret) = { cForm 0x180 with gw := (List.range 31).map fun i => Fin.ofNat 32 (i + 1) } := rfl
theorem form_slateMin (d a) : form (.slateMin d a) = { cForm (wP 0 d a 0 13 0) with gr := [a], gw := [d] } := rfl
theorem form_slateSet (d a) : form (.slateSet d a) = { cForm (wP 0 d a 1 13 0) with gr := [a], gw := [d] } := rfl
theorem form_slateRgn (d a) : form (.slateRgn d a) = { cForm (wP 0 d a 2 13 0) with gr := [a], gw := [d] } := rfl
theorem form_slateRd (d) : form (.slateRd d) = { cForm (wP 0 d 0 3 13 0) with gw := [d] } := rfl
theorem form_slateFold (d a) : form (.slateFold d a) = { cForm (wP 0 d a 4 13 0) with gr := [a], gw := [d] } := rfl
theorem form_slchk (d a) : form (.slchk d a) = { cForm (wP 0 d a 0 14 0) with gr := [a], gw := [d] } := rfl
theorem form_slchkTrap (d a) : form (.slchkTrap d a) = { cForm (wP 0 d a 1 14 0) with gr := [a], gw := [d] } := rfl
theorem form_time (d) : form (.time d) = { cForm (wP 0 d 0 0 15 0) with gw := [d] } := rfl
theorem form_timeSinceClapper (d) : form (.timeSinceClapper d) = { cForm (wP 0 d 0 1 15 0) with gw := [d] } := rfl
theorem form_timeToEgress (d) : form (.timeToEgress d) = { cForm (wP 0 d 0 2 15 0) with gw := [d] } := rfl
theorem form_kill (d a) : form (.kill d a) = { cForm (wP 0 d a 0 16 0) with gr := [a], gw := [d] } := rfl
theorem form_invpg (d a b) : form (.invpg d a b) = { cForm (wP 0 d a b 17 0) with gr := [a, b], gw := [d] } := rfl
theorem form_add (d a b) : form (.add d a b) = formDAB 1 0 d a b := rfl
theorem form_sub (d a b) : form (.sub d a b) = formDAB 1 1 d a b := rfl
theorem form_and (d a b) : form (.and d a b) = formDAB 1 2 d a b := rfl
theorem form_or (d a b) : form (.or d a b) = formDAB 1 3 d a b := rfl
theorem form_xor (d a b) : form (.xor d a b) = formDAB 1 4 d a b := rfl
theorem form_shl (d a b) : form (.shl d a b) = formDAB 1 5 d a b := rfl
theorem form_shr (d a b) : form (.shr d a b) = formDAB 1 6 d a b := rfl
theorem form_sra (d a b) : form (.sra d a b) = formDAB 1 7 d a b := rfl
theorem form_rotl (d a b) : form (.rotl d a b) = formDAB 1 8 d a b := rfl
theorem form_mul (d a b) : form (.mul d a b) = formDAB 1 9 d a b := rfl
theorem form_mulh (d a b) : form (.mulh d a b) = formDAB 1 10 d a b := rfl
theorem form_mulhu (d a b) : form (.mulhu d a b) = formDAB 1 11 d a b := rfl
theorem form_div (d a b) : form (.div d a b) = formDAB 1 12 d a b := rfl
theorem form_divu (d a b) : form (.divu d a b) = formDAB 1 13 d a b := rfl
theorem form_rem (d a b) : form (.rem d a b) = formDAB 1 14 d a b := rfl
theorem form_remu (d a b) : form (.remu d a b) = formDAB 1 15 d a b := rfl
theorem form_min (d a b) : form (.min d a b) = formDAB 1 16 d a b := rfl
theorem form_max (d a b) : form (.max d a b) = formDAB 1 17 d a b := rfl
theorem form_minu (d a b) : form (.minu d a b) = formDAB 1 18 d a b := rfl
theorem form_maxu (d a b) : form (.maxu d a b) = formDAB 1 19 d a b := rfl
theorem form_slt (d a b) : form (.slt d a b) = formDAB 1 20 d a b := rfl
theorem form_sltu (d a b) : form (.sltu d a b) = formDAB 1 21 d a b := rfl
theorem form_clz (d a) : form (.clz d a) = formDA 1 22 d a := rfl
theorem form_ctz (d a) : form (.ctz d a) = formDA 1 23 d a := rfl
theorem form_popc (d a) : form (.popc d a) = formDA 1 24 d a := rfl
theorem form_bswap (d a) : form (.bswap d a) = formDA 1 25 d a := rfl
theorem form_sextb (d a) : form (.sextb d a) = formDA 1 26 d a := rfl
theorem form_sexth (d a) : form (.sexth d a) = formDA 1 27 d a := rfl
theorem form_sextw (d a) : form (.sextw d a) = formDA 1 28 d a := rfl
theorem form_zextb (d a) : form (.zextb d a) = formDA 1 29 d a := rfl
theorem form_zexth (d a) : form (.zexth d a) = formDA 1 30 d a := rfl
theorem form_zextw (d a) : form (.zextw d a) = formDA 1 31 d a := rfl
theorem form_sel (d a b) : form (.sel d a b) = { formDAB 1 32 d a b with gr := [a, b, d] } := rfl
theorem form_addi (d a i) : form (.addi d a i) = formI 2 d a i.toNat := rfl
theorem form_addiLong (d a y2) : form (.addiLong d a y2) = formIX 2 d a := rfl
theorem form_andi (d a i) : form (.andi d a i) = formI 3 d a i.toNat := rfl
theorem form_andiLong (d a y2) : form (.andiLong d a y2) = formIX 3 d a := rfl
theorem form_ori (d a i) : form (.ori d a i) = formI 4 d a i.toNat := rfl
theorem form_oriLong (d a y2) : form (.oriLong d a y2) = formIX 4 d a := rfl
theorem form_xori (d a i) : form (.xori d a i) = formI 5 d a i.toNat := rfl
theorem form_xoriLong (d a y2) : form (.xoriLong d a y2) = formIX 5 d a := rfl
theorem form_slti (d a i) : form (.slti d a i) = formI 7 d a i.toNat := rfl
theorem form_sltiLong (d a y2) : form (.sltiLong d a y2) = formIX 7 d a := rfl
theorem form_sltiu (d a i) : form (.sltiu d a i) = formI 8 d a i.toNat := rfl
theorem form_sltiuLong (d a y2) : form (.sltiuLong d a y2) = formIX 8 d a := rfl
theorem form_shli (d a n) : form (.shli d a n) = formI 6 d a n.toNat := rfl
theorem form_shliLong (d a y2) : form (.shliLong d a y2) = formIX 6 d a := rfl
theorem form_shri (d a n) : form (.shri d a n) = formI 6 d a (2 ^ 12 + n.toNat) := rfl
theorem form_shriLong (d a y2) : form (.shriLong d a y2) = formIX 6 d a := rfl
theorem form_srai (d a n) : form (.srai d a n) = formI 6 d a (2 * 2 ^ 12 + n.toNat) := rfl
theorem form_sraiLong (d a y2) : form (.sraiLong d a y2) = formIX 6 d a := rfl
theorem form_rotli (d a n) : form (.rotli d a n) = formI 6 d a (3 * 2 ^ 12 + n.toNat) := rfl
theorem form_rotliLong (d a y2) : form (.rotliLong d a y2) = formIX 6 d a := rfl
theorem form_movhi (d i) : form (.movhi d i) = { cForm (wU 9 d i.toNat) with gw := [d] } := rfl
theorem form_leaScale1 (d a b) : form (.leaScale1 d a b) = formDAB 0x0A 0 d a b := rfl
theorem form_leaScale2 (d a b) : form (.leaScale2 d a b) = formDAB 0x0A 1 d a b := rfl
theorem form_leaScale4 (d a b) : form (.leaScale4 d a b) = formDAB 0x0A 2 d a b := rfl
theorem form_leaScale8 (d a b) : form (.leaScale8 d a b) = formDAB 0x0A 3 d a b := rfl
theorem form_gaddr (d a b) : form (.gaddr d a b) = formDAB 0x0A 4 d a b := rfl
theorem form_beq (a b o) : form (.beq a b o) = formB 0x0B a b o.toNat := rfl
theorem form_beqLong (a b y2) : form (.beqLong a b y2) = formBX 0x0B a b := rfl
theorem form_bne (a b o) : form (.bne a b o) = formB 0x0C a b o.toNat := rfl
theorem form_bneLong (a b y2) : form (.bneLong a b y2) = formBX 0x0C a b := rfl
theorem form_blt (a b o) : form (.blt a b o) = formB 0x0D a b o.toNat := rfl
theorem form_bltLong (a b y2) : form (.bltLong a b y2) = formBX 0x0D a b := rfl
theorem form_bge (a b o) : form (.bge a b o) = formB 0x0E a b o.toNat := rfl
theorem form_bgeLong (a b y2) : form (.bgeLong a b y2) = formBX 0x0E a b := rfl
theorem form_bltu (a b o) : form (.bltu a b o) = formB 0x0F a b o.toNat := rfl
theorem form_bltuLong (a b y2) : form (.bltuLong a b y2) = formBX 0x0F a b := rfl
theorem form_bgeu (a b o) : form (.bgeu a b o) = formB 0x10 a b o.toNat := rfl
theorem form_bgeuLong (a b y2) : form (.bgeuLong a b y2) = formBX 0x10 a b := rfl
theorem form_jal (d o) : form (.jal d o) = { cForm (wU 0x11 d o.toNat) with gw := [d] } := rfl
theorem form_jalLong (d y1) : form (.jalLong d y1) = { xForm (wU 0x11 d 0) with gw := [d] } := rfl
theorem form_jalr (d a i) : form (.jalr d a i) = formI 0x12 d a i.toNat := rfl
theorem form_jalrLong (d a y2) : form (.jalrLong d a y2) = formIX 0x12 d a := rfl
theorem form_rand (d a b) : form (.rand d a b) = { formDAB 0x20 0 d a b with gw := [d, a] } := rfl
theorem form_cvtfx (d a b) : form (.cvtfx d a b) = { formDAB 0x20 1 d a b with gw := [d, nextReg d] } := rfl
theorem form_cvtxf (d a b) : form (.cvtxf d a b) = { formDAB 0x20 2 d a b with gr := [a, nextReg a, b] } := rfl
theorem form_ldb (d a o) : form (.ldb d a o) = formLd 0x13 0 d a o.toNat := rfl
theorem form_ldbLong (d a y2) : form (.ldbLong d a y2) = formLdX 0x13 0 d a := rfl
theorem form_ldh (d a o) : form (.ldh d a o) = formLd 0x13 1 d a o.toNat := rfl
theorem form_ldhLong (d a y2) : form (.ldhLong d a y2) = formLdX 0x13 1 d a := rfl
theorem form_ldw (d a o) : form (.ldw d a o) = formLd 0x13 2 d a o.toNat := rfl
theorem form_ldwLong (d a y2) : form (.ldwLong d a y2) = formLdX 0x13 2 d a := rfl
theorem form_ldd (d a o) : form (.ldd d a o) = formLd 0x13 3 d a o.toNat := rfl
theorem form_lddLong (d a y2) : form (.lddLong d a y2) = formLdX 0x13 3 d a := rfl
theorem form_ldbu (d a o) : form (.ldbu d a o) = formLd 0x13 4 d a o.toNat := rfl
theorem form_ldbuLong (d a y2) : form (.ldbuLong d a y2) = formLdX 0x13 4 d a := rfl
theorem form_ldhu (d a o) : form (.ldhu d a o) = formLd 0x13 5 d a o.toNat := rfl
theorem form_ldhuLong (d a y2) : form (.ldhuLong d a y2) = formLdX 0x13 5 d a := rfl
theorem form_ldwu (d a o) : form (.ldwu d a o) = formLd 0x13 6 d a o.toNat := rfl
theorem form_ldwuLong (d a y2) : form (.ldwuLong d a y2) = formLdX 0x13 6 d a := rfl
theorem form_ldq (d a o) : form (.ldq d a o) = formLdq (formLd 0x13 7 d a o.toNat) d := rfl
theorem form_ldqLong (d a y2) : form (.ldqLong d a y2) = formLdq (formLdX 0x13 7 d a) d := rfl
theorem form_stb (r a o) : form (.stb r a o) = formSt 0x14 0 r a o.toNat := rfl
theorem form_stbLong (r a y2) : form (.stbLong r a y2) = formStX 0x14 0 r a := rfl
theorem form_sth (r a o) : form (.sth r a o) = formSt 0x14 1 r a o.toNat := rfl
theorem form_sthLong (r a y2) : form (.sthLong r a y2) = formStX 0x14 1 r a := rfl
theorem form_stw (r a o) : form (.stw r a o) = formSt 0x14 2 r a o.toNat := rfl
theorem form_stwLong (r a y2) : form (.stwLong r a y2) = formStX 0x14 2 r a := rfl
theorem form_std (r a o) : form (.std r a o) = formSt 0x14 3 r a o.toNat := rfl
theorem form_stdLong (r a y2) : form (.stdLong r a y2) = formStX 0x14 3 r a := rfl
theorem form_stq (r a o) : form (.stq r a o) = formStq (formSt 0x14 7 r a o.toNat) r a := rfl
theorem form_stqLong (r a y2) : form (.stqLong r a y2) = formStq (formStX 0x14 7 r a) r a := rfl
theorem form_ldf (d a o) : form (.ldf d a o) = formLd 0x15 0 d a o.toNat := rfl
theorem form_ldfLong (d a y2) : form (.ldfLong d a y2) = formLdX 0x15 0 d a := rfl
theorem form_ldc (d a o) : form (.ldc d a o) = formLd 0x15 1 d a o.toNat := rfl
theorem form_ldcLong (d a y2) : form (.ldcLong d a y2) = formLdX 0x15 1 d a := rfl
theorem form_stf (r a o) : form (.stf r a o) = formSt 0x15 2 r a o.toNat := rfl
theorem form_stfLong (r a y2) : form (.stfLong r a y2) = formStX 0x15 2 r a := rfl
theorem form_stfo (r a o) : form (.stfo r a o) = formSt 0x15 3 r a o.toNat := rfl
theorem form_stfoLong (r a y2) : form (.stfoLong r a y2) = formStX 0x15 3 r a := rfl
theorem form_empty (a o) : form (.empty a o) = { cForm (wM 0x15 0 a 4 o.toNat) with gr := [a] } := rfl
theorem form_emptyLong (a y1) : form (.emptyLong a y1) = { xForm (wM 0x15 0 a 4 0) with gr := [a] } := rfl
theorem form_feq (d a o) : form (.feq d a o) = formLd 0x15 5 d a o.toNat := rfl
theorem form_feqLong (d a y2) : form (.feqLong d a y2) = formLdX 0x15 5 d a := rfl
theorem form_vld (d a o) : form (.vld d a o) = formVld d a o.toNat := rfl
theorem form_vldLong (d a y2) : form (.vldLong d a y2) = formVldX d a := rfl
theorem form_vst (r a o) : form (.vst r a o) = formVst r a o.toNat := rfl
theorem form_vstLong (r a y2) : form (.vstLong r a y2) = formVstX r a := rfl
theorem form_vlds (d a b o) : form (.vlds d a b o) = formVlds d a b o.toNat := rfl
theorem form_vldsLong (d a b y3) : form (.vldsLong d a b y3) = formVldsX d a b := rfl
theorem form_vsts (r a b o) : form (.vsts r a b o) = formVsts r a b o.toNat := rfl
theorem form_vstsLong (r a b y3) : form (.vstsLong r a b y3) = formVstsX r a b := rfl
theorem form_vgath (d a b o) : form (.vgath d a b o) = formVgath d a b o.toNat := rfl
theorem form_vgathLong (d a b y3) : form (.vgathLong d a b y3) = formVgathX d a b := rfl
theorem form_vscat (r a b o) : form (.vscat r a b o) = formVscat r a b o.toNat := rfl
theorem form_vscatLong (r a b y3) : form (.vscatLong r a b y3) = formVscatX r a b := rfl
theorem form_amoadd (p d a b) : form (.amoadd p d a b) = formAmo 0 p d a b := rfl
theorem form_amoand (p d a b) : form (.amoand p d a b) = formAmo 1 p d a b := rfl
theorem form_amoor (p d a b) : form (.amoor p d a b) = formAmo 2 p d a b := rfl
theorem form_amoxor (p d a b) : form (.amoxor p d a b) = formAmo 3 p d a b := rfl
theorem form_amomin (p d a b) : form (.amomin p d a b) = formAmo 4 p d a b := rfl
theorem form_amomax (p d a b) : form (.amomax p d a b) = formAmo 5 p d a b := rfl
theorem form_amominu (p d a b) : form (.amominu p d a b) = formAmo 6 p d a b := rfl
theorem form_amomaxu (p d a b) : form (.amomaxu p d a b) = formAmo 7 p d a b := rfl
theorem form_amoswap (p d a b) : form (.amoswap p d a b) = formAmo 8 p d a b := rfl
theorem form_amocas (p d a b) : form (.amocas p d a b) = formAmo 9 p d a b := rfl
theorem form_pref (a o) : form (.pref a o) = formCache 0 a o.toNat := rfl
theorem form_prefLong (a y1) : form (.prefLong a y1) = formCacheX 0 a := rfl
theorem form_cwb (a o) : form (.cwb a o) = formCache 1 a o.toNat := rfl
theorem form_cwbLong (a y1) : form (.cwbLong a y1) = formCacheX 1 a := rfl
theorem form_cinv (a o) : form (.cinv a o) = formCache 2 a o.toNat := rfl
theorem form_cinvLong (a y1) : form (.cinvLong a y1) = formCacheX 2 a := rfl
theorem form_cwbinv (a o) : form (.cwbinv a o) = formCache 3 a o.toNat := rfl
theorem form_cwbinvLong (a y1) : form (.cwbinvLong a y1) = formCacheX 3 a := rfl
theorem form_cwbL2 (a o) : form (.cwbL2 a o) = formCache 4 a o.toNat := rfl
theorem form_cwbL2Long (a y1) : form (.cwbL2Long a y1) = formCacheX 4 a := rfl
theorem form_send (a b n) : form (.send a b n) = { cForm (wP 0x19 0 a b 0 n.toNat) with gr := a :: regRange b n.toNat } := rfl
theorem form_sendq (a b n) : form (.sendq a b n) = { cForm (wP 0x19 0 a b 1 n.toNat) with gr := a :: regRange b n.toNat } := rfl
theorem form_sendr (a b k) : form (.sendr a b k) = { cForm (wP 0x19 0 a b 2 k) with gr := [a, b] } := rfl
theorem form_reply (a b) : form (.reply a b) = { cForm (wP 0x19 0 a b 3 0) with gr := [a, b] } := rfl
theorem form_replyQ (a b) : form (.replyQ a b) = { cForm (wP 0x19 0 a b 3 1) with gr := [a, b] } := rfl
theorem form_cut (a) : form (.cut a) = { cForm (wP 0x19 0 a 0 4 0) with gr := [a] } := rfl
theorem form_putn (d a b n) : form (.putn d a b n) = { cForm (wP 0x19 d a b 5 n.toNat) with gr := d :: a :: regRange b n.toNat } := rfl
theorem form_getr (d a b) : form (.getr d a b) = { cForm (wP 0x19 d a b 6 0) with gr := [a, b], gw := [d] } := rfl
theorem form_getrArm (d) : form (.getrArm d) = { cForm (wP 0x19 d 0 0 6 1) with gw := [d] } := rfl
theorem form_getrDis (d) : form (.getrDis d) = { cForm (wP 0x19 d 0 0 6 2) with gw := [d] } := rfl
theorem form_qpop (d a b) : form (.qpop d a b) = { cForm (wP 0x19 d a b 7 0) with gr := [a, b], gw := [d] } := rfl
theorem form_qpeek (d a b) : form (.qpeek d a b) = { cForm (wP 0x19 d a b 8 0) with gr := [a, b], gw := [d] } := rfl
theorem form_qstat (d a) : form (.qstat d a) = { cForm (wP 0x19 d a 0 9 0) with gr := [a], gw := [d] } := rfl
theorem form_qstatClr (d a) : form (.qstatClr d a) = { cForm (wP 0x19 d a 0 9 1) with gr := [a], gw := [d] } := rfl
theorem form_spawn (j a b n) : form (.spawn j a b n) = { cForm (wP 0x1A j a b 0 n) with gr := j :: a :: b :: regRange 1 n.val } := rfl
theorem form_forkR (j a b n) : form (.forkR j a b n) = { cForm (wP 0x1A j a b 1 n) with gr := j :: a :: b :: regRange 1 n.val } := rfl
theorem form_join (d a b) : form (.join d a b) = { cForm (wP 0x1A d a b 2 0) with gr := [a, b], gw := [d] } := rfl
theorem form_joinOpen (d a b) : form (.joinOpen d a b) = { cForm (wP 0x1A d a b 2 1) with gr := [a, b], gw := [d] } := rfl
theorem form_joinSeal (d a) : form (.joinSeal d a) = { cForm (wP 0x1A d a 0 2 2) with gr := [a], gw := [d] } := rfl
theorem form_joinWait (d a) : form (.joinWait d a) = { cForm (wP 0x1A d a 0 2 3) with gr := [a], gw := [d] } := rfl
theorem form_budgetAct (d a) : form (.budgetAct d a) = { cForm (wP 0x1A d a 0 3 0) with gr := [a], gw := [d] } := rfl
theorem form_budgetTake (d a) : form (.budgetTake d a) = { cForm (wP 0x1A d a 0 3 1) with gr := [a], gw := [d] } := rfl
theorem form_barInit (a b) : form (.barInit a b) = { cForm (wP 0x1B 0 a b 0 0) with gr := [a, b] } := rfl
theorem form_barArr (s d a) : form (.barArr s d a) = { cForm (wP 0x1B d a 0 1 (scopeCode s)) with gr := [a], gw := [d] } := rfl
theorem form_barWait (s a b) : form (.barWait s a b) = { cForm (wP 0x1B 0 a b 2 (scopeCode s)) with gr := [a, b] } := rfl
theorem form_barArw (s d a) : form (.barArw s d a) = { cForm (wP 0x1B d a 0 3 (scopeCode s)) with gr := [a], gw := [d] } := rfl
theorem form_barTx (a b) : form (.barTx a b) = { cForm (wP 0x1B 0 a b 4 0) with gr := [a, b] } := rfl
theorem form_barQry (d a) : form (.barQry d a) = { cForm (wP 0x1B d a 0 5 0) with gr := [a], gw := [d] } := rfl
theorem form_ringWaitf (d h k) : form (.ringWaitf d h k) = { cForm (wP 0x1B d h 0 6 k) with gw := [d] } := rfl
theorem form_ringWaite (d h k) : form (.ringWaite d h k) = { cForm (wP 0x1B d h 0 7 k) with gw := [d] } := rfl
theorem form_ringAdvp (h k) : form (.ringAdvp h k) = cForm (wP 0x1B 0 h 0 8 k) := rfl
theorem form_ringAdvc (h k) : form (.ringAdvc h k) = cForm (wP 0x1B 0 h 0 9 k) := rfl
theorem form_ringQry (d h) : form (.ringQry d h) = { cForm (wP 0x1B d h 0 10 0) with gw := [d] } := rfl
theorem form_grpMem (d a) : form (.grpMem d a) = { cForm (wP 0x1B d a 0 11 0) with gr := [a], gw := [d] } := rfl
theorem form_red (o d a b) : form (.red o d a b) = { cForm (wP 0x1C d a b 0 (redCode o)) with gr := [b], fr := [a], fw := [d] } := rfl
theorem form_scan (o d a b) : form (.scan o d a b) = { cForm (wP 0x1C d a b 1 (redCode o)) with gr := [b], fr := [a], fw := [d] } := rfl
theorem form_bcast (d a b) : form (.bcast d a b) = { cForm (wP 0x1C d a b 2 0) with gr := [b], fr := [a], fw := [d] } := rfl
theorem form_treeWait (d a) : form (.treeWait d a) = { cForm (wP 0x1C d a 0 3 0) with gr := [a], gw := [d] } := rfl
theorem form_poolSet (d a) : form (.poolSet d a) = formDA 0x1D 0 d a := rfl
theorem form_poolQry (d a) : form (.poolQry d a) = formDA 0x1D 1 d a := rfl
theorem form_poolPin (d a) : form (.poolPin d a) = formDA 0x1D 2 d a := rfl
theorem form_poolUnpin (d a) : form (.poolUnpin d a) = formDA 0x1D 3 d a := rfl
theorem form_cpy (d a y2) : form (.cpy d a y2) = { xForm (wR 0x1E d a 0 0) with gr := [a], gw := [d] } := rfl
theorem form_cpyCancel (d a) : form (.cpyCancel d a) = { xForm (wR 0x1E d a 0 1) with gr := [a], gw := [d] } := rfl
theorem form_cpyStat (d a y2) : form (.cpyStat d a y2) = { xForm (wR 0x1E d a 0 2) with gr := [a], gw := [d] } := rfl
theorem form_scfg (d a b y3 y4) : form (.scfg d a b y3 y4) = { xForm (wR 0x1F d a b 0) with gr := [a, b], sb := [Fin.ofNat 32 d.val] } := rfl
theorem form_sclose (a) : form (.sclose a) = { cForm (wR 0x1F 0 a 0 1) with sb := [Fin.ofNat 32 a.val] } := rfl
theorem form_sstat (d a) : form (.sstat d a) = { cForm (wR 0x1F d a 0 2) with gw := [d], sb := [Fin.ofNat 32 a.val] } := rfl
theorem form_ldm (d a n) : form (.ldm d a n) = { formDAB 0x27 0 d a n with gr := [a], gw := regRange d (n.val + 1) } := rfl
theorem form_stm (r a n) : form (.stm r a n) = { formDAB 0x27 1 r a n with gr := a :: regRange r (n.val + 1), gw := [] } := rfl
theorem form_vdotI8 (d a b) : form (.vdotI8 d a b) = formDAB 0x27 2 d a b := rfl
theorem form_maca (d a b) : form (.maca d a b) = { formDAB 0x27 3 d a b with gr := [a, b, d] } := rfl
theorem form_vadd (l r d a b) : form (.vadd l r d a b) = formV 0x28 (opPar 0 (lanesCode l * 8 + rndCode r)) d a b := rfl
theorem form_vsub (l r d a b) : form (.vsub l r d a b) = formV 0x28 (opPar 1 (lanesCode l * 8 + rndCode r)) d a b := rfl
theorem form_vmul (l r d a b) : form (.vmul l r d a b) = formV 0x28 (opPar 2 (lanesCode l * 8 + rndCode r)) d a b := rfl
theorem form_vmin (l d a b) : form (.vmin l d a b) = formV 0x28 (opPar 3 (lanesCode l * 8)) d a b := rfl
theorem form_vmax (l d a b) : form (.vmax l d a b) = formV 0x28 (opPar 4 (lanesCode l * 8)) d a b := rfl
theorem form_vabs (l d a) : form (.vabs l d a) = formV1 0x28 (opPar 5 (lanesCode l * 8)) d a := rfl
theorem form_vneg (l d a) : form (.vneg l d a) = formV1 0x28 (opPar 6 (lanesCode l * 8)) d a := rfl
theorem form_vdiv (l r d a b) : form (.vdiv l r d a b) = formV 0x28 (opPar 7 (lanesCode l * 8 + rndCode r)) d a b := rfl
theorem form_vsqrt (l r d a) : form (.vsqrt l r d a) = formV1 0x28 (opPar 8 (lanesCode l * 8 + rndCode r)) d a := rfl
theorem form_vfma (d a b c) : form (.vfma d a b c) = { formV 0x29 (c * 32) d a b with fr := [a, b, c] } := rfl
theorem form_vfms (d a b c) : form (.vfms d a b c) = { formV 0x29 (c * 32 + 1) d a b with fr := [a, b, c] } := rfl
theorem form_vfnma (d a b c) : form (.vfnma d a b c) = { formV 0x29 (c * 32 + 2) d a b with fr := [a, b, c] } := rfl
theorem form_vfnms (d a b c) : form (.vfnms d a b c) = { formV 0x29 (c * 32 + 3) d a b with fr := [a, b, c] } := rfl
theorem form_vaddI (d a b) : form (.vaddI d a b) = formV 0x2A 0 d a b := rfl
theorem form_vsubI (d a b) : form (.vsubI d a b) = formV 0x2A 1 d a b := rfl
theorem form_vmulI (d a b) : form (.vmulI d a b) = formV 0x2A 2 d a b := rfl
theorem form_vmulhI (d a b) : form (.vmulhI d a b) = formV 0x2A 3 d a b := rfl
theorem form_vand (d a b) : form (.vand d a b) = formV 0x2A 4 d a b := rfl
theorem form_vor (d a b) : form (.vor d a b) = formV 0x2A 5 d a b := rfl
theorem form_vxor (d a b) : form (.vxor d a b) = formV 0x2A 6 d a b := rfl
theorem form_vshl (d a b) : form (.vshl d a b) = formV 0x2A 7 d a b := rfl
theorem form_vshr (d a b) : form (.vshr d a b) = formV 0x2A 8 d a b := rfl
theorem form_vsra (d a b) : form (.vsra d a b) = formV 0x2A 9 d a b := rfl
theorem form_vminI (d a b) : form (.vminI d a b) = formV 0x2A 10 d a b := rfl
theorem form_vmaxI (d a b) : form (.vmaxI d a b) = formV 0x2A 11 d a b := rfl
theorem form_vminuI (d a b) : form (.vminuI d a b) = formV 0x2A 12 d a b := rfl
theorem form_vmaxuI (d a b) : form (.vmaxuI d a b) = formV 0x2A 13 d a b := rfl
theorem form_vdot4I8 (d a b) : form (.vdot4I8 d a b) = { formV 0x2A 14 d a b with fr := [a, b, d] } := rfl
theorem form_vcmp (l c d a b) : form (.vcmp l c d a b) = { aForm (wP 0x2B d a b 0 (cmpLanesCode l * 8 + condCode c)) with fr := [a, b], mw := [d] } := rfl
theorem form_vsel (d a b) : form (.vsel d a b) = { aForm (wP 0x2B d a b 1 0) with fr := [a, d], fw := [d], mr := [b] } := rfl
theorem form_mand (d a b) : form (.mand d a b) = { aForm (wP 0x2B d a b 2 0) with mr := [a, b], mw := [d] } := rfl
theorem form_mor (d a b) : form (.mor d a b) = { aForm (wP 0x2B d a b 3 0) with mr := [a, b], mw := [d] } := rfl
theorem form_mxor (d a b) : form (.mxor d a b) = { aForm (wP 0x2B d a b 4 0) with mr := [a, b], mw := [d] } := rfl
theorem form_mnot (d a) : form (.mnot d a) = { aForm (wP 0x2B d a 0 5 0) with mr := [a], mw := [d] } := rfl
theorem form_mmov (d a) : form (.mmov d a) = { aForm (wP 0x2B d a 0 6 0) with mr := [a], mw := [d] } := rfl
theorem form_mset (d a) : form (.mset d a) = { aForm (wP 0x2B d a 0 7 0) with gr := [a], mw := [d] } := rfl
theorem form_mpopc (d a) : form (.mpopc d a) = { aForm (wP 0x2B d a 0 8 0) with mr := [a], gw := [d] } := rfl
theorem form_vrcp (d a) : form (.vrcp d a) = formV1 0x2C 0 d a := rfl
theorem form_vrsq (d a) : form (.vrsq d a) = formV1 0x2C 1 d a := rfl
theorem form_vexp2 (d a) : form (.vexp2 d a) = formV1 0x2C 2 d a := rfl
theorem form_vlog2 (d a) : form (.vlog2 d a) = formV1 0x2C 3 d a := rfl
theorem form_vtanh (d a) : form (.vtanh d a) = formV1 0x2C 4 d a := rfl
theorem form_vsigm (d a) : form (.vsigm d a) = formV1 0x2C 5 d a := rfl
theorem form_vcvt (c d a) : form (.vcvt c d a) = { formV1 0x2D (opPar 0 c) d a with fr := cvtReads c d a } := rfl
theorem form_vcvtSr (c d a b) : form (.vcvtSr c d a b) = { formV 0x2D (opPar 1 c) d a b with fr := cvtReads c d a ++ [b] } := rfl
theorem form_vrand (d a b) : form (.vrand d a b) = { aForm (wR 0x2E d a b 0) with gr := [a, b], fw := [d], gw := [a] } := rfl
theorem form_vmov (d a) : form (.vmov d a) = formV1 0x2F (opPar 0 0) d a := rfl
theorem form_vbcast (d a) : form (.vbcast d a) = { aForm (wP 0x2F d a 0 1 0) with gr := [a], fw := [d] } := rfl
theorem form_vext (d a l) : form (.vext d a l) = { aForm (wP 0x2F d a 0 2 l) with fr := [a], gw := [d] } := rfl
theorem form_vins (d a l) : form (.vins d a l) = { aForm (wP 0x2F d a 0 3 l) with gr := [a], fr := [d], fw := [d] } := rfl
theorem form_vperm (d a b) : form (.vperm d a b) = formV 0x2F (opPar 4 0) d a b := rfl
theorem form_vred (o d a) : form (.vred o d a) = { aForm (wP 0x2F d a 0 5 (redCode o)) with fr := [a], gw := [d] } := rfl
theorem form_vscan (o d a) : form (.vscan o d a) = formV1 0x2F (opPar 6 (redCode o)) d a := rfl
theorem form_vseq (a n) : form (.vseq a n) = { aForm (wP 0x30 0 a 0 0 n) with gr := [a] } := rfl
theorem form_vseqS (a n) : form (.vseqS a n) = aForm (wP 0x30 0 a 0 0 (16 + n.val)) := rfl
theorem form_vseqStop (a) : form (.vseqStop a) = { aForm (wP 0x30 0 a 0 1 0) with mr := [a] } := rfl
theorem form_cvtMx (d a b f) : form (.cvtMx d a b f) = { xForm (wR 0x31 d a b 0) with gr := (if f.dstr then [] else [d]) ++ (if f.srcr then [] else [a]) ++ [b] } := rfl
theorem form_cvtUnmx (d a b f) : form (.cvtUnmx d a b f) = { xForm (wR 0x31 d a b 1) with gr := (if f.dstr then [] else [d]) ++ (if f.srcr then [] else [a]) ++ [b] } := rfl
theorem form_rescaleMx (d a b f) : form (.rescaleMx d a b f) = { xForm (wR 0x31 d a b 2) with gr := (if f.dstr then [] else [d]) ++ (if f.srcr then [] else [a]) ++ [b] } := rfl
theorem form_transp (d a b f) : form (.transp d a b f) = { xForm (wR 0x31 d a b 3) with gr := (if f.dstr then [] else [d]) ++ (if f.srcr then [] else [a]) ++ [b] } := rfl
theorem form_mma (d a b y3) : form (.mma d a b y3) = { xForm (wR 0x32 d a b 0) with aw := [d.val] } := rfl
theorem form_mmaG (d a b y3) : form (.mmaG d a b y3) = { xForm (wR 0x32 d a b 1) with gr := [d] } := rfl
theorem form_mmrot (d a b y3) : form (.mmrot d a b y3) = { xForm (wR 0x32 d a b 2) with aw := [d.val] } := rfl
theorem form_accClr (d) : form (.accClr d) = { aForm (wR 0x33 d 0 0 0) with aw := [d.val] } := rfl
theorem form_accAnch (d a) : form (.accAnch d a) = { aForm (wR 0x33 d a 0 1) with gr := [a], aw := [d.val] } := rfl
theorem form_accRd (d a b f) : form (.accRd d a b f) = { xForm (wR 0x33 d a b 2) with gr := (if f.ring then [] else [a]) ++ [b] } := rfl
theorem form_accWr (d a f) : form (.accWr d a f) = { xForm (wR 0x33 d a 0 3) with gr := (if f.ring then [] else [a]), aw := [d.val] } := rfl
theorem form_accStat (d a) : form (.accStat d a) = { aForm (wR 0x33 d a 0 4) with gw := [d] } := rfl
theorem form_linkCfg (d a) : form (.linkCfg d a) = { aForm (wR 0x34 d a 0 0) with gr := [a], gw := [d], sb := [28, 29, 30, 31] } := rfl
theorem form_linkStat (d) : form (.linkStat d) = { aForm (wR 0x34 d 0 0 1) with gw := [d] } := rfl

end Sys2Proof.Laws
end

