-- ==== Sys2Proof/Laws/Memory.lean ====
section
/-! SUPPORT. Memory: what a read gives after a write, and that every operation over memory and over the full/empty bits
keeps its canonical form. -/

namespace Sys2Proof.Laws

open Sys2Proof.Machine

/-! ### The canonical form -/

/-- A list that is canonical from a bound is canonical from every lower one. -/
theorem cellsFrom_mono {m : List Host.Cell} : ∀ {n k : Nat}, k ≤ n → cellsFrom n m = true → cellsFrom k m = true := by
  cases m with
  | nil => intros; rfl
  | cons c l =>
    intro n k h hm
    simp only [cellsFrom, Bool.and_eq_true, decide_eq_true_eq] at hm ⊢
    exact ⟨⟨Nat.le_trans h hm.1.1, hm.1.2⟩, hm.2⟩

/-- A byte below the bound of a canonical list reads 0. -/
theorem readByte_below {m : List Host.Cell} : ∀ {n x : Nat}, cellsFrom n m = true → x < n → readByte m x = 0 := by
  cases m with
  | nil => intros; rfl
  | cons c l =>
    intro n x h hx
    simp only [cellsFrom, Bool.and_eq_true, decide_eq_true_eq] at h
    have : x < c.1 := by omega
    simp [readByte, this]

/-- Writing a byte keeps the canonical form. -/
theorem cellsFrom_writeByte {m : List Host.Cell} :
    ∀ {n x : Nat} {v : Byte}, n ≤ x → cellsFrom n m = true → cellsFrom n (writeByte m x v) = true := by
  induction m with
  | nil =>
    intro n x v hx _
    by_cases hv : v = 0#8 <;> simp [writeByte, cellsFrom, hv, hx]
  | cons c l ih =>
    intro n x v hx h
    simp only [cellsFrom, Bool.and_eq_true, decide_eq_true_eq] at h
    unfold writeByte
    split
    · split
      · simp only [cellsFrom, Bool.and_eq_true, decide_eq_true_eq]; exact h
      · simp only [cellsFrom, Bool.and_eq_true, decide_eq_true_eq]
        exact ⟨⟨hx, ‹_›⟩, ⟨by omega, h.1.2⟩, h.2⟩
    · split
      · split
        · exact cellsFrom_mono (by omega) h.2
        · subst_vars
          simp only [cellsFrom, Bool.and_eq_true, decide_eq_true_eq]
          exact ⟨⟨hx, ‹_›⟩, h.2⟩
      · simp only [cellsFrom, Bool.and_eq_true, decide_eq_true_eq]
        exact ⟨h.1, ih (by omega) h.2⟩

/-- Keeping some of the cells keeps the canonical form. -/
theorem cellsFrom_filter (p : Host.Cell → Bool) {m : List Host.Cell} :
    ∀ {n : Nat}, cellsFrom n m = true → cellsFrom n (m.filter p) = true := by
  induction m with
  | nil => intros; rfl
  | cons c l ih =>
    intro n h
    simp only [cellsFrom, Bool.and_eq_true, decide_eq_true_eq] at h
    by_cases hp : p c = true
    · simp only [List.filter_cons, hp, if_true, cellsFrom, Bool.and_eq_true, decide_eq_true_eq]
      exact ⟨h.1, ih h.2⟩
    · simp only [List.filter_cons, hp, Bool.false_eq_true, if_false]
      exact cellsFrom_mono (by omega) (ih h.2)

theorem wf_writeByte {m : List Host.Cell} (x : Nat) (v : Byte) (h : Memory.wf m = true) : Memory.wf (writeByte m x v) = true :=
  cellsFrom_writeByte (Nat.zero_le x) h

theorem wf_filter {m : List Host.Cell} (p : Host.Cell → Bool) (h : Memory.wf m = true) : Memory.wf (m.filter p) = true :=
  cellsFrom_filter p h

theorem wf_writeBytes (l : List Byte) : ∀ {m : List Host.Cell} (a : Nat), Memory.wf m = true → Memory.wf (writeBytes m a l) = true := by
  induction l with
  | nil => intro m a h; exact h
  | cons b l ih => intro m a h; exact ih _ (wf_writeByte a b h)

theorem wf_writeN {m : List Host.Cell} (a n v : Nat) (h : Memory.wf m = true) : Memory.wf (writeN m a n v) = true :=
  wf_writeBytes _ a h

theorem wf_writeMasked (l : List (Nat × Byte)) :
    ∀ {m : List Host.Cell} (a : Nat), Memory.wf m = true → Memory.wf (writeMasked m a l) = true := by
  induction l with
  | nil => intro m a h; exact h
  | cons b l ih => intro m a h; exact ih _ (wf_writeByte _ _ h)

/-- Any sequence of byte writes keeps the canonical form. -/
theorem wf_foldl_writeByte {α : Type} (f : α → Nat) (g : α → Byte) (l : List α) :
    ∀ {m : List Host.Cell}, Memory.wf m = true → Memory.wf (l.foldl (fun t c => writeByte t (f c) (g c)) m) = true := by
  induction l with
  | nil => intro m h; exact h
  | cons c l ih => intro m h; exact ih (wf_writeByte _ _ h)

theorem wf_zeroBytes {m : List Host.Cell} (a n : Nat) (h : Memory.wf m = true) : Memory.wf (zeroBytes m a n) = true := wf_filter _ h

theorem wf_outsideMem {m : List Host.Cell} (h : Memory.wf m = true) : Memory.wf (outsideMem m) = true := wf_filter _ h

theorem wf_moveBytes {m : List Host.Cell} (a b n : Nat) (h : Memory.wf m = true) : Memory.wf (moveBytes m a b n) = true :=
  wf_foldl_writeByte _ _ _ (wf_filter _ h)

theorem reset_memory_wf : Memory.wf State.reset.mem = true := rfl

/-! ### Reading after writing -/

/-- The byte written reads back. -/
theorem readByte_writeByte_same {m : List Host.Cell} :
    ∀ {n x : Nat} {v : Byte}, cellsFrom n m = true → readByte (writeByte m x v) x = v := by
  induction m with
  | nil =>
    intro n x v _
    by_cases hv : v = 0#8 <;> simp [writeByte, readByte, hv]
  | cons c l ih =>
    intro n x v h
    simp only [cellsFrom, Bool.and_eq_true, decide_eq_true_eq] at h
    unfold writeByte
    split
    · split
      · simp_all [readByte]
      · simp [readByte]
    · split
      · split
        · subst_vars; exact readByte_below h.2 (Nat.lt_succ_self _)
        · simp [readByte]
      · rw [readByte, if_neg (by omega), if_neg (by omega)]; exact ih h.2

/-- Every other byte is as it was. -/
theorem readByte_writeByte_other {m : List Host.Cell} :
    ∀ {n x y : Nat} {v : Byte}, cellsFrom n m = true → y ≠ x → readByte (writeByte m x v) y = readByte m y := by
  induction m with
  | nil =>
    intro n x y v _ hy
    by_cases hv : v = 0
    · simp [writeByte, hv]
    · simp only [writeByte, hv, if_false, readByte]
      simp [hy]
  | cons c l ih =>
    intro n x y v h hy
    simp only [cellsFrom, Bool.and_eq_true, decide_eq_true_eq] at h
    have hl := @readByte_below l (c.1 + 1) y h.2
    unfold writeByte
    split
    · split
      · rfl
      · simp only [readByte]
        by_cases h1 : y < x
        · rw [if_pos h1, if_pos (by omega)]
        · rw [if_neg h1, if_neg hy]
    · split
      · split
        · subst_vars
          simp only [readByte]
          by_cases h1 : y < c.1
          · rw [if_pos h1]; exact hl (by omega)
          · rw [if_neg h1, if_neg hy]
        · subst_vars; simp only [readByte]; rw [if_neg hy, if_neg hy]
      · simp only [readByte]; rw [ih h.2 hy]

theorem wf_read_same {m : List Host.Cell} {x : Nat} {v : Byte} (h : Memory.wf m = true) : readByte (writeByte m x v) x = v :=
  readByte_writeByte_same h

theorem wf_read_other {m : List Host.Cell} {x y : Nat} {v : Byte} (h : Memory.wf m = true) (hy : y ≠ x) :
    readByte (writeByte m x v) y = readByte m y := readByte_writeByte_other h hy

/-- Bytes written at an address change no byte outside their range. -/
theorem readByte_writeBytes_other (l : List Byte) : ∀ {m : List Host.Cell} {a x : Nat}, Memory.wf m = true →
    (x < a ∨ a + l.length ≤ x) → readByte (writeBytes m a l) x = readByte m x := by
  induction l with
  | nil => intros; rfl
  | cons b l ih =>
    intro m a x h hx
    simp only [List.length_cons] at hx
    rw [writeBytes, ih (wf_writeByte a b h) (by omega), wf_read_other h (by omega)]

/-- Bytes written at an address read back. -/
theorem readBytes_writeBytes (l : List Byte) : ∀ {m : List Host.Cell} {a : Nat}, Memory.wf m = true →
    readBytes (writeBytes m a l) a l.length = l := by
  induction l with
  | nil => intros; rfl
  | cons b l ih =>
    intro m a h
    have hb : readByte (writeBytes (writeByte m a b) (a + 1) l) a = b := by
      rw [readByte_writeBytes_other l (wf_writeByte a b h) (by omega), wf_read_same h]
    simp only [writeBytes, List.length_cons, readBytes, hb, ih (wf_writeByte a b h)]

/-! ### Full/empty bits -/

theorem rising_mono {l : List Nat} : ∀ {n k : Nat}, k ≤ n → risingFrom n l = true → risingFrom k l = true := by
  cases l with
  | nil => intros; rfl
  | cons c l =>
    intro n k h hm
    simp only [risingFrom, Bool.and_eq_true, decide_eq_true_eq] at hm ⊢
    exact ⟨Nat.le_trans h hm.1, hm.2⟩

theorem rising_addSorted {l : List Nat} : ∀ {n x : Nat}, n ≤ x → risingFrom n l = true → risingFrom n (addSorted x l) = true := by
  induction l with
  | nil => intro n x hx _; simp [addSorted, risingFrom, hx]
  | cons c l ih =>
    intro n x hx h
    simp only [risingFrom, Bool.and_eq_true, decide_eq_true_eq] at h
    unfold addSorted
    split
    · simp only [risingFrom, Bool.and_eq_true, decide_eq_true_eq]; exact ⟨hx, by omega, h.2⟩
    · split
      · simp only [risingFrom, Bool.and_eq_true, decide_eq_true_eq]; exact h
      · simp only [risingFrom, Bool.and_eq_true, decide_eq_true_eq]; exact ⟨h.1, ih (by omega) h.2⟩

theorem rising_filter (p : Nat → Bool) {l : List Nat} : ∀ {n : Nat}, risingFrom n l = true → risingFrom n (l.filter p) = true := by
  induction l with
  | nil => intros; rfl
  | cons c l ih =>
    intro n h
    simp only [risingFrom, Bool.and_eq_true, decide_eq_true_eq] at h
    by_cases hp : p c = true
    · simp only [List.filter_cons, hp, if_true, risingFrom, Bool.and_eq_true, decide_eq_true_eq]
      exact ⟨h.1, ih h.2⟩
    · simp only [List.filter_cons, hp, Bool.false_eq_true, if_false]
      exact rising_mono (by omega) (ih h.2)

theorem mem_addSorted {l : List Nat} {x y : Nat} : y ∈ addSorted x l ↔ y = x ∨ y ∈ l := by
  induction l with
  | nil => simp [addSorted]
  | cons c l ih =>
    unfold addSorted
    split
    · simp
    · split
      · subst_vars; simp
      · simp only [List.mem_cons, ih]
        constructor <;> rintro (h | h | h) <;> simp [h]

/-! ### The invariant of the shared operations -/

/-- Only memory and the full/empty bits count for the canonical form. -/
theorem inv_congr {s t : State} (hm : t.mem = s.mem) (hf : t.full = s.full) (h : State.Inv s) : State.Inv t := by
  simpa only [State.Inv, hm, hf] using h

/-- A change of memory that keeps its form keeps the invariant. -/
theorem inv_mem {s : State} {m : List Host.Cell} (hm : Memory.wf m = true) (h : State.Inv s) : State.Inv { s with mem := m } :=
  ⟨hm, h.2.1, h.2.2⟩

theorem inv_storeMem {s : State} (a : Nat) (l : List Byte) (h : State.Inv s) : State.Inv (storeMem s a l) :=
  inv_mem (wf_writeBytes l a h.1) h

theorem inv_setFe {s : State} (a : Nat) (b : Bool) (h : State.Inv s) : State.Inv (setFe s a b) := by
  obtain ⟨h1, h2, h3⟩ := h
  refine ⟨h1, ?_, ?_⟩
  · cases b
    · exact rising_filter _ h2
    · exact rising_addSorted (Nat.zero_le _) h2
  · simp only [List.all_eq_true] at h3 ⊢
    intro x hx
    cases b
    · exact h3 x (List.mem_of_mem_filter hx)
    · rcases mem_addSorted.mp hx with rfl | hx
      · simp
      · exact h3 x hx

theorem inv_fold {α : Type} (f : State → α → State) (hf : ∀ s x, State.Inv s → State.Inv (f s x)) (l : List α) :
    ∀ {s : State}, State.Inv s → State.Inv (l.foldl f s) := by
  induction l with
  | nil => intro s h; exact h
  | cons x l ih => intro s h; exact ih (hf _ _ h)

theorem inv_fillWords {s : State} (a n : Nat) (h : State.Inv s) : State.Inv (fillWords s a n) := by
  unfold fillWords
  split
  · exact h
  · exact inv_fold _ (fun _ _ h => inv_setFe _ _ h) _ h

theorem inv_engineStore {s : State} (a : Nat) (l : List Byte) (h : State.Inv s) : State.Inv (engineStore s a l) :=
  inv_fillWords _ _ (inv_storeMem a l h)

theorem inv_clearRange {s : State} (a n : Nat) (h : State.Inv s) : State.Inv (clearRange s a n) := by
  obtain ⟨h1, h2, h3⟩ := h
  refine ⟨wf_filter _ h1, rising_filter _ h2, ?_⟩
  simp only [List.all_eq_true] at h3 ⊢
  exact fun x hx => h3 x (List.mem_of_mem_filter hx)

end Sys2Proof.Laws
end

