-- ==== Sys2Proof/Laws/Issue.lean ====
section
/-! SUPPORT. What issuing an instruction answers, said once: the lemmas that a proof about one instruction cites instead of
unfolding how a bundle issues. -/

namespace Sys2Proof.Laws

open Sys2Proof.Machine

/-- Where nothing comes before the own effect and the effect succeeds, the instruction commits. -/
theorem issueWith_commits {f : Form} {cap : Option Instr} {body : Effect} {s t : State} {d : Done} (h : Ready f s t)
    (hb : body t = .ok d) : issueWith f cap body s = .next (commit f (opCtx s) d) := by
  obtain ⟨h1, h2, h3⟩ := h
  simp [issueWith, h1, h2, h3, hb, settle, Bind.bind, Except.bind]

/-- The same for an instruction that no sequence may hold. -/
theorem issue_commits {f : Form} {body : Effect} {s t : State} {d : Done} (h : Ready f s t) (hb : body t = .ok d) :
    issue f body s = .next (commit f (opCtx s) d) := issueWith_commits h hb

/-- Where nothing comes before the own effect and the effect does not succeed, the bundle traps, waits or is held. -/
theorem issueWith_stalls {f : Form} {cap : Option Instr} {body : Effect} {s t : State} {e : Stall} (h : Ready f s t)
    (hb : body t = .error e) : issueWith f cap body s = .next (stall f s e) := by
  obtain ⟨h1, h2, h3⟩ := h
  simp [issueWith, h1, h2, h3, hb, settle, Bind.bind, Except.bind]

/-- The same for an instruction that no sequence may hold. -/
theorem issue_stalls {f : Form} {body : Effect} {s t : State} {e : Stall} (h : Ready f s t) (hb : body t = .error e) :
    issue f body s = .next (stall f s e) := issueWith_stalls h hb

/-- A precise cause of the own effect. -/
theorem issue_traps {f : Form} {body : Effect} {s t : State} {code : Nat} {tval : Word} (h : Ready f s t)
    (hb : body t = trap code tval) : issue f body s = .next (raisePrecise f s code tval) := issue_stalls h hb

/-- Every issue answers a next state. -/
theorem issueWith_answers (f : Form) (cap : Option Instr) (body : Effect) (s : State) :
    ∃ t, issueWith f cap body s = .next t := by
  unfold issueWith settle
  dsimp only
  repeat' split
  all_goals exact ⟨_, rfl⟩

/-- The presence check passes where every presence bit is set. -/
theorem presence_of_all {s : State} (h : (opCtx s).p = BitVec.allOnes 32) (l : List GReg) : presence s l = .ok () := by
  induction l with
  | nil => rfl
  | cons r l ih =>
    have hr : (opCtx s).p.getLsbD r.val = true := by
      rw [h, BitVec.getLsbD_allOnes]
      exact decide_eq_true r.isLt
    simp [presence, hr, ih]

/-- The check of vector registers that are written passes where no stream or port is bound. -/
theorem writeChecks_of_unbound {s : State} (hs : (opCtx s).streams = []) (hp : (opCtx s).ports = []) (l : List FReg) :
    writeChecks s l = .ok s := by
  induction l with
  | nil => rfl
  | cons r l ih => simp [writeChecks, writeCheck, streamOf, portOf, hs, hp, ih, Bind.bind, Except.bind]

/-- The check of vector registers that are read passes where no stream or port is bound. -/
theorem readChecks_of_unbound {s : State} (hs : (opCtx s).streams = []) (hp : (opCtx s).ports = []) (l : List FReg) :
    readChecks s l = .ok () := by
  induction l with
  | nil => rfl
  | cons r l ih => simp [readChecks, readCheck, streamOf, portOf, hs, hp, ih, Bind.bind, Except.bind]

/-- In a calm context every instruction whose word has no fault is ready. -/
theorem ready_of_calm {s : State} (h : Calm s) {f : Form} (hw : wordFault f s = none) : Ready f s s := by
  obtain ⟨_, h2, h3, h4, h5, h6, h7, h8, h9, h10, h11⟩ := h
  refine ⟨hw, by simp [capturing, h5], ?_⟩
  simp [before, presence_of_all h2, writeChecks_of_unbound h6 h7, readChecks_of_unbound h6 h7, flightCheck, h3, h4,
    seqrCheck, replaying, h5, fpctlCheck, h9, h10, pushesCheck, h11, acquireCheck, h8, Bind.bind, Except.bind]

end Sys2Proof.Laws
end

