-- ==== Sys2Proof/Laws/Ops.lean ====
section
/-! SUPPORT. The shared operations that a bundle issues through: what each can change, said once. -/

namespace Sys2Proof.Laws

open Sys2Proof.Machine

/-- Contexts, memory and full/empty bits are the same: only cores, packets and the device's blocks may differ. -/
def SameArch (s t : State) : Prop :=
  t.cur = s.cur ∧ t.ctxs = s.ctxs ∧ t.mem = s.mem ∧ t.full = s.full ∧ t.latch = s.latch

theorem SameArch.refl (s : State) : SameArch s s := ⟨rfl, rfl, rfl, rfl, rfl⟩

theorem SameArch.trans {s t u : State} (h : SameArch s t) (k : SameArch t u) : SameArch s u :=
  ⟨k.1.trans h.1, k.2.1.trans h.2.1, k.2.2.1.trans h.2.2.1, k.2.2.2.1.trans h.2.2.2.1, k.2.2.2.2.trans h.2.2.2.2⟩

theorem same_modCore (s : State) (a : Agent) (f : Core → Core) : SameArch s (modCore s a f) := ⟨rfl, rfl, rfl, rfl, rfl⟩

theorem same_modDev (s : State) (f : Device → Device) : SameArch s (modDev s f) := ⟨rfl, rfl, rfl, rfl, rfl⟩

theorem SameArch.getCtx {s t : State} (h : SameArch s t) (k : CtxKey) : Machine.getCtx t k = Machine.getCtx s k := by
  simp [Machine.getCtx, h.2.1]

theorem SameArch.curCtx {s t : State} (h : SameArch s t) : Machine.curCtx t = Machine.curCtx s := by
  simp [Machine.curCtx, Machine.getCtx, h.1, h.2.1]

theorem SameArch.opCtx {s t : State} (h : SameArch s t) : Machine.opCtx t = Machine.opCtx s := by
  simp [Machine.opCtx, h.curCtx, h.2.2.2.2]

theorem SameArch.fold {α : Type} (f : State → α → State) (hf : ∀ s x, SameArch s (f s x)) (l : List α) :
    ∀ s : State, SameArch s (l.foldl f s) := by
  induction l with
  | nil => exact SameArch.refl
  | cons x l ih => exact fun s => (hf s x).trans (ih _)

/-! ### Translation -/

/-- A translation changes the translation caches alone. -/
theorem translation_same {s u : State} {a : Agent} {asid : BitVec 12} {va kind : Nat} {t : Tlb}
    (h : translation s a asid va kind = .ok (u, t)) : SameArch s u := by
  unfold translation at h
  split at h
  · cases h; exact same_modCore _ _ _
  · split at h
    · simp only [Bind.bind, Except.bind] at h
      split at h
      · cases h
      · cases h; exact same_modCore _ _ _
    · dsimp only at h
      split at h
      · cases h; exact (same_modDev _ _).trans (same_modCore _ _ _)
      · simp only [Bind.bind, Except.bind] at h
        split at h
        · cases h
        · cases h; exact (same_modDev _ _).trans (same_modCore _ _ _)

/-- A resolution changes the translation caches alone. -/
theorem resolve_same {s u : State} {a : Agent} {asid : BitVec 12} {user : Bool} {ea : Word} {kind : Nat} {need : Need}
    {p : Target} (h : resolve s a asid user ea kind need = .ok (u, p)) : SameArch s u := by
  unfold resolve at h
  simp only [trap] at h
  split at h
  · cases h
  · split at h
    · repeat' split at h
      all_goals cases h
      all_goals exact SameArch.refl s
    · simp only [Bind.bind, Except.bind] at h
      split at h
      · cases h
      · rename_i w hw
        unfold Machine.translate at hw
        simp only [trap, Bind.bind, Except.bind] at hw
        split at hw
        · cases hw
        · split at hw
          · cases h; cases hw; exact translation_same ‹_›
          · cases hw

/-! ### The L1 -/

theorem writeBackSector_same (s : State) (a : Agent) (l : Line) (i : Fin 8) : SameArch s (writeBackSector s a l i) := by
  unfold writeBackSector
  simp only []
  split
  · exact SameArch.refl s
  · exact ⟨rfl, rfl, rfl, rfl, rfl⟩

theorem writeBackLine_same (s : State) (a : Agent) (l : Line) : SameArch s (writeBackLine s a l) :=
  SameArch.fold _ (fun s i => writeBackSector_same s a l i) _ s

theorem flushLine_same (s : State) (a : Agent) (n : Nat) : SameArch s (flushLine s a n) := by
  unfold flushLine
  split
  · exact SameArch.refl s
  · exact (writeBackLine_same _ _ _).trans (same_modCore _ _ _)

/-- The invalidation of an acquire changes the L1, and sends write-backs. -/
theorem acquireNow_same (s : State) (sc : Scope) : SameArch s (acquireNow s sc) :=
  SameArch.fold _ (fun s l => flushLine_same s _ _) _ s

/-- A release that may issue has sent write-backs, and changed nothing else. -/
theorem release_same {s t : State} {sc : Scope} (h : release s sc = .ok t) : SameArch s t := by
  unfold release at h
  simp only [] at h
  split at h
  · cases h; exact SameArch.fold _ (fun s l => writeBackLine_same s _ l) _ s
  · cases h

/-! ### The checks before an instruction's effect -/

theorem pushCheck_same (st : Stream) (l : List Nat) : ∀ {s t : State}, pushCheck s st l = .ok t → SameArch s t := by
  induction l with
  | nil => intro s t h; cases h; exact SameArch.refl _
  | cons n l ih =>
    intro s t h
    simp only [pushCheck, Bind.bind, Except.bind] at h
    split at h
    · cases h
    · rename_i v hv
      have hs := resolve_same (show resolve s _ _ _ _ _ _ = .ok (v.1, v.2) from hv)
      split at h
      · split at h
        · cases h
        · exact hs.trans (ih h)
      · exact hs.trans (ih h)

theorem writeChecks_same (l : List FReg) : ∀ {s t : State}, writeChecks s l = .ok t → SameArch s t := by
  induction l with
  | nil => intro s t h; cases h; exact SameArch.refl _
  | cons r l ih =>
    intro s t h
    simp only [writeChecks, Bind.bind, Except.bind] at h
    split at h
    · cases h
    · rename_i u hu
      refine SameArch.trans ?_ (ih h)
      simp only [writeCheck, trap] at hu
      repeat' split at hu
      all_goals first
        | (cases hu; done)
        | exact pushCheck_same _ _ hu
        | (cases hu; exact SameArch.refl _)

/-- What the checks before an instruction's effect may change: the acquire that was due is done, and everything else of the
contexts, memory and the full/empty bits is as it was. -/
theorem before_keeps {f : Form} {s t : State} (h : before f s = .ok t) :
    SameArch s t ∨ SameArch (modCur s fun c => { c with acquire := none }) t := by
  simp only [before, Bind.bind, Except.bind] at h
  repeat (split at h; · cases h)
  rename_i s1 h1 _ s2 h2 _ _ _
  cases h
  have hw := writeChecks_same _ h2
  simp only [acquireCheck] at h1
  repeat' split at h1
  all_goals first
    | (cases h1; exact .inl hw)
    | (cases h1; done)
    | skip
  cases h1
  refine .inr (SameArch.trans ?_ hw)
  have ha := acquireNow_same s ‹_›
  exact ⟨ha.1, by simp [modCur, modCtx, setCtx, ha.1, ha.2.1, ha.getCtx], ha.2.2.1, ha.2.2.2.1, ha.2.2.2.2⟩

end Sys2Proof.Laws
end

