-- ==== Sys2Proof/Laws/Keep.lean ====
section
/-! SUPPORT. What stays: the frame of the parts that a bundle issues through, and of an instruction that commits. -/

namespace Sys2Proof.Laws

open Sys2Proof.Machine

theorem keepsCtx_refl (gw gr fw mw fl) (c : Ctx) : KeepsCtx gw gr fw mw fl c c := by
  simp [KeepsCtx]

theorem keepsCtx_trans {gw gr fw mw fl} {c d e : Ctx} (h : KeepsCtx gw gr fw mw fl c d) (k : KeepsCtx gw gr fw mw fl d e) :
    KeepsCtx gw gr fw mw fl c e :=
  ⟨fun r w => (k.1 r w).trans (h.1 r w), fun r w => (k.2.1 r w).trans (h.2.1 r w), fun r w => (k.2.2.1 r w).trans (h.2.2.1 r w),
    fun r w x => (k.2.2.2.1 r w x).trans (h.2.2.2.1 r w x), fun n w => (k.2.2.2.2.1 n w).trans (h.2.2.2.2.1 n w),
    by simp only [k.2.2.2.2.2, h.2.2.2.2.2, and_self]⟩

theorem keepsRegs_refl (gw gr fw mw fl) (s : State) : KeepsRegs gw gr fw mw fl s s := ⟨keepsCtx_refl .., rfl, fun _ _ => rfl⟩

theorem keepsRegs_trans {gw gr fw mw fl} {s t u : State} (h : KeepsRegs gw gr fw mw fl s t) (k : KeepsRegs gw gr fw mw fl t u) :
    KeepsRegs gw gr fw mw fl s u :=
  ⟨keepsCtx_trans h.1 k.1, k.2.1.trans h.2.1, fun j hj => (k.2.2 j (h.2.1 ▸ hj)).trans (h.2.2 j hj)⟩

theorem SameArch.keeps {gw gr fw mw fl} {s t : State} (h : SameArch s t) : KeepsRegs gw gr fw mw fl s t :=
  ⟨h.curCtx ▸ keepsCtx_refl .., h.1, fun k _ => h.getCtx k⟩

/-- A change of the issuing context that keeps its registers. -/
theorem keeps_modCur {gw gr fw mw fl} {s : State} {f : Ctx → Ctx} (h : KeepsCtx gw gr fw mw fl (curCtx s) (f (curCtx s))) :
    KeepsRegs gw gr fw mw fl s (modCur s f) :=
  ⟨by rw [curCtx_modCur]; exact h, rfl, fun _ hk => getCtx_modCtx_other _ _ hk⟩

theorem keeps_setCur {gw gr fw mw fl} {s : State} {c : Ctx} (h : KeepsCtx gw gr fw mw fl (curCtx s) c) :
    KeepsRegs gw gr fw mw fl s (setCtx s s.cur c) :=
  ⟨by rw [curCtx_setCur]; exact h, rfl, fun _ hk => getCtx_setCtx_other _ _ hk⟩

/-- What the checks before an effect leave of the registers. -/
theorem before_regs {gw gr fw mw fl} {f : Form} {s t : State} (h : before f s = .ok t) : KeepsRegs gw gr fw mw fl s t := by
  rcases before_keeps h with h | h
  · exact h.keeps
  · exact keepsRegs_trans (keeps_modCur (by simp [KeepsCtx])) h.keeps

theorem before_mem {f : Form} {s t : State} (h : before f s = .ok t) : t.mem = s.mem ∧ t.full = s.full := by
  rcases before_keeps h with h | h <;> exact ⟨h.2.2.1, h.2.2.2.1⟩

theorem keepsCtx_elapse {gw gr fw mw fl} (c : Ctx) (k : Nat) : KeepsCtx gw gr fw mw fl c (c.elapse k) := by
  simp [KeepsCtx, Ctx.elapse]

theorem elapse_keeps {gw gr fw mw fl} (s : State) : KeepsRegs gw gr fw mw fl s (elapse s) :=
  keepsRegs_trans (keeps_modCur (f := (·.elapse (Config.cycles s.fresh))) (keepsCtx_elapse _ _))
    (SameArch.keeps ⟨rfl, rfl, rfl, rfl, rfl⟩)

theorem charge_keeps {gw gr fw mw fl} (c : Ctx) (s : State) : KeepsRegs gw gr fw mw fl s (charge c s) := by
  have h : KeepsRegs gw gr fw mw fl s (modCur (elapse s) (·.elapse 1)) :=
    keepsRegs_trans (elapse_keeps s) (keeps_modCur (keepsCtx_elapse _ _))
  unfold charge
  simp only []
  split
  · exact h
  · split
    · exact h
    · exact keepsRegs_trans h (same_modCore _ _ _).keeps

theorem charge_mem (c : Ctx) (s : State) : (charge c s).mem = s.mem ∧ (charge c s).full = s.full := by
  unfold charge
  simp only []
  repeat' split
  all_goals exact ⟨rfl, rfl⟩

theorem popVec_keeps {gw gr fw mw fl} (s : State) (r : FReg) : KeepsRegs gw gr fw mw fl s (popVec s r) := by
  unfold popVec
  simp only []
  repeat' split
  all_goals first
    | exact keepsRegs_refl ..
    | exact (same_modCore _ _ _).keeps
    | exact keeps_setCur (by simp [KeepsCtx, Ctx.setStream])

theorem popVec_mem (s : State) (r : FReg) : (popVec s r).mem = s.mem ∧ (popVec s r).full = s.full := by
  unfold popVec
  simp only []
  repeat' split
  all_goals exact ⟨rfl, rfl⟩

theorem keeps_fold {α : Type} {gw gr fw mw fl} (f : State → α → State) (hf : ∀ s x, KeepsRegs gw gr fw mw fl s (f s x)) (l : List α) :
    ∀ s, KeepsRegs gw gr fw mw fl s (l.foldl f s) := by
  induction l with
  | nil => exact keepsRegs_refl _ _ _ _ _
  | cons x l ih => exact fun s => keepsRegs_trans (hf s x) (ih _)

theorem mem_fold {α : Type} (f : State → α → State) (hf : ∀ s x, (f s x).mem = s.mem ∧ (f s x).full = s.full) (l : List α) :
    ∀ s, (l.foldl f s).mem = s.mem ∧ (l.foldl f s).full = s.full := by
  induction l with
  | nil => exact fun _ => ⟨rfl, rfl⟩
  | cons x l ih => exact fun s => ⟨(ih _).1.trans (hf s x).1, (ih _).2.trans (hf s x).2⟩

/-- A register outside a list has no bit in its mask. -/
theorem regMask_other (l : List GReg) (r : GReg) (h : r ∉ l) : (regMask l).getLsbD r.val = false := by
  unfold regMask
  have : ∀ m : Nat, m.testBit r.val = false → (l.foldl (fun m r => m ||| 2 ^ r.val) m).testBit r.val = false := by
    induction l with
    | nil => exact fun m hm => hm
    | cons x l ih =>
      intro m hm
      simp only [List.mem_cons, not_or] at h
      refine ih h.2 _ ?_
      have hx : x.val ≠ r.val := fun e => h.1 (Fin.ext e.symm)
      simp [Nat.testBit_or, hm, Nat.testBit_two_pow, hx]
  rw [BitVec.getLsbD_ofNat, this 0 (by simp)]
  simp

/-- The commit keeps what the effect keeps, and consumes only presence bits of the registers read. -/
theorem commit_keeps {gw gr fw mw fl} {f : Form} {c0 : Ctx} {d : Done} (hg : ∀ r ∈ f.gr, r ∈ gr) (he : d.ended = false) :
    KeepsRegs gw gr fw mw fl d.s (commit f c0 d) := by
  have h1 : KeepsRegs gw gr fw mw fl d.s (modCur d.s fun c => { c with p := c.p &&& ~~~ consumed f c0 }) := by
    refine keeps_modCur ⟨fun _ _ => rfl, fun _ _ => rfl, fun _ _ => rfl, fun r _ hr => ?_, fun _ _ => rfl, by simp⟩
    have : (consumed f c0).getLsbD r.val = false := by
      unfold consumed
      rw [BitVec.getLsbD_and, BitVec.getLsbD_and, regMask_other _ _ (fun h => hr (hg r (List.mem_of_mem_filter h)))]
      simp
    simp only [BitVec.getLsbD_and, BitVec.getLsbD_not, this, r.isLt]
    simp
  have h2 := keepsRegs_trans h1 (keeps_fold popVec popVec_keeps f.fr.dedup _)
  have pc (s : State) (g : Ctx → Ctx) (hk : ∀ c, KeepsCtx gw gr fw mw fl c (g c)) (x : IssueResult) :
      KeepsRegs gw gr fw mw fl s { modCur s g with last := x } := keeps_modCur (hk _)
  unfold commit
  simp only [he, Bool.false_eq_true, if_false]
  split
  · exact h2
  · exact keepsRegs_trans h2 (pc _ _ (fun c => by simp [KeepsCtx]) _)
  · refine keepsRegs_trans h2 (keepsRegs_trans (keeps_modCur (by simp [KeepsCtx])) (charge_keeps _ _))

theorem commit_mem {f : Form} {c0 : Ctx} {d : Done} : (commit f c0 d).mem = d.s.mem ∧ (commit f c0 d).full = d.s.full := by
  unfold commit
  simp only []
  split
  · split
    · exact ⟨rfl, rfl⟩
    · exact charge_mem c0 d.s
  · have h := mem_fold popVec popVec_mem f.fr.dedup (modCur d.s fun c => { c with p := c.p &&& ~~~ consumed f c0 })
    split
    · exact h
    · exact h
    · exact ⟨(charge_mem _ _).1.trans h.1, (charge_mem _ _).2.trans h.2⟩

/-! ### An instruction that commits -/

theorem raisePrecise_last (f : Form) (s : State) (code : Nat) (tval : Word) : (raisePrecise f s code tval).last ≠ .committed := by
  unfold raisePrecise
  simp only []
  repeat' split
  all_goals simp

theorem raiseAfter_last (f : Form) (s t : State) (code : Nat) (tval : Word) : (raiseAfter f s t code tval).last ≠ .committed := by
  unfold raiseAfter
  repeat' split
  all_goals first
    | exact raisePrecise_last _ _ _ _
    | simp

theorem stall_last (f : Form) (s : State) (e : Stall) : (stall f s e).last ≠ .committed := by
  cases e <;> simp [stall, raisePrecise_last, raiseAfter_last, beginWait]

/-- A part of an instruction that commits keeps what its result keeps. -/
theorem settle_frame {gw gr fw mw fl} {f : Form} {s t : State} {r : Do Done} (hg : ∀ q ∈ f.gr, q ∈ gr)
    (hr : ∀ d, r = .ok d → d.ended = false ∧ KeepsRegs gw gr fw mw fl s d.s ∧ d.s.mem = s.mem ∧ d.s.full = s.full)
    (h : settle f s r = .next t) (ht : t.last = .committed) :
    KeepsRegs gw gr fw mw fl s t ∧ t.mem = s.mem ∧ t.full = s.full := by
  unfold settle at h
  split at h
  · cases h
    obtain ⟨h1, h2, h3⟩ := hr _ rfl
    exact ⟨keepsRegs_trans h2 (commit_keeps hg h1), commit_mem.1.trans h3.1, commit_mem.2.trans h3.2⟩
  · cases h; exact absurd ht (stall_last _ _ _)

/-- An instruction that commits keeps what its own effect keeps. -/
theorem issueWith_frame {gw gr fw mw fl} {f : Form} {cap : Option Instr} {body : Effect} {s t : State}
    (hb : ∀ u d, body u = .ok d → d.ended = false ∧ KeepsRegs gw gr fw mw fl u d.s ∧ d.s.mem = u.mem ∧ d.s.full = u.full)
    (hg : ∀ r ∈ f.gr, r ∈ gr) (h : issueWith f cap body s = .next t) (ht : t.last = .committed) :
    KeepsRegs gw gr fw mw fl s t ∧ t.mem = s.mem ∧ t.full = s.full := by
  have cap_keeps (u : State) (i : Instr) : KeepsRegs gw gr fw mw fl u (captureA u i) := keeps_modCur (by simp [KeepsCtx])
  have beside (u v : State) :
      KeepsRegs gw gr fw mw fl v (captureBeside u v) ∧ (captureBeside u v).mem = v.mem ∧ (captureBeside u v).full = v.full := by
    unfold captureBeside
    split
    · exact ⟨keepsRegs_refl .., rfl, rfl⟩
    · exact ⟨cap_keeps _ _, rfl, rfl⟩
  unfold issueWith at h
  dsimp only at h
  split at h
  · cases h; exact absurd ht (raiseAfter_last _ _ _ _ _)
  · split at h
    · cases h; exact absurd ht (raisePrecise_last _ _ _ _)
    · split at h
      · split at h
        · cases h
          exact ⟨keepsRegs_trans (cap_keeps _ _) (commit_keeps (by simp) rfl), commit_mem.1, commit_mem.2⟩
        · refine settle_frame hg (fun d hd => ?_) h ht
          simp only [Bind.bind, Except.bind] at hd
          repeat (split at hd; · cases hd)
          cases hd
          obtain ⟨h1, h2, h3⟩ := hb _ _ ‹_›
          have hm := before_mem ‹before f s = _›
          exact ⟨h1, keepsRegs_trans (keepsRegs_trans (before_regs ‹_›) h2) (beside _ _).1,
            (beside _ _).2.1.trans (h3.1.trans hm.1), (beside _ _).2.2.trans (h3.2.trans hm.2)⟩
      · refine settle_frame hg (fun d hd => ?_) h ht
        simp only [Bind.bind, Except.bind] at hd
        split at hd
        · cases hd
        · obtain ⟨h1, h2, h3⟩ := hb _ _ hd
          have hm := before_mem ‹before f s = _›
          exact ⟨h1, keepsRegs_trans (before_regs ‹_›) h2, h3.1.trans hm.1, h3.2.trans hm.2⟩

/-! ### Results -/

theorem keepsCtx_wg {gw gr fw mw fl} (c : Ctx) {r : GReg} (v : Word) (h : r ∈ gw) : KeepsCtx gw gr fw mw fl c (c.wg r v) :=
  ⟨fun _ hq => wg_other c v (fun e => hq (e ▸ h)), by simp, by simp, fun _ hq _ => wg_present c v (fun e => hq (e ▸ h)), by simp,
    by simp⟩

theorem keeps_wg {gw gr fw mw fl} (s : State) {r : GReg} (v : Word) (h : r ∈ gw) : KeepsRegs gw gr fw mw fl s (wg s r v) :=
  keeps_modCur (keepsCtx_wg _ v h)

theorem keeps_inFlight {gw gr fw mw fl} (s : State) (l : List RegName) : KeepsRegs gw gr fw mw fl s (inFlight s l) :=
  keeps_modCur (by simp [KeepsCtx])

theorem keeps_wgSlow {gw gr fw mw fl} (s : State) {r : GReg} (v : Word) (h : r ∈ gw) : KeepsRegs gw gr fw mw fl s (wgSlow s r v) :=
  keepsRegs_trans (keeps_wg s v h) (keeps_inFlight _ _)

theorem vset_other {α : Type} {n : Nat} (v : Vector α n) {i j : Fin n} (x : α) (h : j ≠ i) : (v.set i x)[j] = v[j] := by
  have : i.val ≠ j.val := fun e => h (Fin.ext e.symm)
  simp [Vector.getElem_set, this]

theorem keeps_wm {gw gr fw mw fl} (s : State) {r : MReg} (v : BitVec 16) (h : r ∈ mw) : KeepsRegs gw gr fw mw fl s (wm s r v) :=
  keeps_modCur ⟨fun _ _ => rfl, fun _ _ => rfl, fun _ hq => vset_other _ _ (fun e => hq (e ▸ h)), fun _ _ _ => rfl, fun _ _ => rfl,
    by simp⟩

theorem keeps_wmSlow {gw gr fw mw fl} (s : State) {r : MReg} (v : BitVec 16) (h : r ∈ mw) :
    KeepsRegs gw gr fw mw fl s (wmSlow s r v) := keepsRegs_trans (keeps_wm s v h) (keeps_inFlight _ _)

theorem keeps_wf {gw gr fw mw fl} (s : State) {r : FReg} (v : Vec) (h : r ∈ fw) : KeepsRegs gw gr fw mw fl s (wf s r v) := by
  have hset : KeepsRegs gw gr fw mw fl s (setCtx s s.cur { getCtx s s.cur with f := (getCtx s s.cur).f.set r v }) :=
    keeps_setCur ⟨fun _ _ => rfl, fun _ hq => vset_other _ _ (fun e => hq (e ▸ h)), fun _ _ => rfl, fun _ _ _ => rfl,
      fun _ _ => rfl, by simp [curCtx]⟩
  unfold wf putVec
  simp only []
  repeat' split
  · exact keeps_setCur (by
      unfold Ctx.pushing
      repeat' split
      all_goals simp [KeepsCtx, pushVec, Ctx.setStream, curCtx])
  · exact hset
  · exact (same_modCore _ _ _).keeps
  · exact hset

theorem keeps_wfSlow {gw gr fw mw fl} (s : State) {r : FReg} (v : Vec) (h : r ∈ fw) :
    KeepsRegs gw gr fw mw fl s (wfSlow s r v) := keepsRegs_trans (keeps_wf s v h) (keeps_inFlight _ _)

theorem wf_mem (s : State) (r : FReg) (v : Vec) : (wf s r v).mem = s.mem ∧ (wf s r v).full = s.full := by
  unfold wf putVec
  simp only []
  repeat' split
  all_goals exact ⟨rfl, rfl⟩

/-- Flags that are set change FPCTL[11:8] alone. -/
theorem keeps_setFlags {gw gr fw mw} {s u : State} {l : List FpFlags} (h : setFlags s l = .ok u) :
    KeepsRegs gw gr fw mw true s u ∧ u.mem = s.mem ∧ u.full = s.full := by
  unfold setFlags at h
  simp only [trap] at h
  repeat' split at h
  all_goals cases h
  refine ⟨keeps_modCur ⟨fun _ _ => rfl, fun _ _ => rfl, fun _ _ => rfl, fun _ _ _ => rfl, fun n hn => ?_, by simp [Ctx.orFlags]⟩,
    rfl, rfl⟩
  have hz : (w64 (allFlags l % 16 * 256)).getLsbD n = false := by
    have hb : (w64 (allFlags l % 16 * 256)).getLsbD n = (decide (n < 64) && (allFlags l % 16 * 256).testBit n) := by
      rw [w64, BitVec.getLsbD_ofNat]
    have : (allFlags l % 16 * 256).testBit n = false := by
      rw [show (256 : Nat) = 2 ^ 8 from rfl, Nat.testBit_mul_two_pow]
      rcases hn with h | h | h
      · simp at h
      · simp [Nat.not_le.mpr h]
      · have h16 : allFlags l % 16 < 2 ^ (n - 8) :=
          Nat.lt_of_lt_of_le (Nat.mod_lt _ (by decide)) (Nat.pow_le_pow_right (by decide) (by omega) : 2 ^ 4 ≤ 2 ^ (n - 8))
        simp [Nat.testBit_lt_two_pow h16]
    simp [hb, this]
  simp only [Ctx.orFlags, BitVec.getLsbD_or, hz, Bool.or_false]

/-- A vector floating-point result changes its register and the flags alone (R65). -/
theorem fpVec_keeps {gw gr fw mw} {s : State} {d : FReg} {r : Vec × List FpFlags} {e : Done} (hd : d ∈ fw)
    (h : fpVec s d r = .ok e) : e.ended = false ∧ KeepsRegs gw gr fw mw true s e.s ∧ e.s.mem = s.mem ∧ e.s.full = s.full := by
  unfold fpVec at h
  simp only [Bind.bind, Except.bind, ok] at h
  split at h
  · cases h
  · injection h with h
    subst h
    have k := keeps_setFlags (gw := gw) (gr := gr) (fw := fw) (mw := mw) ‹_›
    exact ⟨rfl, keepsRegs_trans k.1 (keeps_wfSlow _ _ hd), (wf_mem _ _ _).1.trans k.2.1, (wf_mem _ _ _).2.trans k.2.2⟩

/-! ### Loads -/

theorem keepsCtx_land {gw gr fw mw fl} (c : Ctx) (d : GReg) (code v : Nat) (h : d ∈ gw) (h' : code = 7 → nextReg d ∈ gw) :
    KeepsCtx gw gr fw mw fl c (c.land (.load d code) v) := by
  simp only [Ctx.land]
  split
  · exact keepsCtx_trans (keepsCtx_wg _ _ h) (keepsCtx_wg _ _ (h' ‹_›))
  · exact keepsCtx_wg _ _ h

theorem allocLine_same (s : State) (a : Agent) (n : Nat) : SameArch s (allocLine s a n).1 := by
  unfold allocLine
  simp only []
  repeat' split
  all_goals first
    | exact same_modCore _ _ _
    | exact (flushLine_same _ _ _).trans (same_modCore _ _ _)

/-- A context that awaits a result keeps its registers; presence bits of the result's registers alone may be set. -/
theorem keepsCtx_await {gw gr fw mw fl} (c : Ctx) (x : Await) (h : ∀ r, RegName.g r ∈ x.what.regs → r ∈ gw) :
    KeepsCtx gw gr fw mw fl c (c.await x) := by
  refine ⟨fun _ _ => rfl, fun _ _ => rfl, fun _ _ => rfl, fun r hr _ => ?_, fun _ _ => rfl, by simp [Ctx.await]⟩
  have : ∀ (l : List RegName) (m : Nat), (∀ r, RegName.g r ∈ l → r ∈ gw) → m.testBit r.val = false →
      (l.foldl addRegBit m).testBit r.val = false := by
    intro l
    induction l with
    | nil => exact fun m _ hm => hm
    | cons y l ih =>
      intro m hl hm
      refine ih _ (fun q hq => hl q (List.mem_cons_of_mem _ hq)) ?_
      cases y with
      | g q =>
        have hq : q.val ≠ r.val := fun e => hr (Fin.ext e ▸ hl q (List.mem_cons_self ..))
        simp only [addRegBit]
        split
        · exact hm
        · simp [Nat.testBit_or, hm, Nat.testBit_two_pow, hq]
      | f _ => exact hm
      | m _ => exact hm
  simp only [Ctx.await, BitVec.getLsbD_or, BitVec.getLsbD_ofNat, this _ 0 h (by simp)]
  simp

theorem request_keeps {gw gr fw mw fl} {s t : State} {dst : Node} {what : Awaited} {acc : Nat → Access}
    (hw : ∀ r, RegName.g r ∈ what.regs → r ∈ gw) (h : request s dst what acc = .ok t) :
    KeepsRegs gw gr fw mw fl s t ∧ t.mem = s.mem ∧ t.full = s.full := by
  unfold request at h
  simp only [] at h
  split at h
  · cases h
  · cases h
    have ids : SameArch s (newId s).2 := ⟨rfl, rfl, rfl, rfl, rfl⟩
    have core (u : State) (g : Core → Core) : SameArch u (modCurCore u g) := ⟨rfl, rfl, rfl, rfl, rfl⟩
    have pkt (u : State) (x y : Node) (b : Body) : SameArch u (sendPkt u x y 0 b) := ⟨rfl, rfl, rfl, rfl, rfl⟩
    exact ⟨keepsRegs_trans (keepsRegs_trans (ids.trans (core _ _)).keeps (keeps_modCur (keepsCtx_await _ _ hw))) (pkt _ _ _ _).keeps,
      rfl, rfl⟩

/-- A load into gd, or its pair, changes those registers alone; memory and the full/empty bits stay. -/
theorem load_keeps {gw gr fw mw fl} {s t : State} {ea : Word} {n code : Nat} {d : GReg} (hd : d ∈ gw)
    (hn : code = 7 → nextReg d ∈ gw) (h : load s ea n (.load d code) = .ok t) :
    KeepsRegs gw gr fw mw fl s t ∧ t.mem = s.mem ∧ t.full = s.full := by
  have land (u : State) (v : Nat) (w : SameArch s u) : KeepsRegs gw gr fw mw fl s (landNow u (.load d code) v) ∧
      (landNow u (.load d code) v).mem = s.mem ∧ (landNow u (.load d code) v).full = s.full :=
    ⟨keepsRegs_trans w.keeps (keepsRegs_trans (keeps_modCur (keepsCtx_land _ d code v hd hn)) (keeps_inFlight _ _)), w.2.2.1, w.2.2.2.1⟩
  have ask (u v : State) (w : SameArch s u) (k : KeepsRegs gw gr fw mw fl u v ∧ v.mem = u.mem ∧ v.full = u.full) :
      KeepsRegs gw gr fw mw fl s v ∧ v.mem = s.mem ∧ v.full = s.full :=
    ⟨keepsRegs_trans w.keeps k.1, k.2.1.trans w.2.2.1, k.2.2.trans w.2.2.2.1⟩
  have hw : ∀ r, RegName.g r ∈ (Awaited.load d code).regs → r ∈ gw := by
    intro r hr
    unfold Awaited.regs at hr
    dsimp only at hr
    split at hr
    · rcases List.mem_cons.mp hr with e | e
      · cases e; exact hd
      · cases List.mem_singleton.mp e; exact hn ‹_›
    · cases List.mem_singleton.mp hr; exact hd
  unfold load at h
  split at h
  · cases h
  · simp only [Bind.bind, Except.bind] at h
    split at h
    · cases h
    · rename_i v hv
      have hs := resolve_same (show resolve s _ _ _ _ _ _ = .ok (v.1, v.2) from hv)
      unfold loadFrom at h
      simp only [Bind.bind, Except.bind] at h
      repeat' split at h
      all_goals first
        | (cases h; done)
        | (cases h; exact land _ _ hs)
        | (cases h; exact land _ _ (hs.trans (allocLine_same _ _ _)))
        | exact ask _ _ hs (request_keeps hw h)
        | skip
      simp only [fetchSector, Bind.bind, Except.bind] at h
      split at h
      · cases h
      · cases h
        have k := ask _ _ (hs.trans (allocLine_same _ _ _)) (request_keeps hw ‹_›)
        exact ⟨keepsRegs_trans k.1 (same_modCore _ _ _).keeps, k.2⟩

/-! ### Stores -/

/-- Where no sector has failed in a range, a write there repairs none. -/
theorem fixFailed_none {s : State} {a n : Nat} (w : Option Who) (h : failedIn s a n = none) : fixFailed s a n w = s := by
  have hn : ∀ f ∈ s.dev.failed, ¬(f.1 < a + n ∧ a < f.1 + 32) := by
    intro f hf hc
    simp only [failedIn, Option.map_eq_none_iff, List.find?_eq_none] at h
    have := h f hf
    simp [hc.1, hc.2] at this
  unfold fixFailed
  have : ∀ l : List (Nat × Bool), (∀ f ∈ l, ¬(f.1 < a + n ∧ a < f.1 + 32)) → ∀ t : State,
      l.foldl (fun s f => if f.1 < a + n ∧ a < f.1 + 32 then
        let s := modDev s fun d => { d with failed := d.failed.filter (· ≠ f) }
        if a ≤ f.1 ∧ f.1 + 32 ≤ a + n then s
        else
          let s := { s with mem := writeN s.mem f.1 32 0 }
          match w with
          | none => s
          | some w => let (v, s) := freshWord s; raiseAsync s w (failCause f.2) v
      else s) t = t := by
    intro l
    induction l with
    | nil => intros; rfl
    | cons x l ih =>
      intro hl t
      rw [List.foldl_cons, if_neg (hl x (List.mem_cons_self ..))]
      exact ih (fun f hf => hl f (List.mem_cons_of_mem _ hf)) t
  exact this _ hn s

/-- A write at a home where no sector has failed changes the bytes written, and beside them the marks of the device's blocks
alone. -/
theorem homeWrite_arch {s : State} {a : Nat} {bs : List Byte} (k w : Nat) (who : Option Who) (h : failedIn s a bs.length = none) :
    (homeWrite s a bs k w who).mem = writeBytes s.mem a bs ∧ (homeWrite s a bs k w who).full = s.full ∧
      (homeWrite s a bs k w who).ctxs = s.ctxs ∧ (homeWrite s a bs k w who).cur = s.cur ∧
      (homeWrite s a bs k w who).latch = s.latch := by
  have m (t : State) (a n : Nat) : (l2Use t a n true).mem = t.mem ∧ (l2Use t a n true).full = t.full ∧
      (l2Use t a n true).ctxs = t.ctxs ∧ (l2Use t a n true).cur = t.cur ∧ (l2Use t a n true).latch = t.latch := by
    unfold l2Use; split <;> exact ⟨rfl, rfl, rfl, rfl, rfl⟩
  unfold homeWrite
  rw [fixFailed_none who h]
  exact m (storeMem s a bs) a bs.length

/-- A store whose bytes lie in a data bank of the own pool is performed there. -/
theorem store_own {t u : State} {ea : Word} {bs : List Byte} {off : Nat} (h : OwnPool t u ea 1 .wr off bs.length) :
    store t ea bs = .ok (homeWrite u (ownAddr u off) bs 0 (writerNo u.cur.agent) (some (curWho u 0))) := by
  obtain ⟨h1, h2, h3⟩ := h
  simp [store, h1, h2, storeTo, ownCheck, h3, Bind.bind, Except.bind, ownAddr]

end Sys2Proof.Laws
end

