-- ==== Sys2Proof/Laws/Frame.lean ====
section
/-! SUPPORT. Which shared operations leave memory and the full/empty bits as they are, and that those which write them keep
their canonical form. -/

namespace Sys2Proof.Laws

open Sys2Proof.Machine

theorem foldl_mem {α : Type} (f : State → α → State) (h : ∀ s x, (f s x).mem = s.mem) (l : List α) (s : State) : (l.foldl f s).mem = s.mem := by
  induction l generalizing s with
  | nil => rfl
  | cons x l ih => rw [List.foldl_cons, ih, h]

theorem foldl_full {α : Type} (f : State → α → State) (h : ∀ s x, (f s x).full = s.full) (l : List α) (s : State) : (l.foldl f s).full = s.full := by
  induction l generalizing s with
  | nil => rfl
  | cons x l ih => rw [List.foldl_cons, ih, h]

@[simp] theorem freshWord_keepsMem (s : State) : (freshWord s).2.mem = s.mem ∧ (freshWord s).2.full = s.full := ⟨rfl, rfl⟩

@[simp] theorem readTimeOn_keepsMem (s : State) (die : Nat) : (readTimeOn s die).2.mem = s.mem ∧ (readTimeOn s die).2.full = s.full := by
  unfold readTimeOn
  constructor <;> rfl

@[simp] theorem raiseFw_keepsMem (s : State) (k code : Nat) (tval : Word) (src : Agent) : (raiseFw s k code tval src).mem = s.mem ∧ (raiseFw s k code tval src).full = s.full := by
  unfold raiseFw
  constructor <;> (try dsimp only) <;> (repeat' split) <;> simp [foldl_mem, foldl_full, apply_ite State.mem, apply_ite State.full]

@[simp] theorem machineCheck_keepsMem (s : State) (reason fw inner pc : Nat) : (machineCheck s reason fw inner pc).mem = s.mem ∧ (machineCheck s reason fw inner pc).full = s.full := by
  unfold machineCheck
  constructor <;> (try dsimp only) <;> (repeat' split) <;> simp [foldl_mem, foldl_full, apply_ite State.mem, apply_ite State.full]

@[simp] theorem failFw_keepsMem (s : State) (n reason inner pc : Nat) : (failFw s n reason inner pc).mem = s.mem ∧ (failFw s n reason inner pc).full = s.full := by
  unfold failFw
  constructor <;> (try dsimp only) <;> (repeat' split) <;> simp [foldl_mem, foldl_full, apply_ite State.mem, apply_ite State.full]

@[simp] theorem modActivation_keepsMem (s : State) (k : CtxKey) (gen : Gen) (f : Ctx → Ctx) : (modActivation s k gen f).mem = s.mem ∧ (modActivation s k gen f).full = s.full := by
  unfold modActivation
  constructor <;> (try dsimp only) <;> (repeat' split) <;> simp [foldl_mem, foldl_full, apply_ite State.mem, apply_ite State.full]

@[simp] theorem queueCause_keepsMem (s : State) (w : Who) (e : CauseEntry) : (queueCause s w e).mem = s.mem ∧ (queueCause s w e).full = s.full := by
  unfold queueCause
  constructor <;> (try dsimp only) <;> (repeat' split) <;> simp [foldl_mem, foldl_full, apply_ite State.mem, apply_ite State.full]

@[simp] theorem raiseAt_keepsMem (s : State) (w : Who) (code : Nat) (tval : Word) (homes : List Node) : (raiseAt s w code tval homes).mem = s.mem ∧ (raiseAt s w code tval homes).full = s.full := by
  unfold raiseAt
  constructor <;> (try dsimp only) <;> (repeat' split) <;> simp [foldl_mem, foldl_full, apply_ite State.mem, apply_ite State.full]

@[simp] theorem raiseAsync_keepsMem (s : State) (w : Who) (code : Nat) (tval : Word) : (raiseAsync s w code tval).mem = s.mem ∧ (raiseAsync s w code tval).full = s.full := by
  unfold raiseAsync
  constructor <;> (try dsimp only) <;> (repeat' split) <;> simp [foldl_mem, foldl_full, apply_ite State.mem, apply_ite State.full]

@[simp] theorem wakeCtx_keepsMem (s : State) (k : CtxKey) (gen : Gen) : (wakeCtx s k gen).mem = s.mem ∧ (wakeCtx s k gen).full = s.full := by
  unfold wakeCtx
  constructor <;> (try dsimp only) <;> (repeat' split) <;> simp [foldl_mem, foldl_full, apply_ite State.mem, apply_ite State.full]

@[simp] theorem wakeWaiting_keepsMem (s : State) (a : Agent) (p : Wait → Bool) : (wakeWaiting s a p).mem = s.mem ∧ (wakeWaiting s a p).full = s.full := by
  unfold wakeWaiting
  constructor <;> (try dsimp only) <;> (repeat' split) <;> simp [foldl_mem, foldl_full, apply_ite State.mem, apply_ite State.full]

@[simp] theorem answer_keepsMem (s : State) (w : Who) (v : Word) : (answer s w v).mem = s.mem ∧ (answer s w v).full = s.full := by
  unfold answer
  constructor <;> (try dsimp only) <;> (repeat' split) <;> simp [foldl_mem, foldl_full, apply_ite State.mem, apply_ite State.full]

@[simp] theorem reissue_keepsMem (s : State) (w : Who) : (reissue s w).mem = s.mem ∧ (reissue s w).full = s.full := by
  unfold reissue
  constructor <;> (try dsimp only) <;> (repeat' split) <;> simp [foldl_mem, foldl_full, apply_ite State.mem, apply_ite State.full]

@[simp] theorem sendPkt_keepsMem (s : State) (src dst : Node) (vn : Fin 4) (b : Body) : (sendPkt s src dst vn b).mem = s.mem ∧ (sendPkt s src dst vn b).full = s.full := by
  unfold sendPkt
  constructor <;> (try dsimp only) <;> (repeat' split) <;> simp [foldl_mem, foldl_full, apply_ite State.mem, apply_ite State.full]

@[simp] theorem releaseParts_keepsMem (s : State) (k : CtxKey) (c : Ctx) : (releaseParts s k c).mem = s.mem ∧ (releaseParts s k c).full = s.full := by
  unfold releaseParts
  constructor <;> (try dsimp only) <;> (repeat' split) <;> simp [foldl_mem, foldl_full, apply_ite State.mem, apply_ite State.full]

@[simp] theorem releaseCtx_keepsMem (s : State) (k : CtxKey) : (releaseCtx s k).mem = s.mem ∧ (releaseCtx s k).full = s.full := by
  unfold releaseCtx
  constructor <;> (try dsimp only) <;> (repeat' split) <;> simp [foldl_mem, foldl_full, apply_ite State.mem, apply_ite State.full]

@[simp] theorem keepTiles_keepsMem (s : State) (k : CtxKey) : (keepTiles s k).mem = s.mem ∧ (keepTiles s k).full = s.full := by
  unfold keepTiles
  constructor <;> (try dsimp only) <;> (repeat' split) <;> simp [foldl_mem, foldl_full, apply_ite State.mem, apply_ite State.full]

@[simp] theorem endActivation_keepsMem (s : State) (k : CtxKey) : (endActivation s k).mem = s.mem ∧ (endActivation s k).full = s.full := by
  unfold endActivation
  constructor <;> (try dsimp only) <;> (repeat' split) <;> simp [foldl_mem, foldl_full, apply_ite State.mem, apply_ite State.full]

@[simp] theorem killCtx_keepsMem (s : State) (k : CtxKey) : (killCtx s k).mem = s.mem ∧ (killCtx s k).full = s.full := by
  unfold killCtx
  constructor <;> (try dsimp only) <;> (repeat' split) <;> simp [foldl_mem, foldl_full, apply_ite State.mem, apply_ite State.full]

@[simp] theorem takeTrap_keepsMem (s : State) (k : CtxKey) (code : Nat) (tval : Word) (epc : Nat) (async : Bool) : (takeTrap s k code tval epc async).mem = s.mem ∧ (takeTrap s k code tval epc async).full = s.full := by
  unfold takeTrap
  constructor <;> (try dsimp only) <;> (repeat' split) <;> simp [foldl_mem, foldl_full, apply_ite State.mem, apply_ite State.full]

@[simp] theorem tlbPut_keepsMem (s : State) (a : Agent) (t : Tlb) : (tlbPut s a t).mem = s.mem ∧ (tlbPut s a t).full = s.full := by
  unfold tlbPut
  constructor <;> (try dsimp only) <;> (repeat' split) <;> simp [foldl_mem, foldl_full, apply_ite State.mem, apply_ite State.full]

@[simp] theorem l2Use_keepsMem (s : State) (a n : Nat) (write : Bool) (alloc : Bool := true) : (l2Use s a n write alloc).mem = s.mem ∧ (l2Use s a n write alloc).full = s.full := by
  unfold l2Use
  constructor <;> (try dsimp only) <;> (repeat' split) <;> simp [foldl_mem, foldl_full, apply_ite State.mem, apply_ite State.full]

@[simp] theorem l2Clean_keepsMem (s : State) (line : Nat) : (l2Clean s line).mem = s.mem ∧ (l2Clean s line).full = s.full := by
  unfold l2Clean
  constructor <;> (try dsimp only) <;> (repeat' split) <;> simp [foldl_mem, foldl_full, apply_ite State.mem, apply_ite State.full]

@[simp] theorem triggers_keepsMem (s : State) (a n kind writer : Nat) : (triggers s a n kind writer).mem = s.mem ∧ (triggers s a n kind writer).full = s.full := by
  unfold triggers
  constructor <;> (try dsimp only) <;> (repeat' split) <;> simp [foldl_mem, foldl_full, apply_ite State.mem, apply_ite State.full]

@[simp] theorem triggersCopy_keepsMem (s : State) (a n : Nat) : (triggersCopy s a n).mem = s.mem ∧ (triggersCopy s a n).full = s.full := by
  unfold triggersCopy
  constructor <;> (try dsimp only) <;> (repeat' split) <;> simp [foldl_mem, foldl_full, apply_ite State.mem, apply_ite State.full]

@[simp] theorem triggersMasked_keepsMem (s : State) (a : Nat) (l : List (Nat × Byte)) (kind writer : Nat) : (triggersMasked s a l kind writer).mem = s.mem ∧ (triggersMasked s a l kind writer).full = s.full := by
  unfold triggersMasked
  constructor <;> (try dsimp only) <;> (repeat' split) <;> simp [foldl_mem, foldl_full, apply_ite State.mem, apply_ite State.full]

@[simp] theorem writeBackSector_keepsMem (s : State) (a : Agent) (l : Line) (i : Fin 8) : (writeBackSector s a l i).mem = s.mem ∧ (writeBackSector s a l i).full = s.full := by
  unfold writeBackSector
  constructor <;> (try dsimp only) <;> (repeat' split) <;> simp [foldl_mem, foldl_full, apply_ite State.mem, apply_ite State.full]

@[simp] theorem writeBackLine_keepsMem (s : State) (a : Agent) (l : Line) : (writeBackLine s a l).mem = s.mem ∧ (writeBackLine s a l).full = s.full := by
  unfold writeBackLine
  constructor <;> (try dsimp only) <;> (repeat' split) <;> simp [foldl_mem, foldl_full, apply_ite State.mem, apply_ite State.full]

@[simp] theorem dropLine_keepsMem (s : State) (a : Agent) (ln : Nat) : (dropLine s a ln).mem = s.mem ∧ (dropLine s a ln).full = s.full := by
  unfold dropLine
  constructor <;> (try dsimp only) <;> (repeat' split) <;> simp [foldl_mem, foldl_full, apply_ite State.mem, apply_ite State.full]

@[simp] theorem flushLine_keepsMem (s : State) (a : Agent) (ln : Nat) : (flushLine s a ln).mem = s.mem ∧ (flushLine s a ln).full = s.full := by
  unfold flushLine
  constructor <;> (try dsimp only) <;> (repeat' split) <;> simp [foldl_mem, foldl_full, apply_ite State.mem, apply_ite State.full]

@[simp] theorem touchLine_keepsMem (s : State) (a : Agent) (l : Line) : (touchLine s a l).mem = s.mem ∧ (touchLine s a l).full = s.full := by
  unfold touchLine
  constructor <;> (try dsimp only) <;> (repeat' split) <;> simp [foldl_mem, foldl_full, apply_ite State.mem, apply_ite State.full]

@[simp] theorem inFlight_keepsMem (s : State) (l : List RegName) : (inFlight s l).mem = s.mem ∧ (inFlight s l).full = s.full := by
  unfold inFlight
  constructor <;> (try dsimp only) <;> (repeat' split) <;> simp [foldl_mem, foldl_full, apply_ite State.mem, apply_ite State.full]

@[simp] theorem landNow_keepsMem (s : State) (what : Awaited) (v : Nat) : (landNow s what v).mem = s.mem ∧ (landNow s what v).full = s.full := by
  unfold landNow
  constructor <;> (try dsimp only) <;> (repeat' split) <;> simp [foldl_mem, foldl_full, apply_ite State.mem, apply_ite State.full]

@[simp] theorem wgSlow_keepsMem (s : State) (r : GReg) (v : Word) : (wgSlow s r v).mem = s.mem ∧ (wgSlow s r v).full = s.full := by
  unfold wgSlow
  constructor <;> (try dsimp only) <;> (repeat' split) <;> simp [foldl_mem, foldl_full, apply_ite State.mem, apply_ite State.full]

@[simp] theorem purgeSector_keepsMem (s : State) (pa : Nat) : (purgeSector s pa).mem = s.mem ∧ (purgeSector s pa).full = s.full := by
  unfold purgeSector
  constructor <;> (try dsimp only) <;> (repeat' split) <;> simp [foldl_mem, foldl_full, apply_ite State.mem, apply_ite State.full]

@[simp] theorem startWriteBacks_keepsMem (s : State) (sc : Scope) : (startWriteBacks s sc).mem = s.mem ∧ (startWriteBacks s sc).full = s.full := by
  unfold startWriteBacks
  constructor <;> (try dsimp only) <;> (repeat' split) <;> simp [foldl_mem, foldl_full, apply_ite State.mem, apply_ite State.full]

@[simp] theorem acquireNow_keepsMem (s : State) (sc : Scope) : (acquireNow s sc).mem = s.mem ∧ (acquireNow s sc).full = s.full := by
  unfold acquireNow
  constructor <;> (try dsimp only) <;> (repeat' split) <;> simp [foldl_mem, foldl_full, apply_ite State.mem, apply_ite State.full]

@[simp] theorem acquireFor_keepsMem (s : State) (k : CtxKey) : (acquireFor s k).mem = s.mem ∧ (acquireFor s k).full = s.full := by
  unfold acquireFor
  constructor <;> (try dsimp only) <;> (repeat' split) <;> simp [foldl_mem, foldl_full, apply_ite State.mem, apply_ite State.full]

@[simp] theorem engineAcquire_keepsMem (s : State) (k : CtxKey) (homes : List Node) : (engineAcquire s k homes).mem = s.mem ∧ (engineAcquire s k homes).full = s.full := by
  unfold engineAcquire
  constructor <;> (try dsimp only) <;> (repeat' split) <;> simp [foldl_mem, foldl_full, apply_ite State.mem, apply_ite State.full]

@[simp] theorem putVec_keepsMem (s : State) (k : CtxKey) (r : FReg) (v : Vec) : (putVec s k r v).mem = s.mem ∧ (putVec s k r v).full = s.full := by
  unfold putVec
  constructor <;> (try dsimp only) <;> (repeat' split) <;> simp [foldl_mem, foldl_full, apply_ite State.mem, apply_ite State.full]

@[simp] theorem wf_keepsMem (s : State) (r : FReg) (v : Vec) : (wf s r v).mem = s.mem ∧ (wf s r v).full = s.full := by
  unfold wf
  constructor <;> (try dsimp only) <;> (repeat' split) <;> simp [foldl_mem, foldl_full, apply_ite State.mem, apply_ite State.full]

@[simp] theorem wfSlow_keepsMem (s : State) (r : FReg) (v : Vec) : (wfSlow s r v).mem = s.mem ∧ (wfSlow s r v).full = s.full := by
  unfold wfSlow
  constructor <;> (try dsimp only) <;> (repeat' split) <;> simp [foldl_mem, foldl_full, apply_ite State.mem, apply_ite State.full]

@[simp] theorem wmSlow_keepsMem (s : State) (r : MReg) (v : BitVec 16) : (wmSlow s r v).mem = s.mem ∧ (wmSlow s r v).full = s.full := by
  unfold wmSlow
  constructor <;> (try dsimp only) <;> (repeat' split) <;> simp [foldl_mem, foldl_full, apply_ite State.mem, apply_ite State.full]

@[simp] theorem popVec_keepsMem (s : State) (r : FReg) : (popVec s r).mem = s.mem ∧ (popVec s r).full = s.full := by
  unfold popVec
  constructor <;> (try dsimp only) <;> (repeat' split) <;> simp [foldl_mem, foldl_full, apply_ite State.mem, apply_ite State.full]

@[simp] theorem elapse_keepsMem (s : State) : (elapse s).mem = s.mem ∧ (elapse s).full = s.full := by
  unfold elapse
  constructor <;> (try dsimp only) <;> (repeat' split) <;> simp [foldl_mem, foldl_full, apply_ite State.mem, apply_ite State.full]

@[simp] theorem charge_keepsMem (c0 : Ctx) (s : State) : (charge c0 s).mem = s.mem ∧ (charge c0 s).full = s.full := by
  unfold charge
  constructor <;> (try dsimp only) <;> (repeat' split) <;> simp [foldl_mem, foldl_full, apply_ite State.mem, apply_ite State.full]

@[simp] theorem beginWait_keepsMem (s : State) (kind obj owner : Nat) : (beginWait s kind obj owner).mem = s.mem ∧ (beginWait s kind obj owner).full = s.full := by
  unfold beginWait
  constructor <;> (try dsimp only) <;> (repeat' split) <;> simp [foldl_mem, foldl_full, apply_ite State.mem, apply_ite State.full]

@[simp] theorem captureA_keepsMem (s : State) (i : Instr) : (captureA s i).mem = s.mem ∧ (captureA s i).full = s.full := by
  unfold captureA
  constructor <;> (try dsimp only) <;> (repeat' split) <;> simp [foldl_mem, foldl_full, apply_ite State.mem, apply_ite State.full]

@[simp] theorem seeReleased_keepsMem (s : State) (addr : Nat) (w : Option Who) : (seeReleased s addr w).mem = s.mem ∧ (seeReleased s addr w).full = s.full := by
  unfold seeReleased
  constructor <;> (try dsimp only) <;> (repeat' split) <;> simp [foldl_mem, foldl_full, apply_ite State.mem, apply_ite State.full]

@[simp] theorem unreleased_keepsMem (s : State) (addr : Nat) : (unreleased s addr).mem = s.mem ∧ (unreleased s addr).full = s.full := by
  unfold unreleased
  constructor <;> (try dsimp only) <;> (repeat' split) <;> simp [foldl_mem, foldl_full, apply_ite State.mem, apply_ite State.full]

@[simp] theorem finishVec_keepsMem (s : State) (k : CtxKey) (d : FReg) : (finishVec s k d).mem = s.mem ∧ (finishVec s k d).full = s.full := by
  unfold finishVec
  constructor <;> (try dsimp only) <;> (repeat' split) <;> simp [foldl_mem, foldl_full, apply_ite State.mem, apply_ite State.full]

@[simp] theorem cwbLine_keepsMem (s : State) (pa : Nat) : (cwbLine s pa).mem = s.mem ∧ (cwbLine s pa).full = s.full := by
  unfold cwbLine
  constructor <;> (try dsimp only) <;> (repeat' split) <;> simp [foldl_mem, foldl_full, apply_ite State.mem, apply_ite State.full]

@[simp] theorem prefSector_keepsMem (s : State) (pa : Nat) : (prefSector s pa).mem = s.mem ∧ (prefSector s pa).full = s.full := by
  unfold prefSector
  constructor <;> (try dsimp only) <;> (repeat' split) <;> simp [foldl_mem, foldl_full, apply_ite State.mem, apply_ite State.full]

@[simp] theorem prefLine_keepsMem (s : State) (pa : Nat) : (prefLine s pa).mem = s.mem ∧ (prefLine s pa).full = s.full := by
  unfold prefLine
  constructor <;> (try dsimp only) <;> (repeat' split) <;> simp [foldl_mem, foldl_full, apply_ite State.mem, apply_ite State.full]

@[simp] theorem cwbL2Line_keepsMem (s : State) (pa : Nat) : (cwbL2Line s pa).mem = s.mem ∧ (cwbL2Line s pa).full = s.full := by
  unfold cwbL2Line
  constructor <;> (try dsimp only) <;> (repeat' split) <;> simp [foldl_mem, foldl_full, apply_ite State.mem, apply_ite State.full]

@[simp] theorem wakeKind_keepsMem (s : State) (k : CtxKey) (kind : Nat) : (wakeKind s k kind).mem = s.mem ∧ (wakeKind s k kind).full = s.full := by
  unfold wakeKind
  constructor <;> (try dsimp only) <;> (repeat' split) <;> simp [foldl_mem, foldl_full, apply_ite State.mem, apply_ite State.full]

@[simp] theorem noteSteps_keepsMem (s : State) (n : Nat) : (noteSteps s n).mem = s.mem ∧ (noteSteps s n).full = s.full := by
  unfold noteSteps
  constructor <;> (try dsimp only) <;> (repeat' split) <;> simp [foldl_mem, foldl_full, apply_ite State.mem, apply_ite State.full]

@[simp] theorem sendReply_keepsMem (s : State) (node : Node) (a : Access) (v : Nat) : (sendReply s node a v).mem = s.mem ∧ (sendReply s node a v).full = s.full := by
  unfold sendReply
  constructor <;> (try dsimp only) <;> (repeat' split) <;> simp [foldl_mem, foldl_full, apply_ite State.mem, apply_ite State.full]

@[simp] theorem refuse_keepsMem (s : State) (node : Node) (a : Access) (cause : Nat) (tval : Word) : (refuse s node a cause tval).mem = s.mem ∧ (refuse s node a cause tval).full = s.full := by
  unfold refuse
  constructor <;> (try dsimp only) <;> (repeat' split) <;> simp [foldl_mem, foldl_full, apply_ite State.mem, apply_ite State.full]

@[simp] theorem feWaitRefuse_keepsMem (s : State) (ag : Agent) (a : Access) (cause : Nat) (tval : Word) : (feWaitRefuse s ag a cause tval).mem = s.mem ∧ (feWaitRefuse s ag a cause tval).full = s.full := by
  unfold feWaitRefuse
  constructor <;> (try dsimp only) <;> (repeat' split) <;> simp [foldl_mem, foldl_full, apply_ite State.mem, apply_ite State.full]

@[simp] theorem freeLoad_keepsMem (s : State) (a : Agent) (id : Nat) : (freeLoad s a id).mem = s.mem ∧ (freeLoad s a id).full = s.full := by
  unfold freeLoad
  constructor <;> (try dsimp only) <;> (repeat' split) <;> simp [foldl_mem, foldl_full, apply_ite State.mem, apply_ite State.full]

@[simp] theorem landReply_keepsMem (s : State) (w : Who) (id v : Nat) : (landReply s w id v).mem = s.mem ∧ (landReply s w id v).full = s.full := by
  unfold landReply
  constructor <;> (try dsimp only) <;> (repeat' split) <;> simp [foldl_mem, foldl_full, apply_ite State.mem, apply_ite State.full]

@[simp] theorem dropReply_keepsMem (s : State) (w : Who) (id : Nat) : (dropReply s w id).mem = s.mem ∧ (dropReply s w id).full = s.full := by
  unfold dropReply
  constructor <;> (try dsimp only) <;> (repeat' split) <;> simp [foldl_mem, foldl_full, apply_ite State.mem, apply_ite State.full]

@[simp] theorem freeJournal_keepsMem (s : State) (ag : Agent) (j : Nat) : (freeJournal s ag j).mem = s.mem ∧ (freeJournal s ag j).full = s.full := by
  unfold freeJournal
  constructor <;> (try dsimp only) <;> (repeat' split) <;> simp [foldl_mem, foldl_full, apply_ite State.mem, apply_ite State.full]

@[simp] theorem refuseEntry_keepsMem (s : State) (ag : Agent) (j cause : Nat) (tval : Word) : (refuseEntry s ag j cause tval).mem = s.mem ∧ (refuseEntry s ag j cause tval).full = s.full := by
  unfold refuseEntry
  constructor <;> (try dsimp only) <;> (repeat' split) <;> simp [foldl_mem, foldl_full, apply_ite State.mem, apply_ite State.full]

@[simp] theorem forgetEntry_keepsMem (s : State) (ag : Agent) (j : Nat) : (forgetEntry s ag j).mem = s.mem ∧ (forgetEntry s ag j).full = s.full := by
  unfold forgetEntry
  constructor <;> (try dsimp only) <;> (repeat' split) <;> simp [foldl_mem, foldl_full, apply_ite State.mem, apply_ite State.full]

@[simp] theorem retransmit_keepsMem (s : State) (ag : Agent) (j : Nat) : (retransmit s ag j).mem = s.mem ∧ (retransmit s ag j).full = s.full := by
  unfold retransmit
  constructor <;> (try dsimp only) <;> (repeat' split) <;> simp [foldl_mem, foldl_full, apply_ite State.mem, apply_ite State.full]

@[simp] theorem loseOn_keepsMem (s : State) (src dst : Nat) : (loseOn s src dst).mem = s.mem ∧ (loseOn s src dst).full = s.full := by
  unfold loseOn
  constructor <;> (try dsimp only) <;> (repeat' split) <;> simp [foldl_mem, foldl_full, apply_ite State.mem, apply_ite State.full]

@[simp] theorem endRepair_keepsMem (s : State) : (endRepair s).mem = s.mem ∧ (endRepair s).full = s.full := by
  unfold endRepair
  constructor <;> (try dsimp only) <;> (repeat' split) <;> simp [foldl_mem, foldl_full, apply_ite State.mem, apply_ite State.full]

@[simp] theorem resendLost_keepsMem (s : State) (n : Nat) : (resendLost s n).mem = s.mem ∧ (resendLost s n).full = s.full := by
  unfold resendLost
  constructor <;> (try dsimp only) <;> (repeat' split) <;> simp [foldl_mem, foldl_full, apply_ite State.mem, apply_ite State.full]

@[simp] theorem unbind_keepsMem (s : State) (k : CtxKey) (r : SReg) : (unbind s k r).mem = s.mem ∧ (unbind s k r).full = s.full := by
  unfold unbind
  constructor <;> (try dsimp only) <;> (repeat' split) <;> simp [foldl_mem, foldl_full, apply_ite State.mem, apply_ite State.full]

@[simp] theorem raiseDev_keepsMem (s : State) (k code : Nat) (tval : Word) : (raiseDev s k code tval).mem = s.mem ∧ (raiseDev s k code tval).full = s.full := by
  unfold raiseDev
  constructor <;> (try dsimp only) <;> (repeat' first | split | refine (foldl_mem _ (fun _ _ => ?_) _ _).trans ?_ | refine (foldl_full _ (fun _ _ => ?_) _ _).trans ?_) <;> simp [foldl_mem, foldl_full, apply_ite State.mem, apply_ite State.full]

@[simp] theorem beginSwitch_keepsMem (s : State) (mask : Vector Word 16) (sel : Vector Word 30) (dom : Nat) : (beginSwitch s mask sel dom).mem = s.mem ∧ (beginSwitch s mask sel dom).full = s.full := by
  unfold beginSwitch
  constructor <;> (try dsimp only) <;> (repeat' split) <;> simp [foldl_mem, foldl_full, apply_ite State.mem, apply_ite State.full]

@[simp] theorem setDomains_keepsMem (s : State) (mask : Vector Word 16) (sel : Vector Word 30) (dom : Nat) : (setDomains s mask sel dom).mem = s.mem ∧ (setDomains s mask sel dom).full = s.full := by
  unfold setDomains
  constructor <;> (try dsimp only) <;> (repeat' split) <;> simp [foldl_mem, foldl_full, apply_ite State.mem, apply_ite State.full]

@[simp] theorem hashmaskSet_keepsMem (s : State) (n : Fin 16) (v : Word) : (hashmaskSet s n v).mem = s.mem ∧ (hashmaskSet s n v).full = s.full := by
  unfold hashmaskSet
  constructor <;> (try dsimp only) <;> (repeat' split) <;> simp [foldl_mem, foldl_full, apply_ite State.mem, apply_ite State.full]

@[simp] theorem domselSet_keepsMem (s : State) (j : Fin 30) (v : Word) : (domselSet s j v).mem = s.mem ∧ (domselSet s j v).full = s.full := by
  unfold domselSet
  constructor <;> (try dsimp only) <;> (repeat' first | split | refine (foldl_mem _ (fun _ _ => ?_) _ _).trans ?_ | refine (foldl_full _ (fun _ _ => ?_) _ _).trans ?_) <;> simp [foldl_mem, foldl_full, apply_ite State.mem, apply_ite State.full]

@[simp] theorem l2ctlSet_keepsMem (s : State) (v : Word) : (l2ctlSet s v).mem = s.mem ∧ (l2ctlSet s v).full = s.full := by
  unfold l2ctlSet
  constructor <;> (try dsimp only) <;> (repeat' first | split | refine (foldl_mem _ (fun _ _ => ?_) _ _).trans ?_ | refine (foldl_full _ (fun _ _ => ?_) _ _).trans ?_) <;> simp [foldl_mem, foldl_full, apply_ite State.mem, apply_ite State.full]

@[simp] theorem takecfgSet_keepsMem (s : State) (v : Word) : (takecfgSet s v).mem = s.mem ∧ (takecfgSet s v).full = s.full := by
  unfold takecfgSet
  constructor <;> (try dsimp only) <;> (repeat' split) <;> simp [foldl_mem, foldl_full, apply_ite State.mem, apply_ite State.full]

@[simp] theorem epochSet_keepsMem (s : State) (v : Word) : (epochSet s v).mem = s.mem ∧ (epochSet s v).full = s.full := by
  unfold epochSet
  constructor <;> (try dsimp only) <;> (repeat' split) <;> simp [foldl_mem, foldl_full, apply_ite State.mem, apply_ite State.full]

@[simp] theorem servoAdd_keepsMem (s : State) (step : BitVec 32) : (servoAdd s step).mem = s.mem ∧ (servoAdd s step).full = s.full := by
  unfold servoAdd
  constructor <;> (try dsimp only) <;> (repeat' split) <;> simp [foldl_mem, foldl_full, apply_ite State.mem, apply_ite State.full]

@[simp] theorem lockedSet_keepsMem (s : State) (b : Bool) : (lockedSet s b).mem = s.mem ∧ (lockedSet s b).full = s.full := by
  unfold lockedSet
  constructor <;> (try dsimp only) <;> (repeat' first | split | refine (foldl_mem _ (fun _ _ => ?_) _ _).trans ?_ | refine (foldl_full _ (fun _ _ => ?_) _ _).trans ?_) <;> simp [foldl_mem, foldl_full, apply_ite State.mem, apply_ite State.full]

@[simp] theorem timestatClear_keepsMem (s : State) : (timestatClear s).mem = s.mem ∧ (timestatClear s).full = s.full := by
  unfold timestatClear
  constructor <;> (try dsimp only) <;> (repeat' split) <;> simp [foldl_mem, foldl_full, apply_ite State.mem, apply_ite State.full]

@[simp] theorem mapswSet_keepsMem (s : State) : (mapswSet s).mem = s.mem ∧ (mapswSet s).full = s.full := by
  unfold mapswSet
  constructor <;> (try dsimp only) <;> (repeat' split) <;> simp [foldl_mem, foldl_full, apply_ite State.mem, apply_ite State.full]

@[simp] theorem imgctlSet_keepsMem (s : State) (v : Word) : (imgctlSet s v).mem = s.mem ∧ (imgctlSet s v).full = s.full := by
  unfold imgctlSet
  constructor <;> (try dsimp only) <;> (repeat' split) <;> simp [foldl_mem, foldl_full, apply_ite State.mem, apply_ite State.full]

@[simp] theorem gctlSet_keepsMem (s : State) (v : Word) : (gctlSet s v).mem = s.mem ∧ (gctlSet s v).full = s.full := by
  unfold gctlSet
  constructor <;> (try dsimp only) <;> (repeat' split) <;> simp [foldl_mem, foldl_full, apply_ite State.mem, apply_ite State.full]

@[simp] theorem rearmSet_keepsMem (s : State) : (rearmSet s).mem = s.mem ∧ (rearmSet s).full = s.full := by
  unfold rearmSet
  constructor <;> (try dsimp only) <;> (repeat' split) <;> simp [foldl_mem, foldl_full, apply_ite State.mem, apply_ite State.full]

@[simp] theorem snapctlSet_keepsMem (s : State) (v : Word) : (snapctlSet s v).mem = s.mem ∧ (snapctlSet s v).full = s.full := by
  unfold snapctlSet
  constructor <;> (try dsimp only) <;> (repeat' split) <;> simp [foldl_mem, foldl_full, apply_ite State.mem, apply_ite State.full]

@[simp] theorem pairstatSet_keepsMem (s : State) (mismatch unrec : Bool) : (pairstatSet s mismatch unrec).mem = s.mem ∧ (pairstatSet s mismatch unrec).full = s.full := by
  unfold pairstatSet
  constructor <;> (try dsimp only) <;> (repeat' split) <;> simp [foldl_mem, foldl_full, apply_ite State.mem, apply_ite State.full]

@[simp] theorem pairctlSet_keepsMem (s : State) (v : Word) : (pairctlSet s v).mem = s.mem ∧ (pairctlSet s v).full = s.full := by
  unfold pairctlSet
  constructor <;> (try dsimp only) <;> (repeat' split) <;> simp [foldl_mem, foldl_full, apply_ite State.mem, apply_ite State.full]

@[simp] theorem pwrctlSet_keepsMem (s : State) (v : Word) : (pwrctlSet s v).mem = s.mem ∧ (pwrctlSet s v).full = s.full := by
  unfold pwrctlSet
  constructor <;> (try dsimp only) <;> (repeat' split) <;> simp [foldl_mem, foldl_full, apply_ite State.mem, apply_ite State.full]

@[simp] theorem clrtripSet_keepsMem (s : State) (die : Nat) : (clrtripSet s die).mem = s.mem ∧ (clrtripSet s die).full = s.full := by
  unfold clrtripSet
  constructor <;> (try dsimp only) <;> (repeat' split) <;> simp [foldl_mem, foldl_full, apply_ite State.mem, apply_ite State.full]

@[simp] theorem thermctlSet_keepsMem (s : State) (v : Word) : (thermctlSet s v).mem = s.mem ∧ (thermctlSet s v).full = s.full := by
  unfold thermctlSet
  constructor <;> (try dsimp only) <;> (repeat' split) <;> simp [foldl_mem, foldl_full, apply_ite State.mem, apply_ite State.full]

@[simp] theorem modFw_keepsMem (s : State) (k : Nat) (f : FwCore → FwCore) : (modFw s k f).mem = s.mem ∧ (modFw s k f).full = s.full := by
  unfold modFw
  constructor <;> (try dsimp only) <;> (repeat' split) <;> simp [foldl_mem, foldl_full, apply_ite State.mem, apply_ite State.full]

@[simp] theorem mailPop_keepsMem (s : State) (k : Nat) : (mailPop s k).mem = s.mem ∧ (mailPop s k).full = s.full := by
  unfold mailPop
  constructor <;> (try dsimp only) <;> (repeat' split) <;> simp [foldl_mem, foldl_full, apply_ite State.mem, apply_ite State.full]

@[simp] theorem mailKick_keepsMem (s : State) (k : Nat) : (mailKick s k).mem = s.mem ∧ (mailKick s k).full = s.full := by
  unfold mailKick
  constructor <;> (try dsimp only) <;> (repeat' split) <;> simp [foldl_mem, foldl_full, apply_ite State.mem, apply_ite State.full]

@[simp] theorem modRegion_keepsMem (s : State) (a : Agent) (h : Nat) (f : Region → Region) : (modRegion s a h f).mem = s.mem ∧ (modRegion s a h f).full = s.full := by
  unfold modRegion
  constructor <;> (try dsimp only) <;> (repeat' split) <;> simp [foldl_mem, foldl_full, apply_ite State.mem, apply_ite State.full]

@[simp] theorem modQueue_keepsMem (s : State) (a : Agent) (q : Fin 64) (f : Queue → Queue) : (modQueue s a q f).mem = s.mem ∧ (modQueue s a q f).full = s.full := by
  unfold modQueue
  constructor <;> (try dsimp only) <;> (repeat' split) <;> simp [foldl_mem, foldl_full, apply_ite State.mem, apply_ite State.full]

@[simp] theorem appendMsg_keepsMem (s : State) (a : Agent) (q : Fin 64) (m : Message) (aged : Bool) : (appendMsg s a q m aged).mem = s.mem ∧ (appendMsg s a q m aged).full = s.full := by
  unfold appendMsg
  constructor <;> (try dsimp only) <;> (repeat' split) <;> simp [foldl_mem, foldl_full, apply_ite State.mem, apply_ite State.full]

@[simp] theorem park_keepsMem (s : State) (a : Agent) (p : Parked) (what queue : Nat) : (park s a p what queue).mem = s.mem ∧ (park s a p what queue).full = s.full := by
  unfold park
  constructor <;> (try dsimp only) <;> (repeat' split) <;> simp [foldl_mem, foldl_full, apply_ite State.mem, apply_ite State.full]

@[simp] theorem dropHead_keepsMem (s : State) (a : Agent) (q : Fin 64) : (dropHead s a q).mem = s.mem ∧ (dropHead s a q).full = s.full := by
  unfold dropHead
  constructor <;> (try dsimp only) <;> (repeat' split) <;> simp [foldl_mem, foldl_full, apply_ite State.mem, apply_ite State.full]

@[simp] theorem snapshot_keepsMem (s : State) (src : BitVec 4) : (snapshot s src).mem = s.mem ∧ (snapshot s src).full = s.full := by
  unfold snapshot
  constructor <;> (try dsimp only) <;> (repeat' first | split | refine (foldl_mem _ (fun _ _ => ?_) _ _).trans ?_ | refine (foldl_full _ (fun _ _ => ?_) _ _).trans ?_) <;> simp [foldl_mem, foldl_full, apply_ite State.mem, apply_ite State.full]

@[simp] theorem killAct_keepsMem (s : State) (k : CtxKey) (gen : Gen) : (killAct s k gen).mem = s.mem ∧ (killAct s k gen).full = s.full := by
  unfold killAct
  constructor <;> (try dsimp only) <;> (repeat' split) <;> simp [foldl_mem, foldl_full, apply_ite State.mem, apply_ite State.full]

@[simp] theorem setResume_keepsMem (s : State) : (setResume s).mem = s.mem ∧ (setResume s).full = s.full := by
  unfold setResume
  constructor <;> (try dsimp only) <;> (repeat' split) <;> simp [foldl_mem, foldl_full, apply_ite State.mem, apply_ite State.full]

@[simp] theorem dropFetched_keepsMem (s : State) (sc : Scope) : (dropFetched s sc).mem = s.mem ∧ (dropFetched s sc).full = s.full := by
  unfold dropFetched
  constructor <;> (try dsimp only) <;> (repeat' split) <;> simp [foldl_mem, foldl_full, apply_ite State.mem, apply_ite State.full]

@[simp] theorem setSlate_keepsMem (s : State) (v : Word) : (setSlate s v).mem = s.mem ∧ (setSlate s v).full = s.full := by
  unfold setSlate
  constructor <;> (try dsimp only) <;> (repeat' split) <;> simp [foldl_mem, foldl_full, apply_ite State.mem, apply_ite State.full]

@[simp] theorem holdPkt_keepsMem (s : State) (vn : Fin 4) : (holdPkt s vn).mem = s.mem ∧ (holdPkt s vn).full = s.full := by
  unfold holdPkt
  constructor <;> (try dsimp only) <;> (repeat' split) <;> simp [foldl_mem, foldl_full, apply_ite State.mem, apply_ite State.full]

@[simp] theorem setBits_keepsMem (s : State) (d : GReg) (p a : Bool) : (setBits s d p a).mem = s.mem ∧ (setBits s d p a).full = s.full := by
  unfold setBits
  constructor <;> (try dsimp only) <;> (repeat' split) <;> simp [foldl_mem, foldl_full, apply_ite State.mem, apply_ite State.full]

@[simp] theorem sendAck_keepsMem (s : State) (node src : Node) (jn : Option Nat) : (sendAck s node src jn).mem = s.mem ∧ (sendAck s node src jn).full = s.full := by
  unfold sendAck
  constructor <;> (try dsimp only) <;> (repeat' split) <;> simp [foldl_mem, foldl_full, apply_ite State.mem, apply_ite State.full]

@[simp] theorem refuseMsg_keepsMem (s : State) (core : Nat) (src : Node) (m : Message) (w : Option Who) (jn : Option Nat) : (refuseMsg s core src m w jn).mem = s.mem ∧ (refuseMsg s core src m w jn).full = s.full := by
  unfold refuseMsg
  constructor <;> (try dsimp only) <;> (repeat' split) <;> simp [foldl_mem, foldl_full, apply_ite State.mem, apply_ite State.full]

@[simp] theorem freeSendOf_keepsMem (s : State) (a : Agent) (vn : Fin 4) (p : SendEntry → Bool) : (freeSendOf s a vn p).mem = s.mem ∧ (freeSendOf s a vn p).full = s.full := by
  unfold freeSendOf
  constructor <;> (try dsimp only) <;> (repeat' split) <;> simp [foldl_mem, foldl_full, apply_ite State.mem, apply_ite State.full]

@[simp] theorem freeSend_keepsMem (s : State) (a : Agent) (vn : Fin 4) : (freeSend s a vn).mem = s.mem ∧ (freeSend s a vn).full = s.full := by
  unfold freeSend
  constructor <;> (try dsimp only) <;> (repeat' split) <;> simp [foldl_mem, foldl_full, apply_ite State.mem, apply_ite State.full]

@[simp] theorem wakeAll_keepsMem (s : State) (a : Agent) (kind : Nat) : (wakeAll s a kind).mem = s.mem ∧ (wakeAll s a kind).full = s.full := by
  unfold wakeAll
  constructor <;> (try dsimp only) <;> (repeat' split) <;> simp [foldl_mem, foldl_full, apply_ite State.mem, apply_ite State.full]

@[simp] theorem discardDeposit_keepsMem (s : State) (core : Nat) (d : Deposit) : (discardDeposit s core d).mem = s.mem ∧ (discardDeposit s core d).full = s.full := by
  unfold discardDeposit
  constructor <;> (try dsimp only) <;> (repeat' split) <;> simp [foldl_mem, foldl_full, apply_ite State.mem, apply_ite State.full]

@[simp] theorem callBack_keepsMem (s : State) (a : Agent) (d : Deposit) : (callBack s a d).mem = s.mem ∧ (callBack s a d).full = s.full := by
  unfold callBack
  constructor <;> (try dsimp only) <;> (repeat' split) <;> simp [foldl_mem, foldl_full, apply_ite State.mem, apply_ite State.full]

@[simp] theorem wakeReg_keepsMem (s : State) (k : CtxKey) (r : GReg) : (wakeReg s k r).mem = s.mem ∧ (wakeReg s k r).full = s.full := by
  unfold wakeReg
  constructor <;> (try dsimp only) <;> (repeat' split) <;> simp [foldl_mem, foldl_full, apply_ite State.mem, apply_ite State.full]

@[simp] theorem landDeposit_keepsMem (s : State) (a : Agent) (i : Nat) : (landDeposit s a i).mem = s.mem ∧ (landDeposit s a i).full = s.full := by
  unfold landDeposit
  constructor <;> (try dsimp only) <;> (repeat' split) <;> simp [foldl_mem, foldl_full, apply_ite State.mem, apply_ite State.full]

@[simp] theorem landSink_keepsMem (s : State) (a : Agent) (i : Nat) : (landSink s a i).mem = s.mem ∧ (landSink s a i).full = s.full := by
  unfold landSink
  constructor <;> (try dsimp only) <;> (repeat' split) <;> simp [foldl_mem, foldl_full, apply_ite State.mem, apply_ite State.full]

@[simp] theorem nowReady_keepsMem (s : State) (k : CtxKey) : (nowReady s k).mem = s.mem ∧ (nowReady s k).full = s.full := by
  unfold nowReady
  constructor <;> (try dsimp only) <;> (repeat' split) <;> simp [foldl_mem, foldl_full, apply_ite State.mem, apply_ite State.full]

@[simp] theorem enterInterrupt_keepsMem (s : State) (k : CtxKey) (e : CauseEntry) : (enterInterrupt s k e).mem = s.mem ∧ (enterInterrupt s k e).full = s.full := by
  unfold enterInterrupt
  constructor <;> (try dsimp only) <;> (repeat' split) <;> simp [foldl_mem, foldl_full, apply_ite State.mem, apply_ite State.full]

@[simp] theorem takeQueued_keepsMem (s : State) (k : CtxKey) (e : CauseEntry) : (takeQueued s k e).mem = s.mem ∧ (takeQueued s k e).full = s.full := by
  unfold takeQueued
  constructor <;> (try dsimp only) <;> (repeat' split) <;> simp [foldl_mem, foldl_full, apply_ite State.mem, apply_ite State.full]

@[simp] theorem budgetExpiry_keepsMem (s : State) (k : CtxKey) : (budgetExpiry s k).mem = s.mem ∧ (budgetExpiry s k).full = s.full := by
  unfold budgetExpiry
  constructor <;> (try dsimp only) <;> (repeat' split) <;> simp [foldl_mem, foldl_full, apply_ite State.mem, apply_ite State.full]

@[simp] theorem deliver_keepsMem (s : State) (k : CtxKey) : (deliver s k).mem = s.mem ∧ (deliver s k).full = s.full := by
  unfold deliver
  constructor <;> (try dsimp only) <;> (repeat' split) <;> simp [foldl_mem, foldl_full, apply_ite State.mem, apply_ite State.full]

@[simp] theorem watchHit_keepsMem (s : State) (ag : Agent) (n : Fin 4) (tval : Word) : (watchHit s ag n tval).mem = s.mem ∧ (watchHit s ag n tval).full = s.full := by
  unfold watchHit
  constructor <;> (try dsimp only) <;> (repeat' first | split | refine (foldl_mem _ (fun _ _ => ?_) _ _).trans ?_ | refine (foldl_full _ (fun _ _ => ?_) _ _).trans ?_) <;> simp [foldl_mem, foldl_full, apply_ite State.mem, apply_ite State.full]

@[simp] theorem useHandler_keepsMem (s : State) (pc : Nat) : (useHandler s pc).mem = s.mem ∧ (useHandler s pc).full = s.full := by
  unfold useHandler
  constructor <;> (try dsimp only) <;> (repeat' split) <;> simp [foldl_mem, foldl_full, apply_ite State.mem, apply_ite State.full]

@[simp] theorem startFence_keepsMem (s : State) (k : CtxKey) (launch : Option Nat) : (startFence s k launch).mem = s.mem ∧ (startFence s k launch).full = s.full := by
  unfold startFence
  constructor <;> (try dsimp only) <;> (repeat' split) <;> simp [foldl_mem, foldl_full, apply_ite State.mem, apply_ite State.full]

@[simp] theorem installCtx_keepsMem (s : State) (a : Agent) (slot : Nat) (c : Ctx) : (installCtx s a slot c).mem = s.mem ∧ (installCtx s a slot c).full = s.full := by
  unfold installCtx
  constructor <;> (try dsimp only) <;> (repeat' split) <;> simp [foldl_mem, foldl_full, apply_ite State.mem, apply_ite State.full]

@[simp] theorem startChild_keepsMem (s : State) (a : Agent) (p slot : Nat) (pos : Fin 4) : (startChild s a p slot pos).mem = s.mem ∧ (startChild s a p slot pos).full = s.full := by
  unfold startChild
  constructor <;> (try dsimp only) <;> (repeat' split) <;> simp [foldl_mem, foldl_full, apply_ite State.mem, apply_ite State.full]

@[simp] theorem spillCtx_keepsMem (s : State) (k : CtxKey) : (spillCtx s k).mem = s.mem ∧ (spillCtx s k).full = s.full := by
  unfold spillCtx
  constructor <;> (try dsimp only) <;> (repeat' split) <;> simp [foldl_mem, foldl_full, apply_ite State.mem, apply_ite State.full]

@[simp] theorem spilledReturn_keepsMem (s : State) (k : CtxKey) : (spilledReturn s k).mem = s.mem ∧ (spilledReturn s k).full = s.full := by
  unfold spilledReturn
  constructor <;> (try dsimp only) <;> (repeat' split) <;> simp [foldl_mem, foldl_full, apply_ite State.mem, apply_ite State.full]

@[simp] theorem waitRecord_keepsMem (s : State) (k : CtxKey) (c : Ctx) : (waitRecord s k c).mem = s.mem ∧ (waitRecord s k c).full = s.full := by
  unfold waitRecord
  constructor <;> (try dsimp only) <;> (repeat' split) <;> simp [foldl_mem, foldl_full, apply_ite State.mem, apply_ite State.full]

@[simp] theorem deadlock_keepsMem (s : State) (k : CtxKey) (c : Ctx) (w : Wait) (spilled : Bool) : (deadlock s k c w spilled).mem = s.mem ∧ (deadlock s k c w spilled).full = s.full := by
  unfold deadlock
  constructor <;> (try dsimp only) <;> (repeat' split) <;> simp [foldl_mem, foldl_full, apply_ite State.mem, apply_ite State.full]

@[simp] theorem setCell_keepsMem (s : State) (a : Agent) (i : Nat) (c : Cell) : (setCell s a i c).mem = s.mem ∧ (setCell s a i c).full = s.full := by
  unfold setCell
  constructor <;> (try dsimp only) <;> (repeat' split) <;> simp [foldl_mem, foldl_full, apply_ite State.mem, apply_ite State.full]

@[simp] theorem keepAnswer_keepsMem (s : State) (v : Word) : (keepAnswer s v).mem = s.mem ∧ (keepAnswer s v).full = s.full := by
  unfold keepAnswer
  constructor <;> (try dsimp only) <;> (repeat' split) <;> simp [foldl_mem, foldl_full, apply_ite State.mem, apply_ite State.full]

@[simp] theorem launchSpawn_keepsMem (s : State) (a : Agent) (x : SpawnOut) : (launchSpawn s a x).mem = s.mem ∧ (launchSpawn s a x).full = s.full := by
  unfold launchSpawn
  constructor <;> (try dsimp only) <;> (repeat' split) <;> simp [foldl_mem, foldl_full, apply_ite State.mem, apply_ite State.full]

@[simp] theorem freeSpawnEntry_keepsMem (s : State) (a : Agent) (w : Who) : (freeSpawnEntry s a w).mem = s.mem ∧ (freeSpawnEntry s a w).full = s.full := by
  unfold freeSpawnEntry
  constructor <;> (try dsimp only) <;> (repeat' split) <;> simp [foldl_mem, foldl_full, apply_ite State.mem, apply_ite State.full]

@[simp] theorem answerRecruit_keepsMem (s : State) (ag : Agent) (r : Recruit) : (answerRecruit s ag r).mem = s.mem ∧ (answerRecruit s ag r).full = s.full := by
  unfold answerRecruit
  constructor <;> (try dsimp only) <;> (repeat' first | split | refine (foldl_mem _ (fun _ _ => ?_) _ _).trans ?_ | refine (foldl_full _ (fun _ _ => ?_) _ _).trans ?_) <;> simp [foldl_mem, foldl_full, apply_ite State.mem, apply_ite State.full]

@[simp] theorem answerKillers_keepsMem (s : State) (l : List (Who × Nat)) : (answerKillers s l).mem = s.mem ∧ (answerKillers s l).full = s.full := by
  unfold answerKillers
  constructor <;> (try dsimp only) <;> (repeat' split) <;> simp [foldl_mem, foldl_full, apply_ite State.mem, apply_ite State.full]

@[simp] theorem putBar_keepsMem (s : State) (owner i : Nat) (b : Barrier) : (putBar s owner i b).mem = s.mem ∧ (putBar s owner i b).full = s.full := by
  unfold putBar
  constructor <;> (try dsimp only) <;> (repeat' split) <;> simp [foldl_mem, foldl_full, apply_ite State.mem, apply_ite State.full]

@[simp] theorem ownerReply_keepsMem (s : State) (owner : Nat) (w : Who) (v : Nat) : (ownerReply s owner w v).mem = s.mem ∧ (ownerReply s owner w v).full = s.full := by
  unfold ownerReply
  constructor <;> (try dsimp only) <;> (repeat' split) <;> simp [foldl_mem, foldl_full, apply_ite State.mem, apply_ite State.full]

@[simp] theorem ownerRefuse_keepsMem (s : State) (owner : Nat) (w : Who) (cause : Nat) (tval : Word) : (ownerRefuse s owner w cause tval).mem = s.mem ∧ (ownerRefuse s owner w cause tval).full = s.full := by
  unfold ownerRefuse
  constructor <;> (try dsimp only) <;> (repeat' split) <;> simp [foldl_mem, foldl_full, apply_ite State.mem, apply_ite State.full]

@[simp] theorem barAcquire_keepsMem (s : State) (owner i : Nat) (k : CtxKey) : (barAcquire s owner i k).mem = s.mem ∧ (barAcquire s owner i k).full = s.full := by
  unfold barAcquire
  constructor <;> (try dsimp only) <;> (repeat' split) <;> simp [foldl_mem, foldl_full, apply_ite State.mem, apply_ite State.full]

@[simp] theorem completeBar_keepsMem (s : State) (owner i : Nat) : (completeBar s owner i).mem = s.mem ∧ (completeBar s owner i).full = s.full := by
  unfold completeBar
  constructor <;> (try dsimp only) <;> (repeat' first | split | refine (foldl_mem _ (fun _ _ => ?_) _ _).trans ?_ | refine (foldl_full _ (fun _ _ => ?_) _ _).trans ?_) <;> simp [foldl_mem, foldl_full, apply_ite State.mem, apply_ite State.full]

@[simp] theorem testBar_keepsMem (s : State) (owner i : Nat) : (testBar s owner i).mem = s.mem ∧ (testBar s owner i).full = s.full := by
  unfold testBar
  constructor <;> (try dsimp only) <;> (repeat' first | split | refine (foldl_mem _ (fun _ _ => ?_) _ _).trans ?_ | refine (foldl_full _ (fun _ _ => ?_) _ _).trans ?_) <;> simp [foldl_mem, foldl_full, apply_ite State.mem, apply_ite State.full]

@[simp] theorem answerArrival_keepsMem (s : State) (owner i : Nat) (w : Who) (wait phase past : Bool) : (answerArrival s owner i w wait phase past).mem = s.mem ∧ (answerArrival s owner i w wait phase past).full = s.full := by
  unfold answerArrival
  constructor <;> (try dsimp only) <;> (repeat' split) <;> simp [foldl_mem, foldl_full, apply_ite State.mem, apply_ite State.full]

@[simp] theorem sendBar_keepsMem (s : State) (owner i : Nat) (w : Who) (m : BarMsg) : (sendBar s owner i w m).mem = s.mem ∧ (sendBar s owner i w m).full = s.full := by
  unfold sendBar
  constructor <;> (try dsimp only) <;> (repeat' split) <;> simp [foldl_mem, foldl_full, apply_ite State.mem, apply_ite State.full]

@[simp] theorem wrongTag_keepsMem (s : State) (owner i tag : Nat) : (wrongTag s owner i tag).mem = s.mem ∧ (wrongTag s owner i tag).full = s.full := by
  unfold wrongTag
  constructor <;> (try dsimp only) <;> (repeat' split) <;> simp [foldl_mem, foldl_full, apply_ite State.mem, apply_ite State.full]

@[simp] theorem putRing_keepsMem (s : State) (core h : Nat) (r : Ring) : (putRing s core h r).mem = s.mem ∧ (putRing s core h r).full = s.full := by
  unfold putRing
  constructor <;> (try dsimp only) <;> (repeat' split) <;> simp [foldl_mem, foldl_full, apply_ite State.mem, apply_ite State.full]

@[simp] theorem ringAtOwner_keepsMem (s : State) (owner h : Nat) (w : Who) (op : RingOp) (k : Nat) : (ringAtOwner s owner h w op k).mem = s.mem ∧ (ringAtOwner s owner h w op k).full = s.full := by
  unfold ringAtOwner
  constructor <;> (try dsimp only) <;> (repeat' split) <;> simp [foldl_mem, foldl_full, apply_ite State.mem, apply_ite State.full]

@[simp] theorem sendRing_keepsMem (s : State) (owner : Nat) (w : Who) (op : RingOp) (h k : Nat) : (sendRing s owner w op h k).mem = s.mem ∧ (sendRing s owner w op h k).full = s.full := by
  unfold sendRing
  constructor <;> (try dsimp only) <;> (repeat' split) <;> simp [foldl_mem, foldl_full, apply_ite State.mem, apply_ite State.full]

@[simp] theorem wakeTree_keepsMem (s : State) (core g : Nat) : (wakeTree s core g).mem = s.mem ∧ (wakeTree s core g).full = s.full := by
  unfold wakeTree
  constructor <;> (try dsimp only) <;> (repeat' split) <;> simp [foldl_mem, foldl_full, apply_ite State.mem, apply_ite State.full]

@[simp] theorem landTree_keepsMem (s : State) (g : Group) (t : Tree) (p : TreePart) : (landTree s g t p).mem = s.mem ∧ (landTree s g t p).full = s.full := by
  unfold landTree
  constructor <;> (try dsimp only) <;> (repeat' split) <;> simp [foldl_mem, foldl_full, apply_ite State.mem, apply_ite State.full]

@[simp] theorem engAsk_keepsMem (s : State) (owner h : Nat) (u : RingUser) (op : RingOp) (k : Nat) : (engAsk s owner h u op k).mem = s.mem ∧ (engAsk s owner h u op k).full = s.full := by
  unfold engAsk
  constructor <;> (try dsimp only) <;> (repeat' split) <;> simp [foldl_mem, foldl_full, apply_ite State.mem, apply_ite State.full]

@[simp] theorem engAdvance_keepsMem (s : State) (owner h : Nat) (op : RingOp) (k : Nat) : (engAdvance s owner h op k).mem = s.mem ∧ (engAdvance s owner h op k).full = s.full := by
  unfold engAdvance
  constructor <;> (try dsimp only) <;> (repeat' split) <;> simp [foldl_mem, foldl_full, apply_ite State.mem, apply_ite State.full]

@[simp] theorem dropRingUser_keepsMem (s : State) (core : Nat) (p : RingUser → Bool) : (dropRingUser s core p).mem = s.mem ∧ (dropRingUser s core p).full = s.full := by
  unfold dropRingUser
  constructor <;> (try dsimp only) <;> (repeat' first | split | refine (foldl_mem _ (fun _ _ => ?_) _ _).trans ?_ | refine (foldl_full _ (fun _ _ => ?_) _ _).trans ?_) <;> simp [foldl_mem, foldl_full, apply_ite State.mem, apply_ite State.full]

@[simp] theorem dropOp_keepsMem (s : State) (o : EngOp) : (dropOp s o).mem = s.mem ∧ (dropOp s o).full = s.full := by
  unfold dropOp
  constructor <;> (try dsimp only) <;> (repeat' split) <;> simp [foldl_mem, foldl_full, apply_ite State.mem, apply_ite State.full]

@[simp] theorem discardOp_keepsMem (s : State) (o : EngOp) : (discardOp s o).mem = s.mem ∧ (discardOp s o).full = s.full := by
  unfold discardOp
  constructor <;> (try dsimp only) <;> (repeat' first | split | refine (foldl_mem _ (fun _ _ => ?_) _ _).trans ?_ | refine (foldl_full _ (fun _ _ => ?_) _ _).trans ?_) <;> simp [foldl_mem, foldl_full, apply_ite State.mem, apply_ite State.full]

@[simp] theorem faultOp_keepsMem (s : State) (o : EngOp) (code : Nat) (tval : Nat → Word) : (faultOp s o code tval).mem = s.mem ∧ (faultOp s o code tval).full = s.full := by
  unfold faultOp
  constructor <;> (try dsimp only) <;> (repeat' first | split | refine (foldl_mem _ (fun _ _ => ?_) _ _).trans ?_ | refine (foldl_full _ (fun _ _ => ?_) _ _).trans ?_) <;> simp [foldl_mem, foldl_full, apply_ite State.mem, apply_ite State.full]

@[simp] theorem faultOp121_keepsMem (s : State) (o : EngOp) (code reason ring : Nat) : (faultOp121 s o code reason ring).mem = s.mem ∧ (faultOp121 s o code reason ring).full = s.full := by
  unfold faultOp121
  constructor <;> (try dsimp only) <;> (repeat' first | split | refine (foldl_mem _ (fun _ _ => ?_) _ _).trans ?_ | refine (foldl_full _ (fun _ _ => ?_) _ _).trans ?_) <;> simp [foldl_mem, foldl_full, apply_ite State.mem, apply_ite State.full]

@[simp] theorem putOp_keepsMem (s : State) (o : EngOp) : (putOp s o).mem = s.mem ∧ (putOp s o).full = s.full := by
  unfold putOp
  constructor <;> (try dsimp only) <;> (repeat' split) <;> simp [foldl_mem, foldl_full, apply_ite State.mem, apply_ite State.full]

@[simp] theorem acceptOp_keepsMem (s : State) (o : EngOp) : (acceptOp s o).mem = s.mem ∧ (acceptOp s o).full = s.full := by
  unfold acceptOp
  constructor <;> (try dsimp only) <;> (repeat' split) <;> simp [foldl_mem, foldl_full, apply_ite State.mem, apply_ite State.full]

@[simp] theorem closeCpy_keepsMem (s : State) (x : Xfer) : (closeCpy s x).mem = s.mem ∧ (closeCpy s x).full = s.full := by
  unfold closeCpy
  constructor <;> (try dsimp only) <;> (repeat' split) <;> simp [foldl_mem, foldl_full, apply_ite State.mem, apply_ite State.full]

@[simp] theorem retire_keepsMem (s : State) (ag : Agent) (x : Xfer) (st : Nat) : (retire s ag x st).mem = s.mem ∧ (retire s ag x st).full = s.full := by
  unfold retire
  constructor <;> (try dsimp only) <;> (repeat' first | split | refine (foldl_mem _ (fun _ _ => ?_) _ _).trans ?_ | refine (foldl_full _ (fun _ _ => ?_) _ _).trans ?_) <;> simp [foldl_mem, foldl_full, apply_ite State.mem, apply_ite State.full]

@[simp] theorem cancelXfer_keepsMem (s : State) (ag : Agent) (x : Xfer) : (cancelXfer s ag x).mem = s.mem ∧ (cancelXfer s ag x).full = s.full := by
  unfold cancelXfer
  constructor <;> (try dsimp only) <;> (repeat' first | split | refine (foldl_mem _ (fun _ _ => ?_) _ _).trans ?_ | refine (foldl_full _ (fun _ _ => ?_) _ _).trans ?_) <;> simp [foldl_mem, foldl_full, apply_ite State.mem, apply_ite State.full]

@[simp] theorem putXfer_keepsMem (s : State) (ag : Agent) (t : Xfer) : (putXfer s ag t).mem = s.mem ∧ (putXfer s ag t).full = s.full := by
  unfold putXfer
  constructor <;> (try dsimp only) <;> (repeat' split) <;> simp [foldl_mem, foldl_full, apply_ite State.mem, apply_ite State.full]

@[simp] theorem xferIrq_keepsMem (s : State) (x : Xfer) : (xferIrq s x).mem = s.mem ∧ (xferIrq s x).full = s.full := by
  unfold xferIrq
  constructor <;> (try dsimp only) <;> (repeat' split) <;> simp [foldl_mem, foldl_full, apply_ite State.mem, apply_ite State.full]

@[simp] theorem convAsk_keepsMem (s : State) (core : Nat) (o : EngOp) : (convAsk s core o).mem = s.mem ∧ (convAsk s core o).full = s.full := by
  unfold convAsk
  constructor <;> (try dsimp only) <;> (repeat' split) <;> simp [foldl_mem, foldl_full, apply_ite State.mem, apply_ite State.full]

@[simp] theorem opFlags_keepsMem (s : State) (o : EngOp) : (opFlags s o).mem = s.mem ∧ (opFlags s o).full = s.full := by
  unfold opFlags
  constructor <;> (try dsimp only) <;> (repeat' split) <;> simp [foldl_mem, foldl_full, apply_ite State.mem, apply_ite State.full]

@[simp] theorem putTile_keepsMem (s : State) (o : EngOp) (t : AccTile) : (putTile s o t).mem = s.mem ∧ (putTile s o t).full = s.full := by
  unfold putTile
  constructor <;> (try dsimp only) <;> (repeat' split) <;> simp [foldl_mem, foldl_full, apply_ite State.mem, apply_ite State.full]

@[simp] theorem freshTile_keepsMem (s : State) (o : EngOp) (t : AccTile) : (freshTile s o t).mem = s.mem ∧ (freshTile s o t).full = s.full := by
  unfold freshTile
  constructor <;> (try dsimp only) <;> (repeat' split) <;> simp [foldl_mem, foldl_full, apply_ite State.mem, apply_ite State.full]

@[simp] theorem setHeld_keepsMem (s : State) (core h : Nat) (l : List Nat) : (setHeld s core h l).mem = s.mem ∧ (setHeld s core h l).full = s.full := by
  unfold setHeld
  constructor <;> (try dsimp only) <;> (repeat' split) <;> simp [foldl_mem, foldl_full, apply_ite State.mem, apply_ite State.full]

@[simp] theorem matBarrier_keepsMem (s : State) (core : Nat) (o : EngOp) : (matBarrier s core o).mem = s.mem ∧ (matBarrier s core o).full = s.full := by
  unfold matBarrier
  constructor <;> (try dsimp only) <;> (repeat' first | split | refine (foldl_mem _ (fun _ _ => ?_) _ _).trans ?_ | refine (foldl_full _ (fun _ _ => ?_) _ _).trans ?_) <;> simp [foldl_mem, foldl_full, apply_ite State.mem, apply_ite State.full]

@[simp] theorem matAsk_keepsMem (s : State) (core : Nat) (o : EngOp) : (matAsk s core o).mem = s.mem ∧ (matAsk s core o).full = s.full := by
  unfold matAsk
  constructor <;> (try dsimp only) <;> (repeat' split) <;> simp [foldl_mem, foldl_full, apply_ite State.mem, apply_ite State.full]

@[simp] theorem accAsk_keepsMem (s : State) (core : Nat) (o : EngOp) : (accAsk s core o).mem = s.mem ∧ (accAsk s core o).full = s.full := by
  unfold accAsk
  constructor <;> (try dsimp only) <;> (repeat' split) <;> simp [foldl_mem, foldl_full, apply_ite State.mem, apply_ite State.full]

@[simp] theorem leaveSlots_keepsMem (s : State) (core h : Nat) (take rel : Bool) (slots : List Nat) : (leaveSlots s core h take rel slots).mem = s.mem ∧ (leaveSlots s core h take rel slots).full = s.full := by
  unfold leaveSlots
  constructor <;> (try dsimp only) <;> (repeat' split) <;> simp [foldl_mem, foldl_full, apply_ite State.mem, apply_ite State.full]

@[simp] theorem mmaFault_keepsMem (s : State) (core : Nat) (o : EngOp) (code reason ring : Nat) : (mmaFault s core o code reason ring).mem = s.mem ∧ (mmaFault s core o code reason ring).full = s.full := by
  unfold mmaFault
  constructor <;> (try dsimp only) <;> (repeat' first | split | refine (foldl_mem _ (fun _ _ => ?_) _ _).trans ?_ | refine (foldl_full _ (fun _ _ => ?_) _ _).trans ?_) <;> simp [foldl_mem, foldl_full, apply_ite State.mem, apply_ite State.full]

@[simp] theorem accWrRun_keepsMem (s : State) (core : Nat) (o : EngOp) : (accWrRun s core o).mem = s.mem ∧ (accWrRun s core o).full = s.full := by
  unfold accWrRun
  constructor <;> (try dsimp only) <;> (repeat' first | split | refine (foldl_mem _ (fun _ _ => ?_) _ _).trans ?_ | refine (foldl_full _ (fun _ _ => ?_) _ _).trans ?_) <;> simp [foldl_mem, foldl_full, apply_ite State.mem, apply_ite State.full]

@[simp] theorem wrapCause_keepsMem (s : State) (o : EngOp) (traps : Bool) : (wrapCause s o traps).mem = s.mem ∧ (wrapCause s o traps).full = s.full := by
  unfold wrapCause
  constructor <;> (try dsimp only) <;> (repeat' split) <;> simp [foldl_mem, foldl_full, apply_ite State.mem, apply_ite State.full]

@[simp] theorem grantOp_keepsMem (s : State) (ag : Agent) (id : Nat) (isB : Bool) (slots : List Nat) : (grantOp s ag id isB slots).mem = s.mem ∧ (grantOp s ag id isB slots).full = s.full := by
  unfold grantOp
  constructor <;> (try dsimp only) <;> (repeat' split) <;> simp [foldl_mem, foldl_full, apply_ite State.mem, apply_ite State.full]

@[simp] theorem grantUser_keepsMem (s : State) (owner h i k : Nat) (u : RingUser) : (grantUser s owner h i k u).mem = s.mem ∧ (grantUser s owner h i k u).full = s.full := by
  unfold grantUser
  constructor <;> (try dsimp only) <;> (repeat' split) <;> simp [foldl_mem, foldl_full, apply_ite State.mem, apply_ite State.full]

@[simp] theorem linkArrival_keepsMem (s : State) (core p : Nat) : (linkArrival s core p).mem = s.mem ∧ (linkArrival s core p).full = s.full := by
  unfold linkArrival
  constructor <;> (try dsimp only) <;> (repeat' split) <;> simp [foldl_mem, foldl_full, apply_ite State.mem, apply_ite State.full]

@[simp] theorem noteDrop_keepsMem (s : State) (filter : Nat) (tval : Word) : (noteDrop s filter tval).mem = s.mem ∧ (noteDrop s filter tval).full = s.full := by
  unfold noteDrop
  constructor <;> (try dsimp only) <;> (repeat' first | split | refine (foldl_mem _ (fun _ _ => ?_) _ _).trans ?_ | refine (foldl_full _ (fun _ _ => ?_) _ _).trans ?_) <;> simp [foldl_mem, foldl_full, apply_ite State.mem, apply_ite State.full]

@[simp] theorem setPortGates_keepsMem (s : State) (port : Fin 10) (g : PortGates) : (setPortGates s port g).mem = s.mem ∧ (setPortGates s port g).full = s.full := by
  unfold setPortGates
  constructor <;> (try dsimp only) <;> (repeat' split) <;> simp [foldl_mem, foldl_full, apply_ite State.mem, apply_ite State.full]

@[simp] theorem setStreamFilter_keepsMem (s : State) (stream : Nat) (f : StreamFilter) : (setStreamFilter s stream f).mem = s.mem ∧ (setStreamFilter s stream f).full = s.full := by
  unfold setStreamFilter
  constructor <;> (try dsimp only) <;> (repeat' split) <;> simp [foldl_mem, foldl_full, apply_ite State.mem, apply_ite State.full]

@[simp] theorem toFw7_keepsMem (s : State) : (toFw7 s).mem = s.mem ∧ (toFw7 s).full = s.full := by
  unfold toFw7
  constructor <;> (try dsimp only) <;> (repeat' split) <;> simp [foldl_mem, foldl_full, apply_ite State.mem, apply_ite State.full]

@[simp] theorem overruns_keepsMem (s : State) : (overruns s).mem = s.mem ∧ (overruns s).full = s.full := by
  unfold overruns
  constructor <;> (try dsimp only) <;> (repeat' first | split | refine (foldl_mem _ (fun _ _ => ?_) _ _).trans ?_ | refine (foldl_full _ (fun _ _ => ?_) _ _).trans ?_) <;> simp [foldl_mem, foldl_full, apply_ite State.mem, apply_ite State.full]

@[simp] theorem countLate_keepsMem (s : State) : (countLate s).mem = s.mem ∧ (countLate s).full = s.full := by
  unfold countLate
  constructor <;> (try dsimp only) <;> (repeat' split) <;> simp [foldl_mem, foldl_full, apply_ite State.mem, apply_ite State.full]

@[simp] theorem putEntry_keepsMem (s : State) (i : Nat) (e : SheetEntry) : (putEntry s i e).mem = s.mem ∧ (putEntry s i e).full = s.full := by
  unfold putEntry
  constructor <;> (try dsimp only) <;> (repeat' split) <;> simp [foldl_mem, foldl_full, apply_ite State.mem, apply_ite State.full]

@[simp] theorem measure_keepsMem (s : State) (k : Fin 16) (item : List Byte) : (Machine.measure s k item).mem = s.mem ∧ (Machine.measure s k item).full = s.full := by
  unfold Machine.measure
  constructor <;> (try dsimp only) <;> (repeat' first | split | refine (foldl_mem _ (fun _ _ => ?_) _ _).trans ?_ | refine (foldl_full _ (fun _ _ => ?_) _ _).trans ?_) <;> simp [foldl_mem, foldl_full, apply_ite State.mem, apply_ite State.full]

@[simp] theorem countSlips_keepsMem (s : State) (n take : Nat) : (countSlips s n take).mem = s.mem ∧ (countSlips s n take).full = s.full := by
  unfold countSlips
  constructor <;> (try dsimp only) <;> (repeat' first | split | refine (foldl_mem _ (fun _ _ => ?_) _ _).trans ?_ | refine (foldl_full _ (fun _ _ => ?_) _ _).trans ?_) <;> simp [foldl_mem, foldl_full, apply_ite State.mem, apply_ite State.full]

@[simp] theorem refill_keepsMem (s : State) : (refill s).mem = s.mem ∧ (refill s).full = s.full := by
  unfold refill
  constructor <;> (try dsimp only) <;> (repeat' split) <;> simp [foldl_mem, foldl_full, apply_ite State.mem, apply_ite State.full]

@[simp] theorem activateSheet_keepsMem (s : State) (at_ : Nat) : (activateSheet s at_).mem = s.mem ∧ (activateSheet s at_).full = s.full := by
  unfold activateSheet
  constructor <;> (try dsimp only) <;> (repeat' first | split | refine (foldl_mem _ (fun _ _ => ?_) _ _).trans ?_ | refine (foldl_full _ (fun _ _ => ?_) _ _).trans ?_) <;> simp [foldl_mem, foldl_full, apply_ite State.mem, apply_ite State.full]

@[simp] theorem measureMaps_keepsMem (s : State) (switched : Bool) : (measureMaps s switched).mem = s.mem ∧ (measureMaps s switched).full = s.full := by
  unfold measureMaps
  constructor <;> (try dsimp only) <;> (repeat' first | split | refine (foldl_mem _ (fun _ _ => ?_) _ _).trans ?_ | refine (foldl_full _ (fun _ _ => ?_) _ _).trans ?_) <;> simp [foldl_mem, foldl_full, apply_ite State.mem, apply_ite State.full]

@[simp] theorem setTake_keepsMem (s : State) (n dtime : Nat) : (setTake s n dtime).mem = s.mem ∧ (setTake s n dtime).full = s.full := by
  unfold setTake
  constructor <;> (try dsimp only) <;> (repeat' split) <;> simp [foldl_mem, foldl_full, apply_ite State.mem, apply_ite State.full]

@[simp] theorem modCtrl_keepsMem (s : State) (c : Fin 8) (f : CtrlCore → CtrlCore) : (modCtrl s c f).mem = s.mem ∧ (modCtrl s c f).full = s.full := by
  unfold modCtrl
  constructor <;> (try dsimp only) <;> (repeat' split) <;> simp [foldl_mem, foldl_full, apply_ite State.mem, apply_ite State.full]

@[simp] theorem signalDone_keepsMem (s : State) (c : Fin 8) : (signalDone s c).mem = s.mem ∧ (signalDone s c).full = s.full := by
  unfold signalDone
  constructor <;> (try dsimp only) <;> (repeat' split) <;> simp [foldl_mem, foldl_full, apply_ite State.mem, apply_ite State.full]

@[simp] theorem portSend_keepsMem (s : State) (c : Fin 8) (v : Nat) : (portSend s c v).mem = s.mem ∧ (portSend s c v).full = s.full := by
  unfold portSend
  constructor <;> (try dsimp only) <;> (repeat' split) <;> simp [foldl_mem, foldl_full, apply_ite State.mem, apply_ite State.full]

@[simp] theorem freshen_keepsMem (s : State) (c : Fin 8) (q : Fin 4) : (freshen s c q).mem = s.mem ∧ (freshen s c q).full = s.full := by
  unfold freshen
  constructor <;> (try dsimp only) <;> (repeat' split) <;> simp [foldl_mem, foldl_full, apply_ite State.mem, apply_ite State.full]

@[simp] theorem ctrlTrap_keepsMem (s : State) (c : Fin 8) (t : CtrlTrap) : (ctrlTrap s c t).mem = s.mem ∧ (ctrlTrap s c t).full = s.full := by
  unfold ctrlTrap
  constructor <;> (try dsimp only) <;> (repeat' split) <;> simp [foldl_mem, foldl_full, apply_ite State.mem, apply_ite State.full]

@[simp] theorem ctrlMret_keepsMem (s : State) (c : Fin 8) : (ctrlMret s c).mem = s.mem ∧ (ctrlMret s c).full = s.full := by
  unfold ctrlMret
  constructor <;> (try dsimp only) <;> (repeat' split) <;> simp [foldl_mem, foldl_full, apply_ite State.mem, apply_ite State.full]

@[simp] theorem ctrlInterrupt_keepsMem (s : State) (c : Fin 8) : (ctrlInterrupt s c).mem = s.mem ∧ (ctrlInterrupt s c).full = s.full := by
  unfold ctrlInterrupt
  constructor <;> (try dsimp only) <;> (repeat' split) <;> simp [foldl_mem, foldl_full, apply_ite State.mem, apply_ite State.full]

@[simp] theorem ctrlCsrWrite_keepsMem (s : State) (c : Fin 8) (rs : Fin 32) (num : Nat) : (ctrlCsrWrite s c rs num).mem = s.mem ∧ (ctrlCsrWrite s c rs num).full = s.full := by
  unfold ctrlCsrWrite
  constructor <;> (try dsimp only) <;> (repeat' split) <;> simp [foldl_mem, foldl_full, apply_ite State.mem, apply_ite State.full]

@[simp] theorem ctrlPmp_keepsMem (s : State) (c : Fin 8) (i : Fin 16) (cfg : BitVec 8) (addr : Word) : (ctrlPmp s c i cfg addr).mem = s.mem ∧ (ctrlPmp s c i cfg addr).full = s.full := by
  unfold ctrlPmp
  constructor <;> (try dsimp only) <;> (repeat' split) <;> simp [foldl_mem, foldl_full, apply_ite State.mem, apply_ite State.full]

@[simp] theorem ctrlMie_keepsMem (s : State) (c : Fin 8) (v : BitVec 3) : (ctrlMie s c v).mem = s.mem ∧ (ctrlMie s c v).full = s.full := by
  unfold ctrlMie
  constructor <;> (try dsimp only) <;> (repeat' split) <;> simp [foldl_mem, foldl_full, apply_ite State.mem, apply_ite State.full]

@[simp] theorem modPair_keepsMem (s : State) (f : PairBlock → PairBlock) : (modPair s f).mem = s.mem ∧ (modPair s f).full = s.full := by
  unfold modPair
  constructor <;> (try dsimp only) <;> (repeat' split) <;> simp [foldl_mem, foldl_full, apply_ite State.mem, apply_ite State.full]

@[simp] theorem linkFault_keepsMem (s : State) (vals : List Nat) : (linkFault s vals).mem = s.mem ∧ (linkFault s vals).full = s.full := by
  unfold linkFault
  constructor <;> (try dsimp only) <;> (repeat' first | split | refine (foldl_mem _ (fun _ _ => ?_) _ _).trans ?_ | refine (foldl_full _ (fun _ _ => ?_) _ _).trans ?_) <;> simp [foldl_mem, foldl_full, apply_ite State.mem, apply_ite State.full]

@[simp] theorem mismatchAt_keepsMem (s : State) (take : Nat) : (mismatchAt s take).mem = s.mem ∧ (mismatchAt s take).full = s.full := by
  unfold mismatchAt
  constructor <;> (try dsimp only) <;> (repeat' split) <;> simp [foldl_mem, foldl_full, apply_ite State.mem, apply_ite State.full]

@[simp] theorem compareDigests_keepsMem (s : State) (take : Nat) (own peer : Word) : (compareDigests s take own peer).mem = s.mem ∧ (compareDigests s take own peer).full = s.full := by
  unfold compareDigests
  constructor <;> (try dsimp only) <;> (repeat' split) <;> simp [foldl_mem, foldl_full, apply_ite State.mem, apply_ite State.full]

@[simp] theorem holdAll_keepsMem (s : State) (who : Nat) : (holdAll s who).mem = s.mem ∧ (holdAll s who).full = s.full := by
  unfold holdAll
  constructor <;> (try dsimp only) <;> (repeat' split) <;> simp [foldl_mem, foldl_full, apply_ite State.mem, apply_ite State.full]

@[simp] theorem endHolds_keepsMem (s : State) (who : Nat) : (endHolds s who).mem = s.mem ∧ (endHolds s who).full = s.full := by
  unfold endHolds
  constructor <;> (try dsimp only) <;> (repeat' split) <;> simp [foldl_mem, foldl_full, apply_ite State.mem, apply_ite State.full]

@[simp] theorem holdQueue_keepsMem (s : State) (fw5 : Bool) (core : Nat) (q : Fin 64) (on : Bool) : (holdQueue s fw5 core q on).mem = s.mem ∧ (holdQueue s fw5 core q on).full = s.full := by
  unfold holdQueue
  constructor <;> (try dsimp only) <;> (repeat' split) <;> simp [foldl_mem, foldl_full, apply_ite State.mem, apply_ite State.full]

@[simp] theorem missBeat_keepsMem (s : State) (h : Nat) : (missBeat s h).mem = s.mem ∧ (missBeat s h).full = s.full := by
  unfold missBeat
  constructor <;> (try dsimp only) <;> (repeat' split) <;> simp [foldl_mem, foldl_full, apply_ite State.mem, apply_ite State.full]

@[simp] theorem redirect_keepsMem (s : State) (f : Nat → Option Nat) : (redirect s f).mem = s.mem ∧ (redirect s f).full = s.full := by
  unfold redirect
  constructor <;> (try dsimp only) <;> (repeat' split) <;> simp [foldl_mem, foldl_full, apply_ite State.mem, apply_ite State.full]

@[simp] theorem DomWrite_run_keepsMem (x : DomWrite) (s : State) : (DomWrite.run x s).mem = s.mem ∧ (DomWrite.run x s).full = s.full := by
  unfold DomWrite.run
  constructor <;> (try dsimp only) <;> (repeat' first | split | refine (foldl_mem _ (fun _ _ => ?_) _ _).trans ?_ | refine (foldl_full _ (fun _ _ => ?_) _ _).trans ?_) <;> simp [foldl_mem, foldl_full, apply_ite State.mem, apply_ite State.full]

@[simp] theorem dropTranslations_keepsMem (s : State) (p : Tlb → Bool) : (dropTranslations s p).mem = s.mem ∧ (dropTranslations s p).full = s.full := by
  unfold dropTranslations
  constructor <;> (try dsimp only) <;> (repeat' split) <;> simp [foldl_mem, foldl_full, apply_ite State.mem, apply_ite State.full]

@[simp] theorem retirePage_keepsMem (s : State) (old size : Nat) : (retirePage s old size).mem = s.mem ∧ (retirePage s old size).full = s.full := by
  unfold retirePage
  constructor <;> (try dsimp only) <;> (repeat' split) <;> simp [foldl_mem, foldl_full, apply_ite State.mem, apply_ite State.full]

@[simp] theorem sendLines_keepsMem (s : State) (p : Nat → Bool) : (sendLines s p).mem = s.mem ∧ (sendLines s p).full = s.full := by
  unfold sendLines
  constructor <;> (try dsimp only) <;> (repeat' split) <;> simp [foldl_mem, foldl_full, apply_ite State.mem, apply_ite State.full]

@[simp] theorem sendOn_keepsMem (f : Nat → Option Nat) (s : State) (x : Nat × Packet) : (sendOn f s x).mem = s.mem ∧ (sendOn f s x).full = s.full := by
  unfold sendOn
  constructor <;> (try dsimp only) <;> (repeat' split) <;> simp [foldl_mem, foldl_full, apply_ite State.mem, apply_ite State.full]

@[simp] theorem retireWay_keepsMem (s : State) (a : Nat) : (retireWay s a).mem = s.mem ∧ (retireWay s a).full = s.full := by
  unfold retireWay
  constructor <;> (try dsimp only) <;> (repeat' split) <;> simp [foldl_mem, foldl_full, apply_ite State.mem, apply_ite State.full]

@[simp] theorem listSector_keepsMem (s : State) (a : Nat) (sram : Bool) : (listSector s a sram).mem = s.mem ∧ (listSector s a sram).full = s.full := by
  unfold listSector
  constructor <;> (try dsimp only) <;> (repeat' first | split | refine (foldl_mem _ (fun _ _ => ?_) _ _).trans ?_ | refine (foldl_full _ (fun _ _ => ?_) _ _).trans ?_) <;> simp [foldl_mem, foldl_full, apply_ite State.mem, apply_ite State.full]

@[simp] theorem accError_keepsMem (s : State) (k : CtxKey) (acc : Fin 2) : (accError s k acc).mem = s.mem ∧ (accError s k acc).full = s.full := by
  unfold accError
  constructor <;> (try dsimp only) <;> (repeat' split) <;> simp [foldl_mem, foldl_full, apply_ite State.mem, apply_ite State.full]

@[simp] theorem modSec_keepsMem (s : State) (f : Security → Security) : (modSec s f).mem = s.mem ∧ (modSec s f).full = s.full := by
  unfold modSec
  constructor <;> (try dsimp only) <;> (repeat' split) <;> simp [foldl_mem, foldl_full, apply_ite State.mem, apply_ite State.full]

@[simp] theorem startImage_keepsMem (s : State) (cls : Nat) (b : List Byte) : (startImage s cls b).mem = s.mem ∧ (startImage s cls b).full = s.full := by
  unfold startImage
  constructor <;> (try dsimp only) <;> (repeat' first | split | refine (foldl_mem _ (fun _ _ => ?_) _ _).trans ?_ | refine (foldl_full _ (fun _ _ => ?_) _ _).trans ?_) <;> simp [foldl_mem, foldl_full, apply_ite State.mem, apply_ite State.full]

@[simp] theorem fwClock_keepsMem (s : State) (k : Fin 8) (ns : Nat) : (fwClock s k ns).mem = s.mem ∧ (fwClock s k ns).full = s.full := by
  unfold fwClock
  constructor <;> (try dsimp only) <;> (repeat' split) <;> simp [foldl_mem, foldl_full, apply_ite State.mem, apply_ite State.full]

@[simp] theorem modPower_keepsMem (s : State) (f : Power → Power) : (modPower s f).mem = s.mem ∧ (modPower s f).full = s.full := by
  unfold modPower
  constructor <;> (try dsimp only) <;> (repeat' split) <;> simp [foldl_mem, foldl_full, apply_ite State.mem, apply_ite State.full]

@[simp] theorem stepUp_keepsMem (s : State) (w0 w1 : Nat) : (stepUp s w0 w1).mem = s.mem ∧ (stepUp s w0 w1).full = s.full := by
  unfold stepUp
  constructor <;> (try dsimp only) <;> (repeat' first | split | refine (foldl_mem _ (fun _ _ => ?_) _ _).trans ?_ | refine (foldl_full _ (fun _ _ => ?_) _ _).trans ?_) <;> simp [foldl_mem, foldl_full, apply_ite State.mem, apply_ite State.full]

@[simp] theorem stepDown_keepsMem (s : State) : (stepDown s).mem = s.mem ∧ (stepDown s).full = s.full := by
  unfold stepDown
  constructor <;> (try dsimp only) <;> (repeat' split) <;> simp [foldl_mem, foldl_full, apply_ite State.mem, apply_ite State.full]

@[simp] theorem tripDie_keepsMem (s : State) (die : Nat) : (tripDie s die).mem = s.mem ∧ (tripDie s die).full = s.full := by
  unfold tripDie
  constructor <;> (try dsimp only) <;> (repeat' split) <;> simp [foldl_mem, foldl_full, apply_ite State.mem, apply_ite State.full]

@[simp] theorem fw5Log_keepsMem (s : State) (w1 : Nat) : (fw5Log s w1).mem = s.mem ∧ (fw5Log s w1).full = s.full := by
  unfold fw5Log
  constructor <;> (try dsimp only) <;> (repeat' split) <;> simp [foldl_mem, foldl_full, apply_ite State.mem, apply_ite State.full]

@[simp] theorem setFloor_keepsMem (s : State) (die n ev : Nat) (reading : BitVec 16) : (setFloor s die n ev reading).mem = s.mem ∧ (setFloor s die n ev reading).full = s.full := by
  unfold setFloor
  constructor <;> (try dsimp only) <;> (repeat' split) <;> simp [foldl_mem, foldl_full, apply_ite State.mem, apply_ite State.full]

@[simp] theorem setCool_keepsMem (s : State) (die n : Nat) : (setCool s die n).mem = s.mem ∧ (setCool s die n).full = s.full := by
  unfold setCool
  constructor <;> (try dsimp only) <;> (repeat' split) <;> simp [foldl_mem, foldl_full, apply_ite State.mem, apply_ite State.full]

@[simp] theorem fw5Alert_keepsMem (s : State) (tval : Nat) : (fw5Alert s tval).mem = s.mem ∧ (fw5Alert s tval).full = s.full := by
  unfold fw5Alert
  constructor <;> (try dsimp only) <;> (repeat' split) <;> simp [foldl_mem, foldl_full, apply_ite State.mem, apply_ite State.full]

@[simp] theorem fw5Tick_keepsMem (s : State) (die : Nat) : (fw5Tick s die).mem = s.mem ∧ (fw5Tick s die).full = s.full := by
  unfold fw5Tick
  constructor <;> (try dsimp only) <;> (repeat' split) <;> simp [foldl_mem, foldl_full, apply_ite State.mem, apply_ite State.full]

@[simp] theorem fw5Serve_keepsMem (s : State) : (fw5Serve s).mem = s.mem ∧ (fw5Serve s).full = s.full := by
  unfold fw5Serve
  constructor <;> (try dsimp only) <;> (repeat' split) <;> simp [foldl_mem, foldl_full, apply_ite State.mem, apply_ite State.full]

@[simp] theorem restoreTask_keepsMem (s : State) (x : Nat × Nat × Queue) : (restoreTask s x).mem = s.mem ∧ (restoreTask s x).full = s.full := by
  unfold restoreTask
  constructor <;> (try dsimp only) <;> (repeat' split) <;> simp [foldl_mem, foldl_full, apply_ite State.mem, apply_ite State.full]

@[simp] theorem returned_keepsMem (s : State) (x : Option (List Byte)) : (returned s x).mem = s.mem ∧ (returned s x).full = s.full := by
  unfold returned
  constructor <;> (try dsimp only) <;> (repeat' split) <;> simp [foldl_mem, foldl_full, apply_ite State.mem, apply_ite State.full]

@[simp] theorem modGuest_keepsMem (s : State) (f : GuestPort → GuestPort) : (modGuest s f).mem = s.mem ∧ (modGuest s f).full = s.full := by
  unfold modGuest
  constructor <;> (try dsimp only) <;> (repeat' split) <;> simp [foldl_mem, foldl_full, apply_ite State.mem, apply_ite State.full]

@[simp] theorem modGq_keepsMem (s : State) (q : Fin 64) (f : GuestQueue → GuestQueue) : (modGq s q f).mem = s.mem ∧ (modGq s q f).full = s.full := by
  unfold modGq
  constructor <;> (try dsimp only) <;> (repeat' split) <;> simp [foldl_mem, foldl_full, apply_ite State.mem, apply_ite State.full]

@[simp] theorem dropReq_keepsMem (s : State) (r : GuestReq) : (dropReq s r).mem = s.mem ∧ (dropReq s r).full = s.full := by
  unfold dropReq
  constructor <;> (try dsimp only) <;> (repeat' split) <;> simp [foldl_mem, foldl_full, apply_ite State.mem, apply_ite State.full]

@[simp] theorem discardPacket_keepsMem (s : State) (kind : Nat) (q : Fin 64) (n : BitVec 16) : (discardPacket s kind q n).mem = s.mem ∧ (discardPacket s kind q n).full = s.full := by
  unfold discardPacket
  constructor <;> (try dsimp only) <;> (repeat' split) <;> simp [foldl_mem, foldl_full, apply_ite State.mem, apply_ite State.full]

@[simp] theorem completionMessage_keepsMem (s : State) (r : GuestReq) (status : Word) : (completionMessage s r status).mem = s.mem ∧ (completionMessage s r status).full = s.full := by
  unfold completionMessage
  constructor <;> (try dsimp only) <;> (repeat' split) <;> simp [foldl_mem, foldl_full, apply_ite State.mem, apply_ite State.full]

@[simp] theorem faultReq_keepsMem (s : State) (r : GuestReq) (status : Word) : (faultReq s r status).mem = s.mem ∧ (faultReq s r status).full = s.full := by
  unfold faultReq
  constructor <;> (try dsimp only) <;> (repeat' split) <;> simp [foldl_mem, foldl_full, apply_ite State.mem, apply_ite State.full]

@[simp] theorem answerPreempt_keepsMem (s : State) (kind : Nat) (q : Fin 64) : (answerPreempt s kind q).mem = s.mem ∧ (answerPreempt s kind q).full = s.full := by
  unfold answerPreempt
  constructor <;> (try dsimp only) <;> (repeat' split) <;> simp [foldl_mem, foldl_full, apply_ite State.mem, apply_ite State.full]

@[simp] theorem refuseGuest_keepsMem (s : State) : (refuseGuest s).mem = s.mem ∧ (refuseGuest s).full = s.full := by
  unfold refuseGuest
  constructor <;> (try dsimp only) <;> (repeat' first | split | refine (foldl_mem _ (fun _ _ => ?_) _ _).trans ?_ | refine (foldl_full _ (fun _ _ => ?_) _ _).trans ?_) <;> simp [foldl_mem, foldl_full, apply_ite State.mem, apply_ite State.full]

@[simp] theorem placeRings_keepsMem (s : State) (i : Img) (la core : Nat) (bases : List Nat) : (placeRings s i la core bases).mem = s.mem ∧ (placeRings s i la core bases).full = s.full := by
  unfold placeRings
  constructor <;> (try dsimp only) <;> (repeat' split) <;> simp [foldl_mem, foldl_full, apply_ite State.mem, apply_ite State.full]

@[simp] theorem clearTags_keepsMem (s : State) (core : Nat) : (clearTags s core).mem = s.mem ∧ (clearTags s core).full = s.full := by
  unfold clearTags
  constructor <;> (try dsimp only) <;> (repeat' split) <;> simp [foldl_mem, foldl_full, apply_ite State.mem, apply_ite State.full]

@[simp] theorem dropRequests_keepsMem (s : State) (la h : Nat) : (dropRequests s la h).mem = s.mem ∧ (dropRequests s la h).full = s.full := by
  unfold dropRequests
  constructor <;> (try dsimp only) <;> (repeat' split) <;> simp [foldl_mem, foldl_full, apply_ite State.mem, apply_ite State.full]

@[simp] theorem hostQueue_keepsMem (s : State) (n : Fin 16) (base done size : Nat) : (hostQueue s n base done size).mem = s.mem ∧ (hostQueue s n base done size).full = s.full := by
  unfold hostQueue
  constructor <;> (try dsimp only) <;> (repeat' split) <;> simp [foldl_mem, foldl_full, apply_ite State.mem, apply_ite State.full]

@[simp] theorem configMaps_keepsMem (s : State) (f : Maps → Maps) : (configMaps s f).mem = s.mem ∧ (configMaps s f).full = s.full := by
  unfold configMaps
  constructor <;> (try dsimp only) <;> (repeat' split) <;> simp [foldl_mem, foldl_full, apply_ite State.mem, apply_ite State.full]

@[simp] theorem stubRequest_keepsMem (s : State) (k : CtxKey) (c : Ctx) : (stubRequest s k c).mem = s.mem ∧ (stubRequest s k c).full = s.full := by
  unfold stubRequest
  constructor <;> (try dsimp only) <;> (repeat' split) <;> simp [foldl_mem, foldl_full, apply_ite State.mem, apply_ite State.full]

/-! ### Operations whose parts are pairs or the checks of an order -/

@[simp] theorem allocLine_keepsMem (s : State) (a : Agent) (ln : Nat) : (allocLine s a ln).1.mem = s.mem ∧ (allocLine s a ln).1.full = s.full :=
  have h := allocLine_same s a ln
  ⟨h.2.2.1, h.2.2.2.1⟩

@[simp] theorem l1Store_keepsMem (s : State) (a : Agent) (pa : Nat) (bs : List Byte) :
    (l1Store s a pa bs).mem = s.mem ∧ (l1Store s a pa bs).full = s.full := by simp [l1Store]

@[simp] theorem l1Fill_keepsMem (s : State) (a : Agent) (pa v : Nat) : (l1Fill s a pa v).mem = s.mem ∧ (l1Fill s a pa v).full = s.full := by
  simp [l1Fill]

@[simp] theorem landFill_keepsMem (s : State) (ag : Agent) (w : Who) (id pa v : Nat) :
    (landFill s ag w id pa v).mem = s.mem ∧ (landFill s ag w id pa v).full = s.full := by
  unfold landFill
  split
  · simp
  · simp [apply_ite State.mem, apply_ite State.full]

@[simp] theorem startHostRead_keepsMem (s : State) (sc : Scope) :
    (startHostRead s sc).mem = s.mem ∧ (startHostRead s sc).full = s.full := by
  unfold startHostRead
  dsimp only
  split
  · split
    · rename_i h
      unfold request at h
      split at h <;> cases h
      simp [newId]
    · exact ⟨rfl, rfl⟩
  · exact ⟨rfl, rfl⟩

/-- What a release leaves, where the bundle issues and where it is held. -/
theorem release_mem {s t : State} {sc : Scope} (h : release s sc = .ok t ∨ release s sc = .error (.hold t)) : t.mem = s.mem ∧ t.full = s.full := by
  unfold release at h
  dsimp only at h
  split at h <;> rcases h with h | h <;> cases h <;> simp

/-- The same of a release with an acquire. -/
theorem fenceAr_mem {s t : State} {sc : Scope} (h : fenceAr s sc = .ok t ∨ fenceAr s sc = .error (.hold t)) : t.mem = s.mem ∧ t.full = s.full := by
  unfold fenceAr at h
  rcases hr : release s sc with e | u
  · rw [hr] at h
    rcases h with h | h <;> cases h
    exact release_mem (.inr hr)
  · have hu := release_mem (.inl hr)
    rw [hr] at h
    change acquire u sc = _ ∨ acquire u sc = _ at h
    unfold acquire at h
    split at h <;> rcases h with h | h <;> cases h <;> simp [hu]

@[simp] theorem unwind_keepsMem (s : State) (k : CtxKey) (code : Nat) (tval : Word) (epc : Nat) :
    (unwind s k code tval epc).mem = s.mem ∧ (unwind s k code tval epc).full = s.full := by
  unfold unwind
  dsimp only
  split
  · simp
  · simp only [apply_ite State.mem, apply_ite State.full, queueCause_keepsMem, setCtx_mem, setCtx_full, modDev_mem, modDev_full, ite_self]
    exact ⟨foldl_mem (fun (s : State) (e : CauseEntry) => record s e.code.toNat (agentNo k.agent) [e.tval.toNat]) (fun _ _ => rfl) _ _,
      foldl_full (fun (s : State) (e : CauseEntry) => record s e.code.toNat (agentNo k.agent) [e.tval.toNat]) (fun _ _ => rfl) _ _⟩

/-- A precise cause changes no memory: it is held, unwinds a callee, or enters the handler. -/
@[simp] theorem raisePrecise_keepsMem (f : Form) (s : State) (code : Nat) (tval : Word) :
    (raisePrecise f s code tval).mem = s.mem ∧ (raisePrecise f s code tval).full = s.full := by
  unfold raisePrecise
  dsimp only
  split
  · simp
  · split
    · split
      · have h := fenceAr_mem (.inl ‹_›); simp [h]
      · have h := fenceAr_mem (.inr ‹_›); simp [h]
      · simp
    · simp

/-! ### Operations that write memory keep the canonical form -/

theorem inv_fixFailed {s : State} (a n : Nat) (w : Option Who) (h : State.Inv s) : State.Inv (fixFailed s a n w) := by
  unfold fixFailed
  refine inv_fold _ (fun s f h => ?_) _ h
  dsimp only
  split
  · split
    · exact inv_congr (by simp) (by simp) h
    · have h2 : State.Inv { modDev s fun d => { d with failed := d.failed.filter (· ≠ f) } with mem := writeN s.mem f.1 32 0 } :=
        inv_mem (s := modDev s _) (wf_writeN _ _ _ h.1) h
      cases w with
      | none => exact h2
      | some w => exact inv_congr (by simp) (by simp) h2
  · exact h

theorem inv_homeWrite {s : State} (a : Nat) (bs : List Byte) (kind writer : Nat) (w : Option Who) (alloc : Bool) (h : State.Inv s) :
    State.Inv (homeWrite s a bs kind writer w alloc) :=
  inv_congr (by simp [homeWrite]) (by simp [homeWrite]) (inv_storeMem a bs (inv_fixFailed a bs.length w h))

theorem inv_homeMasked {s : State} (a : Nat) (l : List (Nat × Byte)) (kind writer : Nat) (w : Option Who) (h : State.Inv s) :
    State.Inv (homeMasked s a l kind writer w) :=
  have h1 := inv_fixFailed a l.length w h
  inv_congr (by simp [homeMasked]) (by simp [homeMasked]) (inv_mem (wf_writeMasked l a h1.1) h1)

theorem inv_homeAmo {s : State} (a : Nat) (k : AmoK) (n v e kind writer : Nat) (w : Option Who) (alloc : Bool) (h : State.Inv s) :
    State.Inv (homeAmo s a k n v e kind writer w alloc).2 := inv_homeWrite _ _ _ _ _ _ h

/-- A full/empty operation at its home. -/
theorem inv_fePerform {s : State} (addr : Nat) (op : AOp) (kind writer : Nat) (w : Option Who) (h : State.Inv s) :
    State.Inv (fePerform s addr op kind writer w).2 := by
  have see : State.Inv (seeReleased s addr w) := inv_congr (by simp) (by simp) h
  have un {t : State} (h : State.Inv t) : State.Inv (unreleased t addr) := inv_congr (by simp) (by simp) h
  cases op <;> first
    | exact h
    | exact see
    | exact un (inv_setFe _ _ see)
    | exact un (inv_setFe _ _ h)
    | exact inv_setFe _ _ (inv_homeWrite _ _ _ _ _ _ h)

theorem inv_sendPkt {s : State} (src dst : Node) (vn : Fin 4) (b : Body) (h : State.Inv s) : State.Inv (sendPkt s src dst vn b) :=
  inv_congr (by simp) (by simp) h

theorem inv_sendReply {s : State} (node : Node) (a : Access) (v : Nat) (h : State.Inv s) : State.Inv (sendReply s node a v) :=
  inv_congr (by simp) (by simp) h

theorem inv_modRegion {s : State} (a : Agent) (n : Nat) (f : Region → Region) (h : State.Inv s) : State.Inv (modRegion s a n f) :=
  inv_congr (by simp) (by simp) h

/-- An access at its home, whichever it is. -/
theorem inv_performAccess {s : State} (node : Node) (a : Access) (h : State.Inv s) : State.Inv (performAccess s node a) := by
  have hf (n : Nat) {go : State} (hg : State.Inv go) : State.Inv (match failedIn s a.addr n with
      | some sram => let (v, s) := freshWord s; refuse s node a (failCause sram) v
      | none => go) := by
    split
    · exact inv_congr (by simp) (by simp) h
    · exact hg
  unfold performAccess
  dsimp only
  split
  · exact hf _ (inv_sendReply _ _ _ (inv_congr (by simp) (by simp) h))
  · split
    · exact inv_sendPkt _ _ _ _ (inv_homeWrite _ _ _ _ _ _ h)
    · exact inv_homeWrite _ _ _ _ _ _ h
  · exact hf _ (inv_sendReply _ _ _ (inv_homeAmo _ _ _ _ _ _ _ _ _ h))
  · split <;> exact inv_congr (by simp) (by simp) h
  · exact inv_sendPkt _ _ _ _ (inv_homeMasked _ _ _ _ _ h)
  · exact inv_congr (by simp) (by simp) h
  · exact inv_congr (by simp) (by simp) h
  · exact hf _ (inv_sendReply _ _ _ h)
  · exact hf _ (inv_sendReply _ _ _ (inv_fePerform a.addr .ldc _ _ _ h))
  · exact inv_sendReply _ _ _ (inv_fePerform _ _ _ _ _ h)

theorem inv_engPut {s : State} (x : EngSrc) (a : Nat) (bs : List Byte) (alloc : Bool) (h : State.Inv s) :
    State.Inv (engPut s x a bs alloc) := by
  unfold engPut
  refine inv_fold _ (fun _ _ h => inv_congr (by simp) (by simp) h) _ ?_
  split
  · exact inv_fillWords _ _ (inv_homeWrite _ _ _ _ _ _ h)
  · exact inv_homeWrite _ _ _ _ _ _ h

theorem inv_putWords {s : State} (a kind writer : Nat) (w : Option Who) (data : List Word) (h : State.Inv s) :
    State.Inv (putWords s a kind writer w data) := inv_fillWords _ _ (inv_homeWrite _ _ _ _ _ _ h)

theorem inv_storeSector {s : State} (a : Agent) (pa : Nat) (x : Sector) (h : State.Inv s) : State.Inv (storeSector s a pa x) := by
  unfold storeSector
  split
  · exact inv_homeMasked _ _ _ _ _ (inv_congr (by simp) (by simp) h)
  · exact h

theorem inv_flushLines {s : State} (a : Agent) (p : Nat → Bool) (h : State.Inv s) : State.Inv (flushLines s a p) := by
  unfold flushLines
  dsimp only
  refine inv_congr (modCore_mem _ _ _) (modCore_full _ _ _) ?_
  exact inv_fold _ (fun _ _ h => inv_fold _ (fun _ _ h => inv_storeSector _ _ _ h) _ h) _ h

theorem inv_flushEverywhere {s : State} (p : Nat → Bool) (h : State.Inv s) : State.Inv (flushEverywhere s p) :=
  inv_fold _ (fun _ _ h => inv_flushLines _ _ h) _ h

theorem inv_arenaWrite {s : State} (a w0 w1 : Nat) (h : State.Inv s) : State.Inv (arenaWrite s a w0 w1) := inv_homeWrite _ _ _ _ _ _ h

/-- An arrival written to the input image. -/
theorem inv_writeEntry {s : State} (new : Arrival) (m : MapEntry) (bs : List Byte) (kind : Nat) (h : State.Inv s) :
    State.Inv (writeEntry s new m bs kind) := by
  have hm := wf_writeByte (imageBack + 0x800000 + new.entry / 8)
    (readByte ((imageWrites s new m.imgOff bs).foldl (fun t x => writeByte t (imageBack + x.1) x.2) s.mem) (imageBack + 0x800000 + new.entry / 8)
      ||| BitVec.ofNat 8 (2 ^ (new.entry % 8)))
    (wf_foldl_writeByte (fun x => imageBack + x.1) (·.2) (imageWrites s new m.imgOff bs) h.1)
  unfold writeEntry
  dsimp only
  split <;> exact inv_congr (by simp) (by simp) (inv_mem hm h)

theorem inv_mapPage {s : State} (asid : BitVec 12) (va leaf : Nat) (h : State.Inv s) : State.Inv (mapPage s asid va leaf) := by
  have one (s : State) (e : Nat) (h : State.Inv s) : State.Inv (tableAt s e).2 := by
    unfold tableAt
    dsimp only
    split
    · exact h
    · have ha : State.Inv (allocPage s).2 := ⟨wf_zeroBytes _ _ h.1, h.2.1, h.2.2⟩
      exact inv_homeWrite _ _ _ _ _ _ ha
  have all (n : Nat) : ∀ (s : State) (t : Nat), State.Inv s → State.Inv (tablesDown s va t n).2 := by
    induction n with
    | zero => exact fun _ _ h => h
    | succ n ih => exact fun _ _ h => ih _ _ (one _ _ h)
  exact inv_homeWrite _ _ _ _ _ _ (all 3 _ _ (one _ _ h))

/-! A command's completion is written to its queue's ring, so what ends a launch may write memory. -/

theorem inv_writeDone {s : State} (tag : BitVec 32) (n : Nat) (h : State.Inv s) : State.Inv (writeDone s tag n) := by
  unfold writeDone
  split
  · exact h
  · dsimp only
    exact inv_congr (modDev_mem _ _) (modDev_full _ _) (inv_homeWrite _ _ _ _ _ _ h)

theorem inv_hostDone {s : State} (tag : BitVec 32) (n : Nat) (h : State.Inv s) : State.Inv (hostDone s tag n) :=
  inv_congr (by simp [hostDone]) (by simp [hostDone]) (inv_writeDone tag n h)

theorem inv_finishLaunch {s : State} (l : Launch) (h : State.Inv s) : State.Inv (finishLaunch s l) := by
  unfold finishLaunch
  dsimp only
  split
  · exact inv_hostDone _ _ (inv_congr (by simp) (by simp) h)
  · exact inv_congr (by simp) (by simp) h

theorem inv_placeRegion {s : State} (core n : Nat) (r : RegionRec) (base : Nat) (h : State.Inv s) : State.Inv (placeRegion s core n r base) := by
  unfold placeRegion
  dsimp only
  split
  · exact inv_congr (by simp) (by simp) h
  · exact inv_modRegion _ _ _ (inv_clearRange _ _ h)

/-- A region at its new place after a reshape. -/
theorem inv_putRegion {s : State} (a : Agent) (n : Nat) (r : Region) (img : List Byte × List Nat) (at_ : Option Nat) (h : State.Inv s) :
    State.Inv (putRegion s a n r img at_) := by
  unfold putRegion
  split
  · exact inv_congr (by simp) (by simp) h
  · dsimp only
    split
    · exact inv_modRegion _ _ _ (inv_fold _ (fun _ _ h => inv_setFe _ _ h) _ (inv_storeMem _ _ (inv_clearRange _ _ h)))
    · exact inv_modRegion _ _ _ (inv_clearRange _ _ h)

end Sys2Proof.Laws
end

