-- ==== Sys2Proof/Laws/PerInstr.lean ====
section
/-! SUPPORT. Facts about each instruction as syntax, one lemma per instruction. `Slot`: an instruction names slot 0 or slot 1
of its bundle, and a major of six bits. -/

namespace Sys2Proof.Laws

open Sys2Proof.Machine

/-- Where an instruction stands in its bundle (R27, R34). -/
def Slot.Statement (i : Instr) : Prop := (form i).slot ≤ 1 ∧ (form i).major < 64

theorem Slot.nop : Slot.Statement (.nop) := ⟨Nat.zero_le 1, Nat.mod_lt _ (by decide)⟩
theorem Slot.anop : Slot.Statement (.anop) := ⟨Nat.le_refl 1, Nat.mod_lt _ (by decide)⟩
theorem Slot.hint (x0 x1 x2 x3) : Slot.Statement (.hint x0 x1 x2 x3) := ⟨Nat.zero_le 1, Nat.mod_lt _ (by decide)⟩
theorem Slot.endAct : Slot.Statement (.endAct) := ⟨Nat.zero_le 1, Nat.mod_lt _ (by decide)⟩
theorem Slot.yield : Slot.Statement (.yield) := ⟨Nat.zero_le 1, Nat.mod_lt _ (by decide)⟩
theorem Slot.fenceRel (x0) : Slot.Statement (.fenceRel x0) := ⟨Nat.zero_le 1, Nat.mod_lt _ (by decide)⟩
theorem Slot.fenceAcq (x0) : Slot.Statement (.fenceAcq x0) := ⟨Nat.zero_le 1, Nat.mod_lt _ (by decide)⟩
theorem Slot.fenceAr (x0) : Slot.Statement (.fenceAr x0) := ⟨Nat.zero_le 1, Nat.mod_lt _ (by decide)⟩
theorem Slot.ifence (x0) : Slot.Statement (.ifence x0) := ⟨Nat.zero_le 1, Nat.mod_lt _ (by decide)⟩
theorem Slot.tret : Slot.Statement (.tret) := ⟨Nat.zero_le 1, Nat.mod_lt _ (by decide)⟩
theorem Slot.syscall (x0) : Slot.Statement (.syscall x0) := ⟨Nat.zero_le 1, Nat.mod_lt _ (by decide)⟩
theorem Slot.brk (x0) : Slot.Statement (.brk x0) := ⟨Nat.zero_le 1, Nat.mod_lt _ (by decide)⟩
theorem Slot.snap (x0) : Slot.Statement (.snap x0) := ⟨Nat.zero_le 1, Nat.mod_lt _ (by decide)⟩
theorem Slot.sysr (x0 x1) : Slot.Statement (.sysr x0 x1) := ⟨Nat.zero_le 1, Nat.mod_lt _ (by decide)⟩
theorem Slot.sysw (x0 x1) : Slot.Statement (.sysw x0 x1) := ⟨Nat.zero_le 1, Nat.mod_lt _ (by decide)⟩
theorem Slot.gate (x0 x1) : Slot.Statement (.gate x0 x1) := ⟨Nat.zero_le 1, Nat.mod_lt _ (by decide)⟩
theorem Slot.gret : Slot.Statement (.gret) := ⟨Nat.zero_le 1, Nat.mod_lt _ (by decide)⟩
theorem Slot.slateMin (x0 x1) : Slot.Statement (.slateMin x0 x1) := ⟨Nat.zero_le 1, Nat.mod_lt _ (by decide)⟩
theorem Slot.slateSet (x0 x1) : Slot.Statement (.slateSet x0 x1) := ⟨Nat.zero_le 1, Nat.mod_lt _ (by decide)⟩
theorem Slot.slateRgn (x0 x1) : Slot.Statement (.slateRgn x0 x1) := ⟨Nat.zero_le 1, Nat.mod_lt _ (by decide)⟩
theorem Slot.slateRd (x0) : Slot.Statement (.slateRd x0) := ⟨Nat.zero_le 1, Nat.mod_lt _ (by decide)⟩
theorem Slot.slateFold (x0 x1) : Slot.Statement (.slateFold x0 x1) := ⟨Nat.zero_le 1, Nat.mod_lt _ (by decide)⟩
theorem Slot.slchk (x0 x1) : Slot.Statement (.slchk x0 x1) := ⟨Nat.zero_le 1, Nat.mod_lt _ (by decide)⟩
theorem Slot.slchkTrap (x0 x1) : Slot.Statement (.slchkTrap x0 x1) := ⟨Nat.zero_le 1, Nat.mod_lt _ (by decide)⟩
theorem Slot.time (x0) : Slot.Statement (.time x0) := ⟨Nat.zero_le 1, Nat.mod_lt _ (by decide)⟩
theorem Slot.timeSinceClapper (x0) : Slot.Statement (.timeSinceClapper x0) := ⟨Nat.zero_le 1, Nat.mod_lt _ (by decide)⟩
theorem Slot.timeToEgress (x0) : Slot.Statement (.timeToEgress x0) := ⟨Nat.zero_le 1, Nat.mod_lt _ (by decide)⟩
theorem Slot.kill (x0 x1) : Slot.Statement (.kill x0 x1) := ⟨Nat.zero_le 1, Nat.mod_lt _ (by decide)⟩
theorem Slot.invpg (x0 x1 x2) : Slot.Statement (.invpg x0 x1 x2) := ⟨Nat.zero_le 1, Nat.mod_lt _ (by decide)⟩
theorem Slot.add (x0 x1 x2) : Slot.Statement (.add x0 x1 x2) := ⟨Nat.zero_le 1, Nat.mod_lt _ (by decide)⟩
theorem Slot.sub (x0 x1 x2) : Slot.Statement (.sub x0 x1 x2) := ⟨Nat.zero_le 1, Nat.mod_lt _ (by decide)⟩
theorem Slot.and (x0 x1 x2) : Slot.Statement (.and x0 x1 x2) := ⟨Nat.zero_le 1, Nat.mod_lt _ (by decide)⟩
theorem Slot.or (x0 x1 x2) : Slot.Statement (.or x0 x1 x2) := ⟨Nat.zero_le 1, Nat.mod_lt _ (by decide)⟩
theorem Slot.xor (x0 x1 x2) : Slot.Statement (.xor x0 x1 x2) := ⟨Nat.zero_le 1, Nat.mod_lt _ (by decide)⟩
theorem Slot.shl (x0 x1 x2) : Slot.Statement (.shl x0 x1 x2) := ⟨Nat.zero_le 1, Nat.mod_lt _ (by decide)⟩
theorem Slot.shr (x0 x1 x2) : Slot.Statement (.shr x0 x1 x2) := ⟨Nat.zero_le 1, Nat.mod_lt _ (by decide)⟩
theorem Slot.sra (x0 x1 x2) : Slot.Statement (.sra x0 x1 x2) := ⟨Nat.zero_le 1, Nat.mod_lt _ (by decide)⟩
theorem Slot.rotl (x0 x1 x2) : Slot.Statement (.rotl x0 x1 x2) := ⟨Nat.zero_le 1, Nat.mod_lt _ (by decide)⟩
theorem Slot.mul (x0 x1 x2) : Slot.Statement (.mul x0 x1 x2) := ⟨Nat.zero_le 1, Nat.mod_lt _ (by decide)⟩
theorem Slot.mulh (x0 x1 x2) : Slot.Statement (.mulh x0 x1 x2) := ⟨Nat.zero_le 1, Nat.mod_lt _ (by decide)⟩
theorem Slot.mulhu (x0 x1 x2) : Slot.Statement (.mulhu x0 x1 x2) := ⟨Nat.zero_le 1, Nat.mod_lt _ (by decide)⟩
theorem Slot.div (x0 x1 x2) : Slot.Statement (.div x0 x1 x2) := ⟨Nat.zero_le 1, Nat.mod_lt _ (by decide)⟩
theorem Slot.divu (x0 x1 x2) : Slot.Statement (.divu x0 x1 x2) := ⟨Nat.zero_le 1, Nat.mod_lt _ (by decide)⟩
theorem Slot.rem (x0 x1 x2) : Slot.Statement (.rem x0 x1 x2) := ⟨Nat.zero_le 1, Nat.mod_lt _ (by decide)⟩
theorem Slot.remu (x0 x1 x2) : Slot.Statement (.remu x0 x1 x2) := ⟨Nat.zero_le 1, Nat.mod_lt _ (by decide)⟩
theorem Slot.min (x0 x1 x2) : Slot.Statement (.min x0 x1 x2) := ⟨Nat.zero_le 1, Nat.mod_lt _ (by decide)⟩
theorem Slot.max (x0 x1 x2) : Slot.Statement (.max x0 x1 x2) := ⟨Nat.zero_le 1, Nat.mod_lt _ (by decide)⟩
theorem Slot.minu (x0 x1 x2) : Slot.Statement (.minu x0 x1 x2) := ⟨Nat.zero_le 1, Nat.mod_lt _ (by decide)⟩
theorem Slot.maxu (x0 x1 x2) : Slot.Statement (.maxu x0 x1 x2) := ⟨Nat.zero_le 1, Nat.mod_lt _ (by decide)⟩
theorem Slot.slt (x0 x1 x2) : Slot.Statement (.slt x0 x1 x2) := ⟨Nat.zero_le 1, Nat.mod_lt _ (by decide)⟩
theorem Slot.sltu (x0 x1 x2) : Slot.Statement (.sltu x0 x1 x2) := ⟨Nat.zero_le 1, Nat.mod_lt _ (by decide)⟩
theorem Slot.clz (x0 x1) : Slot.Statement (.clz x0 x1) := ⟨Nat.zero_le 1, Nat.mod_lt _ (by decide)⟩
theorem Slot.ctz (x0 x1) : Slot.Statement (.ctz x0 x1) := ⟨Nat.zero_le 1, Nat.mod_lt _ (by decide)⟩
theorem Slot.popc (x0 x1) : Slot.Statement (.popc x0 x1) := ⟨Nat.zero_le 1, Nat.mod_lt _ (by decide)⟩
theorem Slot.bswap (x0 x1) : Slot.Statement (.bswap x0 x1) := ⟨Nat.zero_le 1, Nat.mod_lt _ (by decide)⟩
theorem Slot.sextb (x0 x1) : Slot.Statement (.sextb x0 x1) := ⟨Nat.zero_le 1, Nat.mod_lt _ (by decide)⟩
theorem Slot.sexth (x0 x1) : Slot.Statement (.sexth x0 x1) := ⟨Nat.zero_le 1, Nat.mod_lt _ (by decide)⟩
theorem Slot.sextw (x0 x1) : Slot.Statement (.sextw x0 x1) := ⟨Nat.zero_le 1, Nat.mod_lt _ (by decide)⟩
theorem Slot.zextb (x0 x1) : Slot.Statement (.zextb x0 x1) := ⟨Nat.zero_le 1, Nat.mod_lt _ (by decide)⟩
theorem Slot.zexth (x0 x1) : Slot.Statement (.zexth x0 x1) := ⟨Nat.zero_le 1, Nat.mod_lt _ (by decide)⟩
theorem Slot.zextw (x0 x1) : Slot.Statement (.zextw x0 x1) := ⟨Nat.zero_le 1, Nat.mod_lt _ (by decide)⟩
theorem Slot.sel (x0 x1 x2) : Slot.Statement (.sel x0 x1 x2) := ⟨Nat.zero_le 1, Nat.mod_lt _ (by decide)⟩
theorem Slot.addi (x0 x1 x2) : Slot.Statement (.addi x0 x1 x2) := ⟨Nat.zero_le 1, Nat.mod_lt _ (by decide)⟩
theorem Slot.addiLong (x0 x1 x2) : Slot.Statement (.addiLong x0 x1 x2) := ⟨Nat.zero_le 1, Nat.mod_lt _ (by decide)⟩
theorem Slot.andi (x0 x1 x2) : Slot.Statement (.andi x0 x1 x2) := ⟨Nat.zero_le 1, Nat.mod_lt _ (by decide)⟩
theorem Slot.andiLong (x0 x1 x2) : Slot.Statement (.andiLong x0 x1 x2) := ⟨Nat.zero_le 1, Nat.mod_lt _ (by decide)⟩
theorem Slot.ori (x0 x1 x2) : Slot.Statement (.ori x0 x1 x2) := ⟨Nat.zero_le 1, Nat.mod_lt _ (by decide)⟩
theorem Slot.oriLong (x0 x1 x2) : Slot.Statement (.oriLong x0 x1 x2) := ⟨Nat.zero_le 1, Nat.mod_lt _ (by decide)⟩
theorem Slot.xori (x0 x1 x2) : Slot.Statement (.xori x0 x1 x2) := ⟨Nat.zero_le 1, Nat.mod_lt _ (by decide)⟩
theorem Slot.xoriLong (x0 x1 x2) : Slot.Statement (.xoriLong x0 x1 x2) := ⟨Nat.zero_le 1, Nat.mod_lt _ (by decide)⟩
theorem Slot.slti (x0 x1 x2) : Slot.Statement (.slti x0 x1 x2) := ⟨Nat.zero_le 1, Nat.mod_lt _ (by decide)⟩
theorem Slot.sltiLong (x0 x1 x2) : Slot.Statement (.sltiLong x0 x1 x2) := ⟨Nat.zero_le 1, Nat.mod_lt _ (by decide)⟩
theorem Slot.sltiu (x0 x1 x2) : Slot.Statement (.sltiu x0 x1 x2) := ⟨Nat.zero_le 1, Nat.mod_lt _ (by decide)⟩
theorem Slot.sltiuLong (x0 x1 x2) : Slot.Statement (.sltiuLong x0 x1 x2) := ⟨Nat.zero_le 1, Nat.mod_lt _ (by decide)⟩
theorem Slot.shli (x0 x1 x2) : Slot.Statement (.shli x0 x1 x2) := ⟨Nat.zero_le 1, Nat.mod_lt _ (by decide)⟩
theorem Slot.shliLong (x0 x1 x2) : Slot.Statement (.shliLong x0 x1 x2) := ⟨Nat.zero_le 1, Nat.mod_lt _ (by decide)⟩
theorem Slot.shri (x0 x1 x2) : Slot.Statement (.shri x0 x1 x2) := ⟨Nat.zero_le 1, Nat.mod_lt _ (by decide)⟩
theorem Slot.shriLong (x0 x1 x2) : Slot.Statement (.shriLong x0 x1 x2) := ⟨Nat.zero_le 1, Nat.mod_lt _ (by decide)⟩
theorem Slot.srai (x0 x1 x2) : Slot.Statement (.srai x0 x1 x2) := ⟨Nat.zero_le 1, Nat.mod_lt _ (by decide)⟩
theorem Slot.sraiLong (x0 x1 x2) : Slot.Statement (.sraiLong x0 x1 x2) := ⟨Nat.zero_le 1, Nat.mod_lt _ (by decide)⟩
theorem Slot.rotli (x0 x1 x2) : Slot.Statement (.rotli x0 x1 x2) := ⟨Nat.zero_le 1, Nat.mod_lt _ (by decide)⟩
theorem Slot.rotliLong (x0 x1 x2) : Slot.Statement (.rotliLong x0 x1 x2) := ⟨Nat.zero_le 1, Nat.mod_lt _ (by decide)⟩
theorem Slot.movhi (x0 x1) : Slot.Statement (.movhi x0 x1) := ⟨Nat.zero_le 1, Nat.mod_lt _ (by decide)⟩
theorem Slot.leaScale1 (x0 x1 x2) : Slot.Statement (.leaScale1 x0 x1 x2) := ⟨Nat.zero_le 1, Nat.mod_lt _ (by decide)⟩
theorem Slot.leaScale2 (x0 x1 x2) : Slot.Statement (.leaScale2 x0 x1 x2) := ⟨Nat.zero_le 1, Nat.mod_lt _ (by decide)⟩
theorem Slot.leaScale4 (x0 x1 x2) : Slot.Statement (.leaScale4 x0 x1 x2) := ⟨Nat.zero_le 1, Nat.mod_lt _ (by decide)⟩
theorem Slot.leaScale8 (x0 x1 x2) : Slot.Statement (.leaScale8 x0 x1 x2) := ⟨Nat.zero_le 1, Nat.mod_lt _ (by decide)⟩
theorem Slot.gaddr (x0 x1 x2) : Slot.Statement (.gaddr x0 x1 x2) := ⟨Nat.zero_le 1, Nat.mod_lt _ (by decide)⟩
theorem Slot.beq (x0 x1 x2) : Slot.Statement (.beq x0 x1 x2) := ⟨Nat.zero_le 1, Nat.mod_lt _ (by decide)⟩
theorem Slot.beqLong (x0 x1 x2) : Slot.Statement (.beqLong x0 x1 x2) := ⟨Nat.zero_le 1, Nat.mod_lt _ (by decide)⟩
theorem Slot.bne (x0 x1 x2) : Slot.Statement (.bne x0 x1 x2) := ⟨Nat.zero_le 1, Nat.mod_lt _ (by decide)⟩
theorem Slot.bneLong (x0 x1 x2) : Slot.Statement (.bneLong x0 x1 x2) := ⟨Nat.zero_le 1, Nat.mod_lt _ (by decide)⟩
theorem Slot.blt (x0 x1 x2) : Slot.Statement (.blt x0 x1 x2) := ⟨Nat.zero_le 1, Nat.mod_lt _ (by decide)⟩
theorem Slot.bltLong (x0 x1 x2) : Slot.Statement (.bltLong x0 x1 x2) := ⟨Nat.zero_le 1, Nat.mod_lt _ (by decide)⟩
theorem Slot.bge (x0 x1 x2) : Slot.Statement (.bge x0 x1 x2) := ⟨Nat.zero_le 1, Nat.mod_lt _ (by decide)⟩
theorem Slot.bgeLong (x0 x1 x2) : Slot.Statement (.bgeLong x0 x1 x2) := ⟨Nat.zero_le 1, Nat.mod_lt _ (by decide)⟩
theorem Slot.bltu (x0 x1 x2) : Slot.Statement (.bltu x0 x1 x2) := ⟨Nat.zero_le 1, Nat.mod_lt _ (by decide)⟩
theorem Slot.bltuLong (x0 x1 x2) : Slot.Statement (.bltuLong x0 x1 x2) := ⟨Nat.zero_le 1, Nat.mod_lt _ (by decide)⟩
theorem Slot.bgeu (x0 x1 x2) : Slot.Statement (.bgeu x0 x1 x2) := ⟨Nat.zero_le 1, Nat.mod_lt _ (by decide)⟩
theorem Slot.bgeuLong (x0 x1 x2) : Slot.Statement (.bgeuLong x0 x1 x2) := ⟨Nat.zero_le 1, Nat.mod_lt _ (by decide)⟩
theorem Slot.jal (x0 x1) : Slot.Statement (.jal x0 x1) := ⟨Nat.zero_le 1, Nat.mod_lt _ (by decide)⟩
theorem Slot.jalLong (x0 x1) : Slot.Statement (.jalLong x0 x1) := ⟨Nat.zero_le 1, Nat.mod_lt _ (by decide)⟩
theorem Slot.jalr (x0 x1 x2) : Slot.Statement (.jalr x0 x1 x2) := ⟨Nat.zero_le 1, Nat.mod_lt _ (by decide)⟩
theorem Slot.jalrLong (x0 x1 x2) : Slot.Statement (.jalrLong x0 x1 x2) := ⟨Nat.zero_le 1, Nat.mod_lt _ (by decide)⟩
theorem Slot.rand (x0 x1 x2) : Slot.Statement (.rand x0 x1 x2) := ⟨Nat.zero_le 1, Nat.mod_lt _ (by decide)⟩
theorem Slot.cvtfx (x0 x1 x2) : Slot.Statement (.cvtfx x0 x1 x2) := ⟨Nat.zero_le 1, Nat.mod_lt _ (by decide)⟩
theorem Slot.cvtxf (x0 x1 x2) : Slot.Statement (.cvtxf x0 x1 x2) := ⟨Nat.zero_le 1, Nat.mod_lt _ (by decide)⟩
theorem Slot.ldb (x0 x1 x2) : Slot.Statement (.ldb x0 x1 x2) := ⟨Nat.zero_le 1, Nat.mod_lt _ (by decide)⟩
theorem Slot.ldbLong (x0 x1 x2) : Slot.Statement (.ldbLong x0 x1 x2) := ⟨Nat.zero_le 1, Nat.mod_lt _ (by decide)⟩
theorem Slot.ldh (x0 x1 x2) : Slot.Statement (.ldh x0 x1 x2) := ⟨Nat.zero_le 1, Nat.mod_lt _ (by decide)⟩
theorem Slot.ldhLong (x0 x1 x2) : Slot.Statement (.ldhLong x0 x1 x2) := ⟨Nat.zero_le 1, Nat.mod_lt _ (by decide)⟩
theorem Slot.ldw (x0 x1 x2) : Slot.Statement (.ldw x0 x1 x2) := ⟨Nat.zero_le 1, Nat.mod_lt _ (by decide)⟩
theorem Slot.ldwLong (x0 x1 x2) : Slot.Statement (.ldwLong x0 x1 x2) := ⟨Nat.zero_le 1, Nat.mod_lt _ (by decide)⟩
theorem Slot.ldd (x0 x1 x2) : Slot.Statement (.ldd x0 x1 x2) := ⟨Nat.zero_le 1, Nat.mod_lt _ (by decide)⟩
theorem Slot.lddLong (x0 x1 x2) : Slot.Statement (.lddLong x0 x1 x2) := ⟨Nat.zero_le 1, Nat.mod_lt _ (by decide)⟩
theorem Slot.ldbu (x0 x1 x2) : Slot.Statement (.ldbu x0 x1 x2) := ⟨Nat.zero_le 1, Nat.mod_lt _ (by decide)⟩
theorem Slot.ldbuLong (x0 x1 x2) : Slot.Statement (.ldbuLong x0 x1 x2) := ⟨Nat.zero_le 1, Nat.mod_lt _ (by decide)⟩
theorem Slot.ldhu (x0 x1 x2) : Slot.Statement (.ldhu x0 x1 x2) := ⟨Nat.zero_le 1, Nat.mod_lt _ (by decide)⟩
theorem Slot.ldhuLong (x0 x1 x2) : Slot.Statement (.ldhuLong x0 x1 x2) := ⟨Nat.zero_le 1, Nat.mod_lt _ (by decide)⟩
theorem Slot.ldwu (x0 x1 x2) : Slot.Statement (.ldwu x0 x1 x2) := ⟨Nat.zero_le 1, Nat.mod_lt _ (by decide)⟩
theorem Slot.ldwuLong (x0 x1 x2) : Slot.Statement (.ldwuLong x0 x1 x2) := ⟨Nat.zero_le 1, Nat.mod_lt _ (by decide)⟩
theorem Slot.ldq (x0 x1 x2) : Slot.Statement (.ldq x0 x1 x2) := ⟨Nat.zero_le 1, Nat.mod_lt _ (by decide)⟩
theorem Slot.ldqLong (x0 x1 x2) : Slot.Statement (.ldqLong x0 x1 x2) := ⟨Nat.zero_le 1, Nat.mod_lt _ (by decide)⟩
theorem Slot.stb (x0 x1 x2) : Slot.Statement (.stb x0 x1 x2) := ⟨Nat.zero_le 1, Nat.mod_lt _ (by decide)⟩
theorem Slot.stbLong (x0 x1 x2) : Slot.Statement (.stbLong x0 x1 x2) := ⟨Nat.zero_le 1, Nat.mod_lt _ (by decide)⟩
theorem Slot.sth (x0 x1 x2) : Slot.Statement (.sth x0 x1 x2) := ⟨Nat.zero_le 1, Nat.mod_lt _ (by decide)⟩
theorem Slot.sthLong (x0 x1 x2) : Slot.Statement (.sthLong x0 x1 x2) := ⟨Nat.zero_le 1, Nat.mod_lt _ (by decide)⟩
theorem Slot.stw (x0 x1 x2) : Slot.Statement (.stw x0 x1 x2) := ⟨Nat.zero_le 1, Nat.mod_lt _ (by decide)⟩
theorem Slot.stwLong (x0 x1 x2) : Slot.Statement (.stwLong x0 x1 x2) := ⟨Nat.zero_le 1, Nat.mod_lt _ (by decide)⟩
theorem Slot.std (x0 x1 x2) : Slot.Statement (.std x0 x1 x2) := ⟨Nat.zero_le 1, Nat.mod_lt _ (by decide)⟩
theorem Slot.stdLong (x0 x1 x2) : Slot.Statement (.stdLong x0 x1 x2) := ⟨Nat.zero_le 1, Nat.mod_lt _ (by decide)⟩
theorem Slot.stq (x0 x1 x2) : Slot.Statement (.stq x0 x1 x2) := ⟨Nat.zero_le 1, Nat.mod_lt _ (by decide)⟩
theorem Slot.stqLong (x0 x1 x2) : Slot.Statement (.stqLong x0 x1 x2) := ⟨Nat.zero_le 1, Nat.mod_lt _ (by decide)⟩
theorem Slot.ldf (x0 x1 x2) : Slot.Statement (.ldf x0 x1 x2) := ⟨Nat.zero_le 1, Nat.mod_lt _ (by decide)⟩
theorem Slot.ldfLong (x0 x1 x2) : Slot.Statement (.ldfLong x0 x1 x2) := ⟨Nat.zero_le 1, Nat.mod_lt _ (by decide)⟩
theorem Slot.ldc (x0 x1 x2) : Slot.Statement (.ldc x0 x1 x2) := ⟨Nat.zero_le 1, Nat.mod_lt _ (by decide)⟩
theorem Slot.ldcLong (x0 x1 x2) : Slot.Statement (.ldcLong x0 x1 x2) := ⟨Nat.zero_le 1, Nat.mod_lt _ (by decide)⟩
theorem Slot.stf (x0 x1 x2) : Slot.Statement (.stf x0 x1 x2) := ⟨Nat.zero_le 1, Nat.mod_lt _ (by decide)⟩
theorem Slot.stfLong (x0 x1 x2) : Slot.Statement (.stfLong x0 x1 x2) := ⟨Nat.zero_le 1, Nat.mod_lt _ (by decide)⟩
theorem Slot.stfo (x0 x1 x2) : Slot.Statement (.stfo x0 x1 x2) := ⟨Nat.zero_le 1, Nat.mod_lt _ (by decide)⟩
theorem Slot.stfoLong (x0 x1 x2) : Slot.Statement (.stfoLong x0 x1 x2) := ⟨Nat.zero_le 1, Nat.mod_lt _ (by decide)⟩
theorem Slot.empty (x0 x1) : Slot.Statement (.empty x0 x1) := ⟨Nat.zero_le 1, Nat.mod_lt _ (by decide)⟩
theorem Slot.emptyLong (x0 x1) : Slot.Statement (.emptyLong x0 x1) := ⟨Nat.zero_le 1, Nat.mod_lt _ (by decide)⟩
theorem Slot.feq (x0 x1 x2) : Slot.Statement (.feq x0 x1 x2) := ⟨Nat.zero_le 1, Nat.mod_lt _ (by decide)⟩
theorem Slot.feqLong (x0 x1 x2) : Slot.Statement (.feqLong x0 x1 x2) := ⟨Nat.zero_le 1, Nat.mod_lt _ (by decide)⟩
theorem Slot.feWaitDone (x0 x1) : Slot.Statement (.feWaitDone x0 x1) := ⟨Nat.zero_le 1, Nat.mod_lt _ (by decide)⟩
theorem Slot.vld (x0 x1 x2) : Slot.Statement (.vld x0 x1 x2) := ⟨Nat.zero_le 1, Nat.mod_lt _ (by decide)⟩
theorem Slot.vldLong (x0 x1 x2) : Slot.Statement (.vldLong x0 x1 x2) := ⟨Nat.zero_le 1, Nat.mod_lt _ (by decide)⟩
theorem Slot.vst (x0 x1 x2) : Slot.Statement (.vst x0 x1 x2) := ⟨Nat.zero_le 1, Nat.mod_lt _ (by decide)⟩
theorem Slot.vstLong (x0 x1 x2) : Slot.Statement (.vstLong x0 x1 x2) := ⟨Nat.zero_le 1, Nat.mod_lt _ (by decide)⟩
theorem Slot.vlds (x0 x1 x2 x3) : Slot.Statement (.vlds x0 x1 x2 x3) := ⟨Nat.zero_le 1, Nat.mod_lt _ (by decide)⟩
theorem Slot.vldsLong (x0 x1 x2 x3) : Slot.Statement (.vldsLong x0 x1 x2 x3) := ⟨Nat.zero_le 1, Nat.mod_lt _ (by decide)⟩
theorem Slot.vsts (x0 x1 x2 x3) : Slot.Statement (.vsts x0 x1 x2 x3) := ⟨Nat.zero_le 1, Nat.mod_lt _ (by decide)⟩
theorem Slot.vstsLong (x0 x1 x2 x3) : Slot.Statement (.vstsLong x0 x1 x2 x3) := ⟨Nat.zero_le 1, Nat.mod_lt _ (by decide)⟩
theorem Slot.vgath (x0 x1 x2 x3) : Slot.Statement (.vgath x0 x1 x2 x3) := ⟨Nat.zero_le 1, Nat.mod_lt _ (by decide)⟩
theorem Slot.vgathLong (x0 x1 x2 x3) : Slot.Statement (.vgathLong x0 x1 x2 x3) := ⟨Nat.zero_le 1, Nat.mod_lt _ (by decide)⟩
theorem Slot.vscat (x0 x1 x2 x3) : Slot.Statement (.vscat x0 x1 x2 x3) := ⟨Nat.zero_le 1, Nat.mod_lt _ (by decide)⟩
theorem Slot.vscatLong (x0 x1 x2 x3) : Slot.Statement (.vscatLong x0 x1 x2 x3) := ⟨Nat.zero_le 1, Nat.mod_lt _ (by decide)⟩
theorem Slot.amoadd (x0 x1 x2 x3) : Slot.Statement (.amoadd x0 x1 x2 x3) := ⟨Nat.zero_le 1, Nat.mod_lt _ (by decide)⟩
theorem Slot.amoand (x0 x1 x2 x3) : Slot.Statement (.amoand x0 x1 x2 x3) := ⟨Nat.zero_le 1, Nat.mod_lt _ (by decide)⟩
theorem Slot.amoor (x0 x1 x2 x3) : Slot.Statement (.amoor x0 x1 x2 x3) := ⟨Nat.zero_le 1, Nat.mod_lt _ (by decide)⟩
theorem Slot.amoxor (x0 x1 x2 x3) : Slot.Statement (.amoxor x0 x1 x2 x3) := ⟨Nat.zero_le 1, Nat.mod_lt _ (by decide)⟩
theorem Slot.amomin (x0 x1 x2 x3) : Slot.Statement (.amomin x0 x1 x2 x3) := ⟨Nat.zero_le 1, Nat.mod_lt _ (by decide)⟩
theorem Slot.amomax (x0 x1 x2 x3) : Slot.Statement (.amomax x0 x1 x2 x3) := ⟨Nat.zero_le 1, Nat.mod_lt _ (by decide)⟩
theorem Slot.amominu (x0 x1 x2 x3) : Slot.Statement (.amominu x0 x1 x2 x3) := ⟨Nat.zero_le 1, Nat.mod_lt _ (by decide)⟩
theorem Slot.amomaxu (x0 x1 x2 x3) : Slot.Statement (.amomaxu x0 x1 x2 x3) := ⟨Nat.zero_le 1, Nat.mod_lt _ (by decide)⟩
theorem Slot.amoswap (x0 x1 x2 x3) : Slot.Statement (.amoswap x0 x1 x2 x3) := ⟨Nat.zero_le 1, Nat.mod_lt _ (by decide)⟩
theorem Slot.amocas (x0 x1 x2 x3) : Slot.Statement (.amocas x0 x1 x2 x3) := ⟨Nat.zero_le 1, Nat.mod_lt _ (by decide)⟩
theorem Slot.pref (x0 x1) : Slot.Statement (.pref x0 x1) := ⟨Nat.zero_le 1, Nat.mod_lt _ (by decide)⟩
theorem Slot.prefLong (x0 x1) : Slot.Statement (.prefLong x0 x1) := ⟨Nat.zero_le 1, Nat.mod_lt _ (by decide)⟩
theorem Slot.cwb (x0 x1) : Slot.Statement (.cwb x0 x1) := ⟨Nat.zero_le 1, Nat.mod_lt _ (by decide)⟩
theorem Slot.cwbLong (x0 x1) : Slot.Statement (.cwbLong x0 x1) := ⟨Nat.zero_le 1, Nat.mod_lt _ (by decide)⟩
theorem Slot.cinv (x0 x1) : Slot.Statement (.cinv x0 x1) := ⟨Nat.zero_le 1, Nat.mod_lt _ (by decide)⟩
theorem Slot.cinvLong (x0 x1) : Slot.Statement (.cinvLong x0 x1) := ⟨Nat.zero_le 1, Nat.mod_lt _ (by decide)⟩
theorem Slot.cwbinv (x0 x1) : Slot.Statement (.cwbinv x0 x1) := ⟨Nat.zero_le 1, Nat.mod_lt _ (by decide)⟩
theorem Slot.cwbinvLong (x0 x1) : Slot.Statement (.cwbinvLong x0 x1) := ⟨Nat.zero_le 1, Nat.mod_lt _ (by decide)⟩
theorem Slot.cwbL2 (x0 x1) : Slot.Statement (.cwbL2 x0 x1) := ⟨Nat.zero_le 1, Nat.mod_lt _ (by decide)⟩
theorem Slot.cwbL2Long (x0 x1) : Slot.Statement (.cwbL2Long x0 x1) := ⟨Nat.zero_le 1, Nat.mod_lt _ (by decide)⟩
theorem Slot.vadd (x0 x1 x2 x3 x4) : Slot.Statement (.vadd x0 x1 x2 x3 x4) := ⟨Nat.le_refl 1, Nat.mod_lt _ (by decide)⟩
theorem Slot.vsub (x0 x1 x2 x3 x4) : Slot.Statement (.vsub x0 x1 x2 x3 x4) := ⟨Nat.le_refl 1, Nat.mod_lt _ (by decide)⟩
theorem Slot.vmul (x0 x1 x2 x3 x4) : Slot.Statement (.vmul x0 x1 x2 x3 x4) := ⟨Nat.le_refl 1, Nat.mod_lt _ (by decide)⟩
theorem Slot.vmin (x0 x1 x2 x3) : Slot.Statement (.vmin x0 x1 x2 x3) := ⟨Nat.le_refl 1, Nat.mod_lt _ (by decide)⟩
theorem Slot.vmax (x0 x1 x2 x3) : Slot.Statement (.vmax x0 x1 x2 x3) := ⟨Nat.le_refl 1, Nat.mod_lt _ (by decide)⟩
theorem Slot.vabs (x0 x1 x2) : Slot.Statement (.vabs x0 x1 x2) := ⟨Nat.le_refl 1, Nat.mod_lt _ (by decide)⟩
theorem Slot.vneg (x0 x1 x2) : Slot.Statement (.vneg x0 x1 x2) := ⟨Nat.le_refl 1, Nat.mod_lt _ (by decide)⟩
theorem Slot.vdiv (x0 x1 x2 x3 x4) : Slot.Statement (.vdiv x0 x1 x2 x3 x4) := ⟨Nat.le_refl 1, Nat.mod_lt _ (by decide)⟩
theorem Slot.vsqrt (x0 x1 x2 x3) : Slot.Statement (.vsqrt x0 x1 x2 x3) := ⟨Nat.le_refl 1, Nat.mod_lt _ (by decide)⟩
theorem Slot.vfma (x0 x1 x2 x3) : Slot.Statement (.vfma x0 x1 x2 x3) := ⟨Nat.le_refl 1, Nat.mod_lt _ (by decide)⟩
theorem Slot.vfms (x0 x1 x2 x3) : Slot.Statement (.vfms x0 x1 x2 x3) := ⟨Nat.le_refl 1, Nat.mod_lt _ (by decide)⟩
theorem Slot.vfnma (x0 x1 x2 x3) : Slot.Statement (.vfnma x0 x1 x2 x3) := ⟨Nat.le_refl 1, Nat.mod_lt _ (by decide)⟩
theorem Slot.vfnms (x0 x1 x2 x3) : Slot.Statement (.vfnms x0 x1 x2 x3) := ⟨Nat.le_refl 1, Nat.mod_lt _ (by decide)⟩
theorem Slot.vaddI (x0 x1 x2) : Slot.Statement (.vaddI x0 x1 x2) := ⟨Nat.le_refl 1, Nat.mod_lt _ (by decide)⟩
theorem Slot.vsubI (x0 x1 x2) : Slot.Statement (.vsubI x0 x1 x2) := ⟨Nat.le_refl 1, Nat.mod_lt _ (by decide)⟩
theorem Slot.vmulI (x0 x1 x2) : Slot.Statement (.vmulI x0 x1 x2) := ⟨Nat.le_refl 1, Nat.mod_lt _ (by decide)⟩
theorem Slot.vmulhI (x0 x1 x2) : Slot.Statement (.vmulhI x0 x1 x2) := ⟨Nat.le_refl 1, Nat.mod_lt _ (by decide)⟩
theorem Slot.vand (x0 x1 x2) : Slot.Statement (.vand x0 x1 x2) := ⟨Nat.le_refl 1, Nat.mod_lt _ (by decide)⟩
theorem Slot.vor (x0 x1 x2) : Slot.Statement (.vor x0 x1 x2) := ⟨Nat.le_refl 1, Nat.mod_lt _ (by decide)⟩
theorem Slot.vxor (x0 x1 x2) : Slot.Statement (.vxor x0 x1 x2) := ⟨Nat.le_refl 1, Nat.mod_lt _ (by decide)⟩
theorem Slot.vshl (x0 x1 x2) : Slot.Statement (.vshl x0 x1 x2) := ⟨Nat.le_refl 1, Nat.mod_lt _ (by decide)⟩
theorem Slot.vshr (x0 x1 x2) : Slot.Statement (.vshr x0 x1 x2) := ⟨Nat.le_refl 1, Nat.mod_lt _ (by decide)⟩
theorem Slot.vsra (x0 x1 x2) : Slot.Statement (.vsra x0 x1 x2) := ⟨Nat.le_refl 1, Nat.mod_lt _ (by decide)⟩
theorem Slot.vminI (x0 x1 x2) : Slot.Statement (.vminI x0 x1 x2) := ⟨Nat.le_refl 1, Nat.mod_lt _ (by decide)⟩
theorem Slot.vmaxI (x0 x1 x2) : Slot.Statement (.vmaxI x0 x1 x2) := ⟨Nat.le_refl 1, Nat.mod_lt _ (by decide)⟩
theorem Slot.vminuI (x0 x1 x2) : Slot.Statement (.vminuI x0 x1 x2) := ⟨Nat.le_refl 1, Nat.mod_lt _ (by decide)⟩
theorem Slot.vmaxuI (x0 x1 x2) : Slot.Statement (.vmaxuI x0 x1 x2) := ⟨Nat.le_refl 1, Nat.mod_lt _ (by decide)⟩
theorem Slot.vdot4I8 (x0 x1 x2) : Slot.Statement (.vdot4I8 x0 x1 x2) := ⟨Nat.le_refl 1, Nat.mod_lt _ (by decide)⟩
theorem Slot.vcmp (x0 x1 x2 x3 x4) : Slot.Statement (.vcmp x0 x1 x2 x3 x4) := ⟨Nat.le_refl 1, Nat.mod_lt _ (by decide)⟩
theorem Slot.vsel (x0 x1 x2) : Slot.Statement (.vsel x0 x1 x2) := ⟨Nat.le_refl 1, Nat.mod_lt _ (by decide)⟩
theorem Slot.mand (x0 x1 x2) : Slot.Statement (.mand x0 x1 x2) := ⟨Nat.le_refl 1, Nat.mod_lt _ (by decide)⟩
theorem Slot.mor (x0 x1 x2) : Slot.Statement (.mor x0 x1 x2) := ⟨Nat.le_refl 1, Nat.mod_lt _ (by decide)⟩
theorem Slot.mxor (x0 x1 x2) : Slot.Statement (.mxor x0 x1 x2) := ⟨Nat.le_refl 1, Nat.mod_lt _ (by decide)⟩
theorem Slot.mnot (x0 x1) : Slot.Statement (.mnot x0 x1) := ⟨Nat.le_refl 1, Nat.mod_lt _ (by decide)⟩
theorem Slot.mmov (x0 x1) : Slot.Statement (.mmov x0 x1) := ⟨Nat.le_refl 1, Nat.mod_lt _ (by decide)⟩
theorem Slot.mset (x0 x1) : Slot.Statement (.mset x0 x1) := ⟨Nat.le_refl 1, Nat.mod_lt _ (by decide)⟩
theorem Slot.mpopc (x0 x1) : Slot.Statement (.mpopc x0 x1) := ⟨Nat.le_refl 1, Nat.mod_lt _ (by decide)⟩
theorem Slot.vrcp (x0 x1) : Slot.Statement (.vrcp x0 x1) := ⟨Nat.le_refl 1, Nat.mod_lt _ (by decide)⟩
theorem Slot.vrsq (x0 x1) : Slot.Statement (.vrsq x0 x1) := ⟨Nat.le_refl 1, Nat.mod_lt _ (by decide)⟩
theorem Slot.vexp2 (x0 x1) : Slot.Statement (.vexp2 x0 x1) := ⟨Nat.le_refl 1, Nat.mod_lt _ (by decide)⟩
theorem Slot.vlog2 (x0 x1) : Slot.Statement (.vlog2 x0 x1) := ⟨Nat.le_refl 1, Nat.mod_lt _ (by decide)⟩
theorem Slot.vtanh (x0 x1) : Slot.Statement (.vtanh x0 x1) := ⟨Nat.le_refl 1, Nat.mod_lt _ (by decide)⟩
theorem Slot.vsigm (x0 x1) : Slot.Statement (.vsigm x0 x1) := ⟨Nat.le_refl 1, Nat.mod_lt _ (by decide)⟩
theorem Slot.vcvt (x0 x1 x2) : Slot.Statement (.vcvt x0 x1 x2) := ⟨Nat.le_refl 1, Nat.mod_lt _ (by decide)⟩
theorem Slot.vcvtSr (x0 x1 x2 x3) : Slot.Statement (.vcvtSr x0 x1 x2 x3) := ⟨Nat.le_refl 1, Nat.mod_lt _ (by decide)⟩
theorem Slot.vrand (x0 x1 x2) : Slot.Statement (.vrand x0 x1 x2) := ⟨Nat.le_refl 1, Nat.mod_lt _ (by decide)⟩
theorem Slot.vmov (x0 x1) : Slot.Statement (.vmov x0 x1) := ⟨Nat.le_refl 1, Nat.mod_lt _ (by decide)⟩
theorem Slot.vbcast (x0 x1) : Slot.Statement (.vbcast x0 x1) := ⟨Nat.le_refl 1, Nat.mod_lt _ (by decide)⟩
theorem Slot.vext (x0 x1 x2) : Slot.Statement (.vext x0 x1 x2) := ⟨Nat.le_refl 1, Nat.mod_lt _ (by decide)⟩
theorem Slot.vins (x0 x1 x2) : Slot.Statement (.vins x0 x1 x2) := ⟨Nat.le_refl 1, Nat.mod_lt _ (by decide)⟩
theorem Slot.vperm (x0 x1 x2) : Slot.Statement (.vperm x0 x1 x2) := ⟨Nat.le_refl 1, Nat.mod_lt _ (by decide)⟩
theorem Slot.vred (x0 x1 x2) : Slot.Statement (.vred x0 x1 x2) := ⟨Nat.le_refl 1, Nat.mod_lt _ (by decide)⟩
theorem Slot.vscan (x0 x1 x2) : Slot.Statement (.vscan x0 x1 x2) := ⟨Nat.le_refl 1, Nat.mod_lt _ (by decide)⟩
theorem Slot.vseq (x0 x1) : Slot.Statement (.vseq x0 x1) := ⟨Nat.le_refl 1, Nat.mod_lt _ (by decide)⟩
theorem Slot.vseqS (x0 x1) : Slot.Statement (.vseqS x0 x1) := ⟨Nat.le_refl 1, Nat.mod_lt _ (by decide)⟩
theorem Slot.vseqStop (x0) : Slot.Statement (.vseqStop x0) := ⟨Nat.le_refl 1, Nat.mod_lt _ (by decide)⟩
theorem Slot.sequencerReplayStep (x0) : Slot.Statement (.sequencerReplayStep x0) := ⟨Nat.zero_le 1, Nat.mod_lt _ (by decide)⟩
theorem Slot.send (x0 x1 x2) : Slot.Statement (.send x0 x1 x2) := ⟨Nat.zero_le 1, Nat.mod_lt _ (by decide)⟩
theorem Slot.sendq (x0 x1 x2) : Slot.Statement (.sendq x0 x1 x2) := ⟨Nat.zero_le 1, Nat.mod_lt _ (by decide)⟩
theorem Slot.sendr (x0 x1 x2) : Slot.Statement (.sendr x0 x1 x2) := ⟨Nat.zero_le 1, Nat.mod_lt _ (by decide)⟩
theorem Slot.reply (x0 x1) : Slot.Statement (.reply x0 x1) := ⟨Nat.zero_le 1, Nat.mod_lt _ (by decide)⟩
theorem Slot.replyQ (x0 x1) : Slot.Statement (.replyQ x0 x1) := ⟨Nat.zero_le 1, Nat.mod_lt _ (by decide)⟩
theorem Slot.cut (x0) : Slot.Statement (.cut x0) := ⟨Nat.zero_le 1, Nat.mod_lt _ (by decide)⟩
theorem Slot.putn (x0 x1 x2 x3) : Slot.Statement (.putn x0 x1 x2 x3) := ⟨Nat.zero_le 1, Nat.mod_lt _ (by decide)⟩
theorem Slot.getr (x0 x1 x2) : Slot.Statement (.getr x0 x1 x2) := ⟨Nat.zero_le 1, Nat.mod_lt _ (by decide)⟩
theorem Slot.getrArm (x0) : Slot.Statement (.getrArm x0) := ⟨Nat.zero_le 1, Nat.mod_lt _ (by decide)⟩
theorem Slot.getrDis (x0) : Slot.Statement (.getrDis x0) := ⟨Nat.zero_le 1, Nat.mod_lt _ (by decide)⟩
theorem Slot.qpop (x0 x1 x2) : Slot.Statement (.qpop x0 x1 x2) := ⟨Nat.zero_le 1, Nat.mod_lt _ (by decide)⟩
theorem Slot.qpeek (x0 x1 x2) : Slot.Statement (.qpeek x0 x1 x2) := ⟨Nat.zero_le 1, Nat.mod_lt _ (by decide)⟩
theorem Slot.qstat (x0 x1) : Slot.Statement (.qstat x0 x1) := ⟨Nat.zero_le 1, Nat.mod_lt _ (by decide)⟩
theorem Slot.qstatClr (x0 x1) : Slot.Statement (.qstatClr x0 x1) := ⟨Nat.zero_le 1, Nat.mod_lt _ (by decide)⟩
theorem Slot.spawn (x0 x1 x2 x3) : Slot.Statement (.spawn x0 x1 x2 x3) := ⟨Nat.zero_le 1, Nat.mod_lt _ (by decide)⟩
theorem Slot.forkR (x0 x1 x2 x3) : Slot.Statement (.forkR x0 x1 x2 x3) := ⟨Nat.zero_le 1, Nat.mod_lt _ (by decide)⟩
theorem Slot.join (x0 x1 x2) : Slot.Statement (.join x0 x1 x2) := ⟨Nat.zero_le 1, Nat.mod_lt _ (by decide)⟩
theorem Slot.joinOpen (x0 x1 x2) : Slot.Statement (.joinOpen x0 x1 x2) := ⟨Nat.zero_le 1, Nat.mod_lt _ (by decide)⟩
theorem Slot.joinSeal (x0 x1) : Slot.Statement (.joinSeal x0 x1) := ⟨Nat.zero_le 1, Nat.mod_lt _ (by decide)⟩
theorem Slot.joinWait (x0 x1) : Slot.Statement (.joinWait x0 x1) := ⟨Nat.zero_le 1, Nat.mod_lt _ (by decide)⟩
theorem Slot.budgetAct (x0 x1) : Slot.Statement (.budgetAct x0 x1) := ⟨Nat.zero_le 1, Nat.mod_lt _ (by decide)⟩
theorem Slot.budgetTake (x0 x1) : Slot.Statement (.budgetTake x0 x1) := ⟨Nat.zero_le 1, Nat.mod_lt _ (by decide)⟩
theorem Slot.barInit (x0 x1) : Slot.Statement (.barInit x0 x1) := ⟨Nat.zero_le 1, Nat.mod_lt _ (by decide)⟩
theorem Slot.barArr (x0 x1 x2) : Slot.Statement (.barArr x0 x1 x2) := ⟨Nat.zero_le 1, Nat.mod_lt _ (by decide)⟩
theorem Slot.barWait (x0 x1 x2) : Slot.Statement (.barWait x0 x1 x2) := ⟨Nat.zero_le 1, Nat.mod_lt _ (by decide)⟩
theorem Slot.barArw (x0 x1 x2) : Slot.Statement (.barArw x0 x1 x2) := ⟨Nat.zero_le 1, Nat.mod_lt _ (by decide)⟩
theorem Slot.barTx (x0 x1) : Slot.Statement (.barTx x0 x1) := ⟨Nat.zero_le 1, Nat.mod_lt _ (by decide)⟩
theorem Slot.barQry (x0 x1) : Slot.Statement (.barQry x0 x1) := ⟨Nat.zero_le 1, Nat.mod_lt _ (by decide)⟩
theorem Slot.ringWaitf (x0 x1 x2) : Slot.Statement (.ringWaitf x0 x1 x2) := ⟨Nat.zero_le 1, Nat.mod_lt _ (by decide)⟩
theorem Slot.ringWaite (x0 x1 x2) : Slot.Statement (.ringWaite x0 x1 x2) := ⟨Nat.zero_le 1, Nat.mod_lt _ (by decide)⟩
theorem Slot.ringAdvp (x0 x1) : Slot.Statement (.ringAdvp x0 x1) := ⟨Nat.zero_le 1, Nat.mod_lt _ (by decide)⟩
theorem Slot.ringAdvc (x0 x1) : Slot.Statement (.ringAdvc x0 x1) := ⟨Nat.zero_le 1, Nat.mod_lt _ (by decide)⟩
theorem Slot.ringQry (x0 x1) : Slot.Statement (.ringQry x0 x1) := ⟨Nat.zero_le 1, Nat.mod_lt _ (by decide)⟩
theorem Slot.grpMem (x0 x1) : Slot.Statement (.grpMem x0 x1) := ⟨Nat.zero_le 1, Nat.mod_lt _ (by decide)⟩
theorem Slot.red (x0 x1 x2 x3) : Slot.Statement (.red x0 x1 x2 x3) := ⟨Nat.zero_le 1, Nat.mod_lt _ (by decide)⟩
theorem Slot.scan (x0 x1 x2 x3) : Slot.Statement (.scan x0 x1 x2 x3) := ⟨Nat.zero_le 1, Nat.mod_lt _ (by decide)⟩
theorem Slot.bcast (x0 x1 x2) : Slot.Statement (.bcast x0 x1 x2) := ⟨Nat.zero_le 1, Nat.mod_lt _ (by decide)⟩
theorem Slot.treeWait (x0 x1) : Slot.Statement (.treeWait x0 x1) := ⟨Nat.zero_le 1, Nat.mod_lt _ (by decide)⟩
theorem Slot.poolSet (x0 x1) : Slot.Statement (.poolSet x0 x1) := ⟨Nat.zero_le 1, Nat.mod_lt _ (by decide)⟩
theorem Slot.poolQry (x0 x1) : Slot.Statement (.poolQry x0 x1) := ⟨Nat.zero_le 1, Nat.mod_lt _ (by decide)⟩
theorem Slot.poolPin (x0 x1) : Slot.Statement (.poolPin x0 x1) := ⟨Nat.zero_le 1, Nat.mod_lt _ (by decide)⟩
theorem Slot.poolUnpin (x0 x1) : Slot.Statement (.poolUnpin x0 x1) := ⟨Nat.zero_le 1, Nat.mod_lt _ (by decide)⟩
theorem Slot.cpy (x0 x1 x2) : Slot.Statement (.cpy x0 x1 x2) := ⟨Nat.zero_le 1, Nat.mod_lt _ (by decide)⟩
theorem Slot.cpyCancel (x0 x1) : Slot.Statement (.cpyCancel x0 x1) := ⟨Nat.zero_le 1, Nat.mod_lt _ (by decide)⟩
theorem Slot.cpyStat (x0 x1 x2) : Slot.Statement (.cpyStat x0 x1 x2) := ⟨Nat.zero_le 1, Nat.mod_lt _ (by decide)⟩
theorem Slot.scfg (x0 x1 x2 x3 x4) : Slot.Statement (.scfg x0 x1 x2 x3 x4) := ⟨Nat.zero_le 1, Nat.mod_lt _ (by decide)⟩
theorem Slot.sclose (x0) : Slot.Statement (.sclose x0) := ⟨Nat.zero_le 1, Nat.mod_lt _ (by decide)⟩
theorem Slot.sstat (x0 x1) : Slot.Statement (.sstat x0 x1) := ⟨Nat.zero_le 1, Nat.mod_lt _ (by decide)⟩
theorem Slot.ldm (x0 x1 x2) : Slot.Statement (.ldm x0 x1 x2) := ⟨Nat.zero_le 1, Nat.mod_lt _ (by decide)⟩
theorem Slot.stm (x0 x1 x2) : Slot.Statement (.stm x0 x1 x2) := ⟨Nat.zero_le 1, Nat.mod_lt _ (by decide)⟩
theorem Slot.vdotI8 (x0 x1 x2) : Slot.Statement (.vdotI8 x0 x1 x2) := ⟨Nat.zero_le 1, Nat.mod_lt _ (by decide)⟩
theorem Slot.maca (x0 x1 x2) : Slot.Statement (.maca x0 x1 x2) := ⟨Nat.zero_le 1, Nat.mod_lt _ (by decide)⟩
theorem Slot.cvtMx (x0 x1 x2 x3) : Slot.Statement (.cvtMx x0 x1 x2 x3) := ⟨Nat.zero_le 1, Nat.mod_lt _ (by decide)⟩
theorem Slot.cvtUnmx (x0 x1 x2 x3) : Slot.Statement (.cvtUnmx x0 x1 x2 x3) := ⟨Nat.zero_le 1, Nat.mod_lt _ (by decide)⟩
theorem Slot.rescaleMx (x0 x1 x2 x3) : Slot.Statement (.rescaleMx x0 x1 x2 x3) := ⟨Nat.zero_le 1, Nat.mod_lt _ (by decide)⟩
theorem Slot.transp (x0 x1 x2 x3) : Slot.Statement (.transp x0 x1 x2 x3) := ⟨Nat.zero_le 1, Nat.mod_lt _ (by decide)⟩
theorem Slot.convOpStart (x0) : Slot.Statement (.convOpStart x0) := ⟨Nat.zero_le 1, Nat.mod_lt _ (by decide)⟩
theorem Slot.convOpComplete (x0) : Slot.Statement (.convOpComplete x0) := ⟨Nat.zero_le 1, Nat.mod_lt _ (by decide)⟩
theorem Slot.mma (x0 x1 x2 x3) : Slot.Statement (.mma x0 x1 x2 x3) := ⟨Nat.zero_le 1, Nat.mod_lt _ (by decide)⟩
theorem Slot.mmaG (x0 x1 x2 x3) : Slot.Statement (.mmaG x0 x1 x2 x3) := ⟨Nat.zero_le 1, Nat.mod_lt _ (by decide)⟩
theorem Slot.mmrot (x0 x1 x2 x3) : Slot.Statement (.mmrot x0 x1 x2 x3) := ⟨Nat.zero_le 1, Nat.mod_lt _ (by decide)⟩
theorem Slot.accClr (x0) : Slot.Statement (.accClr x0) := ⟨Nat.le_refl 1, Nat.mod_lt _ (by decide)⟩
theorem Slot.accAnch (x0 x1) : Slot.Statement (.accAnch x0 x1) := ⟨Nat.le_refl 1, Nat.mod_lt _ (by decide)⟩
theorem Slot.accRd (x0 x1 x2 x3) : Slot.Statement (.accRd x0 x1 x2 x3) := ⟨Nat.zero_le 1, Nat.mod_lt _ (by decide)⟩
theorem Slot.accWr (x0 x1 x2) : Slot.Statement (.accWr x0 x1 x2) := ⟨Nat.zero_le 1, Nat.mod_lt _ (by decide)⟩
theorem Slot.accStat (x0 x1) : Slot.Statement (.accStat x0 x1) := ⟨Nat.le_refl 1, Nat.mod_lt _ (by decide)⟩
theorem Slot.matrixOpStart (x0 x1) : Slot.Statement (.matrixOpStart x0 x1) := ⟨Nat.zero_le 1, Nat.mod_lt _ (by decide)⟩
theorem Slot.matrixOpComplete (x0 x1) : Slot.Statement (.matrixOpComplete x0 x1) := ⟨Nat.zero_le 1, Nat.mod_lt _ (by decide)⟩
theorem Slot.mmrotForward (x0 x1) : Slot.Statement (.mmrotForward x0 x1) := ⟨Nat.zero_le 1, Nat.mod_lt _ (by decide)⟩
theorem Slot.linkCfg (x0 x1) : Slot.Statement (.linkCfg x0 x1) := ⟨Nat.le_refl 1, Nat.mod_lt _ (by decide)⟩
theorem Slot.linkStat (x0) : Slot.Statement (.linkStat x0) := ⟨Nat.le_refl 1, Nat.mod_lt _ (by decide)⟩
theorem Slot.linkVectorArrival (x0) : Slot.Statement (.linkVectorArrival x0) := ⟨Nat.zero_le 1, Nat.mod_lt _ (by decide)⟩
theorem Slot.streamFetch (x0 x1) : Slot.Statement (.streamFetch x0 x1) := ⟨Nat.zero_le 1, Nat.mod_lt _ (by decide)⟩
theorem Slot.streamDrain (x0 x1) : Slot.Statement (.streamDrain x0 x1) := ⟨Nat.zero_le 1, Nat.mod_lt _ (by decide)⟩
theorem Slot.trapEntry (x0 x1 x2) : Slot.Statement (.trapEntry x0 x1 x2) := ⟨Nat.zero_le 1, Nat.mod_lt _ (by decide)⟩
theorem Slot.asyncCauseDelivery (x0) : Slot.Statement (.asyncCauseDelivery x0) := ⟨Nat.zero_le 1, Nat.mod_lt _ (by decide)⟩
theorem Slot.copyCompletionInterrupt (x0) : Slot.Statement (.copyCompletionInterrupt x0) := ⟨Nat.zero_le 1, Nat.mod_lt _ (by decide)⟩
theorem Slot.singleStep (x0) : Slot.Statement (.singleStep x0) := ⟨Nat.zero_le 1, Nat.mod_lt _ (by decide)⟩
theorem Slot.gateUnwind (x0 x1 x2) : Slot.Statement (.gateUnwind x0 x1 x2) := ⟨Nat.zero_le 1, Nat.mod_lt _ (by decide)⟩
theorem Slot.activationStart (x0) : Slot.Statement (.activationStart x0) := ⟨Nat.zero_le 1, Nat.mod_lt _ (by decide)⟩
theorem Slot.contextLoad (x0) : Slot.Statement (.contextLoad x0) := ⟨Nat.zero_le 1, Nat.mod_lt _ (by decide)⟩
theorem Slot.contextWriteback (x0) : Slot.Statement (.contextWriteback x0) := ⟨Nat.zero_le 1, Nat.mod_lt _ (by decide)⟩
theorem Slot.activationBudgetExpiry (x0) : Slot.Statement (.activationBudgetExpiry x0) := ⟨Nat.zero_le 1, Nat.mod_lt _ (by decide)⟩
theorem Slot.budgetGraceExpiry (x0) : Slot.Statement (.budgetGraceExpiry x0) := ⟨Nat.zero_le 1, Nat.mod_lt _ (by decide)⟩
theorem Slot.deadlockSuspected (x0) : Slot.Statement (.deadlockSuspected x0) := ⟨Nat.zero_le 1, Nat.mod_lt _ (by decide)⟩
theorem Slot.takeBudgetSpent (x0 x1) : Slot.Statement (.takeBudgetSpent x0 x1) := ⟨Nat.zero_le 1, Nat.mod_lt _ (by decide)⟩
theorem Slot.slotExhaustion (x0) : Slot.Statement (.slotExhaustion x0) := ⟨Nat.zero_le 1, Nat.mod_lt _ (by decide)⟩
theorem Slot.spilledContextReturn (x0) : Slot.Statement (.spilledContextReturn x0) := ⟨Nat.zero_le 1, Nat.mod_lt _ (by decide)⟩
theorem Slot.absentContextMessage (x0) : Slot.Statement (.absentContextMessage x0) := ⟨Nat.zero_le 1, Nat.mod_lt _ (by decide)⟩
theorem Slot.quiesceAck (x0) : Slot.Statement (.quiesceAck x0) := ⟨Nat.zero_le 1, Nat.mod_lt _ (by decide)⟩
theorem Slot.spawnArrival (x0) : Slot.Statement (.spawnArrival x0) := ⟨Nat.zero_le 1, Nat.mod_lt _ (by decide)⟩
theorem Slot.spawnRetry (x0) : Slot.Statement (.spawnRetry x0) := ⟨Nat.zero_le 1, Nat.mod_lt _ (by decide)⟩
theorem Slot.joinArrival (x0) : Slot.Statement (.joinArrival x0) := ⟨Nat.zero_le 1, Nat.mod_lt _ (by decide)⟩
theorem Slot.depositArrival (x0) : Slot.Statement (.depositArrival x0) := ⟨Nat.zero_le 1, Nat.mod_lt _ (by decide)⟩
theorem Slot.depositLanding (x0 x1) : Slot.Statement (.depositLanding x0 x1) := ⟨Nat.zero_le 1, Nat.mod_lt _ (by decide)⟩
theorem Slot.parkedReturn (x0) : Slot.Statement (.parkedReturn x0) := ⟨Nat.zero_le 1, Nat.mod_lt _ (by decide)⟩
theorem Slot.messageArrival (x0) : Slot.Statement (.messageArrival x0) := ⟨Nat.zero_le 1, Nat.mod_lt _ (by decide)⟩
theorem Slot.replyArrival (x0) : Slot.Statement (.replyArrival x0) := ⟨Nat.zero_le 1, Nat.mod_lt _ (by decide)⟩
theorem Slot.remoteAccessArrival (x0) : Slot.Statement (.remoteAccessArrival x0) := ⟨Nat.zero_le 1, Nat.mod_lt _ (by decide)⟩
theorem Slot.accessReplyArrival (x0) : Slot.Statement (.accessReplyArrival x0) := ⟨Nat.zero_le 1, Nat.mod_lt _ (by decide)⟩
theorem Slot.storeAckArrival (x0) : Slot.Statement (.storeAckArrival x0) := ⟨Nat.zero_le 1, Nat.mod_lt _ (by decide)⟩
theorem Slot.refusalArrival (x0) : Slot.Statement (.refusalArrival x0) := ⟨Nat.zero_le 1, Nat.mod_lt _ (by decide)⟩
theorem Slot.journalTimeout (x0 x1) : Slot.Statement (.journalTimeout x0 x1) := ⟨Nat.zero_le 1, Nat.mod_lt _ (by decide)⟩
theorem Slot.linkReroute (x0 x1 x2) : Slot.Statement (.linkReroute x0 x1 x2) := ⟨Nat.zero_le 1, Nat.mod_lt _ (by decide)⟩
theorem Slot.barrierEvent (x0) : Slot.Statement (.barrierEvent x0) := ⟨Nat.zero_le 1, Nat.mod_lt _ (by decide)⟩
theorem Slot.barrierHoldRetry (x0) : Slot.Statement (.barrierHoldRetry x0) := ⟨Nat.zero_le 1, Nat.mod_lt _ (by decide)⟩
theorem Slot.ringOperationAtOwner (x0 x1) : Slot.Statement (.ringOperationAtOwner x0 x1) := ⟨Nat.zero_le 1, Nat.mod_lt _ (by decide)⟩
theorem Slot.treeResult (x0 x1) : Slot.Statement (.treeResult x0 x1) := ⟨Nat.zero_le 1, Nat.mod_lt _ (by decide)⟩
theorem Slot.reshapeComplete (x0) : Slot.Statement (.reshapeComplete x0) := ⟨Nat.zero_le 1, Nat.mod_lt _ (by decide)⟩
theorem Slot.copyTransferStart (x0) : Slot.Statement (.copyTransferStart x0) := ⟨Nat.zero_le 1, Nat.mod_lt _ (by decide)⟩
theorem Slot.copyTransferDone (x0) : Slot.Statement (.copyTransferDone x0) := ⟨Nat.zero_le 1, Nat.mod_lt _ (by decide)⟩
theorem Slot.copyTransferFault (x0) : Slot.Statement (.copyTransferFault x0) := ⟨Nat.zero_le 1, Nat.mod_lt _ (by decide)⟩
theorem Slot.clapper (x0) : Slot.Statement (.clapper x0) := ⟨Nat.zero_le 1, Nat.mod_lt _ (by decide)⟩
theorem Slot.egressSwap (x0) : Slot.Statement (.egressSwap x0) := ⟨Nat.zero_le 1, Nat.mod_lt _ (by decide)⟩
theorem Slot.frameTransmit (x0) : Slot.Statement (.frameTransmit x0) := ⟨Nat.zero_le 1, Nat.mod_lt _ (by decide)⟩
theorem Slot.frameIngress (x0) : Slot.Statement (.frameIngress x0) := ⟨Nat.zero_le 1, Nat.mod_lt _ (by decide)⟩
theorem Slot.callSheetEntryFire (x0) : Slot.Statement (.callSheetEntryFire x0) := ⟨Nat.zero_le 1, Nat.mod_lt _ (by decide)⟩
theorem Slot.oneShotFire (x0 x1) : Slot.Statement (.oneShotFire x0 x1) := ⟨Nat.zero_le 1, Nat.mod_lt _ (by decide)⟩
theorem Slot.heartbeatSend : Slot.Statement (.heartbeatSend) := ⟨Nat.zero_le 1, Nat.mod_lt _ (by decide)⟩
theorem Slot.heartbeatArrival (x0 x1 x2) : Slot.Statement (.heartbeatArrival x0 x1 x2) := ⟨Nat.zero_le 1, Nat.mod_lt _ (by decide)⟩
theorem Slot.heartbeatMiss : Slot.Statement (.heartbeatMiss) := ⟨Nat.zero_le 1, Nat.mod_lt _ (by decide)⟩
theorem Slot.mirrorWrite (x0 x1 x2) : Slot.Statement (.mirrorWrite x0 x1 x2) := ⟨Nat.zero_le 1, Nat.mod_lt _ (by decide)⟩
theorem Slot.mirrorMarkerSend : Slot.Statement (.mirrorMarkerSend) := ⟨Nat.zero_le 1, Nat.mod_lt _ (by decide)⟩
theorem Slot.unreconciledTake : Slot.Statement (.unreconciledTake) := ⟨Nat.zero_le 1, Nat.mod_lt _ (by decide)⟩
theorem Slot.takeDigestSend : Slot.Statement (.takeDigestSend) := ⟨Nat.zero_le 1, Nat.mod_lt _ (by decide)⟩
theorem Slot.takeDigestArrival (x0 x1) : Slot.Statement (.takeDigestArrival x0 x1) := ⟨Nat.zero_le 1, Nat.mod_lt _ (by decide)⟩
theorem Slot.digestTimeout : Slot.Statement (.digestTimeout) := ⟨Nat.zero_le 1, Nat.mod_lt _ (by decide)⟩
theorem Slot.pairForm (x0) : Slot.Statement (.pairForm x0) := ⟨Nat.zero_le 1, Nat.mod_lt _ (by decide)⟩
theorem Slot.guestSubmit (x0) : Slot.Statement (.guestSubmit x0) := ⟨Nat.zero_le 1, Nat.mod_lt _ (by decide)⟩
theorem Slot.guestCompletion (x0 x1 x2) : Slot.Statement (.guestCompletion x0 x1 x2) := ⟨Nat.zero_le 1, Nat.mod_lt _ (by decide)⟩
theorem Slot.guestFault (x0 x1 x2) : Slot.Statement (.guestFault x0 x1 x2) := ⟨Nat.zero_le 1, Nat.mod_lt _ (by decide)⟩
theorem Slot.guestDrained (x0) : Slot.Statement (.guestDrained x0) := ⟨Nat.zero_le 1, Nat.mod_lt _ (by decide)⟩
theorem Slot.guestSaved (x0) : Slot.Statement (.guestSaved x0) := ⟨Nat.zero_le 1, Nat.mod_lt _ (by decide)⟩
theorem Slot.guestAccess (x0 x1) : Slot.Statement (.guestAccess x0 x1) := ⟨Nat.zero_le 1, Nat.mod_lt _ (by decide)⟩
theorem Slot.guestRequestTimeout (x0 x1) : Slot.Statement (.guestRequestTimeout x0 x1) := ⟨Nat.zero_le 1, Nat.mod_lt _ (by decide)⟩
theorem Slot.guestPreemptRequest (x0) : Slot.Statement (.guestPreemptRequest x0) := ⟨Nat.zero_le 1, Nat.mod_lt _ (by decide)⟩
theorem Slot.guestPreemptTimeout (x0) : Slot.Statement (.guestPreemptTimeout x0) := ⟨Nat.zero_le 1, Nat.mod_lt _ (by decide)⟩
theorem Slot.hostDoorbell (x0) : Slot.Statement (.hostDoorbell x0) := ⟨Nat.zero_le 1, Nat.mod_lt _ (by decide)⟩
theorem Slot.launch (x0 x1) : Slot.Statement (.launch x0 x1) := ⟨Nat.zero_le 1, Nat.mod_lt _ (by decide)⟩
theorem Slot.activeMessage (x0 x1 x2 x3 x4 x5) : Slot.Statement (.activeMessage x0 x1 x2 x3 x4 x5) := ⟨Nat.zero_le 1, Nat.mod_lt _ (by decide)⟩
theorem Slot.loadCallSheet (x0 x1 x2 x3) : Slot.Statement (.loadCallSheet x0 x1 x2 x3) := ⟨Nat.zero_le 1, Nat.mod_lt _ (by decide)⟩
theorem Slot.releaseQueue (x0 x1 x2) : Slot.Statement (.releaseQueue x0 x1 x2) := ⟨Nat.zero_le 1, Nat.mod_lt _ (by decide)⟩
theorem Slot.endLaunch (x0 x1) : Slot.Statement (.endLaunch x0 x1) := ⟨Nat.zero_le 1, Nat.mod_lt _ (by decide)⟩
theorem Slot.loadImageMaps (x0 x1 x2) : Slot.Statement (.loadImageMaps x0 x1 x2) := ⟨Nat.zero_le 1, Nat.mod_lt _ (by decide)⟩
theorem Slot.openAperture (x0 x1 x2) : Slot.Statement (.openAperture x0 x1 x2) := ⟨Nat.zero_le 1, Nat.mod_lt _ (by decide)⟩
theorem Slot.claimOwnership (x0 x1) : Slot.Statement (.claimOwnership x0 x1) := ⟨Nat.zero_le 1, Nat.mod_lt _ (by decide)⟩
theorem Slot.transferOwnership (x0 x1) : Slot.Statement (.transferOwnership x0 x1) := ⟨Nat.zero_le 1, Nat.mod_lt _ (by decide)⟩
theorem Slot.advanceVersion (x0 x1 x2) : Slot.Statement (.advanceVersion x0 x1 x2) := ⟨Nat.zero_le 1, Nat.mod_lt _ (by decide)⟩
theorem Slot.attestationQuote (x0 x1 x2) : Slot.Statement (.attestationQuote x0 x1 x2) := ⟨Nat.zero_le 1, Nat.mod_lt _ (by decide)⟩
theorem Slot.storeImage (x0 x1 x2) : Slot.Statement (.storeImage x0 x1 x2) := ⟨Nat.zero_le 1, Nat.mod_lt _ (by decide)⟩
theorem Slot.splitDomain (x0 x1 x2 x3 x4) : Slot.Statement (.splitDomain x0 x1 x2 x3 x4) := ⟨Nat.zero_le 1, Nat.mod_lt _ (by decide)⟩
theorem Slot.hostApertureAccess (x0) : Slot.Statement (.hostApertureAccess x0) := ⟨Nat.zero_le 1, Nat.mod_lt _ (by decide)⟩
theorem Slot.hashmaskWrite (x0 x1) : Slot.Statement (.hashmaskWrite x0 x1) := ⟨Nat.zero_le 1, Nat.mod_lt _ (by decide)⟩
theorem Slot.domselWrite (x0 x1) : Slot.Statement (.domselWrite x0 x1) := ⟨Nat.zero_le 1, Nat.mod_lt _ (by decide)⟩
theorem Slot.l2ctlWrite (x0) : Slot.Statement (.l2ctlWrite x0) := ⟨Nat.zero_le 1, Nat.mod_lt _ (by decide)⟩
theorem Slot.domainSwitchApply : Slot.Statement (.domainSwitchApply) := ⟨Nat.zero_le 1, Nat.mod_lt _ (by decide)⟩
theorem Slot.losingSliceSignal : Slot.Statement (.losingSliceSignal) := ⟨Nat.zero_le 1, Nat.mod_lt _ (by decide)⟩
theorem Slot.domainSwitchEnd : Slot.Statement (.domainSwitchEnd) := ⟨Nat.zero_le 1, Nat.mod_lt _ (by decide)⟩
theorem Slot.domstatRead : Slot.Statement (.domstatRead) := ⟨Nat.zero_le 1, Nat.mod_lt _ (by decide)⟩
theorem Slot.pageMigration (x0 x1 x2) : Slot.Statement (.pageMigration x0 x1 x2) := ⟨Nat.zero_le 1, Nat.mod_lt _ (by decide)⟩
theorem Slot.invpgAck (x0) : Slot.Statement (.invpgAck x0) := ⟨Nat.zero_le 1, Nat.mod_lt _ (by decide)⟩
theorem Slot.uncorrectableError (x0 x1 x2) : Slot.Statement (.uncorrectableError x0 x1 x2) := ⟨Nat.zero_le 1, Nat.mod_lt _ (by decide)⟩
theorem Slot.tileRetire (x0 x1) : Slot.Statement (.tileRetire x0 x1) := ⟨Nat.zero_le 1, Nat.mod_lt _ (by decide)⟩
theorem Slot.watchpointTrigger (x0 x1 x2 x3 x4) : Slot.Statement (.watchpointTrigger x0 x1 x2 x3 x4) := ⟨Nat.zero_le 1, Nat.mod_lt _ (by decide)⟩
theorem Slot.wpctlWrite (x0 x1 x2) : Slot.Statement (.wpctlWrite x0 x1 x2) := ⟨Nat.zero_le 1, Nat.mod_lt _ (by decide)⟩
theorem Slot.wpctlRead (x0 x1) : Slot.Statement (.wpctlRead x0 x1) := ⟨Nat.zero_le 1, Nat.mod_lt _ (by decide)⟩
theorem Slot.snapshotTrigger (x0) : Slot.Statement (.snapshotTrigger x0) := ⟨Nat.zero_le 1, Nat.mod_lt _ (by decide)⟩
theorem Slot.snapshotPin : Slot.Statement (.snapshotPin) := ⟨Nat.zero_le 1, Nat.mod_lt _ (by decide)⟩
theorem Slot.snaptimeReached (x0) : Slot.Statement (.snaptimeReached x0) := ⟨Nat.zero_le 1, Nat.mod_lt _ (by decide)⟩
theorem Slot.rearm : Slot.Statement (.rearm) := ⟨Nat.zero_le 1, Nat.mod_lt _ (by decide)⟩
theorem Slot.timectlWrite (x0) : Slot.Statement (.timectlWrite x0) := ⟨Nat.zero_le 1, Nat.mod_lt _ (by decide)⟩
theorem Slot.takecfgWrite (x0) : Slot.Statement (.takecfgWrite x0) := ⟨Nat.zero_le 1, Nat.mod_lt _ (by decide)⟩
theorem Slot.servoStep (x0) : Slot.Statement (.servoStep x0) := ⟨Nat.zero_le 1, Nat.mod_lt _ (by decide)⟩
theorem Slot.lockedChange (x0) : Slot.Statement (.lockedChange x0) := ⟨Nat.zero_le 1, Nat.mod_lt _ (by decide)⟩
theorem Slot.timestatErrClear : Slot.Statement (.timestatErrClear) := ⟨Nat.zero_le 1, Nat.mod_lt _ (by decide)⟩
theorem Slot.dtimeDivergence (x0) : Slot.Statement (.dtimeDivergence x0) := ⟨Nat.zero_le 1, Nat.mod_lt _ (by decide)⟩
theorem Slot.mapsw : Slot.Statement (.mapsw) := ⟨Nat.zero_le 1, Nat.mod_lt _ (by decide)⟩
theorem Slot.csstatRead : Slot.Statement (.csstatRead) := ⟨Nat.zero_le 1, Nat.mod_lt _ (by decide)⟩
theorem Slot.detstatRead : Slot.Statement (.detstatRead) := ⟨Nat.zero_le 1, Nat.mod_lt _ (by decide)⟩
theorem Slot.pairstatClear (x0 x1) : Slot.Statement (.pairstatClear x0 x1) := ⟨Nat.zero_le 1, Nat.mod_lt _ (by decide)⟩
theorem Slot.statusLostaClear (x0) : Slot.Statement (.statusLostaClear x0) := ⟨Nat.zero_le 1, Nat.mod_lt _ (by decide)⟩
theorem Slot.governorSample (x0 x1) : Slot.Statement (.governorSample x0 x1) := ⟨Nat.zero_le 1, Nat.mod_lt _ (by decide)⟩
theorem Slot.thermalSample (x0 x1) : Slot.Statement (.thermalSample x0 x1) := ⟨Nat.zero_le 1, Nat.mod_lt _ (by decide)⟩
theorem Slot.clrtrip (x0) : Slot.Statement (.clrtrip x0) := ⟨Nat.zero_le 1, Nat.mod_lt _ (by decide)⟩
theorem Slot.throttleStepChange (x0) : Slot.Statement (.throttleStepChange x0) := ⟨Nat.zero_le 1, Nat.mod_lt _ (by decide)⟩
theorem Slot.pwrctlWrite (x0) : Slot.Statement (.pwrctlWrite x0) := ⟨Nat.zero_le 1, Nat.mod_lt _ (by decide)⟩
theorem Slot.powerFailWarning : Slot.Statement (.powerFailWarning) := ⟨Nat.zero_le 1, Nat.mod_lt _ (by decide)⟩
theorem Slot.drainExpiry : Slot.Statement (.drainExpiry) := ⟨Nat.zero_le 1, Nat.mod_lt _ (by decide)⟩
theorem Slot.reelWrite : Slot.Statement (.reelWrite) := ⟨Nat.zero_le 1, Nat.mod_lt _ (by decide)⟩
theorem Slot.reelRestart : Slot.Statement (.reelRestart) := ⟨Nat.zero_le 1, Nat.mod_lt _ (by decide)⟩
theorem Slot.coldReset : Slot.Statement (.coldReset) := ⟨Nat.zero_le 1, Nat.mod_lt _ (by decide)⟩
theorem Slot.recoveryMode (x0 x1) : Slot.Statement (.recoveryMode x0 x1) := ⟨Nat.zero_le 1, Nat.mod_lt _ (by decide)⟩
theorem Slot.firmwareWatchdog (x0) : Slot.Statement (.firmwareWatchdog x0) := ⟨Nat.zero_le 1, Nat.mod_lt _ (by decide)⟩
theorem Slot.mbxgo (x0 x1) : Slot.Statement (.mbxgo x0 x1) := ⟨Nat.zero_le 1, Nat.mod_lt _ (by decide)⟩
theorem Slot.mbxpop (x0) : Slot.Statement (.mbxpop x0) := ⟨Nat.zero_le 1, Nat.mod_lt _ (by decide)⟩
theorem Slot.kick (x0) : Slot.Statement (.kick x0) := ⟨Nat.zero_le 1, Nat.mod_lt _ (by decide)⟩
theorem Slot.mailboxEntryArrival (x0) : Slot.Statement (.mailboxEntryArrival x0) := ⟨Nat.zero_le 1, Nat.mod_lt _ (by decide)⟩
theorem Slot.handlerPublish (x0 x1 x2) : Slot.Statement (.handlerPublish x0 x1 x2) := ⟨Nat.zero_le 1, Nat.mod_lt _ (by decide)⟩
theorem Slot.vtakenoRead (x0) : Slot.Statement (.vtakenoRead x0) := ⟨Nat.zero_le 1, Nat.mod_lt _ (by decide)⟩
theorem Slot.vcauseRead (x0) : Slot.Statement (.vcauseRead x0) := ⟨Nat.zero_le 1, Nat.mod_lt _ (by decide)⟩
theorem Slot.voutdone (x0) : Slot.Statement (.voutdone x0) := ⟨Nat.zero_le 1, Nat.mod_lt _ (by decide)⟩
theorem Slot.messagePortSend (x0 x1) : Slot.Statement (.messagePortSend x0 x1) := ⟨Nat.zero_le 1, Nat.mod_lt _ (by decide)⟩
theorem Slot.pops (x0 x1) : Slot.Statement (.pops x0 x1) := ⟨Nat.zero_le 1, Nat.mod_lt _ (by decide)⟩
theorem Slot.popv (x0 x1) : Slot.Statement (.popv x0 x1) := ⟨Nat.zero_le 1, Nat.mod_lt _ (by decide)⟩
theorem Slot.messagePortStatusRead (x0) : Slot.Statement (.messagePortStatusRead x0) := ⟨Nat.zero_le 1, Nat.mod_lt _ (by decide)⟩
theorem Slot.resultQueueAppend (x0 x1 x2 x3) : Slot.Statement (.resultQueueAppend x0 x1 x2 x3) := ⟨Nat.zero_le 1, Nat.mod_lt _ (by decide)⟩
theorem Slot.continuityLinkDown : Slot.Statement (.continuityLinkDown) := ⟨Nat.zero_le 1, Nat.mod_lt _ (by decide)⟩
theorem Slot.guestLinkTraining (x0) : Slot.Statement (.guestLinkTraining x0) := ⟨Nat.zero_le 1, Nat.mod_lt _ (by decide)⟩
theorem Slot.epochWrite (x0) : Slot.Statement (.epochWrite x0) := ⟨Nat.zero_le 1, Nat.mod_lt _ (by decide)⟩
theorem Slot.slewComplete : Slot.Statement (.slewComplete) := ⟨Nat.zero_le 1, Nat.mod_lt _ (by decide)⟩
theorem Slot.mirrorMarkerArrival (x0) : Slot.Statement (.mirrorMarkerArrival x0) := ⟨Nat.zero_le 1, Nat.mod_lt _ (by decide)⟩
theorem Slot.sendQueueEntryFreed (x0 x1) : Slot.Statement (.sendQueueEntryFreed x0 x1) := ⟨Nat.zero_le 1, Nat.mod_lt _ (by decide)⟩
theorem Slot.inFlightWriteLands (x0 x1) : Slot.Statement (.inFlightWriteLands x0 x1) := ⟨Nat.zero_le 1, Nat.mod_lt _ (by decide)⟩
theorem Slot.writeBackAck (x0) : Slot.Statement (.writeBackAck x0) := ⟨Nat.zero_le 1, Nat.mod_lt _ (by decide)⟩
theorem Slot.killAcceptance (x0) : Slot.Statement (.killAcceptance x0) := ⟨Nat.zero_le 1, Nat.mod_lt _ (by decide)⟩
theorem Slot.hostAccessTimeout (x0) : Slot.Statement (.hostAccessTimeout x0) := ⟨Nat.zero_le 1, Nat.mod_lt _ (by decide)⟩
theorem Slot.recruitmentAnswer (x0 x1) : Slot.Statement (.recruitmentAnswer x0 x1) := ⟨Nat.zero_le 1, Nat.mod_lt _ (by decide)⟩

end Sys2Proof.Laws
end

