-- ==== Sys2Proof/Tests/Slice0.lean ====
section
/-! SUPPORT. Tests: the decoding of words of every family, ill-formed terms, single steps of the spec's worked examples, and for each
statement states that meet its hypotheses. -/

namespace Sys2Proof.Tests
open Sys2Proof.Machine

set_option Elab.async false

/-! ### States for the tests -/

/-- Slot 0 of core 0. -/
def slot0 : CtxKey := ⟨.tile 0, 0⟩

/-- A live context of core 0 at its launch's first bundle. -/
def ctx0 : Ctx := { Ctx.idle with place := .live 0, pc := 0x400000, gen := 1 }

/-- The machine after reset with one context in slot 0 of core 0. -/
def lab (f : Ctx → Ctx) : State := setCtx State.reset slot0 (f ctx0)

/-- Two registers set. -/
def regs (x y : Word) (c : Ctx) : Ctx := { c with g := (c.g.set 5 x).set 6 y }

/-- Whether nothing holds a bundle and a word has no fault: `Calm`, evaluated. -/
def readyB (i : Instr) (s : State) : Bool := decide (Calm s) && (wordFault (form i) s).isNone

/-- A calm state in which a word has no fault meets the hypothesis of the statements about its instruction. -/
theorem ready_by {i : Instr} {s : State} (h : readyB i s = true) : Ready (form i) s s :=
  have both := Bool.and_eq_true_iff.mp h
  Laws.ready_of_calm (of_decide_eq_true both.1) (Option.isNone_iff_eq_none.mp both.2)

/-- An address of the own pool: the first byte of its first scratchpad bank (Table 6.1). -/
def ownEa : Word := 0xF00000000000#64 + 0x1C000
/-- An address of core 1's pool. -/
def farEa : Word := 0xF00000000000#64 + 0x20001C000#64

/-- A context whose g5 holds an address and g6 a value. -/
def at5 (ea : Word) : State := lab (regs ea 0x1122334455667788)

/-- A translation of page 1 to physical page 3, with a policy. -/
def page (pol : Nat) : Tlb := ⟨0, false, 1, 12, 3, pol, true, true, true, true⟩

/-- The page translates wherever core 0's cache holds it. -/
theorem page_translates {s : State} {pol : Nat} (ht : (getCore s (.tile 0)).tlb = [page pol]) (kind : Nat) (user : Bool) {need : Need}
    (hn : need ∈ [Need.rd, .wr, .any]) :
    Machine.translate s (.tile 0) 0 user 0x1000 kind need = .ok (tlbPut s (.tile 0) (page pol), 0x3000, pol, 3) := by
  have hal : (page pol).allows user need = true := by
    simp only [List.mem_cons, List.not_mem_nil, or_false] at hn
    rcases hn with rfl | rfl | rfl <;> simp [page, Tlb.allows]
  have hf : [page pol].find? (·.hits 0 0x1000) = some (page pol) := by
    rw [List.find?_cons_of_pos]
    simp [page, Tlb.hits]
  have he : translation s (.tile 0) 0 0x1000 kind = .ok (tlbPut s (.tile 0) (page pol), page pol) := by rw [translation, ht, hf]
  have hv : (page pol).ppn * 2 ^ (page pol).shift + 0x1000 % 2 ^ (page pol).shift = 0x3000 := by
    have h1 : (page pol).ppn = 3 := rfl
    have h2 : (page pol).shift = 12 := rfl
    rw [h1, h2]
    norm_num
  have hl : (page pol).level = 3 := by simp [page, Tlb.level]
  simp only [Machine.translate, he, Bind.bind, Except.bind, hal, if_true, hv, hl]
  rfl

/-- The page resolves. -/
theorem resolve_page {s : State} {pol : Nat} (h : s.cur.agent = .tile 0) (ha : (opCtx s).asid = 0) (ht : (getCore s (.tile 0)).tlb = [page pol])
    (kind : Nat) {need : Need} (hn : need ∈ [Need.rd, .wr, .any]) :
    resolveCur s 0x1000 kind need = .ok (tlbPut s (.tile 0) (page pol), .phys 0x3000 pol 3) := by
  have b1 : bits 0x1000 63 48 = 0 := by decide +kernel
  have b2 : bits 0x1000 47 44 = 0 := by decide +kernel
  have b3 : (0x1000 : Word).toNat = 0x1000 := by decide +kernel
  simp only [resolveCur, resolve, h, ha, b3, b1, b2, page_translates ht kind _ hn, Bind.bind, Except.bind]
  simp

/-- A context whose g5 holds the page's address, with its translation in the core's cache (R181). -/
def paged (pol : Nat) : State :=
  modCore (lab (regs 0x1000 7)) (.tile 0) fun c => { c with tlb := [page pol] }

/-- The same with the page's first line in the L1. -/
def cached : State :=
  modCore (paged 0) (.tile 0) fun c => { c with l1 := [⟨40, 0x30, Vector.replicate 8 ⟨true, false, 0, 0⟩⟩] }

/-- A launch of cores 0, 4 and 8 with a distributed array of 4 elements over two cores, in blocks of 2. -/
def launch0 : Launch :=
  { la := 0, tag := 1, asid := 0, cores := [0, 4, 8], det := false, compat := true, tvec := 0, htable := 0, budget := 0, tokens := 0,
    arena := 0, groups := [], dists := [⟨2, 0x8000000000000000#64 + 0x31C000#64, [0x000200020004#64]⟩], gates := [], guestQueues := [],
    regionSizes := [], digests := [], image := [], key := [], ending := false, endTag := none }

/-- A state in which the context belongs to that launch. -/
def launched (f : Ctx → Ctx) : State :=
  modDev (lab fun c => f { c with launch := some 0 }) fun d => { d with launches := [launch0] }

/-- The same on another core, whose launch has the cores of the list and group 9 of them. -/
def launchedAt (n : Nat) (cores : List Nat) (f : Ctx → Ctx) (g : Core → Core) : State :=
  modCore (modDev (setCtx { State.reset with cur := ⟨.tile n, 0⟩ } ⟨.tile n, 0⟩ (f { ctx0 with launch := some 0 }))
    fun d => { d with launches := [{ launch0 with cores := cores, groups := [⟨9, 0, cores⟩] }] }) (.tile n) g

/-- Ready, where the state is not calm. -/
theorem ready_eval {i : Instr} {s t : State} (h : wordFault (form i) s = none ∧
    (capturing (opCtx s) && s.latch.isNone) = false ∧ before (form i) s = .ok t) : Ready (form i) s t := h

/-- A state built from `lab` with a change of core 0. -/
def labCore (f : Ctx → Ctx) (g : Core → Core) : State := modCore (lab f) (.tile 0) g

/-- A state built from `launched` with a change of core 0. -/
def launchedCore (f : Ctx → Ctx) (g : Core → Core) : State := modCore (launched f) (.tile 0) g

/-- Every element of a list passes `readyB` in a state. -/
theorem ready_all {s : State} (l : List Instr) (h : (l.all fun i => readyB i s) = true) : ∀ i ∈ l, Ready (form i) s s :=
  fun i hi => ready_by (List.all_eq_true.mp h i hi)

/-- Firmware core `k`'s context issues. -/
def fwLab (k : Nat) (f : Ctx → Ctx) : State := setCtx { State.reset with cur := ⟨.fw k, 0⟩ } ⟨.fw k, 0⟩ (f Ctx.fwReset)

/-- A part of an instruction that succeeds, evaluated. -/
theorem ok_of {α : Type} {e : Do α} (h : (match e with | .ok _ => true | .error _ => false) = true) : ∃ u, e = .ok u := by
  cases e with
  | ok u => exact ⟨u, rfl⟩
  | error e => cases h

/-- The same with something that holds of its result. -/
theorem ok_with {α : Type} {e : Do α} {p : α → Bool} (h : (match e with | .ok u => p u | .error _ => false) = true) : ∃ u, e = .ok u ∧ p u = true := by
  cases e with
  | ok u => exact ⟨u, rfl, h⟩
  | error e => cases h

/-- A part of an instruction that does not succeed, evaluated. -/
theorem error_of {α : Type} {e : Do α} (h : (match e with | .ok _ => true | .error _ => false) = false) : ∃ u, e = .error u := by
  cases e with
  | ok u => cases h
  | error e => exact ⟨e, rfl⟩

/-- The state with one packet on its networks. -/
def carry (s : State) (p : Packet) : State := { s with net := [p] }

/-- A packet from one node to another: the first of its way. -/
def pkt (src dst : Node) (vn : Fin 4) (b : Body) : Packet := ⟨src, dst, vn, b, 0, false⟩

/-- The packet comes off its network, where no link is under repair or lost and its flits have left the sender. -/
theorem take_carry (s : State) (p : Packet) (h : s.dev.repair = []) (o : inputOff (carry s p) p = false) (q : stillQueued (carry s p) p = false)
    (l : cutOff (carry s p) p.src p.dst = false) : takePkt (carry s p) 0 = some (p, { s with net := [] }) := by
  have o' : inputOff { s with net := [p] } p = false := o
  have q' : stillQueued { s with net := [p] } p = false := q
  have l' : cutOff { s with net := [p] } p.src p.dst = false := l
  simp [takePkt, carry, isFirst, h, o', q', l']

/-- A message from core 4. -/
def message0 : Message := ⟨7, 7, 0, 0, [1, 2], .core 4, none, none⟩

/-! ### Words of the encoding tables -/

/-- Each word decodes to its instruction. -/
abbrev Decodes (l : List (Nat × Nat × Instr)) : Prop := ∀ x ∈ l, decodeTableWord x.1 x.2.1 = some x.2.2

/-- SYS (Tables 2.6, 2.7 and the entries of its ops). -/
theorem test_decode_sys : Decodes
  [(32, 0x00000000, .nop),
   (32, 0x7E000000, .anop),
   (32, 0x004327E3, .hint 4 6 9 3),
   (32, 0x00000020, .endAct),
   (32, 0x00000040, .yield),
   (32, 0x00200066, .fenceRel .package),
   (32, 0x00100060, .fenceAcq .act),
   (32, 0x00300069, .fenceAr .system),
   (32, 0x00000081, .ifence .core),
   (32, 0x000000A0, .tret),
   (32, 0x00008CC0, .syscall 35#10),
   (32, 0x000FFCE0, .brk 1023#10),
   (32, 0x00400100, .snap 4),
   (32, 0x00441120, .sysr 4 0x104#10),
   (32, 0x00602140, .sysw 0x008#10 6),
   (32, 0x00303160, .gate 3 12#10),
   (32, 0x00000180, .gret),
   (32, 0x004301A0, .slateMin 4 6),
   (32, 0x004305A0, .slateSet 4 6),
   (32, 0x004309A0, .slateRgn 4 6),
   (32, 0x00400DA0, .slateRd 4),
   (32, 0x004311A0, .slateFold 4 6),
   (32, 0x004301C0, .slchk 4 6),
   (32, 0x004305C0, .slchkTrap 4 6),
   (32, 0x004001E0, .time 4),
   (32, 0x004005E0, .timeSinceClapper 4),
   (32, 0x004009E0, .timeToEgress 4),
   (32, 0x00430200, .kill 4 6),
   (32, 0x00432620, .invpg 4 6 9)] := by decide +kernel

/-- ALU-R, major 0x01 (Table 2.6). -/
theorem test_decode_alu : Decodes
  [(32, 0x02432400, .add 4 6 9),
   (32, 0x02432401, .sub 4 6 9),
   (32, 0x02432402, .and 4 6 9),
   (32, 0x02432403, .or 4 6 9),
   (32, 0x02432404, .xor 4 6 9),
   (32, 0x02432405, .shl 4 6 9),
   (32, 0x02432406, .shr 4 6 9),
   (32, 0x02432407, .sra 4 6 9),
   (32, 0x02432408, .rotl 4 6 9),
   (32, 0x02432409, .mul 4 6 9),
   (32, 0x0243240A, .mulh 4 6 9),
   (32, 0x0243240B, .mulhu 4 6 9),
   (32, 0x0243240C, .div 4 6 9),
   (32, 0x0243240D, .divu 4 6 9),
   (32, 0x0243240E, .rem 4 6 9),
   (32, 0x0243240F, .remu 4 6 9),
   (32, 0x02432410, .min 4 6 9),
   (32, 0x02432411, .max 4 6 9),
   (32, 0x02432412, .minu 4 6 9),
   (32, 0x02432413, .maxu 4 6 9),
   (32, 0x02432414, .slt 4 6 9),
   (32, 0x02432415, .sltu 4 6 9),
   (32, 0x02432420, .sel 4 6 9),
   (32, 0x02430016, .clz 4 6),
   (32, 0x02430017, .ctz 4 6),
   (32, 0x02430018, .popc 4 6),
   (32, 0x02430019, .bswap 4 6),
   (32, 0x0243001A, .sextb 4 6),
   (32, 0x0243001B, .sexth 4 6),
   (32, 0x0243001C, .sextw 4 6),
   (32, 0x0243001D, .zextb 4 6),
   (32, 0x0243001E, .zexth 4 6),
   (32, 0x0243001F, .zextw 4 6)] := by decide +kernel

/-- The immediates, SHIFTI and MOVHI (Tables 2.3, 2.6, 5.7, R115, R116). -/
theorem test_decode_immediates : Decodes
  [(32, 0x04434001, .addi 4 6 0x4001#15),
   (64, 0x84430000 + 0x80000001 * 2 ^ 32, .addiLong 4 6 0x80000001#32),
   (32, 0x06434001, .andi 4 6 0x4001#15),
   (64, 0x86430000 + 0x80000001 * 2 ^ 32, .andiLong 4 6 0x80000001#32),
   (32, 0x08434001, .ori 4 6 0x4001#15),
   (64, 0x88430000 + 0x80000001 * 2 ^ 32, .oriLong 4 6 0x80000001#32),
   (32, 0x0A434001, .xori 4 6 0x4001#15),
   (64, 0x8A430000 + 0x80000001 * 2 ^ 32, .xoriLong 4 6 0x80000001#32),
   (32, 0x0E434001, .slti 4 6 0x4001#15),
   (64, 0x8E430000 + 0x80000001 * 2 ^ 32, .sltiLong 4 6 0x80000001#32),
   (32, 0x10434001, .sltiu 4 6 0x4001#15),
   (64, 0x90430000 + 0x80000001 * 2 ^ 32, .sltiuLong 4 6 0x80000001#32),
   (32, 0x0C43003F, .shli 4 6 63#6),
   (64, 0x8C430000 + 0x0000003F * 2 ^ 32, .shliLong 4 6 63#6),
   (32, 0x0C43103F, .shri 4 6 63#6),
   (64, 0x8C430000 + 0x0000103F * 2 ^ 32, .shriLong 4 6 63#6),
   (32, 0x0C43203F, .srai 4 6 63#6),
   (64, 0x8C430000 + 0x0000203F * 2 ^ 32, .sraiLong 4 6 63#6),
   (32, 0x0C43303F, .rotli 4 6 63#6),
   (64, 0x8C430000 + 0x0000303F * 2 ^ 32, .rotliLong 4 6 63#6),
   (32, 0x12380000, .movhi 3 0x80000#20)] := by decide +kernel

/-- LEA and GADDR, major 0x0A. -/
theorem test_decode_addresses : Decodes
  [(32, 0x14432400, .leaScale1 4 6 9),
   (32, 0x14432401, .leaScale2 4 6 9),
   (32, 0x14432402, .leaScale4 4 6 9),
   (32, 0x14432403, .leaScale8 4 6 9),
   (32, 0x14432404, .gaddr 4 6 9)] := by decide +kernel

/-- Branches and jumps (Table 5.10). -/
theorem test_decode_branches : Decodes
  [(32, 0x1664FFFF, .beq 6 9 0x7FFF#15),
   (64, 0x96648000 + 0xFFFFFFFE * 2 ^ 32, .beqLong 6 9 0xFFFFFFFE#32),
   (32, 0x1864FFFF, .bne 6 9 0x7FFF#15),
   (64, 0x98648000 + 0xFFFFFFFE * 2 ^ 32, .bneLong 6 9 0xFFFFFFFE#32),
   (32, 0x1A64FFFF, .blt 6 9 0x7FFF#15),
   (64, 0x9A648000 + 0xFFFFFFFE * 2 ^ 32, .bltLong 6 9 0xFFFFFFFE#32),
   (32, 0x1C64FFFF, .bge 6 9 0x7FFF#15),
   (64, 0x9C648000 + 0xFFFFFFFE * 2 ^ 32, .bgeLong 6 9 0xFFFFFFFE#32),
   (32, 0x1E64FFFF, .bltu 6 9 0x7FFF#15),
   (64, 0x9E648000 + 0xFFFFFFFE * 2 ^ 32, .bltuLong 6 9 0xFFFFFFFE#32),
   (32, 0x2064FFFF, .bgeu 6 9 0x7FFF#15),
   (64, 0xA0648000 + 0xFFFFFFFE * 2 ^ 32, .bgeuLong 6 9 0xFFFFFFFE#32),
   (32, 0x224FFFFF, .jal 4 0xFFFFF#20),
   (64, 0xA2400000 + 0x40000000 * 2 ^ 32, .jalLong 4 0x40000000#32),
   (32, 0x25FF8000, .jalr 31 31 0#15),
   (64, 0xA4430000 + 0x00000008 * 2 ^ 32, .jalrLong 4 6 8#32)] := by decide +kernel

/-- NUM, major 0x20. -/
theorem test_decode_num : Decodes
  [(32, 0x40432400, .rand 4 6 9),
   (32, 0x40432401, .cvtfx 4 6 9),
   (32, 0x40432402, .cvtxf 4 6 9)] := by decide +kernel

/-- LOAD (Tables 2.3, 2.4). -/
theorem test_decode_loads : Decodes
  [(32, 0x26430801, .ldb 4 6 0x801#12),
   (64, 0xA6430000 + 0x00010000 * 2 ^ 32, .ldbLong 4 6 0x10000#32),
   (32, 0x26431801, .ldh 4 6 0x801#12),
   (64, 0xA6431000 + 0x00010000 * 2 ^ 32, .ldhLong 4 6 0x10000#32),
   (32, 0x26432801, .ldw 4 6 0x801#12),
   (64, 0xA6432000 + 0x00010000 * 2 ^ 32, .ldwLong 4 6 0x10000#32),
   (32, 0x26433801, .ldd 4 6 0x801#12),
   (64, 0xA6433000 + 0x00010000 * 2 ^ 32, .lddLong 4 6 0x10000#32),
   (32, 0x26434801, .ldbu 4 6 0x801#12),
   (64, 0xA6434000 + 0x00010000 * 2 ^ 32, .ldbuLong 4 6 0x10000#32),
   (32, 0x26435801, .ldhu 4 6 0x801#12),
   (64, 0xA6435000 + 0x00010000 * 2 ^ 32, .ldhuLong 4 6 0x10000#32),
   (32, 0x26436801, .ldwu 4 6 0x801#12),
   (64, 0xA6436000 + 0x00010000 * 2 ^ 32, .ldwuLong 4 6 0x10000#32),
   (32, 0x26437801, .ldq 4 6 0x801#12),
   (64, 0xA6437000 + 0x00010000 * 2 ^ 32, .ldqLong 4 6 0x10000#32)] := by decide +kernel

/-- STORE (Tables 2.3, 2.4). -/
theorem test_decode_stores : Decodes
  [(32, 0x28430801, .stb 4 6 0x801#12),
   (64, 0xA8430000 + 0x00010000 * 2 ^ 32, .stbLong 4 6 0x10000#32),
   (32, 0x28431801, .sth 4 6 0x801#12),
   (64, 0xA8431000 + 0x00010000 * 2 ^ 32, .sthLong 4 6 0x10000#32),
   (32, 0x28432801, .stw 4 6 0x801#12),
   (64, 0xA8432000 + 0x00010000 * 2 ^ 32, .stwLong 4 6 0x10000#32),
   (32, 0x28433801, .std 4 6 0x801#12),
   (64, 0xA8433000 + 0x00010000 * 2 ^ 32, .stdLong 4 6 0x10000#32),
   (32, 0x28437801, .stq 4 6 0x801#12),
   (64, 0xA8437000 + 0x00010000 * 2 ^ 32, .stqLong 4 6 0x10000#32)] := by decide +kernel

/-- Full/empty, major 0x15. -/
theorem test_decode_fullEmpty : Decodes
  [(32, 0x2A4307F8, .ldf 4 6 0x7F8#12),
   (64, 0xAA430000 + 0x00010000 * 2 ^ 32, .ldfLong 4 6 0x10000#32),
   (32, 0x2A4317F8, .ldc 4 6 0x7F8#12),
   (64, 0xAA431000 + 0x00010000 * 2 ^ 32, .ldcLong 4 6 0x10000#32),
   (32, 0x2A4327F8, .stf 4 6 0x7F8#12),
   (64, 0xAA432000 + 0x00010000 * 2 ^ 32, .stfLong 4 6 0x10000#32),
   (32, 0x2A4337F8, .stfo 4 6 0x7F8#12),
   (64, 0xAA433000 + 0x00010000 * 2 ^ 32, .stfoLong 4 6 0x10000#32),
   (32, 0x2A0347F8, .empty 6 0x7F8#12),
   (64, 0xAA034000 + 0x00010000 * 2 ^ 32, .emptyLong 6 0x10000#32),
   (32, 0x2A4357F8, .feq 4 6 0x7F8#12),
   (64, 0xAA435000 + 0x00010000 * 2 ^ 32, .feqLong 4 6 0x10000#32)] := by decide +kernel

/-- VMEM, major 0x16 (Table 8.12). -/
theorem test_decode_vectorMemory : Decodes
  [(32, 0x2C430FC0, .vld 4 6 0xFC0#12),
   (64, 0xAC430000 + 0x00000040 * 2 ^ 32, .vldLong 4 6 64#32),
   (32, 0x2C431FC0, .vst 4 6 0xFC0#12),
   (64, 0xAC431000 + 0x00000040 * 2 ^ 32, .vstLong 4 6 64#32),
   (32, 0x2C4324C4, .vlds 4 6 9 0x44#7),
   (64, 0xAC432480 + 0x00000040 * 2 ^ 32, .vldsLong 4 6 9 64#32),
   (32, 0x2C4334C4, .vsts 4 6 9 0x44#7),
   (64, 0xAC433480 + 0x00000040 * 2 ^ 32, .vstsLong 4 6 9 64#32),
   (32, 0x2C4344C4, .vgath 4 6 9 0x44#7),
   (64, 0xAC434480 + 0x00000040 * 2 ^ 32, .vgathLong 4 6 9 64#32),
   (32, 0x2C4354C4, .vscat 4 6 9 0x44#7),
   (64, 0xAC435480 + 0x00000040 * 2 ^ 32, .vscatLong 4 6 9 64#32)] := by decide +kernel

/-- ATOMIC, major 0x17 (Table 2.7). -/
theorem test_decode_atomics : Decodes
  [(32, 0x2E432405, .amoadd ⟨.double, true, false⟩ 4 6 9),
   (32, 0x2E432425, .amoand ⟨.double, true, false⟩ 4 6 9),
   (32, 0x2E432445, .amoor ⟨.double, true, false⟩ 4 6 9),
   (32, 0x2E432465, .amoxor ⟨.double, true, false⟩ 4 6 9),
   (32, 0x2E432485, .amomin ⟨.double, true, false⟩ 4 6 9),
   (32, 0x2E4324A5, .amomax ⟨.double, true, false⟩ 4 6 9),
   (32, 0x2E4324C5, .amominu ⟨.double, true, false⟩ 4 6 9),
   (32, 0x2E4324E5, .amomaxu ⟨.double, true, false⟩ 4 6 9),
   (32, 0x2E432505, .amoswap ⟨.double, true, false⟩ 4 6 9),
   (32, 0x2E432525, .amocas ⟨.double, true, false⟩ 4 6 9),
   (32, 0x2E43212A, .amocas ⟨.quad, false, true⟩ 4 6 8)] := by decide +kernel

/-- CACHE, major 0x18 (Table 8.13). -/
theorem test_decode_cache : Decodes
  [(32, 0x30030100, .pref 6 0x100#12),
   (64, 0xB0030000 + 0x00000040 * 2 ^ 32, .prefLong 6 64#32),
   (32, 0x30031100, .cwb 6 0x100#12),
   (64, 0xB0031000 + 0x00000040 * 2 ^ 32, .cwbLong 6 64#32),
   (32, 0x30032100, .cinv 6 0x100#12),
   (64, 0xB0032000 + 0x00000040 * 2 ^ 32, .cinvLong 6 64#32),
   (32, 0x30033100, .cwbinv 6 0x100#12),
   (64, 0xB0033000 + 0x00000040 * 2 ^ 32, .cwbinvLong 6 64#32),
   (32, 0x30034100, .cwbL2 6 0x100#12),
   (64, 0xB0034000 + 0x00000040 * 2 ^ 32, .cwbL2Long 6 64#32)] := by decide +kernel

/-- MSG, major 0x19 (Table 10.6 and the entries). -/
theorem test_decode_messages : Decodes
  [(32, 0x32032408, .send 6 9 8#4),
   (32, 0x32032423, .sendq 6 9 3#4),
   (32, 0x32032451, .sendr 6 9 17),
   (32, 0x32032460, .reply 6 9),
   (32, 0x32032461, .replyQ 6 9),
   (32, 0x32030080, .cut 6),
   (32, 0x324324A2, .putn 4 6 9 2#4),
   (32, 0x324324C0, .getr 4 6 9),
   (32, 0x324000C1, .getrArm 4),
   (32, 0x324000C2, .getrDis 4),
   (32, 0x324324E0, .qpop 4 6 9),
   (32, 0x32432500, .qpeek 4 6 9),
   (32, 0x32430120, .qstat 4 6),
   (32, 0x32430121, .qstatClr 4 6)] := by decide +kernel

/-- SCHED, major 0x1A. -/
theorem test_decode_scheduling : Decodes
  [(32, 0x3443241E, .spawn 4 6 9 30),
   (32, 0x34321420, .forkR 3 4 5 0),
   (32, 0x34432440, .join 4 6 9),
   (32, 0x34432441, .joinOpen 4 6 9),
   (32, 0x34430042, .joinSeal 4 6),
   (32, 0x34430043, .joinWait 4 6),
   (32, 0x34430060, .budgetAct 4 6),
   (32, 0x34430061, .budgetTake 4 6)] := by decide +kernel

/-- SYNC, major 0x1B. -/
theorem test_decode_sync : Decodes
  [(32, 0x36032400, .barInit 6 9),
   (32, 0x36430024, .barArr .group 4 6),
   (32, 0x36032442, .barWait .tile 6 9),
   (32, 0x36430065, .barArw .die 4 6),
   (32, 0x36032480, .barTx 6 9),
   (32, 0x364300A0, .barQry 4 6),
   (32, 0x364780C2, .ringWaitf 4 15 2),
   (32, 0x364780E2, .ringWaite 4 15 2),
   (32, 0x36078102, .ringAdvp 15 2),
   (32, 0x36078122, .ringAdvc 15 2),
   (32, 0x36478140, .ringQry 4 15),
   (32, 0x36430160, .grpMem 4 6)] := by decide +kernel

/-- TREE, major 0x1C. -/
theorem test_decode_tree : Decodes
  [(32, 0x38432403, .red .iadd 4 6 9),
   (32, 0x38432421, .scan .fmin 4 6 9),
   (32, 0x38432440, .bcast 4 6 9),
   (32, 0x38430060, .treeWait 4 6)] := by decide +kernel

/-- POOL, major 0x1D. -/
theorem test_decode_pool : Decodes
  [(32, 0x3A430000, .poolSet 4 6),
   (32, 0x3A430001, .poolQry 4 6),
   (32, 0x3A430002, .poolPin 4 6),
   (32, 0x3A430003, .poolUnpin 4 6)] := by decide +kernel

/-- COPY, major 0x1E (Table 13.2), and STREAM, major 0x1F. -/
theorem test_decode_copies : Decodes
  [(64, 0xBC320000 + 0x00002D84 * 2 ^ 32, .cpy 3 4 ⟨false, false, 5#9, 2#2, true, 8#4, 4#4⟩),
   (64, 0xBC430001 + 0x00000000 * 2 ^ 32, .cpyCancel 4 6),
   (64, 0xBC430002 + 0x00000001 * 2 ^ 32, .cpyStat 4 6 true),
   (64, 0xBC430002 + 0x00000000 * 2 ^ 32, .cpyStat 4 6 false),
   (64, 0xBE021400 + 0x00000000 * 2 ^ 32, .scfg 0 4 5 false .w32),
   (32, 0x3E030001, .sclose 6),
   (32, 0x3E430002, .sstat 4 6)] := by decide +kernel

/-- The Cricy-1 forms, major 0x27 (Table 2.11). -/
theorem test_decode_deprecated : Decodes
  [(32, 0x4E448800, .ldm 4 9 2),
   (32, 0x4E448801, .stm 4 9 2),
   (32, 0x4E432402, .vdotI8 4 6 9),
   (32, 0x4E432403, .maca 4 6 9)] := by decide +kernel

/-- VFP, VFMA and VSFU (Tables 2.6, 2.7). -/
theorem test_decode_vectorFloats : Decodes
  [(32, 0x50432413, .vadd .f16 .rup 4 6 9),
   (32, 0x50432433, .vsub .f16 .rup 4 6 9),
   (32, 0x50432453, .vmul .f16 .rup 4 6 9),
   (32, 0x504324F3, .vdiv .f16 .rup 4 6 9),
   (32, 0x50432468, .vmin .bf16 4 6 9),
   (32, 0x50432488, .vmax .bf16 4 6 9),
   (32, 0x504300A0, .vabs .f32 4 6),
   (32, 0x504300C0, .vneg .f32 4 6),
   (32, 0x50430104, .vsqrt .f32 .dyn 4 6),
   (32, 0x52432560, .vfma 4 6 9 11),
   (32, 0x52432561, .vfms 4 6 9 11),
   (32, 0x52432562, .vfnma 4 6 9 11),
   (32, 0x52432563, .vfnms 4 6 9 11),
   (32, 0x58430000, .vrcp 4 6),
   (32, 0x58430001, .vrsq 4 6),
   (32, 0x58430002, .vexp2 4 6),
   (32, 0x58430003, .vlog2 4 6),
   (32, 0x58430004, .vtanh 4 6),
   (32, 0x58430005, .vsigm 4 6)] := by decide +kernel

/-- VINT, major 0x2A. -/
theorem test_decode_vectorIntegers : Decodes
  [(32, 0x54432400, .vaddI 4 6 9),
   (32, 0x54432401, .vsubI 4 6 9),
   (32, 0x54432402, .vmulI 4 6 9),
   (32, 0x54432403, .vmulhI 4 6 9),
   (32, 0x54432404, .vand 4 6 9),
   (32, 0x54432405, .vor 4 6 9),
   (32, 0x54432406, .vxor 4 6 9),
   (32, 0x54432407, .vshl 4 6 9),
   (32, 0x54432408, .vshr 4 6 9),
   (32, 0x54432409, .vsra 4 6 9),
   (32, 0x5443240A, .vminI 4 6 9),
   (32, 0x5443240B, .vmaxI 4 6 9),
   (32, 0x5443240C, .vminuI 4 6 9),
   (32, 0x5443240D, .vmaxuI 4 6 9),
   (32, 0x5443240E, .vdot4I8 4 6 9)] := by decide +kernel

/-- VCMP, major 0x2B. -/
theorem test_decode_masks : Decodes
  [(32, 0x56432412, .vcmp .u32 .lt 4 6 9),
   (32, 0x56431C20, .vsel 4 6 7),
   (32, 0x56431C40, .mand 4 6 7),
   (32, 0x56431C60, .mor 4 6 7),
   (32, 0x56431C80, .mxor 4 6 7),
   (32, 0x564300A0, .mnot 4 6),
   (32, 0x564300C0, .mmov 4 6),
   (32, 0x564300E0, .mset 4 6),
   (32, 0x56430100, .mpopc 4 6)] := by decide +kernel

/-- VCVT, VRAND, VMOVE and VSEQ (Tables 2.7, 7.10, 7.11). -/
theorem test_decode_vectorMoves : Decodes
  [(32, 0x5A430019, .vcvt 25 4 6),
   (32, 0x5A432422, .vcvtSr 2 4 6 9),
   (32, 0x5C432400, .vrand 4 6 9),
   (32, 0x5E430000, .vmov 4 6),
   (32, 0x5E430020, .vbcast 4 6),
   (32, 0x5E43004F, .vext 4 6 15),
   (32, 0x5E43006F, .vins 4 6 15),
   (32, 0x5E432480, .vperm 4 6 9),
   (32, 0x5E4300A2, .vred .fmax 4 6),
   (32, 0x5E4300C3, .vscan .iadd 4 6),
   (32, 0x6003000F, .vseq 6 15),
   (32, 0x60030013, .vseqS 6 3),
   (32, 0x60030020, .vseqStop 6)] := by decide +kernel

/-- CONV, MATRIX, ACC and LINK (Tables 12.4, 12.6, 13.10). -/
theorem test_decode_engines : Decodes
  [(64, 0xE2432400 + 0x07005C81 * 2 ^ 32, .cvtMx 4 6 9 ⟨7#8, 5#9, true, true, false, false, 8#4, 1#4⟩),
   (64, 0xE2432401 + 0x07005C81 * 2 ^ 32, .cvtUnmx 4 6 9 ⟨7#8, 5#9, true, true, false, false, 8#4, 1#4⟩),
   (64, 0xE2432402 + 0x07005C81 * 2 ^ 32, .rescaleMx 4 6 9 ⟨7#8, 5#9, true, true, false, false, 8#4, 1#4⟩),
   (64, 0xE2432403 + 0x07005C81 * 2 ^ 32, .transp 4 6 9 ⟨7#8, 5#9, true, true, false, false, 8#4, 1#4⟩),
   (64, 0xE4000400 + 0x000003C0 * 2 ^ 32, .mma 0 0 1 ⟨0#3, 0#1, 0#9, false, false, true, true, true, true, 0#3, 0#3⟩),
   (64, 0xE4410C01 + 0x01C00111 * 2 ^ 32, .mmaG 4 2 3 ⟨3#3, 1#1, 0#9, false, false, false, true, false, false, 2#3, 1#3⟩),
   (64, 0xE4110C02 + 0x000077C0 * 2 ^ 32, .mmrot 1 2 3 ⟨0#3, 0#1, 7#9, false, true, true, true, true, true, 0#3, 0#3⟩),
   (32, 0x66100000, .accClr 1),
   (32, 0x66020001, .accAnch 0 4),
   (64, 0xE6030002 + 0x00000000 * 2 ^ 32, .accRd 0 6 0 ⟨0#9, false, false, false, 0#4⟩),
   (64, 0xE6130003 + 0x0000002F * 2 ^ 32, .accWr 1 6 ⟨0#9, false, true, false, 15#4⟩),
   (32, 0x66700004, .accStat 7 0),
   (32, 0x68430000, .linkCfg 4 6),
   (32, 0x68400001, .linkStat 4)] := by decide +kernel

/-! ### WellFormed: each check refuses a term (Tables 2.5 to 2.10 and the entries) -/

def mf (g : BitVec 3) (acc : BitVec 1) (take : Bool) : MmaField := ⟨g, acc, 0, false, false, take, take, take, take, 0, 0⟩
def cf (df sf : BitVec 4) (sr ring : Bool) : ConvField := ⟨7, 0, false, sr, ring, ring, df, sf⟩
def af (fmt : BitVec 4) (ring sr : Bool) : AccField := ⟨0, false, ring, sr, fmt⟩
def quad (w : AmoW) : AmoP := ⟨w, false, false⟩

/-- Registers: a pair that is odd or begins at g0, a destination that is also a source, a range that leaves the file. -/
theorem test_wf_registers :
    (∀ i ∈ [Instr.rand 3 3 4, .cvtfx 0 1 2, .cvtfx 3 1 2, .cvtxf 4 3 2, .ldq 0 5 0, .ldq 7 5 0, .ldqLong 0 5 0, .ldqLong 7 5 0, .stq 7 5 0, .stqLong 7 5 0,
      .getr 0 1 2, .getrArm 0, .getrDis 0, .gate 0 1, .gate 4 1, .gate 11 1, .gate 1 256, .ldm 0 20 1, .ldm 30 1 2, .ldm 4 6 2, .stm 30 1 2,
      .send 1 2 9, .send 1 30 3, .sendq 1 2 9, .putn 3 1 2 0, .putn 3 1 2 9, .putn 3 1 30 3, .spawn 1 2 3 31, .forkR 1 2 3 29,
      .ringWaitf 1 0 0, .ringWaite 1 0 0, .ringAdvp 0 0, .ringAdvc 0 0], i.wf = false) ∧
    (∀ i ∈ [Instr.rand 0 0 4, .rand 3 4 3, .cvtfx 2 1 2, .cvtxf 3 4 2, .ldq 30 5 0, .ldqLong 2 5 0, .stq 0 5 0, .stqLong 6 5 0,
      .getr 1 1 2, .getrArm 1, .getrDis 31, .gate 1 255, .gate 3 1, .gate 12 1, .ldm 29 1 2, .ldm 4 7 2, .ldm 4 3 2, .stm 29 1 2,
      .send 1 24 8, .send 1 31 0, .sendq 1 30 2, .putn 3 1 24 8, .putn 3 1 31 1, .spawn 1 2 3 30, .spawn 0 2 3 31, .forkR 1 2 3 28,
      .ringWaitf 1 0 1, .ringWaite 1 0 31, .ringAdvp 0 1, .ringAdvc 0 1], i.wf = true) := by decide +kernel

/-- Codes that no row assigns: atomics of a quad width, conversions, and formats. -/
theorem test_wf_codes :
    (∀ i ∈ [Instr.amoadd (quad .quad) 3 1 4, .amoand (quad .quad) 4 1 3, .amoor (quad .quad) 3 1 4, .amoxor (quad .quad) 3 1 4, .amoswap (quad .quad) 3 1 4,
      .amocas (quad .quad) 4 1 3, .amomin (quad .quad) 4 1 6, .amomax (quad .quad) 4 1 6, .amominu (quad .quad) 4 1 6, .amomaxu (quad .quad) 4 1 6,
      .vcmp .i32 .un 0 1 2, .vcmp .u32 .un 0 1 2, .vcvtSr 0 1 2 3, .cpy 3 4 ⟨false, false, 0, 0, false, 7, 0⟩, .cpy 3 4 ⟨false, false, 0, 0, false, 0, 14⟩,
      .cvtMx 3 4 0 (cf 3 0 false false), .accRd 0 4 0 (af 4 false false), .accWr 0 4 (af 1 false false)], i.wf = false) ∧
    (∀ i ∈ [Instr.amoadd (quad .quad) 0 1 4, .amocas (quad .double) 3 1 5, .amomin (quad .word) 3 1 5, .vcmp .f32 .un 0 1 2, .vcmp .u32 .ge 0 1 2, .vcvtSr 2 1 2 3,
      .cpy 3 4 ⟨false, false, 0, 0, false, 6, 13⟩, .cvtMx 3 4 0 (cf 2 13 false false), .accRd 0 4 0 (af 15 false false), .accWr 0 4 (af 15 false false)],
        i.wf = true) := by decide +kernel

/-- Field words: ring handles past 15, a size of a transpose past 8, and bits that a form does not use. -/
theorem test_wf_fields :
    (∀ i ∈ [Instr.cvtUnmx 16 4 0 (cf 0 0 false true), .cvtUnmx 4 16 0 (cf 0 0 false true), .transp 3 4 0 { cf 0 0 false false with nm1 := 8 }, .rescaleMx 3 4 5 (cf 0 0 false false),
      .mma 0 0 0 (mf 1 0 true), .mma 0 0 0 (mf 0 1 true), .mmaG 0 0 0 (mf 0 0 false), .mmrot 0 0 0 (mf 0 0 false), .mmrot 0 0 0 (mf 1 0 true),
      .accRd 0 16 0 (af 0 true false), .accRd 0 4 5 (af 0 false false), .accWr 0 16 (af 0 true false), .accWr 0 4 (af 0 false true)], i.wf = false) ∧
    (∀ i ∈ [Instr.cvtUnmx 15 15 0 (cf 0 0 false true), .cvtUnmx 16 16 0 (cf 0 0 false false), .transp 3 4 0 (cf 0 0 false false), .rescaleMx 3 4 5 (cf 0 0 true false),
      .mma 0 0 0 (mf 0 0 false), .mmaG 0 0 0 (mf 1 1 true), .mmrot 0 0 0 (mf 0 0 true), .accRd 0 15 5 (af 0 true true), .accWr 0 15 (af 0 true false)],
        i.wf = true) := by decide +kernel

/-! ### Instructions and steps, against the spec's worked examples -/

/-- Whether an instruction commits, and something holds of the state after it. -/
def commitsB (i : Instr) (s : State) (p : State → Bool) : Bool := match exec i s with
  | .next t => t.last == .committed && p t
  | _ => false
theorem commits_of {i : Instr} {s : State} {p : State → Bool} (h : commitsB i s p = true) : ∃ t, exec i s = .next t ∧ t.last = .committed ∧ p t = true := by
  unfold commitsB at h
  split at h
  · next t he =>
    simp only [Bool.and_eq_true, beq_iff_eq] at h
    exact ⟨t, he, h.1, h.2⟩
  · cases h

/-- RAND's worked example (the entry of RAND): key 1, counter 0. -/
theorem test_rand : commitsB (.rand 7 5 6) (lab (regs 1 0)) (fun t => (curCtx t).g[7] == 0xED345605) = true := by decide +kernel
/-- MOVHI writes bits 31:12, sign-extended. -/
theorem test_movhi : commitsB (.movhi 3 0x80000#20) (lab id) (fun t => (curCtx t).g[3] == 0xFFFFFFFF80000000) = true := by decide +kernel
/-- An addition wraps, and the pc goes on by a bundle. -/
theorem test_add_wraps : commitsB (.add 5 5 6) (lab (regs (BitVec.allOnes 64) 2)) (fun t => (curCtx t).g[5] == 1 && (curCtx t).pc == 0x400008) = true := by decide +kernel
/-- g0 reads 0 and takes no value (R32). -/
theorem test_g0 : commitsB (.addi 0 5 7) (lab (regs 9 0)) (fun t => (curCtx t).g[0] == 0) = true := by decide +kernel
/-- A divisor of 0 raises cause 0x25 and commits nothing. -/
theorem test_div_zero : (match exec (.div 7 5 6) (lab fun c => { regs 9 0 c with tvec := 0x500000 }) with
    | .next t => t.last == .trapped && (curCtx t).g[7] == 0 && (curCtx t).cause == 0x25 && (curCtx t).tval == 0 && (curCtx t).epc == 0x400000
    | _ => false) = true := by decide +kernel
/-- Table 5.12, with R62's flags in FPCTL[11:8]. -/
theorem test_cvtfx : (commitsB (.cvtfx 8 5 6) (lab (regs 0x3F400000 (-4))) fun t => (curCtx t).g[8] == 0xC && (curCtx t).g[9] == 0) = true ∧
    (commitsB (.cvtfx 8 5 6) (lab (regs 0xBF400000 (-4))) fun t => (curCtx t).g[8] == -12 && (curCtx t).g[9] == -1) = true ∧
    (commitsB (.cvtfx 8 5 6) (lab (regs 0x3DCCCCCD (-4))) fun t => (curCtx t).g[8] == 1 && (curCtx t).fpctl == 0) = true ∧
    (commitsB (.cvtfx 8 5 6) (lab (regs 0x7F800000 0)) fun t => (curCtx t).g[8] == BitVec.allOnes 64 && (curCtx t).g[9] == 0x7FFFFFFFFFFFFFFF &&
      (curCtx t).fpctl != 0) = true := by decide +kernel
theorem test_cvtxf : (commitsB (.cvtxf 8 4 6) (lab fun c => { c with g := (c.g.set 4 11).set 6 0xFFFB }) fun t => (curCtx t).g[8] == 0x3EB00000) = true ∧
    (commitsB (.cvtxf 8 4 6) (lab fun c => { c with g := (c.g.set 5 (2 ^ 62)).set 6 2 }) fun t => (curCtx t).g[8] == 0x7F800000) = true ∧
    (commitsB (.cvtxf 8 4 6) (lab fun c => { c with g := (c.g.set 5 (2 ^ 62)).set 6 0x10002 }) fun t => (curCtx t).g[8] == 0x7F7FFFFF) = true := by decide +kernel
/-- A store and a load of its lowest byte, little-endian (R1). -/
theorem test_store_bytes : commitsB (.std 6 5 0) (at5 ownEa) (fun t => readBytes t.mem (ownAddr t 0x1C000) 8 == [0x88, 0x77, 0x66, 0x55, 0x44, 0x33, 0x22, 0x11]) = true := by decide +kernel
/-- One step fetches ADDI from memory, decodes and runs it. -/
theorem test_step_addi : (match step (State.reset.withFetchWord 32 0x0452FFFF) with
    | .next t => t.last == .committed && (getCtx t slot0).g[5] == BitVec.allOnes 64 && (getCtx t slot0).pc == 0x400008
    | _ => false) = true := by decide +kernel
/-- A bundle of zeros takes cause 0x01 with subcode 2 in word 1 (R45). -/
theorem test_step_zeros : (match step { (lab fun c => { c with tvec := 0x500000 }).withFetchWord 32 0 with mem := fetchMem [] 0 0 } with
    | .next t => t.last == .trapped && (getCtx t slot0).cause == 1 && (getCtx t slot0).tval == 2 && (getCtx t slot0).epc == 0x400001 && (getCtx t slot0).pc == 0x500000
    | _ => false) = true := by decide +kernel

/-! ### States that meet the hypotheses of the statements -/

/-! ### Witnesses: states that meet the hypotheses of the statements, clause by clause -/

theorem witness_alu : ∀ i ∈ [Instr.add 0 31 31, .sel 3 5 6, .clz 31 0, .mul 3 5 6, .mulh 3 5 6, .mulhu 3 5 6, .addi 3 5 0x4000#15,
    .shliLong 3 5 63#6, .movhi 31 0x80000#20, .jal 31 0x80000#20, .jalLong 0 0x80000000#32, .leaScale8 3 5 6],
    Ready (form i) (lab id) (lab id) := by
  intro i h; apply ready_by; revert i h; decide +kernel

theorem witness_divide : (Ready (form (.div 3 5 6)) (lab (regs 7 1)) (lab (regs 7 1)) ∧ rg (lab (regs 7 1)) 6 ≠ 0) ∧
    (Ready (form (.rem 3 5 6)) (lab (regs 7 0)) (lab (regs 7 0)) ∧ rg (lab (regs 7 0)) 6 = 0) :=
  ⟨⟨ready_by (by decide +kernel), by decide +kernel⟩, ready_by (by decide +kernel), by decide +kernel⟩

theorem witness_branches : ∀ x ∈ [(Instr.beq 5 6 0x4000#15, (5 : Word), (5 : Word)), (.bne 5 6 0, 5, 5), (.beqLong 5 6 1, 5, 6), (.blt 5 6 1, -1, 0), (.bgeu 5 6 1, -1, 0)],
    Ready (form x.1) (lab (regs x.2.1 x.2.2)) (lab (regs x.2.1 x.2.2)) := by
  intro i h; apply ready_by; revert i h; decide +kernel

/-- JALR where its target is aligned, and where it is not (R122). -/
theorem witness_jalr : ∀ x : Word, x = 0xFFFFFFFFFFFFFFF8 ∨ x = 4 → Ready (form (.jalr 1 5 0)) (lab (regs x 0)) (lab (regs x 0)) ∧
    ((rg (lab (regs x 0)) 5 + (0#15).signExtend 64).toNat % 8 = 0 ↔ x = 0xFFFFFFFFFFFFFFF8) := by
  rintro x (rfl | rfl) <;> exact ⟨ready_by (by decide +kernel), by decide +kernel⟩

/-- GADDR with the array's last element, past it, and outside a launch (R119, R120). -/
theorem witness_gaddr :
    (Ready (form (.gaddr 3 5 6)) (launched (regs 3 2)) (launched (regs 3 2)) ∧
      launchOf (launched (regs 3 2)) (opCtx (launched (regs 3 2))) = some launch0 ∧
      gaddrOf launch0 3 2 = .ok 0xF0080001C008) ∧
    (gaddrOf launch0 4 2 = .error 0x40022) ∧ launchOf (lab id) (opCtx (lab id)) = none :=
  ⟨⟨ready_by (by decide +kernel), by decide +kernel, by decide +kernel⟩, by decide +kernel, by decide +kernel⟩

/-- The NUM instructions, with FP32 1.0 and an anchor of −16 for the conversions; and the registers they refuse (R124 to R126). -/
theorem witness_num :
    (∀ i ∈ [Instr.rand 3 5 6, .rand 0 0 6, .rand 5 5 6, .cvtfx 30 5 6, .cvtfx 31 5 6, .cvtxf 3 4 6, .cvtxf 3 5 6],
      Ready (form i) (lab (regs 0x3F800000 0xFFF0)) (lab (regs 0x3F800000 0xFFF0))) ∧
    (∃ u, setFlags (lab (regs 0x3F800000 0xFFF0))
      [(floorToGrid (lo32 (rg (lab (regs 0x3F800000 0xFFF0)) 5)).toNat (anchor (rg (lab (regs 0x3F800000 0xFFF0)) 6))).2.1] = .ok u) ∧
    bits (rg (lab (regs 0x3F800000 0xFFF0)) 6).toNat 18 16 ≤ 4 ∧ 4 < bits (rg (lab (regs 0 0x50000)) 6).toNat 18 16 ∧
    (∃ u, setFlags (lab (regs 0x3F800000 0xFFF0))
      [(roundFromFixed (BitVec.ofNat 128 (rgPair (lab (regs 0x3F800000 0xFFF0)) 4)).toInt
        (anchor (rg (lab (regs 0x3F800000 0xFFF0)) 6)) .rne).2] = .ok u) :=
  ⟨ready_all _ (by decide +kernel), ⟨_, rfl⟩, by decide +kernel, by decide +kernel, ⟨_, rfl⟩⟩

/-- An address of the own pool reaches its first scratchpad bank, and no sector of it has failed. -/
theorem own_pool (kind : Nat) (need : Need) (n : Nat) (hk : kind ∈ [0, 1, 3]) (h : n ∈ [1, 2, 4, 8, 16, 64]) :
    OwnPool (at5 ownEa) (at5 ownEa) ownEa kind need 0x1C000 n ∧ failedIn (at5 ownEa) (ownAddr (at5 ownEa) 0x1C000) n = none := by
  have h1 : (ownEa.toNat % n = 0 ∧ roleAdmit (curCore (at5 ownEa)) 0x1C000 n = .yes) ∧
      failedIn (at5 ownEa) (ownAddr (at5 ownEa) 0x1C000) n = none := by revert n h; decide +kernel
  refine ⟨⟨h1.1.1, ?_, h1.1.2⟩, h1.2⟩
  simp only [List.mem_cons, List.not_mem_nil, or_false] at hk
  rcases hk with rfl | rfl | rfl <;> rfl

/-- The instructions that address the own pool through g5 are ready, and their address is the pool's. -/
theorem witness_ownPool : (∀ i ∈ [Instr.ldb 3 5 0, .ldqLong 4 5 0, .stb 6 5 0, .stqLong 6 5 0, .ldf 3 5 0, .ldc 3 5 0, .stf 6 5 0,
      .stfo 6 5 0, .empty 5 0, .feq 3 5 0, .ldfLong 3 5 0, .ldcLong 3 5 0, .stfLong 6 5 0, .stfoLong 6 5 0, .emptyLong 5 0, .feqLong 3 5 0,
      .amoadd ⟨.quad, true, true⟩ 2 5 6, .amocas ⟨.double, false, false⟩ 2 5 6, .vld 3 5 0, .vstLong 3 5 0, .pref 5 0, .cwb 5 0],
      Ready (form i) (at5 ownEa) (at5 ownEa)) ∧
    effAddr (at5 ownEa) 5 (imm12 0) = ownEa ∧ effAddr (at5 ownEa) 5 (imm32 0) = ownEa ∧ rg (at5 ownEa) 5 = ownEa :=
  ⟨ready_all _ (by decide +kernel), by decide +kernel, by decide +kernel, by decide +kernel⟩

/-- Loads that leave the core: of another pool, and of a page past the L1; and of a line that the L1 holds. -/
theorem witness_loadsElsewhere :
    (Ready (form (.ldd 3 5 0)) (at5 farEa) (at5 farEa) ∧ resolveCur (at5 farEa) farEa 0 .rd = .ok (at5 farEa, .pool 1 0x1C000)) ∧
    (∃ u, Ready (form (.ldd 3 5 0)) (paged 2) (paged 2) ∧ resolveCur (paged 2) 0x1000 0 .rd = .ok (u, .phys 0x3000 2 3) ∧
      (Target.phys 0x3000 2 3).afar u ∧ failedIn u 0x3000 8 = none ∧ (curCore u).loads.length < 32) ∧
    (∃ u, Ready (form (.ldd 3 5 0)) cached cached ∧ resolveCur cached 0x1000 0 .rd = .ok (u, .phys 0x3000 0 3) ∧
      servesL1 u u.cur.agent 0x3000 = true ∧ l1Read (curCore u) 0x3000 8 = some 0) :=
  ⟨⟨ready_by (by decide +kernel), rfl⟩,
    ⟨_, ready_by (by decide +kernel), resolve_page (by decide +kernel) (by decide +kernel) (by decide +kernel) 0 (by decide),
      by unfold Target.afar; decide +kernel, by decide +kernel, by decide +kernel⟩,
    _, ready_by (by decide +kernel), resolve_page (by decide +kernel) (by decide +kernel) (by decide +kernel) 0 (by decide), by decide +kernel,
      by decide +kernel⟩

/-- A store to another pool, and one that the L1 takes. -/
theorem witness_storesAfar :
    (∃ v, Ready (form (.std 6 5 0)) (at5 farEa) (at5 farEa) ∧ resolveCur (at5 farEa) farEa 1 .wr = .ok (at5 farEa, .pool 1 0x1C000) ∧
      (Target.pool 1 0x1C000).afar (at5 farEa) ∧ farEa.toNat % 8 = 0 ∧
      storeTo (at5 farEa) (.pool 1 0x1C000) farEa (bytesOf (rg (at5 farEa) 6).toNat 8) = .ok v) ∧
    (∃ u v, Ready (form (.std 6 5 0)) cached cached ∧ resolveCur cached 0x1000 1 .wr = .ok (u, .phys 0x3000 0 3) ∧
      servesL1 u u.cur.agent 0x3000 = true ∧ storeTo u (.phys 0x3000 0 3) 0x1000 (bytesOf (rg cached 6).toNat 8) = .ok v) :=
  ⟨(ok_of (by decide +kernel)).imp fun _ h => ⟨ready_by (by decide +kernel), rfl, trivial, by decide +kernel, h⟩, _,
    (ok_of (by decide +kernel)).imp fun _ h => ⟨ready_by (by decide +kernel),
      resolve_page (by decide +kernel) (by decide +kernel) (by decide +kernel) 1 (by decide), by decide +kernel, h⟩⟩

/-- The least misalignment of each width. -/
theorem witness_misaligned : ∀ x ∈ [(Instr.ldh 3 5 0, 2), (.ldw 3 5 0, 4), (.ldd 3 5 0, 8), (.ldq 4 5 0, 16), (.sth 6 5 0, 2), (.stf 6 5 0, 8),
    (.empty 5 0, 8), (.amoadd ⟨.word, false, false⟩ 3 5 6, 4), (.vldLong 3 5 0, 64)],
    Ready (form x.1) (at5 (ownEa + 1)) (at5 (ownEa + 1)) ∧ (ownEa + 1).toNat % x.2 ≠ 0 := by
  intro x h
  have : readyB x.1 (at5 (ownEa + 1)) = true ∧ (ownEa + 1).toNat % x.2 ≠ 0 := by revert x h; decide +kernel
  exact ⟨ready_by this.1, this.2⟩

/-- The conditions of the full/empty operations: a full word, a word that is empty, and no waiter and no grant. -/
theorem witness_fullEmpty :
    grantOf (at5 ownEa) = none ∧ feWaiters (at5 ownEa) (at5 ownEa).cur.agent (ownAddr (at5 ownEa) 0x1C000) = false ∧
    isFull (at5 ownEa) (ownAddr (at5 ownEa) 0x1C000) = false ∧
    isFull (setFe (at5 ownEa) (ownAddr (at5 ownEa) 0x1C000) true) (ownAddr (at5 ownEa) 0x1C000) = true ∧
    (∀ op ∈ [AOp.ldf, .ldc], feReady (at5 ownEa) (ownAddr (at5 ownEa) 0x1C000) op = false) ∧
    feReady (setFe (at5 ownEa) (ownAddr (at5 ownEa) 0x1C000) true) (ownAddr (at5 ownEa) 0x1C000) (.stf 1) = false ∧
    (at5 ownEa).dev.guest.released.contains (ownAddr (at5 ownEa) 0x1C000) = false := by
  decide +kernel

/-- A full word of the own pool with a failed sector, of SRAM and of DRAM (R191, R196). -/
def failing (sram : Bool) : State :=
  setFe (modDev (at5 ownEa) fun d => { d with failed := [(localAddr 0 0x1C000, sram)] }) (localAddr 0 0x1C000) true

theorem witness_failedFullEmpty : ∀ sram : Bool,
    (∀ i ∈ [Instr.ldf 3 5 0, .ldc 3 5 0, .ldfLong 3 5 0, .ldcLong 3 5 0], Ready (form i) (failing sram) (failing sram)) ∧
    OwnPool (failing sram) (failing sram) ownEa 0 .rd 0x1C000 8 ∧ effAddr (failing sram) 5 (imm12 0) = ownEa ∧ effAddr (failing sram) 5 (imm32 0) = ownEa ∧
    grantOf (failing sram) = none ∧ isFull (failing sram) (ownAddr (failing sram) 0x1C000) = true ∧
    feWaiters (failing sram) (failing sram).cur.agent (ownAddr (failing sram) 0x1C000) = false ∧
    failedIn (failing sram) (ownAddr (failing sram) 0x1C000) 8 = some sram := by
  rintro (_ | _) <;> exact ⟨ready_all _ (by decide +kernel), ⟨by decide +kernel, rfl, by decide +kernel⟩, by decide +kernel, by decide +kernel,
    by decide +kernel, by decide +kernel, by decide +kernel, by decide +kernel⟩

/-- An atomic that releases: nothing of the context is outstanding, so its release is done at once. -/
theorem witness_amo : ∃ v, release (at5 ownEa) .package = .ok v ∧ roleAdmit (curCore v) 0x1C000 16 = .yes ∧
    failedIn v (ownAddr v 0x1C000) 16 = none := ⟨_, rfl, by decide +kernel, by decide +kernel⟩

/-- The lanes of a strided access of the own pool. -/
theorem witness_vectorMemory :
    (∀ i ∈ [Instr.vld 3 5 0, .vst 3 5 0, .vlds 3 5 0 0, .vsts 3 5 0 0, .vldsLong 3 5 0 0, .vgath 3 5 3 0, .vscat 3 5 3 0, .vscatLong 3 5 3 0],
      Ready (form i) (at5 ownEa) (at5 ownEa)) ∧
    (∀ kind ∈ [0, 1], PartsOwn (at5 ownEa) [(0, ownEa)] kind .rd 64) ∧
    laneAddrs (effAddr (at5 ownEa) 5 (imm7 0)) (strided (at5 ownEa) 0) = (List.range 16).map (fun i => (4 * i, ownEa)) ∧
    PartsOwn (at5 ownEa) ((List.range 16).map fun i => (4 * i, ownEa)) 1 .wr 4 ∧
    (curCore (at5 ownEa)).loads.length ≤ 32 ∧ (at5 ownEa).dev.failed = [] ∧ (curCore (at5 ownEa)).journal.length ≤ 64 := by
  have hl : localOff ownEa = 0x1C000 := by decide +kernel
  refine ⟨ready_all _ (by decide +kernel), ?_, by decide +kernel, ?_, by decide +kernel, by decide +kernel, by decide +kernel⟩
  · intro kind hk p hp
    simp only [List.mem_singleton] at hp
    subst hp
    rw [hl]
    exact own_pool kind .rd 64 (by revert kind; decide) (by decide)
  · intro p hp
    obtain ⟨i, -, rfl⟩ := List.mem_map.mp hp
    rw [hl]
    exact own_pool 1 .wr 4 (by decide) (by decide)

/-- The cache instructions on a cached page (R200). -/
theorem witness_cache : (∀ i ∈ [Instr.cwb 5 0, .cinv 5 0, .cwbinvLong 5 0, .cwbL2 5 0], Ready (form i) cached cached) ∧
    isLocalEa ownEa = true ∧ effAddr cached 5 (imm12 0) = 0x1000 ∧ isLocalEa 0x1000 = false ∧
    (∀ need ∈ [Need.rd, .wr, .any], ∃ u, resolveCur cached 0x1000 3 need = .ok (u, .phys 0x3000 0 3) ∧ hasL1 u u.cur.agent = true) ∧
    (∀ pol ∈ [1, 2, 3], Ready (form (.pref 5 0)) (paged pol) (paged pol) ∧ Ready (form (.cwbLong 5 0)) (paged pol) (paged pol) ∧
      effAddr (paged pol) 5 (imm12 0) = 0x1000 ∧
      ∀ need ∈ [Need.rd, .wr, .any], ∃ u, resolveCur (paged pol) 0x1000 3 need = .ok (u, .phys 0x3000 pol 3)) ∧
    (Ready (form (.pref 5 0)) (lab (regs 0x1000 7)) (lab (regs 0x1000 7)) ∧ Ready (form (.prefLong 5 0)) (lab (regs 0x1000 7)) (lab (regs 0x1000 7)) ∧
      ∃ e, resolveCur (lab (regs 0x1000 7)) 0x1000 3 .any = .error e) := by
  refine ⟨ready_all _ (by decide +kernel), by decide +kernel, by decide +kernel, by decide +kernel, ?_, ?_,
    ready_by (by decide +kernel), ready_by (by decide +kernel), error_of (by decide +kernel)⟩
  · exact fun _ h => ⟨_, resolve_page (by decide +kernel) (by decide +kernel) (by decide +kernel) 3 h, by decide +kernel⟩
  · intro pol hp
    have hr : readyB (.pref 5 0) (paged pol) = true ∧ readyB (.cwbLong 5 0) (paged pol) = true ∧ effAddr (paged pol) 5 (imm12 0) = 0x1000 := by
      revert pol; decide +kernel
    exact ⟨ready_by hr.1, ready_by hr.2.1, hr.2.2, fun _ h => ⟨_, resolve_page rfl rfl rfl 3 h⟩⟩

/-- The vector and mask instructions in a calm context, whose flags trap nothing. -/
theorem witness_vector : (∀ i ∈ [Instr.vadd .f32 .rne 1 2 3, .vdiv .f16 .dyn 1 2 3, .vsqrt .bf16 .rup 1 2, .vmin .f32 1 2 3, .vfma 1 2 3 4,
      .vrcp 1 2, .vsigm 1 2, .vabs .f32 1 2, .vneg .f16 1 2, .vaddI 1 2 3, .vdot4I8 1 2 3, .vsel 1 2 7, .mand 0 1 7, .mset 3 5, .mpopc 3 7,
      .vcmp .i32 .ge 1 2 3, .vcmp .f32 .un 1 2 3, .vcmp .bf16 .eq 1 2 3, .vmov 1 2, .vbcast 1 5, .vext 3 1 15, .vins 1 5 15, .vperm 1 2 3,
      .vrand 1 5 6, .vred .fadd 3 1, .vscan .iadd 1 2, .vcvt 25 1 2, .vcvtSr 17 1 2 3, .vseq 5 15, .vseqStop 7, .anop],
      Ready (form i) (lab (regs 1 2)) (lab (regs 1 2))) ∧
    (∀ l : List FpFlags, ∃ u, setFlags (lab (regs 1 2)) l = .ok u) ∧ fpFtz (opCtx (lab (regs 1 2))) = false := by
  have h : fpEnabled (opCtx (lab (regs 1 2))) = 0 := by decide +kernel
  exact ⟨ready_all _ (by decide +kernel), fun l => ⟨modCur (lab (regs 1 2)) (·.orFlags (allFlags l)), by simp only [setFlags, h]; simp⟩,
    by decide +kernel⟩

/-- Each of the four enables of FPCTL with its flag alone (R65). -/
theorem witness_flags : ∀ x ∈ [(0x10000#64, 8), (0x20000, 4), (0x40000, 2), (0x80000, 1)],
    allFlags [x.2] &&& fpEnabled (opCtx (lab fun c => { c with fpctl := x.1 })) &&& x.2 ≠ 0 := by decide +kernel

/-- A stream of one vector of words bound to f0. -/
def stream0 : Stream := ⟨false, .w32, ownEa, [16], [4], 16, 16, [], 0, none, [], 0, true⟩

/-- A context that replays one vector addition for the last time. -/
def replaying0 : State := lab fun c => { c with seqr := some ⟨[(.vaddI 1 2 3, 0x400000)], 0, 1, none, 0, false, false⟩ }

theorem witness_sequencer :
    (Ready (form (.vseqS 0 15)) (lab fun c => { c with streams := [(0, stream0)] }) (lab fun c => { c with streams := [(0, stream0)] }) ∧
      (streamOf (opCtx (lab fun c => { c with streams := [(0, stream0)] })) 0).isSome = true) ∧
    (Ready (form (.vseqS 7 0)) (lab id) (lab id) ∧ streamOf (opCtx (lab id)) 7 = none) ∧
    ∃ q e d, (getCtx replaying0 slot0).seqr = some q ∧ q.capture = 0 ∧ q.stop = false ∧ q.faulted = false ∧
      (getCtx replaying0 slot0).killed = false ∧ q.streamEnded (getCtx replaying0 slot0) = false ∧
      q.body[q.at_]? = some (.vaddI 1 2 3, 0x400000) ∧ seqEffect (.vaddI 1 2 3) = some e ∧
      presence { replaying0 with cur := slot0, latch := none } (form (.vaddI 1 2 3)).gr = .ok () ∧
      flightCheck (form (.vaddI 1 2 3)) { replaying0 with cur := slot0, latch := none } = .ok () ∧
      writeChecks { replaying0 with cur := slot0, latch := none } (form (.vaddI 1 2 3)).fw.dedup = .ok { replaying0 with cur := slot0, latch := none } ∧
      readChecks { replaying0 with cur := slot0, latch := none } (form (.vaddI 1 2 3)).fr.dedup = .ok () ∧
      e { replaying0 with cur := slot0, latch := none } = .ok d :=
  ⟨⟨ready_eval (by decide +kernel), by decide +kernel⟩, ⟨ready_by (by decide +kernel), by decide +kernel⟩,
    ⟨[(.vaddI 1 2 3, 0x400000)], 0, 1, none, 0, false, false⟩, _, _, rfl, rfl, rfl, rfl, rfl, by decide +kernel, by decide +kernel, rfl,
    by decide +kernel, by decide +kernel, by decide +kernel, by decide +kernel, rfl⟩

/-- END, YIELD, fences and SNAP (R77, R80, R208, R355). -/
theorem witness_system :
    (∀ i ∈ [Instr.nop, .hint 31 31 31 31, .endAct, .yield, .fenceRel .system, .fenceAcq .core, .fenceAr .package, .ifence .core, .time 3,
      .timeSinceClapper 3, .timeToEgress 3, .sysr 3 0x002#10, .sysr 3 0x0FF#10, .sysw 0x005#10 5, .sysw 0x008#10 5], Ready (form i) (lab id) (lab id)) ∧
    ((opCtx (lab id)).depth = 0 ∧ (opCtx (lab id)).seqr = none ∧ (opCtx (lab id)).cpyOpen = 0 ∧ recruiting (lab id) = false ∧
      (opCtx (lab id)).spawned = false) ∧
    released (startWriteBacks (lab id) .system) .system = true ∧
    (accessesOut (curCtx (lab id)) = false ∧ sinksOut (lab id) (lab id).cur = false) ∧
    (Ready (form (.snap 3)) (lab fun c => { c with status := 1 }) (lab fun c => { c with status := 1 }) ∧
      (lab fun c => { c with status := 1 }).dev.snap.swEn = true ∧ (lab fun c => { c with status := 1 }).dev.snap.held = false) :=
  ⟨ready_all _ (by decide +kernel), by decide +kernel, by decide +kernel, by decide +kernel, ready_by (by decide +kernel), by decide +kernel,
    by decide +kernel⟩

/-- A context with a handler, and one in it. -/
def trapping : State := lab fun c => { c with tvec := 0x500000 }
def inHandler : State := lab fun c => { c with tvec := 0x500000 }.enterTrap 0x3D 35 0x400000 false
def inUserHandler : State := lab fun c => { c with
  status := 0x300 ||| 0x10, ui := some ⟨[0, 0, 0, 0], BitVec.allOnes 32, 0, 0, none⟩ }

theorem witness_traps :
    (∀ i ∈ [Instr.syscall 1023, .brk 0], Ready (form i) trapping trapping) ∧
    ((opCtx trapping).quiet = true ∧ (opCtx trapping).depth = 0 ∧ (getCtx trapping trapping.cur).inTrap = false ∧
      (getCtx trapping trapping.cur).tvec ≠ 0) ∧
    (Ready (form .tret) inHandler inHandler ∧ (opCtx inHandler).quiet = true ∧ (opCtx inHandler).seqr = none ∧ (opCtx inHandler).inTrap = true ∧
      (opCtx inHandler).trap.isSome = true) ∧
    (Ready (form .tret) inUserHandler inUserHandler ∧ (opCtx inUserHandler).quiet = true ∧ (opCtx inUserHandler).inTrap = false ∧
      (opCtx inUserHandler).ui.isSome = true) ∧
    (absent (form .tret) trapping = false ∧ (opCtx trapping).inTrap = false ∧ (opCtx trapping).inUi = false) :=
  ⟨ready_all _ (by decide +kernel), by decide +kernel, ⟨ready_by (by decide +kernel), by decide +kernel⟩,
    ⟨ready_by (by decide +kernel), by decide +kernel⟩, by decide +kernel⟩

/-- System and device registers: each level at a boundary of what it may name (R49). -/
theorem witness_systemRegisters :
    (∀ i ∈ [Instr.sysr 3 0x1FF#10, .sysr 3 0x104#10, .sysw 0x105#10 5, .sysw 0x100#10 5, .sysw 0x1FF#10 5],
      Ready (form i) (lab fun c => { regs 1 2 c with status := 1 }) (lab fun c => { regs 1 2 c with status := 1 })) ∧
    (∀ i ∈ [Instr.sysr 3 0x200#10, .sysr 3 0x3FF#10, .sysw 0x200#10 5, .sysw 0x30C#10 5], Ready (form i) (fwLab 3 id) (fwLab 3 id)) ∧
    (∃ u, writeDev (fwLab 3 id) 3 0x240 7 = .ok u) ∧ (fwLab 3 id).dev.dom.switch = none :=
  ⟨ready_all _ (by decide +kernel), ready_all _ (by decide +kernel), ⟨_, rfl⟩, by decide +kernel⟩

/-- A launch's context in front of gates 0, 254 and 255, and one of gate 0's callees. -/
def gate0 : Gate := ⟨true, true, 1, 0, 8, 8, 7, 0, 0x500000, 100, 0, some 0⟩
def gated (f : Ctx → Ctx) : State := modDev (launched f) fun d => { d with gates := [(254, gate0), (255, gate0)] }
def callee : State := gated fun c => enterGate c 3 254 gate0

theorem witness_gates :
    (∀ i : Nat, i = 254 ∨ i = 255 → Ready (form (.gate 3 (BitVec.ofNat 10 i))) (gated id) (gated id) ∧
      Ready (form (.gate 12 (BitVec.ofNat 10 i))) (gated id) (gated id) ∧
      (aget Gate.off i (gated id).dev.gates).valid = true ∧ gateAdmits (gated id) (aget Gate.off i (gated id).dev.gates) = true ∧
      (∀ k < (aget Gate.off i (gated id).dev.gates).narg, argReason (gated id) (aget Gate.off i (gated id).dev.gates).akind k = 0)) ∧
    ((opCtx (gated id)).depth < 4 ∧ (opCtx (gated id)).inTrap = false ∧ (opCtx (gated id)).inUi = false ∧ (opCtx (gated id)).streams = [] ∧
      (opCtx (gated id)).ports = [] ∧ (opCtx (gated id)).a &&& 0xFFFE#32 = 0 ∧ (opCtx (gated id)).seqr = none ∧ (opCtx (gated id)).quiet = true ∧
      sinksOut (gated id) (gated id).cur = false ∧ framesHeld (gated id) (gated id).cur.agent < 4) ∧
    released (startWriteBacks (gated id) .core) .core = true ∧ (aget Gate.off 254 (gated id).dev.gates).handler % 8 = 0 ∧
    (∃ v, arenaCall (acquireNow (startWriteBacks (gated id) .core) .core) = .ok v) ∧
    (Ready (form (.gate 3 253)) (gated id) (gated id) ∧ (aget Gate.off 253 (gated id).dev.gates).valid = false) ∧
    (Ready (form .gret) callee callee ∧ (∃ f l, (opCtx callee).frames = f :: l) ∧ replaying (opCtx callee) = false ∧ (opCtx callee).quiet = true ∧
      sinksOut callee callee.cur = false ∧ released (startWriteBacks callee .core) .core = true) ∧
    (Ready (form .gret) (gated id) (gated id) ∧ (opCtx (gated id)).frames = []) := by
  refine ⟨?_, by decide +kernel, by decide +kernel, by decide +kernel, ok_of (by decide +kernel), ⟨ready_by (by decide +kernel), by decide +kernel⟩,
    ⟨ready_by (by decide +kernel), List.exists_cons_of_ne_nil (by decide +kernel), by decide +kernel, by decide +kernel, by decide +kernel, by decide +kernel⟩,
    ready_by (by decide +kernel), by decide +kernel⟩
  rintro i (rfl | rfl) <;>
    exact ⟨ready_by (by decide +kernel), ready_by (by decide +kernel), by decide +kernel, by decide +kernel, by decide +kernel⟩

/-- A region of the launch with a slate of take 5, a largest age, and the take that is. -/
def sliced (x slate : Word) (maxage take : Nat) : State :=
  modDev (launchedCore (regs x 0) fun co => { co with
    regionBlocks := [⟨0, 0, 1⟩], regions := co.regions.set 0 { Region.none with valid := true, slate := slate, age := w64 (maxage * 2 ^ 40) } })
    fun d => { d with time := { d.time with takeno := take } }

/-- What SLATE and SLCHK find: a region with no slate, one at its largest age, one past it, one with no largest age; and none (R323, R324). -/
theorem witness_slates :
    (∀ x ∈ [((0 : Word), (0 : Word), 3, 8), (0, 0x50001, 3, 8), (0, 0x50001, 3, 9), (0, 0x50001, 255, 9), (1, 0x50001, 3, 8)],
      ∀ i ∈ [Instr.slateMin 3 5, .slateSet 3 5, .slateRd 3, .slateRgn 3 5, .slateFold 3 5, .slchk 3 5, .slchkTrap 3 5],
      Ready (form i) (sliced x.1 x.2.1 x.2.2.1 x.2.2.2) (sliced x.1 x.2.1 x.2.2.1 x.2.2.2)) ∧
    (findRegion (curCore (sliced 0 0x50001 3 8)) (opCtx (sliced 0 0x50001 3 8)).launch 0).isSome = true ∧
    findRegion (curCore (sliced 1 0x50001 3 8)) (opCtx (sliced 1 0x50001 3 8)).launch 1 = none ∧
    slateAge (sliced 0 0x50001 3 8) 0x50001 = 3 ∧ slateAge (sliced 0 0x50001 3 9) 0x50001 = 4 ∧
    (∀ r, findRegion (curCore (sliced 0 0x50001 255 9)) (some 0) 0 = some (0, r) → r.maxage = 255) ∧
    ((rg (sliced 0x80000 0 3 8) 5).toNat / 2 ^ 16 ≤ takeNo (sliced 0x80000 0 3 8) ∧
      takeNo (sliced 0x90000 0 3 8) < (rg (sliced 0x90000 0 3 8) 5).toNat / 2 ^ 16) := by
  refine ⟨?_, by decide +kernel, by decide +kernel, by decide +kernel, by decide +kernel, ?_, by decide +kernel⟩
  · intro x hx i hi
    have h : readyB i (sliced x.1 x.2.1 x.2.2.1 x.2.2.2) = true := by revert x i; decide +kernel
    exact ready_by h
  · intro r h
    have e : findRegion (curCore (sliced 0 0x50001 255 9)) (some 0) 0 =
      some (0, { Region.none with valid := true, slate := 0x50001, age := w64 (255 * 2 ^ 40) }) := by decide +kernel
    rw [e, Option.some.injEq, Prod.mk.injEq] at h
    rw [← h.2]
    decide +kernel

/-- A stale region that asks firmware and sends a message of type 7, and queue 0 that takes type `ty`. -/
def sunk (ask : Bool) (ty : BitVec 16) : State :=
  modDev (launchedCore (regs 0 0) fun co => { co with
    regionBlocks := [⟨0, 0, 1⟩]
    regions := co.regions.set 0 { Region.none with valid := true, slate := 0x50001, age := w64 (3 * 2 ^ 40 + b2n ask * 2 ^ 33 + 2 ^ 32 + 7 * 2 ^ 16) }
    queues := co.queues.set 0 { Queue.free with valid := true, launch := some 0, depth := 4, type := ty, tmask := 0xFFFF } })
    fun d => { d with time := { d.time with takeno := 9 } }

theorem witness_staleMessage : ∀ ask : Bool,
    (∀ ty : BitVec 16, ty = 7 ∨ ty = 8 → Ready (form (.slchk 3 5)) (sunk ask ty) (sunk ask ty) ∧
      ∃ r, findRegion (curCore (sunk ask ty)) (opCtx (sunk ask ty)).launch ((rg (sunk ask ty) 5).toNat % 64) = some (0, r) ∧ r.sinken = true ∧ r.ask = ask ∧
        r.stype = 7 ∧ r.slate = 0x50001 ∧ r.maxage = 3) ∧
    slateAge (sunk ask 7) 0x50001 = 4 ∧
    matchQueue (sunk ask 8) (.tile 0) { message0 with route := 7 } = none ∧ matchQueue (sunk ask 7) (.tile 0) { message0 with route := 7 } = some 0 ∧
    (∃ u, storeMsg (sunk ask 7) (.tile 0) 0 message0 false = some u) := by
  rintro (_ | _) <;> refine ⟨?_, by decide +kernel, by decide +kernel, by decide +kernel, Option.isSome_iff_exists.mp (by decide +kernel)⟩ <;>
    rintro ty (rfl | rfl) <;> exact ⟨ready_by (by decide +kernel), _, rfl, by decide +kernel⟩

/-- Slates of one take that differ in phase, in origin, and not at all; and the list that the fold takes. -/
theorem witness_oldest : (0x50000#64).toNat / 256 < (0x50100#64).toNat / 256 ∧ (0x50000#64).toNat % 128 < (0x5007F#64).toNat % 128 ∧
    (0x5007F#64).toNat / 256 = (0x500FF#64).toNat / 256 ∧ (0x5007F#64).toNat % 128 = (0x500FF#64).toNat % 128 ∧
    slateOk 0 ∧ slateOk 0x50000 ∧ slateOk 0xFF := by unfold slateOk; decide +kernel

/-- Words that a level or a core may not issue, at the boundaries (R40, R41, R49). -/
theorem witness_privilege :
    (∀ i ∈ [Instr.tret, .snap 3, .sysr 3 0x100#10, .sysw 0x004#10 5, .kill 3 5, .invpg 3 5 6], wordFault (form i) (lab id) = some 0x03) ∧
    (∀ i ∈ [Instr.sysr 3 0x0FF#10, .sysw 0x005#10 5, .sysw 0x008#10 5], wordFault (form i) (lab id) = none) ∧
    (∀ i ∈ [Instr.sysr 3 0x1FF#10, .snap 3, .kill 3 5], wordFault (form i) (lab fun c => { c with status := 1 }) = none) ∧
    (∀ i ∈ [Instr.sysr 3 0x200#10, .sysw 0x200#10 5, .invpg 3 5 6], wordFault (form i) (lab fun c => { c with status := 1 }) = some 0x03) ∧
    wordFault (form (.invpg 3 5 6)) (fwLab 3 id) = none ∧
    (∀ i ∈ [Instr.send 5 6 1, .spawn 0 5 6 1, .ringQry 3 15, .treeWait 3 5, .poolQry 3 5, .cpyStat 3 5 false, .sclose 7, .linkStat 3, .accClr 1],
      wordFault (form i) (fwLab 3 id) = some 0x04) ∧
    (∀ i ∈ [Instr.cpyStat 3 5 false, .sclose 7, .linkStat 3, .accClr 1], wordFault (form i) (launchedAt 1 [0, 1] id id) = some 0x04) ∧
    (∀ i ∈ [Instr.cvtMx 4 5 6 ⟨0, 0, false, false, false, false, 8, 0⟩, .mma 1 14 15 ⟨0, 0, 0, false, false, true, true, true, true, 0, 0⟩, .accStat 3 1],
      wordFault (form i) (lab id) = some 0x04) ∧
    ((opCtx (lab id)).depth = 0 ∧ roleOf (lab id).cur.agent ≠ 3 ∧ isFw (fwLab 3 id).cur.agent = true) := by
  decide +kernel

/-- A launch's context that sends to core 4, and one whose send queue is full. -/
def sending (a b : Word) (n : Nat) : State := launchedCore (regs a b) fun co => { co with sendq := Vector.replicate 4 (List.replicate n ⟨slot0, 1, false, none⟩) }

theorem witness_sending :
    (∀ i ∈ [Instr.send 5 24 8, .sendq 5 6 0, .cut 5, .sendr 5 6 31], Ready (form i) (sending 0xFFFD0004 2 31) (sending 0xFFFD0004 2 31)) ∧
    (destOk (sending 0xFFFD0004 2 31) (rg (sending 0xFFFD0004 2 31) 5) ∧ bits (rg (sending 0xFFFD0004 2 31) 5).toNat 31 16 < 0xFFFE ∧
      payloadOk 24 8 ∧ payloadOk 31 0 ∧ sendRoom (sending 0xFFFD0004 2 31) 0 ∧ freeEntry (curCore (sending 0xFFFD0004 2 31)).journal = some 0) ∧
    ¬sendRoom (sending 0xFFFD0004 2 32) 0 ∧ inLaunch (sending 1 2 0) (opCtx (sending 1 2 0)) 1 = false ∧
    (Ready (form (.reply 5 6)) (sending 0 2 0) (sending 0 2 0) ∧ bit (rg (sending 0 2 0) 5).toNat 63 = false) ∧
    (Ready (form (.replyQ 5 6)) (sending 0x8000000000000004 2 31) (sending 0x8000000000000004 2 31) ∧
      bit (rg (sending 0x8000000000000004 2 31) 5).toNat 63 = true ∧ sendRoom (sending 0x8000000000000004 2 31) 1) ∧
    (Ready (form (.putn 6 5 31 1)) (sending (0xF00800000000 + 0x1C000) 2 0) (sending (0xF00800000000 + 0x1C000) 2 0) ∧
      payloadOk 31 1 ∧ (0xF0080001C000#64).toNat % 8 = 0 ∧ isLocal (0xF0080001C000#64).toNat = true ∧
      inLaunch (sending (0xF00800000000 + 0x1C000) 2 0) (opCtx (sending (0xF00800000000 + 0x1C000) 2 0)) (bits (0xF0080001C000#64).toNat 43 33) = true) :=
  ⟨ready_all _ (by decide +kernel), by unfold destOk payloadOk sendRoom; decide +kernel, by unfold sendRoom; decide +kernel, by decide +kernel,
    ⟨ready_by (by decide +kernel), by decide +kernel⟩, ⟨ready_by (by decide +kernel), by decide +kernel, by unfold sendRoom; decide +kernel⟩,
    ready_by (by decide +kernel), by unfold payloadOk; decide +kernel, by decide +kernel, by decide +kernel, by decide +kernel⟩

/-- An address of the own pool resolves in every state of the core. -/
theorem resolve_own (s : State) (h : s.cur.agent = .tile 0) (need : Need) : resolveCur s ownEa 1 need = .ok (s, .own 0x1C000) := by
  have e : resolve s (.tile 0) (opCtx s).asid (curLevel s == 0) ownEa 1 need = .ok (s, .own 0x1C000) := rfl
  rw [resolveCur, h, e]

/-- A queue of the launch with `n` messages. -/
def queued (a b : Word) (valid : Bool) (l : List Message) : State := launchedCore (regs a b) fun co => { co with
  queues := co.queues.set 63 { Queue.free with valid := valid, launch := some 0, depth := 4, maxage := 255, msgs := l } }

theorem witness_receiving :
    (∀ i ∈ [Instr.getr 3 5 6, .getrArm 31, .getrDis 1], Ready (form i) (sending 0x70004 2 0) (sending 0x70004 2 0)) ∧
    (∀ d : GReg, getrHold (sending 0x70004 2 0) d = .ok ()) ∧ freeSink (curCore (sending 0x70004 2 0)) = some 0 ∧
    freeSink { (curCore (sending 0x70004 2 0)) with sinks := Vector.replicate 16 ⟨1, some (curWho (sending 0x70004 2 0) 0, 7), 4, none⟩ } = none ∧
    (∀ i ∈ [Instr.qpop 3 5 6, .qpeek 3 5 6, .qstat 3 5, .qstatClr 3 5],
      Ready (form i) (queued 63 ownEa true [message0]) (queued 63 ownEa true [message0])) ∧
    ((curCore (queued 63 ownEa false [])).queues[(Fin.ofNat 64 63 : Fin 64)]).valid = false ∧
    ((curCore (readyQueue (queued 63 ownEa true []) (.tile 0) 63)).queues[(63 : Fin 64)]).msgs = [] ∧
    (let t := queued 63 ownEa true [message0]
     let r := readyQueue t t.cur.agent 63
     ((curCore t).queues[(63 : Fin 64)]).valid = true ∧ ((curCore t).queues[(63 : Fin 64)]).launch = (opCtx t).launch ∧
      ((curCore r).queues[(63 : Fin 64)]).msgs = [message0] ∧ staleHead r ((curCore r).queues[(63 : Fin 64)]) = false ∧ (rg t 6).toNat % 8 = 0 ∧
      ownCheck r (rg t 6) 0x1C000 88 true = .ok ()) ∧
    rg (queued 63 ownEa true [message0]) 6 = ownEa ∧
    resolveCur (readyQueue (queued 63 ownEa true [message0]) (.tile 0) 63) ownEa 1 .wr =
      .ok (readyQueue (queued 63 ownEa true [message0]) (.tile 0) 63, .own 0x1C000) := by
  refine ⟨ready_all _ (by decide +kernel), by decide +kernel, by decide +kernel, by decide +kernel, ready_all _ (by decide +kernel), by decide +kernel,
    by decide +kernel, by decide +kernel, by decide +kernel, resolve_own _ (by decide +kernel) _⟩

/-- A cell that the context of slot 0 has opened. -/
def openCell (spawned arrived : Nat) : Cell := { Cell.closed with isOpen := true, openerGen := 1, spawned := spawned, arrived := arrived }
/-- A launch's context of core 0 with cell 0 of its core. -/
def joining (a b : Word) (x : Cell) : State := launchedCore (regs a b) fun co => { co with cells := co.cells.set 0 x }
/-- The same where the owner has answered the bundle. -/
def granted (v : Word) : State := launched fun c => { c with grants := [⟨0x400000, 1, some v⟩] }

/-- A context that spawns to any core of role 0, in a launch that is deterministic or not. -/
def roled (det : Bool) : State := modDev (joining (2 ^ 63) 0x400000 (openCell 0 0)) fun d => { d with launches := [{ launch0 with det := det }] }

theorem witness_spawn :
    (∀ i ∈ [Instr.spawn 0 5 6 31, .spawn 7 5 6 30], Ready (form i) (joining 4 0x400000 (openCell 65534 0)) (joining 4 0x400000 (openCell 65534 0))) ∧
    (let t := joining 4 0x400000 (openCell 65534 0)
     (rg t 6).toNat % 8 = 0 ∧ (rg t 5).toNat % 4 ≠ 3 ∧ bit (rg t 5).toNat 63 = false ∧ inLaunch t (opCtx t) ((rg t 5).toNat % 2 ^ 11) = true ∧
      recruiting t = false ∧ t.cur.agent = .tile (jwOwner (rg t 7)) ∧ (getCell (curCore t) (jwCell (rg t 7))).isOpen = true ∧
      opened (jwOwner (rg t 7)) (getCell (curCore t) (jwCell (rg t 7))) (curWho t 0) = true ∧
      (getCell (curCore t) (jwCell (rg t 7))).spawned < 65535 ∧ sendRoom t 3) ∧
    (∀ det : Bool, let t := roled det
     (∀ i ∈ [Instr.spawn 0 5 6 31, .forkR 7 5 6 28], Ready (form i) t t) ∧ bit (rg t 5).toNat 63 = true ∧ (rg t 5).toNat % 4 = 0 ∧ isDet t = det ∧
      (∃ l, launchOf t (opCtx t) = some l ∧ roleCores l ((rg t 5).toNat % 4) = [0, 4, 8]) ∧ recruiting t = false ∧ sendRoom t 3) ∧
    (let t := joining (2 ^ 32 + 5) 0x400000 (openCell 65530 0)
     Ready (form (.forkR 7 5 6 28)) t t ∧ t.cur.agent = .tile (jwOwner (rg t 7)) ∧ (getCell (curCore t) (jwCell (rg t 7))).isOpen = true ∧
      opened (jwOwner (rg t 7)) (getCell (curCore t) (jwCell (rg t 7))) (curWho t 0) = true ∧ (getCell (curCore t) (jwCell (rg t 7))).spawned +
      ((rg t 5).toNat % 2 ^ 32 + Nat.max 1 (bits (rg t 5).toNat 47 32) - 1) / Nat.max 1 (bits (rg t 5).toNat 47 32) = 65535) ∧
    (∀ a : Word, a = 0 ∨ a = 1 → Ready (form (.forkR 0 5 6 28)) (joining a 0x400000 Cell.closed) (joining a 0x400000 Cell.closed)) ∧
    ((rg (joining 0 0 Cell.closed) 5).toNat % 2 ^ 32 = 0 ∧ (rg (joining 1 0 Cell.closed) 5).toNat % 2 ^ 32 ≠ 0) ∧
    (Ready (form (.spawn 0 5 6 28)) (joining 4 4 Cell.closed) (joining 4 4 Cell.closed) ∧ (rg (joining 4 4 Cell.closed) 6).toNat % 8 ≠ 0) := by
  refine ⟨ready_all _ (by decide +kernel), by unfold sendRoom; decide +kernel, ?_, ⟨ready_by (by decide +kernel), by decide +kernel⟩, ?_, by decide +kernel,
    ready_by (by decide +kernel), by decide +kernel⟩
  · rintro (_ | _) <;> exact ⟨ready_all _ (by decide +kernel), by decide +kernel, by decide +kernel, by decide +kernel, ⟨_, rfl, by decide +kernel⟩,
      by decide +kernel, by unfold sendRoom; decide +kernel⟩
  · rintro a (rfl | rfl) <;> exact ready_by (by decide +kernel)

theorem witness_join :
    (Ready (form (.joinOpen 3 5 6)) (joining 0 0x100008 Cell.closed) (joining 0 0x100008 Cell.closed) ∧
      (getCell (curCore (joining 0 0x100008 Cell.closed)) 0).isOpen = false ∧ bit (rg (joining 0 0x100008 Cell.closed) 6).toNat 20 = true ∧
      (rg (joining 0 0x100008 Cell.closed) 6).toNat % 8 = 0) ∧
    (getCell (curCore (joining 0 0 (openCell 0 0))) 0).isOpen = true ∧
    (∀ v : Word, v = 3 ∨ v = 0x4000000000000000 ∨ v = 0x200000000 → (∀ i ∈ [Instr.join 3 5 6, .joinSeal 3 5, .joinWait 3 5],
      Ready (form i) (granted v) (granted v)) ∧ answered (granted v) v ∧ endCheck (granted v) = .ok ()) ∧
    (bits (3#64).toNat 39 32 = 0 ∧ bit (3#64).toNat 62 = false ∧ bit (0x4000000000000000#64).toNat 62 = true ∧ bits (0x200000000#64).toNat 39 32 ≠ 0) ∧
    (let t := joining 0 0 (openCell 2 0)
     Ready (form (.join 3 5 6)) t t ∧ grantOf t = none ∧ inLaunch t (opCtx t) (jwOwner (rg t 5)) = true ∧ t.cur.agent = .tile (jwOwner (rg t 5)) ∧
      jwIndex (rg t 5) ≠ 0xFFFF ∧ recruiting t = false ∧ released (startWriteBacks t .package) .package = true) ∧
    (let t := startWriteBacks (joining 0 0 (openCell 2 0)) .package
     (getCell (curCore t) 0).isOpen = true ∧ (getCell (curCore t) 0).ren = false ∧ (getCell (curCore t) 0).arrived + 1 < (getCell (curCore t) 0).spawned ∧ endCheck t = .ok ()) ∧
    (let t := joining 0 0 (openCell 2 2)
     (∀ i ∈ [Instr.joinSeal 3 5, .joinWait 3 5], Ready (form i) t t) ∧ grantOf t = none ∧ recruiting t = false ∧ (getCell (curCore t) 0).isOpen = true ∧
      opened 0 (getCell (curCore t) 0) (curWho t 0) = true ∧ (getCell (curCore t) 0).arrived = (getCell (curCore t) 0).spawned ∧
      accessesOut (curCtx t) = false ∧ sinksOut t t.cur = false) ∧
    (let t := joining 0 0 (openCell 2 1)
     Ready (form (.joinSeal 3 5)) t t ∧ opened 0 (getCell (curCore t) 0) (curWho t 0) = true ∧ (getCell (curCore t) 0).det = false ∧ endCheck t = .ok ()) := by
  refine ⟨⟨ready_by (by decide +kernel), by decide +kernel⟩, by decide +kernel, ?_, by decide +kernel,
    ⟨ready_by (by decide +kernel), by decide +kernel, by decide +kernel, by decide +kernel, by decide +kernel, by decide +kernel, by decide +kernel⟩,
    by decide +kernel, ⟨ready_all _ (by decide +kernel), by decide +kernel⟩, ready_by (by decide +kernel), by decide +kernel⟩
  rintro v (rfl | rfl | rfl) <;> exact ⟨ready_all _ (by decide +kernel), ⟨_, rfl, rfl⟩, by decide +kernel⟩

/-- A user-level context with `n` cycles of its activation's budget, in a task with 5 of its take's. -/
def budgeted (v : Word) (n : Nat) (task : Bool) : State :=
  launchedCore (fun c => { regs v 0 c with actLeft := n, queue := if task then some 3 else none })
    fun co => { co with queues := co.queues.set 3 { Queue.free with serial := true, takeLeft := 5 } }

theorem witness_budget :
    (∀ v : Word, v = 5 ∨ v = 6 → ∀ task, Ready (form (.budgetAct 3 5)) (budgeted v 5 task) (budgeted v 5 task) ∧
      Ready (form (.budgetTake 3 5)) (budgeted v 5 task) (budgeted v 5 task)) ∧
    (let t := budgeted 5 0xFFFFFFFF false
     Nat.min (rg t 5).toNat 0xFFFFFFFF ≤ (curCtx (elapse t)).actLeft ∧ Nat.min (rg t 5).toNat 0xFFFFFFFF ≠ 0xFFFFFFFF ∧ curLevel t = 0) ∧
    (curCtx (elapse (budgeted 6 5 false))).actLeft < Nat.min (rg (budgeted 6 5 false) 5).toNat 0xFFFFFFFF ∧
    Nat.min (rg (budgeted 0xFFFFFFFF 5 false) 5).toNat 0xFFFFFFFF = 0xFFFFFFFF ∧
    taskOf (budgeted 5 5 false) (opCtx (budgeted 5 5 false)) = none ∧ taskOf (budgeted 5 5 true) (opCtx (budgeted 5 5 true)) = some 3 ∧
    Nat.min (rg (budgeted 5 5 true) 5).toNat 0xFFFFFFFF ≤ ((curCore (budgeted 5 5 true)).queues[(3 : Fin 64)]).takeLeft ∧
    ((curCore (budgeted 6 5 true)).queues[(3 : Fin 64)]).takeLeft < Nat.min (rg (budgeted 6 5 true) 5).toNat 0xFFFFFFFF := by
  refine ⟨?_, by decide +kernel, ?_, by decide +kernel, by decide +kernel, by decide +kernel, by decide +kernel, by decide +kernel⟩
  · rintro v (rfl | rfl) (_ | _) <;> exact ⟨ready_by (by decide +kernel), ready_by (by decide +kernel)⟩
  · have h : (curCtx (elapse (budgeted 6 5 false))).actLeft = 5 - Config.cycles (budgeted 6 5 false).fresh := rfl
    have k : Nat.min (rg (budgeted 6 5 false) 5).toNat 0xFFFFFFFF = 6 := by decide +kernel
    omega

/-- KILL of the context itself, of one of another core, and of a core that the launch does not have; INVPG. -/
theorem witness_kill :
    (∀ a : Word, a = 0x100000000 ∨ a = 0x100000004 ∨ a = 1 →
      Ready (form (.kill 3 5)) (launched fun c => { regs a 0 c with status := 1 }) (launched fun c => { regs a 0 c with status := 1 })) ∧
    (let t := launched fun c => { regs 0x100000000 0 c with status := 1 }
     inLaunch t (opCtx t) ((rg t 5).toNat % 2 ^ 11) = true ∧ t.cur.agent = .tile ((rg t 5).toNat % 2 ^ 11) ∧
      bits (rg t 5).toNat 21 16 = t.cur.slot ∧ bits (rg t 5).toNat 47 32 = (opCtx t).gen.toNat) ∧
    (let t := launched fun c => { regs 0x100000004 0 c with status := 1 }
     inLaunch t (opCtx t) ((rg t 5).toNat % 2 ^ 11) = true ∧ t.cur.agent ≠ .tile ((rg t 5).toNat % 2 ^ 11)) ∧
    (let t := launched fun c => { regs 1 0 c with status := 1 }
     inLaunch t (opCtx t) ((rg t 5).toNat % 2 ^ 11) = false) ∧
    (Ready (form (.invpg 3 5 6)) (fwLab 3 id) (fwLab 3 id) ∧ (fwLab 3 id).dev.invpg = none) := by
  refine ⟨?_, by decide +kernel, by decide +kernel, by decide +kernel, ready_by (by decide +kernel), by decide +kernel⟩
  rintro a (rfl | rfl | rfl) <;> exact ready_by (by decide +kernel)

/-- Barrier 511 of core 0, of which core `n`'s context holds the address. -/
def barriered (n : Nat) (b : Word) (x : Barrier) : State :=
  modCore (launchedAt n [0, 4] (regs 511 b) id) (.tile 0) fun co => setBar co 511 x
/-- A live barrier. -/
def live (expect arrived : Nat) (pend : Int) : Barrier := { Barrier.off with live := true, expect := expect, arrived := arrived, pend := pend }

theorem witness_barriers :
    (∀ n, n = 0 ∨ n = 4 → ∀ i ∈ [Instr.grpMem 3 5, .barInit 5 6, .barArr .core 3 5, .barArr .system 3 5, .barWait .tile 5 6, .barArw .package 3 5,
      .barTx 5 6, .barQry 3 5], Ready (form i) (barriered n 1 (live 2 0 0)) (barriered n 1 (live 2 0 0))) ∧
    (let t := barriered 0 1 (live 2 0 0)
     t.cur.agent = .tile (barOwner (rg t 5)) ∧ barIdx (rg t 5) = 511 ∧ bit (rg t 6).toNat 16 = false ∧ (barOf t 0 511).waiters = [] ∧
      engineWaits t 0 511 = false ∧ (barOf t 0 511).arrived = 0 ∧ (barOf t 0 511).pend = 0 ∧ inLaunch t (opCtx t) (barOwner (rg t 5)) = true ∧
      grantOf t = none) ∧
    (let t := barriered 0 0x9010001 (live 2 1 5)
     Ready (form (.barInit 5 6)) t t ∧ bit (rg t 6).toNat 16 = true ∧ (barOf (barriered 0 0x9010001 Barrier.off) 0 511).live = false ∧
      ∃ g, memberOf t (bits (rg t 6).toNat 31 24) = .ok g) ∧
    (∀ n, n = 0 ∨ n = 4 → ∀ sc, sc = .core ∨ sc = .system → released (startWriteBacks (barriered n 1 (live 2 0 0)) sc) sc = true) ∧
    ((barriered 4 1 (live 2 0 0)).cur.agent ≠ .tile (barOwner 511) ∧ inLaunch (barriered 4 1 (live 2 0 0)) (opCtx (barriered 4 1 (live 2 0 0))) 0 = true) ∧
    inLaunch (barriered 0 1 Barrier.off) (opCtx (barriered 0 1 Barrier.off)) (barOwner 512) = false ∧
    (bit (3#64).toNat 63 = false ∧ answered (granted 3) 3 ∧ accessesOut (curCtx (granted 3)) = false ∧ sinksOut (granted 3) (granted 3).cur = false) := by
  refine ⟨?_, by decide +kernel, ⟨ready_by (by decide +kernel), by decide +kernel, by decide +kernel, ok_of (by decide +kernel)⟩, ?_, by decide +kernel,
    by decide +kernel, by decide +kernel, ⟨_, rfl, rfl⟩, by decide +kernel⟩
  · rintro n (rfl | rfl) <;> exact ready_all _ (by decide +kernel)
  · rintro n (rfl | rfl) sc (rfl | rfl) <;> decide +kernel

/-- What an arrival of the context finds at its own core's barrier: counted, the last one, held, and refused with each reason (R256 to R258). -/
theorem witness_arrivals :
    (let x := barOf (awaitReg (startWriteBacks (barriered 0 1 (live 2 0 0)) .core) 3).2 0 511
     x.live = true ∧ (x.scope && x.rep) = false ∧ x.arrived ≠ x.expect) ∧
    (let x := barOf (awaitReg (startWriteBacks (barriered 0 1 { live 2 0 0 with scope := true, rep := true, tag := 9 }) .core) 3).2 0 511
     x.live = true ∧ x.scope = true ∧ x.rep = true ∧ x.holds.length < 8) ∧
    (∀ y ∈ [(Barrier.off, 1), (live 2 2 1, 2)],
      let r := awaitReg (startWriteBacks (barriered 0 1 y.1) .core) 3
      (arriveBar r.2 0 511 (curWho r.2 r.1) false).2 = .bad y.2) ∧
    (let r := newId (startWriteBacks (barriered 0 1 (live 2 1 0)) .core)
     let v := arriveBar r.2 0 511 (curWho r.2 r.1) true
     let u := keepAnswer (barAcquire v.1 0 511 v.1.cur) (w64 0)
     v.2 = .counted false true ∧ accessesOut (curCtx u) = false ∧ sinksOut u u.cur = false) ∧
    (let r := newId (startWriteBacks (barriered 0 1 (live 2 0 0)) .core)
     (arriveBar r.2 0 511 (curWho r.2 r.1) true).2 = .counted false false) := by
  refine ⟨by decide +kernel, by decide +kernel, ?_, by decide +kernel, by decide +kernel⟩
  intro y hy
  simp only [List.mem_cons, List.not_mem_nil, or_false] at hy
  rcases hy with rfl | rfl <;> decide +kernel

/-- Waits at an ended and at the present phase, counts of bytes within and past the range, and barriers at each edge of a phase (R257). -/
theorem witness_phases :
    (∀ b : Word, b = 0 ∨ b = 1 → let t := barriered 0 b (live 2 0 0)
      let u := barAcquire t 0 511 t.cur
      grantOf t = none ∧ barOwner (rg t 5) = agentNo t.cur.agent ∧ ((barOf t 0 511).phase = (rg t 6).getLsbD 0 ↔ b = 0) ∧
      accessesOut (curCtx u) = false ∧ sinksOut u u.cur = false) ∧
    (∀ p : Int, p = 2 ^ 23 - 2 ∨ p = 2 ^ 23 - 1 → let t := barriered 0 1 (live 2 0 p)
      (barOf t 0 511).live = true ∧ -(2 ^ 23) ≤ (barOf t 0 511).pend + (rg t 6).toInt ∧ ((barOf t 0 511).pend + (rg t 6).toInt < 2 ^ 23 ↔ p = 2 ^ 23 - 2)) ∧
    (∀ p : Int, p = -(2 ^ 23) ∨ p = 1 - 2 ^ 23 → let t := barriered 0 (-1) (live 2 0 p)
      (-(2 ^ 23) ≤ (barOf t 0 511).pend + (rg t 6).toInt ↔ p = 1 - 2 ^ 23)) ∧
    (∀ x ∈ [live 2 2 0, live 2 2 1, live 3 1 0, live 2 1 1, live 2 1 0], x.live = true ∧ x.scope = false ∧ x.rep = false ∧ x.holds = [] ∧ x.waiters = []) := by
  refine ⟨?_, ?_, ?_, by decide +kernel⟩
  · rintro b (rfl | rfl) <;> decide +kernel
  · rintro p (rfl | rfl) <;> decide +kernel
  · rintro p (rfl | rfl) <;> decide +kernel

/-- Ring 15 of core 0, of 4 slots. -/
def ring0 (owner prod cons slotb : Nat) : Ring := { Ring.off with
  valid := true, owner := owner, prod := prod, cons := cons, slots := 4, slotb := slotb, base := 0x1C000, nfree := 4, claim := 4, filled := 4, held := 4 }
def ringed (x : Ring) : State := launchedCore id fun co => { co with rings := co.rings.set 15 x }

/-- A waiter of the ring. -/
def waiter0 : RingWaiter := ⟨.ctx ⟨slot0, 1, 0, 1⟩, .waitf, 4⟩
/-- An alias of core 1's ring 15. -/
def aliased (x : Ring) : State := modCore (ringed (ring0 1 0 0 1)) (.tile 1) fun co => { co with rings := co.rings.set 15 x }

theorem witness_rings :
    (∀ x ∈ [ring0 0 0 0 1, ring0 0 1 1 1, Ring.off], ∀ i ∈ [Instr.ringWaitf 3 15 4, .ringWaite 3 15 4, .ringAdvp 15 4, .ringAdvc 15 4,
      .ringQry 3 15, .ringWaitf 3 15 5, .ringAdvp 15 5], Ready (form i) (ringed x) (ringed x)) ∧
    (let t := ringed (ring0 0 0 0 1)
     let x := ringNamed t 15
     grantOf t = none ∧ handle t 15 = 15 ∧ RingOk t 15 ∧ x.cons = agentNo t.cur.agent % 4 ∧ x.prod = agentNo t.cur.agent % 4 ∧ 4 ≤ x.slots ∧ x.slots < 5 ∧
      x.ownerCore (agentNo t.cur.agent) = agentNo t.cur.agent ∧ x.queued .waitf = false ∧ x.queued .waite = false ∧
      4 ≤ x.filled ∧ 4 ≤ x.nfree ∧ 4 ≤ x.claim ∧ 4 ≤ x.held) ∧
    (let t := ringed (ring0 0 0 0 1)
     let x := ringNamed t 15
     let v := w64 (x.slotAddr 0 x.cidx)
     let u := keepAnswer (putRing t 0 15 { x with filled := x.filled - 4, held := x.held + 4, cidx := (x.cidx + 4) % Nat.max 1 x.slots }) v
     v ≠ w64 (2 ^ 63) ∧ accessesOut (curCtx u) = false ∧ sinksOut u u.cur = false ∧ released (startWriteBacks t .tile) .tile = true) ∧
    (∀ l : List RingWaiter, l = [] ∨ l = [waiter0] → let x := ringNamed (ringed { ring0 0 0 0 1 with filled := 3 + l.length, nfree := 3, claim := 3, held := 3, waiters := l }) 15
      (x.queued .waitf = true ∨ x.filled < 4) ∧ x.nfree < 4 ∧ x.claim < 4 ∧ x.held < 4) ∧
    (RingOk (ringed (ring0 0 1 1 1)) 15 ∧ (ringNamed (ringed (ring0 0 1 1 1)) 15).prod ≠ 0 ∧ (ringNamed (ringed (ring0 0 1 1 1)) 15).cons ≠ 0) ∧
    ¬RingOk (ringed Ring.off) 15 ∧ ¬RingOk (aliased Ring.off) 15 ∧
    (w64 0 ≠ w64 (2 ^ 63) ∧ answered (granted 0) (w64 0)) := by
  refine ⟨?_, by unfold RingOk; decide +kernel, by decide +kernel, ?_, by unfold RingOk; decide +kernel, by unfold RingOk; decide +kernel,
    by unfold RingOk; decide +kernel, by decide +kernel, _, rfl, rfl⟩
  · intro x hx i hi
    have h : readyB i (ringed x) = true := by revert x i; decide +kernel
    exact ready_by h
  · rintro l (rfl | rfl) <;> decide +kernel

/-- A ring of another core: its owner's counts allow the advance, or do not with one that is on its way (R262). -/
theorem witness_aliases :
    (∀ i ∈ [Instr.ringWaitf 3 15 4, .ringWaite 3 15 4, .ringAdvp 15 4, .ringAdvc 15 4, .ringQry 3 15],
      Ready (form i) (aliased (ring0 1 0 0 1)) (aliased (ring0 1 0 0 1))) ∧
    (let t := aliased (ring0 1 0 0 1)
     let x := ringNamed t 15
     grantOf t = none ∧ RingOk t 15 ∧ x.cons = agentNo t.cur.agent % 4 ∧ x.prod = agentNo t.cur.agent % 4 ∧ 4 ≤ x.slots ∧
      x.ownerCore (agentNo t.cur.agent) ≠ agentNo t.cur.agent ∧ released (startWriteBacks t .tile) .tile = true) ∧
    (let t := aliased (ring0 1 0 0 1)
     let u := startWriteBacks t .tile
     let o := (ringNamed t 15).ownerCore 0
     advancesOut u o 15 .advp + 4 ≤ (ringOf u o 15).claim ∧ advancesOut u o 15 .advc + 4 ≤ (ringOf u o 15).held) ∧
    (let t := carry (aliased (ring0 1 0 0 1)) (pkt (.core 0) (.core 1) 3 (.ring ⟨slot0, 1, 0, 0⟩ .advp 1 15 1))
     let u := startWriteBacks t .tile
     let o := (ringNamed t 15).ownerCore 0
     released u .tile = true ∧ (ringOf u o 15).claim < advancesOut u o 15 .advp + 4) ∧
    (let t := aliased { ring0 1 0 0 1 with held := 3 }
     let u := startWriteBacks t .tile
     let o := (ringNamed t 15).ownerCore 0
     released u .tile = true ∧ (ringOf u o 15).held < advancesOut u o 15 .advc + 4) :=
  ⟨ready_all _ (by decide +kernel), by unfold RingOk; decide +kernel, by decide +kernel, by decide +kernel, by decide +kernel⟩

/-- A part of core `n` in an operation of group 9, and a machine in which it is under way. -/
def part0 (n : Nat) (landed : Bool) : TreePart := ⟨n, 0, 0, 0, ⟨⟨.tile n, 0⟩, 1, 0, 1⟩, 1, 1, landed⟩
def treed (l : List TreePart) : State := modDev (launchedAt 0 [4, 0] (regs 9 0) id) fun d => { d with
  launches := [{ launch0 with cores := [4, 0], groups := [⟨9, 0, [4, 0]⟩] }], trees := [⟨0, 9, 0, l⟩] }

theorem witness_trees :
    (∀ i ∈ [Instr.red .fadd 1 2 5, .scan .iadd 1 2 5, .bcast 1 2 5, .treeWait 3 5],
      Ready (form i) (launchedAt 0 [0, 4] (regs 9 0) id) (launchedAt 0 [0, 4] (regs 9 0) id)) ∧
    memberOf (launchedAt 0 [0, 4] (regs 9 0) id) 9 = .ok ⟨9, 0, [0, 4]⟩ ∧ treePending (launchedAt 0 [0, 4] (regs 9 0) id) 0 9 0 = 0 ∧
    rootPending (launchedAt 0 [0, 4] (regs 9 0) id) 0 ⟨9, 0, [0, 4]⟩ 0 = false ∧
    (∀ x : Bool × Bool, x = (false, false) ∨ x = (true, false) ∨ x = (true, true) → let t := treed [part0 0 x.1, part0 4 x.2]
     Ready (form (.treeWait 3 5)) t t ∧ memberOf t 9 = .ok ⟨9, 0, [4, 0]⟩ ∧ (treePending t 0 9 0 = 0 ↔ x.1 = true) ∧
      rootPending t 0 ⟨9, 0, [4, 0]⟩ 0 = !x.2) ∧
    (∀ i : Nat, i = 8 ∨ i = 9 → let t := launchedAt 1 [0, 1, 4] (regs (w64 i) 0) id
      let t := modDev t fun d => { d with launches := [{ launch0 with cores := [0, 1, 4], groups := [⟨9, 0, [0, 4]⟩] }] }
      Ready (form (.treeWait 3 5)) t t ∧ ∀ g, findGroup t (opCtx t).launch ((rg t 5).toNat % 256) = some g → agentNo t.cur.agent ∉ g.members) ∧
    (Group.children ⟨9, 0, [0]⟩ 0 = []) := by
  refine ⟨ready_all _ (by decide +kernel), by decide +kernel, by decide +kernel, by decide +kernel, ?_, ?_, by decide +kernel⟩
  · rintro x (rfl | rfl | rfl) <;> exact ⟨ready_by (by decide +kernel), by decide +kernel⟩
  · rintro i (rfl | rfl) <;> refine ⟨ready_by (by decide +kernel), ?_⟩
    · intro g h
      have e : findGroup (modDev (launchedAt 1 [0, 1, 4] (regs (w64 8) 0) id) fun d => { d with launches := [{ launch0 with cores := [0, 1, 4], groups := [⟨9, 0, [0, 4]⟩] }] })
        (some 0) 8 = none := by decide +kernel
      exact absurd (e.symm.trans h) (by simp)
    · intro g h
      have e : findGroup (modDev (launchedAt 1 [0, 1, 4] (regs (w64 9) 0) id) fun d => { d with launches := [{ launch0 with cores := [0, 1, 4], groups := [⟨9, 0, [0, 4]⟩] }] })
        (some 0) 9 = some ⟨9, 0, [0, 4]⟩ := by decide +kernel
      obtain rfl := Option.some.inj (e.symm.trans h)
      decide +kernel

/-- A core of the launch with one region that is pinned `pins` times. -/
def pooled (a : Word) (pins : Nat) (f : Ctx → Ctx) : State := launchedCore (fun c => f (regs a 0 c)) fun co => { co with
  regionBlocks := [⟨0, 0, 1⟩], regions := co.regions.set 0 { Region.none with valid := true, pins := pins, size := 1, base := 0x1C000 } }

theorem witness_pool :
    (∀ a ∈ [0x10082106, 0x10072206, 0x10082107, 0, 1, 2, 0x3F03, 3, 4, 5, 0x104, 0x100], ∀ i ∈ [Instr.poolSet 3 5, .poolQry 3 5, .poolPin 3 5, .poolUnpin 3 5],
      Ready (form i) (pooled (w64 a) 0 id) (pooled (w64 a) 0 id)) ∧
    ((firstRefusal (pooled 0 0 id) (poolCounts 0x10082106)).1 = 0 ∧ poolCounts 0x10082106 = (curCore (pooled 0 0 id)).counts) ∧
    ((firstRefusal (pooled 0 0 id) (poolCounts 0x10072206)).1 = 0 ∧ poolCounts 0x10072206 ≠ (curCore (pooled 0 0 id)).counts) ∧
    (firstRefusal (pooled 0 0 id) (poolCounts 0x10082107)).1 = 1 ∧
    (∀ k ∈ [((1, 24, 22, 16) : Nat × Nat × Nat × Nat), (2, 23, 22, 16), (2, 24, 21, 16)], k.1 + k.2.1 + k.2.2.1 + k.2.2.2 = 63) ∧
    (curLevel (pooled 0 0 id) = 0 ∧ curLevel (pooled 0 0 fun c => { c with status := 1 }) ≠ 0 ∧
      (curCore (modCurCore (pooled 0 0 id) fun co => { co with reshape := some ⟨(6, 34, 7, 16), ⟨slot0, 1, 0, 1⟩, 1, []⟩ })).reshape.isSome = true) ∧
    findRegion (curCore (pooled 1 0 id)) (some 0) 1 = none ∧
    ((rg (pooled 0x3F03 0 id) 5).toNat % 256 = 3 ∧ bits (0x3F03#64).toNat 13 8 ≠ 0 ∧ bits (3#64).toNat 13 8 = 0) := by
  refine ⟨?_, by decide +kernel, by decide +kernel, by decide +kernel, by decide +kernel, by decide +kernel, by decide +kernel, by decide +kernel⟩
  intro a ha i hi
  have h : readyB i (pooled (w64 a) 0 id) = true := by revert a i; decide +kernel
  exact ready_by h

/-- Region 0 at each side of the limits of a pin, moving, and with pins of the activation and persistent ones (R143, R146). -/
theorem witness_pins :
    (∀ n : Nat, n = 254 ∨ n = 255 → ∃ r, findRegion (curCore (pooled 0 n id)) (some 0) ((rg (pooled 0 n id) 5).toNat % 64) = some (0, r) ∧ r.moving = false ∧
      (r.pins < 255 ↔ n = 254)) ∧
    (bit (0x100#64).toNat 8 = true ∧ bit (0#64).toNat 8 = false) ∧
    (∀ n : Nat, n = 15 ∨ n = 16 → ((opCtx (pooled 0 n fun c => { c with pins := List.replicate n 0 })).pins.length < 16 ↔ n = 15)) ∧
    (let t := modCurCore (pooled 0 0 id) fun co => { co with regions := co.regions.set 0 { co.regions[0] with moving := true } }
     Ready (form (.poolPin 3 5)) t t ∧ ∃ r, findRegion (curCore t) (some 0) ((rg t 5).toNat % 64) = some (0, r) ∧ r.moving = true) ∧
    (0 ∈ (opCtx (pooled 0 1 fun c => { c with pins := [0] })).pins ∧ actPins (pooled 0x100 2 fun c => { c with pins := [0] }) (.tile 0) 0 = 1 ∧
      0 ∉ (opCtx (pooled 0 1 id)).pins) := by
  refine ⟨?_, by decide +kernel, ?_, ⟨ready_by (by decide +kernel), _, rfl, by decide +kernel⟩, by decide +kernel⟩
  · rintro n (rfl | rfl) <;> exact ⟨_, rfl, by decide +kernel⟩
  · rintro n (rfl | rfl) <;> decide +kernel

/-- The deprecated forms with STATUS.COMPAT set, and clear (R46, R47). -/
theorem witness_old :
    (∀ i ∈ [Instr.vdotI8 3 5 6, .maca 3 5 6, .ldm 6 5 25, .stm 6 5 25], Ready (form i) (at5 ownEa) (at5 ownEa)) ∧ (opCtx (at5 ownEa)).st 9 = true ∧
    stepsDone (at5 ownEa) = 0 ∧ (opCtx (lab fun c => { c with status := 0x100 })).st 9 = false ∧
    (∃ u, microSteps (fun i s => load s (rg (at5 ownEa) 5 + w64 (8 * i)) 8 (.load (Fin.ofNat 32 (6 + i)) 3)) 0 26 0 (at5 ownEa) = .ok u) ∧
    (∃ u, microSteps (fun i s => store s (rg (at5 ownEa) 5 + w64 (8 * i)) (bytesOf (rg s (Fin.ofNat 32 (6 + i))).toNat 8)) 0 26 0 (at5 ownEa) = .ok u) :=
  ⟨ready_all _ (by decide +kernel), by decide +kernel, by decide +kernel, by decide +kernel, ok_of (by decide +kernel), ok_of (by decide +kernel)⟩

/-- A copy field word of bytes, and the transfer that an empty block of it gives. -/
def copyField (df : BitVec 4) : CpyField := ⟨false, false, 0, 0, false, df, 0⟩
def xfer0 (state : Nat) : Xfer := ⟨7, ⟨slot0, 1, 0, 0⟩, 0, true, [], copyField 0, some 0, state, 0, 0, 0, 0, 0, [], [], [], []⟩
/-- A context that reads a block or a pattern at the own pool, with transfers of its core. -/
def copying (l d : List Xfer) : State := launchedCore (regs 7 ownEa) fun co => { co with xfers := l, xfersDone := d }

theorem witness_copies :
    (∀ i ∈ [Instr.cpy 3 6 (copyField 0), .cpy 3 6 { copyField 0 with done := 1 }, .cpy 3 6 (copyField 2), .cpyCancel 3 5, .cpyStat 3 5 true, .scfg 7 6 6 true .w32, .sclose 7, .sstat 3 7],
      Ready (form i) (copying [] []) (copying [] [])) ∧
    ((rg (copying [] []) 6).toNat % 8 = 0 ∧ (curCore (copying [] [])).xfers.length < 16) ∧
    (∃ u, readBlock (copying [] []) (rg (copying [] []) 6) 13 0 = .ok u) ∧ (∃ u, readPattern (copying [] []) (rg (copying [] []) 6) 4 0 = .ok u) ∧
    (cpyReason (copying [] []) 0 (opCtx (copying [] [])) (copyField 2) (List.replicate 13 0) = 1 ∧
      cpyReason (copying [] []) 0 (opCtx (copying [] [])) (copyField 0) (List.replicate 13 0) = 0 ∧ doneIrq (copyField 0) = false) ∧
    (∀ n : Nat, n = 8 ∨ n = 4 → let t : State := { copying [] [] with mem := writeN [] (localAddr 0 (0x1C000 + 88)) 8 n }
     Ready (form (.cpy 3 6 { copyField 0 with done := 1 })) t t ∧ doneIrq { copyField 0 with done := 1 } = true ∧
      ∃ x, readBlock t (rg t 6) 13 0 = .ok x ∧ (cpyReason x.1 0 (opCtx x.1) { copyField 0 with done := 1 } x.2 == 0 &&
        blockWord x.2 11 % 2 ^ 48 % 8 == n % 8) = true) ∧
    (∀ n : Nat, n = 4 → let t := launchedCore (regs 7 (ownEa + w64 n)) id
     Ready (form (.cpy 3 6 (copyField 0))) t t ∧ Ready (form (.scfg 7 6 6 true .w32)) t t ∧ (rg t 6).toNat % 8 ≠ 0) ∧
    (((curCore (copying [xfer0 1] [])).xfers.find? fun x => x.id == BitVec.ofNat 16 (rg (copying [xfer0 1] []) 5).toNat && ownXfer (copying [xfer0 1] []) x) =
      some (xfer0 1) ∧
      ((curCore (copying [] [xfer0 3])).xfersDone.find? fun x => x.id == BitVec.ofNat 16 (rg (copying [] [xfer0 3]) 5).toNat && ownXfer (copying [] [xfer0 3]) x) =
      some (xfer0 3)) ∧
    (∀ r : SReg, closeCheck (copying [] []) r = .ok ()) ∧ patternFits .w32 ownEa [(1, 0), (1, 0), (1, 0), (1, 0)] = true ∧
    patternFits .w32 (ownEa + 2) [(1, 0)] = false ∧ ([(0xFFFFFFFF, 0), (0xFFFFFFFF, 0)] : List (Nat × Int)).foldl (fun n x => n * x.1) 1 > 2 ^ 48 - 1 :=
  ⟨ready_all _ (by decide +kernel), by decide +kernel, ok_of (by decide +kernel), ok_of (by decide +kernel), by decide +kernel,
    by rintro n (rfl | rfl) <;> exact ⟨ready_by (by decide +kernel), by decide +kernel, ok_with (by decide +kernel)⟩,
    by rintro n rfl; exact ⟨ready_by (by decide +kernel), ready_by (by decide +kernel), by decide +kernel⟩,
    by decide +kernel, by decide +kernel, by decide +kernel, by decide +kernel, by decide⟩

/-- An M-core, with rings 14 and 15 of the engine, and a V-core. -/
def matrixCore (f : Ctx → Ctx) : State := launchedAt 2 [0, 1, 2, 6, westA 2, northA 2] (fun c => f (regs ownEa 0 c)) fun co => { co with
  rings := (co.rings.set 14 (ring0 2 1 2 0)).set 15 (ring0 2 1 2 0) }
def convCore : State := launchedAt 1 [0, 1, 2] (fun c => { c with g := (c.g.set 4 (0xF0020001C000#64)).set 5 0xF00200024000#64 }) id
def convField (sf df : BitVec 4) : ConvField := ⟨0, 0, false, false, false, false, df, sf⟩
def mmaField (gm1 : BitVec 3) : MmaField := ⟨gm1, 0, 0, false, false, true, true, true, true, 0, 0⟩

theorem witness_engines :
    (∀ i ∈ [Instr.cvtMx 4 5 6 (convField 0 8), .cvtUnmx 4 5 6 (convField 8 0), .rescaleMx 4 5 6 (convField 8 9), .transp 4 5 6 (convField 8 8)],
      Ready (form i) convCore convCore) ∧
    (∀ x ∈ [(8, 0, 8), (9, 8, 0), (10, 8, 9), (11, 8, 8)], convPair x.1 x.2.1 x.2.2 = true) ∧
    (∀ x ∈ [(8, 0, 0), (9, 0, 0), (10, 0, 8), (11, 0, 1)], convPair x.1 x.2.1 x.2.2 = false) ∧
    ((rg convCore 4).toNat % 64 = 0 ∧ (rg convCore 5).toNat % 64 = 0 ∧ (curCore convCore).convOps.length < 8 ∧
      convOperand convCore 8 false 5 .waitf (groupBytes 0) 2 = .ok 0x24000 ∧ convOperand convCore 8 false 4 .waite (groupBytes 8) 3 = .ok 0x1C000) ∧
    (∀ i ∈ [Instr.mma 1 14 15 (mmaField 0), .mmrot 1 14 15 (mmaField 0), .mmaG 7 14 15 (mmaField 3), .accClr 1, .accAnch 1 5, .accRd 1 6 5 ⟨0, false, false, false, 0⟩,
      .accWr 1 6 ⟨0, false, false, false, 0⟩, .accStat 3 1], Ready (form i) (matrixCore id) (matrixCore id)) ∧
    (∀ k ∈ [0, 1, 2], matRings (matrixCore id) k 14 15 4 (mmaField 0) = .ok ()) ∧
    (inLaunch (matrixCore id) (opCtx (matrixCore id)) (westA 2) = true ∧ inLaunch (matrixCore id) (opCtx (matrixCore id)) (northA 2) = true ∧
      (curCore (matrixCore id)).matOps.length < 8) ∧
    (let t := matrixCore fun c => { c with g := c.g.set 6 0xF0040001C000#64 }
     ownRange t (rg t 6) 8 = .ok 0x1C000 ∧ accTarget t 5 6 .waite ⟨0, false, false, false, 0⟩ = .ok 0x1C000 ∧
      accTarget t 6 6 .waitf ⟨0, false, false, false, 0⟩ = .ok 0x1C000) :=
  ⟨ready_all _ (by decide +kernel), by decide +kernel, by decide +kernel, by decide +kernel, ready_all _ (by decide +kernel), by decide +kernel,
    by decide +kernel, by decide +kernel⟩

/-- LINK.CFG: a port of another activation, a neighbour outside the launch, and neither. -/
theorem witness_link :
    (∀ a : Word, a = 0 ∨ a = 15 → Ready (form (.linkCfg 3 5)) (launchedAt 0 [0, 4] (regs a 0) id) (launchedAt 0 [0, 4] (regs a 0) id)) ∧
    (let t := launchedAt 0 [0, 4] (regs 15 0) id
     (portsOf ((rg t 5).toNat % 16)).any (otherPorts t).contains = false ∧
      ∃ p ∈ portsOf ((rg t 5).toNat % 16), inLaunch t (opCtx t) (neighbour (agentNo t.cur.agent) p) = false) ∧
    (let t := setCtx (launchedAt 0 [0, 4] (regs 8 0) id) ⟨.tile 0, 1⟩ { ctx0 with ports := [3] }
     (portsOf ((rg t 5).toNat % 16)).any (otherPorts t).contains = true) ∧
    (let t := launchedAt 0 [0, 4] (regs 8 0) id
     ∀ p ∈ portsOf ((rg t 5).toNat % 16), inLaunch t (opCtx t) (neighbour (agentNo t.cur.agent) p) = true) := by
  refine ⟨?_, by decide +kernel, by decide +kernel, by decide +kernel⟩
  rintro a (rfl | rfl) <;> exact ready_by (by decide +kernel)

/-- An access of core 4's context to a word of core 0's pool. -/
def access4 (op : AOp) (off : Nat) : Access := ⟨1, .tile 4, ⟨.tile 4, 0⟩, 1, 0, op, localAddr 0 off, localAddr 0 off, some 0, some 3, 0, 0, 0⟩
def who4 : Who := ⟨⟨.tile 4, 0⟩, 1, 0, 9⟩
/-- Core 0 with every window open. -/
def windowed : State := launchedCore id fun co => { co with windows := { co.windows with default_ := 1, expen := true, win := Vector.replicate 8 0xF0000000FFF00000#64 } }

theorem witness_packets (s : State) (p q : Packet) (_ : p.src = q.src ∧ p.dst = q.dst ∧ p.vn = q.vn) :
    ∃ u : State, u.net[0]? = some p ∧ u.net[1]? = some q ∧ (s.dev.repair = [] → inputOff (carry s p) p = false → stillQueued (carry s p) p = false →
      cutOff (carry s p) p.src p.dst = false → takePkt (carry s p) 0 = some (p, { s with net := [] })) :=
  ⟨{ s with net := [p, q] }, rfl, rfl, take_carry s p⟩

/-- A pair in repair whose request 3 is lost before request 5 goes on, and a core whose overflow store is full (R217, R227). -/
theorem witness_heldPackets :
    (let p : Packet := ⟨.core 4, .core 0, 0, .ack 1, 3, false⟩
     let q : Packet := ⟨.core 4, .core 0, 0, .ack 2, 5, false⟩
     let s := modDev (carry (lab id) q) fun d => { d with repair := [(.core 4, .core 0)], lost := [p] }
     s.net[0]? = some q ∧ numbered q.vn = true ∧ q.fwd = false ∧ s.dev.repair.contains (q.src, q.dst) = true ∧ p ∈ s.dev.lost ∧ p.src = q.src ∧ p.dst = q.dst ∧
      p.vn = q.vn ∧ p.fwd = false ∧ seqAfter q.seq p.seq = false) ∧
    (let s := carry (labCore id fun co => { co with overflow := List.replicate 512 (.absent 0 ⟨0, 1, 1, 0, 4⟩) }) (pkt (.core 4) (.core 0) 0 (.ack 1))
     s.net[0]? = some (pkt (.core 4) (.core 0) 0 (.ack 1)) ∧ 512 ≤ (getCore s (.tile 0)).overflow.length) := by decide +kernel

/-- Accesses at their home (R196, R201, R238): performed, refused for the role and by the windows; and a waiter whose word is ready. -/
theorem witness_accessArrival :
    (ownerCheck (launched id) 0 0x4000 8 .rd (some 4) false (some 0) = .role ∧
      ownerCheck (launchedCore id fun co => { co with windows := { co.windows with expen := true, win := Vector.replicate 8 0 } }) 0 0x1C000 8 .rd (some 4) false (some 0) = .window ∧
      ownerCheck windowed 0 0x1C000 8 .rd (some 4) false (some 0) = .perform ∧ ownerCheck windowed 0 0x1C000 8 .wr (some 4) false (some 0) = .perform) ∧
    failedIn windowed (localAddr 0 0x1C000) 8 = none ∧ (AOp.ld 8).isFe = false ∧
    (localAddr 0 0x1C000 - localAddr 0 0 = 0x1C000 ∧ (access4 (.ld 8) 0x1C000).op.bytes = 8 ∧ (access4 (.st (bytesOf 7 8)) 0x1C000).op.grants = .wr) ∧
    (accessAt windowed (.core 0) (access4 (.ld 8) 0x1C000)).isSome = true ∧
    (let s := labCore id fun co => { co with feWaits := [⟨access4 (.stf 7) 0x1C000⟩] }
     (getCore s (.tile 0)).feWaits[0]? = some ⟨access4 (.stf 7) 0x1C000⟩ ∧ feReady s (access4 (.stf 7) 0x1C000).addr (.stf 7) = true ∧
      roleAdmit (getCore s (.tile 0)) ((access4 (.stf 7) 0x1C000).addr - localAddr (agentNo (.tile 0)) 0) 8 = .yes ∧
      ∀ w ∈ (getCore s (.tile 0)).feWaits.take 0, feFirst s (localAddr 0 0x1C000) w = false) ∧
    behindForwarded (carry windowed (pkt (.core 4) (.core 0) 0 (.access (access4 (.ld 8) 0x1C000)))) 0 (pkt (.core 4) (.core 0) 0 (.access (access4 (.ld 8) 0x1C000)))
      (access4 (.ld 8) 0x1C000).addr = false ∧
    (∃ t, takePkt (carry windowed (pkt (.core 4) (.core 0) 0 (.access (access4 (.ld 8) 0x1C000)))) 0 = some ((pkt (.core 4) (.core 0) 0 (.access (access4 (.ld 8) 0x1C000))), t)) :=
  ⟨by decide +kernel, by decide +kernel, by decide +kernel, by decide +kernel, by decide +kernel, by decide +kernel, by decide +kernel, _, take_carry _ _ rfl rfl rfl rfl⟩

/-- What comes back to a core: each kind of packet that the statements name, on its way to an agent. -/
theorem witness_returns : ∀ b ∈ [Body.reply who4 9 5, .fillReply who4 9 0 5, .ack 63, .refusal who4 none (some 63) 0x29 0, .refusal who4 (some 9) none 0x08 0,
    .wbAck 9, .sinkReply 15 1 5], takePkt (carry (lab id) (pkt (.core 0) (.core 4) 1 b)) 0 = some ((pkt (.core 0) (.core 4) 1 b), { lab id with net := [] }) ∧
      agentAt (.core 4) = some (.tile 4) := fun _ _ => ⟨take_carry _ _ rfl rfl rfl rfl, rfl⟩

/-- A journal entry before and after its last retransmission (R216). -/
def entry (tries : Nat) : JEntry := ⟨63, who4, .core 4, 0, (pkt (.core 0) (.core 4) 0 (.ack 0)), tries, none⟩

theorem witness_journal : ∀ n : Nat, n = 2 ∨ n = 3 →
    (getCore (labCore id fun co => { co with journal := [entry n] }) (.tile 0)).journal.find? (·.idx == (63 : Fin 64).val) = some (entry n) ∧
    (n = 2 → (entry n).tries < 3) ∧ (n = 3 → 3 ≤ (entry n).tries) ∧
    (let p := pkt (.core 0) (.core 4) 0 (.message message0 none (some 63))
     let s := modDev (labCore id fun co => { co with journal := [entry n] }) fun d => { d with lost := [p] }
     p ∈ s.dev.lost ∧ p.body.entry = some (entry n).idx ∧ p.src = nodeOf (.tile 0)) := by
  rintro n (rfl | rfl) <;> decide +kernel

/-- Messages, deposits and replies at a core (R105, R106, R227, R240). -/
def queueAt0 (l : List Message) (o : List Parked) : State := launchedCore id fun co => { co with
  queues := co.queues.set 0 { Queue.free with valid := true, launch := some 0, depth := 1, type := 7, tmask := 0xFFFF, msgs := l }, overflow := o }
def deposit0 (slot : Nat) (reg : GReg) : Deposit := ⟨slot, 1, reg, 5, 4⟩

theorem witness_messageArrival :
    (matchQueue (queueAt0 [] []) (.tile 0) message0 = some 0 ∧ hasRoom (getCore (queueAt0 [] []) (.tile 0)) 0 = true ∧
      parkedOf (getCore (queueAt0 [] []) (.tile 0)) 0 = 0) ∧
    matchQueue (queueAt0 [] []) (.tile 0) { message0 with route := 8 } = none ∧
    (putnAt windowed 0 (.core 4) who4 (some 3) (localAddr 0 0x1C000) [5] message0 (some 0)).isSome = true ∧
    (∀ m : Message, ∃ t, takePkt (carry (queueAt0 [] []) (pkt (.core 4) (.core 0) 0 (.message m none (some 3)))) 0 =
      some ((pkt (.core 4) (.core 0) 0 (.message m none (some 3))), t)) :=
  ⟨by decide +kernel, by decide +kernel, by decide +kernel, fun _ => ⟨_, take_carry _ _ rfl rfl rfl rfl⟩⟩

theorem witness_deposits :
    (depositGone (lab id) (.tile 0) (deposit0 0 7) = false ∧ spilledHas (getCore (lab id) (.tile 0)) 0 1 = false ∧ (deposit0 0 7).reg ≠ 0 ∧
      (deposit0 0 0).reg = 0 ∧ (getCore (lab id) (.tile 0)).recvQ.length < 16 ∧ (getCore (lab id) (.tile 0)).overflow = []) ∧
    (depositGone (lab id) (.tile 0) (deposit0 5 7) = true ∧ depositGone (lab fun c => { c with killed := true }) (.tile 0) (deposit0 0 7) = true) ∧
    (let s := labCore id fun co => { co with spilled := [⟨5, ctx0, false⟩] }
     spilledHas (getCore s (.tile 0)) 5 1 = true ∧ depositGone s (.tile 0) (deposit0 5 7) = false ∧ (getCore s (.tile 0)).overflow.length < overflowSize) ∧
    (let s := labCore (fun c => { c with p := 0x100 }) fun co => { co with recvQ := [deposit0 0 8, deposit0 0 7] }
     (getCore s (.tile 0)).recvQ[1]? = some (deposit0 0 7) ∧ depositGone s (.tile 0) (deposit0 0 7) = false ∧ depositLands s (.tile 0) (deposit0 0 7) = true ∧
      (∀ e ∈ (getCore s (.tile 0)).recvQ.take 1, depositLands s (.tile 0) e = false) ∧ ∀ x ∈ (getCore s (.tile 0)).sinks.toList, sinkLands s x = false) ∧
    (let s := labCore id fun co => { co with sinks := co.sinks.set 15 ⟨1, some (⟨slot0, 1, 0, 0⟩, 7), 4, none⟩ }
     ((getCore s (.tile 0)).sinks[(Fin.ofNat 16 15 : Fin 16)]).bound = some (⟨slot0, 1, 0, 0⟩, 7) ∧
      ((getCore s (.tile 0)).sinks[(Fin.ofNat 16 15 : Fin 16)]).gen = 1 ∧ ((getCore s (.tile 0)).sinks[(Fin.ofNat 16 15 : Fin 16)]).value = none ∧
      (getCtx s slot0).used = true ∧ (getCtx s slot0).gen = 1) ∧
    (∀ d : Deposit, ∃ t, takePkt (carry (lab id) (pkt (.core 4) (.core 0) 0 (.deposit d who4 (some 3)))) 0 =
      some ((pkt (.core 4) (.core 0) 0 (.deposit d who4 (some 3))), t)) :=
  ⟨by decide +kernel, by decide +kernel, by decide +kernel, by decide +kernel, by decide +kernel, fun _ => ⟨_, take_carry _ _ rfl rfl rfl rfl⟩⟩

/-- A child on its way, and a spawn that may leave. -/
def child0 : Child := ⟨[], 0x400000, 0, 0, some 0, 0, 0⟩
def out0 (target : Option Nat) (sent retry : Bool) : SpawnOut := ⟨9, child0, target, 0, [], [], [], [], ⟨slot0, 1, 0, 0⟩, sent, retry⟩
def spawning (l : List SpawnOut) : State := launchedCore id fun co => { co with spawnOut := l }

theorem witness_spawnEvents :
    readySpawn (spawning [out0 (some 4) false false]) (.tile 0) = some (out0 (some 4) false false) ∧
    (getCore (spawning [out0 none false false]) (.tile 0)).spawnOut[0]? = some (out0 none false false) ∧
    (let r : Recruit := ⟨⟨slot0, 1, 0, 0⟩, child0, 5, 1, 5, none, 0, 0, [], [], [], []⟩
     let s := launchedCore id fun co => { co with recruits := [r] }
     (getCore s (.tile 0)).spawnOut[0]? = none ∧ (getCore s (.tile 0)).recruits[0 - (getCore s (.tile 0)).spawnOut.length]? = some r ∧ r.released s (.tile 0) = true ∧
      (∀ y ∈ (getCore s (.tile 0)).spawnOut, y.who.ctx = r.who.ctx → y.who.gen = r.who.gen → y.sent = true)) ∧
    (out0 none false false).released (spawning [out0 none false false]) (.tile 0) = true ∧
    (∀ ch m id, ∃ t, takePkt (carry (launched fun c => c) (pkt (.core 4) (.core 0) 3 (.spawn ch m id))) 0 = some ((pkt (.core 4) (.core 0) 3 (.spawn ch m id)), t)) ∧
    (findLaunch (launched id) 0 = some launch0 ∧ launch0.ending = false ∧ child0.launch = some 0) ∧
    ((getCore (launched id) (.tile 0)).spawnList.length < spawnListSize ∧
      spawnListSize ≤ (getCore (launchedCore id fun co => { co with spawnList := List.replicate spawnListSize child0 }) (.tile 0)).spawnList.length) ∧
    ((spawning [out0 (some 4) true true]).cores.findSome? fun c => (c.2.spawnOut.find? fun x => x.id == 9 && x.retry).map fun x => (c.1, x)) =
      some (.tile 0, out0 (some 4) true true) :=
  ⟨by decide +kernel, by decide +kernel, by decide +kernel, by decide +kernel, fun _ _ _ => ⟨_, take_carry _ _ rfl rfl rfl rfl⟩, by decide +kernel, by decide +kernel,
    by decide +kernel⟩

/-- A core with a parked context in slot 1, or with a message for queue 0, or with a child in its spawn list, and no live context. -/
def idleWith (k : Nat) : State := launchedCore (fun c => { c with place := if k = 1 then .parked else .free }) fun co => { co with
  spawnList := if k = 3 then [child0] else []
  queues := if k = 2 then co.queues.set 0 { Queue.free with valid := true, launch := some 0, depth := 4, maxage := 255, msgs := [message0] } else co.queues }

theorem witness_activationStart :
    (freePosition (idleWith 1) (.tile 0) = some 0 ∧ nextLive (idleWith 1) (.tile 0) = some (.parked slot0)) ∧
    (freePosition (idleWith 2) (.tile 0) = some 0 ∧ nextLive (idleWith 2) (.tile 0) = some (.fresh 0 0) ∧
      freeSlot (idleWith 2) (.tile 0) = some 0) ∧
    nextLive (idleWith 3) (.tile 0) = some (.fresh 0 64) := by
  decide +kernel

/-- A start of a message of 8 payload registers, and of one that is resumed no more (R78, R80). -/
theorem witness_messageStart : ((getCore (idleWith 2) (.tile 0)).queues[(0 : Fin 64)]).resume = false ∧
    ((getCore (idleWith 2) (.tile 0)).queues[(0 : Fin 64)]).msgs = [message0] ∧
    staleHead (idleWith 2) ((getCore (idleWith 2) (.tile 0)).queues[(0 : Fin 64)]) = false ∧ message0.payload.length ≤ 8 ∧ message0.src ≠ .guest := by
  decide +kernel

/-- A wait that has begun. -/
def waiting (c : Ctx) : Ctx := { c with wait := some ⟨1, 7, 0x7FF, 3⟩ }
/-- Contexts in the first `n` slots of core 0, all waiting, and a child in its spawn list. -/
def crowded (n : Nat) (p : Nat → Place) : State :=
  modCore { launched id with ctxs := (List.range n).map fun i => (⟨.tile 0, i⟩, waiting { ctx0 with place := p i, launch := some 0 }) } (.tile 0)
    fun co => { co with spawnList := [child0] }

theorem witness_slots :
    (getCtx (lab fun c => { c with place := .loading 3 }) slot0).place = .loading 3 ∧
    (victim (crowded 4 fun i => .live (Fin.ofNat 4 i)) (.tile 0)).isSome = true ∧
    (nextLive (crowded 4 fun i => .live (Fin.ofNat 4 i)) (.tile 0)).isSome = true ∧
    (allWait (crowded 38 fun _ => .parked) (.tile 0) = true ∧ (startable (crowded 38 fun _ => .parked) (.tile 0) 0).isEmpty = false ∧
      fwWorks (crowded 38 fun _ => .parked) 2 = true ∧ (getCore (crowded 38 fun _ => .parked) (.tile 0)).spilled.length < areaSize) ∧
    (let u := raiseFw (crowded 38 fun _ => .parked) 2 0x11 0 (.tile 0)
     (((List.range (slotCount (getCore u (.tile 0)))).map fun i => (⟨.tile 0, i⟩ : CtxKey)).filter fun k => (getCtx u k).wait.isSome && mayLeave u k).isEmpty = false) ∧
    (let s := labCore id fun co => { co with spilled := List.replicate areaSize ⟨0, ctx0, false⟩ }
     areaSize ≤ (getCore s (.tile 0)).spilled.length) ∧
    (let s := labCore (fun c => { c with place := .free }) fun co => { co with spilled := [⟨0, ctx0, true⟩] }
     ((getCore s slot0.agent).spilled.find? fun x => x.slot == slot0.slot && x.pending) = some ⟨0, ctx0, true⟩ ∧ ctx0.killed = false ∧ (getCtx s slot0).used = false ∧
      slot0.slot < slotCount (getCore s (.tile 0))) := by
  decide +kernel

/-- A budget of 0 has run out. -/
theorem runOut_zero (s : State) {c : Ctx} (h : c.actLeft = 0) : runOut s c = true := by simp [runOut, spend, h]

/-- Budgets of an activation that are spent: in a handler and outside it, and after the grace (R90). -/
theorem witness_budgets :
    (∀ s : State, s ∈ [lab id, inHandler, lab fun c => { c with inGrace := true }] → runOut s (getCtx s slot0) = true) ∧
    (let c := getCtx (lab id) slot0
     c.used = true ∧ c.killed = false ∧ c.wait = none ∧ c.inGrace = false ∧ c.frames = [] ∧ (c.inTrap || c.inExpansion || !c.quiet || c.stepped.isSome) = false) ∧
    (let c := getCtx inHandler slot0
     c.used = true ∧ c.killed = false ∧ c.wait = none ∧ c.inGrace = false ∧ c.frames = [] ∧ (c.inTrap || c.inExpansion || !c.quiet || c.stepped.isSome) = true) ∧
    (let s := lab fun c => { c with inGrace := true }
     (getCtx s slot0).inGrace = true ∧ (getCtx s slot0).used = true ∧ (getCtx s slot0).killed = false ∧ (getCtx s slot0).frames = [] ∧ fwWorks s 2 = true) ∧
    (let c := getCtx (lab waiting) slot0
     c.wait = some ⟨1, 7, 0x7FF, 3⟩ ∧ c.used = true ∧ c.killed = false ∧ c.actLeft ≠ 0xFFFFFFFF ∧ (getCore (lab waiting) (.tile 0)).spilled = []) ∧
    (let x : Spilled := ⟨0, waiting ctx0, false⟩
     let s := labCore (fun _ => Ctx.idle) fun co => { co with spilled := [x] }
     (getCtx s slot0).used = false ∧ ((getCore s (.tile 0)).spilled.filter (·.slot == 0)) = [x] ∧ x.ctx.wait = some ⟨1, 7, 0x7FF, 3⟩ ∧ x.ctx.killed = false ∧
      x.ctx.actLeft ≠ 0xFFFFFFFF) ∧
    (let q := (getCore (labCore id fun co => { co with queues := co.queues.set 63 { Queue.free with valid := true, serial := true } }) (.tile 0)).queues[(63 : Fin 64)]
     q.valid = true ∧ q.serial = true ∧ q.takeLeft = 0) := by
  refine ⟨fun s hs => runOut_zero s ?_, by decide +kernel, by decide +kernel, by decide +kernel, by decide +kernel, by decide +kernel, by decide +kernel⟩
  simp only [List.mem_cons, List.not_mem_nil, or_false] at hs
  rcases hs with rfl | rfl | rfl <;> decide +kernel

theorem witness_joinArrival : (∀ kind : Nat, kind = 0 ∨ kind = 1 →
      joinLater (carry (joining 0 0 (openCell 2 1)) (pkt (.core 4) (.core 0) 3 (.join who4 kind 0 0))) 0 0 = false ∧
      ∃ v, (joinAt { joining 0 0 (openCell 2 1) with net := [] } 0 kind 0 who4 0).2 = some v) ∧
    (∀ w kind jw v, ∃ t, takePkt (carry (joining 0 0 (openCell 2 1)) (pkt (.core 4) (.core 0) 3 (.join w kind jw v))) 0 =
      some ((pkt (.core 4) (.core 0) 3 (.join w kind jw v)), t)) := by
  refine ⟨?_, fun _ _ _ _ => ⟨_, take_carry _ _ rfl rfl rfl rfl⟩⟩
  rintro kind (rfl | rfl) <;> exact ⟨by decide +kernel, Option.isSome_iff_exists.mp (by decide +kernel)⟩

/-- KILL at its target: no activation, a killed one, a live one; and a killed one that has drained (R352). -/
theorem witness_killEvents :
    findActivation (lab id) ⟨.tile 0, 5⟩ 1 = none ∧
    ((findActivation (lab fun c => { c with killed := true }) slot0 1).map (·.killed)) = some true ∧
    ((findActivation (lab id) slot0 1).map (·.killed)) = some false ∧
    bits (w64 (2 ^ 32)).toNat 21 16 = 0 ∧ BitVec.ofNat 16 (bits (w64 (2 ^ 32)).toNat 47 32) = (1 : Gen) ∧
    (let s := lab fun c => { c with killed := true }
     (getCtx s slot0).used = true ∧ (getCtx s slot0).killed = true ∧ drained s slot0 (getCtx s slot0) = true) := by
  decide +kernel

/-- Barrier 511 of core 0 when packets reach it (R256 to R258, R267). -/
def groupBar (rep : Bool) (holds : Nat) : Barrier := { live 2 0 0 with scope := true, rep := rep, tag := 9, holds := List.replicate holds (who4, true) }

theorem witness_barrierEvents :
    (barOf (barriered 0 1 Barrier.off) 0 511).live = false ∧
    (∀ n : Nat, n = 7 ∨ n = 8 → (barOf (barriered 0 1 (groupBar true n)) 0 511).live = true ∧ (barOf (barriered 0 1 (groupBar true n)) 0 511).scope = true ∧
      (barOf (barriered 0 1 (groupBar true n)) 0 511).rep = true ∧ ((barOf (barriered 0 1 (groupBar true n)) 0 511).holds.length < 8 ↔ n = 7)) ∧
    ((barOf (barriered 0 1 (live 2 2 0)) 0 511).rep = false ∧ (barOf (barriered 0 1 (live 2 2 0)) 0 511).arrived = (barOf (barriered 0 1 (live 2 2 0)) 0 511).expect) ∧
    (addPend (barriered 0 1 (live 2 0 (2 ^ 23 - 2))) 0 511 1).2 = true ∧
    (barOf (barriered 0 1 (groupBar false 0)) 0 511).tag = 9 ∧
    (∀ m w, ∃ t, takePkt (carry (barriered 0 1 (live 2 0 0)) (pkt (.core 4) (.core 0) 3 (.barrier 4 w 511 m))) 0 =
      some ((pkt (.core 4) (.core 0) 3 (.barrier 4 w 511 m)), t)) := by
  refine ⟨by decide +kernel, ?_, by decide +kernel, by decide +kernel, by decide +kernel, fun _ _ => ⟨_, take_carry _ _ rfl rfl rfl rfl⟩⟩
  rintro n (rfl | rfl) <;> decide +kernel

/-- A ring with a waiter that can proceed, and one with none and a packet for it; a tree operation that all members have entered. -/
theorem witness_ringAndTreeEvents :
    (readyWaiter { ring0 0 0 0 1 with waiters := [waiter0] } [] [waiter0]).isSome = true ∧
    (let s := carry (ringed (ring0 0 0 0 1)) (pkt (.core 1) (.core 0) 3 (.ring who4 .qry 0 15 0))
     (ringOf s 0 15).waiters = [] ∧ ringPacket s 0 15 = some 0 ∧ ∃ t, takePkt s 0 = some (pkt (.core 1) (.core 0) 3 (.ring who4 .qry 0 15 0), t)) ∧
    (let p : TreePart := ⟨0, 0, 0, 0, ⟨slot0, 1, 0, 1⟩, 1, 1, false⟩
     let t : Tree := ⟨0, 9, 0, [p]⟩
     let s := modDev (launchedAt 0 [0] id id) fun d => { d with trees := [t] }
     s.dev.trees[0]? = some t ∧ findGroup s (some 0) 9 = some ⟨9, 0, [0]⟩ ∧
      (t.parts.find? fun p => Agent.tile p.core == .tile 0 && !p.landed) = some p ∧ (([0] : List Nat).all fun m => t.parts.any (·.core == m)) = true) :=
  ⟨by decide +kernel, ⟨by decide +kernel, by decide +kernel, _, take_carry _ _ rfl rfl rfl rfl⟩, by decide +kernel⟩

/-- A core 0 that a reshape to the counts `k` changes. -/
def reshape0 (k : Nat × Nat × Nat × Nat) : Reshape := ⟨k, ⟨slot0, 1, 0, 1⟩, 5, []⟩
def reshaping (k : Nat × Nat × Nat × Nat) (f : Core → Core) : State := labCore id fun co => f { co with reshape := some (reshape0 k) }
/-- A conversion that was accepted before the reshape and writes at an offset of the pool. -/
def convOp0 (off : Nat) (co : Core) : Core := { co with convOps := [⟨1, ⟨slot0, 1, 0, 1⟩, 0, 8, 0, 0, 0, 0x1C000, off, 0,
  ⟨0, 0, 0, false, false, true, true, true, true, 0, 0⟩, ⟨0, false, false, false, 0⟩, ⟨0, 0, false, false, false, false, 8, 0⟩, none, false, false,
  .queued, [], [], [], 0, 0, false, 0⟩] }
/-- Which clause of the statement a reshape is in: 0 early work, 1 a region that moves, 2 a line in a way that leaves, 3 a write-back that is out
or late work, 4 none of them. -/
def reshapeClause (s : State) (r : Reshape) : Nat :=
  let co := getCore s (.tile 0)
  let store := leavingBanks co.counts r.counts 4
  let early := leavingBanks co.counts r.counts 2 ++ store.filter ((movingRegions co).flatMap (newBanks r)).contains
  let way := co.l1.find? fun l => (leavingBanks co.counts r.counts 3).contains l.way
  if engineBefore s 0 r.id early then 0 else if movingRegions co ≠ [] then 1 else if way.isSome then 2
  else if co.writeBacks ≠ [] ∨ engineBefore s 0 r.id store then 3 else 4

/-- A reshape in each clause (R141, Table 6.6). -/
theorem witness_reshape :
    let is (k : Nat × Nat × Nat × Nat) (f : Core → Core) (n : Nat) : Bool :=
      let s := reshaping k f
      decide ((getCore s (.tile 0)).reshape = some (reshape0 k)) && reshapeClause s (reshape0 k) == n &&
        ((leavingSlots (getCore s (.tile 0)) k).filter fun i => (getCtx s ⟨.tile 0, i⟩).used).isEmpty
    is (6, 32, 9, 16) (convOp0 0x9C000) 0 = true ∧
    is (6, 32, 9, 16) (fun co => { co with regions := co.regions.set 0 { Region.none with valid := true, moving := true, size := 1, base := 0x9C000 } }) 1 = true ∧
    is (6, 34, 7, 16) (fun co => { co with l1 := [⟨40, 0x30, Vector.replicate 8 ⟨true, false, 0, 0⟩⟩] }) 2 = true ∧
    is (6, 34, 7, 16) (fun co => { co with writeBacks := [⟨9, .core 1, 0⟩] }) 3 = true ∧
    is (6, 34, 8, 15) (convOp0 0xC0000) 3 = true ∧
    is (6, 34, 7, 16) id 4 = true := by
  decide +kernel

/-- Transfers that run, that have been killed, that are complete and that have met a fault (R301 to R306). -/
theorem witness_transfers :
    ((getCore (copying [xfer0 1] []) (.tile 0)).xfers = [xfer0 1] ∧ xferKilled (copying [xfer0 1] []) (xfer0 1) = false ∧ (xfer0 1).reason = 0 ∧
      (xfer0 1).faultCause = 0) ∧
    (getCore (launchedCore (fun c => { c with killed := true }) fun co => { co with xfers := [xfer0 1] }) (.tile 0)).xfers.find?
      (xferKilled (launchedCore (fun c => { c with killed := true }) fun co => { co with xfers := [xfer0 1] })) = some (xfer0 1) ∧
    ((getCore (copying [xfer0 2] []) (.tile 0)).xfers.find? (xferKilled (copying [xfer0 2] [])) = none ∧ (xfer0 2).state = 2 ∧ (xfer0 2).dests = []) ∧
    { xfer0 2 with reason := 6 }.reason ≠ 0 ∧ { xfer0 2 with faultCause := 6 }.faultCause ≠ 0 := by
  decide +kernel

/-- A read stream with elements to fetch, from the own pool and from an address that traps; and a write stream with a vector to drain (R152, R153). -/
def streaming (x : Stream) : State := lab fun c => { c with streams := [(7, x)] }

theorem witness_streams :
    (∀ base : Word, base = ownEa ∨ base = ownEa + 0x3000000000000000 →
      streamOf (getCtx (streaming { stream0 with base := base, next := 0 }) slot0) (Fin.ofNat 32 7) = some { stream0 with base := base, next := 0 }) ∧
    ({ stream0 with next := 0 }.write = false ∧ { stream0 with next := 0 }.buf.length < 8 ∧ { stream0 with next := 0 }.next < { stream0 with next := 0 }.total ∧
      { stream0 with next := 0 }.fault = none ∧ (getCtx (streaming { stream0 with next := 0 }) slot0).killed = false) ∧
    (∃ u, fetchElems { streaming { stream0 with next := 0 } with cur := slot0, latch := none } { stream0 with next := 0 } ((List.range 16).map (0 + ·)) = .ok u) ∧
    (∃ code tval, fetchElems { streaming { stream0 with base := 0, next := 0 } with cur := slot0, latch := none } { stream0 with base := 0, next := 0 }
      ((List.range 16).map (0 + ·)) = .error (.trap code tval)) ∧
    (let x : Stream := { stream0 with write := true, buf := [0], done := 1, outq := (List.range 16).map fun n => (n, .own (0x1C000 + 4 * n)) }
     let s := lab fun c => { c with streams := [(7, x)], pushes := [7] }
     streamOf (getCtx s slot0) (Fin.ofNat 32 7) = some x ∧ x.buf ≠ [] ∧ (getCtx s slot0).pushes.head? = some (Fin.ofNat 32 7) ∧
      (drainElems { s with cur := slot0, latch := none } x 7 (x.done - x.buf.length) x.outq).2 = []) := by
  refine ⟨?_, by decide +kernel, ok_of (by decide +kernel), ⟨_, _, rfl⟩, by decide +kernel⟩
  rintro base (rfl | rfl) <;> decide +kernel

/-- An operation of an engine of core `n`, and a core that holds it. -/
def op0 (n kind : Nat) (phase : OpPhase) : EngOp :=
  ⟨9, ⟨⟨.tile n, 0⟩, 1, 0, 9⟩, 0, kind, 0, 14, 15, 0x24000, 0x1C000, 0, mmaField 0, ⟨0, false, false, false, 0⟩, convField 8 8, some 0, false, false, phase,
    [], [0], [0], 0, 0, false, 0⟩
def engineAt (n : Nat) (o : EngOp) : State := launchedAt n [0, 1, 2, 6] id fun co =>
  if n = 1 then { co with convOps := [o] } else { co with matOps := [o], rings := (co.rings.set 14 (ring0 2 1 2 0)).set 15 (ring0 2 1 2 0) }

theorem witness_convEvents :
    (∀ ph ∈ [OpPhase.queued, .atRings], (getCore (engineAt 1 (op0 1 10 ph)) (.tile 1)).convOps = [op0 1 10 ph] ∧ nextOfAct [op0 1 10 ph] (op0 1 10 ph) = true ∧
      opKilled (engineAt 1 (op0 1 10 ph)) (op0 1 10 ph) = false ∧ convGranted (op0 1 10 ph) = true) ∧
    (let o := op0 1 10 .atRings
     let s := engineAt 1 o
     o.conv.srcr = false ∧ o.conv.dstr = false ∧ rangeStill s o o.src 36 = .yes ∧ rangeStill s o o.dst 36 = .yes ∧ failedIn s (localAddr 1 o.src) 36 = none ∧
      mxCheck 0 (readN s.mem (localAddr 1 o.src) 36) = none) ∧
    ((getCore (engineAt 1 (op0 1 10 .running)) (.tile 1)).convOps.find? (·.started) = some (op0 1 10 .running)) ∧
    (let o := { op0 1 10 .queued with src := 14, conv := { convField 8 8 with srcr := true } }
     let held := modCore (engineAt 1 o) (.tile 1) fun co => { co with rings := co.rings.set 14 (ring0 1 1 1 0) }
     (getCore held (.tile 1)).convOps = [o] ∧ ringLost held 1 14 o.id = false ∧ ringLost (engineAt 1 o) 1 14 o.id = true ∧
      (getCore (engineAt 1 o) (.tile 1)).convOps = [o] ∧ nextOfAct [o] o = true ∧ opKilled (engineAt 1 o) o = false) := by
  decide +kernel

theorem witness_matrixEvents :
    (∀ x ∈ [(0, OpPhase.queued), (3, .queued), (0, .past), (0, .atRings)], (getCore (engineAt 2 (op0 2 x.1 x.2)) (.tile 2)).matOps[0]? = some (op0 2 x.1 x.2) ∧
      nextOfAct (getCore (engineAt 2 (op0 2 x.1 x.2)) (.tile 2)).matOps (op0 2 x.1 x.2) = true ∧ opKilled (engineAt 2 (op0 2 x.1 x.2)) (op0 2 x.1 x.2) = false) ∧
    (op0 2 0 .queued).mma.ben = false ∧ (matSlots (engineAt 2 (op0 2 0 .past)) 2 (op0 2 0 .past)).isSome = true ∧
    matReady (engineAt 2 (op0 2 0 .atRings)) 2 (getCore (engineAt 2 (op0 2 0 .atRings)) (.tile 2)).matOps (op0 2 0 .atRings) = true ∧
    (∀ k ∈ [7, 4, 5], (getCore (engineAt 2 (op0 2 k .running)) (.tile 2)).matOps[0]? = some (op0 2 k .running) ∧ (op0 2 k .running).accF.ring = false) ∧
    (let o := op0 2 7 .running
     tileBad (engineAt 2 o) o = false ∧ tileBad (modCore (engineAt 2 o) (.tile 2) fun co => { co with badTiles := [(o.who.ctx, o.who.gen, o.acc)] }) o = true) ∧
    (∀ awe : Word, awe = 0 ∨ awe = 0x100000 → let o := { op0 2 5 .running with wrapped := true }
     let s := setCtx (engineAt 2 o) o.who.ctx { ctx0 with fpctl := awe }
     findActivation s o.who.ctx o.who.gen = some { ctx0 with fpctl := awe } ∧ (wrapTraps s o = true ↔ awe = 0x100000)) := by
  refine ⟨by decide +kernel, by decide +kernel, by decide +kernel, by decide +kernel, by decide +kernel, by decide +kernel, ?_⟩
  rintro awe (rfl | rfl) <;> decide +kernel

/-- A forward of MMROT to ring 15 of core 6, whose windows are open or shut. -/
def forward0 (slot : Option Nat) : Forward := ⟨List.replicate 8 0, 15, 6, op0 2 2 .running, false, slot⟩
def forwardingTo (shut : Bool) (slot : Option Nat) : State :=
  modCore (launchedAt 2 [0, 1, 2, 6] id fun co => { co with forwards := [(true, forward0 slot)] }) (.tile 6) fun co => { co with
    rings := co.rings.set 15 (ring0 2 1 2 0), windows := if shut then { co.windows with expen := true, win := Vector.replicate 8 0 } else
      { co.windows with default_ := 1, expen := true, win := Vector.replicate 8 0xF0000000FFF00000#64 } }

/-- A forward before and after its slot is granted, and a vector that leaves a port (R285, R311). -/
theorem witness_linkEvents :
    (∀ x : Option Nat, x = none ∨ x = some 3 → (getCore (forwardingTo false x) (.tile 2)).forwards.find? (·.1 == true) = some (true, forward0 x) ∧
      (forward0 x).asked = false) ∧
    (∀ shut : Bool, let s := forwardingTo shut (some 3)
      let off := (ringOf s 6 15).slotOff 3
      let admitted := engWindow s (agentNo (.tile 2)) 6 off (forward0 (some 3)).data.length (forward0 (some 3)).op.launch true = true ∧
        engRole (getCore s (.tile 6)) (forward0 (some 3)).op.id off (forward0 (some 3)).data.length ≠ .no
      if shut then ¬admitted else admitted) ∧
    ((overVn2 (forwardingTo false (some 3)) (.core 2) (.core 6)).isSome = true ∧
      let s := modDev (forwardingTo false (some 3)) fun d => { d with repair := [(.core 2, .core 6)], lost := [pkt (.core 2) (.core 6) 0 (.ack 1)] }
      overVn2 s (.core 2) (.core 6) = none ∧ (getCore s (.tile 2)).forwards.find? (·.1 == true) = some (true, forward0 (some 3))) ∧
    (let s := labCore id fun co => { co with linkOut := co.linkOut.set 3 [7] }
     (getCore s (.tile 0)).linkOut[(Fin.ofNat 4 3 : Fin 4)] = [7] ∧ cutOff s (.core 0) (.core (neighbour 0 3)) = false ∧ forwarding s (neighbour 0 3) (oppositePort 3) = false ∧
      ((getCore s (.tile (neighbour 0 3))).linkIn[(Fin.ofNat 4 (oppositePort 3) : Fin 4)]).length < 8) := by
  refine ⟨?_, ?_, by decide +kernel, by decide +kernel⟩
  · rintro x (rfl | rfl) <;> decide +kernel
  · rintro (_ | _) <;> decide +kernel

/-- Causes that are due in a context (R340 to R345, R351). -/
def caused (code : BitVec 6) (due : Bool) : State := lab fun c => { c with causes := [⟨code, 0, 0, 0x500000, 0, []⟩], due12 := due }
/-- The same in an activation whose budget does not run out. -/
def unlimited (code : BitVec 6) (due : Bool) : State :=
  lab fun c => { c with causes := [⟨code, 0, 0, 0x500000, 0, []⟩], due12 := due, actLeft := 0xFFFFFFFF }

/-- A budget of 0 is spent at the next bundle boundary. -/
theorem due_zero (s : State) (k : CtxKey) (h : (getCtx s k).actLeft = 0)
    (h' : ((getCtx s k).used && !isFw k.agent && !(getCtx s k).killed && (getCtx s k).wait.isNone && !(getCtx s k).inGrace) = true) : budgetDue s k = true := by
  simp only [budgetDue, budgetSpent, runOut_zero s h, h', Bool.true_or, Bool.and_self]

theorem witness_trapEvents :
    (let c := getCtx (lab id) slot0
     c.used = true ∧ c.killed = false ∧ c.quiet = true ∧ c.stepped = none ∧ c.frames = []) ∧
    ((∀ due, budgetDue (caused 0x2D due) slot0 = true) ∧ ∀ due code, code = 0x2D#6 ∨ code = 0x28#6 → budgetDue (unlimited code due) slot0 = false ∧
      canDeliver (getCtx (unlimited code due) slot0) = true ∧ (getCtx (unlimited code due) slot0).due12 = due ∧ (getCtx (unlimited code due) slot0).inTrap = false) ∧
    (∀ due, canDeliver (getCtx (caused 0x2D due) slot0) = true ∧ (getCtx (caused 0x2D due) slot0).due12 = due ∧ (getCtx (caused 0x2D due) slot0).inTrap = false) ∧
    ((getCtx (caused 0x2D false) slot0).nextCause = some ⟨0x2D, 0, 0, 0x500000, 0, []⟩ ∧ (getCtx (caused 0x28 false) slot0).nextCause = some ⟨0x28, 0, 0, 0x500000, 0, []⟩) ∧
    (let c := getCtx (lab fun c => { c with stepped := some 0x400000 }) slot0
     c.stepped = some 0x400000 ∧ c.used = true ∧ c.killed = false ∧ c.quiet = true ∧ c.inTrap = false) ∧
    (0 < (getCtx callee slot0).depth ∧ (getCtx callee slot0).quiet = true ∧ sinksOut callee slot0 = false ∧ (0x2D : BitVec 6).toNat ≠ 0x12 ∧
      released (startWriteBacks { callee with cur := slot0, latch := none } .core) .core = true) := by
  refine ⟨by decide +kernel, ⟨?_, ?_⟩, by decide +kernel, by decide +kernel, by decide +kernel, by decide +kernel, by decide +kernel, by decide +kernel,
    by decide, by decide +kernel⟩
  · rintro (_ | _) <;> exact due_zero _ _ (by decide +kernel) (by decide +kernel)
  · rintro (_ | _) code (rfl | rfl) <;> decide +kernel

/-- A watchpoint of each delivery, a write that has met one, and the snapshot's triggers (R224, R354, R355). -/
theorem witness_watch :
    (let t : Trig := ⟨.tile 0, 3, 0, 4, 0x1C000⟩
     let s := modDev (lab id) fun d => { d with trigs := [t] }
     (s.dev.trigs.find? fun t => t.ag == .tile 0 && t.n == (3 : Fin 4).val && t.kind == (0 : Fin 11).val && t.writer == (4 : BitVec 11).toNat &&
      t.addr % 2 ^ 48 == (0x1C000 : BitVec 48).toNat) = some t) ∧
    (∀ n ∈ [0, 1, 2], ((getCore (labCore id fun co => { co with watches := co.watches.set 3 { Watch.off with en := true, deliv := n, who := some who4 } }) (.tile 0)).watches[(3 : Fin 4)]).deliv = n) ∧
    (modDev (lab id) fun d => { d with snap := { d.snap with watchEn := true, pinEn := true } }).dev.snap.pinEn = true ∧
    (let s := modDev (lab id) fun d => { d with snap := { d.snap with armed := true, timeEn := true, time := 5 } }
     (timeTo s 5).isSome = true ∧ s.dev.snap.armed = true ∧ s.dev.snap.timeEn = true ∧ s.dev.snap.time.toNat ≤ 5) := by
  decide +kernel

/-- The device with its time running, between a clapper and the next. -/
def timed (f : Device → Device) : State := modDev (launched id) fun d => f { d with
  time := { d.time with run := true, fired := true, first := 1, locked := true }, image := { d.image with egressDone := false } }
/-- A frame of stream 3, whose last bit arrived at `n`. -/
def frame0 (n : Nat) (drop : Option (Nat × Nat)) : Frame := ⟨some 3, [1, 2], n, 1, 0, true, false, drop⟩
/-- An entry of the call sheet: a periodic one at offset 5 of every take, or a one-shot one at 5. -/
def entry5 (abs : Bool) : SheetEntry := ⟨[w64 (2 ^ 63 + b2n abs * 2 ^ 62 + 2 ^ 40 + 5), 5], false⟩
def ctrlWith (f : CtrlCore → CtrlCore) : State := modDev State.reset fun d => { d with ctrl := d.ctrl.set 7 (f CtrlCore.reset) }

theorem witness_takeEvents :
    ((timed id).dev.time.locked = true ∧ State.reset.dev.time.locked = false ∧ fwWorks State.reset 7 = true) ∧
    (∀ n : Int, n = 1 ∨ n = -3 → let s := modDev State.reset fun d => { d with time := { d.time with slewLeft := n, slewAcc := 999 } }
      (timeTo s (s.dev.time.dtime + (1000 * s.dev.time.slewLeft.natAbs - s.dev.time.slewAcc))).isSome = true) ∧
    ((999999 : Word).toNat % 2 ^ 32 < State.reset.dev.time.period ∧ State.reset.dev.time.expen = false) ∧
    (State.reset.dev.time.period ≤ (1000000 : Word).toNat % 2 ^ 32) ∧
    (∀ p ∈ [10000, 100000000], State.reset.dev.time.run = false ∧ 10000 ≤ (w64 p).toNat % 2 ^ 32 ∧ (w64 p).toNat % 2 ^ 32 ≤ 100000000 ∧
      bits (w64 p).toNat 63 32 < (w64 p).toNat % 2 ^ 32 ∧ State.reset.dev.time.phase < (w64 p).toNat % 2 ^ 32) ∧
    ((timed fun d => { d with time := { d.time with expen := true } }).dev.time.expen = true ∧ (timed id).dev.time.run = true) ∧
    ((3 : BitVec 32).toInt = 3 ∧ (-3 : BitVec 32).toInt = -3 ∧
      ∀ d ∈ [(3 : Int), -3], (diverge (timed fun d => { d with time := { d.time with dtime := 9, dtime1 := 9 } }) d).isSome = true) ∧
    ((modDev State.reset fun d => { d with image := { d.image with loaded := some ⟨[], [], []⟩ } }).dev.image.loaded.isSome = true ∧
      State.reset.dev.image.expen = false) ∧
    (let s := timed fun d => { d with image := { d.image with egressDone := true } }
     ∀ n ∈ [999996, 1000000, 1000004], s.dev.time.run = true ∧ swapPending s = false ∧ (timeTo s (w64 n).toNat).isSome = true ∧
      s.dev.time.due s.dev.time.first ≤ (w64 n).toNat + 4 ∧ (w64 n).toNat ≤ s.dev.time.due s.dev.time.first + 4) ∧
    ((timed id).dev.time.fired = true ∧ (timed id).dev.image.egressDone = false ∧ (timed id).dev.power.failing ≤ 1 ∧
      (timed id).dev.time.due (timed id).dev.time.takeno + (timed id).dev.time.egress ≤ (500000 : Word).toNat ∧ (timeTo (timed id) (500000 : Word).toNat).isSome = true) ∧
    (timed fun d => { d with power := { d.power with failing := 2 } }).dev.power.failing ≠ 0 ∧
    (let s := timed fun d => { d with image := { d.image with egMaps := ⟨[], [⟨true, 0, 0, 4, 0, false, false⟩], [⟨1, 0, [7], 64⟩]⟩ } }
     s.dev.image.egMaps.descs[0]? = some ⟨1, 0, [7], 64⟩ ∧ s.dev.time.fired = true ∧ drives s = true ∧ sendTime s ⟨1, 0, [7], 64⟩ = some 0 ∧ (timeTo s 0).isSome = true ∧ 0 ∉ s.dev.image.sent ∧
      (s.dev.image.egMaps.outMap.any fun m => m.valid && m.stream == 0) = true) := by
  refine ⟨by decide +kernel, ?_, by decide +kernel, by decide +kernel, by decide +kernel, by decide +kernel, by decide +kernel, by decide +kernel,
    by decide +kernel, by decide +kernel, by decide +kernel, by decide +kernel⟩
  rintro n (rfl | rfl) <;> decide +kernel

theorem witness_frames :
    (∀ d : Option (Nat × Nat), d = none ∨ d = some (2, 1) → (frame0 9 d).fcsOk = true ∧ (frame0 9 d).duplicate = false ∧ (frame0 9 d).stream = some 3 ∧
      tooLate (timed id).dev.time (frame0 9 d) = false ∧ ∃ t, timeTo (timed id) (Nat.max (timed id).dev.time.dtime (frame0 9 d).endNs) = some t ∧
        dropOf t (frame0 9 d) 3 = d) ∧
    (∀ x ∈ [((⟨5, ⟨1, [(0, 0)]⟩, 64⟩ : StreamFilter), 0), (⟨5, ⟨1, [(0, 1)]⟩, 1⟩, 1)],
      dropOf (timed fun d => { d with image := { d.image with qci := [(3, x.1)] } }) (frame0 9 none) 3 = some (5, x.2)) ∧
    (let f : Frame := { frame0 9 none with stream := none }
     f.fcsOk = true ∧ f.duplicate = false ∧ f.stream = none ∧ tooLate (timed id).dev.time f = false ∧ (timeTo (timed id) (Nat.max (timed id).dev.time.dtime f.endNs)).isSome = true) ∧
    ((frame0 999499 none).endNs + (timed id).dev.time.guardNs < (timed id).dev.time.due (timed id).dev.time.first ∧
      (timed id).dev.time.due (timed id).dev.time.first ≤ (frame0 999500 none).endNs + (timed id).dev.time.guardNs) := by
  refine ⟨?_, by decide +kernel, by decide +kernel, by decide +kernel⟩
  rintro d (rfl | rfl) <;> exact ⟨by decide, by decide, by decide, by decide +kernel, _, rfl, by decide +kernel⟩

theorem witness_sheet : ∀ abs : Bool, let s := timed fun d => { d with sheet := { d.sheet with active := [entry5 abs] } }
    s.dev.sheet.active[0]? = some (entry5 abs) ∧ s.dev.time.run = true ∧ fwWorks s 2 = true ∧
      (timeTo s (Nat.max s.dev.time.dtime (entryTime s.dev.time (entry5 abs)))).isSome = true ∧ (entry5 abs).abs = abs ∧ (entry5 abs).valid = true ∧ entryDue s.dev.time (entry5 abs) = true ∧
      entryFirst s 0 (entry5 abs) = true ∧ (abs = true → (entry5 abs).word 1 ≤ (5 : Word).toNat ∧ (timeTo s (5 : Word).toNat).isSome = true) := by
  decide +kernel

theorem witness_controlCores :
    ((ctrlWith id).dev.ctrl[(7 : Fin 8)]).busy = false ∧
    (∀ x ∈ [(9, 0, 0), (8, 0xFFFE, 0), (8, 0xFFFD, 3), (8, 0xFFFD, 2044)], (x.1 = 9 → 8 < bits (w64 (x.1 * 2 ^ 32)).toNat 35 32) ∧
      (x.1 = 8 → let v := w64 (x.1 * 2 ^ 32 + x.2.1 * 2 ^ 16 + x.2.2)
        bits v.toNat 35 32 ≤ 8 ∧ bits v.toNat 31 16 = x.2.1 ∧ v.toNat % 2 ^ 11 % 4 = x.2.2 % 4)) ∧
    (∀ slate : Word, slate = 0 ∨ slate = 0x10001 → ∀ n : Nat, n = 255 ∨ n = 1 →
      let s := ctrlWith fun c => { c with results := c.results.set 3 [(7, slate)], tested := c.tested.set 3 true, maxage := c.maxage.set 3 n }
      (s.dev.ctrl[(7 : Fin 8)]).tested[(3 : Fin 4)] = true ∧ (s.dev.ctrl[(7 : Fin 8)]).results[(3 : Fin 4)] = (7, slate) :: [] ∧
        (slate = 0 ∨ (s.dev.ctrl[(7 : Fin 8)]).maxage[(3 : Fin 4)] = 255 ∨
          slateAge (modDev s fun d => { d with time := { d.time with takeno := 2 } }) slate ≤ (s.dev.ctrl[(7 : Fin 8)]).maxage[(3 : Fin 4)])) ∧
    (∀ n : Nat, n = 63 → (appendResult (ctrlWith fun c => { c with results := c.results.set 3 (List.replicate n (7, 0)) }) 31 7 0).isSome = true) := by
  refine ⟨by decide +kernel, by decide +kernel, ?_, ?_⟩
  · rintro slate (rfl | rfl) n (rfl | rfl) <;> decide +kernel
  · rintro n rfl
    decide +kernel

/-- A package that would pair, or has paired, and its partner. -/
def pairing (f : PairBlock → PairBlock) : State := modDev (timed id) fun d => { d with
  time := { d.time with guardNs := 1500 }, image := { d.image with egressDone := true }, pair := f { d.pair with enable := true } }
def paired (f : PairBlock → PairBlock) : State := pairing fun p => f { p with paired := true, linkUp := true }
def partner (up : Bool) : PartnerView := ⟨up, true, 0, 1000000, 500000, 1500, configDigest (pairing id)⟩

/-- Nothing of the pair's own is due before the marker. -/
def settled : State := paired fun p => { p with lastBeat := some 1, digestSent := some 0, judged := some 1, markerGot := [0], mirroring := true }

theorem witness_pairEvents :
    ((pairing id).dev.pair.paired = false ∧ (pairing id).dev.pair.enable = true ∧ fwWorks (pairing id) 6 = true ∧ pairReason (pairing id) (partner false) = 1) ∧
    pairReason (pairing id) (partner true) = 0 ∧
    (∀ x ∈ [paired id, pairing fun p => { p with enable := false }, modFw (pairing id) 6 fun f => { f with failed := true }],
      x.dev.pair.paired = true ∨ x.dev.pair.enable = false ∨ fwWorks x 6 = false) ∧
    (∀ l : List Nat, l = [1] ∨ l = [] → let s := paired fun p => { p with markerGot := l, mirroring := true }
      s.dev.pair.paired = true ∧ s.dev.pair.linkUp = true ∧ s.dev.pair.mirroring = true ∧ (l = [] → 1 ∉ s.dev.pair.markerGot ∧ s.dev.time.takeno < 1) ∧ (s.dev.time.first ∈ s.dev.pair.markerGot ↔ l = [1])) ∧
    (settled.dev.time.run = true ∧ settled.dev.time.first ∉ settled.dev.pair.markerSent ∧
      (timeTo settled (Nat.max settled.dev.time.dtime (settled.dev.time.due settled.dev.time.first - settled.dev.time.guardNs))).isSome = true) ∧
    ((paired id).dev.time.fired = true ∧ (paired id).dev.time.takeno ∉ (paired id).dev.pair.markerGot ∧ (paired id).dev.power.failing = 0 ∧ (paired id).dev.image.egressDone = true ∧
      fwWorks (paired id) 6 = true ∧ (paired id).dev.pair.digestSent ≠ some (paired id).dev.time.takeno ∧
      ((paired id).dev.pair.peerDigests.find? (·.1 == (paired id).dev.time.takeno)) = none) ∧
    (let s := modDev (paired fun p => { p with ownDigests := [(0, 7)] }) fun d => { d with time := { d.time with takeno := 2 } }
     s.dev.pair.ownDigests.find? (·.1 == 0) = some (0, 7) ∧ (s.dev.pair.ownDigests.find? fun x => x.1 + 2 ≤ s.dev.time.takeno) = some (0, 7)) ∧
    (let s := modDev (paired fun p => { p with ownDigests := [(0, 7)] }) fun d => { d with time := { d.time with takeno := 1 } }
     s.dev.pair.ownDigests.find? (·.1 == 0) = some (0, 7) ∧ s.dev.pair.linkUp = true ∧ s.dev.time.takeno < 0 + 2) ∧
    (∀ b : Option Nat, b = none ∨ b = some 0 → let s := paired fun p => { p with lastBeat := b, digestSent := some 0, judged := some 0, markerGot := [0] }
      ∃ half due, beatDue s = some (half, due) ∧ (timeTo s (Nat.max s.dev.time.dtime due)).isSome = true) ∧
    (∀ term : BitVec 16, term = 0 ∨ term = 1 → let s := paired fun p => { p with driving := true }
      s.dev.pair.driving = true ∧ (s.dev.pair.term.toNat < term.toNat ↔ term = 1)) ∧
    (∀ n : Nat, n = 0 ∨ n = 1 → ∀ driving : Bool,
      let s := paired fun p => { p with misses := n, driving := driving, lastBeat := some 1, digestSent := some 0, judged := some 0, markerGot := [0] }
      s.dev.pair.misses = n ∧ s.dev.pair.driving = driving ∧ fwWorks s 6 = true ∧ s.dev.time.run = true ∧ s.dev.pair.judged = some 0 ∧
        ∃ half due, missDue s = some (half, due) ∧ (timeTo s (Nat.max s.dev.time.dtime due)).isSome = true) := by
  refine ⟨⟨rfl, rfl, rfl, rfl⟩, ?_, by decide +kernel, ?_, by decide +kernel, by decide +kernel, by decide +kernel, by decide +kernel, ?_, ?_, ?_⟩
  · have h : (partner true).configDigest = configDigest (pairing id) := rfl
    simp only [pairReason, h, ne_eq, not_true_eq_false, if_false]
    decide +kernel
  · rintro l (rfl | rfl) <;> decide +kernel
  · rintro b (rfl | rfl) <;> exact ⟨_, _, rfl, by decide +kernel⟩
  · rintro n (rfl | rfl) <;> decide +kernel
  · rintro n (rfl | rfl) (_ | _) <;> exact ⟨rfl, rfl, by decide +kernel, rfl, rfl, _, _, rfl, by decide +kernel⟩

/-- The guest port with a queue of launch 0 in its last place, and a request of it. -/
def guested (f : GuestPort → GuestPort) : State := modDev (launched id) fun d => { d with guest := f { d.guest with
  en := true, up := true, queues := d.guest.queues.set 63 { GuestQueue.reset with valid := true, depth := 1, launch := 0, asid := 5 } } }
def request0 : GuestReq := ⟨63, 9, who4, [w64 (3 * 2 ^ 28), 0, w64 (localAddr 0 0x1C000), 0]⟩
def submit0 (n : Nat) : Access := ⟨1, .tile 4, ⟨.tile 4, 0⟩, 1, 0, .st (List.replicate n 0), submitBase + 64 * 63, submitBase + 64 * 63, some 0, some 3, 0, 0, 0⟩

/-- The guest port (R366 to R371): each queue state and request that the statements name. -/
theorem witness_guestEvents :
    ((submit0 64).op = .st (List.replicate 64 0) ∧ submitBase ≤ (submit0 64).addr ∧ (List.replicate 64 (0 : Byte)).length = 64 ∧ (submit0 64).jn = some 3 ∧
      packetFormed (wordsOf (List.replicate 64 0)) = true ∧ queueTakes (guested id).dev.guest 63 (some 0) = true ∧
      queueTakes (guested fun g => { g with reqs := [request0] }).dev.guest 63 (some 0) = false) ∧
    (∀ t, takePkt (carry (guested id) (pkt (.core 4) .guest 0 (.access (submit0 64)))) 0 = some ((pkt (.core 4) .guest 0 (.access (submit0 64))), t) ↔
      t = { guested id with net := [] }) ∧
    (findReq (guested fun g => { g with reqs := [request0] }) 63 9 = some request0 ∧ findReq (guested id) 63 9 = none ∧
      (completeReq (guested fun g => { g with reqs := [request0] }) request0 7).isSome = true) ∧
    preemptDue (modCore (guested id) (.tile 0) fun co => { co with queues := co.queues.set 0 { Queue.free with valid := true, launch := some 0, holdReqs := [0] } }) 63 = true ∧
    (((guested fun g => { g with queues := g.queues.set 63 { g.queues[63] with preempting := true } }).dev.guest.queues[(63 : Fin 64)]).preempting = true) ∧
    ((guested id).dev.guest.en = true ∧ (guested id).dev.guest.up = true ∧ outsideFormed ⟨0xF0000001C000, 8, none⟩ = true ∧
      guestLaunch (guested id).dev.guest 6 = none ∧ guestLaunch (guested id).dev.guest 5 = some 0) := by
  refine ⟨by decide +kernel, fun t => ⟨?_, ?_⟩, by decide +kernel, by decide +kernel, by decide +kernel, by decide +kernel⟩
  · intro h
    rw [take_carry _ _ rfl rfl rfl rfl] at h
    exact ((Prod.mk.inj (Option.some.inj h)).2).symm
  · rintro rfl
    exact take_carry _ _ rfl rfl rfl rfl

/-- An access of the guest to a core's pool, done and refused. -/
theorem witness_guestAccess :
    (let s := modCore (guested id) (.tile 0) fun co => { co with windows := { co.windows with default_ := 1, expen := true, win := Vector.replicate 8 0xF0000000FFF00000#64 } }
     let a : OutsideAccess := ⟨0xF0000001C000, 8, none⟩
     (match outsideAccess s a (guestTranslation s 5 a.va 0) true 9 (some 0) with | .done _ => true | _ => false) = true) ∧
    (let a : OutsideAccess := ⟨0x1000, 8, none⟩
     outsideAccess (guested id) a (guestTranslation (guested id) 5 a.va 0) true 9 (some 0) = .refused) :=
  ⟨by decide +kernel, rfl⟩

/-- Core 0's windows open, and a reshape of it that makes bank 20 a bank of the tile store. -/
def opened (moving : Bool) : State := modCore (guested id) (.tile 0) fun co => { co with
  windows := { co.windows with default_ := 1, expen := true, win := Vector.replicate 8 0xF0000000FFF00000#64 }
  reshape := if moving then some ⟨(6, 0, 8, 49), ⟨slot0, 1, 0, 1⟩, 1, []⟩ else none }
/-- A request whose completion writes a word of core 0's pool, or writes none. -/
def request1 (off : Nat) (writes : Bool) : GuestReq := ⟨63, 9, who4, [w64 (b2n writes * 2 ^ 28), 0, w64 (localAddr 0 off), 0]⟩
/-- A switch in force whose old homes have not signalled, and page 0 of ASID 5 at an address that it moves. -/
def switching : State := modDev { guested id with
    mem := [(40, 0x1001), (0x1000, 0x2001), (0x2000, 0x3001), (0x3000, 0x4001), (0x4000, 0x1002F)].foldl (fun m x => writeN m x.1 8 x.2) [] } fun d => { d with
  ptroot := 1
  dom := { d.dom with switch := some ⟨d.dom.mask.set 0 1, d.dom.sel, d.dom.mask.set 0 2, d.dom.sel, 0, true, false, 0⟩ } }

/-- The write of a completion is done, waits for a reshape, or is not asked for; and an access that its home holds (R190, R368). -/
theorem witness_completions :
    (let r := request1 0x1C000 true
     bit (pktWord r.packet 0) 28 = true ∧ ownerCheck (dropReq (opened false) r) (bits (pktWord r.packet 2) 43 33) (bits (pktWord r.packet 2) 19 0) 8 .at_ none false
      (some ((opened false).dev.guest.queues[r.q]).launch) = .perform) ∧
    (let r := request1 0x50000 true
     bit (pktWord r.packet 0) 28 = true ∧ ownerCheck (dropReq (opened true) r) (bits (pktWord r.packet 2) 43 33) (bits (pktWord r.packet 2) 19 0) 8 .at_ none false
      (some ((opened true).dev.guest.queues[r.q]).launch) = .later) ∧
    bit (pktWord (request1 0 false).packet 0) 28 = false ∧
    (match outsideAccess switching ⟨0, 8, none⟩ (guestTranslation switching 5 0 0) true 9 (some 0) with | .held => true | _ => false) = true := by
  decide +kernel

/-- The device booted, with launch 0. -/
def hosted (f : Device → Device) : State := modDev (launched id) fun d => f { d with sec := { d.sec with booted := true, translator := true }, launches := [{ launch0 with htable := 1 }] }
/-- A launch image at the host's address 0: a header with one core and no segments. -/
def imageMem : List Host.Cell := [(0, 4, 0x4E4C4356), (4, 2, 1), (8, 2, 1), (0xA, 2, 1), (0xC, 1, 1), (0x10, 4, 1), (0x14, 4, 0x10072206), (0x2C, 2, 2),
  (0x40, 8, 2 ^ 32 + 1), (0x48, 8, 2 * 2 ^ 32 + 0x60), (0x50, 8, 2), (0x58, 8, 0x68)].foldl (fun m x => writeN m (hostAddr 0 + x.1) x.2.1 x.2.2) []

/-- The host port (R374, R375, R394 to R401): each case of a command. -/
theorem witness_hostEvents :
    ((hosted id).dev.sec.booted = true ∧ ((hosted id).fws[1]).failed = false ∧ (hosted id).dev.power.failing ≤ 1 ∧ (hosted id).dev.sec.advance = none ∧
      ∀ k ∈ [0, 2, 3, 7], fwWorks (hosted id) k = true) ∧
    (∀ n : Nat, n = 1 ∨ n = 9 → let s := modSec (hosted id) fun x => { x with advance := some (7, n) }
     s.dev.sec.advance = some (7, n) ∧ (s.dev.sec.svn + 1 < n ↔ n = 9)) ∧
    (let s := modSec (hosted id) fun x => { x with booted := false, recovery := some 0 }
     s.dev.sec.booted = false ∧ s.dev.sec.recovery.isSome = true) ∧
    (let q := (hosted id).dev.host.queues[(3 : Fin 16)]
     let s : State := { hosted id with mem := writeN [] (q.base + 128 * q.head) 8 (7 * 2 ^ 32 + 5) }
     (match commandOf (commandAt (hosted id) q q.head) with | .error 1 => true | _ => false) = true ∧ (hosted id).dev.sec.recovery = none ∧
      (match commandOf (commandAt s q q.head) with | .ok f => (match f s with | .next _ => true | _ => false) | .error _ => false) = true) ∧
    (modDev (hosted id) fun d => { d with host := { d.host with open_ := [(7, 3)] } }).dev.host.open_.find? (·.1 == 7) = some (7, 3) ∧
    (let s : State := { hosted id with mem := imageMem }
     checkLaunch s ⟨s.mem, hostAddr 0⟩ = .ok () ∧ 4096 * (placeLaunch s ⟨s.mem, hostAddr 0⟩ 9 ⟨[], []⟩).dev.nextPage ≤ dramEnd) ∧
    (let s : State := modDev { hosted id with mem := imageMem } fun d => { d with nextPage := dramEnd / 4096 + 1 }
     checkLaunch s ⟨s.mem, hostAddr 0⟩ = .ok () ∧ dramEnd < 4096 * (placeLaunch s ⟨s.mem, hostAddr 0⟩ 9 ⟨[], []⟩).dev.nextPage) ∧
    (match checkLaunch (hosted id) ⟨[], hostAddr 0⟩ with | .error _ => true | .ok _ => false) = true ∧
    (postActive (queueAt0 [] []) .hostFront 0 7 1 0 none [] 0).isSome = false ∧
    (let l := (List.range 0).map fun n => sheetEntryAt (hosted id).mem (hostAddr 0 + 128 * n)
     sheetAccepted (hosted id).dev.time.period l = true) ∧
    sheetAccepted 1000000 [⟨[w64 (2 ^ 63)], false⟩] = false ∧
    (findLaunch (hosted id) 5 = none ∧ findLaunch (hosted id) 0 = some { launch0 with htable := 1 } ∧ (0 : Nat) ≠ ({ launch0 with htable := 1 } : Launch).htable ∧ launch0.ending = false) ∧
    (modDev (hosted id) fun d => { d with host := { d.host with aperture := some (5, 64) } }).dev.host.aperture = some (5, 64) ∧
    (64 * 2 ^ 30 < (⟨64 * 2 ^ 30 - 7, 8, none⟩ : OutsideAccess).va + 8 ∧ outsideFormed ⟨64 * 2 ^ 30 - 8, 8, none⟩ = true) ∧
    (outsideAccess (hosted id) ⟨0, 8, none⟩ ((walk (hosted id) 5 0 0).map fun t => (hosted id, t)) false 8 none = .refused) ∧
    ((hosted id).dev.dom.switch = none ∧ (hosted id).dev.dom.split = none ∧ splitAccepted (hosted id).dev.dom 0 1 0 1 = false ∧
      splitAccepted (modDev (hosted id) fun d => { d with dom := { d.dom with expen := true } }).dev.dom 0 1 479 1 = true) := by
  refine ⟨by decide +kernel, ?_, by decide +kernel, by decide +kernel, by decide +kernel, by decide +kernel, by decide +kernel, by decide +kernel, by decide +kernel,
    by decide +kernel, by decide +kernel, by decide +kernel, by decide +kernel, by decide +kernel, rfl, by decide +kernel⟩
  rintro n (rfl | rfl) <;> decide +kernel

/-- Page tables for ASID 5: directory at 0, and page 0 mapped to 0x10000 by a level-3 leaf that allows reads and writes (R176 to R179). -/
def tables : List Host.Cell :=
  [(40, 0x1001), (0x1000, 0x2001), (0x2000, 0x3001), (0x3000, 0x4001), (0x4000, 0x1000F)].foldl (fun m x => writeN m x.1 8 x.2) []
def mapped : State := modDev { hosted id with mem := tables } fun d => { d with ptroot := 1 }
/-- A valid entry of no bytes in the maps. -/
def badMap : State := { hosted id with mem := writeN [] (hostAddr 0) 8 (2 ^ 63) }

theorem witness_hostMaps :
    (inMapAccepted (hosted id).dev.pair.paired (inMapAt (hosted id) (hostAddr 0)) && outMapAccepted (outMapAt (hosted id) (hostAddr 0)) []) = true ∧
    inMapAccepted badMap.dev.pair.paired (inMapAt badMap (hostAddr 0)) = false ∧
    (postActive (queueAt0 [] []) .hostFront 0 7 0 0 none [] 0).isSome = true ∧
    (match outsideAccess mapped ⟨0, 8, none⟩ ((walk mapped 5 0 0).map fun t => (mapped, t)) false 8 none with | .done _ => true | _ => false) = true := by
  decide +kernel

/-- What the verification functions, which are opaque, must answer for the accepted cases of the images and commands (R391, R394). -/
theorem witness_signed (key sig item : List Byte) (h : Config.ed448Verify [] (sig.take 114) (Config.shake256 64 item) = true) :
    ownerSigned { Device.reset.sec with owners := [(Config.shake256 32 [], false)] } sig item = true ∧ liveSlot { Device.reset.sec with owners := [(key, false)] } = some 0 ∧
      liveSlot Device.reset.sec = none ∧ Device.reset.sec.owners.length < 8 ∧ ownerSigned Device.reset.sec sig item = false ∧
      (Device.reset.sec.svn < (64 : BitVec 8).toNat ∧ (64 : BitVec 8).toNat ≤ 64) ∧ accepted Device.reset.sec [] = false :=
  ⟨by simp [ownerSigned, liveSlot, List.zipIdx, ownerKey, storedImage, Device.reset, h], rfl, rfl, by decide, rfl, by decide, by rfl⟩

theorem witness_domains :
    (State.reset.dev.dom.switch = none ∧ (modDev State.reset fun d => { d with dom := { d.dom with expen := true } }).dev.dom.expen = true) ∧
    domRefusal (State.reset.dev.dom.mask.set 0 1) State.reset.dev.dom.sel = 0 ∧ domRefusal (State.reset.dev.dom.mask.set 0 0) State.reset.dev.dom.sel = 2 ∧
    domRefusal (State.reset.dev.dom.mask.set 15 1) State.reset.dev.dom.sel = 1 ∧
    (∀ a b : Bool, let w : Switch := ⟨State.reset.dev.dom.mask, State.reset.dev.dom.sel, State.reset.dev.dom.mask, State.reset.dev.dom.sel, 0, a, b, 0⟩
      let s := modDev State.reset fun d => { d with dom := { d.dom with switch := some w } }
      s.dev.dom.switch = some w ∧ w.applied = a ∧ w.signalled = b ∧ s.dev.dom.split = none) ∧
    (topTable mapped 5 = some 0x1000 ∧ leafEntry mapped.mem ((0 : Word).toNat % 2 ^ 48) 0x1000 4 = some (0x4000, 0x1000F, 3) ∧
      (0x20000 : Word).toNat % 2 ^ leafShift 3 (bit 0x1000F 11) = 0 ∧ (0x20000 : Word).toNat + 2 ^ leafShift 3 (bit 0x1000F 11) ≤ dramEnd ∧
      bits 0x1000F 46 12 * 2 ^ 12 + 2 ^ leafShift 3 (bit 0x1000F 11) ≤ (0x20000 : Word).toNat ∧ fwWorks mapped 3 = true ∧
      inMigration mapped 0x10000 4096 = false ∧ inMigration mapped 0x20000 4096 = false) ∧
    (let s := modDev mapped fun d => { d with migrations := [⟨0x10000, 0x20000, 4096⟩] }
     ⟨0x10000, 0x20000, 4096⟩ ∈ s.dev.migrations) ∧
    (let v : Invpg := ⟨⟨slot0, 1, 0, 0⟩, 9, 0, 5, 0, false⟩
     let s := modDev State.reset fun d => { d with invpg := some v }
     s.dev.invpg = some v ∧ v.who.ctx = slot0 ∧ accessesUnderWay s = false) ∧
    ((State.reset.dev.failed.any (·.1 == 64 / 32 * 32)) = false ∧ (State.reset.dev.failed.countP fun f => homeOf State.reset f.1 == homeOf State.reset (64 / 32 * 32)) < 64) ∧
    (∀ l ∈ (launched id).dev.launches, ∀ c ∈ l.cores, c ∉ tileCores 31 15) ∧ fwWorks (launched id) 4 = true ∧ (launched id).dev.retiring = [] := by
  decide +kernel

/-- The power block (R376 to R383): each side of a limit. -/
def powered (f : Power → Power) : State := modPower (launched id) f

theorem witness_power :
    ((powered id).dev.power.plimit < 300 + 301 ∧ 300 + 300 ≤ (powered id).dev.power.plimit ∧
      290 + 289 + (powered id).dev.power.hystNow < (powered id).dev.power.plimit ∧ (powered id).dev.power.plimit ≤ 290 + 290 + (powered id).dev.power.hystNow) ∧
    ((powered fun p => { p with gstep := (6, 6) }).dev.power.gstep.2 < 7 ∧ (powered fun p => { p with gstep := (6, 6) }).dev.power.gstep.1 < 7) ∧
    (((powered id).dev.power.tcrit : Int) ≤ (440 : BitVec 16).toInt ∧ onDie ((127 : Fin 128).val / 64) (powered id).dev.power.trip = false) ∧
    (((dieTemps (powered fun p => { p with temps := [(64, 379)] }).dev.power 1).all fun t => decide (t < ((powered id).dev.power.talert : Int))) = true) ∧
    ((powered id).dev.power.failing = 0 ∧ fwWorks (powered id) 5 = true ∧ (powered id).dev.power.talert ≤ (380 : BitVec 16).toNat) ∧
    (∀ n ∈ [1, 2, 3], let s := modPower State.reset fun p => { p with failing := n }
      s.dev.power.failing = n ∧ s.dev.reels.en = true ∧ fwWorks s 0 = true ∧ drainedAll s = true) ∧
    failOver (modPower State.reset fun p => { p with failing := 4 }) = true ∧
    (modSec State.reset fun x => { x with recovery := some 0 }).dev.sec.recovery = some 0 := by
  decide +kernel

/-- The other sides: samples below the limit one short of DOWN and at it, a reel that was never sealed, none at all, and the partner's
link for a recovery (R379, R383, R393). -/
theorem witness_powerEnds :
    (∀ n : Nat, n = 0 ∨ n = 1 → ∀ g : Nat × Nat, g = (1, 2) ∨ g = (2, 2) →
      let p := (powered fun p => { p with below := p.downNow - 2 + n, gstep := g }).dev.power
      (p.below + 1 < p.downNow ↔ n = 0) ∧ (p.downNow ≤ p.below + 1 ↔ n = 1) ∧ (p.gstep.1 < p.gstep.2 ↔ g = (1, 2))) ∧
    (let r : ReelImage := ⟨1, 5, 0, 0, some (Config.shake256 64 []), [], [], [], []⟩
     let d : Reels := { (powered id).dev.reels with slot1 := some r }
     newestReel d = some r ∧ brokenReel d = false) ∧
    (let d : Reels := { (powered id).dev.reels with slot1 := some ⟨1, 5, 0, 0, none, [], [], [], []⟩ }
     brokenReel d = true ∧ newestReel d = none) ∧
    (let s := modSec (settled) fun x => { x with recovery := some 0 }
     s.dev.sec.recovery = some 0 ∧ s.dev.pair.linkUp = true) ∧
    (let s := modDev State.reset fun d => { d with failed := [(64, false)] }
     (s.dev.failed.any (·.1 == 64 / 32 * 32)) = true) ∧
    (State.reset.net.any (·.fwd) = false ∧ State.reset.dev.lost.any (·.fwd) = false) := by
  refine ⟨?_, ?_, by decide +kernel, by decide +kernel, by decide +kernel, by decide +kernel⟩
  · rintro n (rfl | rfl) g (rfl | rfl) <;> decide +kernel
  · have h : (⟨1, 5, 0, 0, some (Config.shake256 64 []), [], [], [], []⟩ : ReelImage).valid = true := by simp [ReelImage.valid, ReelImage.bytes, cellBytes]
    have e : (powered id).dev.reels.slot0 = none := rfl
    simp only [newestReel, brokenReel, e, Option.filter, h, if_true, Bool.not_true, Bool.or_self, and_self]

/-- An image of class 0 with one byte behind its header (Table 18.3). -/
def image0 : List Byte := bytesOf 0x494F4D55 4 ++ List.replicate 12 0 ++ bytesOf 1 8 ++ List.replicate 489 0

/-- What the opaque functions must answer for an image to be accepted (R391). -/
theorem witness_accepted (h1 : Config.shake256 32 (imgBytes image0 0x180 57) = Config.makerKeyDigest)
    (h2 : Config.ed448Verify (imgBytes image0 0x180 57) (imgBytes image0 0x80 114) (imgBytes image0 0 0x80) = true)
    (h3 : Config.ed448Verify (imgBytes image0 0x1C0 57) (imgBytes image0 0x100 114) (imgBytes image0 0 0x80) = true)
    (h4 : Config.shake256 64 (image0.drop 512) = imgBytes image0 0x40 64) :
    accepted { Device.reset.sec with owners := [(Config.shake256 32 (imgBytes image0 0x1C0 57), false)] } image0 = true ∧ imgNat image0 4 1 = 0 := by
  have hf : imageFormed image0 = true := by decide +kernel
  refine ⟨?_, by decide +kernel⟩
  simp [accepted, hf, h1, h2, h3, h4, liveSlot, List.zipIdx, show imgNat image0 4 1 = 0 by decide +kernel]

/-- A firmware core with an entry in its mailbox, at the watchdog's limit; and one with entries that wait for room (R386 to R389). -/
theorem witness_mailboxes :
    (let m : Mail := ⟨1, 2, 3, 4⟩
     let s := modDev { State.reset with fws := State.reset.fws.set 7 ⟨[m], [], Vector.replicate 4 0, false, true, false, 10000000, []⟩ } id
     (s.fws[(7 : Fin 8)]).failed = false ∧ (s.fws[(7 : Fin 8)]).mailbox ≠ [] ∧ 10000000 ≤ (s.fws[(7 : Fin 8)]).idle ∧ (s.fws[(7 : Fin 8)]).held = [] ∧
      (mailGo s 0 7).isSome = true) ∧
    (let m : Mail := ⟨1, 2, 3, 4⟩
     let s := { State.reset with fws := State.reset.fws.set 7 ⟨List.replicate 63 m, [m], Vector.replicate 4 0, false, true, false, 0, []⟩ }
     (s.fws[(7 : Fin 8)]).held = m :: [] ∧ (s.fws[(7 : Fin 8)]).mailbox.length < 64) ∧
    64 ≤ (({ State.reset with fws := State.reset.fws.set 7 ⟨List.replicate 64 ⟨1, 2, 3, 4⟩, [], Vector.replicate 4 0, false, true, false, 0, []⟩ } : State).fws[(7 : Fin 8)]).mailbox.length := by
  decide +kernel

/-- The general statements: the invariant holds of reset, whose memory is well-formed; a fixed turn fetches the bundle that stands at the program counter. -/
theorem witness_inv : State.Inv State.reset ∧ Memory.wf State.reset.mem = true := by
  unfold State.Inv
  decide

/-- Where a step fetches: the state that `step` gives to `fetch`. -/
noncomputable def fetching (s : State) : State :=
  { s with turn := none, cur := slot0, latch := none }
/-- What a fetch gives, and what holds of it. -/
noncomputable def fetchesB (s : State) (p : State → Nat → Bool) : Bool := match fetch (fetching s) with
  | .ok (t, v) => p t v
  | .error _ => false
theorem fetches_of {s : State} {p : State → Nat → Bool} (h : fetchesB s p = true) : ∃ t v, fetch (fetching s) = .ok (t, v) ∧ p t v = true := by
  unfold fetchesB at h
  split at h
  · next t v he => exact ⟨t, v, he, h⟩
  · cases h
/-- What the decoder reads from a fetched bundle. -/
noncomputable def readAs (l : List Instr) (t : State) (v : Nat) : Bool := match decodeBundle ((curCtx t).st 9) (v % 2 ^ 32) (v / 2 ^ 32) with
  | .one (.ok i) => l == [i]
  | .two (.ok c) (.ok a) => l == [c, a] && wordFault (form c) t == none && wordFault (form a) t == none && !captureFaults t (v / 2 ^ 32) (.ok a) && !clash (curCtx t) c a
  | _ => false

/-- A 64-bit instruction, a C word with ANOP, and an A word with NOP that a step fetches and decodes (R28, Table 2.2). -/
theorem witness_step :
    (∃ t v, fetch (fetching (State.reset.withFetchWord 64 (0xA671B000 + 0x00010000 * 2 ^ 32))) = .ok (t, v) ∧ readAs [.lddLong 7 3 0x10000#32] t v = true) ∧
    (∃ t v, fetch (fetching (State.reset.withFetchWord 32 0x0452FFFF)) = .ok (t, v) ∧ readAs [.addi 5 5 0x7FFF#15, .anop] t v = true) ∧
    (∃ t v, fetch (fetching (State.reset.withFetchWord 32 0x52200440)) = .ok (t, v) ∧ readAs [.nop, .vfma 2 0 1 2] t v = true) ∧
    (State.reset.withFetchWord 32 0x0452FFFF).turn = some (.issue slot0) :=
  ⟨fetches_of (by decide +kernel), fetches_of (by decide +kernel), fetches_of (by decide +kernel), rfl⟩

/-- The memory that a fetch reads, past an instruction cache that has nothing (R27). -/
theorem witness_fetch : (match resolve (fetching (State.reset.withFetchWord 32 0x0452FFFF)) slot0.agent 1
      (curLevel (fetching (State.reset.withFetchWord 32 0x0452FFFF)) == 0) 0x400000 2 .fetch with
    | .ok (r, .phys pa _ _) => homeBusy r pa == false && failedIn r pa 8 == none && (curCore r).icache.find? (·.1 == pa) == none && pa == 0x14000
    | _ => false) = true ∧ 4096 ≤ (curCtx (fetching (State.reset.withFetchWord 32 0x0452FFFF))).pc ∧
    fetchBody (fetching (State.reset.withFetchWord 32 0x0452FFFF)) = none ∧
    (fetchBody { modFw State.reset 3 (fun f => { f with body := bytesOf 7 8 }) with cur := ⟨.fw 3, 0⟩ }) = some 7 := by decide +kernel

/-- A bundle of zeros at the program counter of a context that has a handler (R45). -/
theorem witness_zeroBundle : let s : State := { (lab fun c => { c with tvec := 0x500000 }).withFetchWord 32 0 with mem := fetchMem [] 0 0 }
    s.turn = some (.issue slot0) ∧ ∃ t v, fetch (fetching s) = .ok (t, v) ∧ (v == 0 && t.latch.isNone && (curCtx t).pc % 8 == 0 && decide ((curCtx t).pc < 2 ^ 48) &&
      (curCtx t).quiet && (curCtx t).frames.isEmpty && !(curCtx t).inTrap && (curCtx t).tvec != 0) = true :=
  ⟨rfl, fetches_of (by decide +kernel)⟩

/-- A step with nothing to choose from, and one with a single context that may issue. -/
theorem witness_choices : (State.reset.turn = none) ∧ choices State.reset = [] ∧ choices (lab fun c => { c with actLeft := 0xFFFFFFFF }) = [.issue slot0] := by decide +kernel

/-- Register instructions that commit, and stores into the own pool from a state that keeps the invariant. -/
theorem witness_keepTheRest : (∃ t, exec (.add 7 5 6) (lab (regs 1 2)) = .next t ∧ t.last = .committed ∧ registerMajor (form (.add 7 5 6)).major = true) ∧
    State.Inv (at5 ownEa) ∧ ((access4 (.st [7]) 0x1C000).op = .st [7] ∧ failedIn (at5 ownEa) (access4 (.st [7]) 0x1C000).addr 1 = none) := by
  refine ⟨?_, by unfold State.Inv; decide +kernel, by decide +kernel⟩
  obtain ⟨t, h, h', _⟩ := commits_of (i := .add 7 5 6) (s := lab (regs 1 2)) (p := fun _ => true) (by decide +kernel)
  exact ⟨t, h, h', by decide +kernel⟩

/-- An instruction of each of the three formats that the encoder writes. -/
theorem witness_encode : (Instr.add 7 5 6).wf = true ∧ (∃ w, encode (.add 7 5 6) = some (.c w)) ∧ (Instr.vfma 2 0 1 2).wf = true ∧ (∃ w, encode (.vfma 2 0 1 2) = some (.a w)) ∧
    (Instr.lddLong 7 3 0x10000#32).wf = true ∧ ∃ w e, encode (.lddLong 7 3 0x10000#32) = some (.x w e) :=
  ⟨by decide, ⟨_, rfl⟩, by decide, ⟨_, rfl⟩, by decide, ⟨_, _, rfl⟩⟩

end Sys2Proof.Tests
end

section
/-! Memory as numbers (R1): the bytes of a number that is read or written, and the even-odd register pair. -/

namespace Sys2Proof.Proofs

open Sys2Proof.Machine Sys2Proof.Laws

/-! ### Reading a number -/

/-- A read of `j + k` bytes has the first `j` bytes below the next `k`. -/
theorem readN_add (m : List Host.Cell) (j k : Nat) : ∀ a : Nat, readN m a (j + k) = readN m a j + 256 ^ j * readN m (a + j) k := by
  induction j with
  | zero => intro a; simp [readN]
  | succ j ih =>
    intro a
    have hrest := ih (a + 1)
    rw [Nat.add_right_comm a 1 j] at hrest
    rw [Nat.add_right_comm, readN, readN, hrest, Nat.pow_succ', Nat.add_assoc a j 1]
    ring

/-- A read of `n` bytes is below 256 to the `n`. -/
theorem readN_lt (m : List Host.Cell) (n : Nat) : ∀ a : Nat, readN m a n < 256 ^ n := by
  induction n with
  | zero => intro a; exact Nat.one_pos
  | succ n ih =>
    intro a
    have hb := (readByte m a).isLt
    have hn := ih (a + 1)
    rw [readN, Nat.pow_succ]
    omega

/-- Digit `i` of a read number is the byte at the address plus `i`. -/
theorem readN_digit (m : List Host.Cell) {i n : Nat} (h : i < n) (a : Nat) :
    readN m a n / 256 ^ i % 256 = (readByte m (a + i)).toNat := by
  obtain ⟨k, rfl⟩ : ∃ k, n = i + (k + 1) := ⟨n - i - 1, by omega⟩
  have hb := (readByte m (a + i)).isLt
  rw [readN_add, Nat.add_mul_div_left _ _ (by positivity), Nat.div_eq_of_lt (readN_lt m i a), readN]
  omega

/-! ### Writing a number -/

@[simp] theorem length_bytesOf (n : Nat) : ∀ v : Nat, (bytesOf v n).length = n := by
  induction n with
  | zero => intro v; rfl
  | succ n ih => intro v; simp [bytesOf, ih]

/-- A number that is written reads back, as many of its digits as were written. -/
theorem readN_writeN (n : Nat) : ∀ {m : List Host.Cell} (a v : Nat), Memory.wf m = true → readN (writeN m a n v) a n = v % 256 ^ n := by
  induction n with
  | zero => intro m a v _; simp [readN, Nat.mod_one]
  | succ n ih =>
    intro m a v h
    have hw := wf_writeByte a (BitVec.ofNat 8 v) h
    have hfirst : readByte (writeN m a (n + 1) v) a = BitVec.ofNat 8 v :=
      (readByte_writeBytes_other _ hw (.inl (Nat.lt_succ_self a))).trans (wf_read_same h)
    have hrest : readN (writeN m a (n + 1) v) (a + 1) n = v / 256 % 256 ^ n := ih (a + 1) (v / 256) hw
    rw [readN, hfirst, hrest, Nat.pow_succ', Nat.mod_mul, BitVec.toNat_ofNat]

/-- The byte at the address plus `i` is digit `i` of the number written. -/
theorem readByte_writeN {m : List Host.Cell} {i n : Nat} (a v : Nat) (h : Memory.wf m = true) (hi : i < n) :
    (readByte (writeN m a n v) (a + i)).toNat = v / 256 ^ i % 256 := by
  obtain ⟨k, rfl⟩ : ∃ k, n = i + (k + 1) := ⟨n - i - 1, by omega⟩
  rw [← readN_digit _ hi, readN_writeN _ a v h, Nat.pow_add, Nat.mod_mul_right_div_self, Nat.pow_succ', Nat.mod_mul_right_mod]

/-- Every byte outside the range written is as it was. -/
theorem readByte_writeN_other {m : List Host.Cell} {a n v x : Nat} (h : Memory.wf m = true) (hx : x < a ∨ a + n ≤ x) :
    readByte (writeN m a n v) x = readByte m x :=
  readByte_writeBytes_other _ h (by rwa [length_bytesOf])

/-! ### Register pairs -/

/-- The registers of an even-odd pair differ, and the odd one is not g0. -/
theorem nextReg_of_even {r : GReg} (h : r.val % 2 = 0) : nextReg r ≠ r ∧ nextReg r ≠ 0 := by
  revert r; decide

/-- Without a latched half bundle a register reads as the issuing context holds it. -/
theorem rg_of_unlatched {s : State} {r : GReg} (hl : s.latch = none) (hr : r ≠ 0) : rg s r = (curCtx s).g[r] := by
  simp [rg, opCtx, hl, hr]

/-- A pair reads with bits [63:0] in its even register. -/
theorem rgPair_halves (s : State) (r : GReg) :
    rgPair s r % 2 ^ 64 = (rg s r).toNat ∧ rgPair s r / 2 ^ 64 = (rg s (nextReg r)).toNat := by
  have := (rg s r).isLt
  unfold rgPair
  omega

/-- Both registers of a pair after a write of the pair. -/
theorem rg_wgPair {s : State} {r : GReg} (v : Nat) (he : r.val % 2 = 0) (hr : r ≠ 0) (hl : s.latch = none) :
    rg (wgPair s r v) r = w64 v ∧ rg (wgPair s r v) (nextReg r) = w64 (v / 2 ^ 64) := by
  obtain ⟨hne, hn⟩ := nextReg_of_even he
  have hl' : (wgPair s r v).latch = none := hl
  rw [rg_of_unlatched hl' hr, rg_of_unlatched hl' hn, wgPair, curCtx_wg, curCtx_wg]
  exact ⟨(wg_other _ _ hne.symm).trans (wg_same _ _ hr), wg_same _ _ hn⟩

/-- Settles O59: the digits of a number that is read are the bytes of memory in rising order of address (`readN_digit`),
and those of one that is written become them (`readByte_writeN`). -/
theorem memoryIsLittleEndian : Obligations.MemoryIsLittleEndian := by
  intro m a n v hm
  have hword : readN m a 8 = readN m a 4 + 256 ^ 4 * readN m (a + 4) 4 := readN_add m 4 4 a
  have hlow := readN_lt m 4 a
  exact ⟨fun i hi => readN_digit m hi a, fun i hi => readByte_writeN a v hm hi, readN_writeN n a v hm,
    fun x hx => readByte_writeN_other hm hx, ⟨by omega, by omega⟩, fun s r _ => rgPair_halves s r,
    fun s r he hr hl => rg_wgPair v he hr hl⟩

end Sys2Proof.Proofs
end

section
/-! The state after cold reset (R5, R15, R104, R132, R392). -/

namespace Sys2Proof.Proofs

open Sys2Proof.Machine Sys2Proof.Laws

/-- Reading a list that gives one value to every key of a list of keys. -/
theorem aget_map_const {ι κ ν : Type} [DecidableEq κ] (d v : ν) (f : ι → κ) (k : κ) (l : List ι) :
    aget d k (l.map fun x => (f x, v)) = if ∃ x ∈ l, k = f x then v else d := by
  induction l with
  | nil => simp [aget]
  | cons x l ih => by_cases h : k = f x <;> simp [aget, h, ih]

/-- A context at reset: a firmware core's slot 0 is its own, and every other one is idle. -/
theorem getCtx_reset (k : CtxKey) :
    getCtx State.reset k = if ∃ n ∈ List.range 8, k = ⟨.fw n, 0⟩ then Ctx.fwReset else Ctx.idle :=
  aget_map_const ..

theorem getCtx_reset_tile (n k : Nat) : getCtx State.reset ⟨.tile n, k⟩ = Ctx.idle := by simp [getCtx_reset]

theorem getCtx_reset_fw (k : Fin 8) : getCtx State.reset ⟨.fw k.val, 0⟩ = Ctx.fwReset := by simp [getCtx_reset]

theorem fws_reset_started (k : Fin 8) : (State.reset.fws[k]).started = false := by simp [State.reset]

theorem inv_reset : State.Inv State.reset := ⟨reset_memory_wf, rfl, rfl⟩

/-- Settles O53: nothing is listed at reset but the firmware cores' contexts (`getCtx_reset`), and every other field is read
off `State.reset`. -/
theorem resetState : Obligations.ResetState := by
  refine ⟨inv_reset, fun a => ⟨rfl, rfl⟩, getCtx_reset_tile, ⟨rfl, rfl, rfl, rfl, rfl⟩,
    fun k => ⟨getCtx_reset_fw k, fws_reset_started k⟩, ⟨rfl, rfl⟩, rfl, rfl, rfl, ?time, ?domains, ?blocks⟩
  case time => exact ⟨rfl, rfl, rfl, rfl, rfl⟩
  case domains => exact ⟨rfl, rfl, rfl⟩
  case blocks => exact ⟨rfl, rfl, rfl, rfl, rfl, rfl, rfl, rfl⟩

end Sys2Proof.Proofs
end

section
/-! Time, takes and images (R2, R18, R315 to R318, R328, R331, R332): what disciplined time, its registers, the clapper and the
frames do. -/

namespace Sys2Proof.Proofs

open Sys2Proof.Machine Sys2Proof.Laws

/-- An event that answers the state `t` takes the machine to it. -/
theorem becomes_of_event {i : Instr} {s t : State} (h : exec i s = event t) : Becomes i s t := h

/-- The state that an event becomes may be said in other words. -/
theorem becomes_of_eq {i : Instr} {s t u : State} (h : Becomes i s t) (e : t = u) : Becomes i s u := e ▸ h

/-! ### Disciplined time -/

/-- What a move of disciplined time says: it does not run back, passes nothing that is due, and changes the time block
alone. -/
theorem timeTo_some {s t : State} {now : Nat} (h : timeTo s now = some t) :
    s.dev.time.dtime ≤ now ∧ (∀ cap, timeCap s = some cap → now ≤ cap) ∧
      t = modDev s fun d => { d with time := d.time.advance now } := by
  unfold timeTo at h
  dsimp only at h
  rw [Option.ite_none_left_eq_some] at h
  obtain ⟨hn, ht⟩ := h
  simp only [Bool.or_eq_true, decide_eq_true_eq, not_or, Nat.not_lt] at hn
  obtain ⟨hback, hpast⟩ := hn
  exact ⟨hback, fun cap hc => by simpa [hc] using hpast, (Option.some.inj ht).symm⟩

/-- A count is 0 after at least as many steps towards 0 as it is away from it. -/
theorem towardsZero_eq_zero {k : Nat} {x : Int} (h : x.natAbs ≤ k) : towardsZero k x = 0 := by
  unfold towardsZero
  split <;> omega

/-- The correction is over when disciplined time has moved on by what it still needs (R315). -/
theorem advance_ends_slew (t : TimeBlock) : (t.advance (t.dtime + (1000 * t.slewLeft.natAbs - t.slewAcc))).slewLeft = 0 := by
  refine towardsZero_eq_zero ((Nat.le_div_iff_mul_le (by decide)).mpr ?_)
  omega

/-- A move of disciplined time by what the correction still needs completes it (R315). -/
theorem becomes_slewComplete {s t : State}
    (h : timeTo s (s.dev.time.dtime + (1000 * s.dev.time.slewLeft.natAbs - s.dev.time.slewAcc)) = some t) :
    Becomes .slewComplete s t ∧ t.dev.time.slewLeft = 0 := by
  refine ⟨becomes_of_event ?_, ?_⟩
  · rw [exec_slewComplete, execSlewComplete, h]
  · obtain ⟨-, -, rfl⟩ := timeTo_some h
    exact advance_ends_slew s.dev.time

theorem becomes_servoStep {s : State} (v : BitVec 32) (h : fwWorks s 7 = true) : Becomes (.servoStep v) s (servoAdd s v) :=
  becomes_of_event (by rw [exec_servoStep, execServoStep, if_pos h])

theorem becomes_lockedChange {s : State} (b : Bool) (h : fwWorks s 7 = true) : Becomes (.lockedChange b) s (lockedSet s b) :=
  becomes_of_event (by rw [exec_lockedChange, execLockedChange, if_pos h])

@[simp] theorem record_time (s : State) (code core : Nat) (vals : List Nat) : (record s code core vals).dev.time = s.dev.time := rfl

@[simp] theorem raiseDev_dev (s : State) (k code : Nat) (tval : Word) : (raiseDev s k code tval).dev = s.dev := rfl

/-- A clock that is found locked locks without more. -/
theorem lockedSet_of_unlocked {s : State} (h : s.dev.time.locked = false) :
    lockedSet s true = modDev s fun d => { d with time := { d.time with locked := true } } := by
  simp [lockedSet, modDev, h]

/-- The loss of the lock is noted (R316, R422). -/
theorem lockedSet_lost {s : State} (h : s.dev.time.locked = true) :
    (lockedSet s false).dev.time.locked = false ∧ (lockedSet s false).dev.time.timeLost = true := by
  simp [lockedSet, modDev, h]

/-- A copy of DTIME that has come to differ has not run back, and nor has die 0's (R315). -/
theorem diverge_some {s u : State} {diff : Int} (h : diverge s diff = some u) :
    s.dev.time.dtime1 ≤ u.dev.time.dtime1 ∧ s.dev.time.dtime ≤ u.dev.time.dtime := by
  unfold diverge at h
  dsimp only at h
  split at h
  · next hle =>
    obtain rfl := Option.some.inj h
    exact ⟨hle, le_rfl⟩
  · obtain ⟨t, ht, rfl⟩ := Option.map_eq_some_iff.mp h
    obtain ⟨hle, -, rfl⟩ := timeTo_some ht
    exact ⟨le_rfl, hle⟩

/-- A difference of more than 2 ns is recorded and raised with cause 0x39 (R315). -/
theorem becomes_dtimeDivergence {s u : State} {diff : BitVec 32} (hd : diff.toInt < -2 ∨ 2 < diff.toInt)
    (h : diverge s diff.toInt = some u) :
    Becomes (.dtimeDivergence diff) s (raiseDev (record u 0x39 0 [(w64 (2 + diff.toNat * 2 ^ 32)).toNat]) (logCore u) 0x39
      (w64 (2 + diff.toNat * 2 ^ 32))) :=
  becomes_of_event (by rw [exec_dtimeDivergence, execDtimeDivergence, if_pos hd, h])

/-! ### Registers of the time block -/

@[simp] theorem readTime_period (s : State) : (readTime s).2.dev.time.period = s.dev.time.period := rfl
@[simp] theorem readTime_run (s : State) : (readTime s).2.dev.time.run = s.dev.time.run := rfl
@[simp] theorem readTime_phase (s : State) : (readTime s).2.dev.time.phase = s.dev.time.phase := rfl
@[simp] theorem readTime_guardNs (s : State) : (readTime s).2.dev.time.guardNs = s.dev.time.guardNs := rfl
@[simp] theorem readTime_err (s : State) : (readTime s).2.dev.time.err = s.dev.time.err := rfl

/-- A PHASE that is not below PERIOD sets ERR and nothing else of TIMECTL (R316). -/
theorem timectlSet_refused {s : State} {v : Word} (h : s.dev.time.period ≤ v.toNat % 2 ^ 32) :
    (timectlSet s v).dev.time.err = true ∧ (timectlSet s v).dev.time.run = s.dev.time.run ∧
      (timectlSet s v).dev.time.phase = s.dev.time.phase ∧ (timectlSet s v).dev.time.guardNs = s.dev.time.guardNs := by
  simp only [timectlSet, modDev, readTime_period, h, if_true, readTime_run, readTime_phase, readTime_guardNs, and_self]

/-- While clappers do not go, a PHASE below PERIOD is taken with the other fields (R316). -/
theorem timectlSet_taken {s : State} {v : Word} (h : v.toNat % 2 ^ 32 < s.dev.time.period) (hr : s.dev.time.run = false) :
    (timectlSet s v).dev.time.phase = v.toNat % 2 ^ 32 ∧ (timectlSet s v).dev.time.guardNs = Nat.max 400 (bits v.toNat 58 48) ∧
      (timectlSet s v).dev.time.run = bit v.toNat 62 ∧ (timectlSet s v).dev.time.expen = bit v.toNat 63 ∧
      (timectlSet s v).dev.time.err = s.dev.time.err := by
  simp only [timectlSet, modDev, readTime_period, Nat.not_le.mpr h, if_false, readTime_run, hr, Bool.false_and,
    Bool.false_eq_true, readTime_err, and_self]

/-- A TAKECFG within its bounds is taken while clappers do not go (R316). -/
theorem takecfgSet_taken {s : State} {v : Word} (hr : s.dev.time.run = false) (hmin : 10000 ≤ v.toNat % 2 ^ 32)
    (hmax : v.toNat % 2 ^ 32 ≤ 100000000) (he : bits v.toNat 63 32 < v.toNat % 2 ^ 32) (hp : s.dev.time.phase < v.toNat % 2 ^ 32) :
    takecfgSet s v = modDev s fun d => { d with time := { d.time with period := v.toNat % 2 ^ 32, egress := bits v.toNat 63 32 } } := by
  simp only [takecfgSet, modDev, hr, Nat.not_lt.mpr hmin, Nat.not_lt.mpr hmax, Nat.not_le.mpr he, Nat.not_le.mpr hp,
    decide_false, Bool.or_self, Bool.false_eq_true, if_false]

theorem takecfgSet_running {s : State} (v : Word) (hr : s.dev.time.run = true) :
    takecfgSet s v = modDev s fun d => { d with time := { d.time with err := true } } := by
  simp [takecfgSet, modDev, hr]

theorem epochSet_held {s : State} (v : Word) (hr : s.dev.time.run = false) (he : s.dev.time.expen = false) : epochSet s v = s := by
  simp [epochSet, modDev, hr, he]

theorem epochSet_taken {s : State} (v : Word) (hr : s.dev.time.run = false) (he : s.dev.time.expen = true) :
    epochSet s v = modDev s fun d => { d with time := { d.time with epoch := v, epochNow := v.toNat } } := by
  simp [epochSet, modDev, hr, he]

theorem epochSet_running {s : State} (v : Word) (hr : s.dev.time.run = true) :
    epochSet s v = modDev s fun d => { d with time := { d.time with err := true } } := by
  simp [epochSet, modDev, hr]

/-- Maps that are loaded await the clapper (R331). -/
theorem mapswSet_loaded {s : State} (hl : s.dev.image.loaded.isSome = true) (he : s.dev.image.expen = false) :
    mapswSet s = modDev s fun d => { d with image := { d.image with mapPend := true } } := by
  simp [mapswSet, modDev, hl, he]

/-! ### The clapper and the images -/

/-- The next clapper fires within 4 ns of its time, where no egress swap is still to come (R317, R332). -/
theorem becomes_clapper {s t : State} {dtime : Word} (hr : s.dev.time.run = true) (hs : swapPending s = false)
    (ht : timeTo s dtime.toNat = some t) (hlo : s.dev.time.due s.dev.time.first ≤ dtime.toNat + 4)
    (hhi : dtime.toNat ≤ s.dev.time.due s.dev.time.first + 4) : Becomes (.clapper dtime) s (clapper s dtime.toNat) :=
  becomes_of_event (by simp [exec_clapper, execClapper, ht, hr, hs, hlo, hhi])

/-- While power fails a clapper sets what every clapper sets and no more (R384). -/
theorem clapper_failing {s : State} (now : Nat) (h : s.dev.power.failing ≠ 0) : clapper s now = setTake s s.dev.time.first now := by
  simp [clapper, h]

/-- The egress swap is due once in a take (R332). -/
theorem becomes_egressSwap {s t : State} {dtime : Word} (hs : swapPending s = true)
    (hd : s.dev.time.due s.dev.time.takeno + s.dev.time.egress ≤ dtime.toNat) (ht : timeTo s dtime.toNat = some t) :
    Becomes (.egressSwap dtime) s (egressSwap t) :=
  becomes_of_event (by simp [exec_egressSwap, execEgressSwap, hs, hd, ht])

/-- A frame's time is one from now on at which a window of its class is open (R331). -/
theorem sendTime_some {s : State} {f : FrameDesc} {n : Nat} (h : sendTime s f = some n) :
    windowOpen s f n = true ∧ s.dev.time.dtime ≤ n := by
  have hmem := List.mem_of_find?_eq_some h
  refine ⟨List.find?_some h, ?_⟩
  rcases List.mem_cons.mp hmem with rfl | hl
  · exact le_rfl
  · exact Nat.le_of_lt (of_decide_eq_true (List.mem_filter.mp hl).2)

/-- A frame that some valid entry fills leaves once in a take, while the package drives its outputs (R331). -/
theorem becomes_frameTransmit {s t : State} {i n : Nat} {f : FrameDesc} (hf : s.dev.image.egMaps.descs[i]? = some f)
    (hfired : s.dev.time.fired = true) (hdrives : drives s = true) (hsent : i ∉ s.dev.image.sent)
    (hmap : (s.dev.image.egMaps.outMap.any fun m => m.valid && m.stream == i) = true) (hn : sendTime s f = some n)
    (ht : timeTo s n = some t) :
    Becomes (.frameTransmit i) s (modDev { t with fresh := t.fresh + f.len } fun d => { d with image := { d.image with
      sent := i :: d.image.sent, wire := (f.header ++ buildPayload t i f.len) :: d.image.wire } }) := by
  have hgo : (s.dev.time.fired && drives s && !s.dev.image.sent.contains i
      && s.dev.image.egMaps.outMap.any fun m => m.valid && m.stream == i) = true := by
    simp [hfired, hdrives, hsent, hmap]
  refine becomes_of_event ?_
  simp only [exec_frameTransmit, execFrameTransmit, hf, hgo, hn, Option.bind_some, ht, if_true]

/-! ### Frames that arrive -/

/-- A frame that comes early enough is taken at the time of its end (R18, R328). -/
theorem becomes_frameIngress {s t : State} {f : Frame} (hl : tooLate s.dev.time f = false)
    (ht : timeTo s (Nat.max s.dev.time.dtime f.endNs) = some t) : Becomes (.frameIngress f) s (frameIngress t f) :=
  becomes_of_event (by simp [exec_frameIngress, execFrameIngress, hl, ht])

/-- A good frame of a stream that nothing drops is accepted (R328). -/
theorem frameIngress_accepted {s : State} {f : Frame} {n : Nat} (hc : f.fcsOk = true) (hd : f.duplicate = false)
    (hs : f.stream = some n) (h : dropOf s f n = none) : frameIngress s f = acceptFrame s f := by
  simp [frameIngress, hc, hd, hs, h]

/-- A good frame of a stream that a filter drops is counted and reported (R328). -/
theorem frameIngress_dropped {s : State} {f : Frame} {n filter kind : Nat} (hc : f.fcsOk = true) (hd : f.duplicate = false)
    (hs : f.stream = some n) (h : dropOf s f n = some (filter, kind)) :
    frameIngress s f = noteDrop s filter (gateTval n filter f.port kind 0) := by
  simp [frameIngress, hc, hd, hs, h]

/-- A good frame of no stream goes to FW7 (R328). -/
theorem frameIngress_unmatched {s : State} {f : Frame} (hc : f.fcsOk = true) (hd : f.duplicate = false) (hs : f.stream = none) :
    frameIngress s f = toFw7 s := by
  simp [frameIngress, hc, hd, hs]

/-- A frame in time for the take that the coming clapper begins is written (R18). -/
theorem acceptFrame_inTime {s : State} {f : Frame}
    (h : s.dev.time.run = false ∨ f.endNs + s.dev.time.guardNs < s.dev.time.due s.dev.time.first) :
    acceptFrame s f = takeFrame s f := by
  have hin : inTime s.dev.time f = true := by simpa [inTime] using h
  rw [acceptFrame, if_pos hin]

/-- A frame that is not in time is kept for the take after (R18). -/
theorem acceptFrame_late {s : State} {f : Frame} (hr : s.dev.time.run = true)
    (h : s.dev.time.due s.dev.time.first ≤ f.endNs + s.dev.time.guardNs) :
    acceptFrame s f = modDev s fun d => { d with image := { d.image with late := d.image.late ++ [f] } } := by
  have hin : inTime s.dev.time f = false := by simpa [inTime, hr] using h
  simp [acceptFrame, hin]

/-! ### The call sheet -/

/-- A periodic entry that is due fires in its turn, while FW2 works (R15, R327). -/
theorem becomes_callSheetEntryFire {s t : State} {i : Nat} {e : SheetEntry} (he : s.dev.sheet.active[i]? = some e)
    (hw : fwWorks s 2 = true) (ha : e.abs = false) (hd : entryDue s.dev.time e = true) (hf : entryFirst s i e = true)
    (ht : timeTo s (Nat.max s.dev.time.dtime (entryTime s.dev.time e)) = some t) :
    Becomes (.callSheetEntryFire i) s (fireEntry t i e (Nat.max s.dev.time.dtime (entryTime s.dev.time e))) :=
  becomes_of_event (by simp [exec_callSheetEntryFire, execCallSheetEntryFire, he, ht, hw, ha, hd, hf])

/-- A one-shot entry fires at its time, while FW2 works (R15, R327). -/
theorem becomes_oneShotFire {s t : State} {i : Nat} {dtime : Word} {e : SheetEntry} (he : s.dev.sheet.active[i]? = some e)
    (ht : timeTo s dtime.toNat = some t) (hw : fwWorks s 2 = true) (hv : e.valid = true) (ha : e.abs = true)
    (hf : entryFirst s i e = true) (hn : e.word 1 ≤ dtime.toNat) :
    Becomes (.oneShotFire i dtime) s (fireEntry t i e dtime.toNat) :=
  becomes_of_event (by simp [exec_oneShotFire, execOneShotFire, he, ht, hw, hv, ha, hf, hn])

end Sys2Proof.Proofs
end

section
/-! The control cores' ports and queues (R334 to R336), and the statement that takes them with the events of a take. -/

namespace Sys2Proof.Proofs

open Sys2Proof.Machine Sys2Proof.Laws

/-! ### The message port -/

/-- A store to a port whose send entry is free is not stalled (R336). -/
theorem becomes_messagePortSend {s : State} {c : Fin 8} (v : Word) (h : (s.dev.ctrl[c]).busy = false) :
    Becomes (.messagePortSend c v) s (portSend s c v.toNat) :=
  becomes_of_event (by rw [exec_messagePortSend, execMessagePortSend, h]; rfl)

/-- More than eight words are refused with ERR 4 (Table 14.20). -/
theorem portSend_long (s : State) (c : Fin 8) {v : Nat} (h : 8 < bits v 35 32) :
    portSend s c v = modCtrl s c fun x => { x with err := 4 } := by
  simp [portSend, h]

/-- A reserved type is refused with ERR 5. -/
theorem portSend_reserved (s : State) (c : Fin 8) {v : Nat} (hl : bits v 35 32 ≤ 8) (h : 0xFFFE ≤ bits v 31 16) :
    portSend s c v = modCtrl s c fun x => { x with err := 5 } := by
  simp [portSend, Nat.not_lt.mpr hl, h]

/-- A number of no core is refused with ERR 2. -/
theorem portSend_nowhere (s : State) (c : Fin 8) {v : Nat} (hl : bits v 35 32 ≤ 8) (ht : bits v 31 16 < 0xFFFE)
    (h : v % 2 ^ 11 % 4 = 3) : portSend s c v = modCtrl s c fun x => { x with err := 2 } := by
  simp only [portSend, Nat.not_lt.mpr hl, Nat.not_le.mpr ht, h, if_false, if_true]

/-- Every other store to SEND sends its message. -/
theorem portSend_sent (s : State) (c : Fin 8) {v : Nat} (hl : bits v 35 32 ≤ 8) (ht : bits v 31 16 < 0xFFFE)
    (h : v % 2 ^ 11 % 4 ≠ 3) :
    portSend s c v = sendPkt (modCtrl s c fun x => { x with busy := true }) (.ctrl c.val) (.core (v % 2 ^ 11)) 0
      (.message ⟨BitVec.ofNat 16 (bits v 31 16), BitVec.ofNat 16 (bits v 31 16), portSlate s c, 0,
        (s.dev.ctrl[c]).data.toList.take (bits v 35 32), .ctrl c.val, none, none⟩ none none) := by
  simp only [portSend, Nat.not_lt.mpr hl, Nat.not_le.mpr ht, h, if_false]

/-! ### Result queues -/

/-- A change of a control core's part is what a read of that part finds. -/
@[simp] theorem modCtrl_ctrl_same (s : State) (c : Fin 8) (f : CtrlCore → CtrlCore) :
    (modCtrl s c f).dev.ctrl[c] = f s.dev.ctrl[c] := by
  simp [modCtrl, modDev]

/-- A head entry that is not stale stays. -/
theorem dropStale_fresh {s : State} {maxage : Nat} {e : Word × Word} {l : List (Word × Word)}
    (h : e.2 = 0 ∨ maxage = 255 ∨ slateAge s e.2 ≤ maxage) : dropStale s maxage (e :: l) = (e :: l, 0) := by
  have hs : (e.2 != 0 && maxage != 255 && decide (maxage < slateAge s e.2)) = false := by
    rcases h with h | h | h <;> simp [h]
  rw [dropStale, hs]
  rfl

/-- A result queue whose head is fresh stays as it is. -/
theorem freshen_results {s : State} {c : Fin 8} {q : Fin 4} {e : Word × Word} {l : List (Word × Word)}
    (hq : (s.dev.ctrl[c]).results[q] = e :: l)
    (h : e.2 = 0 ∨ (s.dev.ctrl[c]).maxage[q] = 255 ∨ slateAge s e.2 ≤ (s.dev.ctrl[c]).maxage[q]) :
    ((freshen s c q).dev.ctrl[c]).results[q] = e :: l := by
  simp only [freshen, modCtrl_ctrl_same, hq, dropStale_fresh h]
  simp

/-- A load of POPS gives the slate of a fresh head, which stays and counts as tested (R336). -/
theorem popsGet_fresh {s : State} {c : Fin 8} {q : Fin 4} {v slate : Word} {l : List (Word × Word)}
    (hq : (s.dev.ctrl[c]).results[q] = (v, slate) :: l)
    (h : slate = 0 ∨ (s.dev.ctrl[c]).maxage[q] = 255 ∨ slateAge s slate ≤ (s.dev.ctrl[c]).maxage[q]) :
    (popsGet s c q).1 = slate ∧ ((popsGet s c q).2.dev.ctrl[c]).results[q] = (v, slate) :: l ∧
      ((popsGet s c q).2.dev.ctrl[c]).tested[q] = true := by
  have hf := freshen_results hq h
  simp only [popsGet, modCtrl_ctrl_same, hf]
  simp

/-- A load of POPV takes the value of a tested head, which leaves (R336). -/
theorem popvGet_tested {s : State} {c : Fin 8} {q : Fin 4} {v slate : Word} {l : List (Word × Word)}
    (ht : (s.dev.ctrl[c]).tested[q] = true) (hq : (s.dev.ctrl[c]).results[q] = (v, slate) :: l) :
    (popvGet s c q).1 = v ∧ ((popvGet s c q).2.dev.ctrl[c]).results[q] = l ∧
      ((popvGet s c q).2.dev.ctrl[c]).tested[q] = false := by
  simp only [popvGet, ht, if_true, hq, modCtrl_ctrl_same]
  simp

theorem becomes_resultQueueAppend {s t : State} {c : Fin 8} {q : Fin 4} {v slate : Word}
    (h : appendResult s (4 * c.val + q.val) v slate = some t) : Becomes (.resultQueueAppend c q v slate) s t :=
  becomes_of_event (by rw [exec_resultQueueAppend, execResultQueueAppend, h]; rfl)

/-! ### The statement -/

/-- Settles O46: each clause is the rule of its event above, or the event's own definition where that has no condition. -/
theorem takeEventsAnswer : Obligations.TakeEventsAnswer := by
  refine ⟨fun s v h => becomes_servoStep v h, fun s t h => becomes_slewComplete h, fun s t now h => timeTo_some h, fun s => rfl,
    ?locked, ?timectl, ?takecfg, ?epoch, ?divergence, ?mapsw, fun s => ⟨rfl, rfl⟩, fun s => rfl,
    fun s t dtime hr hs ht hlo hhi => becomes_clapper hr hs ht hlo hhi, fun s now h => clapper_failing now h,
    ?egress, ?transmit, ?stream, ?unmatched, fun s f => ⟨acceptFrame_inTime, acceptFrame_late⟩,
    fun s t i e he hw ha hd hf ht => becomes_callSheetEntryFire he hw ha hd hf ht,
    fun s t i dtime e he ht hw hv ha hf hn => becomes_oneShotFire he ht hw hv ha hf hn,
    fun s c => rfl, fun s c => rfl, fun s c => rfl, ?send, fun s c => rfl, ?popv, ?pops,
    fun s t c q v slate h => becomes_resultQueueAppend h⟩
  case locked =>
    intro s hw
    exact ⟨fun h => becomes_of_eq (becomes_lockedChange true hw) (lockedSet_of_unlocked h),
      fun h => ⟨_, becomes_lockedChange false hw, lockedSet_lost h⟩⟩
  case timectl => exact fun s v => ⟨rfl, timectlSet_refused, timectlSet_taken⟩
  case takecfg =>
    exact fun s v => ⟨fun hr hmin hmax he hp => becomes_of_eq (becomes_of_event rfl) (takecfgSet_taken hr hmin hmax he hp),
      fun hr => becomes_of_eq (becomes_of_event rfl) (takecfgSet_running v hr)⟩
  case epoch =>
    intro s v
    have hset : Becomes (.epochWrite v) s (epochSet s v) := rfl
    exact ⟨fun hr he => becomes_of_eq hset (epochSet_held v hr he), fun hr he => becomes_of_eq hset (epochSet_taken v hr he),
      fun hr => becomes_of_eq hset (epochSet_running v hr)⟩
  case divergence => exact fun s u diff hd h => ⟨becomes_dtimeDivergence hd h, diverge_some h⟩
  case mapsw => exact fun s hl he => becomes_of_eq (becomes_of_event rfl) (mapswSet_loaded hl he)
  case egress =>
    intro s t dtime hr hf he hp hd ht
    exact becomes_egressSwap (by simp [swapPending, hr, hf, he, hp]) hd ht
  case transmit =>
    intro s t i n f hf hfired hdrives hsent hmap hn ht
    exact ⟨becomes_frameTransmit hf hfired hdrives hsent hmap hn ht, sendTime_some hn⟩
  case stream =>
    intro s t f n hc hd hs hl ht
    have hin := becomes_frameIngress hl ht
    exact ⟨fun h => becomes_of_eq hin (frameIngress_accepted hc hd hs h),
      fun filter kind h => becomes_of_eq hin (frameIngress_dropped hc hd hs h)⟩
  case unmatched =>
    exact fun s t f hc hd hs hl ht => becomes_of_eq (becomes_frameIngress hl ht) (frameIngress_unmatched hc hd hs)
  case send =>
    intro s c v hb
    have hsend := becomes_messagePortSend v hb
    exact ⟨fun h => becomes_of_eq hsend (portSend_long s c h),
      fun hl h => becomes_of_eq hsend (portSend_reserved s c hl h),
      fun hl ht h => becomes_of_eq hsend (portSend_nowhere s c hl ht h),
      fun hl ht h => becomes_of_eq hsend (portSend_sent s c hl ht h)⟩
  case popv =>
    intro s c q v slate l ht hq
    exact ⟨_, becomes_of_event rfl, popvGet_tested ht hq⟩
  case pops =>
    intro s c q v slate l hq h
    exact ⟨_, becomes_of_event rfl, popsGet_fresh hq h⟩

end Sys2Proof.Proofs
end

section
/-! The pair (R23, R24, R358 to R364): pairing, mirrored writes and their markers, digests, heartbeats and the switchover, and the
statement that takes them together. -/

namespace Sys2Proof.Proofs

open Sys2Proof.Machine Sys2Proof.Laws

/-! ### The pair block and what leaves it as it is -/

@[simp] theorem modPair_pair (s : State) (f : PairBlock → PairBlock) : (modPair s f).dev.pair = f s.dev.pair := rfl
@[simp] theorem fwWorks_modPair (s : State) (f : PairBlock → PairBlock) (n : Nat) : fwWorks (modPair s f) n = fwWorks s n := rfl

@[simp] theorem linkFault_pair (s : State) (vals : List Nat) : (linkFault s vals).dev.pair = s.dev.pair := rfl
@[simp] theorem holdAll_dev (s : State) (who : Nat) : (holdAll s who).dev = s.dev := rfl

/-- A measurement is of FW0 and leaves the pair as it is (R395). -/
@[simp] theorem measure_pair (s : State) (k : Fin 16) (item : List Byte) : (Machine.measure s k item).dev.pair = s.dev.pair := by
  unfold Machine.measure
  split <;> rfl

/-- A move of disciplined time leaves the pair as it is. -/
theorem timeTo_pair {s t : State} {now : Nat} (h : timeTo s now = some t) : t.dev.pair = s.dev.pair := by
  obtain ⟨-, -, rfl⟩ := timeTo_some h
  rfl

/-! ### Pairing -/

/-- The state in which the link has trained, or has failed to (R358, R364). -/
def withLink (s : State) (up : Bool) : State := modPair s fun p => { p with linkUp := up }

theorem becomes_pairForm (s : State) (v : PartnerView) : Becomes (.pairForm v) s (pairForm s v) := becomes_of_event rfl

/-- A pairing without a REASON is one whose five conditions hold (R358, Table 16.3). -/
theorem pairReason_eq_zero {s : State} {v : PartnerView} (h : pairReason s v = 0) :
    v.linkUp = true ∧ v.role ≠ s.dev.pair.role ∧ v.epoch.toNat = s.dev.time.epochNow ∧ v.period = s.dev.time.period ∧
      v.egress = s.dev.time.egress ∧ v.guard = s.dev.time.guardNs ∧ v.configDigest = configDigest s ∧ 1500 ≤ s.dev.time.guardNs := by
  simp only [pairReason] at h
  split_ifs at h with hlink hrole htime hconfig hguard
  simp only [not_or, ne_eq, not_not] at htime hconfig
  obtain ⟨hepoch, hperiod, hegress, hguardNs⟩ := htime
  exact ⟨by simpa using hlink, by simpa using hrole, hepoch, hperiod, hegress, hguardNs, hconfig, Nat.not_lt.mp hguard⟩

/-- The link trains, and no more, where the package is paired, or ENABLE is 0, or FW6 has failed (R15, R358). -/
theorem pairForm_kept {s : State} (v : PartnerView)
    (h : s.dev.pair.paired = true ∨ s.dev.pair.enable = false ∨ fwWorks s 6 = false) : pairForm s v = withLink s v.linkUp := by
  have hkeep : (s.dev.pair.paired || !(s.dev.pair.enable && fwWorks s 6)) = true := by simpa using h
  simp only [pairForm, fwWorks_modPair, hkeep, if_true, withLink]

section
variable {s : State} {v : PartnerView} (hp : s.dev.pair.paired = false) (he : s.dev.pair.enable = true) (hw : fwWorks s 6 = true)
include hp he hw

/-- A package that may not pair shows why (R358). -/
theorem pairForm_refused (hr : pairReason (withLink s v.linkUp) v ≠ 0) :
    pairForm s v = modPair (withLink s v.linkUp) fun p => { p with reason := pairReason (withLink s v.linkUp) v } := by
  have hgo : (s.dev.pair.paired || !(s.dev.pair.enable && fwWorks s 6)) = false := by simp [hp, he, hw]
  simp only [withLink] at hr ⊢
  simp only [pairForm, fwWorks_modPair, hgo, hr, Bool.false_eq_true, if_false, ne_eq, not_false_eq_true, if_true]

/-- A package whose five conditions hold pairs in its role, and drives as member 0 that does not rejoin (R358, R383). -/
theorem pairForm_paired (hr : pairReason (withLink s v.linkUp) v = 0) :
    (pairForm s v).dev.pair.paired = true ∧ (pairForm s v).dev.pair.member = s.dev.pair.role ∧
      (pairForm s v).dev.pair.driving = (!s.dev.pair.role && !s.dev.pair.rejoin) ∧ (pairForm s v).dev.pair.misses = 0 ∧
      (pairForm s v).dev.pair.reason = 0 := by
  have hgo : (s.dev.pair.paired || !(s.dev.pair.enable && fwWorks s 6)) = false := by simp [hp, he, hw]
  simp only [withLink] at hr
  simp only [pairForm, fwWorks_modPair, hgo, hr, Bool.false_eq_true, if_false, ne_eq, not_true_eq_false, measure_pair,
    modPair_pair, and_self]

end

/-! ### Mirrored writes and markers -/

section
variable {s : State} {entry : Nat} {data : List Byte} {seqNo : BitVec 16} (hp : s.dev.pair.paired = true)
  (hl : s.dev.pair.linkUp = true) (hm : s.dev.pair.mirroring = true)
include hp hl hm

/-- A mirrored write that follows the marker of the coming take belongs to the take after (R359). -/
theorem becomes_mirrorWrite_late (h : s.dev.time.first ∈ s.dev.pair.markerGot) : Becomes (.mirrorWrite entry data seqNo) s
    (modPair s fun p => { p with mirrorLate := p.mirrorLate ++ [⟨entry, data, seqNo⟩] }) :=
  becomes_of_event (by simp [exec_mirrorWrite, execMirrorWrite, hp, hl, hm, h, modPair])

/-- A mirrored write that comes before the marker of the coming take is taken (R359). -/
theorem becomes_mirrorWrite_taken (h : s.dev.time.first ∉ s.dev.pair.markerGot) :
    Becomes (.mirrorWrite entry data seqNo) s (takeMirrored s ⟨entry, data, seqNo⟩) :=
  becomes_of_event (by simp [exec_mirrorWrite, execMirrorWrite, hp, hl, hm, h])

end

/-- The marker of the coming take is due at its ingress guard, once (R359). -/
theorem markerDue_unsent {s : State} (hp : s.dev.pair.paired = true) (hr : s.dev.time.run = true)
    (hn : s.dev.time.first ∉ s.dev.pair.markerSent) : markerDue s = some (s.dev.time.due s.dev.time.first - s.dev.time.guardNs) := by
  simp [markerDue, hp, hr, hn]

theorem becomes_mirrorMarkerSend {s t : State} {due : Nat} (hd : markerDue s = some due)
    (ht : timeTo s (Nat.max s.dev.time.dtime due) = some t) : Becomes .mirrorMarkerSend s (modPair t fun p => { p with
      markerSent := s.dev.time.first :: p.markerSent.take 1
      mirroring := p.mirroring || p.markerGot.contains s.dev.time.first }) :=
  becomes_of_event (by simp only [exec_mirrorMarkerSend, execMirrorMarkerSend, hd, ht])

/-- A marker that comes before its clapper is noted, and mirroring resumes where the package's own is on its way (R359, R360). -/
theorem becomes_mirrorMarkerArrival {s : State} {take : Nat} (hp : s.dev.pair.paired = true) (hl : s.dev.pair.linkUp = true)
    (hn : take ∉ s.dev.pair.markerGot) (h : s.dev.time.fired = false ∨ s.dev.time.takeno < take) :
    Becomes (.mirrorMarkerArrival take) s (modPair s fun p => { p with
      markerGot := take :: p.markerGot.take 1, mirroring := p.mirroring || p.markerSent.contains take }) := by
  have hlate : (s.dev.time.fired && decide (take ≤ s.dev.time.takeno)) = false := by
    rcases h with h | h <;> simp [h]
  exact becomes_of_event (by simp [exec_mirrorMarkerArrival, execMirrorMarkerArrival, hp, hl, hn, hlate])

/-- A take whose marker is missing at its clapper is given up with cause 0x2E (R360). -/
theorem becomes_unreconciledTake {s : State} (h : unreconciled s = true) : Becomes .unreconciledTake s
    (linkFault (modPair s fun p => { p with unrec := true, mirroring := false, markerGot := s.dev.time.takeno :: p.markerGot.take 1 })
      [s.dev.time.takeno]) :=
  becomes_of_event (by simp only [exec_unreconciledTake, execUnreconciledTake, h, if_true])

/-! ### Digests -/

/-- The digest of the current take is sent after its egress, and kept while the partner's has not come (R361). -/
theorem becomes_takeDigestSend {s : State} (hp : s.dev.pair.paired = true) (hf : s.dev.time.fired = true)
    (he : s.dev.image.egressDone = true) (hw : fwWorks s 6 = true) (hn : s.dev.pair.digestSent ≠ some s.dev.time.takeno)
    (hq : (s.dev.pair.peerDigests.find? (·.1 == s.dev.time.takeno)) = none) : Becomes .takeDigestSend s (modPair s fun p => { p with
      digestSent := some s.dev.time.takeno, ownDigests := p.ownDigests ++ [(s.dev.time.takeno, takeDigest s)] }) := by
  have hgo : (s.dev.pair.paired && s.dev.time.fired && s.dev.image.egressDone && fwWorks s 6
      && !(s.dev.pair.digestSent == some s.dev.time.takeno)) = true := by simp [hp, hf, he, hw, hn]
  refine becomes_of_event ?_
  simp only [exec_takeDigestSend, execTakeDigestSend, hgo, if_true, hq]
  rfl

theorem mismatchAt_pair (s : State) (take : Nat) :
    (mismatchAt s take).dev.pair = { s.dev.pair with mismatch := true, mmtake := BitVec.ofNat 32 take } := rfl

/-- Two digests of a take that differ set MISMATCH and MMTAKE, and equal ones leave MISMATCH (R24). -/
theorem compareDigests_pair (s : State) (take : Nat) (own peer : Word) :
    (compareDigests s take own peer).dev.pair.mismatch = (s.dev.pair.mismatch || peer != own) ∧
      (peer ≠ own → (compareDigests s take own peer).dev.pair.mmtake = BitVec.ofNat 32 take) := by
  unfold compareDigests
  by_cases h : own = peer
  · simp [h]
  · simp [h, Ne.symm h, mismatchAt_pair]

/-- A digest that comes before the second clapper after its take is compared with the package's own (R24, R361). -/
theorem becomes_takeDigestArrival {s : State} {take : Nat} {digest own : Word} (hp : s.dev.pair.paired = true)
    (hl : s.dev.pair.linkUp = true) (ht : s.dev.time.takeno < take + 2)
    (ho : s.dev.pair.ownDigests.find? (·.1 == take) = some (take, own)) :
    Becomes (.takeDigestArrival take digest) s (compareDigests s take own digest) :=
  becomes_of_event (by simp [exec_takeDigestArrival, execTakeDigestArrival, hp, hl, ho, Nat.not_le.mpr ht])

/-- A take whose digest has not come two takes later counts as a mismatch (R361). -/
theorem becomes_digestTimeout {s : State} {take : Nat} (h : digestLate s = some take) : Becomes .digestTimeout s
    (mismatchAt (modPair s fun p => { p with ownDigests := p.ownDigests.filter (·.1 != take) }) take) :=
  becomes_of_event (by simp only [exec_digestTimeout, execDigestTimeout, h])

/-! ### Heartbeats and the switchover -/

theorem becomes_heartbeatSend {s t : State} {half due : Nat} (hb : beatDue s = some (half, due))
    (ht : timeTo s (Nat.max s.dev.time.dtime due) = some t) : Becomes .heartbeatSend s (modPair t fun p => { p with
      beats := ((takeNo t, p.driving, p.term) :: p.beats).take 4, lastBeat := some half }) :=
  becomes_of_event (by simp only [exec_heartbeatSend, execHeartbeatSend, hb, ht])

section
variable {s : State} (hp : s.dev.pair.paired = true) (hr : s.dev.time.run = true) (hf : s.dev.time.fired = true)
  (hw : fwWorks s 6 = true)
include hp hr hf hw

/-- The first heartbeat of a take is due at its clapper (R23). -/
theorem beatDue_first (h0 : s.dev.pair.lastBeat ≠ some (2 * s.dev.time.takeno))
    (h1 : s.dev.pair.lastBeat ≠ some (2 * s.dev.time.takeno + 1)) :
    beatDue s = some (2 * s.dev.time.takeno, s.dev.time.due s.dev.time.takeno) := by
  simp [beatDue, hp, hr, hf, hw, h0, h1]

/-- The second heartbeat of a take is due half a PERIOD after its clapper (R23). -/
theorem beatDue_second (h : s.dev.pair.lastBeat = some (2 * s.dev.time.takeno)) :
    beatDue s = some (2 * s.dev.time.takeno + 1, s.dev.time.due s.dev.time.takeno + s.dev.time.period / 2) := by
  simp [beatDue, hp, hr, hf, hw, h]

/-- The heartbeat of the half-take after the one judged last is missed HBTOL after its time (R362). -/
theorem missDue_next {j : Nat} (h : s.dev.pair.judged = some j) :
    missDue s = some (j + 1, s.dev.time.halfDue (j + 1) + s.dev.pair.hbtol) := by
  simp [missDue, hp, hr, hf, hw, h]

end

section
variable {s : State} (take : Nat) {driving : Bool} {term : BitVec 16} (hp : s.dev.pair.paired = true)
  (hl : s.dev.pair.linkUp = true)
include hp hl

/-- A driving package yields to a driving partner of a higher term (R363). -/
theorem becomes_heartbeatArrival_yields (hd : s.dev.pair.driving = true) (hpd : driving = true)
    (ht : s.dev.pair.term.toNat < term.toNat) : Becomes (.heartbeatArrival take driving term) s (modPair s fun p => { p with
      misses := 0, driving := false, term := term, judged := halfAt s.dev.time s.dev.time.dtime }) :=
  becomes_of_event (by simp [exec_heartbeatArrival, execHeartbeatArrival, hp, hl, hd, hpd, ht, modPair, modDev])

/-- Any other heartbeat resets MISSES and leaves DRIVING and TERM (R362, R363). -/
theorem becomes_heartbeatArrival_keeps (h : s.dev.pair.driving = false ∨ driving = false ∨ term.toNat ≤ s.dev.pair.term.toNat) :
    Becomes (.heartbeatArrival take driving term) s (modPair s fun p => { p with
      misses := 0, judged := halfAt s.dev.time s.dev.time.dtime }) := by
  have hkeep : (s.dev.pair.driving && driving && decide (s.dev.pair.term.toNat < term.toNat)) = false := by
    rcases h with h | h | h <;> simp [h]
  exact becomes_of_event (by simp [exec_heartbeatArrival, execHeartbeatArrival, hp, hl, hkeep, modPair, modDev])

end

theorem becomes_heartbeatMiss {s t : State} {half due : Nat} (hm : missDue s = some (half, due))
    (ht : timeTo s (Nat.max s.dev.time.dtime due) = some t) : Becomes .heartbeatMiss s (missBeat t half) :=
  becomes_of_event (by simp only [exec_heartbeatMiss, execHeartbeatMiss, hm, ht])

/-- The first missed heartbeat is counted and no more (R362). -/
theorem missBeat_first {s : State} (half : Nat) (h : s.dev.pair.misses = 0) :
    missBeat s half = modPair s fun p => { p with misses := 1, judged := some half } := by
  simp [missBeat, h, modPair, modDev]

/-- A silent package drives under a new term after the second missed heartbeat (R23, R363). -/
theorem missBeat_switchover {s : State} (half : Nat) (h : s.dev.pair.misses = 1) (hd : s.dev.pair.driving = false) :
    (missBeat s half).dev.pair.misses = 2 ∧ (missBeat s half).dev.pair.driving = true ∧
      (missBeat s half).dev.pair.term = s.dev.pair.term + 1 ∧ (missBeat s half).dev.pair.openAfter = some s.dev.time.dtime := by
  simp [missBeat, h, hd]

/-- A driving package goes on driving under its term, however many heartbeats it misses (R363). -/
theorem missBeat_driving {s : State} (half : Nat) (hd : s.dev.pair.driving = true) :
    (missBeat s half).dev.pair.driving = true ∧ (missBeat s half).dev.pair.term = s.dev.pair.term := by
  simp [missBeat, hd]

/-- The loss of the link is noted with cause 0x2E (R364). -/
theorem becomes_continuityLinkDown (s : State) :
    Becomes .continuityLinkDown s (linkFault (withLink s false) [takeNo (withLink s false)]) :=
  becomes_of_event rfl

/-! ### The statement -/

/-- Settles O47: each clause is the rule of its event above; a clause that names only parts of the pair block reads them from
the state that the rule gives. -/
theorem pairEventsAnswer : Obligations.PairEventsAnswer := by
  refine ⟨fun s mismatch unrec => rfl, ?form, fun s v h => becomes_of_eq (becomes_pairForm s v) (pairForm_kept v h),
    fun s v h => pairReason_eq_zero h,
    fun s entry data seqNo hp hl hm => ⟨becomes_mirrorWrite_late hp hl hm, becomes_mirrorWrite_taken hp hl hm⟩,
    fun s t hp hr hn ht => becomes_mirrorMarkerSend (markerDue_unsent hp hr hn) ht,
    fun s take hp hl hn h => becomes_mirrorMarkerArrival hp hl hn h, ?unreconciled,
    fun s hp hf he hw hn hq => becomes_takeDigestSend hp hf he hw hn hq,
    fun s take digest own hp hl ht ho => ⟨_, becomes_takeDigestArrival hp hl ht ho, compareDigests_pair s take own digest⟩,
    ?timeout, fun s t half due hb ht => becomes_heartbeatSend hb ht,
    fun s hp hr hf hw => ⟨beatDue_first hp hr hf hw, beatDue_second hp hr hf hw⟩,
    fun s take driving term hp hl =>
      ⟨becomes_heartbeatArrival_yields take hp hl, becomes_heartbeatArrival_keeps take hp hl⟩,
    fun s j hp hr hf hw hj => missDue_next hp hr hf hw hj, ?miss,
    fun s => ⟨_, becomes_continuityLinkDown s, rfl, rfl, rfl⟩⟩
  case form =>
    intro s v hp he hw
    exact ⟨fun hr => becomes_of_eq (becomes_pairForm s v) (pairForm_refused hp he hw hr),
      fun hr => ⟨_, becomes_pairForm s v, pairForm_paired hp he hw hr⟩⟩
  case unreconciled =>
    intro s hp hf hpow hn
    have h : unreconciled s = true := by simp [unreconciled, hp, hf, hpow, hn]
    exact ⟨_, becomes_unreconciledTake h, rfl, rfl⟩
  case timeout =>
    intro s take own h
    have hlate : digestLate s = some take := by simp [digestLate, h]
    exact ⟨_, becomes_digestTimeout hlate, rfl, rfl⟩
  case miss =>
    intro s t half due hm ht
    have hmiss := becomes_heartbeatMiss hm ht
    rw [← timeTo_pair ht]
    exact ⟨fun h => becomes_of_eq hmiss (missBeat_first half h), fun h hd => ⟨_, hmiss, missBeat_switchover half h hd⟩,
      fun hd => ⟨_, hmiss, missBeat_driving half hd⟩⟩

end Sys2Proof.Proofs
end

section
/-! The encoding (R26 to R43): the fields of a word, the field words of the extensions, and the decoder on the words that the
encoder writes. -/

namespace Sys2Proof.Proofs

open Sys2Proof.Machine Sys2Proof.Laws

/-! ### The fields of a word of each format (Table 2.2). The major of a word is written as `simp` leaves it: 0x2000000 is 2^25. -/

section
variable {M d a b n op par sz imm : Nat}

@[simp] theorem major_wR (hd : d < 32) (ha : a < 32) (hb : b < 32) (hn : n < 1024) : wR M d a b n / 0x2000000 = M := by
  unfold wR; omega
@[simp] theorem wd_wR (hd : d < 32) (ha : a < 32) (hb : b < 32) (hn : n < 1024) : wd (wR M d a b n) = d := by
  unfold wd wR; omega
@[simp] theorem wa_wR (ha : a < 32) (hb : b < 32) (hn : n < 1024) : wa (wR M d a b n) = a := by unfold wa wR; omega
@[simp] theorem wb_wR (hb : b < 32) (hn : n < 1024) : wb (wR M d a b n) = b := by unfold wb wR; omega
@[simp] theorem wmin_wR (hn : n < 1024) : wmin (wR M d a b n) = n := by unfold wmin wR; omega
@[simp] theorem wop_wR : wop (wR M d a b n) = n / 32 % 32 := by unfold wop wR; omega
@[simp] theorem wpar_wR : wpar (wR M d a b n) = n % 32 := by unfold wpar wR; omega
/-- A word with bit 31 set is the word of a major from 64 on. -/
@[simp] theorem long_wR : 0x80000000 + wR M d a b n = wR (64 + M) d a b n := by unfold wR; omega

@[simp] theorem major_wP (hd : d < 32) (ha : a < 32) (hb : b < 32) (ho : op < 32) (hp : par < 32) :
    wP M d a b op par / 0x2000000 = M := major_wR hd ha hb (by omega)
@[simp] theorem wd_wP (hd : d < 32) (ha : a < 32) (hb : b < 32) (ho : op < 32) (hp : par < 32) : wd (wP M d a b op par) = d :=
  wd_wR hd ha hb (by omega)
@[simp] theorem wa_wP (ha : a < 32) (hb : b < 32) (ho : op < 32) (hp : par < 32) : wa (wP M d a b op par) = a :=
  wa_wR ha hb (by omega)
@[simp] theorem wb_wP (hb : b < 32) (ho : op < 32) (hp : par < 32) : wb (wP M d a b op par) = b := wb_wR hb (by omega)
@[simp] theorem wop_wP (ho : op < 32) (hp : par < 32) : wop (wP M d a b op par) = op := by rw [wP, wop_wR]; omega
@[simp] theorem wpar_wP (hp : par < 32) : wpar (wP M d a b op par) = par := by rw [wP, wpar_wR]; omega

@[simp] theorem major_wI (hd : d < 32) (ha : a < 32) (hi : imm < 0x8000) : wI M d a imm / 0x2000000 = M := by unfold wI; omega
@[simp] theorem wd_wI (hd : d < 32) (ha : a < 32) (hi : imm < 0x8000) : wd (wI M d a imm) = d := by unfold wd wI; omega
@[simp] theorem wa_wI (ha : a < 32) (hi : imm < 0x8000) : wa (wI M d a imm) = a := by unfold wa wI; omega
@[simp] theorem low15_wI : wI M d a imm % 0x8000 = imm % 0x8000 := by unfold wI; omega
@[simp] theorem imm_wI (i : BitVec 15) : BitVec.ofNat 15 (wI M d a i.toNat) = i := by
  apply BitVec.eq_of_toNat_eq
  rw [BitVec.toNat_ofNat]; unfold wI; omega
@[simp] theorem long_wI : 0x80000000 + wI M d a imm = wI (64 + M) d a imm := by unfold wI; omega

@[simp] theorem major_wM (hd : d < 32) (ha : a < 32) (hs : sz < 8) (hi : imm < 0x1000) : wM M d a sz imm / 0x2000000 = M := by
  unfold wM; omega
@[simp] theorem wd_wM (hd : d < 32) (ha : a < 32) (hs : sz < 8) (hi : imm < 0x1000) : wd (wM M d a sz imm) = d := by
  unfold wd wM; omega
@[simp] theorem wa_wM (ha : a < 32) (hs : sz < 8) (hi : imm < 0x1000) : wa (wM M d a sz imm) = a := by unfold wa wM; omega
@[simp] theorem wsize_wM (hs : sz < 8) (hi : imm < 0x1000) : wsize (wM M d a sz imm) = sz := by unfold wsize wM; omega
@[simp] theorem low12_wM : wM M d a sz imm % 0x1000 = imm % 0x1000 := by unfold wM; omega
@[simp] theorem low7_wM : wM M d a sz imm % 0x80 = imm % 0x80 := by unfold wM; omega
@[simp] theorem index_wM : wM M d a sz imm / 0x80 % 32 = imm / 0x80 % 32 := by unfold wM; omega
@[simp] theorem reserved_wM : wM M d a sz imm / 0x40 % 64 = imm / 0x40 % 64 := by unfold wM; omega
@[simp] theorem off_wM (i : BitVec 12) : BitVec.ofNat 12 (wM M d a sz i.toNat) = i := by
  apply BitVec.eq_of_toNat_eq
  rw [BitVec.toNat_ofNat]; unfold wM; omega
@[simp] theorem off7_wM (i : BitVec 7) : BitVec.ofNat 7 (wM M d a sz (b * 128 + i.toNat)) = i := by
  apply BitVec.eq_of_toNat_eq
  rw [BitVec.toNat_ofNat]; unfold wM; omega
@[simp] theorem count_wM (i : BitVec 6) : BitVec.ofNat 6 (wM M d a sz i.toNat) = i := by
  apply BitVec.eq_of_toNat_eq
  rw [BitVec.toNat_ofNat]; unfold wM; omega
@[simp] theorem long_wM : 0x80000000 + wM M d a sz imm = wM (64 + M) d a sz imm := by unfold wM; omega

@[simp] theorem major_wU (hd : d < 32) (hi : imm < 0x100000) : wU M d imm / 0x2000000 = M := by unfold wU; omega
@[simp] theorem wd_wU (hd : d < 32) (hi : imm < 0x100000) : wd (wU M d imm) = d := by unfold wd wU; omega
@[simp] theorem low20_wU : wU M d imm % 0x100000 = imm % 0x100000 := by unfold wU; omega
@[simp] theorem imm_wU (i : BitVec 20) : BitVec.ofNat 20 (wU M d i.toNat) = i := by
  apply BitVec.eq_of_toNat_eq
  rw [BitVec.toNat_ofNat]; unfold wU; omega
@[simp] theorem long_wU : 0x80000000 + wU M d imm = wU (64 + M) d imm := by unfold wU; omega
end

/-! ### Codes and field words -/

@[simp] theorem r5_val (r : Fin 32) : r5 r = r := by simp [r5]

@[simp] theorem scopeCode_lt (s : Scope) : scopeCode s < 32 := by cases s <;> decide
@[simp] theorem scopeOf_scopeCode (s : Scope) : scopeOf (scopeCode s) = some s := by cases s <;> rfl
@[simp] theorem withScope_scopeCode (s : Scope) (k : Scope → DecRes) : withScope (scopeCode s) k = k s := by simp [withScope]
@[simp] theorem redCode_lt (o : RedOp) : redCode o < 32 := by cases o <;> decide
@[simp] theorem redOf_redCode (o : RedOp) : redOf (redCode o) = some o := by cases o <;> rfl
theorem rndCode_lt (r : Rnd) : rndCode r < 8 := by cases r <;> decide
@[simp] theorem rndOf_rndCode (r : Rnd) : rndOf (rndCode r) = some r := by cases r <;> rfl
theorem lanesCode_lt (l : Lanes) : lanesCode l < 4 := by cases l <;> decide
@[simp] theorem lanesOf_lanesCode (l : Lanes) : lanesOf (lanesCode l) = some l := by cases l <;> rfl
theorem cmpLanesCode_lt (l : CmpLanes) : cmpLanesCode l < 4 := by cases l <;> decide
@[simp] theorem cmpLanesOf_cmpLanesCode (l : CmpLanes) : cmpLanesOf (cmpLanesCode l) = l := by cases l <;> rfl
theorem condCode_lt (c : Cond) : condCode c < 8 := by cases c <;> decide
@[simp] theorem condOf_condCode (c : Cond) : condOf (condCode c) = some c := by cases c <;> rfl

/-- The param of an atomic gives back its width and its ordering bits. -/
theorem amoPar_fields (p : AmoP) : amoPar p < 16 ∧ amoWOf (amoPar p % 4) = some p.w ∧
    (⟨p.w, amoPar p / 4 % 2 == 1, amoPar p / 8 % 2 == 1⟩ : AmoP) = p := by
  obtain ⟨w, acq, rel⟩ := p
  cases w <;> cases acq <;> cases rel <;> decide

/-- A 10-bit number that is split over fields a and b. -/
@[simp] theorem ofNat_split10 (n : BitVec 10) : BitVec.ofNat 10 (n.toNat / 32 * 32 + n.toNat % 32) = n := by
  rw [Nat.div_add_mod', BitVec.ofNat_toNat, BitVec.setWidth_eq]

/-! ### The field words of the extensions -/

theorem b2n_lt (x : Bool) : b2n x < 2 := by cases x <;> decide

/-- A one-bit field reads back. -/
theorem bit_b2n {x : Bool} {n : Nat} (h : n % 2 = b2n x) : (n % 2 == 1) = x := by
  rw [h]; cases x <;> rfl

/-- A field of several bits reads back. -/
theorem ofNat_field {w n : Nat} {x : BitVec w} (h : n % 2 ^ w = x.toNat) : BitVec.ofNat w n = x :=
  BitVec.eq_of_toNat_eq (by rw [BitVec.toNat_ofNat, h])

theorem cpyFieldWord_lt (f : CpyField) : cpyFieldWord f < 2 ^ 22 := by
  have := b2n_lt f.mcast; have := b2n_lt f.ring; have := b2n_lt f.ab
  unfold cpyFieldWord; omega

@[simp] theorem cpyFieldOf_cpyFieldWord (f : CpyField) : cpyFieldOf (cpyFieldWord f) = f := by
  obtain ⟨mcast, ring, bar, done, ab, df, sf⟩ := f
  have hm := b2n_lt mcast; have hr := b2n_lt ring; have ha := b2n_lt ab
  rw [cpyFieldOf, CpyField.mk.injEq]
  refine ⟨bit_b2n ?_, bit_b2n ?_, ofNat_field ?_, ofNat_field ?_, bit_b2n ?_, ofNat_field ?_, ofNat_field ?_⟩ <;>
    (simp only [cpyFieldWord]; omega)

theorem convFieldWord_lt (f : ConvField) : convFieldWord f < 2 ^ 32 ∧ convFieldWord f / 2 ^ 21 % 8 = 0 := by
  have := b2n_lt f.ben; have := b2n_lt f.sr; have := b2n_lt f.dstr; have := b2n_lt f.srcr
  unfold convFieldWord; omega

@[simp] theorem convFieldOf_convFieldWord (f : ConvField) : convFieldOf (convFieldWord f) = f := by
  obtain ⟨nm1, bar, ben, sr, dstr, srcr, df, sf⟩ := f
  have hb := b2n_lt ben; have hs := b2n_lt sr; have hd := b2n_lt dstr; have hr := b2n_lt srcr
  rw [convFieldOf, ConvField.mk.injEq]
  refine ⟨ofNat_field ?_, ofNat_field ?_, bit_b2n ?_, bit_b2n ?_, bit_b2n ?_, bit_b2n ?_, ofNat_field ?_, ofNat_field ?_⟩ <;>
    (simp only [convFieldWord]; omega)

theorem mmaFieldWord_lt (f : MmaField) : mmaFieldWord f < 2 ^ 26 ∧ mmaFieldWord f / 2 ^ 21 % 2 = 0 := by
  have := b2n_lt f.bph; have := b2n_lt f.ben; have := b2n_lt f.relB; have := b2n_lt f.takeB
  have := b2n_lt f.relA; have := b2n_lt f.takeA
  unfold mmaFieldWord; omega

@[simp] theorem mmaFieldOf_mmaFieldWord (f : MmaField) : mmaFieldOf (mmaFieldWord f) = f := by
  obtain ⟨gm1, acc, bar, bph, ben, relB, takeB, relA, takeA, fb, fa⟩ := f
  have hp := b2n_lt bph; have he := b2n_lt ben; have hrb := b2n_lt relB; have htb := b2n_lt takeB
  have hra := b2n_lt relA; have hta := b2n_lt takeA
  rw [mmaFieldOf, MmaField.mk.injEq]
  refine ⟨ofNat_field ?_, ofNat_field ?_, ofNat_field ?_, bit_b2n ?_, bit_b2n ?_, bit_b2n ?_, bit_b2n ?_, bit_b2n ?_,
    bit_b2n ?_, ofNat_field ?_, ofNat_field ?_⟩ <;> (simp only [mmaFieldWord]; omega)

theorem accFieldWord_lt (f : AccField) : accFieldWord f < 2 ^ 16 := by
  have := b2n_lt f.ben; have := b2n_lt f.ring; have := b2n_lt f.sr
  unfold accFieldWord; omega

@[simp] theorem accFieldOf_accFieldWord (f : AccField) : accFieldOf (accFieldWord f) = f := by
  obtain ⟨bar, ben, ring, sr, fmt⟩ := f
  have he := b2n_lt ben; have hr := b2n_lt ring; have hs := b2n_lt sr
  rw [accFieldOf, AccField.mk.injEq]
  refine ⟨ofNat_field ?_, bit_b2n ?_, bit_b2n ?_, bit_b2n ?_, ofNat_field ?_⟩ <;> (simp only [accFieldWord]; omega)

/-! ### The checks that a well-formed instruction passes -/

@[simp] theorem r5_zero : r5 0 = 0 := rfl
@[simp] theorem zer_zero (k : DecRes) : zer 0 k = k := rfl
@[simp] theorem zerX_zero (k : DecRes) : zerX 0 k = k := rfl
@[simp] theorem zer1_zero (k : DecRes) : zer1 0 k = k := rfl
@[simp] theorem lim_true (k : DecRes) : lim true k = k := rfl
@[simp] theorem asg_true (k : DecRes) : asg true k = k := rfl
@[simp] theorem asgX_true (k : DecRes) : asgX true k = k := rfl

theorem operandFault_of_wf {i : Instr} (h : i.wf = true) : operandFault i = none := by simpa [Instr.wf] using h

/-- The operand limits let a well-formed instruction through. -/
theorem chk_of_wf {i : Instr} (h : i.wf = true) (k : DecRes → DecRes) : chk i k = k (.ok i) := by
  rw [chk, operandFault_of_wf h]

/-! ### The decoder on the encoder's words -/

/-- The decoder of a major that has minors or ops of its own (Table 2.6). -/
noncomputable def familyOf : Nat → Option (Nat → DecRes)
  | 0x00 => some decSys | 0x01 => some decAlu | 0x06 => some decShift | 0x0A => some decLea | 0x13 => some decLoad
  | 0x14 => some decStore | 0x15 => some decFe | 0x16 => some decVmem | 0x17 => some decAmo | 0x18 => some decCache
  | 0x19 => some decMsg | 0x1A => some decSched | 0x1B => some decSync | 0x1C => some decTree | 0x1D => some decPool
  | 0x1F => some decStream | 0x20 => some decNum | 0x27 => some (decOld true true) | 0x28 => some decVfp
  | 0x29 => some decVfma | 0x2A => some decVint | 0x2B => some decVcmp | 0x2C => some decVsfu | 0x2D => some decVcvt
  | 0x2F => some decVmove | 0x30 => some decVseq | 0x33 => some decAcc | 0x34 => some decLink
  | _ => none

theorem decode32_of_family {w M : Nat} {f : Nat → DecRes} (hw : w / 0x2000000 = M) (hf : familyOf M = some f) :
    decode32 true true w = f w := by
  unfold familyOf at hf
  have hw : w / 2 ^ 25 = M := hw
  split at hf <;> cases hf <;> (rw [decode32, hw]; rfl)

/-- The word that the encoder writes has the major of its slot, and the decoder reads the instruction from it. -/
@[irreducible] def Reads (i : Instr) : Prop :=
  match encode i with
  | some (.c w) => w / 0x2000000 < 0x28 ∧ decode32 true true w = .ok i
  | some (.a w) => 0x28 ≤ w / 0x2000000 ∧ w / 0x2000000 < 64 ∧ decode32 true true w = .ok i
  | some (.x w e) => 64 ≤ w / 0x2000000 ∧ w / 0x2000000 < 128 ∧ e < 2 ^ 32 ∧ decode64 w e = .ok i
  | none => True

theorem reads_of_event {i : Instr} (he : encode i = none) : Reads i := by
  rw [Reads, he]; trivial

theorem reads_c {i : Instr} {w M : Nat} (he : encode i = some (.c w)) (hw : w / 0x2000000 = M) (hM : M < 0x28)
    (hd : decode32 true true w = .ok i) : Reads i := by
  rw [Reads, he]; exact ⟨hw ▸ hM, hd⟩

theorem reads_a {i : Instr} {w M : Nat} (he : encode i = some (.a w)) (hw : w / 0x2000000 = M) (hM : 0x28 ≤ M ∧ M < 64)
    (hd : decode32 true true w = .ok i) : Reads i := by
  rw [Reads, he]; exact ⟨hw ▸ hM.1, hw ▸ hM.2, hd⟩

theorem reads_x {i : Instr} {w e M : Nat} (he : encode i = some (.x w e)) (hw : w / 0x2000000 = M) (hM : 64 ≤ M ∧ M < 128)
    (hlt : e < 2 ^ 32) (hd : decode64 w e = .ok i) : Reads i := by
  rw [Reads, he]; exact ⟨hw ▸ hM.1, hw ▸ hM.2, hlt, hd⟩

section
variable {i : Instr} {M d a b n op par sz imm : Nat} {f : Nat → DecRes}

theorem reads_cR (he : encode i = some (.c (wR M d a b n))) (hb : M < 0x28 ∧ d < 32 ∧ a < 32 ∧ b < 32 ∧ n < 1024)
    (hf : familyOf M = some f) (hd : f (wR M d a b n) = .ok i) : Reads i := by
  obtain ⟨hM, h1, h2, h3, h4⟩ := hb
  have hw := major_wR (M := M) h1 h2 h3 h4
  exact reads_c he hw hM ((decode32_of_family hw hf).trans hd)

theorem reads_cP (he : encode i = some (.c (wP M d a b op par)))
    (hb : M < 0x28 ∧ d < 32 ∧ a < 32 ∧ b < 32 ∧ op < 32 ∧ par < 32)
    (hf : familyOf M = some f) (hd : f (wP M d a b op par) = .ok i) : Reads i := by
  obtain ⟨hM, h1, h2, h3, h4, h5⟩ := hb
  exact reads_cR he ⟨hM, h1, h2, h3, by omega⟩ hf hd

theorem reads_cM (he : encode i = some (.c (wM M d a sz imm))) (hb : M < 0x28 ∧ d < 32 ∧ a < 32 ∧ sz < 8 ∧ imm < 0x1000)
    (hf : familyOf M = some f) (hd : f (wM M d a sz imm) = .ok i) : Reads i := by
  obtain ⟨hM, h1, h2, h3, h4⟩ := hb
  have hw := major_wM (M := M) h1 h2 h3 h4
  exact reads_c he hw hM ((decode32_of_family hw hf).trans hd)

theorem reads_aR (he : encode i = some (.a (wR M d a b n)))
    (hb : (0x28 ≤ M ∧ M < 64) ∧ d < 32 ∧ a < 32 ∧ b < 32 ∧ n < 1024)
    (hf : familyOf M = some f) (hd : f (wR M d a b n) = .ok i) : Reads i := by
  obtain ⟨hM, h1, h2, h3, h4⟩ := hb
  have hw := major_wR (M := M) h1 h2 h3 h4
  exact reads_a he hw hM ((decode32_of_family hw hf).trans hd)

theorem reads_aP (he : encode i = some (.a (wP M d a b op par)))
    (hb : (0x28 ≤ M ∧ M < 64) ∧ d < 32 ∧ a < 32 ∧ b < 32 ∧ op < 32 ∧ par < 32)
    (hf : familyOf M = some f) (hd : f (wP M d a b op par) = .ok i) : Reads i := by
  obtain ⟨hM, h1, h2, h3, h4, h5⟩ := hb
  exact reads_aR he ⟨hM, h1, h2, h3, by omega⟩ hf hd
end

/-! ### Word 0 of a pair -/

/-- A form of SYS whose number is split over fields a and b. -/
theorem reads_number {i : Instr} {op d : Nat} {n : BitVec 10} (he : encode i = sysEnc op d n.toNat) (hb : op < 32 ∧ d < 32)
    (hd : decSys (wP 0 d (n.toNat / 32) (n.toNat % 32) op 0) = .ok i) : Reads i :=
  reads_cP he (by omega) rfl hd

@[simp] theorem reads_sysNumber (n : BitVec 10) :
    Reads (.syscall n) ∧ Reads (.brk n) ∧ (∀ d : GReg, Reads (.sysr d n)) ∧ (∀ d : GReg, Reads (.sysw n d)) := by
  and_intros <;> intros <;> exact reads_number rfl (by omega) (by simp (disch := omega) [decSys])

@[simp] theorem reads_gate (d : GReg) (n : BitVec 10) (h : (Instr.gate d n).wf = true) : Reads (.gate d n) :=
  reads_number rfl (by omega) (by simp (disch := omega) [decSys, chk_of_wf h])

@[simp] theorem reads_sys :
    Reads .nop ∧ (∀ d a b c : GReg, Reads (.hint d a b c)) ∧ Reads .endAct ∧ Reads .yield ∧
    (∀ s : Scope, Reads (.fenceRel s)) ∧ (∀ s : Scope, Reads (.fenceAcq s)) ∧ (∀ s : Scope, Reads (.fenceAr s)) ∧
    (∀ s : Scope, Reads (.ifence s)) ∧ Reads .tret ∧ (∀ d : GReg, Reads (.snap d)) ∧ Reads .gret ∧
    (∀ d a : GReg, Reads (.slateMin d a)) ∧ (∀ d a : GReg, Reads (.slateSet d a)) ∧ (∀ d a : GReg, Reads (.slateRgn d a)) ∧
    (∀ d : GReg, Reads (.slateRd d)) ∧ (∀ d a : GReg, Reads (.slateFold d a)) ∧ (∀ d a : GReg, Reads (.slchk d a)) ∧
    (∀ d a : GReg, Reads (.slchkTrap d a)) ∧ (∀ d : GReg, Reads (.time d)) ∧ (∀ d : GReg, Reads (.timeSinceClapper d)) ∧
    (∀ d : GReg, Reads (.timeToEgress d)) ∧ (∀ d a : GReg, Reads (.kill d a)) ∧ (∀ d a b : GReg, Reads (.invpg d a b)) := by
  refine ⟨reads_c rfl rfl (by decide) rfl, ?_⟩
  and_intros <;> intros <;> exact reads_cP rfl (by simp) rfl (by simp [decSys])

@[simp] theorem reads_alu (d a : GReg) :
    (∀ b : GReg, Reads (.add d a b)) ∧ (∀ b : GReg, Reads (.sub d a b)) ∧ (∀ b : GReg, Reads (.and d a b)) ∧
    (∀ b : GReg, Reads (.or d a b)) ∧ (∀ b : GReg, Reads (.xor d a b)) ∧ (∀ b : GReg, Reads (.shl d a b)) ∧
    (∀ b : GReg, Reads (.shr d a b)) ∧ (∀ b : GReg, Reads (.sra d a b)) ∧ (∀ b : GReg, Reads (.rotl d a b)) ∧
    (∀ b : GReg, Reads (.mul d a b)) ∧ (∀ b : GReg, Reads (.mulh d a b)) ∧ (∀ b : GReg, Reads (.mulhu d a b)) ∧
    (∀ b : GReg, Reads (.div d a b)) ∧ (∀ b : GReg, Reads (.divu d a b)) ∧ (∀ b : GReg, Reads (.rem d a b)) ∧
    (∀ b : GReg, Reads (.remu d a b)) ∧ (∀ b : GReg, Reads (.min d a b)) ∧ (∀ b : GReg, Reads (.max d a b)) ∧
    (∀ b : GReg, Reads (.minu d a b)) ∧ (∀ b : GReg, Reads (.maxu d a b)) ∧ (∀ b : GReg, Reads (.slt d a b)) ∧
    (∀ b : GReg, Reads (.sltu d a b)) ∧ Reads (.clz d a) ∧ Reads (.ctz d a) ∧ Reads (.popc d a) ∧ Reads (.bswap d a) ∧
    Reads (.sextb d a) ∧ Reads (.sexth d a) ∧ Reads (.sextw d a) ∧ Reads (.zextb d a) ∧ Reads (.zexth d a) ∧
    Reads (.zextw d a) ∧ (∀ b : GReg, Reads (.sel d a b)) := by
  and_intros <;> intros <;> exact reads_cR rfl (by simp) rfl (by simp [decAlu])

@[simp] theorem reads_lea (d a b : GReg) :
    Reads (.leaScale1 d a b) ∧ Reads (.leaScale2 d a b) ∧ Reads (.leaScale4 d a b) ∧ Reads (.leaScale8 d a b) ∧
    Reads (.gaddr d a b) := by
  and_intros <;> exact reads_cR rfl (by simp) rfl (by simp [decLea])

@[simp] theorem reads_num (d a b : GReg) :
    ((Instr.rand d a b).wf = true → Reads (.rand d a b)) ∧ ((Instr.cvtfx d a b).wf = true → Reads (.cvtfx d a b)) ∧
    ((Instr.cvtxf d a b).wf = true → Reads (.cvtxf d a b)) := by
  and_intros <;> exact fun h => reads_cR rfl (by simp) rfl (by simp [decNum, chk_of_wf h])

@[simp] theorem reads_old (d a b : GReg) :
    ((Instr.ldm d a b).wf = true → Reads (.ldm d a b)) ∧ ((Instr.stm d a b).wf = true → Reads (.stm d a b)) ∧
    ((Instr.vdotI8 d a b).wf = true → Reads (.vdotI8 d a b)) ∧ ((Instr.maca d a b).wf = true → Reads (.maca d a b)) := by
  and_intros <;> exact fun h => reads_cR rfl (by simp) rfl (by simp [decOld, chk_of_wf h])

@[simp] theorem reads_pool (d a : GReg) :
    Reads (.poolSet d a) ∧ Reads (.poolQry d a) ∧ Reads (.poolPin d a) ∧ Reads (.poolUnpin d a) := by
  and_intros <;> exact reads_cR rfl (by simp) rfl (by simp [decPool])

@[simp] theorem reads_imm (d a : GReg) (i : BitVec 15) :
    Reads (.addi d a i) ∧ Reads (.andi d a i) ∧ Reads (.ori d a i) ∧ Reads (.xori d a i) ∧ Reads (.slti d a i) ∧
    Reads (.sltiu d a i) ∧ Reads (.beq d a i) ∧ Reads (.bne d a i) ∧ Reads (.blt d a i) ∧ Reads (.bge d a i) ∧
    Reads (.bltu d a i) ∧ Reads (.bgeu d a i) ∧ Reads (.jalr d a i) := by
  have := i.isLt
  and_intros <;> exact reads_c rfl (major_wI d.isLt a.isLt i.isLt) (by decide) (by simp (disch := omega) [decode32])

@[simp] theorem reads_upper (d : GReg) (i : BitVec 20) :
    Reads (.movhi d i) ∧ Reads (.jal d i) := by
  have := i.isLt
  and_intros <;> exact reads_c rfl (major_wU d.isLt i.isLt) (by decide) (by simp (disch := omega) [decode32])

@[simp] theorem reads_shift (d a : GReg) (n : BitVec 6) :
    Reads (.shli d a n) ∧ Reads (.shri d a n) ∧ Reads (.srai d a n) ∧ Reads (.rotli d a n) := by
  have hres : n.toNat / 0x40 = 0 := by omega
  and_intros <;> exact reads_cM rfl (by omega) rfl (by simp (disch := omega) [decShift, hres])

@[simp] theorem reads_load (d a : GReg) (o : BitVec 12) :
    Reads (.ldb d a o) ∧ Reads (.ldh d a o) ∧ Reads (.ldw d a o) ∧ Reads (.ldd d a o) ∧ Reads (.ldbu d a o) ∧
    Reads (.ldhu d a o) ∧ Reads (.ldwu d a o) := by
  and_intros <;> exact reads_cM rfl (by omega) rfl (by simp (disch := omega) [decLoad])

@[simp] theorem reads_store (d a : GReg) (o : BitVec 12) :
    Reads (.stb d a o) ∧ Reads (.sth d a o) ∧ Reads (.stw d a o) ∧ Reads (.std d a o) := by
  and_intros <;> exact reads_cM rfl (by omega) rfl (by simp (disch := omega) [decStore])

@[simp] theorem reads_quad (d a : GReg) (o : BitVec 12) :
    ((Instr.ldq d a o).wf = true → Reads (.ldq d a o)) ∧ ((Instr.stq d a o).wf = true → Reads (.stq d a o)) := by
  and_intros <;> exact fun h => reads_cM rfl (by omega) rfl (by simp (disch := omega) [decLoad, decStore, chk_of_wf h])

@[simp] theorem reads_fullEmpty (a : GReg) (o : BitVec 12) :
    (∀ d : GReg, Reads (.ldf d a o)) ∧ (∀ d : GReg, Reads (.ldc d a o)) ∧ (∀ d : GReg, Reads (.stf d a o)) ∧
    (∀ d : GReg, Reads (.stfo d a o)) ∧ Reads (.empty a o) ∧ (∀ d : GReg, Reads (.feq d a o)) := by
  and_intros <;> intros <;> exact reads_cM rfl (by omega) rfl (by simp (disch := omega) [decFe])

@[simp] theorem reads_vectorMemory (d : FReg) (a : GReg) (o : BitVec 12) :
    Reads (.vld d a o) ∧ Reads (.vst d a o) := by
  and_intros <;> exact reads_cM rfl (by omega) rfl (by simp (disch := omega) [decVmem])

/-- The index register of a strided or gathered access, in bits [11:7]. -/
theorem index_of_wM {M d a sz : Nat} (b : Fin 32) (o : BitVec 7) : r5 (wM M d a sz (b * 128 + o.toNat) / 2 ^ 7 % 32) = b := by
  rw [show wM M d a sz (b * 128 + o.toNat) / 2 ^ 7 % 32 = b by unfold wM; omega, r5_val]

@[simp] theorem reads_strided (d : FReg) (a : GReg) (b : Fin 32) (o : BitVec 7) :
    Reads (.vlds d a b o) ∧ Reads (.vsts d a b o) ∧ Reads (.vgath d a b o) ∧ Reads (.vscat d a b o) := by
  and_intros <;> exact reads_cM rfl (by omega) rfl (by rw [decVmem, index_of_wM]; simp (disch := omega))

@[simp] theorem reads_cache (a : GReg) (o : BitVec 12) :
    Reads (.pref a o) ∧ Reads (.cwb a o) ∧ Reads (.cinv a o) ∧ Reads (.cwbinv a o) ∧ Reads (.cwbL2 a o) := by
  and_intros <;> exact reads_cM rfl (by omega) rfl (by simp (disch := omega) [decCache])

@[simp] theorem reads_amo (p : AmoP) (d a b : GReg) :
    ((Instr.amoadd p d a b).wf = true → Reads (.amoadd p d a b)) ∧ ((Instr.amoand p d a b).wf = true → Reads (.amoand p d a b)) ∧
    ((Instr.amoor p d a b).wf = true → Reads (.amoor p d a b)) ∧ ((Instr.amoxor p d a b).wf = true → Reads (.amoxor p d a b)) ∧
    ((Instr.amomin p d a b).wf = true → Reads (.amomin p d a b)) ∧ ((Instr.amomax p d a b).wf = true → Reads (.amomax p d a b)) ∧
    ((Instr.amominu p d a b).wf = true → Reads (.amominu p d a b)) ∧
    ((Instr.amomaxu p d a b).wf = true → Reads (.amomaxu p d a b)) ∧
    ((Instr.amoswap p d a b).wf = true → Reads (.amoswap p d a b)) ∧
    ((Instr.amocas p d a b).wf = true → Reads (.amocas p d a b)) := by
  obtain ⟨hlt, hw, hp⟩ := amoPar_fields p
  have hz : amoPar p / 16 = 0 := by omega
  and_intros <;>
    exact fun h => reads_cP rfl (by omega) rfl (by rw [decAmo, wpar_wP (by omega)]; simp (disch := omega) [hw, hp, hz, chk_of_wf h])

@[simp] theorem reads_msg (a : GReg) :
    (∀ (b : GReg) (k : Fin 32), Reads (.sendr a b k)) ∧ (∀ b : GReg, Reads (.reply a b)) ∧
    (∀ b : GReg, Reads (.replyQ a b)) ∧ Reads (.cut a) ∧ (∀ d b : GReg, Reads (.qpop d a b)) ∧
    (∀ d b : GReg, Reads (.qpeek d a b)) ∧ (∀ d : GReg, Reads (.qstat d a)) ∧ (∀ d : GReg, Reads (.qstatClr d a)) := by
  and_intros <;> intros <;> exact reads_cP rfl (by omega) rfl (by simp (disch := omega) [decMsg])

@[simp] theorem reads_send (a b : GReg) (n : BitVec 4) :
    ((Instr.send a b n).wf = true → Reads (.send a b n)) ∧ ((Instr.sendq a b n).wf = true → Reads (.sendq a b n)) := by
  have hz : n.toNat / 16 = 0 := by omega
  and_intros <;> exact fun h => reads_cP rfl (by omega) rfl (by simp (disch := omega) [decMsg, hz, chk_of_wf h])

@[simp] theorem reads_putn (d a b : GReg) (n : BitVec 4) (h : (Instr.putn d a b n).wf = true) : Reads (.putn d a b n) := by
  have hz : n.toNat / 16 = 0 := by omega
  exact reads_cP rfl (by omega) rfl (by simp (disch := omega) [decMsg, hz, chk_of_wf h])

@[simp] theorem reads_getr (d a b : GReg) (h : (Instr.getr d a b).wf = true) : Reads (.getr d a b) :=
  reads_cP rfl (by omega) rfl (by simp (disch := omega) [decMsg, chk_of_wf h])

@[simp] theorem reads_getrArm (d : GReg) :
    ((Instr.getrArm d).wf = true → Reads (.getrArm d)) ∧ ((Instr.getrDis d).wf = true → Reads (.getrDis d)) := by
  and_intros <;> exact fun h => reads_cP rfl (by omega) rfl (by simp (disch := omega) [decMsg, chk_of_wf h])

@[simp] theorem reads_spawn (j a b : GReg) (n : Fin 32) :
    ((Instr.spawn j a b n).wf = true → Reads (.spawn j a b n)) ∧ ((Instr.forkR j a b n).wf = true → Reads (.forkR j a b n)) := by
  and_intros <;> exact fun h => reads_cP rfl (by omega) rfl (by simp (disch := omega) [decSched, chk_of_wf h])

@[simp] theorem reads_sched (d a : GReg) :
    (∀ b : GReg, Reads (.join d a b)) ∧ (∀ b : GReg, Reads (.joinOpen d a b)) ∧ Reads (.joinSeal d a) ∧
    Reads (.joinWait d a) ∧ Reads (.budgetAct d a) ∧ Reads (.budgetTake d a) := by
  and_intros <;> intros <;> exact reads_cP rfl (by omega) rfl (by simp (disch := omega) [decSched])

@[simp] theorem reads_sync :
    (∀ a b : GReg, Reads (.barInit a b)) ∧ (∀ (s : Scope) (d a : GReg), Reads (.barArr s d a)) ∧
    (∀ (s : Scope) (a b : GReg), Reads (.barWait s a b)) ∧ (∀ (s : Scope) (d a : GReg), Reads (.barArw s d a)) ∧
    (∀ a b : GReg, Reads (.barTx a b)) ∧ (∀ d a : GReg, Reads (.barQry d a)) ∧ (∀ d a : GReg, Reads (.grpMem d a)) := by
  and_intros <;> intros <;> exact reads_cP rfl (by simp) rfl (by simp [decSync])

@[simp] theorem reads_ringQry (d : GReg) (r : Handle) : Reads (.ringQry d r) :=
  reads_cP rfl (by omega) rfl (by simp (disch := omega) [decSync, r.isLt])

@[simp] theorem reads_ringWait (d : GReg) (r : Handle) (k : Fin 32) :
    ((Instr.ringWaitf d r k).wf = true → Reads (.ringWaitf d r k)) ∧
    ((Instr.ringWaite d r k).wf = true → Reads (.ringWaite d r k)) := by
  and_intros <;> exact fun h => reads_cP rfl (by omega) rfl (by simp (disch := omega) [decSync, chk_of_wf h, r.isLt])

@[simp] theorem reads_ringAdvance (r : Handle) (k : Fin 32) :
    ((Instr.ringAdvp r k).wf = true → Reads (.ringAdvp r k)) ∧ ((Instr.ringAdvc r k).wf = true → Reads (.ringAdvc r k)) := by
  and_intros <;> exact fun h => reads_cP rfl (by omega) rfl (by simp (disch := omega) [decSync, chk_of_wf h, r.isLt])

@[simp] theorem reads_tree (d a : FReg) (b : GReg) :
    (∀ o : RedOp, Reads (.red o d a b)) ∧ (∀ o : RedOp, Reads (.scan o d a b)) ∧ Reads (.bcast d a b) := by
  have h0 : redOf 0 = some .fadd := rfl
  and_intros <;> intros <;> exact reads_cP rfl (by simp) rfl (by rw [decTree, wpar_wP (by simp)]; simp [h0])

@[simp] theorem reads_treeWait (d a : GReg) : Reads (.treeWait d a) := by
  have h0 : redOf 0 = some .fadd := rfl
  exact reads_cP rfl (by simp) rfl (by rw [decTree, wpar_wP (by simp)]; simp [h0])

@[simp] theorem reads_stream (r : SReg) :
    Reads (.sclose r) ∧ (∀ d : GReg, Reads (.sstat d r)) := by
  and_intros <;> intros <;> exact reads_cR rfl (by omega) rfl (by simp (disch := omega) [decStream])

/-! ### Word 1 of a pair -/

@[simp] theorem reads_anop : Reads .anop := reads_a rfl rfl (by decide) rfl

@[simp] theorem reads_vfpRounded (l : Lanes) (r : Rnd) (d a : FReg) :
    (∀ b : FReg, Reads (.vadd l r d a b)) ∧ (∀ b : FReg, Reads (.vsub l r d a b)) ∧ (∀ b : FReg, Reads (.vmul l r d a b)) ∧
    (∀ b : FReg, Reads (.vdiv l r d a b)) ∧ Reads (.vsqrt l r d a) := by
  have := rndCode_lt r
  have := lanesCode_lt l
  have hl : (lanesCode l * 8 + rndCode r) / 8 = lanesCode l := by omega
  have hr : (lanesCode l * 8 + rndCode r) % 8 = rndCode r := by omega
  and_intros <;> intros <;>
    exact reads_aP rfl (by omega) rfl (by rw [decVfp, wpar_wP (by omega)]; simp (disch := omega) [hl, hr])

@[simp] theorem reads_vfpExact (l : Lanes) (d a : FReg) :
    (∀ b : FReg, Reads (.vmin l d a b)) ∧ (∀ b : FReg, Reads (.vmax l d a b)) ∧ Reads (.vabs l d a) ∧ Reads (.vneg l d a) := by
  have := lanesCode_lt l
  and_intros <;> intros <;>
    exact reads_aP rfl (by omega) rfl (by rw [decVfp, wpar_wP (by omega)]; simp (disch := omega))

@[simp] theorem reads_vfma (d a b c : FReg) :
    Reads (.vfma d a b c) ∧ Reads (.vfms d a b c) ∧ Reads (.vfnma d a b c) ∧ Reads (.vfnms d a b c) := by
  have h (n : Nat) (hn : n < 32) : (c * 32 + n) / 32 % 32 = c ∧ (c * 32 + n) % 32 = n := by omega
  and_intros <;> exact reads_aR rfl (by omega) rfl (by simp (disch := omega) [decVfma, h, Nat.mod_eq_of_lt])

@[simp] theorem reads_vint (d a b : FReg) :
    Reads (.vaddI d a b) ∧ Reads (.vsubI d a b) ∧ Reads (.vmulI d a b) ∧ Reads (.vmulhI d a b) ∧ Reads (.vand d a b) ∧
    Reads (.vor d a b) ∧ Reads (.vxor d a b) ∧ Reads (.vshl d a b) ∧ Reads (.vshr d a b) ∧ Reads (.vsra d a b) ∧
    Reads (.vminI d a b) ∧ Reads (.vmaxI d a b) ∧ Reads (.vminuI d a b) ∧ Reads (.vmaxuI d a b) ∧ Reads (.vdot4I8 d a b) := by
  and_intros <;> exact reads_aR rfl (by omega) rfl (by simp [decVint])

@[simp] theorem reads_vcmp (l : CmpLanes) (c : Cond) (d : MReg) (a b : FReg) (h : (Instr.vcmp l c d a b).wf = true) :
    Reads (.vcmp l c d a b) := by
  have := condCode_lt c
  have := cmpLanesCode_lt l
  have hl : (cmpLanesCode l * 8 + condCode c) / 8 = cmpLanesCode l := by omega
  have hc : (cmpLanesCode l * 8 + condCode c) % 8 = condCode c := by omega
  exact reads_aP rfl (by omega) rfl
    (by rw [decVcmp, wpar_wP (by omega)]; simp (disch := omega) [hl, hc, chk_of_wf h, d.isLt])

@[simp] theorem reads_mask :
    (∀ (d a : FReg) (m : MReg), Reads (.vsel d a m)) ∧ (∀ d a b : MReg, Reads (.mand d a b)) ∧
    (∀ d a b : MReg, Reads (.mor d a b)) ∧ (∀ d a b : MReg, Reads (.mxor d a b)) ∧ (∀ d a : MReg, Reads (.mnot d a)) ∧
    (∀ d a : MReg, Reads (.mmov d a)) ∧ (∀ (d : MReg) (a : GReg), Reads (.mset d a)) ∧
    (∀ (d : GReg) (a : MReg), Reads (.mpopc d a)) := by
  and_intros <;> intros <;> exact reads_aP rfl (by omega) rfl (by simp (disch := omega) [decVcmp, Fin.is_lt])

@[simp] theorem reads_vsfu (d a : FReg) :
    Reads (.vrcp d a) ∧ Reads (.vrsq d a) ∧ Reads (.vexp2 d a) ∧ Reads (.vlog2 d a) ∧ Reads (.vtanh d a) ∧ Reads (.vsigm d a) := by
  and_intros <;> exact reads_aR rfl (by omega) rfl (by simp [decVsfu])

@[simp] theorem reads_vcvt (c : Fin 26) (d a : FReg) : Reads (.vcvt c d a) :=
  reads_aP rfl (by omega) rfl (by simp (disch := omega) [decVcvt, c.isLt])

@[simp] theorem reads_vcvtSr (c : Fin 26) (d a b : FReg) (h : (Instr.vcvtSr c d a b).wf = true) : Reads (.vcvtSr c d a b) :=
  reads_aP rfl (by omega) rfl (by simp (disch := omega) [decVcvt, c.isLt, chk_of_wf h])

@[simp] theorem reads_vrand (d a b : FReg) : Reads (.vrand d a b) :=
  reads_a rfl (major_wR d.isLt a.isLt b.isLt (by decide)) (by decide) (by simp [decode32])

@[simp] theorem reads_vmove (d a : Fin 32) :
    Reads (.vmov d a) ∧ Reads (.vbcast d a) ∧ (∀ b : FReg, Reads (.vperm d a b)) ∧ (∀ o : RedOp, Reads (.vred o d a)) ∧
    (∀ o : RedOp, Reads (.vscan o d a)) := by
  and_intros <;> intros <;> exact reads_aP rfl (by simp) rfl (by rw [decVmove, wpar_wP (by simp)]; simp)

@[simp] theorem reads_lane (d a : Fin 32) (n : Fin 16) : Reads (.vext d a n) ∧ Reads (.vins d a n) := by
  have hn : n.val / 16 = 0 := by omega
  and_intros <;> exact reads_aP rfl (by omega) rfl (by simp (disch := omega) [decVmove, hn])

@[simp] theorem reads_vseq (n : Fin 16) : (∀ a : GReg, Reads (.vseq a n)) ∧ (∀ r : SReg, Reads (.vseqS r n)) := by
  have hn : n.val / 16 = 0 := by omega
  have hs : (16 + n.val) / 16 = 1 := by omega
  have hv : Fin.ofNat 16 (16 + n.val) = n := Fin.ext (by rw [Fin.val_ofNat]; omega)
  and_intros <;> intros <;>
    exact reads_aP rfl (by omega) rfl (by simp (disch := omega) [decVseq, hn, hs, hv, Fin.is_lt, -Fin.ofNat_eq_cast])

@[simp] theorem reads_vseqStop (m : MReg) : Reads (.vseqStop m) :=
  reads_aP rfl (by omega) rfl (by simp (disch := omega) [decVseq, m.isLt])

@[simp] theorem reads_acc (r : AccReg) :
    Reads (.accClr r) ∧ (∀ a : GReg, Reads (.accAnch r a)) ∧ (∀ d : GReg, Reads (.accStat d r)) := by
  and_intros <;> intros <;> exact reads_aR rfl (by omega) rfl (by simp (disch := omega) [decAcc, r.isLt])

@[simp] theorem reads_link (d : GReg) : (∀ a : GReg, Reads (.linkCfg d a)) ∧ Reads (.linkStat d) := by
  and_intros <;> intros <;> exact reads_aR rfl (by omega) rfl (by simp [decLink])

/-! ### 64-bit instructions -/

/-- The first of several checks passes where all do. -/
theorem firstFault_cons_none {e : Option EncFault} {l : List (Option EncFault)} (h : firstFault (e :: l) = none) :
    e = none ∧ firstFault l = none := by
  cases e with
  | none => exact ⟨rfl, h⟩
  | some e => cases h

theorem of_assignedExt {ok : Bool} (h : assignedExt ok = none) : ok = true := by
  cases ok
  · cases h
  · rfl

theorem accRdCode_of_wf {r : AccReg} {a b : GReg} {f : AccField} (h : (Instr.accRd r a b f).wf = true) :
    accRdCodeOk f.fmt = true :=
  of_assignedExt (firstFault_cons_none (operandFault_of_wf h)).1

theorem accWrCode_of_wf {r : AccReg} {a : GReg} {f : AccField} (h : (Instr.accWr r a f).wf = true) :
    accWrCodeOk f.fmt = true :=
  of_assignedExt (firstFault_cons_none (operandFault_of_wf h)).1

/-- A 64-bit instruction whose word 0 is the word of major `M` with bit 31 set. -/
theorem reads_long {i : Instr} {w v e M : Nat} (he : encode i = xW w e) (hv : 0x80000000 + w = v) (hw : v / 0x2000000 = M)
    (hM : 64 ≤ M ∧ M < 128) (hlt : e < 2 ^ 32) (hd : decode64 v e = .ok i) : Reads i := by
  subst hv
  exact reads_x he hw hM hlt hd

@[simp] theorem reads_immLong (d a : GReg) (i : BitVec 32) :
    Reads (.addiLong d a i) ∧ Reads (.andiLong d a i) ∧ Reads (.oriLong d a i) ∧ Reads (.xoriLong d a i) ∧
    Reads (.sltiLong d a i) ∧ Reads (.sltiuLong d a i) ∧ Reads (.beqLong d a i) ∧ Reads (.bneLong d a i) ∧
    Reads (.bltLong d a i) ∧ Reads (.bgeLong d a i) ∧ Reads (.bltuLong d a i) ∧ Reads (.bgeuLong d a i) ∧
    Reads (.jalrLong d a i) := by
  and_intros <;>
    exact reads_long rfl long_wI (major_wI d.isLt a.isLt (by decide)) (by decide) i.isLt (by simp [decode64])

@[simp] theorem reads_jalLong (d : GReg) (i : BitVec 32) : Reads (.jalLong d i) :=
  reads_long rfl long_wU (major_wU d.isLt (by decide)) (by decide) i.isLt (by simp [decode64])

/-- A shift by an immediate in the extension, whose size field is `k` (R115). -/
theorem reads_shiftExt {i : Instr} {d a : GReg} {x : Nat} (k : Nat) (n : BitVec 6) (he : encode i = xW (wI 6 d a 0) x)
    (hk : k < 4) (hx : x = k * 2 ^ 12 + n.toNat)
    (hd : ∀ x, x / 0x1000 % 8 = k → x / 0x8000 + x / 0x40 % 64 = 0 → BitVec.ofNat 6 x = n → decode64 (wI 70 d a 0) x = .ok i) :
    Reads i := by
  have hn := n.isLt
  exact reads_long he long_wI (major_wI d.isLt a.isLt (by decide)) (by decide) (by omega)
    (hd x (by omega) (by omega) (ofNat_field (by omega)))

@[simp] theorem reads_shiftLong (d a : GReg) (n : BitVec 6) :
    Reads (.shliLong d a n) ∧ Reads (.shriLong d a n) ∧ Reads (.sraiLong d a n) ∧ Reads (.rotliLong d a n) := by
  refine ⟨reads_shiftExt 0 n rfl (by decide) (by omega) ?_, reads_shiftExt 1 n rfl (by decide) (by omega) ?_,
    reads_shiftExt 2 n rfl (by decide) (by omega) ?_, reads_shiftExt 3 n rfl (by decide) (by omega) ?_⟩ <;>
    exact fun x hsize hres hn => by simp [decode64, decShiftLong, hsize, hres, hn]

@[simp] theorem reads_loadLong (d a : GReg) (o : BitVec 32) :
    Reads (.ldbLong d a o) ∧ Reads (.ldhLong d a o) ∧ Reads (.ldwLong d a o) ∧ Reads (.lddLong d a o) ∧
    Reads (.ldbuLong d a o) ∧ Reads (.ldhuLong d a o) ∧ Reads (.ldwuLong d a o) := by
  and_intros <;> exact reads_long rfl long_wM (major_wM d.isLt a.isLt (by decide) (by decide)) (by decide) o.isLt
      (by simp [decode64, decLoadLong])

@[simp] theorem reads_storeLong (d a : GReg) (o : BitVec 32) :
    Reads (.stbLong d a o) ∧ Reads (.sthLong d a o) ∧ Reads (.stwLong d a o) ∧ Reads (.stdLong d a o) := by
  and_intros <;> exact reads_long rfl long_wM (major_wM d.isLt a.isLt (by decide) (by decide)) (by decide) o.isLt
      (by simp [decode64, decStoreLong])

@[simp] theorem reads_quadLong (d a : GReg) (o : BitVec 32) :
    ((Instr.ldqLong d a o).wf = true → Reads (.ldqLong d a o)) ∧ ((Instr.stqLong d a o).wf = true → Reads (.stqLong d a o)) := by
  and_intros <;> exact fun h => reads_long rfl long_wM (major_wM d.isLt a.isLt (by decide) (by decide)) (by decide) o.isLt
      (by simp [decode64, decLoadLong, decStoreLong, chk_of_wf h])

@[simp] theorem reads_fullEmptyLong (a : GReg) (o : BitVec 32) :
    (∀ d : GReg, Reads (.ldfLong d a o)) ∧ (∀ d : GReg, Reads (.ldcLong d a o)) ∧ (∀ d : GReg, Reads (.stfLong d a o)) ∧
    (∀ d : GReg, Reads (.stfoLong d a o)) ∧ Reads (.emptyLong a o) ∧ (∀ d : GReg, Reads (.feqLong d a o)) := by
  and_intros <;> intros <;>
    exact reads_long rfl long_wM (major_wM (by omega) a.isLt (by decide) (by decide)) (by decide) o.isLt
      (by simp [decode64, decFeLong])

@[simp] theorem reads_vectorMemoryLong (d : FReg) (a : GReg) (o : BitVec 32) : Reads (.vldLong d a o) ∧ Reads (.vstLong d a o) := by
  and_intros <;> exact reads_long rfl long_wM (major_wM d.isLt a.isLt (by decide) (by decide)) (by decide) o.isLt
      (by simp [decode64, decVmemLong])

@[simp] theorem reads_stridedLong (d : FReg) (a : GReg) (b : Fin 32) (o : BitVec 32) :
    Reads (.vldsLong d a b o) ∧ Reads (.vstsLong d a b o) ∧ Reads (.vgathLong d a b o) ∧ Reads (.vscatLong d a b o) := by
  have hm (k : Nat) (hk : k < 8) := major_wM (M := 0x56) (imm := b * 128) d.isLt a.isLt hk (by omega)
  and_intros <;> exact reads_long rfl long_wM (hm _ (by decide)) (by decide) o.isLt
      (by simp (disch := omega) [decode64, decVmemLong, Nat.mod_eq_of_lt])

@[simp] theorem reads_cacheLong (a : GReg) (o : BitVec 32) :
    Reads (.prefLong a o) ∧ Reads (.cwbLong a o) ∧ Reads (.cinvLong a o) ∧ Reads (.cwbinvLong a o) ∧ Reads (.cwbL2Long a o) := by
  and_intros <;> exact reads_long rfl long_wM (major_wM (by decide) a.isLt (by decide) (by decide)) (by decide) o.isLt
      (by simp [decode64, decCacheLong])

@[simp] theorem reads_cpy (d a : GReg) (f : CpyField) (h : (Instr.cpy d a f).wf = true) : Reads (.cpy d a f) := by
  have hf := cpyFieldWord_lt f
  have hz : cpyFieldWord f / 0x400000 = 0 := by omega
  exact reads_long rfl long_wR (major_wR d.isLt a.isLt (by decide) (by decide)) (by decide) (by omega)
    (by simp [decode64, decCopy, chk_of_wf h, hz])

@[simp] theorem reads_cpyControl (d a : GReg) : Reads (.cpyCancel d a) ∧ (∀ s : Bool, Reads (.cpyStat d a s)) := by
  have hw (n : Nat) (hn : n < 1024) := major_wR (M := 0x5E) d.isLt a.isLt (b := 0) (by decide) hn
  refine ⟨reads_long rfl long_wR (hw 1 (by decide)) (by decide) (by decide) (by simp [decode64, decCopy]), fun s => ?_⟩
  cases s <;> exact reads_long rfl long_wR (hw 2 (by decide)) (by decide) (by decide) (by simp [decode64, decCopy, b2n])

@[simp] theorem reads_scfg (r : SReg) (a b : GReg) (wr : Bool) (z : StreamSize) : Reads (.scfg r a b wr z) := by
  cases wr <;> cases z <;>
    exact reads_long rfl long_wR (major_wR (by omega) a.isLt b.isLt (by decide)) (by decide) (by decide)
      (by simp (disch := omega) [decode64, decStreamLong, b2n, r.isLt])

@[simp] theorem reads_conv (d a b : GReg) (f : ConvField) :
    ((Instr.cvtMx d a b f).wf = true → Reads (.cvtMx d a b f)) ∧ ((Instr.cvtUnmx d a b f).wf = true → Reads (.cvtUnmx d a b f)) ∧
    ((Instr.rescaleMx d a b f).wf = true → Reads (.rescaleMx d a b f)) ∧
    ((Instr.transp d a b f).wf = true → Reads (.transp d a b f)) := by
  obtain ⟨hlt, hz⟩ := convFieldWord_lt f
  have hz : convFieldWord f / 0x200000 % 8 = 0 := hz
  and_intros <;> exact fun h => reads_long rfl long_wR (major_wR d.isLt a.isLt b.isLt (by decide)) (by decide) hlt
      (by simp [decode64, decConv, chk_of_wf h, hz])

@[simp] theorem reads_matrix (a b : Handle) (f : MmaField) :
    (∀ r : AccReg, (Instr.mma r a b f).wf = true → Reads (.mma r a b f)) ∧
    (∀ d : GReg, (Instr.mmaG d a b f).wf = true → Reads (.mmaG d a b f)) ∧
    (∀ r : AccReg, (Instr.mmrot r a b f).wf = true → Reads (.mmrot r a b f)) := by
  obtain ⟨hlt, hz⟩ := mmaFieldWord_lt f
  have hz : mmaFieldWord f / 0x4000000 = 0 ∧ mmaFieldWord f / 0x200000 % 2 = 0 := ⟨by omega, hz⟩
  and_intros <;>
    exact fun r h => reads_long rfl long_wR (major_wR (by omega) (by omega) (by omega) (by decide)) (by decide) (by omega)
      (by simp (disch := omega) [decode64, decMatrix, chk_of_wf h, hz, a.isLt, b.isLt, r.isLt])

@[simp] theorem reads_accRd (r : AccReg) (a b : GReg) (f : AccField) (h : (Instr.accRd r a b f).wf = true) :
    Reads (.accRd r a b f) := by
  have hlt := accFieldWord_lt f
  have hz : accFieldWord f / 0x10000 = 0 := by omega
  exact reads_long rfl long_wR (major_wR (by omega) a.isLt b.isLt (by decide)) (by decide) (by omega)
    (by simp (disch := omega) [decode64, decAccLong, chk_of_wf h, hz, accRdCode_of_wf h, r.isLt])

@[simp] theorem reads_accWr (r : AccReg) (a : GReg) (f : AccField) (h : (Instr.accWr r a f).wf = true) :
    Reads (.accWr r a f) := by
  have hlt := accFieldWord_lt f
  have hz : accFieldWord f / 0x10000 = 0 := by omega
  exact reads_long rfl long_wR (major_wR (by omega) a.isLt (by decide) (by decide)) (by decide) (by omega)
    (by simp (disch := omega) [decode64, decAccLong, chk_of_wf h, hz, accWrCode_of_wf h, r.isLt])

/-! ### Every instruction -/

theorem reads_of_wf (i : Instr) (h : i.wf = true) : Reads i := by
  cases i
  case feWaitDone | sequencerReplayStep | convOpStart | convOpComplete | matrixOpStart | matrixOpComplete |
    mmrotForward | linkVectorArrival | streamFetch | streamDrain | trapEntry | asyncCauseDelivery |
    copyCompletionInterrupt | singleStep | gateUnwind | activationStart | contextLoad | contextWriteback |
    activationBudgetExpiry | budgetGraceExpiry | deadlockSuspected | takeBudgetSpent | slotExhaustion |
    spilledContextReturn | absentContextMessage | quiesceAck | spawnArrival | spawnRetry | joinArrival |
    depositArrival | depositLanding | parkedReturn | messageArrival | replyArrival | remoteAccessArrival |
    accessReplyArrival | storeAckArrival | refusalArrival | journalTimeout | linkReroute | barrierEvent |
    barrierHoldRetry | ringOperationAtOwner | treeResult | reshapeComplete | copyTransferStart | copyTransferDone |
    copyTransferFault | clapper | egressSwap | frameTransmit | frameIngress | callSheetEntryFire | oneShotFire |
    heartbeatSend | heartbeatArrival | heartbeatMiss | mirrorWrite | mirrorMarkerSend | unreconciledTake |
    takeDigestSend | takeDigestArrival | digestTimeout | pairForm | guestSubmit | guestCompletion | guestFault |
    guestDrained | guestSaved | guestAccess | guestRequestTimeout | guestPreemptRequest | guestPreemptTimeout |
    hostDoorbell | launch | activeMessage | loadCallSheet | releaseQueue | endLaunch | loadImageMaps | openAperture |
    claimOwnership | transferOwnership | advanceVersion | attestationQuote | storeImage | splitDomain |
    hostApertureAccess | hashmaskWrite | domselWrite | l2ctlWrite | domainSwitchApply | losingSliceSignal |
    domainSwitchEnd | domstatRead | pageMigration | invpgAck | uncorrectableError | tileRetire | watchpointTrigger |
    wpctlWrite | wpctlRead | snapshotTrigger | snapshotPin | snaptimeReached | rearm | timectlWrite | takecfgWrite |
    servoStep | lockedChange | timestatErrClear | dtimeDivergence | mapsw | csstatRead | detstatRead | pairstatClear |
    statusLostaClear | governorSample | thermalSample | clrtrip | throttleStepChange | pwrctlWrite | powerFailWarning
    | drainExpiry | reelWrite | reelRestart | coldReset | recoveryMode | firmwareWatchdog | mbxgo | mbxpop | kick |
    mailboxEntryArrival | handlerPublish | vtakenoRead | vcauseRead | voutdone | messagePortSend | pops | popv |
    messagePortStatusRead | resultQueueAppend | continuityLinkDown | guestLinkTraining | epochWrite | slewComplete |
    mirrorMarkerArrival | sendQueueEntryFreed | inFlightWriteLands | writeBackAck | killAcceptance | hostAccessTimeout
    | recruitmentAnswer =>
    exact reads_of_event rfl
  all_goals simp [h]

/-- A word of major below 0x28, beside ANOP. -/
theorem decodeBundle_c {w : Nat} (hw : w / 0x2000000 < 0x28) :
    decodeBundle true w 0x7E000000 = .two (decode32 true true w) (.ok .anop) := by
  have hs : w / 2 ^ 31 % 2 ≠ 1 := by omega
  have hm : ¬ w / 2 ^ 25 % 64 ≥ 0x28 := by omega
  rw [decodeBundle, if_neg hs, if_neg (by decide), if_neg hm, if_neg (by decide)]
  rfl

/-- A word of a major from 0x28 to 63, behind NOP. -/
theorem decodeBundle_a {w : Nat} (hw : 0x28 ≤ w / 0x2000000 ∧ w / 0x2000000 < 64) :
    decodeBundle true 0 w = .two (.ok .nop) (decode32 true true w) := by
  have hs : w / 2 ^ 31 % 2 ≠ 1 := by omega
  have hm : ¬ w / 2 ^ 25 % 64 < 0x28 := by omega
  rw [decodeBundle, if_neg (by decide), if_neg hs, if_neg (by decide), if_neg hm]
  rfl

/-- Settles O51: the encoder's word has the major of its slot and decodes to the instruction (`reads_of_wf`, by families of
Table 2.6); the major says in which slot the bundle takes it. -/
theorem decodeOfEncode : Obligations.DecodeOfEncode := by
  intro i h
  have hr := reads_of_wf i h
  refine ⟨fun w he => ?word0, fun w he => ?word1, fun w e he => ?long⟩ <;> rw [Reads, he] at hr
  case word0 =>
    obtain ⟨hm, hd⟩ := hr
    exact ⟨by omega, hm, hd, by rw [decodeBundle_c hm, hd]⟩
  case word1 =>
    obtain ⟨hlo, hhi, hd⟩ := hr
    exact ⟨by omega, hlo, hd, by rw [decodeBundle_a ⟨hlo, hhi⟩, hd]⟩
  case long =>
    obtain ⟨hlo, hhi, hlt, hd⟩ := hr
    exact ⟨by omega, by omega, hlt, hd, by rw [decodeBundle, if_pos (by omega), hd]⟩

/-! ### Words written out -/

/-- Settles O50: every word is decoded by evaluation. -/
theorem decodedWords : Obligations.DecodedWords := by
  unfold Obligations.DecodedWords
  and_intros <;> rfl

end Sys2Proof.Proofs
end

section
/-! PROOF of O55. Every instruction, event and step answers a next state: an instruction ends in `issueWith`, which answers
whatever its own effect gives; an event is a state change, under conditions that leave the machine as it is where they fail;
and a step runs one of them or changes nothing. -/

namespace Sys2Proof.Proofs

open Sys2Proof.Machine Sys2Proof.Laws

/-- An answer that is a next state. -/
def EndsInNext (o : Host.Outcome State Fault Refusal) : Prop := ∃ t, o = .next t

theorem endsInNext_next (t : State) : EndsInNext (.next t) := ⟨t, rfl⟩

theorem issue_answers (f : Form) (body : Effect) (s : State) : EndsInNext (issue f body s) := issueWith_answers f none body s

/-- A deprecated form: an issue, or the fault of a context that does not allow it. -/
theorem issueOld_answers (f : Form) (body : Effect) (s : State) : EndsInNext (issueOld f body s) := by
  unfold issueOld
  split
  · exact issue_answers ..
  · exact endsInNext_next _

/-- Every instruction and event of the opcode table answers a next state. -/
theorem exec_answers (i : Instr) (s : State) : EndsInNext (exec i s) := by
  cases i
  case feWaitDone | inFlightWriteLands | asyncCauseDelivery | gateUnwind | statusLostaClear | snapshotTrigger |
    rearm | timectlWrite | takecfgWrite | epochWrite | servoStep | lockedChange | timestatErrClear | mapsw |
    coldReset | mbxgo | mbxpop | kick | sequencerReplayStep | depositLanding | spilledContextReturn |
    activationBudgetExpiry | streamFetch | streamDrain | copyTransferStart | copyTransferDone | copyTransferFault |
    voutdone | resultQueueAppend | guestDrained | guestSaved | guestLinkTraining | pairForm | pairstatClear |
    continuityLinkDown | pwrctlWrite | throttleStepChange | clrtrip | launch | activeMessage | loadCallSheet |
    releaseQueue | endLaunch | loadImageMaps | openAperture | transferOwnership | attestationQuote | storeImage |
    linkVectorArrival | mmrotForward | pops | popv =>
    exact endsInNext_next _
  case ldm | stm | vdotI8 | maca => exact issueOld_answers ..
  case remoteAccessArrival | accessReplyArrival | storeAckArrival | refusalArrival | journalTimeout | writeBackAck |
    hostAccessTimeout | linkReroute | copyCompletionInterrupt | trapEntry | singleStep | watchpointTrigger |
    wpctlWrite | wpctlRead | snapshotPin | snaptimeReached | frameIngress | mirrorWrite | egressSwap |
    frameTransmit | slewComplete | dtimeDivergence | csstatRead | detstatRead | callSheetEntryFire | oneShotFire |
    clapper | recoveryMode | firmwareWatchdog | mailboxEntryArrival | messageArrival | depositArrival |
    absentContextMessage | replyArrival | parkedReturn | activationStart | contextLoad | contextWriteback |
    slotExhaustion | budgetGraceExpiry | deadlockSuspected | takeBudgetSpent | joinArrival | sendQueueEntryFreed |
    recruitmentAnswer | spawnArrival | spawnRetry | quiesceAck | killAcceptance | barrierEvent | barrierHoldRetry |
    convOpStart | convOpComplete | vtakenoRead | vcauseRead | messagePortSend | messagePortStatusRead |
    hashmaskWrite | domselWrite | l2ctlWrite | domstatRead | domainSwitchApply | losingSliceSignal |
    domainSwitchEnd | invpgAck | pageMigration | uncorrectableError | tileRetire | guestSubmit | guestCompletion |
    guestFault | guestRequestTimeout | guestPreemptRequest | guestPreemptTimeout | guestAccess | mirrorMarkerSend |
    mirrorMarkerArrival | unreconciledTake | takeDigestSend | takeDigestArrival | digestTimeout | heartbeatSend |
    heartbeatArrival | heartbeatMiss | governorSample | thermalSample | powerFailWarning | drainExpiry | reelWrite |
    reelRestart | hostDoorbell | hostApertureAccess | claimOwnership | advanceVersion | splitDomain |
    handlerPublish | matrixOpStart | matrixOpComplete | ringOperationAtOwner | reshapeComplete | treeResult =>
    simp only [exec_remoteAccessArrival, execRemoteAccessArrival, exec_accessReplyArrival, execAccessReplyArrival,
      exec_storeAckArrival, execStoreAckArrival, exec_refusalArrival, execRefusalArrival, exec_journalTimeout,
      execJournalTimeout, exec_writeBackAck, execWriteBackAck, exec_hostAccessTimeout, execHostAccessTimeout,
      exec_linkReroute, execLinkReroute, exec_copyCompletionInterrupt, execCopyCompletionInterrupt, exec_trapEntry,
      execTrapEntry, exec_singleStep, execSingleStep, exec_watchpointTrigger, execWatchpointTrigger, exec_wpctlWrite,
      execWpctlWrite, exec_wpctlRead, execWpctlRead, exec_snapshotPin, execSnapshotPin, exec_snaptimeReached,
      execSnaptimeReached, exec_frameIngress, execFrameIngress, exec_mirrorWrite, execMirrorWrite, exec_egressSwap,
      execEgressSwap, exec_frameTransmit, execFrameTransmit, exec_slewComplete, execSlewComplete,
      exec_dtimeDivergence, execDtimeDivergence, exec_csstatRead, execCsstatRead, exec_detstatRead, execDetstatRead,
      exec_callSheetEntryFire, execCallSheetEntryFire, exec_oneShotFire, execOneShotFire, exec_clapper, execClapper,
      exec_recoveryMode, execRecoveryMode, exec_firmwareWatchdog, execFirmwareWatchdog, exec_mailboxEntryArrival,
      execMailboxEntryArrival, exec_messageArrival, execMessageArrival, exec_depositArrival, execDepositArrival,
      exec_absentContextMessage, execAbsentContextMessage, exec_replyArrival, execReplyArrival, exec_parkedReturn,
      execParkedReturn, exec_activationStart, execActivationStart, exec_contextLoad, execContextLoad,
      exec_contextWriteback, execContextWriteback, exec_slotExhaustion, execSlotExhaustion, exec_budgetGraceExpiry,
      execBudgetGraceExpiry, exec_deadlockSuspected, execDeadlockSuspected, exec_takeBudgetSpent,
      execTakeBudgetSpent, exec_joinArrival, execJoinArrival, exec_sendQueueEntryFreed, execSendQueueEntryFreed,
      exec_recruitmentAnswer, execRecruitmentAnswer, exec_spawnArrival, execSpawnArrival, exec_spawnRetry,
      execSpawnRetry, exec_quiesceAck, execQuiesceAck, exec_killAcceptance, execKillAcceptance, exec_barrierEvent,
      execBarrierEvent, exec_barrierHoldRetry, execBarrierHoldRetry, exec_convOpStart, execConvOpStart,
      exec_convOpComplete, execConvOpComplete, exec_vtakenoRead, execVtakenoRead, exec_vcauseRead, execVcauseRead,
      exec_messagePortSend, execMessagePortSend, exec_messagePortStatusRead, execMessagePortStatusRead,
      exec_hashmaskWrite, execHashmaskWrite, exec_domselWrite, execDomselWrite, exec_l2ctlWrite, execL2ctlWrite,
      exec_domstatRead, execDomstatRead, exec_domainSwitchApply, execDomainSwitchApply, exec_losingSliceSignal,
      execLosingSliceSignal, exec_domainSwitchEnd, execDomainSwitchEnd, exec_invpgAck, execInvpgAck,
      exec_pageMigration, execPageMigration, exec_uncorrectableError, execUncorrectableError, exec_tileRetire,
      execTileRetire, exec_guestSubmit, execGuestSubmit, exec_guestCompletion, execGuestCompletion, exec_guestFault,
      execGuestFault, exec_guestRequestTimeout, execGuestRequestTimeout, exec_guestPreemptRequest,
      execGuestPreemptRequest, exec_guestPreemptTimeout, execGuestPreemptTimeout, exec_guestAccess, execGuestAccess,
      exec_mirrorMarkerSend, execMirrorMarkerSend, exec_mirrorMarkerArrival, execMirrorMarkerArrival,
      exec_unreconciledTake, execUnreconciledTake, exec_takeDigestSend, execTakeDigestSend, exec_takeDigestArrival,
      execTakeDigestArrival, exec_digestTimeout, execDigestTimeout, exec_heartbeatSend, execHeartbeatSend,
      exec_heartbeatArrival, execHeartbeatArrival, exec_heartbeatMiss, execHeartbeatMiss, exec_governorSample,
      execGovernorSample, exec_thermalSample, execThermalSample, exec_powerFailWarning, execPowerFailWarning,
      exec_drainExpiry, execDrainExpiry, exec_reelWrite, execReelWrite, exec_reelRestart, execReelRestart,
      exec_hostDoorbell, execHostDoorbell, exec_hostApertureAccess, execHostApertureAccess, exec_claimOwnership,
      execClaimOwnership, exec_advanceVersion, execAdvanceVersion, exec_splitDomain, execSplitDomain,
      exec_handlerPublish, execHandlerPublish, exec_matrixOpStart, execMatrixOpStart, exec_matrixOpComplete,
      execMatrixOpComplete, exec_ringOperationAtOwner, execRingOperationAtOwner, exec_reshapeComplete,
      execReshapeComplete, exec_treeResult, execTreeResult]
    repeat' split
    all_goals exact endsInNext_next _
  all_goals exact issueWith_answers ..

/-- A bundle whose first word a sequence captures. -/
theorem capturePair_answers (s : State) (c a : Instr) : EndsInNext (capturePair s c a) := by
  obtain ⟨t, ht⟩ := exec_answers c s
  simp only [capturePair, ht]
  split <;> exact endsInNext_next _

theorem runPair_answers (s : State) (c a : Instr) : EndsInNext (runPair s c a) := by
  obtain ⟨t, ht⟩ := exec_answers c s
  obtain ⟨u, hu⟩ := exec_answers a s
  unfold runPair
  split
  · exact exec_answers a s
  split
  · exact exec_answers c s
  split
  · exact capturePair_answers s c a
  simp only [ht, hu]
  repeat' split
  all_goals exact endsInNext_next _

theorem runWords_answers (s : State) (w0 w1 : Nat) : EndsInNext (runWords s w0 w1) := by
  unfold runWords
  split
  · exact endsInNext_next _
  · exact exec_answers ..
  · split <;> exact endsInNext_next _
  · split
    · exact endsInNext_next _
    · split
      · exact endsInNext_next _
      · split
        · exact endsInNext_next _
        · split
          · exact endsInNext_next _
          · exact runPair_answers ..
        · exact endsInNext_next _

theorem runBundle_answers (s : State) (k : CtxKey) : EndsInNext (runBundle s k) := by
  simp only [runBundle]
  split
  · exact runWords_answers ..
  · exact endsInNext_next _

theorem issueNext_answers (s : State) (k : CtxKey) : EndsInNext (issueNext s k) := by
  obtain ⟨t, ht⟩ := runBundle_answers s k
  simp only [issueNext, ht]
  exact endsInNext_next _

theorem runTurn_answers (s : State) : (t : Turn) → EndsInNext (runTurn s t)
  | .issue k => issueNext_answers s k
  | .event i => exec_answers i s

theorem perform_answers (s : State) : (c : Choice) → EndsInNext (perform s c)
  | .input i => by
    simp only [perform]
    split
    · exact exec_answers ..
    · exact endsInNext_next _
  | .own i => exec_answers i s
  | .issue k => issueNext_answers s k
  | .outer _ => endsInNext_next _
  | .chore _ => endsInNext_next _

theorem chooseStep_answers (s : State) : EndsInNext (chooseStep s) := by
  simp only [chooseStep]
  split
  · exact perform_answers ..
  · exact endsInNext_next _

theorem step_answers (s : State) : EndsInNext (step s) := by
  unfold step
  split
  · exact runTurn_answers ..
  · exact chooseStep_answers s

/-- Settles O55: a case for each instruction and event, and a lemma for each layer of the step over them. -/
theorem everyStepAnswers : Obligations.EveryStepAnswers := ⟨exec_answers, step_answers⟩

end Sys2Proof.Proofs
end

section
/-! PROOF of O54. A step is the issue of the bundle at the program counter, the event whose turn it is, or one of the choices:
one lemma for each of the layers fetch, decoding, pair, issue and choice. -/

namespace Sys2Proof.Proofs

open Sys2Proof.Machine Sys2Proof.Laws

/-! ### The words of a bundle -/

/-- A 64-bit instruction without a fault of its words is executed. -/
theorem runWords_one {s : State} {w0 w1 : Nat} {i : Instr}
    (h : decodeBundle ((curCtx s).st 9) w0 w1 = .one (.ok i)) : runWords s w0 w1 = exec i s := by
  simp only [runWords, h]

/-- A pair without a fault of its words, a refused capture or a common destination is run as a pair. -/
theorem runWords_two {s : State} {w0 w1 : Nat} {c a : Instr}
    (h : decodeBundle ((curCtx s).st 9) w0 w1 = .two (.ok c) (.ok a)) (hc : wordFault (form c) s = none)
    (ha : wordFault (form a) s = none) (hcap : captureFaults s w1 (.ok a) = false) (hclash : clash (curCtx s) c a = false) :
    runWords s w0 w1 = runPair s c a := by
  simp [runWords, h, staticFault, hc, ha, hcap, hclash]

theorem runPair_nop (s : State) (a : Instr) : runPair s .nop a = exec a s := rfl

theorem isNop_eq_false {c : Instr} (h : c ≠ .nop) : isNop c = false := by
  unfold isNop
  split
  · exact absurd rfl h
  · rfl

theorem runPair_anop (s : State) {c : Instr} (h : c ≠ .nop) : runPair s c .anop = exec c s := by
  simp [runPair, isNop_eq_false h, isAnop]

/-! ### The issue -/

/-- The step of a context whose turn it is: the fetched words, and the round robin moved on. -/
theorem step_of_fetch {s t x : State} {k : CtxKey} {v : Nat} (hturn : s.turn = some (.issue k))
    (hf : fetch { s with turn := none, cur := k, latch := none } = .ok (t, v))
    (hx : runWords t (v % 2 ^ 32) (v / 2 ^ 32) = .next x) : step s = .next (moveOn { s with turn := none } x k) := by
  simp only [step, hturn, runTurn, issueNext, runBundle, hf, hx]

theorem moveOn_of_issued {s t : State} (k : CtxKey) (h : t.last = .committed ∨ t.last = .trapped) :
    moveOn s t k = modCore t k.agent fun co => { co with rrPos := posOf (getCtx s k) } := if_pos h

theorem moveOn_of_not_issued {s t : State} (k : CtxKey) (hc : t.last ≠ .committed) (ht : t.last ≠ .trapped) :
    moveOn s t k = t := if_neg (not_or.2 ⟨hc, ht⟩)

/-! ### The fetch -/

/-- A bundle that the fetch cache does not hold is read from memory and kept there. -/
theorem fetchWord_of_uncached {s : State} {pa : Nat} (h : (curCore s).icache.find? (·.1 == pa) = none) :
    fetchWord s pa = (modCurCore s fun co => { co with icache := aset pa (readN s.mem pa 8) co.icache }, readN s.mem pa 8) := by
  simp only [fetchWord, h]

theorem fetch_of_body {s : State} {w : Nat} (h : fetchBody s = some w) : fetch s = .ok (s, w) := by
  simp only [fetch, h]

/-- A bundle at a physical address whose home answers and whose sector is whole. -/
theorem fetch_of_memory {s q : State} {pa pol lvl : Nat} (hb : fetchBody s = none) (hpc : 4096 ≤ (curCtx s).pc)
    (hr : resolve s s.cur.agent (curCtx s).asid (curLevel s == 0) (w64 (curCtx s).pc) 2 .fetch = .ok (q, .phys pa pol lvl))
    (hbusy : homeBusy q pa = false) (hok : failedIn q pa 8 = none) : fetch s = .ok (fetchWord q pa) := by
  simp [fetch, hb, Nat.not_lt.2 hpc, hr, hbusy, loadCheck, hok, Bind.bind, Except.bind]

/-! ### The choice -/

theorem chooseStep_of_empty {s : State} (h : choices s = []) : chooseStep s = .next s := by
  simp [chooseStep, h]

/-- Where something may happen, the choice picks one of the things that may. -/
theorem chooseStep_of_nonempty {s : State} (h : choices s ≠ []) :
    ∃ c ∈ choices s, chooseStep s = perform { s with fresh := s.fresh + 1 } c := by
  have hlt : Config.pick s.fresh % (choices s).length < (choices s).length :=
    Nat.mod_lt _ (List.length_pos_iff.2 h)
  refine ⟨_, List.getElem_mem hlt, ?_⟩
  simp only [chooseStep, List.getElem?_eq_getElem hlt]

theorem step_unfixed {s : State} (h : s.turn = none) : step s = chooseStep s := by
  simp only [step, h]

/-- Settles O54, from the lemmas about the layers of a step. -/
theorem stepRunsTheDecodedInstruction : Obligations.StepRunsTheDecodedInstruction := by
  intro s t k v
  refine ⟨fun hturn hf => ⟨fun i x hd hx => ?_, fun c a x hd hc ha hcap hclash hx => ?_⟩, runPair_nop t,
    fun c => runPair_anop t, fun x => ⟨moveOn_of_issued k, moveOn_of_not_issued k⟩, ?_, fun w => fetch_of_body, ?_, ?_, ?_, ?_⟩
  · exact step_of_fetch hturn hf ((runWords_one hd).trans hx)
  · exact step_of_fetch hturn hf ((runWords_two hd hc ha hcap hclash).trans hx)
  · intro q pa pol lvl hb hpc hr hbusy hok hic
    rw [fetch_of_memory hb hpc hr hbusy hok, fetchWord_of_uncached hic]
  · intro i hturn
    simp only [step, hturn, runTurn]
  · exact fun hturn h => (step_unfixed hturn).trans (chooseStep_of_empty h)
  · intro hturn h
    obtain ⟨c, hc, hs⟩ := chooseStep_of_nonempty (s := s) (by simp [h])
    rw [h, List.mem_singleton] at hc
    rw [step_unfixed hturn, hs, hc, perform]
  · intro hturn h
    obtain ⟨c, hc, hs⟩ := chooseStep_of_nonempty h
    exact ⟨c, hc, (step_unfixed hturn).trans hs⟩

end Sys2Proof.Proofs
end

section
/-! PROOF of O60. The words of a bundle of zeros, the trap of its word 1, and what trap entry leaves. -/

namespace Sys2Proof.Proofs

open Sys2Proof.Machine Sys2Proof.Laws

/-- Word 1 of a bundle of zeros is a C-class word. -/
theorem runWords_zero (s : State) : runWords s 0 0 = .next (wordTrap s 1 0x01 (encTval 0 2 false)) := by
  have hd (compat : Bool) : decodeBundle compat 0 0 = .malformed 1 2 1 := rfl
  simp [runWords, hd]

/-- Outside a handler, with a handler's address set, a cause enters the handler. -/
theorem takeTrap_enters {s : State} {k : CtxKey} (ht : (getCtx s k).inTrap = false) (hv : (getCtx s k).tvec ≠ 0)
    (code : Nat) (tval : Word) (epc : Nat) (async : Bool) :
    takeTrap s k code tval epc async = setCtx s k ((getCtx s k).enterTrap code tval epc async) := by
  have hv : ((getCtx s k).tvec == 0) = false := beq_false_of_ne hv
  simp only [takeTrap, ht, hv, Bool.or_self, Bool.false_eq_true, if_false]

/-- Outside a gate and with nothing in flight, a word's cause is taken as a trap of its context. -/
theorem wordTrap_takes {s : State} (hl : s.latch = none) (hq : (curCtx s).quiet = true) (hf : (curCtx s).frames = [])
    (slot code : Nat) (tval : Word) :
    wordTrap s slot code tval = { takeTrap s s.cur code tval ((curCtx s).pc + slot) false with last := .trapped } := by
  have hop : opCtx s = curCtx s := by simp [opCtx, hl]
  have hd : (curCtx s).depth = 0 := by simp [Ctx.depth, hf]
  simp [wordTrap, raisePrecise, trapHeld, hop, hd, hq]

/-- The round robin of a core is no part of a context. -/
theorem moveOn_same (s t : State) (k : CtxKey) : SameArch t (moveOn s t k) := by
  unfold moveOn
  split
  · exact same_modCore t k.agent _
  · exact SameArch.refl t

theorem moveOn_last (s t : State) (k : CtxKey) : (moveOn s t k).last = t.last := by
  unfold moveOn
  split <;> rfl

/-- The address above a bundle's own is odd. -/
theorem epc_odd {pc : Nat} (h : pc % 8 = 0) : (w64 (pc + 1)).getLsbD 0 = true := by
  simp only [w64, BitVec.getLsbD_ofNat, Nat.testBit_zero]
  simp
  omega

theorem readN_of_zeros (m : List Host.Cell) (n : Nat) :
    ∀ pa : Nat, (∀ i : Nat, i < n → readByte m (pa + i) = 0) → readN m pa n = 0 := by
  induction n with
  | zero => intros; rfl
  | succ n ih =>
    intro pa h
    have hhead : readByte m pa = 0 := h 0 (Nat.succ_pos n)
    have htail : readN m (pa + 1) n = 0 := ih (pa + 1) fun i hi => by
      rw [Nat.add_assoc, Nat.add_comm 1 i]
      exact h (i + 1) (Nat.succ_lt_succ hi)
    rw [readN, hhead, htail]
    rfl

/-- Settles O60: word 1 traps with subcode 2, the trap is taken at once, and its entry sets the registers named. -/
theorem zeroBundleTraps : Obligations.ZeroBundleTraps := by
  intro s t k
  refine ⟨fun _ _ => rfl, fun hturn hf hl hpc hlt hq hfr ht hv => ?_, fun m pa => readN_of_zeros m 8 pa⟩
  have hwords : runWords t (0 % 2 ^ 32) (0 / 2 ^ 32) = .next (wordTrap t 1 0x01 (encTval 0 2 false)) := runWords_zero t
  have hstep := step_of_fetch hturn hf hwords
  rw [wordTrap_takes hl hq hfr, takeTrap_enters ht hv] at hstep
  refine ⟨_, hstep, ?_⟩
  rw [moveOn_last, (moveOn_same _ _ _).curCtx]
  have hctx (x : Ctx) (l : IssueResult) : curCtx { setCtx t t.cur x with last := l } = x := getCtx_setCtx_same t t.cur x
  rw [hctx]
  have hdepth : (getCtx t t.cur).depth = 0 := congrArg List.length hfr
  exact ⟨rfl, by simp [Ctx.enterTrap, hdepth, b2n, w64], rfl, rfl, epc_odd hpc, rfl⟩

end Sys2Proof.Proofs
end

section
/-! PROOF of O25 and O28. An instruction that issues in a bundle commits with its own effect, so each form's statement comes
down to that effect: a lemma for each operation that the effects share. -/

namespace Sys2Proof.Proofs

open Sys2Proof.Machine Sys2Proof.Laws

/-! ### From an own effect to its commit -/

theorem commits_of_effect {i : Instr} {body : Effect} {s t : State} {d : Done}
    (hi : exec i s = issue (form i) body s) (h : Ready (form i) s t) (hb : body t = .ok d) : Commits i s d :=
  hi.trans (issue_commits h hb)

theorem answersIf_of_effect {i : Instr} {body : Effect} {pre : State → Prop} {eff : State → Done}
    (hi : ∀ s, exec i s = issue (form i) body s) (hb : ∀ t, pre t → body t = .ok (eff t)) : AnswersIf i pre eff :=
  fun s t h hp => commits_of_effect (hi s) h (hb t hp)

theorem answers_of_effect {i : Instr} {body : Effect} {eff : State → Done}
    (hi : ∀ s, exec i s = issue (form i) body s) (hb : ∀ t, body t = .ok (eff t)) : Answers i eff :=
  fun s t h => commits_of_effect (hi s) h (hb t)

/-! ### END and YIELD -/

/-- Outside a gate, with no sequencer, completion interrupt or recruitment outstanding, END waits for nothing. -/
theorem endCheck_ok {t : State} (hd : (opCtx t).depth = 0) (hq : (opCtx t).seqr = none) (hc : (opCtx t).cpyOpen = 0)
    (hr : recruiting t = false) : endCheck t = .ok () := by
  simp [endCheck, hd, hq, hc, hr]

/-- The resume flag and slate of a task that no spawn has started. -/
theorem setResume_of_not_spawned {t : State} (h : (opCtx t).spawned = false) :
    setResume t = match (opCtx t).queue with
      | some q => modQueue t t.cur.agent q fun x => { x with resume := true, resumeSlate := (opCtx t).slate }
      | none => t := by
  cases hq : (opCtx t).queue with
  | none => simp only [setResume, hq]
  | some q => simp only [setResume, hq, h, Bool.false_eq_true, if_false]

/-- The slot of an activation that ends on a tile core is idle, with its generation. -/
theorem getCtx_endActivation_tile (s : State) (n k : Nat) :
    getCtx (endActivation s ⟨.tile n, k⟩) ⟨.tile n, k⟩ = { Ctx.idle with gen := (getCtx s ⟨.tile n, k⟩).gen } := by
  have hkeep : getCtx (keepTiles s ⟨.tile n, k⟩) ⟨.tile n, k⟩ = getCtx s ⟨.tile n, k⟩ := rfl
  show getCtx (releaseCtx (keepTiles s ⟨.tile n, k⟩) ⟨.tile n, k⟩) ⟨.tile n, k⟩ = _
  rw [releaseCtx, getCtx_setCtx_same, hkeep]

/-! ### Fences -/

theorem release_ok {t : State} {sc : Scope} (h : released (startWriteBacks t sc) sc = true) :
    release t sc = .ok (startWriteBacks t sc) := by
  simp only [release, h, if_true]

theorem acquire_ok {t : State} {sc : Scope} (ha : accessesOut (curCtx t) = false) (hs : sinksOut t t.cur = false) :
    acquire t sc = .ok (acquireNow t sc) := by
  simp [acquire, ha, hs]

/-- What has completed for a release holds no acquire. -/
theorem not_out_of_released {t : State} {sc : Scope} (h : released t sc = true) :
    accessesOut (curCtx t) = false ∧ sinksOut t t.cur = false := by
  simp only [released, Bool.and_eq_true, Bool.not_eq_true'] at h
  obtain ⟨⟨⟨⟨⟨ha, hs⟩, _⟩, _⟩, _⟩, _⟩ := h
  exact ⟨ha, hs⟩

theorem fenceAr_ok {t : State} {sc : Scope} (h : released (startWriteBacks t sc) sc = true) :
    fenceAr t sc = .ok (acquireNow (startWriteBacks t sc) sc) := by
  obtain ⟨ha, hs⟩ := not_out_of_released h
  simp only [fenceAr, release_ok h, Bind.bind, Except.bind, acquire_ok ha hs]

/-! ### SNAP -/

/-- A snapshot that is taken has the next number. -/
theorem snapshot_seq {t : State} (h : t.dev.snap.held = false) (src : BitVec 4) :
    (snapshot t src).dev.snap.seq = t.dev.snap.seq + 1 := by
  simp only [snapshot, h, Bool.false_eq_true, if_false]
  rfl

theorem snapOp_taken {t : State} (d : GReg) (he : t.dev.snap.swEn = true) (hh : t.dev.snap.held = false) :
    snapOp d t = .ok (goesOn (wgSlow (snapshot t 1) d ((t.dev.snap.seq + 1).zeroExtend 64))) := by
  simp [snapOp, he, hh, snapshot_seq hh, Machine.ok, goesOn]

theorem snapOp_not_taken {t : State} (d : GReg) (h : t.dev.snap.swEn = false ∨ t.dev.snap.held = true) :
    snapOp d t = .ok (goesOn (wgSlow t d (w64 (2 ^ 63 + t.dev.snap.seq.toNat)))) := by
  have hno : (t.dev.snap.swEn && !t.dev.snap.held) = false := by
    obtain h | h := h <;> simp [h]
  simp only [snapOp, hno, Bool.false_eq_true, if_false]
  rfl

/-- Settles O25, from the lemmas about END's check, the fences and the snapshot. -/
theorem systemInstructionsAnswer : Obligations.SystemInstructionsAnswer := by
  intro sc d
  refine ⟨answers_of_effect (fun _ => rfl) fun _ => rfl, fun _ _ _ _ => answers_of_effect (fun _ => rfl) fun _ => rfl,
    answersIf_of_effect (fun _ => rfl) ?_, answersIf_of_effect (fun _ => rfl) ?_, getCtx_endActivation_tile,
    answersIf_of_effect (fun _ => rfl) ?_, answersIf_of_effect (fun _ => rfl) ?_, answersIf_of_effect (fun _ => rfl) ?_,
    answers_of_effect (fun _ => rfl) fun _ => rfl, answersIf_of_effect (fun _ => rfl) ?_,
    answersIf_of_effect (fun _ => rfl) ?_, answers_of_effect (fun _ => rfl) fun _ => rfl,
    answers_of_effect (fun _ => rfl) fun _ => rfl, answers_of_effect (fun _ => rfl) fun _ => rfl⟩
  · rintro t ⟨hd, hq, hc, hr⟩
    simp only [endCheck_ok hd hq hc hr, Bind.bind, Except.bind]
    rfl
  · rintro t ⟨hd, hq, hc, hr, hs⟩
    simp only [endCheck_ok hd hq hc hr, Bind.bind, Except.bind, setResume_of_not_spawned hs]
    rfl
  · intro t h
    simp only [release_ok h, Bind.bind, Except.bind]
    rfl
  · rintro t ⟨ha, hs⟩
    simp only [acquire_ok ha hs, Bind.bind, Except.bind]
    rfl
  · intro t h
    simp only [fenceAr_ok h, Bind.bind, Except.bind]
    rfl
  · rintro t ⟨he, hh⟩
    exact snapOp_taken d he hh
  · exact fun t h => snapOp_not_taken d h

end Sys2Proof.Proofs
end

section
/-! PROOF of O28. SYSR and SYSW below 0x200 are `readSys` and `writeSys`, and above it `readDev` and `writeDev`: the named
registers are their branches, and the rest are lemmas about those four functions. -/

namespace Sys2Proof.Proofs

open Sys2Proof.Machine Sys2Proof.Laws

/-! ### SYSR -/

theorem sysrOp_core (d : GReg) {n : Nat} (h : n < 0x200) (t : State) :
    sysrOp d n t = .ok (goesOn (wgSlow (readSys t n).2 d (readSys t n).1)) := by
  simp only [sysrOp, h, if_true]
  rfl

theorem sysrOp_device (d : GReg) {n : Nat} (h : 0x200 ≤ n) (t : State) :
    sysrOp d n t = .ok (goesOn (wgSlow (readDev t (agentNo t.cur.agent) n).2 d (readDev t (agentNo t.cur.agent) n).1)) := by
  simp only [sysrOp, Nat.not_lt.2 h, if_false]
  rfl

/-- A system register whose value leaves the state as it is. -/
theorem sysr_answers (d : GReg) (n : BitVec 10) (h : n.toNat < 0x200) :
    Answers (.sysr d n) fun t => goesOn (wgSlow (readSys t n.toNat).2 d (readSys t n.toNat).1) :=
  answers_of_effect (fun _ => rfl) (sysrOp_core d h)

/-- An unassigned number reads 0. -/
theorem readSys_unassigned (n : Nat) (t : State) (h : n = 0x00B ∨ (0x106 ≤ n ∧ n < 0x120) ∨ (0x149 ≤ n ∧ n < 0x200)) :
    readSys t n = (0, t) := by
  rw [readSys]
  · have hwatch : ¬ (0x120 ≤ n ∧ n < 0x128) := by omega
    have hwindow : ¬ (0x140 ≤ n ∧ n < 0x148) := by omega
    have hctl : n ≠ 0x148 := by omega
    simp only [hwatch, hwindow, hctl, if_false, ite_self]
  all_goals omega

/-! ### SYSW -/

theorem syswOp_core (a : GReg) {n : Nat} (h : n < 0x200) (t : State) :
    syswOp n a t = .ok (goesOn (writeSys t n (rg t a))) := by
  simp only [syswOp, h, if_true]
  rfl

theorem syswOp_device (a : GReg) {n : Nat} (h : 0x200 ≤ n) {t u : State}
    (hu : writeDev t (agentNo t.cur.agent) n (rg t a) = .ok u) : syswOp n a t = .ok (goesOn u) := by
  simp only [syswOp, Nat.not_lt.2 h, if_false, hu]
  rfl

theorem sysw_answers (n : BitVec 10) (a : GReg) (h : n.toNat < 0x200) :
    Answers (.sysw n a) fun t => goesOn (writeSys t n.toNat (rg t a)) :=
  answers_of_effect (fun _ => rfl) (syswOp_core a h)

/-- A write of a read-only register changes nothing. -/
theorem writeSys_readOnly {n : Nat} (h : n ∈ [0, 1, 2, 3, 4, 6, 7, 9, 10]) (t : State) (v : Word) : writeSys t n v = t := by
  simp only [List.mem_cons, List.not_mem_nil, or_false] at h
  rw [writeSys]
  · have hwatch : ¬ (0x120 ≤ n ∧ n < 0x128) := by omega
    have hwindow : ¬ (0x140 ≤ n ∧ n ≤ 0x148) := by omega
    simp only [hwatch, hwindow, if_false, ite_self]
  all_goals omega

/-- Only a domain switch and a full mailbox hold a write of a device register. -/
theorem writeDev_ok {n : Nat} {t : State} (k : Nat) (v : Word) (hn : n ≠ 0x30C)
    (h : t.dev.dom.switch = none ∨ ¬((0x200 ≤ n ∧ n ≤ 0x210) ∨ (0x220 ≤ n ∧ n < 0x23E))) : ∃ u, writeDev t k n v = .ok u := by
  have hswitch : ¬ (((0x200 ≤ n ∧ n ≤ 0x210) ∨ (0x220 ≤ n ∧ n < 0x23E)) ∧ t.dev.dom.switch.isSome = true) := by
    obtain h | h := h
    · simp [h]
    · exact fun hd => h hd.1
  simp only [writeDev, hswitch, if_false]
  repeat' split
  all_goals try contradiction
  all_goals exact ⟨_, rfl⟩

theorem storedBits_bit {i : Nat} (hi : i < 64) : (0xF00#64).getLsbD i = decide (8 ≤ i ∧ i < 12) := by
  interval_cases i <;> rfl

theorem lostBit_bit {i : Nat} (hi : i < 64) : (w64 (2 ^ 15)).getLsbD i = decide (i = 15) := by
  interval_cases i <;> rfl

/-- A field of a word replaced. -/
theorem replaceStored_bit (old v : Word) {i : Nat} (hi : i < 64) :
    ((old &&& ~~~(0xF00#64)) ||| (v &&& 0xF00#64)).getLsbD i = if 8 ≤ i ∧ i < 12 then v.getLsbD i else old.getLsbD i := by
  by_cases h : 8 ≤ i ∧ i < 12 <;>
    simp only [BitVec.getLsbD_or, BitVec.getLsbD_and, BitVec.getLsbD_not, storedBits_bit hi, hi, h] <;> simp

/-- The bits of STATUS that a write stores, and the one that it clears. -/
theorem statusWrite_bits (old v : Word) {i : Nat} (hi : i < 64) : (statusWrite old v).getLsbD i =
    if 8 ≤ i ∧ i < 12 then v.getLsbD i else old.getLsbD i && !(i == 15 && v.getLsbD 15) := by
  simp only [statusWrite]
  cases v.getLsbD 15 with
  | false => simp only [Bool.false_eq_true, if_false, replaceStored_bit old v hi, Bool.and_false, Bool.not_false, Bool.and_true]
  | true =>
    simp only [if_true, stSet, Bool.false_eq_true, if_false, BitVec.getLsbD_and, BitVec.getLsbD_not, lostBit_bit hi,
      replaceStored_bit old v hi]
    by_cases h : 8 ≤ i ∧ i < 12
    · have hne : i ≠ 15 := by omega
      simp [h, hi, hne]
    · simp [h, hi, beq_eq_decide]

/-- Settles O28: each named register is its own branch of the two functions. -/
theorem systemRegistersAnswer : Obligations.SystemRegistersAnswer := by
  unfold Obligations.SystemRegistersAnswer
  refine ⟨fun d => ?_, fun a => ?_⟩
  · refine ⟨?_, ?_, ?_, ?_, ?_, ?_, ?_, ?_, ?_, ?_, ?_, ?_, sysr_answers d, fun n h => answers_of_effect (fun _ => rfl) (sysrOp_device d h),
      readSys_unassigned⟩
    all_goals exact sysr_answers d _ (by decide)
  · refine ⟨?_, ?_, ?_, ?_, ?_, ?_, ?_, ?_, fun n => sysw_answers n a, fun n h => ?_, ?_, fun n t k v hn => writeDev_ok k v hn,
      fun old v i => statusWrite_bits old v⟩
    iterate 8 exact sysw_answers _ a (by decide)
    · have hlt : n.toNat < 0x200 := by
        simp only [List.mem_cons, List.not_mem_nil, or_false] at h
        omega
      have hsame (t : State) : syswOp n.toNat a t = .ok (goesOn t) := by rw [syswOp_core a hlt, writeSys_readOnly h]
      exact answers_of_effect (fun _ => rfl) hsame
    · intro n s t u hn h hu
      exact commits_of_effect rfl h (syswOp_device a hn hu)

end Sys2Proof.Proofs
end

section
/-! PROOF of O56. An instruction that commits keeps what its own effect keeps (`issueWith_frame`), so each family comes down to
the registers that its effect writes. The effects of a family are one result, behind faults that leave nothing: a lemma for
each kind of result, and then the instructions by kind. -/

namespace Sys2Proof.Proofs

open Sys2Proof.Machine Sys2Proof.Laws

/-! ### The major of an instruction's word -/

theorem form_major_wR {i : Instr} {M d a b n : Nat} (hf : (form i).major = wR M d a b n / 2 ^ 25 % 64)
    (hb : d < 32 ∧ a < 32 ∧ b < 32 ∧ n < 1024) : (form i).major = M % 64 := by
  obtain ⟨hd, ha, hb, hn⟩ := hb
  rw [hf, show (2 : Nat) ^ 25 = 0x2000000 from rfl, major_wR hd ha hb hn]

theorem form_major_wP {i : Instr} {M d a b op par : Nat} (hf : (form i).major = wP M d a b op par / 2 ^ 25 % 64)
    (hb : d < 32 ∧ a < 32 ∧ b < 32 ∧ op < 32 ∧ par < 32) : (form i).major = M % 64 := by
  obtain ⟨hd, ha, hb, ho, hp⟩ := hb
  rw [hf, show (2 : Nat) ^ 25 = 0x2000000 from rfl, major_wP hd ha hb ho hp]

theorem form_major_wM {i : Instr} {M d a sz imm : Nat} (hf : (form i).major = wM M d a sz imm / 2 ^ 25 % 64)
    (hb : d < 32 ∧ a < 32 ∧ sz < 8 ∧ imm < 0x1000) : (form i).major = M % 64 := by
  obtain ⟨hd, ha, hs, hi⟩ := hb
  rw [hf, show (2 : Nat) ^ 25 = 0x2000000 from rfl, major_wM hd ha hs hi]

theorem roundedMinor_lt {op : Nat} (h : op < 32) (l : Lanes) (r : Rnd) : opPar op (lanesCode l * 8 + rndCode r) < 1024 := by
  have hl := lanesCode_lt l
  have hr := rndCode_lt r
  unfold opPar
  omega

theorem lanesMinor_lt {op : Nat} (h : op < 32) (l : Lanes) : opPar op (lanesCode l * 8) < 1024 := by
  have hl := lanesCode_lt l
  unfold opPar
  omega

theorem opPar_lt {op par : Nat} (ho : op < 32) (hp : par < 32) : opPar op par < 1024 := by
  unfold opPar
  omega

theorem conversionMinor_lt {op : Nat} (h : op < 32) (code : Fin 26) : opPar op code < 1024 := opPar_lt h (by omega)

theorem cmpPar_lt (l : CmpLanes) (c : Cond) : cmpLanesCode l * 8 + condCode c < 32 := by
  have hl := cmpLanesCode_lt l
  have hc := condCode_lt c
  omega

@[simp] theorem amoPar_lt (p : AmoP) : amoPar p < 32 := Nat.lt_trans (amoPar_fields p).1 (by decide)

theorem not_register {i : Instr} {M : Nat} (h : (form i).major = M) (hM : registerMajor M = false) :
    registerMajor (form i).major ≠ true := by
  rw [h, hM]
  exact Bool.false_ne_true

/-! ### Effects that keep everything but their destinations -/

/-- What an own effect keeps: it changes the registers that the form writes, and with `fl` the floating-point flags. -/
def Keeps (f : Form) (fl : Bool) (u : State) (d : Done) : Prop :=
  d.ended = false ∧ KeepsRegs f.gw f.gr f.fw f.mw fl u d.s ∧ d.s.mem = u.mem ∧ d.s.full = u.full

/-- An effect that keeps it wherever it succeeds. -/
def Frames (f : Form) (fl : Bool) (body : Effect) : Prop := ∀ u d, body u = .ok d → Keeps f fl u d

section
variable {f : Form} {fl : Bool}

/-- An effect whose result keeps it. -/
theorem frames_of_result {body : Effect} {eff : State → Done} (hb : ∀ u, body u = .ok (eff u)) (h : ∀ u, Keeps f fl u (eff u)) :
    Frames f fl body := by
  intro u d hd
  rw [hb u] at hd
  cases hd
  exact h u

/-- A precise cause under a condition leaves nothing. -/
theorem frames_unless {c : State → Prop} [∀ u, Decidable (c u)] {code : State → Nat} {tval : State → Word} {body : Effect}
    (h : Frames f fl body) : Frames f fl fun u => if c u then trap (code u) (tval u) else body u := by
  intro u d hd
  simp only at hd
  split at hd
  · cases hd
  · exact h u d hd

theorem keeps_goesOn_self (u : State) : Keeps f fl u (goesOn u) := ⟨rfl, keepsRegs_refl .., rfl, rfl⟩

theorem frames_wg {d : GReg} (h : d ∈ f.gw) (v : State → Word) : Frames f fl fun u => ok (wg u d (v u)) :=
  frames_of_result (fun _ => rfl) fun u => ⟨rfl, keeps_wg u (v u) h, rfl, rfl⟩

theorem frames_wgSlow {d : GReg} (h : d ∈ f.gw) (v : State → Word) : Frames f fl fun u => ok (wgSlow u d (v u)) :=
  frames_of_result (fun _ => rfl) fun u => ⟨rfl, keeps_wgSlow u (v u) h, rfl, rfl⟩

theorem frames_wm {d : MReg} (h : d ∈ f.mw) (v : State → BitVec 16) : Frames f fl fun u => ok (wm u d (v u)) :=
  frames_of_result (fun _ => rfl) fun u => ⟨rfl, keeps_wm u (v u) h, rfl, rfl⟩

theorem frames_wf {d : FReg} (h : d ∈ f.fw) (v : State → Vec) : Frames f fl fun u => ok (wf u d (v u)) :=
  frames_of_result (fun _ => rfl) fun u => ⟨rfl, keeps_wf u (v u) h, wf_mem u d (v u)⟩

theorem frames_wfSlow {d : FReg} (h : d ∈ f.fw) (v : State → Vec) : Frames f fl fun u => ok (wfSlow u d (v u)) :=
  frames_of_result (fun _ => rfl) fun u => ⟨rfl, keeps_wfSlow u (v u) h, wf_mem u d (v u)⟩

/-- A branch changes no register. -/
theorem frames_branch (cond : State → Bool) (pc : State → Nat) :
    Frames f fl fun u => if cond u then .ok { s := u, npc := some (pc u) } else ok u := by
  refine frames_of_result (eff := fun u => if cond u then jumpsTo u (pc u) else goesOn u) (fun u => ?_) fun u => ?_
  · split <;> rfl
  · split <;> exact keeps_goesOn_self u

/-- A jump writes its link register. -/
theorem frames_jump {d : GReg} (h : d ∈ f.gw) (v : State → Word) (pc : State → Nat) :
    Frames f fl fun u => .ok { s := wg u d (v u), npc := some (pc u) } :=
  frames_of_result (fun _ => rfl) fun u => ⟨rfl, keeps_wg u (v u) h, rfl, rfl⟩

theorem frames_jalrTo {d : GReg} (h : d ∈ f.gw) (a : GReg) (i : Word) : Frames f fl (jalrTo d a i) :=
  frames_unless (frames_jump h linkPc fun u => (rg u a + i).toNat)

theorem frames_load {code : Nat} {d : GReg} (h : d ∈ f.gw) (hq : code = 7 → nextReg d ∈ f.gw) (a : GReg) (off : Word) :
    Frames f fl (loadOp code d a off) := by
  intro u e he
  simp only [loadOp, Bind.bind, Except.bind] at he
  split at he
  · cases he
  · cases he
    exact ⟨rfl, load_keeps h hq ‹_›⟩

/-- RAND and VRAND count their key up beside their result. -/
theorem frames_rand {d a : GReg} (h : d ∈ f.gw) (ha : a ∈ f.gw) (v w : State → Word) :
    Frames f fl fun u => ok (wgSlow (wg u a (w u)) d (v u)) :=
  frames_of_result (fun _ => rfl) fun u => ⟨rfl, keepsRegs_trans (keeps_wg u (w u) ha) (keeps_wgSlow _ (v u) h), rfl, rfl⟩

theorem frames_vrand {d : FReg} {a : GReg} (h : d ∈ f.fw) (ha : a ∈ f.gw) (b : GReg) : Frames f fl (vrandOp d a b) :=
  frames_of_result (fun _ => rfl) fun u => ⟨rfl, keepsRegs_trans (keeps_wg u _ ha) (keeps_wfSlow _ _ h), wf_mem ..⟩

end

/-! ### Effects that set the floating-point flags -/

section
variable {f : Form}

/-- Flags that are set before a result that keeps what it must. -/
theorem frames_flags {l : State → List FpFlags} {body : State → State → Do Done}
    (h : ∀ u, Frames f true (body u)) : Frames f true fun u => (setFlags u (l u)).bind (body u) := by
  intro u e he
  simp only [Except.bind] at he
  split at he
  · cases he
  · obtain ⟨hr, hm, hf⟩ := keeps_setFlags (gw := f.gw) (gr := f.gr) (fw := f.fw) (mw := f.mw) ‹_›
    obtain ⟨h1, h2, h3, h4⟩ := h u _ e he
    exact ⟨h1, keepsRegs_trans hr h2, h3.trans hm, h4.trans hf⟩

theorem frames_fpVec {d : FReg} (h : d ∈ f.fw) (r : State → Vec × List FpFlags) : Frames f true fun u => fpVec u d (r u) :=
  fun _ _ he => fpVec_keeps h he

/-- A conversion is one floating-point result for each of its four kinds. -/
theorem frames_convert {d : FReg} (h : d ∈ f.fw) (code : Nat) (a : FReg) (mode : State → Nat → RMode) :
    Frames f true fun u => convert code d a (mode u) u := by
  intro u e he
  simp only [convert] at he
  repeat' split at he
  all_goals exact fpVec_keeps h he

/-- A comparison of integers sets no flag, and one of floating-point lanes may. -/
theorem frames_vcmp {d : MReg} (h : d ∈ f.mw) (l : CmpLanes) (c : Cond) (a b : FReg) : Frames f true (vcmpOp l c d a b) := by
  have slow (v : State → BitVec 16) : Frames f true fun u => ok (wmSlow u d (v u)) :=
    frames_of_result (fun _ => rfl) fun u => ⟨rfl, keeps_wmSlow u (v u) h, rfl, rfl⟩
  cases l with
  | i32 => exact slow _
  | u32 => exact slow _
  | f32 => exact frames_flags fun _ => slow fun _ => _
  | bf16 => exact frames_flags fun _ => slow fun _ => _

theorem frames_vred {d : GReg} (h : d ∈ f.gw) (op : RedOp) (a : FReg) : Frames f true (vredOp op d a) :=
  frames_flags fun _ => frames_wgSlow h fun _ => _

theorem frames_cvtfx {d : GReg} (h : d ∈ f.gw) (hn : nextReg d ∈ f.gw) (v : State → Nat) (l : State → List FpFlags) :
    Frames f true fun u => (setFlags u (l u)).bind fun w => ok (inFlight (wgPair w d (v u)) [.g d, .g (nextReg d)]) :=
  frames_flags fun _ => frames_of_result (fun _ => rfl) fun w =>
    ⟨rfl, keepsRegs_trans (keepsRegs_trans (keeps_wg w _ h) (keeps_wg _ _ hn)) (keeps_inFlight _ _), rfl, rfl⟩

end

/-! ### From an effect to its instruction -/

/-- What an instruction that commits keeps. -/
def KeepsRest (i : Instr) : Prop := ∀ s t, exec i s = .next t → t.last = .committed →
  KeepsRegs (form i).gw (form i).gr (form i).fw (form i).mw (decide (0x20 ≤ (form i).major)) s t ∧ KeepsMemoryBut 0 0 s t

theorem keepsMemory_of_eq {s t : State} (hm : t.mem = s.mem) (hf : t.full = s.full) : KeepsMemoryBut 0 0 s t := by
  refine ⟨fun x _ => by rw [hm], fun x => ?_⟩
  simp only [isFull, hf]

theorem keepsRest_of_frames {i : Instr} {cap : Option Instr} {body : Effect}
    (hi : ∀ s, exec i s = issueWith (form i) cap body s) (hb : Frames (form i) (decide (0x20 ≤ (form i).major)) body) :
    KeepsRest i := by
  intro s t h ht
  rw [hi s] at h
  obtain ⟨hr, hm, hf⟩ := issueWith_frame hb (fun _ hq => hq) h ht
  exact ⟨hr, keepsMemory_of_eq hm hf⟩

/-- The same for an instruction of a major from 0x20 on, which may set the flags. -/
theorem keepsRest_of_flags {i : Instr} {cap : Option Instr} {body : Effect} {M : Nat}
    (hi : ∀ s, exec i s = issueWith (form i) cap body s) (hm : (form i).major = M) (h20 : 0x20 ≤ M)
    (hb : Frames (form i) true body) : KeepsRest i := by
  have hfl : decide (0x20 ≤ (form i).major) = true := decide_eq_true (hm ▸ h20)
  exact keepsRest_of_frames hi (hfl ▸ hb)

/-- GADDR writes gd, or raises cause 0x1D. -/
theorem keepsRest_gaddr (d a b : GReg) : KeepsRest (.gaddr d a b) := by
  refine keepsRest_of_frames (fun _ => rfl) fun u e he => ?_
  simp only at he
  split at he
  · cases he
  split at he
  · cases he
  · exact frames_wgSlow (.head _) (fun _ => _) u e he

/-- Every instruction of the register majors keeps the rest. -/
theorem keepsRest_of_registerMajor (i : Instr) (h : registerMajor (form i).major = true) : KeepsRest i := by
  cases i
  case add | sub | and | or | xor | shl | shr | sra | rotl | min | max | minu | maxu | slt | sltu | clz | ctz |
    popc | bswap | sextb | sexth | sextw | zextb | zexth | zextw | sel | addi | addiLong | andi | andiLong | ori |
    oriLong | xori | xoriLong | slti | sltiLong | sltiu | sltiuLong | shli | shliLong | shri | shriLong | srai |
    sraiLong | rotli | rotliLong | movhi | leaScale1 | leaScale2 | leaScale4 | leaScale8 =>
    exact keepsRest_of_frames (fun _ => rfl) (frames_wg (.head _) _)
  case mul | mulh | mulhu =>
    exact keepsRest_of_frames (fun _ => rfl) (frames_wgSlow (.head _) _)
  case div | divu | rem | remu =>
    exact keepsRest_of_frames (fun _ => rfl) (frames_unless (frames_wgSlow (.head _) _))
  case beq | beqLong | bne | bneLong | blt | bltLong | bge | bgeLong | bltu | bltuLong | bgeu | bgeuLong =>
    exact keepsRest_of_frames (fun _ => rfl) (frames_branch _ _)
  case jal | jalLong =>
    exact keepsRest_of_frames (fun _ => rfl) (frames_jump (.head _) _ _)
  case jalr | jalrLong =>
    exact keepsRest_of_frames (fun _ => rfl) (frames_jalrTo (.head _) _ _)
  case ldb | ldbLong | ldh | ldhLong | ldw | ldwLong | ldd | lddLong | ldbu | ldbuLong | ldhu | ldhuLong | ldwu |
    ldwuLong =>
    exact keepsRest_of_frames (fun _ => rfl) (frames_load (.head _) (by simp) _ _)
  case ldq | ldqLong =>
    exact keepsRest_of_frames (fun _ => rfl) (frames_load (.head _) (fun _ => .tail _ (.head _)) _ _)
  case gaddr =>
    exact keepsRest_gaddr _ _ _
  case rand =>
    exact keepsRest_of_frames (fun _ => rfl) (frames_unless (frames_rand (.head _) (.tail _ (.head _)) _ _))
  case cvtfx =>
    exact keepsRest_of_flags (fun _ => rfl) (form_major_wR rfl (by omega)) (by decide)
      (frames_unless (frames_cvtfx (.head _) (.tail _ (.head _)) _ _))
  case cvtxf =>
    exact keepsRest_of_flags (fun _ => rfl) (form_major_wR rfl (by omega)) (by decide)
      (frames_unless (frames_flags fun _ => frames_wgSlow (.head _) fun _ => _))
  case vadd | vsub | vmul | vdiv | vsqrt =>
    exact keepsRest_of_flags (fun _ => rfl) (form_major_wR rfl (by simp [roundedMinor_lt])) (by decide) (frames_fpVec (.head _) _)
  case vmin | vmax | vabs | vneg =>
    exact keepsRest_of_flags (fun _ => rfl) (form_major_wR rfl (by simp [lanesMinor_lt])) (by decide) (frames_fpVec (.head _) _)
  case vfma | vfms | vfnma | vfnms | vrcp | vrsq | vexp2 | vlog2 | vtanh | vsigm =>
    exact keepsRest_of_flags (fun _ => rfl) (form_major_wR rfl (by omega)) (by decide) (frames_fpVec (.head _) _)
  case vscan =>
    exact keepsRest_of_flags (fun _ => rfl) (form_major_wR rfl (by simp [opPar_lt])) (by decide) (frames_fpVec (.head _) _)
  case vcvt | vcvtSr =>
    exact keepsRest_of_flags (fun _ => rfl) (form_major_wR rfl (by simp [conversionMinor_lt])) (by decide)
      (frames_convert (.head _) _ _ _)
  case vcmp =>
    exact keepsRest_of_flags (fun _ => rfl) (form_major_wP rfl (by refine ⟨?_, ?_, ?_, ?_, cmpPar_lt ..⟩ <;> omega)) (by decide)
      (frames_vcmp (.head _) _ _ _ _)
  case vred =>
    exact keepsRest_of_flags (fun _ => rfl) (form_major_wP rfl (by simp)) (by decide)
      (frames_vred (.head _) _ _)
  case vaddI | vsubI | vmulI | vmulhI | vand | vor | vxor | vshl | vshr | vsra | vminI | vmaxI | vminuI | vmaxuI |
    vdot4I8 | vsel | vbcast | vins | vperm =>
    exact keepsRest_of_frames (fun _ => rfl) (frames_wfSlow (.head _) _)
  case vmov =>
    exact keepsRest_of_frames (fun _ => rfl) (frames_wf (.head _) _)
  case mand | mor | mxor | mnot | mmov | mset =>
    exact keepsRest_of_frames (fun _ => rfl) (frames_wm (.head _) _)
  case mpopc | vext =>
    exact keepsRest_of_frames (fun _ => rfl) (frames_wgSlow (.head _) _)
  case vrand =>
    exact keepsRest_of_frames (fun _ => rfl) (frames_vrand (.head _) (.head _) _)
  case feWaitDone | sequencerReplayStep | convOpStart | convOpComplete | matrixOpStart | matrixOpComplete |
    mmrotForward | linkVectorArrival | streamFetch | streamDrain | trapEntry | asyncCauseDelivery |
    copyCompletionInterrupt | singleStep | gateUnwind | activationStart | contextLoad | contextWriteback |
    activationBudgetExpiry | budgetGraceExpiry | deadlockSuspected | takeBudgetSpent | slotExhaustion |
    spilledContextReturn | absentContextMessage | quiesceAck | spawnArrival | spawnRetry | joinArrival |
    depositArrival | depositLanding | parkedReturn | messageArrival | replyArrival | remoteAccessArrival |
    accessReplyArrival | storeAckArrival | refusalArrival | journalTimeout | linkReroute | barrierEvent |
    barrierHoldRetry | ringOperationAtOwner | treeResult | reshapeComplete | copyTransferStart | copyTransferDone |
    copyTransferFault | clapper | egressSwap | frameTransmit | frameIngress | callSheetEntryFire | oneShotFire |
    heartbeatSend | heartbeatArrival | heartbeatMiss | mirrorWrite | mirrorMarkerSend | unreconciledTake |
    takeDigestSend | takeDigestArrival | digestTimeout | pairForm | guestSubmit | guestCompletion | guestFault |
    guestDrained | guestSaved | guestAccess | guestRequestTimeout | guestPreemptRequest | guestPreemptTimeout |
    hostDoorbell | launch | activeMessage | loadCallSheet | releaseQueue | endLaunch | loadImageMaps | openAperture |
    claimOwnership | transferOwnership | advanceVersion | attestationQuote | storeImage | splitDomain |
    hostApertureAccess | hashmaskWrite | domselWrite | l2ctlWrite | domainSwitchApply | losingSliceSignal |
    domainSwitchEnd | domstatRead | pageMigration | invpgAck | uncorrectableError | tileRetire | watchpointTrigger |
    wpctlWrite | wpctlRead | snapshotTrigger | snapshotPin | snaptimeReached | rearm | timectlWrite | takecfgWrite |
    servoStep | lockedChange | timestatErrClear | dtimeDivergence | mapsw | csstatRead | detstatRead |
    pairstatClear | statusLostaClear | governorSample | thermalSample | clrtrip | throttleStepChange | pwrctlWrite |
    powerFailWarning | drainExpiry | reelWrite | reelRestart | coldReset | recoveryMode | firmwareWatchdog | mbxgo |
    mbxpop | kick | mailboxEntryArrival | handlerPublish | vtakenoRead | vcauseRead | voutdone | messagePortSend |
    pops | popv | messagePortStatusRead | resultQueueAppend | continuityLinkDown | guestLinkTraining | epochWrite |
    slewComplete | mirrorMarkerArrival | sendQueueEntryFreed | inFlightWriteLands | writeBackAck | killAcceptance |
    hostAccessTimeout | recruitmentAnswer | nop | anop | endAct | yield | tret | gret =>
    exact absurd h (not_register rfl rfl)
  case poolSet | poolQry | poolPin | poolUnpin | cpy | cpyCancel | cpyStat | scfg | sclose | sstat | ldm | stm |
    vdotI8 | maca | cvtMx | cvtUnmx | rescaleMx | transp | mma | mmaG | mmrot | accClr | accAnch | accRd | accWr |
    accStat | linkCfg | linkStat =>
    exact absurd h (not_register (form_major_wR rfl (by omega)) rfl)
  case stb | stbLong | sth | sthLong | stw | stwLong | std | stdLong | stq | stqLong | ldf | ldfLong | ldc |
    ldcLong | stf | stfLong | stfo | stfoLong | empty | emptyLong | feq | feqLong | vld | vldLong | vst | vstLong |
    vlds | vldsLong | vsts | vstsLong | vgath | vgathLong | vscat | vscatLong | pref | prefLong | cwb | cwbLong |
    cinv | cinvLong | cwbinv | cwbinvLong | cwbL2 | cwbL2Long =>
    exact absurd h (not_register (form_major_wM rfl (by omega)) rfl)
  case hint | syscall | brk | snap | sysr | sysw | gate | slateMin | slateSet | slateRgn | slateRd | slateFold |
    slchk | slchkTrap | time | timeSinceClapper | timeToEgress | kill | invpg | vseq | vseqS | vseqStop | send |
    sendq | sendr | reply | replyQ | cut | putn | getr | getrArm | getrDis | qpop | qpeek | qstat | qstatClr |
    spawn | forkR | join | joinOpen | joinSeal | joinWait | budgetAct | budgetTake | barInit | barTx | barQry |
    ringWaitf | ringWaite | ringAdvp | ringAdvc | ringQry | grpMem | treeWait =>
    exact absurd h (not_register (form_major_wP rfl (by omega)) rfl)
  case amoadd | amoand | amoor | amoxor | amomin | amomax | amominu | amomaxu | amoswap | amocas | fenceRel |
    fenceAcq | fenceAr | ifence | barArr | barWait | barArw | red | scan | bcast =>
    exact absurd h (not_register (form_major_wP rfl (by simp)) rfl)

/-- Settles O56, by the kinds of results of the register majors. -/
theorem registerInstructionsKeepTheRest : Obligations.RegisterInstructionsKeepTheRest :=
  fun i s t h => keepsRest_of_registerMajor i h s t

end Sys2Proof.Proofs
end

section
/-! PROOF of O23. `setFlags` asks for the flags that arise and are enabled in the order of their causes (R65, Table 3.4): one
lemma for each answer. -/

namespace Sys2Proof.Proofs

open Sys2Proof.Machine

/-- The flags of `bits` that arise in some lane and whose traps the instruction's FPCTL enables (Table 3.4). -/
def enabledArising (s : State) (l : List FpFlags) (bits : Nat) : Nat := allFlags l &&& fpEnabled (opCtx s) &&& bits

/-- The one place where `setFlags` is unfolded: a descent through the enabled flags that arise. -/
theorem setFlags_eq_descent (s : State) (l : List FpFlags) :
    setFlags s l =
      if enabledArising s l 8 ≠ 0 then trap 0x21 (w64 (laneMask l 8))
      else if enabledArising s l 4 ≠ 0 then trap 0x22 (w64 (laneMask l 4))
      else if enabledArising s l 2 ≠ 0 then trap 0x23 (w64 (laneMask l 2))
      else if enabledArising s l 1 ≠ 0 then trap 0x24 (w64 (laneMask l 1))
      else .ok (modCur s (·.orFlags (allFlags l))) := by
  simp only [enabledArising, Nat.land_comm (allFlags l)]
  rfl

section
variable {s : State} {l : List FpFlags}

theorem setFlags_invalid (h8 : enabledArising s l 8 ≠ 0) : setFlags s l = trap 0x21 (w64 (laneMask l 8)) := by
  rw [setFlags_eq_descent, if_pos h8]

theorem setFlags_overflow (h8 : enabledArising s l 8 = 0) (h4 : enabledArising s l 4 ≠ 0) :
    setFlags s l = trap 0x22 (w64 (laneMask l 4)) := by
  rw [setFlags_eq_descent, if_neg (not_not.mpr h8), if_pos h4]

theorem setFlags_underflow (h8 : enabledArising s l 8 = 0) (h4 : enabledArising s l 4 = 0) (h2 : enabledArising s l 2 ≠ 0) :
    setFlags s l = trap 0x23 (w64 (laneMask l 2)) := by
  rw [setFlags_eq_descent, if_neg (not_not.mpr h8), if_neg (not_not.mpr h4), if_pos h2]

theorem setFlags_inexact (h8 : enabledArising s l 8 = 0) (h4 : enabledArising s l 4 = 0) (h2 : enabledArising s l 2 = 0)
    (h1 : enabledArising s l 1 ≠ 0) : setFlags s l = trap 0x24 (w64 (laneMask l 1)) := by
  rw [setFlags_eq_descent, if_neg (not_not.mpr h8), if_neg (not_not.mpr h4), if_neg (not_not.mpr h2), if_pos h1]

theorem setFlags_sticky (h8 : enabledArising s l 8 = 0) (h4 : enabledArising s l 4 = 0) (h2 : enabledArising s l 2 = 0)
    (h1 : enabledArising s l 1 = 0) : setFlags s l = .ok (modCur s (·.orFlags (allFlags l))) := by
  rw [setFlags_eq_descent, if_neg (not_not.mpr h8), if_neg (not_not.mpr h4), if_neg (not_not.mpr h2), if_neg (not_not.mpr h1)]

end

/-- Settles O23: the four traps and the sticky flags, in the order of the causes. -/
theorem enabledFlagsTrap : Obligations.EnabledFlagsTrap := fun _ _ =>
  ⟨setFlags_invalid, setFlags_overflow, setFlags_underflow, setFlags_inexact, setFlags_sticky⟩

end Sys2Proof.Proofs
end

section
/-! The start of an activation from a message (R78, R229, Table 10.3): the registers that a list of values is placed in, and the
context that its slot then holds. -/

namespace Sys2Proof.Proofs

open Sys2Proof.Machine Sys2Proof.Laws

/-- A core changed is what a read of that core finds. -/
@[simp] theorem getCore_modCore_same (s : State) (a : Agent) (f : Core → Core) : getCore (modCore s a f) a = f (getCore s a) :=
  getCore_setCore_same ..

/-! ### Registers that hold a list of values -/

/-- A register holds the value that is placed there, and its old value outside the list. -/
theorem getElem_placeRegs (l : List Word) : ∀ (g : Vector Word 32) (lo : Nat), lo + l.length ≤ 32 → ∀ {i : Nat} (hi : i < 32),
    (placeRegs g lo l)[i] = if lo ≤ i then l[i - lo]?.getD g[i] else g[i] := by
  induction l with
  | nil => intro g lo _ i _; simp [placeRegs]
  | cons v l ih =>
    intro g lo hlo i hi
    rw [List.length_cons] at hlo
    have hmod : lo % 32 = lo := Nat.mod_eq_of_lt (by omega)
    rw [placeRegs, ih _ _ (by omega) hi]
    obtain h | rfl | h := Nat.lt_trichotomy i lo
    · simp [hmod, Nat.not_le.mpr h, Nat.ne_of_gt h, Nat.not_le.mpr (Nat.lt_succ_of_lt h)]
    · simp [hmod]
    · obtain ⟨j, rfl⟩ := Nat.exists_eq_add_of_lt h
      have hrest : lo + j + 1 - (lo + 1) = j := by omega
      have hlist : lo + j + 1 - lo = j + 1 := by omega
      simp [hmod, hrest, hlist, Nat.le_of_lt h, Nat.succ_le_of_lt h, Nat.ne_of_lt h]

/-- The registers of a message start: g1 its type and queue, then the values that follow, and 0 beyond them. -/
theorem getElem_startRegs {ty q : Nat} {rest : List Word} (h : rest.length ≤ 30) {i : Nat} (hi : i < 32) :
    (startRegs ty q rest)[i] = if i = 0 then 0 else (w64 (ty % 2 ^ 16 + q * 2 ^ 16) :: rest)[i - 1]?.getD 0 := by
  rw [startRegs, getElem_placeRegs _ _ _ (by rw [List.length_cons]; omega) hi]
  by_cases h0 : i = 0
  · simp [h0]
  · simp [h0, Nat.one_le_iff_ne_zero.mpr h0]

/-! ### The context that a new activation's slot holds -/

/-- What an activation starts with changes the caches of its core and the order of the code heap. -/
theorem startFence_ctxs (s : State) (k : CtxKey) (la : Option Nat) : (startFence s k la).ctxs = s.ctxs := by
  unfold startFence
  dsimp only
  repeat' split
  all_goals rfl

theorem startFence_queues (s : State) (k : CtxKey) (la : Option Nat) :
    (getCore (startFence s k la) k.agent).queues = (getCore s k.agent).queues := by
  unfold startFence
  dsimp only
  repeat' split
  · rfl
  · rfl
  · rfl
  · simp [dropFetched, modCurCore, modCore, setCore, getCore]

@[simp] theorem getCtx_installCtx (s : State) (a : Agent) (slot : Nat) (c : Ctx) : getCtx (installCtx s a slot c) ⟨a, slot⟩ = c := by
  rw [installCtx, getCtx, startFence_ctxs]
  exact getCtx_setCtx_same ..

@[simp] theorem installCtx_queues (s : State) (a : Agent) (slot : Nat) (c : Ctx) :
    (getCore (installCtx s a slot c) a).queues = (getCore s a).queues := by
  rw [installCtx, startFence_queues _ ⟨a, slot⟩]
  simp [useHandler, modDev, setCtx, modCore, setCore, getCore]

/-- A start takes from its launch the ASID, TVEC, the arena and STATUS; the rest of the context does not depend on it. -/
theorem newCtx_fields (s : State) (a : Agent) (slot : Nat) (p : Fin 4) (la : Option Nat) :
    (newCtx s a slot p la).place = .live p ∧ (newCtx s a slot p la).launch = la ∧
    (newCtx s a slot p la).gen = (getCore s a).gens[Fin.ofNat 64 slot] + 1 ∧
    (newCtx s a slot p la).p = BitVec.allOnes 32 ∧ (newCtx s a slot p la).a = 0 := by
  unfold newCtx
  split <;> exact ⟨rfl, rfl, rfl, rfl, rfl⟩

/-! ### A queue whose head is fresh -/

/-- No message is diverted from a queue whose head is not stale (R228). -/
theorem ageQueue_of_fresh {s : State} {a : Agent} {q : Fin 64} (h : staleHead s ((getCore s a).queues[q]) = false) :
    ageQueue s a q = s := by
  unfold ageQueue
  cases ((getCore s a).queues[q]).msgs.length with
  | zero => rfl
  | succ n => simp only [divertStale, h, Bool.false_eq_true, if_false]

/-- A queue changed is what a read of that queue finds. -/
@[simp] theorem getCore_modQueue_queue (s : State) (a : Agent) (q : Fin 64) (f : Queue → Queue) :
    (getCore (modQueue s a q f) a).queues[q.val] = f (getCore s a).queues[q.val] := by
  simp [modQueue]

/-- The context that a message of a queue starts (R78, Table 10.3). -/
def messageCtx (s : State) (a : Agent) (q : Fin 64) (slot : Nat) (p : Fin 4) (m : Message) : Ctx :=
  let x := (getCore s a).queues[q]
  { newCtx s a slot p x.launch with
    pc := x.handler
    pri := x.pri
    queue := some q
    path := BitVec.ofNat 32 (agentNo a * 64 + q.val)
    actLeft := x.actBudget
    actLoaded := x.actBudget
    g := startRegs m.ty.toNat q (m.slate :: m.token :: m.payload)
    slate := m.slate }

/-- The state in which a message of a queue has started an activation: it has left the queue, and a serial queue runs it. -/
def messageStarted (s : State) (a : Agent) (q : Fin 64) (slot : Nat) (p : Fin 4) (m : Message) : State :=
  installCtx (modQueue (dropHead s a q) a q fun x => { x with running := if x.serial then some slot else x.running }) a slot
    (messageCtx s a q slot p m)

/-- A queue without a resume starts the message at its head, where that is not stale; one of the guest port with an acquire
(R229, R372). -/
theorem startQueue_of_message {s : State} {a : Agent} {q : Fin 64} {m : Message} {l : List Message} (slot : Nat) (p : Fin 4)
    (hr : ((getCore s a).queues[q]).resume = false) (hm : ((getCore s a).queues[q]).msgs = m :: l)
    (hf : staleHead s ((getCore s a).queues[q]) = false) :
    startQueue s a q slot p =
      if m.src = .guest then acquireFor (messageStarted s a q slot p m) ⟨a, slot⟩ else messageStarted s a q slot p m := by
  simp only [startQueue, hr, Bool.false_eq_true, if_false, ageQueue_of_fresh hf, hm, hf]
  rfl

theorem messageStarted_msgs {s : State} {a : Agent} {q : Fin 64} {m : Message} {l : List Message} (slot : Nat) (p : Fin 4)
    (hm : ((getCore s a).queues[q]).msgs = m :: l) :
    ((getCore (messageStarted s a q slot p m) a).queues[q]).msgs = l := by
  have hm' : ((getCore s a).queues[q.val]).msgs = m :: l := hm
  simp [messageStarted, dropHead, hm']

/-- The registers of a message start: its type and queue, its slate, its token, and its payload from g4. -/
theorem messageCtx_regs (s : State) (a : Agent) (q : Fin 64) (slot : Nat) (p : Fin 4) {m : Message} (hl : m.payload.length ≤ 8) :
    let c := messageCtx s a q slot p m
    c.g[(1 : GReg)] = w64 (m.ty.toNat % 2 ^ 16 + q.val * 2 ^ 16) ∧ c.g[(2 : GReg)] = m.slate ∧ c.g[(3 : GReg)] = m.token ∧
    (∀ i : Nat, i < 8 → c.g[Fin.ofNat 32 (4 + i)] = (m.payload[i]?).getD 0) ∧ ∀ i : Fin 32, 12 ≤ i.val → c.g[i] = 0 := by
  have hlen : (m.slate :: m.token :: m.payload).length ≤ 30 := by simp only [List.length_cons]; omega
  refine ⟨getElem_startRegs hlen (by decide), getElem_startRegs hlen (by decide), getElem_startRegs hlen (by decide),
    fun i hi => ?_, fun i hi => ?_⟩
  · have hmod : (4 + i) % 32 = 4 + i := Nat.mod_eq_of_lt (by omega)
    refine (getElem_startRegs hlen (Fin.isLt _)).trans ?_
    simp [hmod, show 4 + i - 1 = i + 3 by omega]
  · refine (getElem_startRegs hlen i.isLt).trans ?_
    obtain ⟨j, hj⟩ := Nat.exists_eq_add_of_le hi
    have hnone : m.payload[8 + j]? = none := List.getElem?_eq_none (by omega)
    simp [hj, show 12 + j - 1 = 8 + j + 3 by omega, hnone]

/-- The slot holds the message's context, and the queue the messages behind it. -/
theorem messageStarted_ctx {s : State} {a : Agent} {q : Fin 64} {m : Message} {l : List Message} (slot : Nat) (p : Fin 4)
    (hm : ((getCore s a).queues[q]).msgs = m :: l) (hl : m.payload.length ≤ 8) :
    let u := messageStarted s a q slot p m
    let c := getCtx u ⟨a, slot⟩
    c.pc = ((getCore s a).queues[q]).handler ∧ c.pri = ((getCore s a).queues[q]).pri ∧ c.slate = m.slate ∧ c.place = .live p ∧
    c.queue = some q ∧ c.launch = ((getCore s a).queues[q]).launch ∧ c.p = BitVec.allOnes 32 ∧ c.a = 0 ∧
    c.gen = (getCore s a).gens[Fin.ofNat 64 slot] + 1 ∧ c.g[(1 : GReg)] = w64 (m.ty.toNat % 2 ^ 16 + q.val * 2 ^ 16) ∧
    c.g[(2 : GReg)] = m.slate ∧ c.g[(3 : GReg)] = m.token ∧
    (∀ i : Nat, i < 8 → c.g[Fin.ofNat 32 (4 + i)] = (m.payload[i]?).getD 0) ∧ (∀ i : Fin 32, 12 ≤ i.val → c.g[i] = 0) ∧
    ((getCore u a).queues[q]).msgs = l := by
  have hctx : getCtx (messageStarted s a q slot p m) ⟨a, slot⟩ = messageCtx s a q slot p m := getCtx_installCtx ..
  obtain ⟨hplace, hlaunch, hgen, hp, ha⟩ := newCtx_fields s a slot p ((getCore s a).queues[q]).launch
  obtain ⟨h1, h2, h3, hpayload, hzero⟩ := messageCtx_regs s a q slot p hl
  dsimp only
  rw [hctx]
  exact ⟨rfl, rfl, rfl, hplace, rfl, hlaunch, hp, ha, hgen, h1, h2, h3, hpayload, hzero, messageStarted_msgs slot p hm⟩

end Sys2Proof.Proofs
end

section
/-! PROOF of O43. Each event is one function of the model behind its guards: a lemma says what the function leaves where the
guards hold, and the statement is the list of these lemmas. -/

namespace Sys2Proof.Proofs

open Sys2Proof.Machine Sys2Proof.Laws

/-! ### The run queue -/

theorem becomes_activationStart (s : State) (c : Nat) :
    Becomes (.activationStart (.tile c)) s (activationStart s (.tile c)) :=
  becomes_of_event rfl

theorem activationStart_of_parked {s : State} {a : Agent} {p : Fin 4} {k : CtxKey} (hp : freePosition s a = some p)
    (hn : nextLive s a = some (.parked k)) : activationStart s a = modCtx s k fun x => { x with place := .loading p } := by
  simp only [activationStart, hp, hn]

theorem activationStart_of_fresh {s : State} {a : Agent} {e pri slot : Nat} {p : Fin 4} (hp : freePosition s a = some p)
    (hn : nextLive s a = some (.fresh pri e)) (hs : freeSlot s a = some slot) :
    activationStart s a =
      let u := modCore s a fun co => { co with last := co.last.set (Fin.ofNat 4 pri) e }
      if e = 64 then startChild u a pri slot p else startQueue u a (Fin.ofNat 64 e) slot p := by
  simp only [activationStart, hp, hn, hs]

theorem becomes_contextLoad {s : State} {k : CtxKey} {p : Fin 4} (h : (getCtx s k).place = .loading p) :
    Becomes (.contextLoad k) s (modCtx s k fun c => { c with place := .live p }) :=
  becomes_of_event (by rw [exec_contextLoad, execContextLoad, h])

theorem becomes_contextWriteback {s : State} {k : CtxKey} (hv : victim s k.agent = some k)
    (hn : (nextLive s k.agent).isSome = true) :
    Becomes (.contextWriteback k) s (modCtx s k fun c => { c with place := .parked }) :=
  becomes_of_event (by simp [exec_contextWriteback, execContextWriteback, hv, hn])

/-! ### Spill and return -/

/-- A cause for a firmware core's mailbox fails no firmware core. -/
@[simp] theorem fwWorks_raiseFw (s : State) (k code : Nat) (tval : Word) (src : Agent) (n : Nat) :
    fwWorks (raiseFw s k code tval src) n = fwWorks s n := by
  have hfailed : ((raiseFw s k code tval src).fws[Fin.ofNat 8 n]).failed = (s.fws[Fin.ofNat 8 n]).failed := by
    by_cases h : k % 8 = n % 8
    · simp only [raiseFw, postMail, Fin.getElem_fin, Fin.val_ofNat, h, Vector.getElem_set_self]
      split <;> rfl
    · simp only [raiseFw, postMail, Fin.getElem_fin, Fin.val_ofNat, Vector.getElem_set_ne _ _ h]
  simp only [fwWorks, hfailed]

/-- A core whose slots all wait while a candidate waits raises cause 0x11, and FW2 spills its waiters (R94). -/
theorem becomes_slotExhaustion {s : State} {c p : Nat} (hw : allWait s (.tile c) = true) (hp : p < 4)
    (hs : (startable s (.tile c) p).isEmpty = false) (hf : fwWorks s 2 = true) :
    Becomes (.slotExhaustion (.tile c)) s
      (spillWaiters (.tile c) ((List.range 4).map fun p => (startable s (.tile c) p).length).sum
        (raiseFw s 2 0x11 (w64 (c % 2 ^ 11)) (.tile c))) := by
  have hsome : ((List.range 4).map fun p => (startable s (.tile c) p).length).sum ≠ 0 := by
    intro h
    have hzero := List.sum_eq_zero_iff.mp h _ (List.mem_map_of_mem (List.mem_range.mpr hp))
    simp [List.length_eq_zero_iff.mp hzero] at hs
  refine becomes_of_event ?_
  simp only [exec_slotExhaustion, execSlotExhaustion, slotExhaustion, hw, beq_eq_false_iff_ne.mpr hsome, fwWorks_raiseFw, hf]
  rfl

theorem spillWaiters_of_full {s : State} {a : Agent} (n : Nat) (h : areaSize ≤ (getCore s a).spilled.length) :
    spillWaiters a (n + 1) s = record s 0x11 (agentNo a) [areaSize] := by
  rw [spillWaiters, if_pos h]

theorem spillWaiters_of_room {s : State} {a : Agent} {k : CtxKey} {l : List CtxKey} (n : Nat)
    (h : (getCore s a).spilled.length < areaSize)
    (hk : (((List.range (slotCount (getCore s a))).map fun i => (⟨a, i⟩ : CtxKey)).filter fun k =>
      (getCtx s k).wait.isSome && mayLeave s k) = k :: l) :
    spillWaiters a (n + 1) s = spillWaiters a n (spillCtx s (l.foldl (longer s) k)) := by
  rw [spillWaiters, if_neg (Nat.not_le.mpr h), hk]

/-- A spilled context whose return is pending returns to its free slot (R95). -/
theorem spilledReturn_of_pending {s : State} {k : CtxKey} {x : Spilled}
    (hx : ((getCore s k.agent).spilled.find? fun x => x.slot == k.slot && x.pending) = some x) (hk : x.ctx.killed = false)
    (hu : (getCtx s k).used = false) (hs : k.slot < slotCount (getCore s k.agent)) :
    spilledReturn s k = setCtx (modCore s k.agent fun co => { co with spilled := co.spilled.erase x }) k x.ctx := by
  have hprop := List.find?_some hx
  rw [Bool.and_eq_true] at hprop
  obtain ⟨hslot, hpending⟩ := hprop
  have hfirst : ((getCore s k.agent).spilled.find? (·.slot == k.slot)).isSome = true :=
    List.find?_isSome.mpr ⟨x, List.mem_of_find?_eq_some hx, hslot⟩
  obtain ⟨first, hfirst⟩ := Option.isSome_iff_exists.mp hfirst
  simp [spilledReturn, hfirst, hx, hpending, hk, hu, hs]

/-! ### Budgets and deadlocks -/

/-- A budget that counts is used up by as many cycles as it has left (R90). -/
theorem runOut_iff (s : State) (c : Ctx) : runOut s c = true ↔ c.actLeft ≠ 0xFFFFFFFF ∧ c.actLeft ≤ Config.cycles s.fresh := by
  by_cases h : c.actLeft = 0xFFFFFFFF <;> simp [runOut, spend, h, Nat.sub_eq_zero_iff_le]

section
variable {s : State} {k : CtxKey} {n : Nat} (hk : k.agent = .tile n) (hu : (getCtx s k).used = true)
  (hl : (getCtx s k).killed = false) (hr : runOut s (getCtx s k) = true)
include hk hu hl hr

theorem budgetDue_of_runOut (hw : (getCtx s k).wait = none) (hg : (getCtx s k).inGrace = false) : budgetDue s k = true := by
  simp [budgetDue, budgetSpent, hk, isFw, hu, hl, hw, hg, hr]

/-- The grace starts (R91): cause 0x12 is due once what is under way has ended, or taken at once. -/
theorem budgetExpiry_of_runOut (hw : (getCtx s k).wait = none) (hg : (getCtx s k).inGrace = false)
    (hf : (getCtx s k).frames = []) :
    budgetExpiry s k =
      let c := getCtx s k
      let u := { s with fresh := s.fresh + 1 }
      if c.inTrap || c.inExpansion || !c.quiet || c.stepped.isSome then
        setCtx u k { c with inGrace := true, actLeft := 4096, due12 := true }
      else takeTrap (setCtx u k { c with inGrace := true, actLeft := 4096 }) k 0x12 (w64 c.actLoaded) c.pc true := by
  simp only [budgetExpiry, budgetDue_of_runOut hk hu hl hr hw hg, hf]
  rfl

/-- In the grace FW2 kills the activation and records it (R91). -/
theorem becomes_budgetGraceExpiry (hg : (getCtx s k).inGrace = true) (hf : (getCtx s k).frames = []) (h2 : fwWorks s 2 = true) :
    Becomes (.budgetGraceExpiry k) s (killCtx (record (raiseFw s 2 0x12 (w64 (getCtx s k).actLoaded) k.agent) 0x12 n
      [(getCtx s k).actLoaded, k.slot, (getCtx s k).gen.toNat]) k) :=
  becomes_of_event (by simp [exec_budgetGraceExpiry, execBudgetGraceExpiry, hu, hl, hg, hf, hr, hk, isFw, h2, agentNo])

end

theorem becomes_deadlockSuspected {s : State} {k : CtxKey} {c : Ctx} {w : Wait} {b : Bool} (h : slotWaiters s k = [(c, w, b)]) :
    Becomes (.deadlockSuspected k) s (deadlock { s with fresh := s.fresh + 1 } k c w b) :=
  becomes_of_event (by simp [exec_deadlockSuspected, execDeadlockSuspected, h, Nat.mod_one])

/-- The only waiter of a slot that has spilled none: its holder. -/
theorem slotWaiters_of_holder {s : State} {k : CtxKey} {n : Nat} {w : Wait} (hk : k.agent = .tile n)
    (hw : (getCtx s k).wait = some w) (hu : (getCtx s k).used = true) (hl : (getCtx s k).killed = false)
    (hb : (getCtx s k).actLeft ≠ 0xFFFFFFFF) (hs : ∀ x ∈ (getCore s k.agent).spilled, x.slot ≠ k.slot) :
    slotWaiters s k = [(getCtx s k, w, false)] := by
  have hnone : (getCore s k.agent).spilled.filter (·.slot == k.slot) = [] :=
    List.filter_eq_nil_iff.mpr fun x hx => by simpa using hs x hx
  simp only [slotWaiters, hnone]
  simp [hk, isFw, hu, hl, hw, hb]

/-- The only waiter of a free slot that has spilled one. -/
theorem slotWaiters_of_spilled {s : State} {k : CtxKey} {x : Spilled} {w : Wait} (hu : (getCtx s k).used = false)
    (hs : (getCore s k.agent).spilled.filter (·.slot == k.slot) = [x]) (hw : x.ctx.wait = some w)
    (hl : x.ctx.killed = false) (hb : x.ctx.actLeft ≠ 0xFFFFFFFF) : slotWaiters s k = [(x.ctx, w, true)] := by
  simp only [slotWaiters, hs]
  simp [hu, hl, hw, hb]

theorem becomes_takeBudgetSpent {s : State} {a : Agent} {q : Fin 64} (hv : ((getCore s a).queues[q]).valid = true)
    (hs : ((getCore s a).queues[q]).serial = true) (ht : ((getCore s a).queues[q]).takeLeft = 0) :
    Becomes (.takeBudgetSpent a q) s (modQueue s a q fun x => { x with budgetHold := true }) :=
  becomes_of_event (by simp only [exec_takeBudgetSpent, execTakeBudgetSpent, hv, hs, ht]; rfl)

/-! ### Joins and spawns -/

section
variable {s t : State} {n : Nat} {src : Node} {vn : Fin 4} {sq : BitVec 12} {fwd : Bool}

/-- The owner's answer to a join form goes back to the activation that asked (R102). -/
theorem becomes_joinArrival {o kind : Nat} {w : Who} {jw value v : Word}
    (hp : takePkt s n = some (⟨src, .core o, vn, .join w kind jw value, sq, fwd⟩, t))
    (hl : kind = 0 → joinLater s o jw = false) (hv : (joinAt t o kind jw w value).2 = some v) :
    Becomes (.joinArrival n) s
      (sendPkt (joinAt t o kind jw w value).1 (.core o) (nodeOf w.ctx.agent) 1 (.reply w w.id v.toNat)) := by
  have hnow : ¬(kind = 0 ∧ joinLater s o jw = true) := fun h => by simp [hl h.1] at h
  refine becomes_of_event ?_
  simp only [exec_joinArrival, execJoinArrival, hp, hnow, if_false, hv]

/-- What a spawn request meets at the core of a launch that goes on. -/
theorem exec_spawnArrival_of_live {c m id : Nat} {ch : Child}
    (hp : takePkt s n = some (⟨src, .core c, vn, .spawn ch m id, sq, fwd⟩, t))
    (hl : ∃ la l, ch.launch = some la ∧ findLaunch t la = some l ∧ l.ending = false) :
    exec (.spawnArrival n) s = event (if (getCore t (.tile c)).spawnList.length < spawnListSize then
      modCore (modCore t (.tile c) fun co => { co with spawnList := co.spawnList ++ [ch] }) (.tile m)
        fun co => { co with spawnOut := co.spawnOut.filter (·.id != id) }
      else modCore t (.tile m) fun co => { co with spawnOut := co.spawnOut.map fun y =>
        if y.id = id then { y with sent := false, retry := true } else y }) := by
  obtain ⟨la, l, hla, hfind, hend⟩ := hl
  simp only [exec_spawnArrival, execSpawnArrival, hp, hla, Option.bind_some, hfind, hend, Bool.false_eq_true, if_false]
  split <;> rfl

end

/-- A request for any core whose release is complete finds its core (R98). -/
theorem becomes_recruitmentAnswer_spawn {s : State} {a : Agent} {i : Nat} {x : SpawnOut}
    (hx : (getCore s a).spawnOut[i]? = some x) (ht : x.target = none) (hr : x.released s a = true) :
    Becomes (.recruitmentAnswer a i) s (modCore s a fun co => { co with spawnOut := co.spawnOut.map fun y =>
      if y.id = x.id then { y with
        target := some ((idleCores s x.child.launch x.role (agentNo a)).headD (busyCore s x.child.launch x.role (agentNo a))) }
      else y }) :=
  becomes_of_event (by simp only [exec_recruitmentAnswer, execRecruitmentAnswer, hx, ht, hr]; rfl)

/-- A recruitment is answered once its release is complete and its activation's earlier requests have left (R98). -/
theorem becomes_recruitmentAnswer_fork {s : State} {a : Agent} {i : Nat} {r : Recruit}
    (hx : (getCore s a).spawnOut[i]? = none)
    (hr : (getCore s a).recruits[i - (getCore s a).spawnOut.length]? = some r) (hl : r.released s a = true)
    (hs : ∀ y ∈ (getCore s a).spawnOut, y.who.ctx = r.who.ctx → y.who.gen = r.who.gen → y.sent = true) :
    Becomes (.recruitmentAnswer a i) s (answerRecruit s a r) := by
  have hbefore : ((getCore s a).spawnOut.any fun y => y.who.ctx == r.who.ctx && y.who.gen == r.who.gen && !y.sent) = false := by
    simp only [List.any_eq_false, Bool.and_eq_true, beq_iff_eq, Bool.not_eq_true']
    rintro y hy ⟨⟨hc, hg⟩, hn⟩
    simp [hs y hy hc hg] at hn
  exact becomes_of_event (by simp only [exec_recruitmentAnswer, execRecruitmentAnswer, hx, hr, hl, hbefore]; rfl)

theorem becomes_spawnRetry {s : State} {n : Nat} {a : Agent} {x : SpawnOut}
    (h : (s.cores.findSome? fun c => (c.2.spawnOut.find? fun x => x.id == n && x.retry).map fun x => (c.1, x)) = some (a, x)) :
    Becomes (.spawnRetry n) s (launchSpawn s a x) :=
  becomes_of_event (by rw [exec_spawnRetry, execSpawnRetry, h])

/-! ### Kill -/

theorem becomes_quiesceAck {s : State} {k : CtxKey} {n : Nat} (hk : k.agent = .tile n) (hu : (getCtx s k).used = true)
    (hl : (getCtx s k).killed = true) (hd : drained s k (getCtx s k) = true) :
    Becomes (.quiesceAck k) s (finishLaunches (answerKillers (releaseCtx s k) (getCtx s k).killers)) :=
  becomes_of_event (by simp [exec_quiesceAck, execQuiesceAck, hu, hl, hd, hk, isFw])

section
variable {s t : State} {n : Nat} {src : Node} {vn : Fin 4} {sq : BitVec 12} {fwd : Bool} {c id : Nat} {w : Who} {target : Word}
  {nw : Bool} (hp : takePkt s n = some (⟨src, .core c, vn, .kill w id target nw, sq, fwd⟩, t))
include hp

/-- A request to kill that finds no such activation is answered with code 1 (R352). -/
theorem becomes_killAcceptance_of_none
    (hn : findActivation t ⟨.tile c, bits target.toNat 21 16⟩ (BitVec.ofNat 16 (bits target.toNat 47 32)) = none) :
    Becomes (.killAcceptance n) s (landReply t w id 1) :=
  becomes_of_event (by simp only [exec_killAcceptance, execKillAcceptance, hp, hn])

/-- What it does where it finds one (R352). -/
theorem exec_killAcceptance_of_some {x : Ctx}
    (hx : findActivation t ⟨.tile c, bits target.toNat 21 16⟩ (BitVec.ofNat 16 (bits target.toNat 47 32)) = some x) :
    exec (.killAcceptance n) s =
      let k : CtxKey := ⟨.tile c, bits target.toNat 21 16⟩
      let gen : Gen := BitVec.ofNat 16 (bits target.toNat 47 32)
      event (if x.killed then landReply t w id 2
        else if nw then landReply (killAct t k gen) w id 0
        else modActivation (killAct t k gen) k gen fun c => { c with killers := c.killers ++ [(w, id)] }) := by
  simp only [exec_killAcceptance, execKillAcceptance, hp, hx, apply_ite event]

end

/-! ### The statement -/

/-- Settles O43: each clause is the lemma about its event's function. -/
theorem runQueueEventsAnswer : Obligations.RunQueueEventsAnswer := by
  refine ⟨fun s c p k hp hn => becomes_of_eq (becomes_activationStart s c) (activationStart_of_parked hp hn),
    fun s c e pri slot p hp hn hs => becomes_of_eq (becomes_activationStart s c) (activationStart_of_fresh hp hn hs),
    fun s a q slot p m l hr hm hf hlen => ?_, fun s k p => becomes_contextLoad, fun s k => becomes_contextWriteback,
    fun s c p => becomes_slotExhaustion, fun s a n => ⟨spillWaiters_of_full n, fun k l => spillWaiters_of_room n⟩,
    fun s k x hx hk hu hs => becomes_of_event (congrArg event (spilledReturn_of_pending hx hk hu hs)),
    fun s k n hk hu hl hw hr hg hf => ?_, fun s k n hk hu hl hg hf hr => becomes_budgetGraceExpiry hk hu hl hr hg hf, runOut_iff,
    fun s k n w hk hw hu hl hb hs => becomes_deadlockSuspected (slotWaiters_of_holder hk hw hu hl hb hs),
    fun s k x w hu hs hw hl hb => becomes_deadlockSuspected (slotWaiters_of_spilled hu hs hw hl hb),
    fun s a q => becomes_takeBudgetSpent, fun s t n src vn sq fwd o kind w jw value v => becomes_joinArrival,
    fun s a i x => becomes_recruitmentAnswer_spawn, fun s a i r => becomes_recruitmentAnswer_fork,
    fun s t n src vn sq fwd c m id ch hp hl => ?_, fun s n a x => becomes_spawnRetry, fun s k n => becomes_quiesceAck,
    fun s t n src vn sq fwd c id w target nw hp => ?_⟩
  · exact ⟨messageStarted s a q slot p m, startQueue_of_message slot p hr hm hf, messageStarted_ctx slot p hm hlen⟩
  · have he : exec (.activationBudgetExpiry k) s = event _ := congrArg event (budgetExpiry_of_runOut hk hu hl hr hw hg hf)
    exact ⟨fun hd => becomes_of_event (he.trans (congrArg event (if_pos hd))),
      fun hd => becomes_of_event (he.trans (congrArg event (if_neg (Bool.eq_false_iff.mp hd))))⟩
  · have he := exec_spawnArrival_of_live hp hl
    exact ⟨fun hroom => becomes_of_event (he.trans (congrArg event (if_pos hroom))),
      fun hfull => becomes_of_event (he.trans (congrArg event (if_neg (Nat.not_lt.mpr hfull))))⟩
  · refine ⟨becomes_killAcceptance_of_none hp, fun x hx hk => ?_, fun x hx hk hw => ?_, fun x hx hk hw => ?_⟩
    all_goals refine becomes_of_event ((exec_killAcceptance_of_some hp hx).trans (congrArg event ?_))
    · simp only [hk, if_true]
    · simp only [hk, hw, Bool.false_eq_true, if_false, if_true]
    · simp only [hk, hw, Bool.false_eq_true, if_false]

end Sys2Proof.Proofs
end

section
/-! What the parts of a spawn and of a join leave as it is (R100 to R102, R208): a send entry, the write-backs of a release, a
number taken and an answer kept change neither the cells of a core nor the requests of its spawners. -/

namespace Sys2Proof.Proofs

open Sys2Proof.Machine Sys2Proof.Laws

/-! ### From an own effect to its cause -/

theorem raisesIf_of_effect {i : Instr} {body : Effect} {pre : State → Prop} {code : Nat} {tval : State → Word}
    (hi : ∀ s, exec i s = issue (form i) body s) (hb : ∀ t, pre t → body t = trap code (tval t)) : RaisesIf i pre code tval :=
  fun s _ h hp => (hi s).trans (issue_traps h (hb _ hp))

/-! ### Reads of a core and of a context that an update does not concern -/

/-- What a change of a core leaves, a read of any core still finds. -/
theorem getCore_modCore_keeps {α : Type} (g : Core → α) {f : Core → Core} (hf : ∀ co, g (f co) = g co) (s : State) (a b : Agent) :
    g (getCore (modCore s a f) b) = g (getCore s b) := by
  by_cases h : b = a
  · subst h; rw [getCore_modCore_same, hf]
  · rw [modCore, getCore_setCore_other _ _ h]

/-- What a change of the issuing context leaves, the bundle's reads still find. -/
theorem opCtx_modCur_keeps {α : Type} (g : Ctx → α) {f : Ctx → Ctx} (hf : ∀ c, g (f c) = g c) (s : State) :
    g (opCtx (modCur s f)) = g (opCtx s) := by
  cases hl : s.latch with
  | none => simp [opCtx, hl, hf]
  | some c => simp [opCtx, hl]

@[simp] theorem curCore_modCur (s : State) (f : Ctx → Ctx) : curCore (modCur s f) = curCore s := rfl

theorem curCore_of_own {s : State} {a : Agent} (h : s.cur.agent = a) : curCore s = getCore s a := by rw [curCore, h]

/-! ### Cells, spawn requests and recruitments -/

/-- Contexts, memory, launches, and each core's cells, spawn requests and recruitments are the same. -/
def KeepsSpawner (s t : State) : Prop :=
  SameArch s t ∧ t.dev.launches = s.dev.launches ∧ ∀ a : Agent, (getCore t a).cells = (getCore s a).cells ∧
    (getCore t a).spawnOut = (getCore s a).spawnOut ∧ (getCore t a).recruits = (getCore s a).recruits

theorem KeepsSpawner.refl (s : State) : KeepsSpawner s s := ⟨SameArch.refl s, rfl, fun _ => ⟨rfl, rfl, rfl⟩⟩

theorem KeepsSpawner.trans {s t u : State} (h : KeepsSpawner s t) (k : KeepsSpawner t u) : KeepsSpawner s u := by
  obtain ⟨harch, hlaunch, hcore⟩ := h
  obtain ⟨karch, klaunch, kcore⟩ := k
  refine ⟨harch.trans karch, klaunch.trans hlaunch, fun a => ?_⟩
  obtain ⟨hcells, hout, hrec⟩ := hcore a
  obtain ⟨kcells, kout, krec⟩ := kcore a
  exact ⟨kcells.trans hcells, kout.trans hout, krec.trans hrec⟩

theorem KeepsSpawner.fold {α : Type} (f : State → α → State) (hf : ∀ s x, KeepsSpawner s (f s x)) (l : List α) :
    ∀ s : State, KeepsSpawner s (l.foldl f s) := by
  induction l with
  | nil => exact KeepsSpawner.refl
  | cons x l ih => exact fun s => (hf s x).trans (ih _)

theorem keepsSpawner_newId (s : State) : KeepsSpawner s (newId s).2 := ⟨⟨rfl, rfl, rfl, rfl, rfl⟩, rfl, fun _ => ⟨rfl, rfl, rfl⟩⟩

theorem keepsSpawner_modCore (s : State) (a : Agent) {f : Core → Core} (hc : ∀ co, (f co).cells = co.cells)
    (ho : ∀ co, (f co).spawnOut = co.spawnOut) (hr : ∀ co, (f co).recruits = co.recruits) : KeepsSpawner s (modCore s a f) :=
  ⟨same_modCore s a f, rfl, fun b => ⟨getCore_modCore_keeps Core.cells hc s a b, getCore_modCore_keeps Core.spawnOut ho s a b,
    getCore_modCore_keeps Core.recruits hr s a b⟩⟩

theorem keepsSpawner_sendPkt (s : State) (src dst : Node) (vn : Fin 4) (b : Body) : KeepsSpawner s (sendPkt s src dst vn b) := by
  refine ⟨⟨rfl, rfl, rfl, rfl, rfl⟩, ?_, fun _ => ⟨rfl, rfl, rfl⟩⟩
  simp only [sendPkt]
  split <;> rfl

theorem keepsSpawner_writeBackSector (s : State) (a : Agent) (l : Line) (i : Fin 8) : KeepsSpawner s (writeBackSector s a l i) := by
  unfold writeBackSector
  dsimp only
  split
  · exact KeepsSpawner.refl s
  · refine ((keepsSpawner_newId s).trans ?_).trans (keepsSpawner_sendPkt ..)
    exact keepsSpawner_modCore _ a (fun _ => rfl) (fun _ => rfl) fun _ => rfl

/-- The write-backs with which a release starts (R208). -/
theorem keepsSpawner_startWriteBacks (s : State) (sc : Scope) : KeepsSpawner s (startWriteBacks s sc) :=
  KeepsSpawner.fold _ (fun s l => KeepsSpawner.fold _ (fun s i => keepsSpawner_writeBackSector s _ l i) _ s) _ s

theorem keepsSpawner_sendSlot (s : State) (vn : Fin 4) : KeepsSpawner s (sendSlot s vn) :=
  keepsSpawner_modCore s s.cur.agent (fun _ => rfl) (fun _ => rfl) fun _ => rfl

theorem KeepsSpawner.opCtx {s t : State} (h : KeepsSpawner s t) : Machine.opCtx t = Machine.opCtx s := h.1.opCtx

theorem KeepsSpawner.curCtx {s t : State} (h : KeepsSpawner s t) : Machine.curCtx t = Machine.curCtx s := h.1.curCtx

theorem KeepsSpawner.cur {s t : State} (h : KeepsSpawner s t) : t.cur = s.cur := h.1.1

theorem KeepsSpawner.findLaunch {s t : State} (h : KeepsSpawner s t) : Machine.findLaunch t = Machine.findLaunch s := by
  funext la
  simp only [Machine.findLaunch, h.2.1]

theorem KeepsSpawner.rg {s t : State} (h : KeepsSpawner s t) : Machine.rg t = Machine.rg s := by
  funext r
  simp only [Machine.rg, h.opCtx]

/-! ### A cell replaced -/

@[simp] theorem getCell_setCell (s : State) (a : Agent) (i : Nat) (c : Cell) : getCell (getCore (setCell s a i c) a) i = c := by
  simp [getCell, setCell]

@[simp] theorem setCell_recruits (s : State) (a b : Agent) (i : Nat) (c : Cell) :
    (getCore (setCell s a i c) b).recruits = (getCore s b).recruits := getCore_modCore_keeps Core.recruits (fun _ => by rfl) s a b

@[simp] theorem setCell_sinks (s : State) (a b : Agent) (i : Nat) (c : Cell) :
    (getCore (setCell s a i c) b).sinks = (getCore s b).sinks := getCore_modCore_keeps Core.sinks (fun _ => by rfl) s a b

@[simp] theorem setCell_spawnOut (s : State) (a b : Agent) (i : Nat) (c : Cell) :
    (getCore (setCell s a i c) b).spawnOut = (getCore s b).spawnOut := getCore_modCore_keeps Core.spawnOut (fun _ => by rfl) s a b

/-! ### The answer that a bundle keeps -/

@[simp] theorem keepAnswer_cur (s : State) (v : Word) : (keepAnswer s v).cur = s.cur := by
  unfold keepAnswer; split <;> rfl

@[simp] theorem getCore_keepAnswer (s : State) (v : Word) (a : Agent) : getCore (keepAnswer s v) a = getCore s a := by
  unfold keepAnswer; split <;> rfl

/-- An owner's answer that stands already is kept once. -/
theorem keepAnswer_of_answered {s : State} {v : Word} (w : Word) (h : answered s v) : keepAnswer s w = s := by
  obtain ⟨g, hg, _⟩ := h
  simp [keepAnswer, hg]

/-- The answer stands among the bundle's requests alone. -/
theorem curCtx_keepAnswer {α : Type} (g : Ctx → α) (hg : ∀ c l, g { c with grants := l } = g c) (s : State) (v : Word) :
    g (curCtx (keepAnswer s v)) = g (curCtx s) := by
  unfold keepAnswer
  split
  · rfl
  · simp only [curCtx_modCur, hg]
    rfl

theorem opCtx_keepAnswer {α : Type} (g : Ctx → α) (hg : ∀ c l, g { c with grants := l } = g c) (s : State) (v : Word) :
    g (opCtx (keepAnswer s v)) = g (opCtx s) := by
  unfold keepAnswer
  split
  · rfl
  · exact opCtx_modCur_keeps g (fun c => hg c _) _

/-! ### What END and an acquire ask, where a join has been performed -/

theorem endCheck_ok_iff (t : State) : endCheck t = .ok () ↔
    (opCtx t).depth = 0 ∧ (opCtx t).seqr = none ∧ (opCtx t).cpyOpen = 0 ∧ recruiting t = false := by
  refine ⟨fun h => ?_, fun ⟨hd, hq, hc, hr⟩ => endCheck_ok hd hq hc hr⟩
  simp only [endCheck, trap] at h
  split at h
  · cases h
  · split at h
    · cases h
    · split at h
      · cases h
      · split at h
        · cases h
        · exact ⟨by omega, by simpa using ‹¬(opCtx t).seqr.isSome = true›, by omega, by simpa using ‹¬recruiting t = true›⟩

/-- A state in which a cell of the own core has changed, numbers have been taken and an answer is kept. -/
def joined (t : State) (i : Nat) (c : Cell) (v : Word) : State := keepAnswer (setCell (newId t).2 t.cur.agent i c) v

section
variable (t : State) (i : Nat) (c : Cell) (v : Word)

@[simp] theorem joined_cur : (joined t i c v).cur = t.cur := keepAnswer_cur ..

theorem joined_cell : getCell (curCore (joined t i c v)) i = c := by
  rw [curCore, joined_cur, joined, getCore_keepAnswer, getCell_setCell]

theorem joined_accessesOut : accessesOut (curCtx (joined t i c v)) = accessesOut (curCtx t) :=
  curCtx_keepAnswer accessesOut (fun _ _ => rfl) _ v

theorem joined_sinksOut : sinksOut (joined t i c v) (joined t i c v).cur = sinksOut t t.cur := by
  have hgen : (curCtx (joined t i c v)).gen = (curCtx t).gen := curCtx_keepAnswer Ctx.gen (fun _ _ => rfl) _ v
  have hsinks : (getCore (joined t i c v) t.cur.agent).sinks = (getCore t t.cur.agent).sinks := by
    rw [joined, getCore_keepAnswer, setCell_sinks]; rfl
  rw [curCtx, joined_cur] at hgen
  rw [joined_cur]
  unfold sinksOut
  rw [hsinks, hgen]
  rfl

theorem joined_endCheck : endCheck (joined t i c v) = .ok () ↔ endCheck t = .ok () := by
  have hgen : (curCtx (joined t i c v)).gen = (curCtx t).gen := curCtx_keepAnswer Ctx.gen (fun _ _ => rfl) _ v
  have hrec : (curCore (joined t i c v)).recruits = (curCore t).recruits := by
    rw [curCore, joined_cur, joined, getCore_keepAnswer, setCell_recruits]; rfl
  have hop {α : Type} (g : Ctx → α) (hg : ∀ c l, g { c with grants := l } = g c) : g (opCtx (joined t i c v)) = g (opCtx t) :=
    opCtx_keepAnswer g hg _ v
  rw [endCheck_ok_iff, endCheck_ok_iff, hop Ctx.depth fun _ _ => rfl, hop Ctx.seqr fun _ _ => rfl, hop Ctx.cpyOpen fun _ _ => rfl]
  simp only [recruiting, hrec, hgen, joined_cur]

end

end Sys2Proof.Proofs
end

section
/-! The JOIN forms (R100 to R102): what the owner of a cell does with an arrival, a seal and a wait, and how a form ends once it is
answered. -/

namespace Sys2Proof.Proofs

open Sys2Proof.Machine Sys2Proof.Laws

/-! ### The cell at its owner -/

section
variable {s : State} {o : Nat} {jw : Word} {w : Who} {c : Cell} (hc : getCell (getCore s (.tile o)) (jwCell jw) = c)
  (ho : c.isOpen = true)
include hc ho

/-- An arrival that is not the last and has no result is counted (R102). -/
theorem joinArrive_counted (value : Word) (hr : c.ren = false) (ha : c.arrived + 1 < c.spawned) :
    joinArrive s o jw w value = (setCell s (.tile o) (jwCell jw) { c with arrived := c.arrived + 1 }, joinEnd) := by
  have hbefore : c.arrived ≠ c.spawned := by omega
  simp [joinArrive, joinResult, hc, ho, hr, hbefore, Nat.ne_of_lt ha]

/-- A seal or a wait that finds every child arrived closes the cell (R101). -/
theorem joinAwait_of_all (wait : Bool) (hw : opened o c w = true) (ha : c.arrived = c.spawned) :
    joinAwait s o jw w wait = (setCell s (.tile o) (jwCell jw) Cell.closed, some (w64 c.result)) := by
  simp [joinAwait, hc, ho, hw, ha]

/-- A seal before that, outside deterministic mode, seals the cell (R101). -/
theorem joinAwait_seals (hw : opened o c w = true) (ha : c.arrived ≠ c.spawned) (hd : c.det = false) :
    joinAwait s o jw w false = (setCell s (.tile o) (jwCell jw) { c with sealed := true }, some joinEnd) := by
  simp [joinAwait, hc, ho, hw, ha, hd]

end

/-! ### The owner's answer -/

section
variable {s : State} {v : Word} (d : GReg) (jw : Word)

theorem joinFinish_refused (hr : bits v.toNat 39 32 ≠ 0) : joinFinish d jw s v = trap 0x1A (joinTval (bits v.toNat 39 32) jw) := by
  simp only [joinFinish, hr, ne_eq, not_false_eq_true, if_true]

theorem joinFinish_ends (hr : bits v.toNat 39 32 = 0) (hb : bit v.toNat 62 = true) (he : endCheck (keepAnswer s v) = .ok ()) :
    joinFinish d jw s v =
      .ok { s := endActivation (keepAnswer s v) (keepAnswer s v).cur, ended := !isFw (keepAnswer s v).cur.agent } := by
  simp only [joinFinish, hr, ne_eq, not_true_eq_false, if_false, hb, if_true, he]
  rfl

theorem joinFinish_goesOn (hr : bits v.toNat 39 32 = 0) (hb : bit v.toNat 62 = false)
    (ha : accessesOut (curCtx (keepAnswer s v)) = false) (hs : sinksOut (keepAnswer s v) (keepAnswer s v).cur = false) :
    joinFinish d jw s v = .ok (goesOn (wgSlow (acquireNow (keepAnswer s v) .package) d v)) := by
  simp only [joinFinish, hr, ne_eq, not_true_eq_false, if_false, hb, Bool.false_eq_true, acquire_ok ha hs]
  rfl

end

/-- A form that does not continue ends its activation, once it has been performed at its own core. -/
theorem joinFinish_joined_ends {t : State} {n : Nat} (d : GReg) (jw : Word) (i : Nat) (c : Cell) (ho : t.cur.agent = .tile n)
    (he : endCheck t = .ok ()) :
    joinFinish d jw (setCell (newId t).2 t.cur.agent i c) joinEnd =
      .ok { s := endActivation (joined t i c joinEnd) (joined t i c joinEnd).cur, ended := true } := by
  have htile : isFw (joined t i c joinEnd).cur.agent = false := by rw [joined_cur, ho]; rfl
  have hends := joinFinish_ends (s := setCell (newId t).2 t.cur.agent i c) (v := joinEnd) d jw (by decide) (by decide)
    ((joined_endCheck ..).mpr he)
  rw [hends, ← joined, htile, Bool.not_false]

/-- The answer that gives a closed cell's result names no reason and goes on (Table 4.4). -/
theorem result_goesOn (c : Cell) : bits (w64 c.result).toNat 39 32 = 0 ∧ bit (w64 c.result).toNat 62 = false := by
  have hword : (w64 c.result).toNat = c.spawned % 2 ^ 16 + b2n c.rerr * 2 ^ 63 := by
    refine (BitVec.toNat_ofNat _ _).trans (Nat.mod_eq_of_lt ?_)
    cases hb : c.rerr <;> simp only [Cell.result, hb, b2n, if_true, Bool.false_eq_true, if_false] <;> omega
  rw [hword, bits, bit, Nat.shiftRight_eq_div_pow, Nat.testBit_eq_decide_div_mod_eq, decide_eq_false_iff_not]
  cases c.rerr <;> simp only [b2n, if_true, Bool.false_eq_true, if_false] <;> omega

/-! ### A form at its own core -/

theorem joinForm_of_answered {t : State} {v : Word} (d : GReg) (jw : Word) (kind : Nat) (value : Word) (h : answered t v) :
    joinForm d jw kind value t = joinFinish d jw t v := by
  obtain ⟨⟨pc, id, value⟩, hg, rfl⟩ := h
  simp only [joinForm, hg]

section
variable {t : State} {jw : Word} (d : GReg) (hg : grantOf t = none) (hl : inLaunch t (opCtx t) (jwOwner jw) = true)
  (ho : t.cur.agent = .tile (jwOwner jw)) (hr : recruiting t = false)
include hg hl ho hr

/-- An arrival at the own core is performed at once behind its release. -/
theorem joinForm_arrival {u x : State} {v value : Word} (hi : jwIndex jw ≠ 0xFFFF) (hu : release t .package = .ok u)
    (hlater : joinLater u (jwOwner jw) jw = false)
    (hx : joinArrive (newId u).2 (jwOwner jw) jw (curWho (newId u).2 (newId u).1) value = (x, v)) :
    joinForm d jw 0 value t = joinFinish d jw x v := by
  have hown : (t.cur.agent == .tile (jwOwner jw)) = true := beq_iff_eq.mpr ho
  simp only [joinForm, hg, destCheck, hl, if_true, hi, and_false, if_false, hr, Bool.false_eq_true, hu, hown, hlater, joinAt, hx,
    Bind.bind, Except.bind]

/-- A seal or a wait at the own core is performed at once. -/
theorem joinForm_await {kind : Nat} {x : State} {v : Word} (hk : kind ≠ 0)
    (hx : joinAwait (newId t).2 (jwOwner jw) jw (curWho (newId t).2 (newId t).1) (kind == 2) = (x, some v)) :
    joinForm d jw kind 0 t = joinFinish d jw x v := by
  have hown : (t.cur.agent == .tile (jwOwner jw)) = true := beq_iff_eq.mpr ho
  simp only [joinForm, hg, destCheck, hl, if_true, hk, false_and, if_false, hr, Bool.false_eq_true, hown, joinAt, hx,
    Bind.bind, Except.bind]

end

/-! ### The clauses -/

section
variable {i : Instr} {d a : GReg} {kind : Nat} {value : State → Word}
  (hi : ∀ s, exec i s = issue (form i) (fun s => joinForm d (rg s a) kind (value s) s) s)
include hi

/-- A form whose owner has answered goes on with the acquire, or ends (R101, R102). -/
theorem commits_of_answered {s t : State} {v : Word} (h : Ready (form i) s t) (hv : answered t v)
    (hr : bits v.toNat 39 32 = 0) :
    (bit v.toNat 62 = false → accessesOut (curCtx t) = false → sinksOut t t.cur = false →
      Commits i s (goesOn (wgSlow (acquireNow t .package) d v))) ∧
    (bit v.toNat 62 = true → endCheck t = .ok () →
      Commits i s { s := endActivation t t.cur, ended := !isFw t.cur.agent }) := by
  have hkeep : keepAnswer t v = t := keepAnswer_of_answered v hv
  refine ⟨fun hb ha hs => ?_, fun hb he => ?_⟩
  all_goals refine commits_of_effect (hi s) h ((joinForm_of_answered d _ kind _ hv).trans ?_)
  · rw [joinFinish_goesOn d _ hr hb (hkeep.symm ▸ ha) (hkeep.symm ▸ hs), hkeep]
  · rw [joinFinish_ends d _ hr hb (hkeep.symm ▸ he), hkeep]

theorem raises_of_answered (v : Word) :
    RaisesIf i (fun t => answered t v ∧ bits v.toNat 39 32 ≠ 0) 0x1A (fun t => joinTval (bits v.toNat 39 32) (rg t a)) :=
  raisesIf_of_effect hi fun _ ⟨hv, hr⟩ => (joinForm_of_answered d _ kind _ hv).trans (joinFinish_refused d _ hr)

end

/-- An arrival at the own core, with its release complete, is counted and ends its activation. -/
theorem commits_of_arrival {d a b : GReg} {s t : State} (h : Ready (form (.join d a b)) s t) (hg : grantOf t = none)
    (hl : inLaunch t (opCtx t) (jwOwner (rg t a)) = true) (ho : t.cur.agent = .tile (jwOwner (rg t a)))
    (hr : recruiting t = false) (hx : jwIndex (rg t a) ≠ 0xFFFF) {u : State} (hu : startWriteBacks t .package = u)
    (hrel : released u .package = true) {c : Cell} (hc : getCell (curCore u) (jwCell (rg t a)) = c) (hopen : c.isOpen = true)
    (hren : c.ren = false) (harr : c.arrived + 1 < c.spawned) (he : endCheck u = .ok ()) :
    ∃ v, Commits (.join d a b) s { s := endActivation v v.cur, ended := true } ∧
      getCell (curCore v) (jwCell (rg t a)) = { c with arrived := c.arrived + 1 } := by
  have hcur : u.cur.agent = .tile (jwOwner (rg t a)) :=
    (congrArg CtxKey.agent (hu ▸ (keepsSpawner_startWriteBacks t .package).cur)).trans ho
  have hcell : getCell (getCore u (.tile (jwOwner (rg t a)))) (jwCell (rg t a)) = c := curCore_of_own hcur ▸ hc
  have hlater : joinLater u (jwOwner (rg t a)) (rg t a) = false := by simp [joinLater, hcell, hren]
  refine ⟨joined u (jwCell (rg t a)) { c with arrived := c.arrived + 1 } joinEnd, commits_of_effect rfl h ?_, joined_cell ..⟩
  have harrive := joinArrive_counted (s := (newId u).2) (w := curWho (newId u).2 (newId u).1) hcell hopen (rg t b) hren harr
  rw [← hcur] at harrive
  have hrelease : release t .package = .ok u := by
    subst hu; exact release_ok hrel
  exact (joinForm_arrival d hg hl ho hr hx hrelease hlater harrive).trans (joinFinish_joined_ends d _ _ _ hcur he)

section
variable {i : Instr} {d a : GReg} {s t : State} (h : Ready (form i) s t) (hg : grantOf t = none)
  (hl : inLaunch t (opCtx t) (jwOwner (rg t a)) = true) (ho : t.cur.agent = .tile (jwOwner (rg t a)))
  (hr : recruiting t = false) {c : Cell} (hc : getCell (curCore t) (jwCell (rg t a)) = c) (hopen : c.isOpen = true)
  (hw : opened (jwOwner (rg t a)) c (curWho t 0) = true)
include h hg hl ho hr hc hopen hw

/-- A seal or a wait by the opener, once every child has arrived, closes the cell and gives its result (R101). -/
theorem commits_of_all_arrived {kind : Nat} (hk : kind ≠ 0)
    (hi : ∀ s, exec i s = issue (form i) (fun s => joinForm d (rg s a) kind 0 s) s) (ha : accessesOut (curCtx t) = false)
    (hs : sinksOut t t.cur = false) (harr : c.arrived = c.spawned) :
    ∃ u, Commits i s (goesOn (wgSlow (acquireNow u .package) d (w64 c.result))) ∧
      getCell (curCore u) (jwCell (rg t a)) = Cell.closed := by
  have hcell : getCell (getCore t (.tile (jwOwner (rg t a)))) (jwCell (rg t a)) = c := curCore_of_own ho ▸ hc
  obtain ⟨hreason, hon⟩ := result_goesOn c
  refine ⟨joined t (jwCell (rg t a)) Cell.closed (w64 c.result), commits_of_effect (hi s) h ?_, joined_cell ..⟩
  have hawait := joinAwait_of_all (s := (newId t).2) (w := curWho (newId t).2 (newId t).1) hcell hopen (kind == 2) hw harr
  rw [← ho] at hawait
  refine (joinForm_await d hg hl ho hr hk hawait).trans ?_
  exact joinFinish_goesOn d _ hreason hon ((joined_accessesOut ..).trans ha) ((joined_sinksOut ..).trans hs)

/-- A seal before that seals the cell and ends its activation (R101). -/
theorem commits_of_seal (hi : ∀ s, exec i s = issue (form i) (fun s => joinForm d (rg s a) 1 0 s) s)
    (harr : c.arrived ≠ c.spawned) (hd : c.det = false) (he : endCheck t = .ok ()) :
    ∃ u, Commits i s { s := endActivation u u.cur, ended := true } ∧
      getCell (curCore u) (jwCell (rg t a)) = { c with sealed := true } := by
  have hcell : getCell (getCore t (.tile (jwOwner (rg t a)))) (jwCell (rg t a)) = c := curCore_of_own ho ▸ hc
  refine ⟨joined t (jwCell (rg t a)) { c with sealed := true } joinEnd, commits_of_effect (hi s) h ?_, joined_cell ..⟩
  have hawait := joinAwait_seals (s := (newId t).2) (w := curWho (newId t).2 (newId t).1) hcell hopen hw harr hd
  rw [← ho] at hawait
  exact (joinForm_await d hg hl ho hr Nat.one_ne_zero hawait).trans (joinFinish_joined_ends d _ _ _ ho he)

end

/-! ### JOIN.OPEN -/

theorem joinOpenOp_closed {t : State} (d : GReg) {a b : GReg} (hc : (getCell (curCore t) ((rg t a).toNat % 256)).isOpen = false)
    (hb : bit (rg t b).toNat 20 = true → (rg t b).toNat % 8 = 0) :
    joinOpenOp d a b t = .ok (goesOn (wgSlow (setCell t t.cur.agent ((rg t a).toNat % 256) { Cell.closed with
      isOpen := true, det := isDet t, opener := t.cur.slot, openerGen := (opCtx t).gen, ren := bit (rg t b).toNat 20,
      rbase := (rg t b).toNat % 2 ^ 20 }) d (joinWord (agentNo t.cur.agent) ((rg t a).toNat % 256) 0xFFFF))) := by
  have haligned : (bit (rg t b).toNat 20 && decide ((rg t b).toNat % 8 ≠ 0)) = false := by
    cases hbit : bit (rg t b).toNat 20 with
    | false => rfl
    | true => simp [hb hbit]
  simp only [joinOpenOp, hc, haligned, Bool.false_eq_true, if_false]
  rfl

theorem joinOpenOp_open {t : State} (d : GReg) {a : GReg} (b : GReg)
    (hc : (getCell (curCore t) ((rg t a).toNat % 256)).isOpen = true) :
    joinOpenOp d a b t = trap 0x1A (joinTval 3 (joinWord (agentNo t.cur.agent) ((rg t a).toNat % 256) 0xFFFF)) := by
  simp only [joinOpenOp, hc, if_true]

end Sys2Proof.Proofs
end

section
/-! SPAWN and FORK.R (R98, R99, R102): the request that a spawner leaves in its core, and the recruitment of a fork. -/

namespace Sys2Proof.Proofs

open Sys2Proof.Machine Sys2Proof.Laws

/-! ### What a spawner leaves -/

/-- The spawner with its send entry taken, its release begun, and a number taken (R102, R235). -/
def spawnBase (t : State) : State := (newId (startWriteBacks (sendSlot t 3) .package)).2

theorem spawnBase_keeps (t : State) : KeepsSpawner t (spawnBase t) :=
  ((keepsSpawner_sendSlot t 3).trans (keepsSpawner_startWriteBacks ..)).trans (keepsSpawner_newId _)

/-- The cell that the children of a spawner join; none is named by g0. -/
def spawnerCell (t : State) (j : GReg) : Cell := if j = 0 then Cell.closed else getCell (curCore t) (jwCell (rg t j))

/-- Registers g1 to g31 of the child of a SPAWN: its join word stands in g31. -/
def spawnRegs (t : State) (j : GReg) (n : Nat) : List Word :=
  if j = 0 then childRegs (spawnBase t) n
  else (childRegs (spawnBase t) n).set 30 (joinWord (jwOwner (rg t j)) (jwCell (rg t j)) (spawnerCell t j).spawned)

/-- The child of a SPAWN. -/
def spawnChild (t : State) (j b : GReg) (n : Nat) : Child :=
  mkChild (spawnBase t) (spawnRegs t j n) (rg t b).toNat (opCtx t).spawnCount

/-- The core that SPAWN names, or that the path gives in deterministic mode; none where it is to be found (R98). -/
def spawnTarget (t : State) (a : GReg) (ch : Child) : Option Nat :=
  if !bit (rg t a).toNat 63 then some ((rg t a).toNat % 2 ^ 11)
  else if isDet (spawnBase t) then some (detCore (spawnBase t) (opCtx t).launch ((rg t a).toNat % 4) ch.path) else none

/-- The request of a SPAWN, with what its release waits for. -/
def spawnRequest (t : State) (j a b : GReg) (n : Nat) : SpawnOut :=
  let u := spawnBase t
  ⟨u.ids, spawnChild t j b n, spawnTarget t a (spawnChild t j b n), (rg t a).toNat % 4, (spawnStores u).1, (spawnStores u).2,
    (spawnReads u).1, (spawnReads u).2, curWho u u.ids, false, false⟩

/-- The spawner with its cell's count raised. -/
def spawnCounted (t : State) (j : GReg) : State :=
  if j = 0 then spawnBase t
  else setCell (spawnBase t) (spawnBase t).cur.agent (jwCell (rg t j))
    { spawnerCell t j with spawned := (spawnerCell t j).spawned + 1 }

/-- The state that a SPAWN leaves. -/
def spawnDone (t : State) (j a b : GReg) (n : Nat) : State :=
  modCur (modCurCore (spawnCounted t j) fun co => { co with spawnOut := co.spawnOut ++ [spawnRequest t j a b n] })
    fun c => { c with spawnCount := c.spawnCount + 1 }

/-- The recruitment of a FORK.R, with what its release waits for. -/
def forkRecruit (t : State) (j a b : GReg) (n : Nat) : Recruit :=
  let u := spawnBase t
  let chunk := Nat.max 1 (bits (rg t a).toNat 47 32)
  ⟨curWho u u.ids, mkChild u (childRegs u n) (rg t b).toNat (opCtx u).spawnCount, (rg t a).toNat % 2 ^ 32, chunk,
    ((rg t a).toNat % 2 ^ 32 + chunk - 1) / chunk, if j = 0 then none else some (rg t j), (opCtx u).spawnCount, (opCtx u).path,
    (spawnStores u).1, (spawnStores u).2, (spawnReads u).1, (spawnReads u).2⟩

/-- The state that a FORK.R leaves. -/
def forkDone (t : State) (j a b : GReg) (n : Nat) : State :=
  modCurCore (spawnBase t) fun co => { co with recruits := co.recruits ++ [forkRecruit t j a b n] }

/-! ### The children's operands do not depend on the release -/

section
variable {t u : State} (h : KeepsSpawner t u)
include h

theorem KeepsSpawner.childRegs (n : Nat) : Machine.childRegs u n = Machine.childRegs t n := by
  simp only [Machine.childRegs, h.rg]

theorem KeepsSpawner.mkChild (g : List Word) (pc : Nat) (k : BitVec 32) : Machine.mkChild u g pc k = Machine.mkChild t g pc k := by
  simp only [Machine.mkChild, h.opCtx]

theorem KeepsSpawner.isDet : Machine.isDet u = Machine.isDet t := by
  simp only [Machine.isDet, launchOf, h.opCtx, h.findLaunch]

theorem KeepsSpawner.detCore (la : Option Nat) (role : Nat) (path : BitVec 32) :
    Machine.detCore u la role path = Machine.detCore t la role path := by
  simp only [Machine.detCore, h.findLaunch]

theorem KeepsSpawner.curCore : (Machine.curCore u).spawnOut = (Machine.curCore t).spawnOut ∧
    (Machine.curCore u).recruits = (Machine.curCore t).recruits := by
  obtain ⟨_, hout, hrec⟩ := h.2.2 t.cur.agent
  simp only [Machine.curCore, h.cur, hout, hrec, and_self]

end

/-! ### The effects -/

theorem takeSend_ok {t : State} {vn : Fin 4} (traps : Bool) (h : sendRoom t vn) : takeSend t vn traps = .ok (sendSlot t vn) := by
  simp only [takeSend, Nat.not_le.mpr h, if_false]
  rfl

/-- The cell that a join word names is the spawner's own: of its core, open, and opened by it (R100). -/
def OwnCell (t : State) (j : GReg) : Prop :=
  t.cur.agent = .tile (jwOwner (rg t j)) ∧ (getCell (curCore t) (jwCell (rg t j))).isOpen = true ∧
    opened (jwOwner (rg t j)) (getCell (curCore t) (jwCell (rg t j))) (curWho t 0) = true

theorem spawnCell_ok {t : State} {j : GReg} (h : OwnCell t j) :
    spawnCell t (rg t j) = .ok (getCell (curCore t) (jwCell (rg t j))) := by
  obtain ⟨ho, hopen, hw⟩ := h
  simp [spawnCell, ← ho, hopen, hw]

theorem spawnerCell_ok {t : State} {j : GReg} (h : j ≠ 0 → OwnCell t j) :
    (if j = 0 then .ok Cell.closed else spawnCell t (rg t j) : Do Cell) = .ok (spawnerCell t j) := by
  by_cases hj : j = 0
  · simp only [spawnerCell, hj, if_true]
  · simp only [spawnerCell, hj, if_false, spawnCell_ok (h hj)]

section
variable {t : State} {j a b : GReg} {n : Nat} (word : Nat) (hpc : (rg t b).toNat % 8 = 0) (hr : recruiting t = false)
  (hs : sendRoom t 3) (hc : j ≠ 0 → OwnCell t j)
include hpc hr hs hc

theorem spawnOp_ok (hn : j ≠ 0 → n ≤ 30) (hrole : (rg t a).toNat % 4 ≠ 3)
    (hcore : bit (rg t a).toNat 63 = false → inLaunch t (opCtx t) ((rg t a).toNat % 2 ^ 11) = true)
    (hany : bit (rg t a).toNat 63 = true → ∃ l, launchOf t (opCtx t) = some l ∧ roleCores l ((rg t a).toNat % 4) ≠ [])
    (hfull : j ≠ 0 → (spawnerCell t j).spawned < 65535) :
    spawnOp word j a b n t = .ok (goesOn (spawnDone t j a b n)) := by
  have hplace : ¬((rg t a).toNat % 4 = 3 ∨ (!bit (rg t a).toNat 63 && !inLaunch t (opCtx t) ((rg t a).toNat % 2 ^ 11)) = true ∨
      (bit (rg t a).toNat 63 && match launchOf t (opCtx t) with
        | some l => (roleCores l ((rg t a).toNat % 4)).isEmpty
        | none => true) = true) := by
    cases hbit : bit (rg t a).toNat 63 with
    | false => simp only [hrole, hcore hbit, Bool.not_true, Bool.and_false, Bool.false_and, Bool.false_eq_true, or_self, not_false_eq_true]
    | true =>
      obtain ⟨l, hl, hcores⟩ := hany hbit
      simp [hrole, hl, hcores]
  by_cases hj : j = 0
  · subst hj
    simp only [spawnOp, ne_eq, not_true_eq_false, false_and, if_false, hpc, hr, Bool.false_eq_true, if_true, takeSend_ok false hs,
      Bind.bind, Except.bind]
    exact if_neg hplace
  · have hfew : ¬30 < n := Nat.not_lt.mpr (hn hj)
    have hroom : (getCell (curCore t) (jwCell (rg t j))).spawned ≠ 65535 := by
      have := hfull hj
      rw [spawnerCell, if_neg hj] at this
      exact Nat.ne_of_lt this
    simp only [spawnOp, spawnDone, spawnCounted, spawnRequest, spawnChild, spawnTarget, spawnRegs, spawnerCell, ne_eq, hj,
      not_false_eq_true, true_and, hfew, if_false, hpc, not_true_eq_false, hr, Bool.false_eq_true, takeSend_ok false hs,
      spawnCell_ok (hc hj), hroom, Bind.bind, Except.bind]
    exact if_neg hplace

theorem forkOp_ok (hn : n ≤ 28) (htrip : (rg t a).toNat % 2 ^ 32 ≠ 0)
    (hfull : j ≠ 0 → (spawnerCell t j).spawned + (forkRecruit t j a b n).count ≤ 65535) :
    forkOp word j a b n t = .ok (goesOn (forkDone t j a b n)) := by
  have hfew : ¬28 < n := Nat.not_lt.mpr hn
  by_cases hj : j = 0
  · subst hj
    simp only [forkOp, hfew, if_false, hpc, ne_eq, not_true_eq_false, htrip, hr, Bool.false_eq_true, if_true, false_and,
      takeSend_ok false hs, Bind.bind, Except.bind]
    rfl
  · have hroom : ¬65535 < (getCell (curCore t) (jwCell (rg t j))).spawned + (forkRecruit t j a b n).count := by
      have := hfull hj
      rw [spawnerCell, if_neg hj] at this
      exact Nat.not_lt.mpr this
    simp only [forkOp, forkDone, forkRecruit, hfew, if_false, hpc, ne_eq, hj, not_true_eq_false, not_false_eq_true, true_and, htrip,
      hr, Bool.false_eq_true, takeSend_ok false hs, spawnCell_ok (hc hj), Bind.bind, Except.bind]
    exact if_neg hroom

end

/-! ### What they leave -/

theorem getElem_childRegs (s : State) (n : Nat) {i : Nat} (h : i < 31) :
    (childRegs s n)[i]? = some (if i < n then rg s (Fin.ofNat 32 (i + 1)) else 0) := by
  simp [childRegs, h]

/-- A child has its spawner's priority, ASID, launch and slate, and the path of its number (R99). -/
theorem mkChild_base (t : State) (g : List Word) (pc : Nat) (k : BitVec 32) :
    mkChild (spawnBase t) g pc k = ⟨g, pc, (opCtx t).pri, (opCtx t).asid, (opCtx t).launch, cmix32 (k + 1) (opCtx t).path,
      (opCtx t).slate⟩ := by
  simp only [mkChild, (spawnBase_keeps t).opCtx]

section
variable (t : State) (j a b : GReg) (n : Nat)

theorem spawnRegs_low {i : Nat} (h : i < 30) :
    (spawnRegs t j n)[i]? = some (if i < n then rg t (Fin.ofNat 32 (i + 1)) else 0) := by
  rw [← (spawnBase_keeps t).rg, ← getElem_childRegs _ n (Nat.lt_succ_of_lt h), spawnRegs]
  split
  · rfl
  · exact List.getElem?_set_ne (Nat.ne_of_gt h)

theorem spawnRegs_top_of_zero : (spawnRegs t 0 n)[30]? = some (if 30 < n then rg t 31 else 0) := by
  rw [spawnRegs, if_pos rfl, getElem_childRegs _ n (by decide), (spawnBase_keeps t).rg]
  rfl

theorem spawnRegs_top_of_word (h : j ≠ 0) :
    (spawnRegs t j n)[30]? = some (joinWord (jwOwner (rg t j)) (jwCell (rg t j)) (getCell (curCore t) (jwCell (rg t j))).spawned) := by
  rw [spawnRegs, if_neg h, spawnerCell, if_neg h]
  exact List.getElem?_set_self (by simp [childRegs])

theorem spawnTarget_eq (ch : Child) : spawnTarget t a ch =
    if bit (rg t a).toNat 63 = false then some ((rg t a).toNat % 2 ^ 11)
    else if isDet t = true then some (detCore t (opCtx t).launch ((rg t a).toNat % 4) ch.path) else none := by
  simp only [spawnTarget, (spawnBase_keeps t).isDet, (spawnBase_keeps t).detCore, Bool.not_eq_true']

theorem spawnCounted_cur : (spawnCounted t j).cur = t.cur := by
  unfold spawnCounted
  split <;> exact (spawnBase_keeps t).cur

theorem spawnCounted_curCtx : curCtx (spawnCounted t j) = curCtx t := by
  unfold spawnCounted
  split <;> exact (spawnBase_keeps t).curCtx

theorem spawnCounted_spawnOut : (curCore (spawnCounted t j)).spawnOut = (curCore t).spawnOut := by
  rw [← (spawnBase_keeps t).curCore.1, spawnCounted]
  split
  · rfl
  · exact setCell_spawnOut ..

theorem spawnDone_spawnCount : (curCtx (spawnDone t j a b n)).spawnCount = (curCtx t).spawnCount + 1 := by
  rw [spawnDone, curCtx_modCur, curCtx_modCurCore, spawnCounted_curCtx]

theorem spawnDone_spawnOut : (curCore (spawnDone t j a b n)).spawnOut = (curCore t).spawnOut ++ [spawnRequest t j a b n] := by
  rw [spawnDone, curCore_modCur, curCore_modCurCore, spawnCounted_spawnOut]

theorem spawnDone_cell (h : j ≠ 0) : (getCell (curCore (spawnDone t j a b n)) (jwCell (rg t j))).spawned =
    (getCell (curCore t) (jwCell (rg t j))).spawned + 1 := by
  rw [spawnDone, curCore_modCur, curCore_modCurCore, spawnCounted, if_neg h]
  refine (congrArg Cell.spawned (getCell_setCell ..)).trans ?_
  rw [spawnerCell, if_neg h]

theorem forkDone_recruits : (curCore (forkDone t j a b n)).recruits = (curCore t).recruits ++ [forkRecruit t j a b n] := by
  rw [forkDone, curCore_modCurCore, (spawnBase_keeps t).curCore.2]

end

end Sys2Proof.Proofs
end

section
/-! SPAWN and FORK.R name g0 among the registers that they read where they name no join word: g0 is always present, is never in
flight and is never consumed (R103, R104), so a bundle issues as though it were not named. -/

namespace Sys2Proof.Proofs

open Sys2Proof.Machine Sys2Proof.Laws

section
variable (f : Form)

/-- A form that reads g0 too. -/
def readsZero : Form := { f with gr := 0 :: f.gr }

theorem flying_readsZero : flying (readsZero f).regs = flying f.regs := by
  simp [readsZero, Form.regs, flying]

theorem before_readsZero (s : State) : before (readsZero f) s = before f s := by
  have hpresence : presence s (readsZero f).gr = presence s f.gr := by simp [readsZero, presence]
  simp only [before, hpresence, flightCheck, seqrCheck, flying_readsZero]
  rfl

theorem commit_readsZero (c : Ctx) (d : Done) : commit (readsZero f) c d = commit f c d := by
  have hconsumed : consumed (readsZero f) c = consumed f c := by simp [readsZero, consumed]
  simp only [commit, hconsumed]
  rfl

theorem issue_readsZero (body : Effect) (s : State) : issue (readsZero f) body s = issue f body s := by
  have hsettle (r : Do Done) : settle (readsZero f) s r = settle f s r := by
    cases r with
    | ok d => exact congrArg _ (commit_readsZero f _ d)
    | error e => cases e <;> rfl
  simp only [issue, issueWith, hsettle, before_readsZero]
  rfl

end

/-- The form of a SPAWN or a FORK.R issues as the form that its instruction names. -/
theorem exec_spawn_eq (j a b : GReg) (n : Fin 32) (s : State) :
    exec (.spawn j a b n) s = issue (form (.spawn j a b n)) (spawnOp (wP 0x1A j a b 0 n) j a b n) s := by
  rw [exec_spawn, execSpawn]
  by_cases hj : j = 0
  · subst hj; exact (issue_readsZero ..).symm
  · simp only [hj, if_false]; rfl

theorem exec_forkR_eq (j a b : GReg) (n : Fin 32) (s : State) :
    exec (.forkR j a b n) s = issue (form (.forkR j a b n)) (forkOp (wP 0x1A j a b 1 n) j a b n) s := by
  rw [exec_forkR, execForkR]
  by_cases hj : j = 0
  · subst hj; exact (issue_readsZero ..).symm
  · simp only [hj, if_false]; rfl

end Sys2Proof.Proofs
end

section
/-! PROOF of O35. The SCHED family, KILL and INVPG: a form commits with its own effect or raises its cause, so the statement is the
list of what each effect answers. -/

namespace Sys2Proof.Proofs

open Sys2Proof.Machine Sys2Proof.Laws

/-! ### SPAWN and FORK.R -/

theorem spawnOp_misaligned {t : State} {j b : GReg} {n : Nat} (word : Nat) (a : GReg) (hn : j ≠ 0 → n ≤ 30)
    (hpc : (rg t b).toNat % 8 ≠ 0) : spawnOp word j a b n t = trap 0x05 (rg t b) := by
  have hfew : ¬(j ≠ 0 ∧ 30 < n) := fun ⟨hj, hmany⟩ => Nat.not_lt.mpr (hn hj) hmany
  simp only [spawnOp, hfew, if_false, hpc, ne_eq, not_false_eq_true, if_true]

theorem forkOp_misaligned {t : State} {b : GReg} {n : Nat} (word : Nat) (j a : GReg) (hn : n ≤ 28)
    (hpc : (rg t b).toNat % 8 ≠ 0) : forkOp word j a b n t = trap 0x05 (rg t b) := by
  simp only [forkOp, Nat.not_lt.mpr hn, if_false, hpc, ne_eq, not_false_eq_true, if_true]

/-- A FORK.R of no iterations does nothing. -/
theorem forkOp_of_no_trip {t : State} {a b : GReg} {n : Nat} (word : Nat) (j : GReg) (hn : n ≤ 28)
    (hpc : (rg t b).toNat % 8 = 0) (htrip : (rg t a).toNat % 2 ^ 32 = 0) : forkOp word j a b n t = .ok (goesOn t) := by
  simp only [forkOp, Nat.not_lt.mpr hn, if_false, hpc, ne_eq, not_true_eq_false, htrip, if_true]
  rfl

/-! ### Budgets -/

theorem budgetCheck_ok {s : State} {word old v : Nat} {act : Bool}
    (h : curLevel s ≠ 0 ∨ (v ≤ old ∧ ¬(act = true ∧ v = 0xFFFFFFFF))) : budgetCheck s word old v act = .ok () := by
  refine if_neg fun hbad => ?_
  obtain ⟨hlevel, hraise⟩ := hbad
  obtain h | ⟨hle, hlift⟩ := h
  · exact h hlevel
  · exact hraise.elim (Nat.not_lt.mpr hle) hlift

theorem budgetCheck_refused {s : State} {word old v : Nat} {act : Bool} (hlevel : curLevel s = 0)
    (h : old < v ∨ (act = true ∧ v = 0xFFFFFFFF)) : budgetCheck s word old v act = trap 0x03 (encTval word 0 false) :=
  if_pos ⟨hlevel, h⟩

section
variable {t : State} (d : GReg) {a : GReg}

theorem budgetActOp_ok (h : curLevel t ≠ 0 ∨ (Nat.min (rg t a).toNat 0xFFFFFFFF ≤ (curCtx (elapse t)).actLeft ∧
      Nat.min (rg t a).toNat 0xFFFFFFFF ≠ 0xFFFFFFFF)) :
    budgetActOp d a t = .ok (goesOn (wg (modCur (elapse t) fun c => { c with
      actLeft := Nat.min (rg t a).toNat 0xFFFFFFFF
      inGrace := c.inGrace && !decide ((curCtx (elapse t)).actLeft < Nat.min (rg t a).toNat 0xFFFFFFFF) }) d
      (w64 (curCtx (elapse t)).actLeft))) := by
  have hcheck := h.imp_right fun ⟨hle, hne⟩ => (⟨hle, fun ⟨_, hlift⟩ => hne hlift⟩ : _ ∧ ¬(true = true ∧ _))
  simp only [budgetActOp, budgetCheck_ok hcheck, Bind.bind, Except.bind]
  rfl

theorem budgetActOp_refused (hlevel : curLevel t = 0) (h : (curCtx (elapse t)).actLeft < Nat.min (rg t a).toNat 0xFFFFFFFF ∨
      Nat.min (rg t a).toNat 0xFFFFFFFF = 0xFFFFFFFF) :
    budgetActOp d a t = trap 0x03 (encTval (wP 0x1A d a 0 3 0) 0 false) := by
  simp only [budgetActOp, budgetCheck_refused (act := true) hlevel (h.imp_right fun h => ⟨rfl, h⟩), Bind.bind, Except.bind]
  rfl

theorem budgetTakeOp_of_no_task (h : taskOf t (opCtx t) = none) : budgetTakeOp d a t = .ok (goesOn (wg t d 0xFFFFFFFF)) := by
  simp only [budgetTakeOp, h]
  rfl

variable {q : Fin 64} (hq : taskOf t (opCtx t) = some q)
include hq

theorem budgetTakeOp_ok (h : curLevel t ≠ 0 ∨ Nat.min (rg t a).toNat 0xFFFFFFFF ≤ ((curCore t).queues[q]).takeLeft) :
    budgetTakeOp d a t = .ok (goesOn (wg (modQueue t t.cur.agent q fun x => { x with
      takeLeft := Nat.min (rg t a).toNat 0xFFFFFFFF
      budgetHold := x.budgetHold || Nat.min (rg t a).toNat 0xFFFFFFFF == 0 }) d (w64 ((curCore t).queues[q]).takeLeft))) := by
  simp only [budgetTakeOp, hq, budgetCheck_ok (act := false) (h.imp_right fun h => ⟨h, by simp⟩), Bind.bind, Except.bind]
  rfl

theorem budgetTakeOp_refused (hlevel : curLevel t = 0)
    (h : ((curCore t).queues[q]).takeLeft < Nat.min (rg t a).toNat 0xFFFFFFFF) :
    budgetTakeOp d a t = trap 0x03 (encTval (wP 0x1A d a 0 3 1) 0 false) := by
  simp only [budgetTakeOp, hq, budgetCheck_refused (act := false) hlevel (.inl h), Bind.bind, Except.bind]
  rfl

end

/-! ### KILL and INVPG -/

/-- An answer that is awaited changes no register that a bundle reads. -/
theorem rg_awaitReg (t : State) (d r : GReg) : rg (awaitReg t d).2 r = rg t r := by
  simp only [rg]
  split
  · rfl
  · exact opCtx_modCur_keeps (fun c => c.g[r]) (fun _ => by rfl) _

section
variable {t : State} (d : GReg) {a : GReg}

theorem killOp_outside (h : inLaunch t (opCtx t) ((rg t a).toNat % 2 ^ 11) = false) :
    killOp d a t = trap 0x08 (reason2 ((rg t a).toNat % 2 ^ 11)) := by
  simp only [killOp, h, Bool.not_false, if_true]

variable (h : inLaunch t (opCtx t) ((rg t a).toNat % 2 ^ 11) = true)
include h

theorem killOp_self (hself : t.cur.agent = .tile ((rg t a).toNat % 2 ^ 11) ∧ bits (rg t a).toNat 21 16 = t.cur.slot ∧
      bits (rg t a).toNat 47 32 = (opCtx t).gen.toNat) : killOp d a t = .ok { s := killCtx t t.cur, ended := true } := by
  simp only [killOp, h, Bool.not_true, Bool.false_eq_true, if_false]
  exact if_pos hself

theorem killOp_other (hself : ¬(t.cur.agent = .tile ((rg t a).toNat % 2 ^ 11) ∧ bits (rg t a).toNat 21 16 = t.cur.slot ∧
      bits (rg t a).toNat 47 32 = (opCtx t).gen.toNat)) :
    killOp d a t =
      let r := awaitReg t d
      .ok (goesOn (sendPkt r.2 (nodeOf t.cur.agent) (.core ((rg t a).toNat % 2 ^ 11)) 3
        (.kill (curWho r.2 r.1) r.1 (rg t a) (bit (rg t a).toNat 63)))) := by
  simp only [killOp, h, Bool.not_true, Bool.false_eq_true, if_false, rg_awaitReg]
  exact if_neg hself

end

theorem invpgOp_ok {t : State} (d a b : GReg) (h : t.dev.invpg = none) :
    invpgOp d a b t =
      let r := awaitReg t d
      .ok (goesOn (modDev r.2 fun x => { x with invpg := some ⟨curWho r.2 r.1, r.1, (rg t a).toNat, (rg t b).toNat % 2 ^ 12,
        bits (rg t b).toNat 13 12, bit (rg t b).toNat 14⟩ })) := by
  simp only [invpgOp, h]
  rfl

/-! ### The statement -/

/-- Settles O35: each form's clause is the lemma about its effect. -/
theorem schedulingAndKillAnswer : Obligations.SchedulingAndKillAnswer := by
  refine ⟨fun d j a b n => ?_, fun d a b => ?_⟩
  · refine ⟨fun s t h hpc hn hrole hcore hany hr hs hc => ?_,
      answersIf_of_effect (exec_forkR_eq j a b n) fun t ⟨hn, hpc, htrip⟩ => forkOp_of_no_trip (wP 0x1A j a b 1 n) j hn hpc htrip,
      fun s t h hn hpc htrip hr hs hc => ?_,
      raisesIf_of_effect (exec_spawn_eq j a b n) fun t ⟨hn, _, hpc⟩ => spawnOp_misaligned (wP 0x1A j a b 0 n) a hn hpc,
      raisesIf_of_effect (exec_forkR_eq j a b n) fun t ⟨_, hn, hpc⟩ => forkOp_misaligned (wP 0x1A j a b 1 n) j a hn hpc,
      answersIf_of_effect (fun _ => rfl) fun t ⟨hc, hb⟩ => joinOpenOp_closed d hc hb,
      raisesIf_of_effect (fun _ => rfl) fun t hc => joinOpenOp_open d b hc,
      fun s t v => commits_of_answered fun _ => rfl, raises_of_answered fun _ => rfl,
      fun s t v => commits_of_answered fun _ => rfl, raises_of_answered fun _ => rfl,
      fun s t v => commits_of_answered fun _ => rfl, raises_of_answered fun _ => rfl,
      fun s t h hg hl ho hr hx hrel hopen hren harr he => commits_of_arrival h hg hl ho hr hx rfl hrel rfl hopen hren harr he,
      fun s t h hg hl ho hr hopen hw ha hs harr =>
        commits_of_all_arrived h hg hl ho hr rfl hopen hw Nat.one_ne_zero (fun _ => rfl) ha hs harr,
      fun s t h hg hl ho hr hopen hw ha hs harr =>
        commits_of_all_arrived h hg hl ho hr rfl hopen hw two_ne_zero (fun _ => rfl) ha hs harr,
      fun s t h hg hl ho hr hopen hw harr hd he => commits_of_seal h hg hl ho hr rfl hopen hw (fun _ => rfl) harr hd he,
      answersIf_of_effect (fun _ => rfl) fun t => budgetActOp_ok d,
      raisesIf_of_effect (fun _ => rfl) fun t ⟨hlevel, h⟩ => budgetActOp_refused d hlevel h,
      answersIf_of_effect (fun _ => rfl) fun t => budgetTakeOp_of_no_task d,
      fun q => answersIf_of_effect (fun _ => rfl) fun t ⟨hq, h⟩ => budgetTakeOp_ok d hq h,
      fun q => raisesIf_of_effect (fun _ => rfl) fun t ⟨hq, hlevel, h⟩ => budgetTakeOp_refused d hq hlevel h⟩
    · have hown : j ≠ 0 → OwnCell t j := fun hj => let ⟨ho, hopen, hw, _⟩ := hc hj; ⟨ho, hopen, hw⟩
      have hfull : j ≠ 0 → (spawnerCell t j).spawned < 65535 := fun hj => by
        obtain ⟨_, _, _, hfull⟩ := hc hj
        rwa [spawnerCell, if_neg hj]
      have hchild : (spawnRequest t j a b n).child = _ := mkChild_base t (spawnRegs t j n) (rg t b).toNat (opCtx t).spawnCount
      refine ⟨spawnDone t j a b n, spawnRequest t j a b n,
        commits_of_effect (exec_spawn_eq j a b n s) h (spawnOp_ok _ hpc hr hs hown hn hrole hcore hany hfull),
        spawnDone_spawnCount .., spawnDone_spawnOut .., spawnTarget_eq .., rfl, rfl, rfl, ?_⟩
      rw [hchild]
      exact ⟨rfl, rfl, rfl, rfl, rfl, fun i hi => spawnRegs_low t j n hi, fun hj => hj ▸ spawnRegs_top_of_zero t n,
        fun hj => ⟨spawnRegs_top_of_word t j n hj, spawnDone_cell t j a b n hj⟩⟩
    · have hown : j ≠ 0 → OwnCell t j := fun hj => let ⟨ho, hopen, hw, _⟩ := hc hj; ⟨ho, hopen, hw⟩
      have hfull : j ≠ 0 → (spawnerCell t j).spawned + (forkRecruit t j a b n).count ≤ 65535 := fun hj => by
        obtain ⟨_, _, _, hfull⟩ := hc hj
        rwa [spawnerCell, if_neg hj]
      have hchild : (forkRecruit t j a b n).template = _ :=
        mkChild_base t (childRegs (spawnBase t) n) (rg t b).toNat (opCtx (spawnBase t)).spawnCount
      refine ⟨forkDone t j a b n, forkRecruit t j a b n,
        commits_of_effect (exec_forkR_eq j a b n s) h (forkOp_ok _ hpc hr hs hown hn htrip hfull),
        forkDone_recruits .., rfl, rfl, rfl, rfl, ?_⟩
      rw [hchild]
      refine ⟨rfl, rfl, rfl, rfl, rfl, fun i hi => ?_⟩
      rw [← (spawnBase_keeps t).rg]
      exact getElem_childRegs _ n hi
  · refine ⟨fun t hl s h => issue_traps h (killOp_outside d hl),
      answersIf_of_effect (fun _ => rfl) fun t ⟨hl, hself⟩ => killOp_self d hl hself,
      answersIf_of_effect (fun _ => rfl) fun t ⟨hl, hself⟩ => killOp_other d hl hself,
      answersIf_of_effect (fun _ => rfl) fun t => invpgOp_ok d a b⟩

end Sys2Proof.Proofs
end

section
/-! The operations on words of Table 5.6 (R112 to R116): the model computes them on numbers, and these lemmas say them on the
words' bits. -/

namespace Sys2Proof.Proofs

open Sys2Proof.Machine Sys2Proof.Laws

/-! ### Products -/

/-- Bits [127:64] of a signed number are those of the 128-bit word that it wraps to. -/
theorem ofInt_high_half (z : Int) : BitVec.ofInt 64 (z / 2 ^ 64) = ((BitVec.ofInt 128 z) >>> 64).truncate 64 := by
  apply BitVec.eq_of_toNat_eq
  simp only [BitVec.toNat_ofInt, BitVec.truncate_eq_setWidth, BitVec.toNat_setWidth, BitVec.toNat_ushiftRight,
    Nat.shiftRight_eq_div_pow]
  omega

theorem ofNat_high_half (n : Nat) : BitVec.ofNat 64 (n / 2 ^ 64) = ((BitVec.ofNat 128 n) >>> 64).truncate 64 := by
  rw [← BitVec.ofInt_natCast, ← BitVec.ofInt_natCast, ← ofInt_high_half]
  rfl

theorem mulh_eq (x y : Word) : mulh x y = ((x.signExtend 128 * y.signExtend 128) >>> 64).truncate 64 := by
  rw [BitVec.signExtend, BitVec.signExtend, ← BitVec.ofInt_mul, ← ofInt_high_half]
  rfl

theorem mulhu_eq (x y : Word) : mulhu x y = ((x.zeroExtend 128 * y.zeroExtend 128) >>> 64).truncate 64 := by
  rw [mulhu, w64, ofNat_high_half, BitVec.ofNat_mul, BitVec.ofNat_toNat, BitVec.ofNat_toNat]

/-! ### Quotients and remainders (R113) -/

/-- The quotient of −2^63 by −1 wraps on both sides. -/
theorem sdivW_eq (x y : Word) : sdivW x y = x.sdiv y :=
  BitVec.eq_of_toInt_eq ((BitVec.toInt_ofInt _).trans (BitVec.toInt_sdiv x y).symm)

theorem sremW_eq (x y : Word) : sremW x y = x.srem y := by
  rw [sremW, sInt, sInt, ← BitVec.toInt_srem]
  exact BitVec.ofInt_toInt

theorem udivW_eq (x y : Word) : udivW x y = x / y := BitVec.udiv_def.symm

theorem uremW_eq (x y : Word) : uremW x y = x % y := BitVec.umod_def.symm

/-! ### Counts -/

section
variable {x : Word} (h : x ≠ 0)
include h

theorem toNat_ne_zero : x.toNat ≠ 0 := BitVec.toNat_ne_iff_ne.mpr h

theorem clzW_log2 : 63 - (clzW x).toNat = x.toNat.log2 := by
  have hlog : x.toNat.log2 < 64 := (Nat.log2_lt (toNat_ne_zero h)).mpr x.isLt
  rw [clzW, if_neg h, w64, BitVec.toNat_ofNat]
  omega

/-- The highest bit that is 1 is the one below the leading zeros. -/
theorem clzW_bits : x.getLsbD (63 - (clzW x).toNat) = true ∧ ∀ i, 63 - (clzW x).toNat < i → x.getLsbD i = false := by
  rw [clzW_log2 h]
  exact ⟨Nat.testBit_log2 (toNat_ne_zero h), fun i hi => Nat.testBit_lt_two_pow ((Nat.log2_lt (toNat_ne_zero h)).mp hi)⟩

/-- The lowest bit that is 1 is the one above the trailing zeros. -/
theorem ctzW_bits : x.getLsbD (ctzW x).toNat = true ∧ ∀ i, i < (ctzW x).toNat → x.getLsbD i = false := by
  have hsome : ((List.range 64).find? fun i => x.getLsbD i) ≠ none := fun hnone =>
    h (BitVec.eq_of_getLsbD_eq fun i hi => by simpa using List.find?_range_eq_none.mp hnone i hi)
  obtain ⟨n, hn⟩ := Option.ne_none_iff_exists'.mp hsome
  obtain ⟨hbit, hmem, hlow⟩ := List.find?_range_eq_some.mp hn
  have hn64 : n < 64 := List.mem_range.mp hmem
  have hctz : (ctzW x).toNat = n := by
    rw [ctzW, hn, w64, Option.getD_some, BitVec.toNat_ofNat]
    omega
  rw [hctz]
  exact ⟨hbit, fun i hi => by simpa using hlow i hi⟩

end

theorem countP_eq_sum {α : Type} (p : α → Bool) (l : List α) : l.countP p = (l.map fun x => (p x).toNat).sum := by
  induction l with
  | nil => rfl
  | cons x l ih => cases h : p x <;> simp [h, ih, Nat.add_comm]

theorem toNat_popcW (x : Word) : (popcW x).toNat = ((List.range 64).map fun i => (x.getLsbD i).toNat).sum := by
  have hle : ((List.range 64).countP fun i => x.getLsbD i) ≤ 64 := List.countP_le_length.trans_eq List.length_range
  rw [popcW, w64, BitVec.toNat_ofNat, ← countP_eq_sum, Nat.mod_eq_of_lt (by omega)]

/-! ### Bytes in reverse order -/

/-- Bit `8 * i + j` of the number of some bytes is bit `j` of byte `i`. -/
theorem testBit_natOf {j : Nat} (hj : j < 8) : ∀ (l : List Byte) (i : Nat),
    (natOf l).testBit (8 * i + j) = (l[i]?.getD 0).getLsbD j
  | [], i => by simp [natOf]
  | b :: l, i => by
    have hnat : natOf (b :: l) = 2 ^ 8 * natOf l + b.toNat := Nat.add_comm ..
    rw [hnat, Nat.testBit_two_pow_mul_add _ b.isLt]
    cases i with
    | zero => simp [hj, BitVec.getLsbD]
    | succ i =>
      rw [if_neg (by omega), show 8 * (i + 1) + j - 8 = 8 * i + j by omega, testBit_natOf hj l i, List.getElem?_cons_succ]

theorem getElem?_bytesOf : ∀ {i n : Nat} (v : Nat), i < n → (bytesOf v n)[i]? = some (BitVec.ofNat 8 (v / 2 ^ (8 * i)))
  | 0, n + 1, v, _ => by simp [bytesOf]
  | i + 1, n + 1, v, h => by
    have hdiv : v / 2 ^ (8 * (i + 1)) = v / 256 / 2 ^ (8 * i) := by
      rw [Nat.div_div_eq_div_mul, Nat.mul_succ, Nat.add_comm, Nat.pow_add]
    rw [bytesOf, List.getElem?_cons_succ, getElem?_bytesOf (v / 256) (Nat.lt_of_succ_lt_succ h), hdiv]

theorem getLsbD_bswapW (x : Word) {i j : Nat} (hi : i < 8) (hj : j < 8) :
    (bswapW x).getLsbD (8 * i + j) = x.getLsbD (8 * (7 - i) + j) := by
  have hbyte : (bytesOf x.toNat 8).reverse[i]? = some (BitVec.ofNat 8 (x.toNat / 2 ^ (8 * (7 - i)))) := by
    rw [List.getElem?_reverse (by simpa using hi), length_bytesOf, getElem?_bytesOf _ (by omega)]
  have hin : 8 * i + j < 64 := by omega
  rw [bswapW, w64, BitVec.getLsbD_ofNat, testBit_natOf hj, hbyte, Option.getD_some, BitVec.getLsbD_ofNat,
    Nat.testBit_div_two_pow]
  simp [hin, hj, Nat.add_comm j, BitVec.getLsbD]

/-! ### The upper immediate (R116) -/

theorem toNat_append_zeros {m : Nat} (h : BitVec m) (n : Nat) : (h ++ 0#n).toNat = h.toNat * 2 ^ n := by
  simp [BitVec.toNat_append, Nat.shiftLeft_eq]

theorem signExt_shifted_imm20 (h : BitVec 20) : signExt 32 (w64 (h.toNat * 2 ^ 12)) = (h ++ 0#12).signExtend 64 := by
  have hlow : (w64 (h.toNat * 2 ^ 12)).truncate 32 = h ++ 0#12 := by
    apply BitVec.eq_of_toNat_eq
    have happ := toNat_append_zeros h 12
    have hlt := h.isLt
    rw [w64, BitVec.truncate_eq_setWidth, BitVec.toNat_setWidth, BitVec.toNat_ofNat, happ]
    omega
  rw [signExt, hlow]

/-- Settles O3, from the lemmas about the products, the counts and the byte reversal. -/
theorem productsAndCountsAreExact : Obligations.ProductsAndCountsAreExact :=
  ⟨fun x y => ⟨mulhu_eq x y, mulh_eq x y⟩, rfl, rfl,
    fun x => ⟨clzW_bits, ctzW_bits, toNat_popcW x, fun _ _ => getLsbD_bswapW x⟩⟩

end Sys2Proof.Proofs
end

section
/-! PROOF of O1, O2 and O4. The scalar instructions have four shapes: a lemma for each says that the form commits with the
function of Table 5.6 that it is given, or raises cause 0x25, and each instruction names its function. -/

namespace Sys2Proof.Proofs

open Sys2Proof.Machine Sys2Proof.Laws

section
variable {i : Instr} {d a b : GReg}

theorem answers_alu1 (f : Word → Word) (hi : ∀ s, exec i s = alu1 (form i) d a f s) :
    Answers i fun t => goesOn (wg t d (f (rg t a))) := answers_of_effect hi fun _ => rfl

theorem answers_alu2 (f : Word → Word → Word) (hi : ∀ s, exec i s = alu2 (form i) d a b f s) :
    Answers i fun t => goesOn (wg t d (f (rg t a) (rg t b))) := answers_of_effect hi fun _ => rfl

theorem answers_alu2Slow (f : Word → Word → Word) (hi : ∀ s, exec i s = alu2Slow (form i) d a b f s) :
    Answers i fun t => goesOn (wgSlow t d (f (rg t a) (rg t b))) := answers_of_effect hi fun _ => rfl

/-- LEA scales its second operand from the left in R117. -/
theorem answers_lea (k : Word) (hi : ∀ s, exec i s = alu2 (form i) d a b (fun x y => x + y * k) s) :
    Answers i fun t => goesOn (wg t d (rg t a + k * rg t b)) := by
  simpa only [BitVec.mul_comm] using answers_alu2 _ hi

section
variable {f : Word → Word → Word} (hi : ∀ s, exec i s = divide (form i) d a b f s)
include hi

theorem answersIf_divide (g : Word → Word → Word) (hf : ∀ x y, f x y = g x y) :
    AnswersIf i (fun t => rg t b ≠ 0) fun t => goesOn (wgSlow t d (g (rg t a) (rg t b))) :=
  answersIf_of_effect hi fun t hb => (if_neg hb).trans (by rw [hf]; rfl)

theorem raisesIf_divide : RaisesIf i (fun t => rg t b = 0) 0x25 fun _ => 0 := raisesIf_of_effect hi fun _ hb => if_pos hb

end

end

/-- Settles O1: each form has one of the shapes, with its function. -/
theorem aluAnswers : Obligations.AluAnswers :=
  ⟨fun d a b => ⟨
    answers_alu2 (· + ·) (exec_add d a b),
    answers_alu2 (· - ·) (exec_sub d a b),
    answers_alu2 (· &&& ·) (exec_and d a b),
    answers_alu2 (· ||| ·) (exec_or d a b),
    answers_alu2 (· ^^^ ·) (exec_xor d a b),
    answers_alu2 (fun x y => x <<< amount y) (exec_shl d a b),
    answers_alu2 (fun x y => x >>> amount y) (exec_shr d a b),
    answers_alu2 (fun x y => x.sshiftRight (amount y)) (exec_sra d a b),
    answers_alu2 (fun x y => rotl x (amount y)) (exec_rotl d a b),
    answers_alu2 (fun x y => if sInt x ≤ sInt y then x else y) (exec_min d a b),
    answers_alu2 (fun x y => if sInt x ≤ sInt y then y else x) (exec_max d a b),
    answers_alu2 (fun x y => if x.toNat ≤ y.toNat then x else y) (exec_minu d a b),
    answers_alu2 (fun x y => if x.toNat ≤ y.toNat then y else x) (exec_maxu d a b),
    answers_alu2 (fun x y => ofBool (decide (sInt x < sInt y))) (exec_slt d a b),
    answers_alu2 (fun x y => ofBool (decide (x.toNat < y.toNat))) (exec_sltu d a b),
    by simpa only [BitVec.one_mul] using answers_lea 1#64 (exec_leaScale1 d a b),
    answers_lea 2 (exec_leaScale2 d a b),
    answers_lea 4 (exec_leaScale4 d a b),
    answers_lea 8 (exec_leaScale8 d a b)⟩,
  fun d a b => ⟨
    answers_alu1 clzW (exec_clz d a),
    answers_alu1 ctzW (exec_ctz d a),
    answers_alu1 popcW (exec_popc d a),
    answers_alu1 bswapW (exec_bswap d a),
    answers_alu1 (signExt 8) (exec_sextb d a),
    answers_alu1 (signExt 16) (exec_sexth d a),
    answers_alu1 (signExt 32) (exec_sextw d a),
    answers_alu1 (zeroExt 8) (exec_zextb d a),
    answers_alu1 (zeroExt 16) (exec_zexth d a),
    answers_alu1 (zeroExt 32) (exec_zextw d a),
    answers_of_effect (exec_sel d a b) fun _ => rfl⟩⟩

/-- Settles O2: a division has one shape with two outcomes, and its function is the library's on words. -/
theorem multiplyAndDivideAnswer : Obligations.MultiplyAndDivideAnswer := fun d a b => ⟨
  answers_alu2Slow (· * ·) (exec_mul d a b),
  answers_alu2Slow mulh (exec_mulh d a b),
  answers_alu2Slow mulhu (exec_mulhu d a b),
  answersIf_divide (exec_div d a b) BitVec.sdiv sdivW_eq,
  answersIf_divide (exec_divu d a b) (· / ·) udivW_eq,
  answersIf_divide (exec_rem d a b) BitVec.srem sremW_eq,
  answersIf_divide (exec_remu d a b) (· % ·) uremW_eq,
  raisesIf_divide (exec_div d a b),
  raisesIf_divide (exec_divu d a b),
  raisesIf_divide (exec_rem d a b),
  raisesIf_divide (exec_remu d a b)⟩

/-- Settles O4: an immediate form has the shape of one operand, its function holding the immediate; MOVHI's value is
`signExt_shifted_imm20`. -/
theorem immediatesAnswer : Obligations.ImmediatesAnswer := fun d a i j n h => ⟨
  answers_alu1 (· + imm15 i) (exec_addi d a i),
  answers_alu1 (· &&& imm15 i) (exec_andi d a i),
  answers_alu1 (· ||| imm15 i) (exec_ori d a i),
  answers_alu1 (· ^^^ imm15 i) (exec_xori d a i),
  answers_alu1 (fun x => ofBool (decide (sInt x < sInt (imm15 i)))) (exec_slti d a i),
  answers_alu1 (fun x => ofBool (decide (x.toNat < (imm15 i).toNat))) (exec_sltiu d a i),
  answers_alu1 (· + imm32 j) (exec_addiLong d a j),
  answers_alu1 (· &&& imm32 j) (exec_andiLong d a j),
  answers_alu1 (· ||| imm32 j) (exec_oriLong d a j),
  answers_alu1 (· ^^^ imm32 j) (exec_xoriLong d a j),
  answers_alu1 (fun x => ofBool (decide (sInt x < sInt (imm32 j)))) (exec_sltiLong d a j),
  answers_alu1 (fun x => ofBool (decide (x.toNat < (imm32 j).toNat))) (exec_sltiuLong d a j),
  answers_alu1 (· <<< n.toNat) (exec_shli d a n),
  answers_alu1 (· <<< n.toNat) (exec_shliLong d a n),
  answers_alu1 (· >>> n.toNat) (exec_shri d a n),
  answers_alu1 (· >>> n.toNat) (exec_shriLong d a n),
  answers_alu1 (·.sshiftRight n.toNat) (exec_srai d a n),
  answers_alu1 (·.sshiftRight n.toNat) (exec_sraiLong d a n),
  answers_alu1 (rotl · n.toNat) (exec_rotli d a n),
  answers_alu1 (rotl · n.toNat) (exec_rotliLong d a n),
  answers_of_effect (exec_movhi d h) fun _ => by rw [signExt_shifted_imm20]; rfl⟩

end Sys2Proof.Proofs
end

section
/-! PROOF of O5. A branch goes to its target where its condition holds and on where it does not; JALR jumps to an aligned target
and traps at another. -/

namespace Sys2Proof.Proofs

open Sys2Proof.Machine Sys2Proof.Laws

section
variable {i : Instr} {a b : GReg} {off : Word} {c : Word → Word → Bool} (hi : ∀ s, exec i s = branch (form i) a b off c s)
  {p : State → Prop} (hp : ∀ t, c (rg t a) (rg t b) = true ↔ p t)
include hi hp

theorem branch_taken : AnswersIf i p fun t => jumpsTo t (w64 (opCtx t).pc + 8 * off).toNat :=
  answersIf_of_effect hi fun t h => if_pos ((hp t).mpr h)

theorem branch_not_taken : AnswersIf i (fun t => ¬p t) goesOn :=
  answersIf_of_effect hi fun t h => if_neg fun hc => h ((hp t).mp hc)

end

section
variable {i : Instr} {d a : GReg} {k : Word} (hi : ∀ s, exec i s = issue (form i) (jalrTo d a k) s)
include hi

theorem jalr_aligned : AnswersIf i (fun t => (rg t a + k).toNat % 8 = 0) fun t =>
    jumpsTo (wg t d (w64 (opCtx t).pc + 8)) (rg t a + k).toNat :=
  answersIf_of_effect hi fun _ h => if_neg (not_not_intro h)

theorem jalr_misaligned : RaisesIf i (fun t => (rg t a + k).toNat % 8 ≠ 0) 0x05 fun t => rg t a + k :=
  raisesIf_of_effect hi fun _ h => if_pos h

end

/-- Settles O5: the two outcomes of each branch and of JALR. -/
theorem branchesAndJumpsAnswer : Obligations.BranchesAndJumpsAnswer :=
  ⟨fun a b o j => ⟨
    branch_taken (exec_beq a b o) fun _ => beq_iff_eq,
    branch_not_taken (exec_beq a b o) fun _ => beq_iff_eq,
    branch_taken (exec_beqLong a b j) fun _ => beq_iff_eq,
    branch_not_taken (exec_beqLong a b j) fun _ => beq_iff_eq,
    branch_taken (exec_bne a b o) fun _ => bne_iff_ne,
    branch_not_taken (exec_bne a b o) fun _ => bne_iff_ne,
    branch_taken (exec_bneLong a b j) fun _ => bne_iff_ne,
    branch_not_taken (exec_bneLong a b j) fun _ => bne_iff_ne,
    branch_taken (exec_blt a b o) fun _ => decide_eq_true_iff,
    branch_not_taken (exec_blt a b o) fun _ => decide_eq_true_iff,
    branch_taken (exec_bltLong a b j) fun _ => decide_eq_true_iff,
    branch_not_taken (exec_bltLong a b j) fun _ => decide_eq_true_iff,
    branch_taken (exec_bge a b o) fun _ => decide_eq_true_iff,
    branch_not_taken (exec_bge a b o) fun _ => decide_eq_true_iff,
    branch_taken (exec_bgeLong a b j) fun _ => decide_eq_true_iff,
    branch_not_taken (exec_bgeLong a b j) fun _ => decide_eq_true_iff,
    branch_taken (exec_bltu a b o) fun _ => decide_eq_true_iff,
    branch_not_taken (exec_bltu a b o) fun _ => decide_eq_true_iff,
    branch_taken (exec_bltuLong a b j) fun _ => decide_eq_true_iff,
    branch_not_taken (exec_bltuLong a b j) fun _ => decide_eq_true_iff,
    branch_taken (exec_bgeu a b o) fun _ => decide_eq_true_iff,
    branch_not_taken (exec_bgeu a b o) fun _ => decide_eq_true_iff,
    branch_taken (exec_bgeuLong a b j) fun _ => decide_eq_true_iff,
    branch_not_taken (exec_bgeuLong a b j) fun _ => decide_eq_true_iff⟩,
  fun d a o i j => ⟨
    answers_of_effect (exec_jal d o) fun _ => rfl,
    answers_of_effect (exec_jalLong d j) fun _ => rfl,
    jalr_aligned (exec_jalr d a i),
    jalr_misaligned (exec_jalr d a i),
    jalr_aligned (exec_jalrLong d a j),
    jalr_misaligned (exec_jalrLong d a j)⟩⟩

end Sys2Proof.Proofs
end

section
/-! PROOF of O6. GADDR's outcomes follow the walk of R119; a NUM instruction commits with its numbers or refuses its encoding. -/

namespace Sys2Proof.Proofs

open Sys2Proof.Machine Sys2Proof.Laws

/-! ### GADDR (R119, R120) -/

section
variable {d a b : GReg} {s t : State} (h : Ready (form (.gaddr d a b)) s t)
include h

theorem gaddr_found {l : Launch} {v : Word} (hl : launchOf t (opCtx t) = some l)
    (hv : gaddrOf l (rg t a).toNat ((rg t b).toNat % 32) = .ok v) : Commits (.gaddr d a b) s (goesOn (wgSlow t d v)) :=
  commits_of_effect (exec_gaddr d a b s) h (by simp only [hl, hv]; rfl)

theorem gaddr_refused {l : Launch} {v : Word} (hl : launchOf t (opCtx t) = some l)
    (hv : gaddrOf l (rg t a).toNat ((rg t b).toNat % 32) = .error v) : Raises (.gaddr d a b) s 0x1D v :=
  (exec_gaddr d a b s).trans (issue_traps h (by simp only [hl, hv]))

theorem gaddr_without_launch (hl : launchOf t (opCtx t) = none) :
    Raises (.gaddr d a b) s 0x1D (gaddrTval ((rg t b).toNat % 32) 0 0 0) :=
  (exec_gaddr d a b s).trans (issue_traps h (by simp only [hl]))

end

/-! ### CVTFX and CVTXF (R125, R126), where the flags trap nothing -/

section
variable {d a b : GReg} {s t u : State}

theorem cvtfx_commits (h : Ready (form (.cvtfx d a b)) s t) (hd : d ≠ 0) (heven : d.val % 2 = 0)
    (hu : setFlags t [(floorToGrid (lo32 (rg t a)).toNat (anchor (rg t b))).2.1] = .ok u) :
    Commits (.cvtfx d a b) s (goesOn (inFlight
      (wgPair u d ((floorToGrid (lo32 (rg t a)).toNat (anchor (rg t b))).1 % 2 ^ 128).toNat) [.g d, .g (nextReg d)])) := by
  have hpair : ¬(d.val = 0 ∨ d.val % 2 = 1) := fun hbad => hbad.elim (fun h0 => hd (Fin.ext h0)) (by omega)
  refine commits_of_effect (exec_cvtfx d a b s) h ((if_neg hpair).trans ?_)
  simp only [hu, Bind.bind, Except.bind]
  rfl

theorem cvtxf_commits {m : RMode} (h : Ready (form (.cvtxf d a b)) s t) (heven : a.val % 2 = 0)
    (hmode : bits (rg t b).toNat 18 16 ≤ 4)
    (hm : m = if bits (rg t b).toNat 18 16 = 4 then fpRm (opCtx t) else rmode (bits (rg t b).toNat 18 16))
    (hu : setFlags t [(roundFromFixed (BitVec.ofNat 128 (rgPair t a)).toInt (anchor (rg t b)) m).2] = .ok u) :
    Commits (.cvtxf d a b) s (goesOn
      (wgSlow u d (w64 (roundFromFixed (BitVec.ofNat 128 (rgPair t a)).toInt (anchor (rg t b)) m).1))) := by
  subst hm
  refine commits_of_effect (exec_cvtxf d a b s) h ((if_neg (by omega)).trans ?_)
  simp only [hu, Bind.bind, Except.bind]
  rfl

end

/-- Settles O6: GADDR's three outcomes, and for each NUM instruction its numbers and its encoding fault. -/
theorem gaddrAndNumberInstructionsAnswer : Obligations.GaddrAndNumberInstructionsAnswer :=
  ⟨fun _ _ _ _ _ h => ⟨fun _ _ => gaddr_found h, fun _ _ => gaddr_refused h, gaddr_without_launch h⟩,
  fun d a b => ⟨
    answersIf_of_effect (exec_rand d a b) fun _ hregs => if_neg fun ⟨hsame, hd⟩ => hregs.elim (· hsame) hd,
    raisesIf_of_effect (exec_rand d a b) fun _ hregs => if_pos hregs,
    fun _ _ _ => cvtfx_commits,
    raisesIf_of_effect (exec_cvtfx d a b) fun _ hpair => if_pos (hpair.imp_left Fin.ext_iff.mp),
    fun _ _ _ _ => cvtxf_commits,
    raisesIf_of_effect (exec_cvtxf d a b) fun _ hpair => if_pos hpair⟩⟩

end Sys2Proof.Proofs
end

section
/-! The canonical form of memory through the answers of the model: what an effect, an issue and an event must answer for a step
to keep `State.Inv`, and the rules by which the answers of their parts compose. -/

namespace Sys2Proof.Proofs

open Sys2Proof.Machine Sys2Proof.Laws

-- The declarations are checked one after another: checked side by side, their threads exhaust the memory.
set_option Elab.async false

/-! ### Answers -/

/-- Whatever state a stall carries is canonical. -/
def StallInv : Stall → Prop
  | .trap _ _ => True
  | .trapAfter t _ _ => State.Inv t
  | .wait t _ _ _ => State.Inv t
  | .hold t => State.Inv t

/-- A computation that succeeds answers what `P` holds of, and one that stalls carries a canonical state. -/
def DoInv {α : Type} (P : α → Prop) : Do α → Prop
  | .ok a => P a
  | .error e => StallInv e

/-- An effect that keeps the canonical form, whether it succeeds or stalls. -/
def EffectInv (body : Effect) : Prop := ∀ s, State.Inv s → DoInv (fun d => State.Inv d.s) (body s)

/-- A next state is canonical. -/
def OutInv : Out → Prop
  | .next t => State.Inv t
  | _ => True

/-- Where there is a state, it is canonical. -/
def OptInv : Option State → Prop
  | some t => State.Inv t
  | none => True

/-! ### How they compose -/

/-- An operation that leaves memory and the full/empty bits as they were keeps the canonical form. -/
theorem inv_keep {s t : State} (h : State.Inv s) (hm : t.mem = s.mem := by simp) (hf : t.full = s.full := by simp) :
    State.Inv t := inv_congr hm hf h

theorem inv_of_keeps {s t : State} (hk : t.mem = s.mem ∧ t.full = s.full) (h : State.Inv s) : State.Inv t :=
  inv_congr hk.1 hk.2 h

theorem inv_ite {c : Prop} [Decidable c] {t u : State} (ht : State.Inv t) (hu : State.Inv u) : State.Inv (if c then t else u) := by
  split
  · exact ht
  · exact hu

theorem inv_modCur {s : State} (h : State.Inv s) (f : Ctx → Ctx) : State.Inv (modCur s f) := inv_keep h

theorem inv_modCtx {s : State} (h : State.Inv s) (k : CtxKey) (f : Ctx → Ctx) : State.Inv (modCtx s k f) := inv_keep h

theorem inv_modCore {s : State} (h : State.Inv s) (a : Agent) (f : Core → Core) : State.Inv (modCore s a f) := inv_keep h

theorem inv_modCurCore {s : State} (h : State.Inv s) (f : Core → Core) : State.Inv (modCurCore s f) := inv_keep h

theorem inv_modDev {s : State} (h : State.Inv s) (f : Device → Device) : State.Inv (modDev s f) := inv_keep h

theorem inv_landNow {s : State} (h : State.Inv s) (what : Awaited) (v : Nat) : State.Inv (landNow s what v) := inv_keep h

theorem inv_record {s : State} (h : State.Inv s) (c n : Nat) (l : List Nat) : State.Inv (record s c n l) := inv_keep h

theorem inv_wgSlow {s : State} (h : State.Inv s) (r : GReg) (v : Word) : State.Inv (wgSlow s r v) := inv_keep h

theorem DoInv.bind {α β : Type} {P : α → Prop} {Q : β → Prop} {x : Do α} {f : α → Do β} (hx : DoInv P x)
    (hf : ∀ a, P a → DoInv Q (f a)) : DoInv Q (x >>= f) := by
  cases x with
  | ok a => exact hf a hx
  | error e => exact hx

@[simp] theorem doInv_ok {α : Type} {P : α → Prop} {a : α} : DoInv P (.ok a) ↔ P a := Iff.rfl

@[simp] theorem doInv_trap {α : Type} {P : α → Prop} {code : Nat} {tval : Word} : DoInv P (trap code tval) ↔ True := Iff.rfl

@[simp] theorem doInv_hold {α : Type} {P : α → Prop} {t : State} : DoInv P (.error (.hold t)) ↔ State.Inv t := Iff.rfl

@[simp] theorem doInv_wait {α : Type} {P : α → Prop} {t : State} {kind obj owner : Nat} :
    DoInv P (.error (.wait t kind obj owner)) ↔ State.Inv t := Iff.rfl

@[simp] theorem doInv_trapAfter {α : Type} {P : α → Prop} {t : State} {code : Nat} {tval : Word} :
    DoInv P (.error (.trapAfter t code tval)) ↔ State.Inv t := Iff.rfl

@[simp] theorem optInv_some {t : State} : OptInv (some t) ↔ State.Inv t := Iff.rfl

@[simp] theorem optInv_none : OptInv none ↔ True := Iff.rfl

@[simp] theorem outInv_next {t : State} : OutInv (.next t) ↔ State.Inv t := Iff.rfl

@[simp] theorem outInv_event {t : State} : OutInv (event t) ↔ State.Inv t := Iff.rfl

theorem OutInv.ite {c : Prop} [Decidable c] {x y : Out} (hx : OutInv x) (hy : OutInv y) : OutInv (if c then x else y) := by
  split
  · exact hx
  · exact hy

theorem optInv_unless {c : Prop} [Decidable c] {t : State} (ht : State.Inv t) : OptInv (if c then none else some t) := by
  split
  · trivial
  · exact ht

theorem DoInv.ite {α : Type} {P : α → Prop} {c : Prop} [Decidable c] {x y : Do α} (hx : DoInv P x) (hy : DoInv P y) :
    DoInv P (if c then x else y) := by
  split
  · exact hx
  · exact hy

theorem DoInv.of_ok {α : Type} {P : α → Prop} {x : Do α} (hx : DoInv P x) {a : α} (e : x = .ok a) : P a := by
  rw [e] at hx
  exact hx

theorem DoInv.of_error {α : Type} {P : α → Prop} {x : Do α} (hx : DoInv P x) {e : Stall} (he : x = .error e) : StallInv e := by
  rw [he] at hx
  exact hx

theorem OptInv.of_some {o : Option State} (ho : OptInv o) {t : State} (e : o = some t) : State.Inv t := by
  rw [e] at ho
  exact ho

theorem OptInv.getD {s : State} {o : Option State} (ho : OptInv o) (h : State.Inv s) : State.Inv (o.getD s) := by
  cases o with
  | some t => exact ho
  | none => exact h

theorem OptInv.map {o : Option State} (ho : OptInv o) {f : State → State} (hf : ∀ t, State.Inv t → State.Inv (f t)) :
    OptInv (o.map f) := by
  cases o with
  | some t => exact hf t ho
  | none => trivial

/-- A check that answers nothing but whether the bundle goes on. -/
abbrev CheckInv (x : Do Unit) : Prop := DoInv (fun _ => True) x

/-- A computation whose answer holds a state. -/
abbrev StateInv (x : Do State) : Prop := DoInv State.Inv x

end Sys2Proof.Proofs
end

section
/-! The canonical form of memory through translation, the accesses of a bundle and the fences. -/

namespace Sys2Proof.Proofs

open Sys2Proof.Machine Sys2Proof.Laws

-- The declarations are checked one after another: checked side by side, their threads exhaust the memory.
set_option Elab.async false

variable {s : State}

/-! ### Translation and checks -/

theorem entryCheck_inv (h : State.Inv s) (a : Nat) : CheckInv (entryCheck s a) := by
  unfold entryCheck
  split
  · exact h
  · split <;> trivial

theorem entriesCheck_inv (h : State.Inv s) (table va level : Nat) : CheckInv (entriesCheck s table va level) := by
  refine (entryCheck_inv h _).bind fun _ _ => ?_
  split
  · exact entryCheck_inv h _
  · trivial

theorem walkFrom_inv (h : State.Inv s) (asid : BitVec 12) (va kind : Nat) (n : Nat) :
    ∀ table, DoInv (fun _ => True) (walkFrom s asid va kind table n) := by
  induction n with
  | zero => exact fun _ => trivial
  | succ n ih =>
    refine fun table => (entriesCheck_inv h _ _ _).bind fun _ _ => ?_
    dsimp only
    repeat' split
    · trivial
    · trivial
    · trivial
    · exact ih _

theorem walk_inv (h : State.Inv s) (asid : BitVec 12) (va kind : Nat) : DoInv (fun _ => True) (walk s asid va kind) := by
  unfold walk
  dsimp only
  split
  · trivial
  · refine (entryCheck_inv h _).bind fun _ _ => ?_
    repeat' split
    · trivial
    · trivial
    · exact walkFrom_inv h ..

theorem translation_inv (h : State.Inv s) (a : Agent) (asid : BitVec 12) (va kind : Nat) :
    DoInv (fun r => State.Inv r.1) (translation s a asid va kind) := by
  unfold translation
  split
  · exact inv_keep h
  · split
    · exact (walk_inv h ..).bind fun _ _ => inv_keep h
    · dsimp only
      split
      · exact inv_keep h
      · exact (walk_inv h ..).bind fun _ _ => inv_keep h

theorem translate_inv (h : State.Inv s) (a : Agent) (asid : BitVec 12) (user : Bool) (va kind : Nat) (need : Need) :
    DoInv (fun r => State.Inv r.1) (translate s a asid user va kind need) := by
  refine (translation_inv h ..).bind fun r hr => ?_
  dsimp only
  split
  · exact hr
  · trivial

theorem resolve_inv (h : State.Inv s) (a : Agent) (asid : BitVec 12) (user : Bool) (ea : Word) (kind : Nat) (need : Need) :
    DoInv (fun r => State.Inv r.1) (resolve s a asid user ea kind need) := by
  unfold resolve
  dsimp only
  repeat' split
  · trivial
  · trivial
  · trivial
  · trivial
  · exact h
  · exact h
  · exact (translate_inv h ..).bind fun _ hr => hr

theorem resolveCur_inv (h : State.Inv s) (ea : Word) (kind : Nat) (need : Need) :
    DoInv (fun r => State.Inv r.1) (resolveCur s ea kind need) := resolve_inv h ..

theorem ownCheck_inv (h : State.Inv s) (ea : Word) (off n : Nat) (store : Bool) : CheckInv (ownCheck s ea off n store) := by
  unfold ownCheck
  dsimp only
  split
  · trivial
  · exact h
  · split <;> trivial

theorem loadCheck_inv (s : State) (a n : Nat) : CheckInv (loadCheck s a n) := by
  unfold loadCheck
  split <;> trivial

theorem sentLoadCheck_inv (h : State.Inv s) (dst : Node) (a n : Nat) : CheckInv (sentLoadCheck s dst a n) := by
  unfold sentLoadCheck
  split
  · exact h
  · exact loadCheck_inv ..

/-! ### Requests -/

theorem post_inv (h : State.Inv s) (dst : Node) (va : Word) (b : Nat → Body) : StateInv (post s dst va b) := by
  unfold post
  split
  · exact h
  · dsimp only
    split <;> exact inv_keep h

theorem postAccess_inv (h : State.Inv s) (t : Target) (va : Word) (op : AOp) : StateInv (postAccess s t va op) := post_inv h ..

theorem request_inv (h : State.Inv s) (dst : Node) (what : Awaited) (acc : Nat → Access) : StateInv (request s dst what acc) := by
  unfold request
  split
  · exact h
  · exact inv_keep h

theorem fetchSector_inv (h : State.Inv s) (pa : Nat) (ea : Word) (what : Awaited) : StateInv (fetchSector s pa ea what) :=
  (request_inv h ..).bind fun _ ht => inv_keep ht

/-! ### Loads, stores and atomics as they issue -/

theorem loadFrom_inv (h : State.Inv s) (t : Target) (ea : Word) (n : Nat) (what : Awaited) :
    StateInv (loadFrom s t ea n what) := by
  unfold loadFrom
  split
  · exact (ownCheck_inv h ..).bind fun _ _ => (loadCheck_inv ..).bind fun _ _ => inv_keep h
  · exact (sentLoadCheck_inv h ..).bind fun _ _ => request_inv h ..
  · split
    · split
      · exact inv_keep h
      · exact (sentLoadCheck_inv h ..).bind fun _ _ => fetchSector_inv (inv_keep h) ..
    · exact (sentLoadCheck_inv h ..).bind fun _ _ => request_inv h ..

theorem load_inv (h : State.Inv s) (ea : Word) (n : Nat) (what : Awaited) : StateInv (load s ea n what) := by
  unfold load
  split
  · trivial
  · exact (resolveCur_inv h ..).bind fun _ ht => loadFrom_inv ht ..

theorem storeTo_inv (h : State.Inv s) (t : Target) (ea : Word) (bs : List Byte) : StateInv (storeTo s t ea bs) := by
  unfold storeTo
  split
  · exact (ownCheck_inv h ..).bind fun _ _ => inv_homeWrite _ _ _ _ _ _ h
  · exact postAccess_inv h ..
  · split
    · exact inv_keep h
    · exact postAccess_inv h ..

theorem store_inv (h : State.Inv s) (ea : Word) (bs : List Byte) : StateInv (store s ea bs) := by
  unfold store
  split
  · trivial
  · exact (resolveCur_inv h ..).bind fun _ ht => storeTo_inv ht ..

theorem amoAt_inv (h : State.Inv s) (t : Target) (ea : Word) (k : AmoK) (w v e : Nat) (d : GReg) :
    StateInv (amoAt s t ea k w v e d) := by
  unfold amoAt
  split
  · refine (ownCheck_inv h ..).bind fun _ _ => (loadCheck_inv ..).bind fun _ _ => ?_
    exact inv_landNow (inv_homeAmo _ _ _ _ _ _ _ _ _ h) ..
  · exact (sentLoadCheck_inv h ..).bind fun _ _ => request_inv h ..
  · split
    · trivial
    · refine (sentLoadCheck_inv h ..).bind fun _ _ => request_inv ?_ ..
      split
      · exact inv_keep h
      · exact h

/-! ### Fences -/

theorem release_inv (h : State.Inv s) (sc : Scope) : StateInv (release s sc) := by
  unfold release
  dsimp only
  split
  · exact inv_keep h
  · exact inv_keep h

theorem acquire_inv (h : State.Inv s) (sc : Scope) : StateInv (acquire s sc) := by
  unfold acquire
  split
  · exact h
  · exact inv_keep h

theorem fenceAr_inv (h : State.Inv s) (sc : Scope) : StateInv (fenceAr s sc) :=
  (release_inv h sc).bind fun _ ht => acquire_inv ht sc

end Sys2Proof.Proofs
end

section
/-! The canonical form of memory through the issue of a bundle: the checks before an effect, and the commit, the wait, the hold or
the trap after it. -/

namespace Sys2Proof.Proofs

open Sys2Proof.Machine Sys2Proof.Laws

-- The declarations are checked one after another: checked side by side, their threads exhaust the memory.
set_option Elab.async false

variable {s : State}

/-! ### Before the effect -/

theorem presence_inv (h : State.Inv s) (l : List GReg) : CheckInv (presence s l) := by
  induction l with
  | nil => trivial
  | cons r l ih =>
    unfold presence
    dsimp only
    split
    · split <;> exact h
    · exact ih

theorem flightCheck_inv (h : State.Inv s) (f : Form) : CheckInv (flightCheck f s) := by
  unfold flightCheck
  dsimp only
  repeat' split
  · exact h
  · exact h
  · trivial

theorem seqrCheck_inv (h : State.Inv s) (f : Form) : CheckInv (seqrCheck f s) := by
  unfold seqrCheck
  dsimp only
  repeat' split
  all_goals simp [h]

theorem fpctlCheck_inv (h : State.Inv s) (f : Form) : CheckInv (fpctlCheck f s) := by
  unfold fpctlCheck
  dsimp only
  split
  · exact h
  · trivial

theorem pushesCheck_inv (h : State.Inv s) (f : Form) : CheckInv (pushesCheck f s) := by
  unfold pushesCheck
  split
  · exact h
  · trivial

theorem acquireCheck_inv (h : State.Inv s) (f : Form) : StateInv (acquireCheck f s) := by
  unfold acquireCheck
  repeat' split
  · exact h
  · exact h
  · exact inv_keep h
  · exact h

theorem pushCheck_inv (st : Stream) (l : List Nat) : ∀ {s : State}, State.Inv s → StateInv (pushCheck s st l) := by
  induction l with
  | nil => exact fun h => h
  | cons n l ih =>
    refine fun h => (resolve_inv h ..).bind fun r hr => ?_
    dsimp only
    split
    · exact (ownCheck_inv hr ..).bind fun _ _ => ih hr
    · exact ih hr

theorem writeCheck_inv (h : State.Inv s) (r : FReg) : StateInv (writeCheck s r) := by
  unfold writeCheck
  dsimp only
  repeat' split
  case h_1.isFalse.isFalse.isFalse => exact pushCheck_inv _ _ h
  all_goals simp [h]

theorem readCheck_inv (h : State.Inv s) (r : FReg) : CheckInv (readCheck s r) := by
  unfold readCheck
  dsimp only
  repeat' split
  all_goals simp [h]

theorem writeChecks_inv (l : List FReg) : ∀ {s : State}, State.Inv s → StateInv (writeChecks s l) := by
  induction l with
  | nil => exact fun h => h
  | cons r l ih => exact fun h => (writeCheck_inv h r).bind fun _ ht => ih ht

theorem readChecks_inv (h : State.Inv s) (l : List FReg) : CheckInv (readChecks s l) := by
  induction l with
  | nil => trivial
  | cons r l ih => exact (readCheck_inv h r).bind fun _ _ => ih

theorem before_inv (h : State.Inv s) (f : Form) : StateInv (before f s) :=
  (presence_inv h _).bind fun _ _ => (flightCheck_inv h f).bind fun _ _ => (seqrCheck_inv h f).bind fun _ _ =>
    (fpctlCheck_inv h f).bind fun _ _ => (pushesCheck_inv h f).bind fun _ _ => (acquireCheck_inv h f).bind fun _ ht =>
      (writeChecks_inv _ ht).bind fun _ hu => (readChecks_inv hu _).bind fun _ _ => hu

/-! ### After the effect -/

theorem commit_inv {d : Done} (h : State.Inv d.s) (f : Form) (c0 : Ctx) : State.Inv (commit f c0 d) :=
  inv_congr commit_mem.1 commit_mem.2 h

theorem raiseAfter_inv {t : State} (h : State.Inv s) (ht : State.Inv t) (f : Form) (code : Nat) (tval : Word) :
    State.Inv (raiseAfter f s t code tval) := by
  have hf := fenceAr_inv h .core
  unfold raiseAfter
  split
  · exact h
  · split
    · split
      · next hu => rw [hu] at hf; exact hf
      · exact inv_keep ht
    · exact inv_keep ht

theorem stall_inv (h : State.Inv s) (f : Form) {e : Stall} (he : StallInv e) : State.Inv (stall f s e) := by
  cases e with
  | trap code tval => exact inv_keep (t := raisePrecise f s code tval) h
  | trapAfter t code tval => exact raiseAfter_inv h he f code tval
  | wait t kind obj owner => exact inv_keep (t := beginWait t kind obj owner) he
  | hold t => exact he

theorem settle_inv (h : State.Inv s) (f : Form) {r : Do Done} (hr : DoInv (fun d => State.Inv d.s) r) : OutInv (settle f s r) := by
  cases r with
  | ok d => exact commit_inv hr f _
  | error e => exact stall_inv h f hr

theorem captureBeside_inv {t : State} (h : State.Inv t) (s : State) : State.Inv (captureBeside s t) := by
  unfold captureBeside
  split
  · exact h
  · exact inv_keep h

theorem refuseCapture_inv (h : State.Inv s) (f : Form) : State.Inv (refuseCapture f s) := raiseAfter_inv h (inv_keep h) ..

/-- An instruction keeps the canonical form where its own effect does. -/
theorem issueWith_inv {body : Effect} (hb : EffectInv body) (h : State.Inv s) (f : Form) (cap : Option Instr) :
    OutInv (issueWith f cap body s) := by
  unfold issueWith
  dsimp only
  split
  · exact refuseCapture_inv h f
  · split
    · exact inv_keep (t := raisePrecise f s _ _) h
    · split
      · split
        · exact commit_inv (inv_keep (t := captureA s _) h) ..
        · exact settle_inv h f ((before_inv h f).bind fun _ ht => (hb _ ht).bind fun _ hd => captureBeside_inv hd _)
      · exact settle_inv h f ((before_inv h f).bind fun _ ht => hb _ ht)

theorem issue_inv {body : Effect} (hb : EffectInv body) (h : State.Inv s) (f : Form) : OutInv (issue f body s) :=
  issueWith_inv hb h f none

end Sys2Proof.Proofs
end

section
/-! The canonical form of memory through the effects of scalar instructions, of loads, stores and atomics, of the full/empty forms
and of the cache forms. -/

namespace Sys2Proof.Proofs

open Sys2Proof.Machine Sys2Proof.Laws

-- The declarations are checked one after another: checked side by side, their threads exhaust the memory.
set_option Elab.async false

variable {s : State}

/-! ### Results in registers -/

theorem effectInv_wg (d : GReg) (v : State → Word) : EffectInv fun s => ok (wg s d (v s)) := fun _ h => inv_keep h

theorem effectInv_wgSlow (d : GReg) (v : State → Word) : EffectInv fun s => ok (wgSlow s d (v s)) := fun _ h => inv_keep h

/-- An effect that raises a cause where a condition holds. -/
theorem effectInv_unless {c : State → Prop} [∀ s, Decidable (c s)] {code : State → Nat} {tval : State → Word} {body : Effect}
    (hb : EffectInv body) : EffectInv fun s => if c s then trap (code s) (tval s) else body s := by
  intro s h
  dsimp only
  split
  · trivial
  · exact hb s h

theorem setFlags_inv (h : State.Inv s) (l : List FpFlags) : StateInv (setFlags s l) := by
  unfold setFlags
  dsimp only
  repeat' split
  · trivial
  · trivial
  · trivial
  · trivial
  · exact inv_keep h

theorem fpVec_inv (h : State.Inv s) (d : FReg) (r : Vec × List FpFlags) : DoInv (fun d => State.Inv d.s) (fpVec s d r) :=
  (setFlags_inv h _).bind fun _ ht => inv_keep ht

theorem effectInv_branch (a b : GReg) (off : Word) (cond : Word → Word → Bool) :
    EffectInv fun s => if cond (rg s a) (rg s b) then .ok { s := s, npc := some (target s off) } else ok s := by
  intro s h
  dsimp only
  split <;> exact h

theorem effectInv_jalTo (d : GReg) (off : Word) : EffectInv (jalTo d off) := fun _ h => inv_keep h

theorem effectInv_jalrTo (d a : GReg) (i : Word) : EffectInv (jalrTo d a i) := by
  intro s h
  unfold jalrTo
  dsimp only
  split
  · trivial
  · exact inv_keep h

theorem execGaddr_inv (h : State.Inv s) (d a b : GReg) : OutInv (execGaddr d a b s) := by
  refine issue_inv (fun s h => ?_) h _
  dsimp only
  repeat' split
  · trivial
  · trivial
  · exact inv_keep h

@[simp] theorem wgPair_keepsMem (s : State) (r : GReg) (v : Nat) : (wgPair s r v).mem = s.mem ∧ (wgPair s r v).full = s.full :=
  ⟨rfl, rfl⟩

theorem execCvtfx_inv (h : State.Inv s) (d a b : GReg) : OutInv (execCvtfx d a b s) := by
  refine issue_inv (effectInv_unless fun _ h => ?_) h _
  exact (setFlags_inv h _).bind fun _ ht => inv_keep ht

theorem execCvtxf_inv (h : State.Inv s) (d a b : GReg) : OutInv (execCvtxf d a b s) := by
  refine issue_inv (effectInv_unless fun _ h => ?_) h _
  exact (setFlags_inv h _).bind fun _ ht => inv_keep ht

/-! ### Loads and stores -/

theorem effectInv_loadOp (code : Nat) (d a : GReg) (off : Word) : EffectInv (loadOp code d a off) :=
  fun _ h => (load_inv h ..).bind fun _ ht => ht

theorem effectInv_storeOp (code : Nat) (r a : GReg) (off : Word) : EffectInv (storeOp code r a off) :=
  fun _ h => (store_inv h ..).bind fun _ ht => ht

/-! ### Full/empty forms -/

/-- A request to an owner keeps the canonical form where sending it does. -/
theorem askOwner_inv {α : Type} {P : α → Prop} {kind obj owner : Nat} {send : Nat → State → State}
    (hs : ∀ id t, State.Inv t → State.Inv (send id t)) (h : State.Inv s) : DoInv P (askOwner s kind obj owner send) :=
  hs _ _ (inv_keep h)

theorem askAs_inv {α : Type} {P : α → Prop} (h : State.Inv s) (id kind obj owner : Nat) : DoInv P (askAs s id kind obj owner) :=
  inv_modCur h _

theorem feTarget_inv (h : State.Inv s) (ea : Word) (kind : Nat) (need : Need) :
    DoInv (fun r => State.Inv r.1) (feTarget s ea kind need) := by
  unfold feTarget
  split
  · trivial
  · refine (resolveCur_inv h ..).bind fun r hr => ?_
    dsimp only
    split
    · exact (ownCheck_inv hr ..).bind fun _ _ => hr
    · exact hr
    · trivial

theorem feCheck_inv (h : State.Inv s) (dst : Node) (addr : Nat) (op : AOp) : CheckInv (feCheck s dst addr op) := by
  unfold feCheck
  split
  · exact sentLoadCheck_inv h ..
  · exact sentLoadCheck_inv h ..
  · trivial

theorem feWaiting_inv {fin : State → Nat → State} (hfin : ∀ t v, State.Inv t → State.Inv (fin t v)) (h : State.Inv s) (ea : Word)
    (t : Target) (op : AOp) : DoInv (fun d => State.Inv d.s) (feWaiting s ea t op fin) := by
  unfold feWaiting
  split
  · exact hfin _ _ h
  · exact h
  · exact h
  · refine (feCheck_inv h ..).bind fun _ _ => ?_
    split
    · exact h
    · exact askOwner_inv (fun _ _ ht => inv_keep ht) h
  · dsimp only
    split
    · exact (feCheck_inv h ..).bind fun _ _ => hfin _ _ (inv_fePerform _ _ _ _ _ h)
    · exact askOwner_inv (fun _ _ ht => inv_keep ht) h

theorem effectInv_feLoad (op : AOp) (d a : GReg) (off : Word) : EffectInv (feLoad op d a off) :=
  fun _ h => (feTarget_inv h ..).bind fun _ ht => feWaiting_inv (fun _ _ hu => inv_keep hu) ht ..

theorem effectInv_feStf (r a : GReg) (off : Word) : EffectInv (feStf r a off) :=
  fun _ h => (feTarget_inv h ..).bind fun _ ht => feWaiting_inv (fun _ _ hu => hu) ht ..

theorem effectInv_feNow (a : GReg) (off : Word) (op : State → AOp) : EffectInv (feNow a off op) := by
  refine fun _ h => (feTarget_inv h ..).bind fun r hr => ?_
  dsimp only
  split
  · exact inv_fePerform _ _ _ _ _ hr
  · exact (request_inv hr ..).bind fun _ ht => ht

theorem effectInv_feQuery (d a : GReg) (off : Word) : EffectInv (feQuery d a off) := by
  refine fun _ h => (feTarget_inv h ..).bind fun r hr => ?_
  dsimp only
  split
  · exact (request_inv hr ..).bind fun _ ht => ht
  · exact inv_wgSlow hr ..

/-! ### Vector memory -/

theorem partTarget_inv (h : State.Inv s) (ea : Word) (n : Nat) (store : Bool) :
    DoInv (fun r => State.Inv r.1) (partTarget s ea n store) := by
  unfold partTarget
  split
  · trivial
  · refine (resolveCur_inv h ..).bind fun r hr => ?_
    dsimp only
    split
    · exact (ownCheck_inv hr ..).bind fun _ _ => hr
    · exact hr

theorem partTargets_inv (n : Nat) (store : Bool) (l : List (Nat × Word)) :
    ∀ {s : State}, State.Inv s → DoInv (fun r => State.Inv r.1) (partTargets s n store l) := by
  induction l with
  | nil => exact fun h => h
  | cons p l ih => exact fun h => (partTarget_inv h ..).bind fun _ ht => (ih ht).bind fun _ hu => hu

theorem loadParts_inv (d : FReg) (l : List (Nat × Word × Target × Nat)) :
    ∀ {s : State}, State.Inv s → StateInv (loadParts s d l) := by
  induction l with
  | nil => exact fun h => h
  | cons p l ih => exact fun h => (loadFrom_inv h ..).bind fun _ ht => ih ht

theorem storeParts_inv (v : Vec) (l : List (Nat × Word × Target × Nat)) :
    ∀ {s : State}, State.Inv s → StateInv (storeParts s v l) := by
  induction l with
  | nil => exact fun h => h
  | cons p l ih => exact fun h => (storeTo_inv h ..).bind fun _ ht => ih ht

theorem vecLoad_inv (h : State.Inv s) (d : FReg) (n : Nat) (parts : List (Nat × Word)) :
    DoInv (fun d => State.Inv d.s) (vecLoad s d n parts) := by
  refine (partTargets_inv _ _ _ h).bind fun r hr => ?_
  dsimp only
  split
  · exact h
  · exact (loadParts_inv _ _ hr).bind fun _ ht => inv_keep ht

theorem vecStore_inv (h : State.Inv s) (r : FReg) (n : Nat) (parts : List (Nat × Word)) :
    DoInv (fun d => State.Inv d.s) (vecStore s r n parts) := by
  refine (partTargets_inv _ _ _ h).bind fun r hr => ?_
  dsimp only
  split
  · exact h
  · exact (storeParts_inv _ _ hr).bind fun _ ht => ht

/-! ### Atomics -/

theorem effectInv_amoOp (k : AmoK) (p : AmoP) (d a b : GReg) : EffectInv (amoOp k p d a b) := by
  intro s h
  unfold amoOp
  dsimp only
  split
  · trivial
  · refine (resolveCur_inv h ..).bind fun r hr => ?_
    have hamo (t : State) (ht : State.Inv t) : DoInv (fun d => State.Inv d.s) (do
        let u ← amoAt t r.2 (rg s a) k (amoBytes p.w) (amoOperand t p.w b) (casExpected t k p.w d) d
        ok (if p.acq then modCur u fun c => { c with acquire := some (amoScope r.2) } else u)) := by
      refine (amoAt_inv ht ..).bind fun _ hu => ?_
      split
      · exact inv_modCur hu _
      · exact hu
    split
    · exact (release_inv hr _).bind hamo
    · exact hamo _ hr

/-! ### Cache forms -/

theorem cacheTarget_inv (h : State.Inv s) (ea : Word) (need : Need) : DoInv (fun r => State.Inv r.1) (cacheTarget s ea need) := by
  unfold cacheTarget
  split
  · exact h
  · refine (resolveCur_inv h ..).bind fun r hr => ?_
    dsimp only
    split <;> exact hr

theorem effectInv_cacheOp {f : State → Nat → State} (hf : ∀ t pa, State.Inv t → State.Inv (f t pa)) (need : Need) (a : GReg)
    (off : Word) : EffectInv (cacheOp need f a off) := by
  refine fun _ h => (cacheTarget_inv h ..).bind fun r hr => ?_
  dsimp only
  split
  · exact hr
  · exact hf _ _ hr

theorem effectInv_prefOp (a : GReg) (off : Word) : EffectInv (prefOp a off) := by
  intro s h
  have ht := cacheTarget_inv h (effAddr s a off) .any
  unfold prefOp
  split
  · exact h
  · next heq =>
    rw [heq] at ht
    split
    · exact ht
    · split
      · exact inv_keep ht (by simp [foldl_mem]) (by simp [foldl_full])
      · split
        · exact inv_keep ht
        · exact ht
  · next heq => rw [heq] at ht; exact ht

end Sys2Proof.Proofs
end

section
/-! The canonical form of memory through the accesses that arrive at a home and what comes back to a core. -/

namespace Sys2Proof.Proofs

open Sys2Proof.Machine Sys2Proof.Laws

-- The declarations are checked one after another: checked side by side, their threads exhaust the memory.
set_option Elab.async false

variable {s : State}

theorem inv_takePkt (h : State.Inv s) {n : Nat} {r : Packet × State} (e : takePkt s n = some r) : State.Inv r.2 := by
  unfold takePkt at e
  split at e
  · obtain ⟨p, _, rfl⟩ := Option.map_eq_some_iff.mp e
    exact h
  · cases e

/-! ### At a home -/

/-! The kernel would compute the verdict of `ownerCheck` or `roleAdmit` to compare two forms of these definitions, so the proof
stands on the definition with the check as a variable. -/

theorem accessAtCore_inv (h : State.Inv s) (owner : Nat) (a : Access) : OptInv (accessAtCore s owner a) := by
  have hr (code : Nat) (tval : Word) : State.Inv (refuse s (.core owner) a code tval) := inv_keep h
  have hw (co : Core) : State.Inv (setCore s (.tile owner) co) := inv_keep h
  obtain ⟨access, hf⟩ : ∃ f, f = accessAtCore := exists_eq
  obtain ⟨verdict, hv⟩ : ∃ v, v = ownerCheck := exists_eq
  rw [← hf]
  delta accessAtCore at hf
  rw [← hv] at hf
  subst hf
  dsimp only
  repeat' split
  all_goals simp [hr, hw, inv_performAccess, h]

theorem appendResult_inv (h : State.Inv s) (i : Nat) (value slate : Word) : OptInv (appendResult s i value slate) := by
  unfold appendResult
  dsimp only
  split
  · trivial
  · exact h

theorem accessAtImage_inv (h : State.Inv s) (a : Access) : State.Inv (accessAtImage s a) := by
  unfold accessAtImage
  dsimp only
  split
  · exact inv_keep h
  · split
    · split
      · split
        · next heq =>
          have ht := (appendResult_inv h _ _ _).of_some heq
          split
          · exact inv_keep ht
          · exact ht
        · exact inv_keep h
      · exact inv_keep h
    · exact inv_performAccess _ _ h

theorem accessAtGuest_inv (h : State.Inv s) (a : Access) : OptInv (accessAtGuest s a) := by
  unfold accessAtGuest
  split
  · split
    · exact inv_sendReply _ _ _ h
    · split
      · trivial
      · exact inv_keep h
    · exact inv_keep h
  · split
    · exact inv_performAccess _ _ h
    · exact inv_keep h

theorem accessAtPartner_inv (h : State.Inv s) (a : Access) : State.Inv (accessAtPartner s a) := by
  unfold accessAtPartner
  split
  · exact inv_performAccess _ _ h
  · exact inv_keep h

theorem accessAt_inv (h : State.Inv s) (node : Node) (a : Access) : OptInv (accessAt s node a) := by
  unfold accessAt
  split
  · exact accessAtCore_inv h ..
  · exact accessAtImage_inv h _
  · exact accessAtGuest_inv h _
  · exact accessAtPartner_inv h _
  · split
    · trivial
    · exact inv_performAccess _ _ h
  · exact inv_performAccess _ _ h

theorem execRemoteAccessArrival_inv (h : State.Inv s) (n : Nat) : OutInv (execRemoteAccessArrival n s) := by
  unfold execRemoteAccessArrival
  split
  · next heq =>
    split
    · exact h
    · exact ((accessAt_inv (inv_takePkt h heq) ..).getD h)
  · exact h

theorem feWaitDone_inv (h : State.Inv s) (ag : Agent) (i : Nat) : State.Inv (feWaitDone s ag i) := by
  obtain ⟨done, hf⟩ : ∃ f, f = feWaitDone := exists_eq
  obtain ⟨allow, hv⟩ : ∃ v, v = roleAdmit := exists_eq
  rw [← hf]
  delta feWaitDone at hf
  rw [← hv] at hf
  subst hf
  dsimp only
  split
  · exact h
  · next a heq =>
    have ht := inv_modCore h ag fun co => { co with feWaits := co.feWaits.eraseIdx i }
    split
    · exact h
    · exact inv_keep ht
    · split
      · exact h
      · split
        · exact inv_keep ht
        · have hf := inv_fePerform a.addr a.op a.kind (writerNo a.src) (some a.who) ht
          split
          · exact inv_keep hf
          · exact inv_sendReply _ _ _ hf

/-! ### What comes back -/

theorem execAccessReplyArrival_inv (h : State.Inv s) (n : Nat) : OutInv (execAccessReplyArrival n s) := by
  unfold execAccessReplyArrival
  split
  · next heq =>
    split
    · exact inv_keep (inv_takePkt h heq)
    · exact h
  · next heq =>
    split
    · exact inv_keep (inv_takePkt h heq)
    · exact h
  · exact h

theorem execStoreAckArrival_inv (h : State.Inv s) (n : Nat) : OutInv (execStoreAckArrival n s) := by
  unfold execStoreAckArrival
  split
  · next heq =>
    split
    · exact inv_keep (inv_takePkt h heq)
    · exact h
  · exact h

theorem execRefusalArrival_inv (h : State.Inv s) (n : Nat) : OutInv (execRefusalArrival n s) := by
  unfold execRefusalArrival
  split
  · next heq =>
    have ht := inv_takePkt h heq
    dsimp only
    repeat' split
    · exact h
    all_goals exact inv_keep ht
  · exact h

theorem execJournalTimeout_inv (h : State.Inv s) (ag : Agent) (e : Fin 64) : OutInv (execJournalTimeout ag e s) := by
  unfold execJournalTimeout
  repeat' split
  all_goals exact inv_keep h

theorem execWriteBackAck_inv (h : State.Inv s) (n : Nat) : OutInv (execWriteBackAck n s) := by
  unfold execWriteBackAck
  split
  · next heq =>
    split
    · exact inv_keep (inv_takePkt h heq)
    · exact h
  · exact h

theorem execHostAccessTimeout_inv (h : State.Inv s) (n : Nat) : OutInv (execHostAccessTimeout n s) := by
  unfold execHostAccessTimeout
  split
  · next heq => exact inv_keep (inv_takePkt h heq)
  · exact h

theorem execLinkReroute_inv (h : State.Inv s) (src dst : Nat) (up : Bool) : OutInv (execLinkReroute src dst up s) := by
  unfold execLinkReroute
  dsimp only
  repeat' split
  all_goals exact inv_keep h

end Sys2Proof.Proofs
end

section
/-! The canonical form of memory through the system registers, the queues, the end of a launch, the traps and the watchpoints. -/

namespace Sys2Proof.Proofs

open Sys2Proof.Machine Sys2Proof.Laws

-- The declarations are checked one after another: checked side by side, their threads exhaust the memory.
set_option Elab.async false

variable {s : State}

/-! ### System registers -/

@[simp] theorem readTime_keepsMem (s : State) : (readTime s).2.mem = s.mem ∧ (readTime s).2.full = s.full := by
  unfold readTime
  simp

theorem timeTo_inv (h : State.Inv s) (t : Nat) : OptInv (timeTo s t) := by
  unfold timeTo
  dsimp only
  exact optInv_unless (inv_modDev h _)

@[simp] theorem readWatch_keepsMem (s : State) (a : Agent) (n : Fin 4) :
    (readWatch s a n).2.mem = s.mem ∧ (readWatch s a n).2.full = s.full := by
  unfold readWatch
  simp

@[simp] theorem readSys_keepsMem (s : State) (num : Nat) : (readSys s num).2.mem = s.mem ∧ (readSys s num).2.full = s.full := by
  unfold readSys
  dsimp only
  repeat' split
  all_goals simp

theorem writeWatch_inv (h : State.Inv s) (k : CtxKey) (n : Fin 4) (v : Word) : State.Inv (writeWatch s k n v) := by
  unfold writeWatch
  dsimp only
  split
  · exact inv_keep h
  · split
    · exact inv_keep h
    · split
      · exact inv_keep h
      · next heq =>
        have ht := (resolve_inv (inv_modCore h _ _) ..).of_ok heq
        split
        · exact inv_keep ht
        · exact inv_keep ht

theorem writeSys_inv (h : State.Inv s) (num : Nat) (v : Word) : State.Inv (writeSys s num v) := by
  unfold writeSys
  repeat' split
  case h_9.isFalse.isTrue =>
    dsimp only
    split
    · exact inv_keep h
    · exact writeWatch_inv h ..
  all_goals exact inv_keep h

@[simp] theorem domstatGet_keepsMem (s : State) : (domstatGet s).2.mem = s.mem ∧ (domstatGet s).2.full = s.full := by
  unfold domstatGet
  simp

@[simp] theorem timectlSet_keepsMem (s : State) (v : Word) :
    (timectlSet s v).mem = s.mem ∧ (timectlSet s v).full = s.full := by
  unfold timectlSet
  simp

@[simp] theorem csstatGet_keepsMem (s : State) : (csstatGet s).2.mem = s.mem ∧ (csstatGet s).2.full = s.full := by
  unfold csstatGet
  simp

@[simp] theorem detstatGet_keepsMem (s : State) : (detstatGet s).2.mem = s.mem ∧ (detstatGet s).2.full = s.full := by
  unfold detstatGet
  simp

theorem mailGo_inv (h : State.Inv s) (k tgt : Nat) : OptInv (mailGo s k tgt) := by
  unfold mailGo
  dsimp only
  split
  · trivial
  · rw [optInv_some]
    split <;> exact inv_keep h

@[simp] theorem readDev_keepsMem (s : State) (k num : Nat) :
    (readDev s k num).2.mem = s.mem ∧ (readDev s k num).2.full = s.full := by
  unfold readDev
  dsimp only
  repeat' split
  all_goals simp

theorem writeDev_inv (h : State.Inv s) (k num : Nat) (v : Word) : StateInv (writeDev s k num v) := by
  unfold writeDev
  dsimp only
  split
  · exact h
  split
  · exact inv_of_keeps (hashmaskSet_keepsMem ..) h
  split
  · exact inv_of_keeps (domselSet_keepsMem ..) h
  split
  · exact inv_modDev h _
  split
  · exact inv_of_keeps (modFw_keepsMem ..) h
  split
  case h_22 =>
    split
    · next ht => exact (mailGo_inv h ..).of_some ht
    · exact h
  all_goals
    repeat' split
    all_goals exact inv_keep h

/-! ### Queues -/

theorem storeMsg_inv (h : State.Inv s) (a : Agent) (q : Fin 64) (m : Message) (aged : Bool) : OptInv (storeMsg s a q m aged) := by
  unfold storeMsg
  dsimp only
  repeat' split
  · exact inv_keep h
  · exact inv_keep h
  · trivial

theorem divertHead_inv (h : State.Inv s) (a : Agent) (q : Fin 64) (m : Message) : State.Inv (divertHead s a q m) := by
  unfold divertHead
  dsimp only
  generalize hu : modQueue _ a q _ = u
  have hui : State.Inv u := hu ▸ inv_keep h
  have hs (q' : Fin 64) (c : Prop) [Decidable c] : OptInv (if c then storeMsg u a q' m true else some u) := by
    split
    · exact storeMsg_inv hui ..
    · exact hui
  split
  · exact h
  · next heq =>
    have ht := (hs _ _).of_some heq
    split
    · exact inv_keep ht
    · exact ht

theorem divertStale_inv (a : Agent) (q : Fin 64) (n : Nat) : ∀ {s : State}, State.Inv s → State.Inv (divertStale a q n s) := by
  induction n with
  | zero => exact fun h => h
  | succ n ih =>
    intro s h
    unfold divertStale
    dsimp only
    repeat' split
    · exact ih (divertHead_inv h ..)
    · exact h
    · exact h

theorem ageQueue_inv (h : State.Inv s) (a : Agent) (q : Fin 64) : State.Inv (ageQueue s a q) := divertStale_inv _ _ _ h

theorem unpark_inv (a : Agent) (l : List Parked) : ∀ {s : State}, State.Inv s → State.Inv (unpark a l s) := by
  induction l with
  | nil => exact fun h => h
  | cons p l ih =>
    intro s h
    cases p <;> unfold unpark
    case message q m aged =>
      dsimp only
      split
      · exact ih (inv_keep h)
      · exact ih h
    all_goals exact ih h

/-! ### The end of a launch -/

theorem mapSpare_inv (h : State.Inv s) (x y : Nat) : State.Inv (mapSpare s x y) := by
  unfold mapSpare
  dsimp only
  refine inv_ite h ?_
  have ht : State.Inv ((tileCores x y).foldl (fun s n => clearRange (setCore s (.tile n) Core.reset) (localAddr n 0) (2 ^ 20)) s) :=
    inv_fold _ (fun _ _ hu => inv_clearRange _ _ (inv_keep hu)) _ h
  exact inv_modDev (inv_keep ht) _

theorem mapRetiring_inv (h : State.Inv s) : State.Inv (mapRetiring s) :=
  inv_fold _ (fun _ _ ht => mapSpare_inv ht ..) _ (inv_modDev h _)

theorem finishLaunches_inv (h : State.Inv s) : State.Inv (finishLaunches s) :=
  mapRetiring_inv (inv_fold _ (fun _ _ ht => inv_finishLaunch _ ht) _ h)

theorem beginEnd_inv (h : State.Inv s) (la : Nat) (tag : Option (BitVec 32)) : State.Inv (beginEnd s la tag) :=
  finishLaunches_inv (inv_fold _ (fun _ _ ht => inv_keep ht) _ (inv_congr rfl rfl h))

/-! ### Traps, watchpoints and snapshots -/

theorem execCopyCompletionInterrupt_inv (h : State.Inv s) (k : CtxKey) : OutInv (execCopyCompletionInterrupt k s) := by
  unfold execCopyCompletionInterrupt
  dsimp only
  repeat' split
  all_goals exact inv_keep h

theorem execTrapEntry_inv (h : State.Inv s) (k : CtxKey) (code : BitVec 6) (tval : Word) : OutInv (execTrapEntry k code tval s) := by
  unfold execTrapEntry
  dsimp only
  split <;> exact inv_keep h

theorem execSingleStep_inv (h : State.Inv s) (k : CtxKey) : OutInv (execSingleStep k s) := by
  unfold execSingleStep
  dsimp only
  repeat' split
  all_goals exact inv_keep h

theorem gateUnwind_inv (h : State.Inv s) (k : CtxKey) (code : BitVec 6) (tval : Word) : State.Inv (gateUnwind s k code tval) := by
  have hf := fenceAr_inv (s := { s with cur := k, latch := none }) (inv_congr rfl rfl h) .core
  unfold gateUnwind
  dsimp only
  split
  · split
    · next heq => 
      have ht := hf.of_ok heq
      split <;> exact inv_keep ht
    · next heq => exact inv_congr rfl rfl (hf.of_error heq : State.Inv _)
    · exact h
  · exact h

theorem execWatchpointTrigger_inv (h : State.Inv s) (ag : Agent) (n : Fin 4) (kind : Fin 11) (writer : BitVec 11)
    (addr : BitVec 48) : OutInv (execWatchpointTrigger ag n kind writer addr s) := by
  unfold execWatchpointTrigger
  split <;> exact inv_keep h

theorem execWpctlWrite_inv (h : State.Inv s) (k : CtxKey) (n : Fin 4) (v : Word) : OutInv (execWpctlWrite k n v s) := by
  unfold execWpctlWrite
  split
  · exact h
  · exact writeWatch_inv h ..

theorem execWpctlRead_inv (h : State.Inv s) (k : CtxKey) (n : Fin 4) : OutInv (execWpctlRead k n s) := by
  unfold execWpctlRead
  dsimp only
  split <;> exact inv_keep h

theorem execSnapshotPin_inv (h : State.Inv s) : OutInv (execSnapshotPin s) := by
  unfold execSnapshotPin
  split <;> exact inv_keep h

theorem execSnaptimeReached_inv (h : State.Inv s) (dtime : Word) : OutInv (execSnaptimeReached dtime s) := by
  unfold execSnaptimeReached
  split
  · exact h
  · next heq =>
    have ht := (timeTo_inv h _).of_some heq
    dsimp only
    split
    · exact inv_keep ht
    · exact h

end Sys2Proof.Proofs
end

section
/-! The canonical form of memory through the process image, the takes and the call sheet, and the boot. -/

namespace Sys2Proof.Proofs

open Sys2Proof.Machine Sys2Proof.Laws

-- The declarations are checked one after another: checked side by side, their threads exhaust the memory.
set_option Elab.async false

variable {s : State}

/-! ### The process image -/

theorem frameEntry_inv (h : State.Inv s) (f : Frame) (stream i : Nat) (m : MapEntry) : State.Inv (frameEntry s f stream i m) := by
  unfold frameEntry
  dsimp only
  split
  · exact inv_keep h
  · have ht := inv_writeEntry ⟨i, f.endNs, f.port, f.seqNo⟩ m ((f.payload.drop m.payOff).take m.len) 7 h
    split
    · exact inv_modDev ht _
    · exact ht

theorem takeFrame_inv (h : State.Inv s) (f : Frame) : State.Inv (takeFrame s f) := by
  unfold takeFrame
  split
  · exact h
  · exact inv_fold _ (fun _ _ ht => frameEntry_inv ht ..) _ h

theorem acceptFrame_inv (h : State.Inv s) (f : Frame) : State.Inv (acceptFrame s f) :=
  inv_ite (takeFrame_inv h f) (inv_modDev h _)

theorem frameIngress_inv (h : State.Inv s) (f : Frame) : State.Inv (frameIngress s f) := by
  unfold frameIngress
  repeat' split
  · exact h
  · exact inv_keep h
  · exact inv_keep h
  · exact acceptFrame_inv h f

theorem execFrameIngress_inv (h : State.Inv s) (f : Frame) : OutInv (execFrameIngress f s) := by
  unfold execFrameIngress
  split
  · exact h
  · split
    · next heq => exact frameIngress_inv ((timeTo_inv h _).of_some heq) f
    · exact h

theorem takeMirrored_inv (h : State.Inv s) (w : Mirrored) : State.Inv (takeMirrored s w) := by
  unfold takeMirrored
  split
  · exact inv_ite (inv_writeEntry _ _ _ _ h) h
  · exact h

theorem execMirrorWrite_inv (h : State.Inv s) (entry : Nat) (data : List Byte) (seqNo : BitVec 16) :
    OutInv (execMirrorWrite entry data seqNo s) := by
  unfold execMirrorWrite
  dsimp only
  repeat' split
  · exact h
  · exact inv_keep h
  · exact takeMirrored_inv h _

theorem swapInput_inv (h : State.Inv s) : State.Inv (swapInput s) :=
  inv_modDev (inv_mem (wf_zeroBytes _ _ (wf_moveBytes _ _ _ (wf_moveBytes _ _ _ h.1))) h) _

theorem takeLate_inv (h : State.Inv s) : State.Inv (takeLate s) :=
  inv_fold _ (fun _ _ ht => takeMirrored_inv ht _) _ (inv_fold _ (fun _ _ ht => takeFrame_inv ht _) _ (inv_modDev h _))

theorem egressSwap_inv (h : State.Inv s) : State.Inv (egressSwap s) :=
  inv_of_keeps (overruns_keepsMem _) (inv_modDev (inv_mem (wf_moveBytes _ _ _ (wf_moveBytes _ _ _ h.1)) h) _)

theorem execEgressSwap_inv (h : State.Inv s) (dtime : Word) : OutInv (execEgressSwap dtime s) := by
  unfold execEgressSwap
  dsimp only
  split
  · split
    · next heq => exact egressSwap_inv ((timeTo_inv h _).of_some heq)
    · exact h
  · exact h

theorem bind_timeTo_inv (h : State.Inv s) (o : Option Nat) : OptInv (o.bind (timeTo s)) := by
  cases o with
  | some t => exact timeTo_inv h t
  | none => trivial

theorem execFrameTransmit_inv (h : State.Inv s) (i : Nat) : OutInv (execFrameTransmit i s) := by
  unfold execFrameTransmit
  dsimp only
  repeat' split
  · next heq => exact inv_keep ((bind_timeTo_inv h _).of_some heq)
  all_goals exact h

/-! ### Time -/

theorem execSlewComplete_inv (h : State.Inv s) : OutInv (execSlewComplete s) := by
  unfold execSlewComplete
  dsimp only
  split
  · next heq => exact outInv_event.mpr ((timeTo_inv h _).of_some heq)
  · exact h

theorem diverge_inv (h : State.Inv s) (diff : Int) : OptInv (diverge s diff) := by
  unfold diverge
  dsimp only
  split
  · exact inv_modDev h _
  · exact (timeTo_inv h _).map fun _ ht => inv_modDev ht _

theorem execDtimeDivergence_inv (h : State.Inv s) (diff : BitVec 32) : OutInv (execDtimeDivergence diff s) := by
  have hd : OptInv (if diff.toInt < -2 ∨ 2 < diff.toInt then diverge s diff.toInt else none) := by
    split
    · exact diverge_inv h _
    · trivial
  unfold execDtimeDivergence
  split
  · next heq => exact inv_keep (hd.of_some heq)
  · exact h

/-! ### The call sheet and the clapper -/

theorem postActive_inv (h : State.Inv s) (front : Node) (la ty role data : Nat) (handler : Option Nat) (payload : List Word)
    (slate : Word) : OptInv (postActive s front la ty role data handler payload slate) := by
  unfold postActive
  split
  · trivial
  · dsimp only
    split
    · trivial
    · exact optInv_unless (inv_keep h)

theorem fireEntry_inv (h : State.Inv s) (i : Nat) (e : SheetEntry) (now : Nat) : State.Inv (fireEntry s i e now) := by
  unfold fireEntry
  dsimp only
  generalize ht : (if decide (entryTime s.dev.time e + 50 < now) then record _ _ _ _ else _) = t
  have hti : State.Inv t := ht ▸ inv_ite (inv_keep h) (inv_keep h)
  split
  · next heq => exact (postActive_inv hti ..).of_some heq
  · exact inv_keep hti

theorem execCallSheetEntryFire_inv (h : State.Inv s) (i : Nat) : OutInv (execCallSheetEntryFire i s) := by
  unfold execCallSheetEntryFire
  dsimp only
  split
  · split
    · next heq => exact inv_ite (fireEntry_inv ((timeTo_inv h _).of_some heq) ..) h
    · exact h
  · exact h

theorem execOneShotFire_inv (h : State.Inv s) (i : Nat) (dtime : Word) : OutInv (execOneShotFire i dtime s) := by
  unfold execOneShotFire
  split
  · next heq =>
    split
    · exact fireEntry_inv ((timeTo_inv h _).of_some heq) ..
    · exact h
  · exact h

theorem fireRest_inv (now n : Nat) : ∀ {s : State}, State.Inv s → State.Inv (fireRest now n s) := by
  induction n with
  | zero => exact fun h => h
  | succ n ih =>
    intro s h
    unfold fireRest
    dsimp only
    split
    · exact ih (fireEntry_inv h ..)
    · exact h

theorem clapper_inv (h : State.Inv s) (dtime : Nat) : State.Inv (clapper s dtime) := by
  unfold clapper
  dsimp only
  split
  · exact inv_keep h
  · generalize ht : (if fwWorks s 2 then fireRest (s.dev.time.due s.dev.time.first) s.dev.sheet.active.length s else s) = t
    have hti : State.Inv t := ht ▸ inv_ite (fireRest_inv _ _ h) h
    have hu := inv_modDev (takeLate_inv (inv_of_keeps (measureMaps_keepsMem (swapInput (refill (countSlips
      (setTake t s.dev.time.first dtime) (slipsAt t) s.dev.time.first))) (t.dev.image.mapPend || t.dev.image.mapsBack))
      (swapInput_inv (inv_keep hti))))
    split
    · exact inv_of_keeps (activateSheet_keepsMem ..) (hu _)
    · exact hu _

theorem execClapper_inv (h : State.Inv s) (dtime : Word) : OutInv (execClapper dtime s) := by
  unfold execClapper
  dsimp only
  repeat' split
  · exact clapper_inv h _
  · exact h
  · exact h

/-! ### The boot and the mailboxes -/

theorem bootEnd_inv (h : State.Inv s) : State.Inv (bootEnd s) := inv_modDev (inv_mem (wf_zeroBytes _ _ h.1) h) _

theorem bootFrom_inv (l : List Nat) : ∀ {s : State}, State.Inv s → State.Inv (bootFrom l s) := by
  induction l with
  | nil => exact bootEnd_inv
  | cons k l ih =>
    intro s h
    unfold bootFrom
    repeat' split
    · exact ih (inv_keep h)
    · exact inv_keep h
    · exact ih h

theorem resetState_inv (h : State.Inv s) : State.Inv (Machine.resetState s) := ⟨wf_outsideMem h.1, rfl, rfl⟩

theorem coldReset_inv (h : State.Inv s) : State.Inv (coldReset s) := bootFrom_inv _ (inv_keep (resetState_inv h))

theorem execRecoveryMode_inv (h : State.Inv s) (fromPartner : Bool) (image : List Byte) :
    OutInv (execRecoveryMode fromPartner image s) := by
  unfold execRecoveryMode
  split
  · split
    · exact bootFrom_inv _ (inv_of_keeps (modSec_keepsMem ..) h)
    · exact h
  · exact h

theorem execFirmwareWatchdog_inv (h : State.Inv s) (k : Fin 8) : OutInv (execFirmwareWatchdog k s) := by
  unfold execFirmwareWatchdog
  dsimp only
  split <;> exact inv_keep h

theorem execMailboxEntryArrival_inv (h : State.Inv s) (k : Fin 8) : OutInv (execMailboxEntryArrival k s) := by
  unfold execMailboxEntryArrival
  dsimp only
  repeat' split
  all_goals exact inv_keep h

end Sys2Proof.Proofs
end

section
/-! The canonical form of memory through the system instructions, the gates and the slates. -/

namespace Sys2Proof.Proofs

open Sys2Proof.Machine Sys2Proof.Laws

-- The declarations are checked one after another: checked side by side, their threads exhaust the memory.
set_option Elab.async false

variable {s : State}

/-! ### Ending, fences and returns -/

theorem endCheck_inv (h : State.Inv s) : CheckInv (endCheck s) := by
  unfold endCheck
  dsimp only
  repeat' split
  all_goals simp [h]

theorem ending_inv (h : State.Inv s) : DoInv (fun d => State.Inv d.s) (ending s) := inv_of_keeps (endActivation_keepsMem ..) h

theorem effectInv_endAct : EffectInv (fun s => do endCheck s; ending s) :=
  fun _ h => (endCheck_inv h).bind fun _ _ => ending_inv h

theorem effectInv_yield : EffectInv (fun s => do endCheck s; ending (setResume s)) :=
  fun _ h => (endCheck_inv h).bind fun _ _ => ending_inv (inv_keep h)

/-- An effect whose one result is the state. -/
theorem effectInv_then {x : State → Do State} (hx : ∀ s, State.Inv s → StateInv (x s)) :
    EffectInv (fun s => do let s ← x s; ok s) := fun s h => (hx s h).bind fun _ ht => ht

theorem effectInv_tretOp : EffectInv tretOp := by
  intro s h
  unfold tretOp
  dsimp only
  repeat' split
  · exact h
  all_goals exact inv_keep h

theorem effectInv_snapOp (d : GReg) : EffectInv (snapOp d) := by
  intro s h
  unfold snapOp
  dsimp only
  split <;> exact inv_keep h

theorem effectInv_sysrOp (d : GReg) (num : Nat) : EffectInv (sysrOp d num) := by
  intro s h
  unfold sysrOp
  dsimp only
  split
  · exact inv_wgSlow (inv_of_keeps (readSys_keepsMem ..) h) ..
  · exact inv_wgSlow (inv_of_keeps (readDev_keepsMem ..) h) ..

theorem effectInv_syswOp (num : Nat) (r : GReg) : EffectInv (syswOp num r) := by
  intro s h
  unfold syswOp
  split
  · exact writeSys_inv h ..
  · exact (writeDev_inv h ..).bind fun _ ht => ht

/-! ### Gates -/

theorem argsCheck_inv (s : State) (g : Gate) (i : Nat) (l : List Nat) : CheckInv (argsCheck s g i l) := by
  induction l with
  | nil => trivial
  | cons k l ih =>
    unfold argsCheck
    split
    · exact ih
    · trivial

theorem arenaCall_inv (h : State.Inv s) : DoInv (fun r => State.Inv r.1) (arenaCall s) := by
  unfold arenaCall
  dsimp only
  split
  · exact h
  · split
    · exact h
    · split
      · split <;> exact h
      · split
        · split
          · exact (release_inv h _).bind fun _ ht => inv_arenaWrite _ _ _ ht
          · exact h
        · refine DoInv.ite h ?_
          split
          · exact h
          · exact DoInv.ite h ((acquire_inv h _).bind fun _ ht => inv_arenaWrite _ _ _ ht)

theorem gateEntry_inv (h : State.Inv s) (d : GReg) (i : Nat) (e : Gate) : DoInv (fun d => State.Inv d.s) (do
    let s ← fenceAr s .core
    if i = 255 then
      let (s, v) ← arenaCall s
      ok (modCur s fun c => afterArena c d v)
    else .ok { s := modCur (elapse s) fun c => enterGate c d i e, npc := some e.handler }) := by
  refine (fenceAr_inv h _).bind fun _ ht => ?_
  split
  · exact (arenaCall_inv ht).bind fun _ hu => inv_modCur hu _
  · exact inv_keep ht

theorem effectInv_gateOp (d : GReg) (i : Nat) : EffectInv (gateOp d i) := by
  intro s h
  unfold gateOp
  dsimp only
  iterate 5 refine DoInv.ite trivial ?_
  refine (argsCheck_inv ..).bind fun _ _ => ?_
  iterate 3 refine DoInv.ite trivial ?_
  iterate 2 refine DoInv.ite h ?_
  exact gateEntry_inv h ..

theorem effectInv_gretOp : EffectInv gretOp := by
  intro s h
  unfold gretOp
  dsimp only
  repeat' split
  · trivial
  · exact h
  · exact h
  · exact (fenceAr_inv h _).bind fun _ ht => inv_modCur ht _

/-! ### Slates -/

theorem slateRegion_inv (s : State) (v : Word) : DoInv (fun _ => True) (slateRegion s v) := by
  unfold slateRegion
  dsimp only
  split <;> trivial

theorem effectInv_slateSetOp (d a : GReg) : EffectInv (slateSetOp d a) := by
  intro s h
  unfold slateSetOp
  dsimp only
  split
  · trivial
  · exact inv_keep h

theorem effectInv_slateRgnOp (d a : GReg) : EffectInv (slateRgnOp d a) :=
  fun _ h => (slateRegion_inv ..).bind fun _ _ => inv_keep h

theorem effectInv_slateFoldOp (d a : GReg) : EffectInv (slateFoldOp d a) :=
  fun _ h => (slateRegion_inv ..).bind fun _ _ => inv_keep h

theorem placeMsg_inv (h : State.Inv s) (a : Agent) (m : Message) {t : State} (e : placeMsg s a m = .done t) : State.Inv t := by
  unfold placeMsg at e
  split at e
  · cases e
  · split at e
    · next hs =>
      cases e
      exact (storeMsg_inv h ..).of_some hs
    · cases e

theorem staleFound_inv (h : State.Inv s) (i n : Nat) (r : Region) (tval : Word) : StateInv (staleFound s i n r tval) := by
  unfold staleFound
  dsimp only
  generalize ht : (if r.ask then raiseFw _ _ _ _ _ else modRegion s s.cur.agent n Region.countStale) = t
  have hti : State.Inv t := ht ▸ inv_ite (inv_keep h) (inv_keep h)
  split
  · split
    · next heq => exact placeMsg_inv hti _ _ heq
    · exact inv_keep hti
    · exact h
  · exact hti

theorem effectInv_slchkOp (traps : Bool) (d a : GReg) : EffectInv (slchkOp traps d a) := by
  refine fun s h => (slateRegion_inv ..).bind fun r _ => ?_
  dsimp only
  split
  · exact inv_wgSlow h ..
  · split
    · trivial
    · split
      · exact (staleFound_inv h ..).bind fun _ ht => inv_wgSlow ht ..
      · exact inv_wgSlow h ..

/-! ### Time, KILL and INVPG -/

theorem execTime_inv (h : State.Inv s) (d : GReg) : OutInv (execTime d s) := by
  refine issue_inv (fun _ h => ?_) h _
  exact inv_wgSlow (inv_of_keeps (readTime_keepsMem _) h) ..

theorem execTimeSinceClapper_inv (h : State.Inv s) (d : GReg) : OutInv (execTimeSinceClapper d s) := by
  refine issue_inv (fun _ h => ?_) h _
  exact inv_wgSlow (inv_of_keeps (readTime_keepsMem _) h) ..

theorem execTimeToEgress_inv (h : State.Inv s) (d : GReg) : OutInv (execTimeToEgress d s) := by
  refine issue_inv (fun _ h => ?_) h _
  exact inv_wgSlow (inv_of_keeps (readTime_keepsMem _) h) ..

@[simp] theorem awaitReg_keepsMem (s : State) (d : GReg) : (awaitReg s d).2.mem = s.mem ∧ (awaitReg s d).2.full = s.full := ⟨rfl, rfl⟩

theorem effectInv_killOp (d a : GReg) : EffectInv (killOp d a) := by
  intro s h
  unfold killOp
  dsimp only
  repeat' split
  · trivial
  · exact inv_of_keeps (killCtx_keepsMem ..) h
  · exact inv_keep h

theorem effectInv_invpgOp (d a b : GReg) : EffectInv (invpgOp d a b) := by
  intro s h
  unfold invpgOp
  dsimp only
  split
  · exact h
  · exact inv_keep h

end Sys2Proof.Proofs
end

section
/-! The canonical form of memory through the vector unit and the sequencer. -/

namespace Sys2Proof.Proofs

open Sys2Proof.Machine Sys2Proof.Laws

-- The declarations are checked one after another: checked side by side, their threads exhaust the memory.
set_option Elab.async false

variable {s : State}

/-- What an effect answers on a canonical state. -/
abbrev DoneInv (x : Do Done) : Prop := DoInv (fun d => State.Inv d.s) x

theorem vfp2_inv (h : State.Inv s) (l : Lanes) (op : Fmt → Machine.Num → Machine.Num → Nat × FpFlags) (d a b : FReg) :
    DoneInv (vfp2 l op d a b s) := fpVec_inv h ..

theorem vsign_inv (h : State.Inv s) (l : Lanes) (op : Bool → Bool) (d a : FReg) : DoneInv (vsign l op d a s) := fpVec_inv h ..

theorem vfmaOp_inv (h : State.Inv s) (negP negC : Bool) (d a b c : FReg) : DoneInv (vfmaOp negP negC d a b c s) := fpVec_inv h ..

theorem vint2_inv (h : State.Inv s) (op : BitVec 32 → BitVec 32 → BitVec 32) (d a b : FReg) : DoneInv (vint2 op d a b s) :=
  inv_of_keeps (wfSlow_keepsMem ..) h

theorem vcmpOp_inv (h : State.Inv s) (l : CmpLanes) (c : Cond) (d : MReg) (a b : FReg) : DoneInv (vcmpOp l c d a b s) := by
  cases l with
  | i32 => exact inv_of_keeps (wmSlow_keepsMem ..) h
  | u32 => exact inv_of_keeps (wmSlow_keepsMem ..) h
  | f32 => exact (setFlags_inv h _).bind fun _ ht => inv_of_keeps (wmSlow_keepsMem ..) ht
  | bf16 => exact (setFlags_inv h _).bind fun _ ht => inv_of_keeps (wmSlow_keepsMem ..) ht

theorem sfuOp_inv (h : State.Inv s) (op : Sfu) (d a : FReg) : DoneInv (sfuOp op d a s) := fpVec_inv h ..

theorem convert_inv (h : State.Inv s) (code : Nat) (d a : FReg) (mode : Nat → RMode) : DoneInv (convert code d a mode s) := by
  unfold convert
  dsimp only
  repeat' split
  all_goals exact fpVec_inv h ..

theorem vredOp_inv (h : State.Inv s) (op : RedOp) (d : GReg) (a : FReg) : DoneInv (vredOp op d a s) :=
  (setFlags_inv h _).bind fun _ ht => inv_wgSlow ht ..

theorem effectInv_vseqOp (a : GReg) (n : Nat) : EffectInv (vseqOp a n) := fun _ h => inv_modCur h _

theorem effectInv_vseqSOp (a : SReg) (n : Nat) : EffectInv (vseqSOp a n) := by
  intro s h
  unfold vseqSOp
  split
  · trivial
  · exact inv_modCur h _

/-- Where there is an effect, it keeps the canonical form. -/
def OptEffectInv : Option Effect → Prop
  | some b => EffectInv b
  | none => True

theorem OptEffectInv.getD {o : Option Effect} (ho : OptEffectInv o) : EffectInv (o.getD ok) := by
  cases o with
  | some b => exact ho
  | none => exact fun _ h => h

/-- The effects a replay runs keep the canonical form. -/
theorem seqEffect_inv (i : Instr) : OptEffectInv (seqEffect i) := by
  cases i
  case vadd | vsub | vmul | vmin | vmax | vdiv | vsqrt => exact fun _ h => vfp2_inv h ..
  case vabs | vneg => exact fun _ h => vsign_inv h ..
  case vfma | vfms | vfnma | vfnms => exact fun _ h => vfmaOp_inv h ..
  case vaddI | vsubI | vmulI | vmulhI | vand | vor | vxor | vshl | vshr | vsra | vminI | vmaxI | vminuI | vmaxuI =>
    exact fun _ h => vint2_inv h ..
  case vcmp => exact fun _ h => vcmpOp_inv h ..
  case vrcp | vrsq | vexp2 | vlog2 | vtanh | vsigm => exact fun _ h => sfuOp_inv h ..
  case vcvt | vcvtSr => exact fun _ h => convert_inv h ..
  case vred => exact fun _ h => vredOp_inv h ..
  case vscan => exact fun _ h => fpVec_inv h ..
  case vdot4I8 | vsel | mand | mor | mxor | mnot | mmov | mset | mpopc | vrand | vmov | vbcast | vext | vins | vperm | vseqStop |
      anop => exact fun _ h => inv_keep h
  all_goals exact True.intro

theorem replayRun_inv (h : State.Inv s) (f : Form) (i : Instr) : DoneInv (do
    presence s f.gr
    flightCheck f s
    let s ← writeChecks s f.fw.dedup
    readChecks s f.fr.dedup
    (seqEffect i).getD ok s) := by
  exact (presence_inv h _).bind fun _ _ => (flightCheck_inv h f).bind fun _ _ => (writeChecks_inv _ h).bind fun t ht =>
    (readChecks_inv ht _).bind fun _ _ => (seqEffect_inv i).getD t ht

theorem replayStep_inv (h : State.Inv s) (k : CtxKey) : State.Inv (replayStep s k) := by
  have hr (f : Form) (i : Instr) := replayRun_inv (s := { s with cur := k, latch := none }) (inv_congr rfl rfl h) f i
  unfold replayStep
  dsimp only
  split
  · exact h
  · split
    · exact h
    · split
      · split <;> exact inv_keep h
      · split
        · exact inv_keep h
        · split
          · next heq =>
            have ht := inv_modCur ((hr _ _).of_ok heq)
            exact inv_fold _ (fun _ _ hu => inv_of_keeps (popVec_mem ..) hu) _ (ht _)
          · exact inv_keep h
          · exact h

end Sys2Proof.Proofs
end

section
/-! The canonical form of memory through the messages and deposits. -/

namespace Sys2Proof.Proofs

open Sys2Proof.Machine Sys2Proof.Laws

-- The declarations are checked one after another: checked side by side, their threads exhaust the memory.
set_option Elab.async false

variable {s : State}

/-! ### Sending -/

theorem takeSend_inv (h : State.Inv s) (vn : Fin 4) (traps : Bool) : StateInv (takeSend s vn traps) := by
  unfold takeSend
  dsimp only
  repeat' split
  · trivial
  · exact h
  · exact inv_modCurCore h _

theorem sendPosted_inv (h : State.Inv s) (traps : Bool) (core : Nat) (va : Word) (b : Nat → Body) :
    StateInv (sendPosted s traps core va b) := by
  refine (takeSend_inv h ..).bind fun _ ht => ?_
  split
  · exact h
  · exact (post_inv ht ..).bind fun _ hu => inv_keep hu

theorem destCheck_inv (s : State) (core : Nat) : CheckInv (destCheck s core) := by
  unfold destCheck
  split <;> trivial

theorem effectInv_sendOp (word : Nat) (cut traps : Bool) (a b : GReg) (n : Nat) : EffectInv (sendOp word cut traps a b n) :=
  fun _ h => (destCheck_inv ..).bind fun _ _ => DoInv.ite trivial ((sendPosted_inv h ..).bind fun _ ht => ht)

theorem effectInv_sendrOp (a b : GReg) (k : Fin 32) : EffectInv (sendrOp a b k) :=
  fun _ h => (destCheck_inv ..).bind fun _ _ => (sendPosted_inv h ..).bind fun _ ht => ht

theorem effectInv_replyOp (traps : Bool) (a b : GReg) : EffectInv (replyOp traps a b) :=
  fun _ h => DoInv.ite h ((takeSend_inv h ..).bind fun _ ht => inv_keep ht)

theorem effectInv_putnOp (word : Nat) (d a b : GReg) (n : Nat) : EffectInv (putnOp word d a b n) := by
  refine fun _ h => DoInv.ite trivial (DoInv.ite trivial (DoInv.ite trivial ?_))
  exact (destCheck_inv ..).bind fun _ _ => (sendPosted_inv h ..).bind fun _ ht => ht

theorem getrHold_inv (h : State.Inv s) (d : GReg) : CheckInv (getrHold s d) := by
  unfold getrHold
  dsimp only
  exact DoInv.ite h trivial

theorem effectInv_getrOp (word : Nat) (d a b : GReg) : EffectInv (getrOp word d a b) := by
  refine fun _ h => (getrHold_inv h d).bind fun _ _ => (destCheck_inv ..).bind fun _ _ => DoInv.ite trivial ?_
  split
  · exact h
  · exact (takeSend_inv h ..).bind fun _ ht => inv_keep ht

theorem effectInv_getrSet (d : GReg) (p x : Bool) : EffectInv (fun s => do getrHold s d; ok (setBits s d p x)) :=
  fun _ h => (getrHold_inv h d).bind fun _ _ => inv_keep h

/-! ### Receiving -/

theorem prepareQueue_inv (a : Agent) (q : Fin 64) (n : Nat) : ∀ {s : State}, State.Inv s → State.Inv (prepareQueue a q n s) := by
  induction n with
  | zero => exact fun h => h
  | succ n ih =>
    intro s h
    have ht := ageQueue_inv (unpark_inv a (getCore s a).overflow h) a q
    exact inv_ite (ih ht) ht

theorem readyQueue_inv (h : State.Inv s) (a : Agent) (q : Fin 64) : State.Inv (readyQueue s a q) := prepareQueue_inv _ _ _ h

theorem effectInv_qpopOp (pop : Bool) (d a b : GReg) : EffectInv (qpopOp pop d a b) := by
  intro s h
  have hq (q : Fin 64) := readyQueue_inv h s.cur.agent q
  unfold qpopOp
  dsimp only
  split
  · exact inv_wgSlow h ..
  · split
    · exact inv_wgSlow (hq _) ..
    · split
      · exact hq _
      · split
        · trivial
        · refine (resolveCur_inv (hq _) ..).bind fun r hr => ?_
          split
          · refine (ownCheck_inv hr ..).bind fun _ _ => inv_wgSlow ?_ ..
            have hw := inv_homeWrite (localAddr (agentNo s.cur.agent) ‹Nat›) (msgRecord (Fin.ofNat 64 (rg s a).toNat) ‹Message›) 0
              (writerNo s.cur.agent) (some (curWho r.1 0)) true hr
            exact inv_ite (inv_keep hw) hw
          · trivial

theorem effectInv_qstatClrOp (d a : GReg) : EffectInv (qstatClrOp d a) :=
  fun _ h => inv_wgSlow (inv_ite (inv_keep h) h) ..

theorem messageAt_inv (h : State.Inv s) (core : Nat) (src : Node) (m : Message) (w : Option Who) (jn : Option Nat) :
    OptInv (messageAt s core src m w jn) := by
  unfold messageAt
  dsimp only
  split
  · next heq =>
    have ht := placeMsg_inv h _ _ heq
    rw [optInv_some]
    split <;> exact inv_keep ht
  · trivial
  · exact inv_keep h

theorem putnAt_inv (h : State.Inv s) (core : Nat) (src : Node) (w : Who) (jn : Option Nat) (addr : Nat) (data : List Word)
    (m : Message) (launch : Option Nat) : OptInv (putnAt s core src w jn addr data m launch) := by
  unfold putnAt
  dsimp only
  have hp := inv_putWords addr (writerKind w.ctx.agent) (agentNo w.ctx.agent) (some w) data h
  split
  · trivial
  · exact inv_keep h
  · exact inv_keep h
  · split
    · next heq => exact inv_of_keeps ⟨by simp, by simp⟩ (placeMsg_inv hp _ _ heq)
    · trivial
    · exact inv_keep hp

theorem execMessageArrival_inv (h : State.Inv s) (n : Nat) : OutInv (execMessageArrival n s) := by
  unfold execMessageArrival
  split
  · next heq => exact (messageAt_inv (inv_takePkt h heq) ..).getD h
  · next heq => exact (putnAt_inv (inv_takePkt h heq) ..).getD h
  · exact h

theorem depositAt_inv (h : State.Inv s) (core : Nat) (d : Deposit) : OptInv (depositAt s core d) := by
  unfold depositAt
  dsimp only
  repeat' split
  case isFalse.isFalse.isFalse.isFalse => trivial
  all_goals exact inv_keep h

theorem execDepositArrival_inv (h : State.Inv s) (n : Nat) : OutInv (execDepositArrival n s) := by
  unfold execDepositArrival
  split
  · next heq =>
    split
    · exact h
    · split
      · next hd => exact inv_keep ((depositAt_inv (inv_takePkt h heq) ..).of_some hd)
      · exact h
  · exact h

theorem execAbsentContextMessage_inv (h : State.Inv s) (n : Nat) : OutInv (execAbsentContextMessage n s) := by
  unfold execAbsentContextMessage
  split
  · next heq =>
    dsimp only
    split
    · exact h
    · exact inv_keep (inv_takePkt h heq)
  · exact h

theorem execDepositLanding_inv (h : State.Inv s) (ag : Agent) (i : Nat) : OutInv (execDepositLanding ag i s) := by
  unfold execDepositLanding
  repeat' split
  all_goals exact inv_keep h

theorem execReplyArrival_inv (h : State.Inv s) (n : Nat) : OutInv (execReplyArrival n s) := by
  unfold execReplyArrival
  split
  · next heq =>
    have ht := inv_takePkt h heq
    dsimp only
    repeat' split
    all_goals exact inv_keep ht
  · exact h

theorem unparkDeposits_inv (a : Agent) (l : List Parked) : ∀ {s : State}, State.Inv s → State.Inv (unparkDeposits a l s) := by
  induction l with
  | nil => exact fun h => h
  | cons p l ih =>
    intro s h
    unfold unparkDeposits
    dsimp only
    have hback (d : Deposit) (t : State) (ht : State.Inv t) (c c' c'' : Prop) [Decidable c] [Decidable c'] [Decidable c''] :
        State.Inv (if c then unparkDeposits a l (discardDeposit t (agentNo a) d) else if c' then unparkDeposits a l s
          else if c'' then unparkDeposits a l (modCore t a fun co => { co with recvQ := co.recvQ ++ [d] }) else s) :=
      inv_ite (ih (inv_keep ht)) (inv_ite (ih h) (inv_ite (ih (inv_keep ht)) h))
    split
    · exact ih h
    · exact inv_ite (ih (inv_keep h)) (hback _ _ (inv_keep h) ..)
    · exact hback _ _ (inv_keep h) ..

theorem execParkedReturn_inv (h : State.Inv s) (ag : Agent) : OutInv (execParkedReturn ag s) :=
  unparkDeposits_inv ag _ (unpark_inv ag _ h)

end Sys2Proof.Proofs
end

section
/-! The canonical form of memory through the scheduler, the budgets, the joins and the spawns. -/

namespace Sys2Proof.Proofs

open Sys2Proof.Machine Sys2Proof.Laws

-- The declarations are checked one after another: checked side by side, their threads exhaust the memory.
set_option Elab.async false

variable {s : State}

/-! ### The start of activations -/

theorem startQueue_inv (h : State.Inv s) (a : Agent) (q : Fin 64) (slot : Nat) (pos : Fin 4) :
    State.Inv (startQueue s a q slot pos) := by
  unfold startQueue
  dsimp only
  generalize ht : (if ((getCore s a).queues[q]).resume then s else ageQueue s a q) = t
  have hti : State.Inv t := ht ▸ inv_ite h (ageQueue_inv h a q)
  repeat' split
  all_goals exact inv_keep hti

theorem activationStart_inv (h : State.Inv s) (a : Agent) : State.Inv (activationStart s a) := by
  unfold activationStart
  split
  · exact inv_keep h
  · split
    · exact h
    · exact inv_ite (inv_keep h) (startQueue_inv (inv_keep h) ..)
  · exact h

theorem execActivationStart_inv (h : State.Inv s) (ag : Agent) : OutInv (execActivationStart ag s) := by
  cases ag with
  | tile n => exact activationStart_inv h _
  | fw k => exact h

theorem execContextLoad_inv (h : State.Inv s) (k : CtxKey) : OutInv (execContextLoad k s) := by
  unfold execContextLoad
  split <;> exact inv_keep h

theorem execContextWriteback_inv (h : State.Inv s) (k : CtxKey) : OutInv (execContextWriteback k s) := by
  unfold execContextWriteback
  split <;> exact inv_keep h

theorem spillWaiters_inv (a : Agent) (n : Nat) : ∀ {s : State}, State.Inv s → State.Inv (spillWaiters a n s) := by
  induction n with
  | zero => exact fun h => h
  | succ n ih =>
    intro s h
    unfold spillWaiters
    split
    · exact inv_keep h
    · split
      · exact h
      · exact ih (inv_keep h)

theorem slotExhaustion_inv (h : State.Inv s) (a : Agent) : State.Inv (slotExhaustion s a) := by
  unfold slotExhaustion
  dsimp only
  split
  · exact h
  · split
    · exact spillWaiters_inv _ _ (inv_keep h)
    · exact inv_keep h

theorem execSlotExhaustion_inv (h : State.Inv s) (ag : Agent) : OutInv (execSlotExhaustion ag s) := by
  cases ag with
  | tile n => exact slotExhaustion_inv h _
  | fw k => exact h

/-! ### Budgets -/

theorem execBudgetGraceExpiry_inv (h : State.Inv s) (k : CtxKey) : OutInv (execBudgetGraceExpiry k s) := by
  unfold execBudgetGraceExpiry
  dsimp only
  repeat' split
  all_goals exact inv_keep h

theorem execDeadlockSuspected_inv (h : State.Inv s) (k : CtxKey) : OutInv (execDeadlockSuspected k s) := by
  unfold execDeadlockSuspected
  dsimp only
  split <;> exact inv_keep h

theorem execTakeBudgetSpent_inv (h : State.Inv s) (ag : Agent) (q : Fin 64) : OutInv (execTakeBudgetSpent ag q s) := by
  unfold execTakeBudgetSpent
  dsimp only
  split <;> exact inv_keep h

theorem budgetCheck_inv (s : State) (word old v : Nat) (act : Bool) : CheckInv (budgetCheck s word old v act) :=
  DoInv.ite trivial trivial

theorem effectInv_budgetActOp (d a : GReg) : EffectInv (budgetActOp d a) :=
  fun _ h => (budgetCheck_inv ..).bind fun _ _ => inv_keep h

theorem effectInv_budgetTakeOp (d a : GReg) : EffectInv (budgetTakeOp d a) := by
  intro s h
  unfold budgetTakeOp
  split
  · exact inv_keep h
  · exact (budgetCheck_inv ..).bind fun _ _ => inv_keep h

/-! ### Joins -/

theorem joinResult_inv (h : State.Inv s) (owner cell : Nat) (c : Cell) (idx : Nat) (w : Who) (value : Word) :
    State.Inv (joinResult s owner cell c idx w value).1 := by
  unfold joinResult
  dsimp only
  split
  · exact h
  · split
    · exact inv_setFe _ _ (inv_homeWrite _ _ _ _ _ _ h)
    · exact inv_keep h

theorem joinArrive_inv (h : State.Inv s) (owner : Nat) (jw : Word) (w : Who) (value : Word) :
    State.Inv (joinArrive s owner jw w value).1 := by
  have hj := joinResult_inv h owner (jwCell jw) (getCell (getCore s (.tile owner)) (jwCell jw)) (jwIndex jw) w value
  unfold joinArrive
  dsimp only
  repeat' split
  case isTrue => exact h
  case isFalse.isTrue => exact h
  all_goals exact inv_keep hj

@[simp] theorem joinAwait_keepsMem (s : State) (owner : Nat) (jw : Word) (w : Who) (wait : Bool) :
    (joinAwait s owner jw w wait).1.mem = s.mem ∧ (joinAwait s owner jw w wait).1.full = s.full := by
  unfold joinAwait
  dsimp only
  repeat' split
  all_goals simp

theorem joinAt_inv (h : State.Inv s) (owner kind : Nat) (jw : Word) (w : Who) (value : Word) :
    State.Inv (joinAt s owner kind jw w value).1 := by
  unfold joinAt
  split
  · exact joinArrive_inv h ..
  · exact inv_keep h

theorem execJoinArrival_inv (h : State.Inv s) (n : Nat) : OutInv (execJoinArrival n s) := by
  unfold execJoinArrival
  split
  · next heq =>
    have ht := joinAt_inv (inv_takePkt h heq)
    split
    · exact h
    · dsimp only
      split
      · exact outInv_event.mpr (inv_sendPkt _ _ _ _ (ht ..))
      · exact ht ..
  · exact h

theorem joinFinish_inv (h : State.Inv s) (d : GReg) (jw : Word) (v : Word) : DoneInv (joinFinish d jw s v) := by
  have hk : State.Inv (keepAnswer s v) := inv_keep h
  have he := endCheck_inv hk
  unfold joinFinish
  dsimp only
  split
  · trivial
  · split
    · split
      · exact ending_inv hk
      · exact hk
      · next heq => exact he.of_error heq
    · exact (acquire_inv hk _).bind fun _ ht => inv_wgSlow ht ..

theorem joinOwn_inv (h : State.Inv s) (d : GReg) (jw : Word) (kind : Nat) (value : Word) (owner obj : Nat) : DoneInv (
    let (id, s) := newId s
    let r := joinAt s owner kind jw (curWho s id) value
    match r.2 with
    | some v => joinFinish d jw r.1 v
    | none => askAs r.1 id 5 obj 0x7FF) := by
  have ht := joinAt_inv (s := (newId s).2) (inv_keep h)
  dsimp only
  split
  · exact joinFinish_inv (ht ..) ..
  · exact askAs_inv (ht ..) ..

theorem effectInv_joinForm (d : GReg) (jw : State → Word) (kind : Nat) (value : State → Word) :
    EffectInv fun s => joinForm d (jw s) kind (value s) s := by
  intro s h
  dsimp only
  unfold joinForm
  dsimp only
  split
  · exact joinFinish_inv h ..
  · exact h
  · refine (destCheck_inv ..).bind fun _ _ => DoInv.ite trivial (DoInv.ite h (DoInv.ite ?_ ?_))
    · refine (release_inv h _).bind fun _ ht => DoInv.ite (DoInv.ite ht (joinOwn_inv ht ..)) ?_
      exact askOwner_inv (fun _ _ hu => inv_keep hu) ht
    · exact DoInv.ite (DoInv.ite h (joinOwn_inv h ..)) (askOwner_inv (fun _ _ hu => inv_keep hu) h)

theorem effectInv_joinOpenOp (d a b : GReg) : EffectInv (joinOpenOp d a b) :=
  fun _ h => DoInv.ite trivial (DoInv.ite trivial (inv_keep h))

/-! ### Spawns -/

theorem spawnCell_inv (s : State) (jw : Word) : DoInv (fun _ => True) (spawnCell s jw) :=
  DoInv.ite trivial (DoInv.ite trivial (DoInv.ite trivial trivial))

theorem effectInv_spawnOp (word : Nat) (j a b : GReg) (n : Nat) : EffectInv (spawnOp word j a b n) := by
  intro s h
  unfold spawnOp
  dsimp only
  refine DoInv.ite trivial (DoInv.ite trivial (DoInv.ite trivial (DoInv.ite h (DoInv.ite ?_ ?_))))
  · refine DoInv.ite trivial ((takeSend_inv h ..).bind fun _ ht => ?_)
    split <;> exact inv_keep ht
  · refine (spawnCell_inv ..).bind fun _ _ => DoInv.ite trivial ((takeSend_inv h ..).bind fun _ ht => ?_)
    split <;> exact inv_keep ht

theorem effectInv_forkOp (word : Nat) (j a b : GReg) (n : Nat) : EffectInv (forkOp word j a b n) := by
  intro s h
  unfold forkOp
  dsimp only
  refine DoInv.ite trivial (DoInv.ite trivial (DoInv.ite h (DoInv.ite h (DoInv.ite ?_ ?_))))
  · exact DoInv.ite trivial ((takeSend_inv h ..).bind fun _ ht => inv_keep ht)
  · exact (spawnCell_inv ..).bind fun _ _ => DoInv.ite trivial ((takeSend_inv h ..).bind fun _ ht => inv_keep ht)

theorem execSendQueueEntryFreed_inv (h : State.Inv s) (ag : Agent) (vn : Fin 4) : OutInv (execSendQueueEntryFreed ag vn s) := by
  unfold execSendQueueEntryFreed
  repeat' split
  all_goals exact inv_keep h

theorem execRecruitmentAnswer_inv (h : State.Inv s) (ag : Agent) (i : Nat) : OutInv (execRecruitmentAnswer ag i s) := by
  unfold execRecruitmentAnswer
  dsimp only
  repeat' split
  all_goals exact inv_keep h

theorem execSpawnArrival_inv (h : State.Inv s) (n : Nat) : OutInv (execSpawnArrival n s) := by
  unfold execSpawnArrival
  split
  · next heq =>
    have ht := inv_takePkt h heq
    dsimp only
    repeat' split
    all_goals exact inv_keep ht
  · exact h

theorem execSpawnRetry_inv (h : State.Inv s) (n : Nat) : OutInv (execSpawnRetry n s) := by
  unfold execSpawnRetry
  split <;> exact inv_keep h

/-! ### KILL -/

theorem execQuiesceAck_inv (h : State.Inv s) (k : CtxKey) : OutInv (execQuiesceAck k s) := by
  unfold execQuiesceAck
  dsimp only
  split
  · split
    · exact finishLaunches_inv (inv_keep h)
    · exact h
  · split
    · split
      · exact finishLaunches_inv (inv_keep h)
      · exact h
    · exact h

theorem execKillAcceptance_inv (h : State.Inv s) (n : Nat) : OutInv (execKillAcceptance n s) := by
  unfold execKillAcceptance
  split
  · next heq =>
    have ht := inv_takePkt h heq
    dsimp only
    repeat' split
    all_goals exact inv_keep ht
  · exact h

end Sys2Proof.Proofs
end

section
/-! The canonical form of memory through the barriers and the rings. -/

namespace Sys2Proof.Proofs

open Sys2Proof.Machine Sys2Proof.Laws

-- The declarations are checked one after another: checked side by side, their threads exhaust the memory.
set_option Elab.async false

variable {s : State}

/-! ### Barriers at their owner -/

@[simp] theorem countArrival_keepsMem (s : State) (owner i : Nat) :
    (countArrival s owner i).1.mem = s.mem ∧ (countArrival s owner i).1.full = s.full := by
  unfold countArrival
  dsimp only
  split <;> simp

theorem drainHolds_inv (owner i n : Nat) : ∀ {s : State}, State.Inv s → State.Inv (drainHolds owner i n s) := by
  induction n with
  | zero => exact fun h => h
  | succ n ih =>
    intro s h
    unfold drainHolds
    dsimp only
    split
    · exact h
    · split
      · exact h
      · split
        · exact ih (inv_keep h)
        · exact ih (inv_keep h)

theorem arriveBar_inv (h : State.Inv s) (owner i : Nat) (w : Who) (wait : Bool) : State.Inv (arriveBar s owner i w wait).1 := by
  unfold arriveBar
  dsimp only
  repeat' split
  · exact h
  · exact inv_keep h
  · exact h
  · exact drainHolds_inv _ _ _ (inv_keep h)

theorem addPend_inv (h : State.Inv s) (owner i : Nat) (v : Int) : State.Inv (addPend s owner i v).1 :=
  drainHolds_inv _ _ _ (inv_keep h)

theorem barDecrement_inv (h : State.Inv s) (owner i bytes : Nat) (homes : List Node) :
    State.Inv (barDecrement s owner i bytes homes) := addPend_inv (inv_keep h) ..

/-! ### The barrier forms -/

theorem memberOf_inv (s : State) (g : Nat) : DoInv (fun _ => True) (memberOf s g) := by
  unfold memberOf
  repeat' split
  all_goals trivial

theorem effectInv_barInitOp (a b : GReg) : EffectInv (barInitOp a b) := by
  intro s h
  unfold barInitOp
  dsimp only
  refine DoInv.ite trivial (DoInv.ite trivial (DoInv.ite ?_ ?_))
  · exact (memberOf_inv ..).bind fun _ _ => inv_keep h
  · exact inv_keep h

theorem effectInv_barArrOp (sc : Scope) (d a : GReg) : EffectInv (barArrOp sc d a) := by
  refine fun s h => (destCheck_inv ..).bind fun _ _ => (release_inv h sc).bind fun t ht => DoInv.ite (inv_keep ht) ?_
  have hr (owner i : Nat) (w : Who) : State.Inv (arriveBar (awaitReg t d).2 owner i w false).1 := arriveBar_inv (inv_keep ht) ..
  dsimp only
  split
  · exact inv_keep ht
  · exact inv_of_keeps (landReply_keepsMem ..) (hr ..)
  · exact hr ..
  · exact inv_sendPkt _ _ _ _ (hr ..)

theorem effectInv_barWaitOp (sc : Scope) (a b : GReg) : EffectInv (barWaitOp sc a b) := by
  intro s h
  unfold barWaitOp
  dsimp only
  split
  · exact (acquire_inv h sc).bind fun _ ht => ht
  · exact h
  · refine DoInv.ite trivial (DoInv.ite trivial (DoInv.ite ?_ ?_))
    · exact askOwner_inv (fun _ _ hu => inv_keep hu) h
    · exact (acquire_inv (inv_keep h) sc).bind fun _ ht => ht

theorem barArwFinish_inv (h : State.Inv s) (sc : Scope) (d : GReg) (v : Word) : DoneInv (barArwFinish sc d s v) :=
  (acquire_inv (inv_of_keeps (keepAnswer_keepsMem ..) h) sc).bind fun _ ht => inv_ite ht (inv_wgSlow ht ..)

theorem effectInv_barArwOp (sc : Scope) (d a : GReg) : EffectInv (barArwOp sc d a) := by
  intro s h
  unfold barArwOp
  dsimp only
  split
  · exact barArwFinish_inv h ..
  · exact h
  · refine (destCheck_inv ..).bind fun _ _ => (release_inv h sc).bind fun t ht => DoInv.ite ?_ ?_
    · exact askOwner_inv (fun _ _ hu => inv_keep hu) ht
    · have hr (owner i : Nat) (w : Who) : State.Inv (arriveBar (newId t).2 owner i w true).1 := arriveBar_inv (inv_keep ht) ..
      split
      · exact hr ..
      · refine DoInv.ite ?_ ?_
        · exact barArwFinish_inv (inv_of_keeps (barAcquire_keepsMem ..) (hr ..)) ..
        · exact askAs_inv (inv_of_keeps (putBar_keepsMem ..) (hr ..)) ..
      · exact askAs_inv (hr ..) ..
      · exact askAs_inv (inv_sendPkt _ _ _ _ (hr ..)) ..

theorem effectInv_barTxOp (a b : GReg) : EffectInv (barTxOp a b) :=
  fun _ h => (destCheck_inv ..).bind fun _ _ => DoInv.ite (inv_keep h) (DoInv.ite trivial
    (DoInv.ite (addPend_inv h ..) (addPend_inv h ..)))

theorem effectInv_barQryOp (d a : GReg) : EffectInv (barQryOp d a) :=
  fun _ h => (destCheck_inv ..).bind fun _ _ => DoInv.ite (inv_wgSlow h ..) (inv_keep h)

theorem barEvent_inv (h : State.Inv s) (owner i src : Nat) (w : Option Who) (m : BarMsg) : State.Inv (barEvent s owner i src w m) := by
  unfold barEvent
  dsimp only
  split
  · next wait w =>
    have hr := arriveBar_inv h owner i w wait
    split
    · exact inv_keep hr
    · exact hr
    · exact inv_keep h
    · exact inv_keep hr
  · next v w =>
    have hr := addPend_inv h owner i v
    split
    · exact inv_keep h
    · exact inv_ite hr (inv_keep hr)
  · exact inv_keep h
  · split
    · exact inv_keep h
    · exact drainHolds_inv _ _ _ (inv_keep h)
  · split
    · exact inv_keep h
    · exact inv_ite (drainHolds_inv _ _ _ (inv_keep h)) h
  · exact h

theorem execBarrierEvent_inv (h : State.Inv s) (n : Nat) : OutInv (execBarrierEvent n s) := by
  unfold execBarrierEvent
  split
  · exact h
  · next heq => exact barEvent_inv (inv_takePkt h heq) ..
  · exact h

theorem execBarrierHoldRetry_inv (h : State.Inv s) (n : Nat) : OutInv (execBarrierHoldRetry n s) := by
  unfold execBarrierHoldRetry
  split
  · next heq => exact inv_keep (inv_takePkt h heq)
  · exact h

/-! ### Rings -/

theorem ringCheck_inv (s : State) (n : Nat) (op : RingOp) (k : Nat) : DoInv (fun _ => True) (ringCheck s n op k) := by
  unfold ringCheck
  dsimp only
  exact DoInv.ite trivial (DoInv.ite trivial (DoInv.ite trivial trivial))

theorem ringFinish_inv (h : State.Inv s) (d : GReg) (v : Word) : DoneInv (ringFinish d s v) :=
  (acquire_inv (inv_of_keeps (keepAnswer_keepsMem ..) h) _).bind fun _ ht => inv_ite ht (inv_wgSlow ht ..)

theorem effectInv_ringWaitOp (op : RingOp) (word : Nat) (d : GReg) (hd : Handle) (k : Nat) :
    EffectInv (ringWaitOp op word d hd k) := by
  intro s h
  unfold ringWaitOp
  dsimp only
  split
  · exact ringFinish_inv h ..
  · exact h
  · refine DoInv.ite trivial ((ringCheck_inv ..).bind fun r _ => DoInv.ite ?_ ?_)
    · exact askOwner_inv (fun _ _ hu => inv_keep hu) h
    · split
      · exact ringFinish_inv (inv_keep h) ..
      · exact askOwner_inv (fun _ _ hu => inv_keep hu) h

theorem effectInv_ringAdvOp (op : RingOp) (word : Nat) (hd : Handle) (k : Nat) : EffectInv (ringAdvOp op word hd k) := by
  refine fun _ h => DoInv.ite trivial ((ringCheck_inv ..).bind fun r _ => (release_inv h _).bind fun _ ht => DoInv.ite ?_ ?_)
  · exact DoInv.ite trivial (inv_keep ht)
  · split
    · exact inv_keep ht
    · trivial

theorem effectInv_ringQryOp (d : GReg) (hd : Handle) : EffectInv (ringQryOp d hd) :=
  fun _ h => (ringCheck_inv ..).bind fun _ _ => DoInv.ite (inv_wgSlow h ..) (inv_keep h)

end Sys2Proof.Proofs
end

section
/-! The canonical form of memory through the pool, the streams, the accesses of the engines and the conversions. -/

namespace Sys2Proof.Proofs

open Sys2Proof.Machine Sys2Proof.Laws

-- The declarations are checked one after another: checked side by side, their threads exhaust the memory.
set_option Elab.async false

variable {s : State}

/-! ### The pool -/

theorem effectInv_poolSetOp (d a : GReg) : EffectInv (poolSetOp d a) :=
  fun _ h => DoInv.ite (inv_wgSlow h ..) (DoInv.ite (inv_wgSlow h ..) (inv_keep h))

theorem effectInv_poolQryOp (word : Nat) (d a : GReg) : EffectInv (poolQryOp word d a) := by
  intro s h
  unfold poolQryOp
  dsimp only
  split
  · exact inv_wgSlow h ..
  · exact inv_wgSlow h ..
  · exact inv_wgSlow h ..
  · exact DoInv.ite trivial (inv_wgSlow h ..)
  · exact inv_wgSlow h ..
  · trivial

theorem addPin_inv (h : State.Inv s) (k : CtxKey) (gen : Gen) (v : Nat) (o : Option Nat) : State.Inv (addPin s k gen v o) := by
  cases o with
  | none => exact h
  | some n => exact inv_ite (inv_keep h) (inv_keep h)

theorem effectInv_poolPinOp (d a : GReg) : EffectInv (poolPinOp d a) :=
  fun _ h => DoInv.ite (inv_keep h) (inv_wgSlow (addPin_inv h ..) ..)

theorem endPins_inv (h : State.Inv s) (a : Agent) : State.Inv (endPins s a) := by
  refine inv_fold _ (fun t x ht => ?_) _ (inv_modCore h _ _)
  dsimp only
  split
  · exact ht
  · exact inv_of_keeps (landReply_keepsMem ..) (addPin_inv ht ..)

theorem effectInv_poolUnpinOp (d a : GReg) : EffectInv (poolUnpinOp d a) := by
  intro s h
  unfold poolUnpinOp
  dsimp only
  split
  · exact inv_wgSlow h ..
  · exact DoInv.ite (inv_wgSlow h ..) (inv_wgSlow (inv_ite (inv_keep h) (inv_keep h)) ..)

/-! ### Streams -/

theorem overVn2_inv (h : State.Inv s) (src dst : Node) : OptInv (overVn2 s src dst) := by
  unfold overVn2
  dsimp only
  split
  · exact h
  · exact optInv_unless (inv_congr rfl rfl h)

theorem readHome_inv (h : State.Inv s) (asid : BitVec 12) (user : Bool) (ea : Word) (n : Nat) (refill : Bool) :
    DoInv (fun r => State.Inv r.1) (readHome s asid user ea n refill) := by
  unfold readHome
  refine DoInv.ite trivial ((resolve_inv h ..).bind fun r hr => ?_)
  dsimp only
  split
  · refine DoInv.ite trivial ((ownCheck_inv hr ..).bind fun _ _ => ?_)
    exact (loadCheck_inv ..).bind fun _ _ => hr
  · refine DoInv.ite hr ?_
    split
    · exact hr
    · next heq =>
      have ht := (overVn2_inv hr ..).of_some heq
      refine DoInv.ite trivial ?_
      split
      · exact ht
      · trivial
      · trivial
      · exact (loadCheck_inv ..).bind fun _ _ => ht
  · split
    · exact inv_keep hr
    · refine DoInv.ite hr ?_
      split
      · exact hr
      · next heq =>
        have ht := (overVn2_inv hr ..).of_some heq
        refine DoInv.ite trivial (DoInv.ite ?_ ?_)
        · exact (loadCheck_inv ..).bind fun _ _ => inv_keep ht
        · exact (loadCheck_inv ..).bind fun _ _ => inv_keep ht

theorem readPattern_inv (at_ : Word) (n : Nat) :
    ∀ {s : State} (i : Nat), State.Inv s → DoInv (fun r => State.Inv r.1) (readPattern s at_ n i) := by
  induction n with
  | zero => exact fun _ h => h
  | succ n ih => exact fun _ h => (readHome_inv h ..).bind fun _ ht => (ih _ ht).bind fun _ hu => hu

theorem closeCheck_inv (h : State.Inv s) (r : SReg) : CheckInv (closeCheck s r) := by
  unfold closeCheck
  split
  · exact DoInv.ite trivial h
  · trivial

theorem effectInv_scfgOp (d : SReg) (a b : GReg) (wr : Bool) (size : StreamSize) : EffectInv (scfgOp d a b wr size) := by
  refine fun _ h => DoInv.ite trivial ((readPattern_inv _ _ _ h).bind fun _ ht => DoInv.ite trivial (DoInv.ite trivial ?_))
  exact (closeCheck_inv ht _).bind fun _ _ => inv_keep ht

theorem effectInv_sclose (a : SReg) : EffectInv (fun s => do closeCheck s a; ok (unbind s s.cur a)) :=
  fun _ h => (closeCheck_inv h _).bind fun _ _ => inv_keep h

theorem elemFault_inv {α : Type} {P : α → Prop} {x : Do α} (hx : DoInv P x) (ea : Word) : DoInv P (elemFault ea x) := by
  unfold elemFault
  split
  · trivial
  · exact hx

theorem fetchElems_inv (st : Stream) (l : List Nat) :
    ∀ {s : State}, State.Inv s → DoInv (fun r => State.Inv r.1) (fetchElems s st l) := by
  induction l with
  | nil => exact fun h => h
  | cons n l ih => exact fun h => (elemFault_inv (readHome_inv h ..) _).bind fun _ ht => (ih ht).bind fun _ hu => hu

theorem streamFetch_inv (h : State.Inv s) (k : CtxKey) (r : SReg) : State.Inv (streamFetch s k r) := by
  have ht : State.Inv { s with cur := k, latch := none } := inv_congr rfl rfl h
  unfold streamFetch
  dsimp only
  split
  · exact h
  · split
    · exact h
    · split
      · next heq => exact inv_keep ((fetchElems_inv _ _ ht).of_ok heq)
      · exact inv_keep h
      · exact h

theorem drainElem_inv (h : State.Inv s) (st : Stream) (r : SReg) (n : Nat) (t : Target) (v : Nat) :
    OptInv (drainElem s st r n t v) := by
  unfold drainElem
  dsimp only
  split
  · split
    · exact inv_homeWrite _ _ _ _ _ _ h
    · exact inv_keep h
    · trivial
  · split
    · exact inv_keep h
    · split
      · next heq => exact inv_modCore ((post_inv h ..).of_ok heq) ..
      · trivial

theorem drainElems_inv (st : Stream) (r : SReg) (v0 : Nat) (l : List (Nat × Target)) :
    ∀ {s : State}, State.Inv s → State.Inv (drainElems s st r v0 l).1 := by
  induction l with
  | nil => exact fun h => h
  | cons x l ih =>
    intro s h
    unfold drainElems
    split
    · exact h
    · split
      · next heq => exact ih ((drainElem_inv h ..).of_some heq)
      · exact h

theorem streamDrain_inv (h : State.Inv s) (k : CtxKey) (r : SReg) : State.Inv (streamDrain s k r) := by
  have ht : State.Inv { s with cur := k, latch := none } := inv_congr rfl rfl h
  unfold streamDrain
  dsimp only
  split
  · exact h
  · split
    · exact h
    · exact inv_modCtx (drainElems_inv _ _ _ _ ht) ..

/-! ### Accesses of the engines -/

/-- What an access of an engine answers where nothing stops it. -/
def EngInv {ε α : Type} (P : α → Prop) : Except ε α → Prop
  | .ok a => P a
  | .error _ => True

theorem EngInv.bind {ε α β : Type} {P : α → Prop} {Q : β → Prop} {x : Except ε α} {f : α → Except ε β}
    (hx : EngInv P x) (hf : ∀ a, P a → EngInv Q (f a)) : EngInv Q (x >>= f) := by
  cases x with
  | ok a => exact hf a hx
  | error e => trivial

theorem EngInv.of_ok {ε α : Type} {P : α → Prop} {x : Except ε α} (hx : EngInv P x) {a : α} (e : x = .ok a) : P a := by
  rw [e] at hx
  exact hx

theorem EngInv.ite {ε α : Type} {P : α → Prop} {c : Prop} [Decidable c] {x y : Except ε α} (hx : EngInv P x)
    (hy : EngInv P y) : EngInv P (if c then x else y) := by
  split
  · exact hx
  · exact hy

@[simp] theorem engInv_error {ε α : Type} {P : α → Prop} {e : ε} : EngInv P (.error e : Except ε α) ↔ True := Iff.rfl

theorem engHome_inv (h : State.Inv s) (x : EngSrc) (va n : Nat) (store : Bool) :
    EngInv (fun r => State.Inv r.1) (engHome s x va n store) := by
  have hr := resolve_inv h (.tile x.core) x.asid x.user (w64 va) (b2n store) (if store then .wr else .rd)
  unfold engHome
  split
  · trivial
  · trivial
  · trivial
  · trivial
  · trivial
  · next heq =>
    have ht := hr.of_ok heq
    split
    · trivial
    · next hv =>
      have hu := (overVn2_inv ht ..).of_some hv
      split
      · split
        · exact hu
        · trivial
        · trivial
      · dsimp only
        split
        · trivial
        · trivial
        · exact EngInv.ite hu trivial
      · exact EngInv.ite trivial hu

theorem engRead_inv (h : State.Inv s) (x : EngSrc) (va n : Nat) : EngInv (fun r => State.Inv r.1) (engRead s x va n) := by
  refine (engHome_inv h ..).bind fun _ ht => EngInv.ite trivial ?_
  split
  · trivial
  · exact inv_keep ht

theorem engWrite_inv (h : State.Inv s) (x : EngSrc) (va : Nat) (bs : List Byte) :
    EngInv (fun r => State.Inv r.1) (engWrite s x va bs) :=
  (engHome_inv h ..).bind fun _ ht => EngInv.ite trivial (inv_engPut _ _ _ _ ht)

/-! ### Conversions -/

@[simp] theorem newOp_keepsMem (s : State) (kind : Nat) : (newOp s kind).2.mem = s.mem ∧ (newOp s kind).2.full = s.full := ⟨rfl, rfl⟩

theorem ownRange_inv (s : State) (ea : Word) (n : Nat) : DoInv (fun _ => True) (ownRange s ea n) :=
  DoInv.ite trivial (DoInv.ite trivial trivial)

theorem engRing_inv (s : State) (kind n : Nat) (op : RingOp) (role m small : Nat) : CheckInv (engRing s kind n op role m small) := by
  unfold engRing
  dsimp only
  exact DoInv.ite trivial (DoInv.ite trivial (DoInv.ite trivial trivial))

theorem convAligned_inv (ring : Bool) (ea : Word) : CheckInv (convAligned ring ea) := DoInv.ite trivial trivial

theorem convOperand_inv (s : State) (kind : Nat) (ring : Bool) (r : GReg) (op : RingOp) (n small : Nat) :
    DoInv (fun _ => True) (convOperand s kind ring r op n small) :=
  DoInv.ite ((engRing_inv ..).bind fun _ _ => trivial) (ownRange_inv ..)

theorem effectInv_convIssue (kind : Nat) (d a b : GReg) (f : ConvField) : EffectInv (convIssue kind d a b f) := by
  refine fun _ h => DoInv.ite h (DoInv.ite trivial ((convAligned_inv ..).bind fun _ _ => (convAligned_inv ..).bind fun _ _ => ?_))
  exact (convOperand_inv ..).bind fun _ _ => (convOperand_inv ..).bind fun _ _ => inv_keep h

theorem convRun_inv (h : State.Inv s) (core : Nat) (o : EngOp) : State.Inv (convRun s core o) := by
  unfold convRun
  dsimp only
  split
  · exact h
  · exact inv_keep h
  · split
    · exact inv_keep h
    · split
      · exact inv_keep h
      · exact inv_ite (inv_keep h) (inv_of_keeps (putOp_keepsMem ..) (inv_engPut _ _ _ _ h))

theorem convStep_inv (h : State.Inv s) (core : Nat) (l : List EngOp) (o : EngOp) : OptInv (convStep s core l o) := by
  unfold convStep
  split
  · exact inv_keep h
  · split
    · trivial
    · split
      · repeat' split
        all_goals exact inv_keep h
      · split
        · exact convRun_inv h ..
        · trivial
      · trivial

theorem findSome_inv {α : Type} {f : α → Option State} (hf : ∀ x, OptInv (f x)) (l : List α) : OptInv (l.findSome? f) := by
  cases he : l.findSome? f with
  | none => trivial
  | some t =>
    obtain ⟨x, _, hx⟩ := List.exists_of_findSome?_eq_some he
    exact (hf x).of_some hx

theorem execConvOpStart_inv (h : State.Inv s) (ag : Agent) : OutInv (execConvOpStart ag s) := by
  cases ag with
  | fw k => exact h
  | tile n => exact (findSome_inv (fun _ => convStep_inv h ..) _).getD h

theorem opBar_inv (h : State.Inv s) (core : Nat) (ben : Bool) (bar : Nat) (o : EngOp) : State.Inv (opBar s core ben bar o) :=
  inv_ite (barDecrement_inv h ..) h

theorem engAdvance_ite_inv (h : State.Inv s) (c : Bool) (owner n : Nat) (op : RingOp) (k : Nat) :
    State.Inv (if c then engAdvance s owner n op k else s) := inv_ite (inv_keep h) h

theorem execConvOpComplete_inv (h : State.Inv s) (ag : Agent) : OutInv (execConvOpComplete ag s) := by
  unfold execConvOpComplete
  split
  · exact h
  · split
    · exact h
    · exact inv_of_keeps (opFlags_keepsMem ..) (opBar_inv (engAdvance_ite_inv (engAdvance_ite_inv (inv_of_keeps
        (dropOp_keepsMem ..) h) ..) ..) ..)

end Sys2Proof.Proofs
end

section
/-! The canonical form of memory through the copy engine and the control processors. -/

namespace Sys2Proof.Proofs

open Sys2Proof.Machine Sys2Proof.Laws

-- The declarations are checked one after another: checked side by side, their threads exhaust the memory.
set_option Elab.async false

variable {s : State}

/-! ### Copies -/

theorem readBlock_inv (ea : Word) (n : Nat) :
    ∀ {s : State} (i : Nat), State.Inv s → DoInv (fun r => State.Inv r.1) (readBlock s ea n i) := by
  induction n with
  | zero => exact fun _ h => h
  | succ n ih => exact fun _ h => (readHome_inv h ..).bind fun _ ht => (ih _ ht).bind fun _ hu => hu

theorem effectInv_cpyOp (d a : GReg) (fw : CpyField) : EffectInv (cpyOp d a fw) := by
  refine fun _ h => DoInv.ite trivial (DoInv.ite h ((readBlock_inv _ _ _ h).bind fun _ ht => DoInv.ite trivial
    (DoInv.ite trivial (inv_wgSlow ?_ ..))))
  exact inv_ite (inv_keep ht) (inv_keep ht)

theorem effectInv_cpyCancelOp (d a : GReg) : EffectInv (cpyCancelOp d a) := by
  intro s h
  unfold cpyCancelOp
  dsimp only
  repeat' split
  all_goals exact inv_keep h

theorem readPieces_inv (x : EngSrc) (l : List (Nat × Nat)) :
    ∀ {s : State}, State.Inv s → EngInv (fun r => State.Inv r.1) (readPieces s x l) := by
  induction l with
  | nil => exact fun h => h
  | cons p l ih =>
    intro s h
    unfold readPieces
    split
    · trivial
    · next heq => exact (ih ((engRead_inv h ..).of_ok heq)).bind fun _ hu => hu

theorem readElem_inv (h : State.Inv s) (x : EngSrc) (shadow : List Host.Cell) (va n : Nat) :
    EngInv (fun r => State.Inv r.1) (readElem s x shadow va n) :=
  (readPieces_inv _ _ h).bind fun _ ht => EngInv.ite (inv_congr rfl rfl ht) ht

theorem elemValues_inv (code va v : Nat) : EngInv (fun _ => True) (elemValues code va v) := by
  cases elemValues code va v <;> trivial

theorem readValues_inv (x : EngSrc) (t : Xfer) (code : Nat) (l : List Nat) :
    ∀ {s : State}, State.Inv s → EngInv (fun r => State.Inv r.1) (readValues s x t code l) := by
  induction l with
  | nil => exact fun h => h
  | cons n l ih =>
    exact fun h => (readElem_inv h ..).bind fun _ ht => (elemValues_inv ..).bind fun _ _ => (ih ht).bind fun _ hu => hu

theorem sourceValues_inv (h : State.Inv s) (x : EngSrc) (t : Xfer) (n : Nat) :
    EngInv (fun r => State.Inv r.1) (sourceValues s x t n) := (readValues_inv _ _ _ _ h).bind fun _ ht => ht

theorem destElem_inv (h : State.Inv s) (x : EngSrc) (t : Xfer) (n va : Nat) :
    EngInv (fun r => State.Inv r.1) (destElem s x t n va) := by
  refine EngInv.ite ((readElem_inv h ..).bind fun _ ht => EngInv.ite trivial ht) ?_
  refine (sourceValues_inv h ..).bind fun _ ht => EngInv.ite ?_ ht
  exact (readElem_inv ht ..).bind fun _ hu => (elemValues_inv ..).bind fun _ _ => hu

theorem writePieces_inv (x : EngSrc) (l : List (Nat × Nat)) :
    ∀ {s : State} (bs : List Byte) (done : Nat) (old : List Host.Cell), State.Inv s →
      State.Inv (writePieces s x bs done old l).1 := by
  induction l with
  | nil => exact fun _ _ _ h => h
  | cons p l ih =>
    intro s bs done old h
    unfold writePieces
    split
    · exact h
    · next heq => exact ih _ _ _ ((engWrite_inv h ..).of_ok heq)

theorem elemStep_inv (h : State.Inv s) (ag : Agent) (t : Xfer) (d : XferDest) : OptInv (elemStep s ag t d) := by
  have hf : EngInv (fun r => State.Inv r.1) (match t.cache[d.next]? with
      | some v => (.ok (s, v, 0) : Except XferStop (State × Nat × FpFlags))
      | none => destElem s (xferSrc ag t) t d.next (destAddr s t d d.next)) := by
    split
    · exact h
    · exact destElem_inv h ..
  unfold elemStep
  dsimp only
  split
  · trivial
  · exact inv_keep h
  · next heq => exact inv_of_keeps (putXfer_keepsMem ..) (hf.of_ok heq)

theorem writeStep_inv (h : State.Inv s) (ag : Agent) (t : Xfer) (d : XferDest) (v : Nat) : OptInv (writeStep s ag t d v) := by
  have hw := writePieces_inv (xferSrc ag t) (wordPieces (copyBytes t.fw.df.toNat) (destAddr s t d d.next) (copyBytes t.fw.df.toNat))
    (bytesOf v (copyBytes t.fw.df.toNat)) 0 t.shadow h
  unfold writeStep
  dsimp only
  split
  · trivial
  · exact inv_keep hw
  · exact inv_keep hw

theorem destStep_inv (h : State.Inv s) (ag : Agent) (t : Xfer) (d : XferDest) : OptInv (destStep s ag t d) := by
  unfold destStep
  dsimp only
  split
  · split
    · trivial
    · exact inv_keep h
  · split
    · rw [optInv_some]
      split <;> exact inv_keep h
    · split
      · exact elemStep_inv h ..
      · exact writeStep_inv h ..

theorem copyStart_inv (h : State.Inv s) (ag : Agent) : State.Inv (copyStart s ag) := by
  unfold copyStart
  split
  · exact h
  · exact inv_ite h ((findSome_inv (fun _ => destStep_inv h ..) _).getD (inv_keep h))

theorem xferBar_inv (h : State.Inv s) (ag : Agent) (x : Xfer) : State.Inv (xferBar s ag x) := inv_ite (barDecrement_inv h ..) h

theorem copyDone_inv (h : State.Inv s) (ag : Agent) : State.Inv (copyDone s ag) := by
  unfold copyDone
  split
  · exact inv_keep h
  · split
    · exact h
    · exact inv_ite (inv_of_keeps (xferIrq_keepsMem ..) (xferBar_inv (inv_keep h) ..)) h

theorem copyFault_inv (h : State.Inv s) (ag : Agent) : State.Inv (copyFault s ag) := by
  unfold copyFault
  split
  · exact h
  · next x _ _ =>
    have ht := inv_of_keeps (closeCpy_keepsMem (xferBar (retire s ag x 5) ag x) x) (xferBar_inv (inv_keep h) ..)
    exact inv_ite h (inv_ite (inv_of_keeps (raiseAsync_keepsMem ..) ht) (inv_of_keeps (raiseAsync_keepsMem ..) ht))

/-! ### Control processors -/

@[simp] theorem vtakenoGet_keepsMem (s : State) (c : Fin 8) : (vtakenoGet s c).2.mem = s.mem ∧ (vtakenoGet s c).2.full = s.full := by
  unfold vtakenoGet
  simp

@[simp] theorem vcauseGet_keepsMem (s : State) (c : Fin 8) : (vcauseGet s c).2.mem = s.mem ∧ (vcauseGet s c).2.full = s.full := by
  unfold vcauseGet
  simp

@[simp] theorem statusGet_keepsMem (s : State) (c : Fin 8) : (statusGet s c).2.mem = s.mem ∧ (statusGet s c).2.full = s.full := by
  unfold statusGet
  simp

@[simp] theorem popsGet_keepsMem (s : State) (c : Fin 8) (q : Fin 4) :
    (popsGet s c q).2.mem = s.mem ∧ (popsGet s c q).2.full = s.full := by
  unfold popsGet
  simp

@[simp] theorem popvGet_keepsMem (s : State) (c : Fin 8) (q : Fin 4) :
    (popvGet s c q).2.mem = s.mem ∧ (popvGet s c q).2.full = s.full := by
  unfold popvGet
  dsimp only
  split <;> simp

theorem execMessagePortSend_inv (h : State.Inv s) (c : Fin 8) (v : Word) : OutInv (execMessagePortSend c v s) := by
  unfold execMessagePortSend
  split <;> exact inv_keep h

/-- Where there is an answer, the state in it is canonical. -/
def OptPairInv {α : Type} (o : Option (α × State)) : Prop := ∀ r, o = some r → State.Inv r.2

theorem optPairInv_some {α : Type} {v : α} {t : State} (ht : State.Inv t) : OptPairInv (some (v, t)) := by
  rintro _ ⟨⟩
  exact ht

theorem optPairInv_none {α : Type} : OptPairInv (none : Option (α × State)) := by
  rintro _ ⟨⟩

theorem portLoad_inv (h : State.Inv s) (c : Fin 8) (off : Nat) : OptPairInv (portLoad s c off) := by
  unfold portLoad
  dsimp only
  split
  · exact optPairInv_none
  · split
    · exact optPairInv_some h
    · split
      · exact optPairInv_some (inv_of_keeps (statusGet_keepsMem ..) h)
      · split
        · split
          · exact optPairInv_some (inv_of_keeps (popsGet_keepsMem ..) h)
          · exact optPairInv_some (inv_of_keeps (popvGet_keepsMem ..) h)
        · split
          · exact optPairInv_some h
          · exact optPairInv_none

theorem portStore_inv (h : State.Inv s) (c : Fin 8) (off : Nat) (v : Word) : OptInv (portStore s c off v) := by
  unfold portStore
  split
  · trivial
  · split
    · exact inv_keep h
    · split
      · exact inv_ite h (inv_keep h)
      · split
        · exact inv_keep h
        · trivial

theorem ctrlRead_inv (h : State.Inv s) (c : Fin 8) (a n : Nat) : OptPairInv (ctrlRead s c a n) := by
  unfold ctrlRead
  dsimp only
  split
  · exact optPairInv_none
  · split
    · exact optPairInv_some h
    · split
      · split
        · intro r hr
          obtain ⟨x, hx, rfl⟩ := Option.map_eq_some_iff.mp hr
          exact portLoad_inv h c _ x hx
        · exact optPairInv_none
      · split
        · exact optPairInv_some h
        · exact optPairInv_none

theorem ctrlWrite_inv (h : State.Inv s) (c : Fin 8) (a n v : Nat) : OptInv (ctrlWrite s c a n v) := by
  unfold ctrlWrite
  dsimp only
  split
  · trivial
  · split
    · exact inv_keep h
    · split
      · split
        · generalize a - portBase = off
          exact portStore_inv h c off (w64 v)
        · trivial
      · split
        · exact optInv_some.mpr (inv_homeWrite (a - ctrlWindow + imageBase) (bytesOf v n) 6 0 none true h)
        · trivial

theorem ctrlLoad_inv (h : State.Inv s) (c : Fin 8) (rd : Fin 32) (a n : Nat) : State.Inv (ctrlLoad s c rd a n) := by
  unfold ctrlLoad
  split
  · exact h
  · split
    · next heq => exact inv_of_keeps (modCtrl_keepsMem ..) (ctrlRead_inv h c a n _ heq)
    · exact inv_keep h

theorem ctrlStore_inv (h : State.Inv s) (c : Fin 8) (rs : Fin 32) (a n : Nat) : State.Inv (ctrlStore s c rs a n) :=
  inv_ite h ((ctrlWrite_inv h ..).getD (inv_keep h))

theorem ctrlAmo_inv (h : State.Inv s) (c : Fin 8) (rd rs : Fin 32) (a : Nat) (k : AmoK) (wide : Bool) :
    State.Inv (ctrlAmo s c rd rs a k wide) := by
  unfold ctrlAmo
  exact inv_ite h (inv_ite (inv_of_keeps (modCtrl_keepsMem ..) (inv_homeAmo _ _ _ _ _ _ _ _ _ h)) (inv_keep h))

theorem ctrlCsrGet_inv (h : State.Inv s) (c : Fin 8) (num : Nat) : OptPairInv (ctrlCsrGet s c num) := by
  unfold ctrlCsrGet
  dsimp only
  split
  · exact optPairInv_none
  · split
    case h_14 => exact optPairInv_none
    all_goals exact optPairInv_some (inv_keep h)

theorem ctrlCsrRead_inv (h : State.Inv s) (c : Fin 8) (rd : Fin 32) (num : Nat) : State.Inv (ctrlCsrRead s c rd num) := by
  unfold ctrlCsrRead
  split
  · next heq => exact inv_of_keeps (modCtrl_keepsMem ..) (ctrlCsrGet_inv h c num _ heq)
  · exact inv_keep h

end Sys2Proof.Proofs
end

section
/-! The canonical form of memory through the domains, the migration of pages, the retirement of tiles, the guest port and the
accesses from outside. -/

namespace Sys2Proof.Proofs

open Sys2Proof.Machine Sys2Proof.Laws

-- The declarations are checked one after another: checked side by side, their threads exhaust the memory.
set_option Elab.async false

variable {s : State}

/-! ### Domains -/

theorem execDomainSwitchApply_inv (h : State.Inv s) : OutInv (execDomainSwitchApply s) := by
  unfold execDomainSwitchApply
  dsimp only
  repeat' split
  all_goals exact inv_keep h

theorem execLosingSliceSignal_inv (h : State.Inv s) : OutInv (execLosingSliceSignal s) := by
  unfold execLosingSliceSignal
  dsimp only
  repeat' split
  all_goals exact inv_keep h

@[simp] theorem domWrite_run_keepsMem (x : DomWrite) (s : State) : (x.run s).mem = s.mem ∧ (x.run s).full = s.full := by
  cases x with
  | mask n v => exact hashmaskSet_keepsMem ..
  | sel j v => exact domselSet_keepsMem ..

theorem splitNext_inv (h : State.Inv s) : State.Inv (splitNext s) := by
  unfold splitNext
  split
  · exact h
  · exact inv_hostDone _ _ (inv_modDev h _)
  · next x _ _ =>
    have ht := inv_of_keeps (domWrite_run_keepsMem x s) h
    exact inv_ite (inv_modDev ht _) (inv_hostDone _ _ (inv_modDev ht _))

theorem execDomainSwitchEnd_inv (h : State.Inv s) : OutInv (execDomainSwitchEnd s) := by
  unfold execDomainSwitchEnd
  repeat' split
  · exact h
  · exact splitNext_inv (inv_modDev h _)
  · exact h

/-! ### Pages and tiles -/

theorem execInvpgAck_inv (h : State.Inv s) (k : CtxKey) : OutInv (execInvpgAck k s) := by
  unfold execInvpgAck
  split
  · split
    · exact h
    · exact inv_of_keeps (landReply_keepsMem ..) (inv_modDev (inv_flushEverywhere _ (inv_keep h)) _)
  · exact h

theorem clearFailed_inv (h : State.Inv s) (old new size : Nat) : State.Inv (clearFailed s old new size) :=
  inv_fold _ (fun _ _ ht => inv_record (inv_homeWrite _ _ _ _ _ _ ht) ..) _ (inv_modDev h _)

theorem moveLeaves_inv (h : State.Inv s) (ls : List Leaf) (f : Nat → Option Nat) : State.Inv (moveLeaves s ls f) := by
  refine inv_of_keeps (dropTranslations_keepsMem ..) (inv_fold _ (fun t l ht => ?_) _ h)
  split
  · exact inv_homeWrite _ _ _ _ _ _ ht
  · exact ht

theorem wf_copyPage {m : List Host.Cell} (old new size : Nat) (hm : Memory.wf m = true) :
    Memory.wf (movePage.copyPage m old new size) = true := wf_foldl_writeByte _ _ _ (wf_filter _ hm)

theorem copiedPage_inv (h : State.Inv s) (old new size : Nat) :
    State.Inv (triggersCopy { s with mem := movePage.copyPage s.mem old new size } new size) :=
  inv_of_keeps (triggersCopy_keepsMem ..) (inv_mem (wf_copyPage _ _ _ h.1) h)

theorem stragglers_inv (h : State.Inv s) (f : Nat → Option Nat) (n : Nat) (l : List (Nat × Packet)) :
    State.Inv (redirect (l.foldl (sendOn f) { s with fresh := n }) f) :=
  inv_of_keeps (redirect_keepsMem ..) (inv_fold _ (fun _ _ ht => inv_of_keeps (sendOn_keepsMem ..) ht) _ (inv_congr rfl rfl h))

theorem inv_withTables (h : State.Inv s) (dev : Device) (cores : List (Agent × Core)) (ctxs : List (CtxKey × Ctx)) :
    State.Inv { s with dev := dev, cores := cores, ctxs := ctxs } := h

theorem movePage_inv (h : State.Inv s) (g : Migration) : State.Inv (movePage s g) := by
  have hmoved (p : Nat → Bool) (ls : List Leaf) := moveLeaves_inv (clearFailed_inv (inv_of_keeps (l2Use_keepsMem _ g.new g.size true true)
    (copiedPage_inv (inv_of_keeps (sendLines_keepsMem s p) h) g.old g.new g.size)) g.old g.new g.size) ls (inPage g.old g.new g.size)
  unfold movePage
  dsimp only
  exact inv_ite (inv_of_keeps (retirePage_keepsMem ..) (inv_withTables (stragglers_inv (hmoved _ _) ..) ..))
    (inv_withTables (stragglers_inv (hmoved _ _) ..) ..)

theorem execPageMigration_inv (h : State.Inv s) (asid : BitVec 12) (va newPa : Word) : OutInv (execPageMigration asid va newPa s) := by
  unfold execPageMigration
  dsimp only
  split
  · exact h
  · split <;> exact inv_keep h

theorem execUncorrectableError_inv (h : State.Inv s) (home : Nat) (sram : Bool) (by_ : Option CtxKey) :
    OutInv (execUncorrectableError home sram by_ s) := by
  unfold execUncorrectableError
  dsimp only
  split <;> exact inv_keep h

theorem execTileRetire_inv (h : State.Inv s) (x : Fin 32) (y : Fin 16) : OutInv (execTileRetire x y s) := by
  unfold execTileRetire
  dsimp only
  split
  · exact h
  · exact mapRetiring_inv (inv_fold _ (fun _ _ ht => beginEnd_inv (inv_modDev ht _) ..) _ (inv_modDev h _))

/-! ### The guest port -/

theorem execGuestSubmit_inv (h : State.Inv s) (n : Nat) : OutInv (execGuestSubmit n s) := by
  unfold execGuestSubmit
  split
  · next heq =>
    have ht := inv_takePkt h heq
    dsimp only
    split
    · split
      · exact h
      · repeat' split
        all_goals exact inv_keep ht
    · exact h
  · exact h

theorem completionWrite_inv (h : State.Inv s) (r : GuestReq) (status : Word) : OptInv (completionWrite s r status) := by
  unfold completionWrite
  dsimp only
  split
  · trivial
  · exact inv_keep h
  · exact inv_keep h
  · exact inv_of_keeps (modGuest_keepsMem ..) (inv_fePerform _ _ _ _ _ h)

theorem completeReq_inv (h : State.Inv s) (r : GuestReq) (status : Word) : OptInv (completeReq s r status) := by
  have ht : State.Inv (dropReq s r) := inv_keep h
  have hw (c : Bool) : OptInv (if c then completionWrite (dropReq s r) r status else some (dropReq s r)) := by
    split
    · exact completionWrite_inv ht ..
    · exact ht
  exact (hw _).map fun _ hu => inv_ite (inv_keep hu) hu

theorem execGuestCompletion_inv (h : State.Inv s) (q : Fin 64) (n : BitVec 16) (status : Word) :
    OutInv (execGuestCompletion q n status s) := by
  unfold execGuestCompletion
  split
  · exact (completeReq_inv h ..).getD h
  · exact inv_keep h

theorem execGuestFault_inv (h : State.Inv s) (q : Fin 64) (n : BitVec 16) (status : Word) : OutInv (execGuestFault q n status s) := by
  unfold execGuestFault
  split <;> exact inv_keep h

theorem execGuestRequestTimeout_inv (h : State.Inv s) (q : Fin 64) (n : BitVec 16) : OutInv (execGuestRequestTimeout q n s) := by
  unfold execGuestRequestTimeout
  split <;> exact inv_keep h

theorem execGuestPreemptRequest_inv (h : State.Inv s) (q : Fin 64) : OutInv (execGuestPreemptRequest q s) := by
  unfold execGuestPreemptRequest
  split <;> exact inv_keep h

theorem execGuestPreemptTimeout_inv (h : State.Inv s) (q : Fin 64) : OutInv (execGuestPreemptTimeout q s) := by
  unfold execGuestPreemptTimeout
  dsimp only
  split <;> exact inv_keep h

/-! ### Accesses from outside -/

/-- What an access from outside leaves is canonical. -/
def OutsideInv : Outside → Prop
  | .done t => State.Inv t
  | _ => True

theorem OutsideInv.ite {c : Prop} [Decidable c] {x y : Outside} (hx : OutsideInv x) (hy : OutsideInv y) :
    OutsideInv (if c then x else y) := by
  split
  · exact hx
  · exact hy

theorem outsidePhys_inv (h : State.Inv s) (a : OutsideAccess) (pa kind : Nat) : OutsideInv (outsidePhys s a pa kind) := by
  unfold outsidePhys
  dsimp only
  split
  · trivial
  · split
    · exact OutsideInv.ite trivial (inv_of_keeps (returned_keepsMem ..) h)
    · refine OutsideInv.ite trivial (OutsideInv.ite ?_ ?_)
      · split
        · next heq => exact inv_of_keeps (returned_keepsMem ..) ((appendResult_inv h ..).of_some heq)
        · trivial
      · exact inv_of_keeps (returned_keepsMem ..) (inv_homeWrite _ _ _ _ _ _ h)

theorem outsidePool_inv (h : State.Inv s) (a : OutsideAccess) (core off kind : Nat) (launch : Option Nat) :
    OutsideInv (outsidePool s a core off kind launch) := by
  unfold outsidePool
  dsimp only
  split
  · trivial
  · trivial
  · trivial
  · split
    · exact OutsideInv.ite trivial (inv_of_keeps (returned_keepsMem ..) h)
    · exact inv_of_keeps (returned_keepsMem ..) (inv_fillWords _ _ (inv_homeWrite _ _ _ _ _ _ h))

theorem outsideAccess_inv (h : State.Inv s) (a : OutsideAccess) {look : Do (State × Tlb)} (hl : DoInv (fun r => State.Inv r.1) look)
    (user : Bool) (kind : Nat) (launch : Option Nat) : OutsideInv (outsideAccess s a look user kind launch) := by
  unfold outsideAccess
  refine OutsideInv.ite trivial (OutsideInv.ite (OutsideInv.ite trivial (outsidePool_inv h ..)) ?_)
  split
  · trivial
  · trivial
  · next t _ => exact OutsideInv.ite (outsidePhys_inv (hl : State.Inv _) ..) trivial

theorem guestTranslation_inv (h : State.Inv s) (asid : BitVec 12) (va kind : Nat) :
    DoInv (fun r => State.Inv r.1) (guestTranslation s asid va kind) := by
  have hw := walk_inv h asid va kind
  unfold guestTranslation
  dsimp only
  split
  · exact inv_of_keeps (modGuest_keepsMem ..) h
  · cases he : walk s asid va kind with
    | ok t => exact inv_of_keeps (modGuest_keepsMem ..) h
    | error e => exact hw.of_error he

theorem execGuestAccess_inv (h : State.Inv s) (asid : BitVec 12) (a : OutsideAccess) : OutInv (execGuestAccess asid a s) := by
  have ho (la : Nat) := outsideAccess_inv h a (guestTranslation_inv h asid a.va (b2n a.store.isSome)) true 9 (some la)
  unfold execGuestAccess
  dsimp only
  split
  · exact h
  · split
    · exact inv_keep h
    · next la _ =>
      have hla := ho la
      split
      · exact h
      · exact inv_keep h
      · next heq =>
        rw [heq] at hla
        exact hla

end Sys2Proof.Proofs
end

section
/-! The canonical form of memory through the launch of an image, the paired packages, the power and the reels. -/

namespace Sys2Proof.Proofs

open Sys2Proof.Machine Sys2Proof.Laws

-- The declarations are checked one after another: checked side by side, their threads exhaust the memory.
set_option Elab.async false

variable {s : State}

/-! ### Launching -/

theorem allocPage_inv (h : State.Inv s) : State.Inv (allocPage s).2 := inv_modDev (inv_mem (wf_zeroBytes _ _ h.1) h) _

theorem copiedIn_inv (h : State.Inv s) (a b n : Nat) :
    State.Inv (triggersCopy { s with mem := moveBytes s.mem a b n } b n) :=
  inv_of_keeps (triggersCopy_keepsMem ..) (inv_mem (wf_moveBytes _ _ _ h.1) h)

theorem mapPages_inv (i : Img) (asid : BitVec 12) (g : Seg) (n : Nat) :
    ∀ {s : State} (p : Nat), State.Inv s → State.Inv (mapPages i asid g n p s) := by
  induction n with
  | zero => exact fun _ h => h
  | succ n ih => exact fun _ h => ih _ (inv_mapPage _ _ _ (copiedIn_inv (allocPage_inv h) ..))

theorem mapSegs_inv (h : State.Inv s) (i : Img) (asid : BitVec 12) : State.Inv (mapSegs s i asid) :=
  inv_of_keeps (dropTranslations_keepsMem ..) (inv_fold _ (fun _ _ ht => mapPages_inv _ _ _ _ _ ht) _ h)

theorem inv_filtered (h : State.Inv s) (p : Host.Cell → Bool) (q : Nat → Bool) :
    State.Inv { s with mem := s.mem.filter p, full := s.full.filter q } := by
  obtain ⟨hm, hr, ha⟩ := h
  refine ⟨wf_filter _ hm, rising_filter _ hr, ?_⟩
  rw [List.all_eq_true] at ha ⊢
  exact fun x hx => ha x (List.mem_of_mem_filter hx)

theorem setSplit_inv (h : State.Inv s) (split : Nat × Nat × Nat × Nat) (core : Nat) : State.Inv (setSplit s split core) := by
  unfold setSplit
  dsimp only
  exact inv_ite h (inv_modCore (inv_filtered (inv_fold _ (fun _ _ ht => inv_of_keeps (flushLine_keepsMem ..) ht) _ h) ..) ..)

theorem placeRegions_inv (h : State.Inv s) (i : Img) (la core : Nat) (bases : List Nat) :
    State.Inv (placeRegions s i la core bases) := by
  unfold placeRegions
  dsimp only
  split
  · exact h
  · have ht (first : Nat) := inv_fold (fun s x => placeRegion s core (first + x.2) x.1.1 x.1.2)
      (fun _ _ hu => inv_placeRegion _ _ _ _ hu) ((i.regs.zip bases).zipIdx) h
    exact inv_ite (ht _) (inv_modCore (ht _) ..)

theorem writeHandler_inv (h : State.Inv s) (l : Launch) (n addr : Nat) : State.Inv (writeHandler s l n addr) := by
  unfold writeHandler
  dsimp only
  split
  · exact h
  · exact inv_homeWrite _ _ _ _ _ _ h

theorem writeHandlers_inv (h : State.Inv s) (l : Launch) : State.Inv (writeHandlers s l) :=
  inv_fold _ (fun _ _ ht => writeHandler_inv ht ..) _ h

theorem placeLaunch_inv (h : State.Inv s) (i : Img) (tag : BitVec 32) (m : ModuleOf) : State.Inv (placeLaunch s i tag m) := by
  unfold placeLaunch
  dsimp only
  refine inv_modDev ?_ _
  have hrings {t : State} (ht : State.Inv t) (la : Nat) (l : List (Nat × List Nat)) :
      State.Inv (l.foldl (fun s x => placeRings s i la x.1 x.2) t) :=
    inv_fold _ (fun _ _ hu => inv_of_keeps (placeRings_keepsMem ..) hu) _ ht
  have hbind {t : State} (ht : State.Inv t) (f : Nat → Core → Core) (l : List Nat) :
      State.Inv (l.foldl (fun s c => modCore s (.tile c) (f c)) t) := inv_fold _ (fun _ _ hu => inv_modCore hu ..) _ ht
  have hregions {t : State} (ht : State.Inv t) (la : Nat) (l : List (Nat × List Nat)) :
      State.Inv (l.foldl (fun s x => placeRegions s i la x.1 x.2) t) := inv_fold _ (fun _ _ hu => placeRegions_inv hu ..) _ ht
  have hsplit {t : State} (ht : State.Inv t) (k : Nat × Nat × Nat × Nat) (l : List Nat) :
      State.Inv (l.foldl (fun s c => clearTags (setSplit s k c) c) t) :=
    inv_fold _ (fun _ _ hu => inv_of_keeps (clearTags_keepsMem ..) (setSplit_inv hu ..)) _ ht
  have hall (l l' : List (Nat × List Nat)) (f : Nat → Core → Core) := hrings (hbind (hregions (hsplit
    (mapSegs_inv h i (launchOfImg s i (freeLaunch s) tag m.key).asid) (poolCounts (i.at_ 0x14 4)) i.cores) (freeLaunch s) l)
    f i.cores) (freeLaunch s) l'
  exact inv_ite (hall ..) (writeHandlers_inv (hall ..) _)

theorem launchImage_inv (h : State.Inv s) (tag : BitVec 32) (addr : Word) (m : ModuleOf) : State.Inv (launchImage s tag addr m) := by
  unfold launchImage
  dsimp only
  split
  · exact inv_hostDone _ _ (inv_record h ..)
  · exact inv_ite (inv_hostDone _ _ (inv_record h ..))
      (inv_hostDone _ _ (inv_of_keeps (measure_keepsMem ..) (placeLaunch_inv h ..)))

/-! ### Paired packages -/

@[simp] theorem pairForm_keepsMem (s : State) (v : PartnerView) : (pairForm s v).mem = s.mem ∧ (pairForm s v).full = s.full := by
  unfold pairForm
  dsimp only
  repeat' split
  all_goals simp

theorem execMirrorMarkerSend_inv (h : State.Inv s) : OutInv (execMirrorMarkerSend s) := by
  unfold execMirrorMarkerSend
  dsimp only
  split
  · exact h
  · split
    · exact h
    · next heq => exact inv_keep ((timeTo_inv h _).of_some heq)

theorem execMirrorMarkerArrival_inv (h : State.Inv s) (take : Nat) : OutInv (execMirrorMarkerArrival take s) := by
  unfold execMirrorMarkerArrival
  dsimp only
  split <;> exact inv_keep h

theorem execUnreconciledTake_inv (h : State.Inv s) : OutInv (execUnreconciledTake s) := by
  unfold execUnreconciledTake
  dsimp only
  split <;> exact inv_keep h

theorem execTakeDigestSend_inv (h : State.Inv s) : OutInv (execTakeDigestSend s) := by
  have hp (f : PairBlock → PairBlock) : State.Inv (modPair s f) := inv_of_keeps (modPair_keepsMem ..) h
  obtain ⟨send, hf⟩ : ∃ f, f = execTakeDigestSend := exists_eq
  obtain ⟨digest, hd⟩ : ∃ f, f = takeDigest := exists_eq
  rw [← hf]
  delta execTakeDigestSend at hf
  rw [← hd] at hf
  subst hf
  refine OutInv.ite ?_ h
  split
  · exact outInv_event.mpr (inv_of_keeps (compareDigests_keepsMem ..) (hp _))
  · exact outInv_event.mpr (inv_of_keeps (modPair_keepsMem ..) (hp _))

theorem execTakeDigestArrival_inv (h : State.Inv s) (take : Nat) (digest : Word) : OutInv (execTakeDigestArrival take digest s) := by
  unfold execTakeDigestArrival
  dsimp only
  repeat' split
  all_goals exact inv_keep h

theorem execDigestTimeout_inv (h : State.Inv s) : OutInv (execDigestTimeout s) := by
  unfold execDigestTimeout
  split <;> exact inv_keep h

theorem execHeartbeatSend_inv (h : State.Inv s) : OutInv (execHeartbeatSend s) := by
  unfold execHeartbeatSend
  split
  · exact h
  · split
    · exact h
    · next heq => exact inv_keep ((timeTo_inv h _).of_some heq)

theorem execHeartbeatArrival_inv (h : State.Inv s) (take : Nat) (driving : Bool) (term : BitVec 16) :
    OutInv (execHeartbeatArrival take driving term s) := by
  unfold execHeartbeatArrival
  dsimp only
  split
  · exact h
  · exact outInv_event.mpr (inv_of_keeps (modPair_keepsMem ..) h)

theorem execHeartbeatMiss_inv (h : State.Inv s) : OutInv (execHeartbeatMiss s) := by
  unfold execHeartbeatMiss
  split
  · exact h
  · split
    · exact h
    · next heq => exact inv_keep ((timeTo_inv h _).of_some heq)

/-! ### Power -/

theorem execGovernorSample_inv (h : State.Inv s) (w0 w1 : Nat) : OutInv (execGovernorSample w0 w1 s) := by
  unfold execGovernorSample
  dsimp only
  repeat' split
  all_goals exact inv_keep h

theorem alert_inv (h : State.Inv s) {c c' : Prop} [Decidable c] [Decidable c'] (f g : Power → Power) (k code : Nat) (tval : Word) :
    State.Inv (if c then raiseDev (modPower s f) k code tval else if c' then modPower s g else s) :=
  inv_ite (inv_keep h) (inv_ite (inv_keep h) h)

theorem execThermalSample_inv (h : State.Inv s) (sensor : Fin 128) (reading : BitVec 16) :
    OutInv (execThermalSample sensor reading s) := by
  have hs (f : Power → Power) : State.Inv (modPower s f) := inv_keep h
  refine outInv_event.mpr (inv_ite ?_ (alert_inv (hs _) ..))
  exact inv_of_keeps (raiseDev_keepsMem ..) (inv_of_keeps (tripDie_keepsMem ..) (alert_inv (hs _) ..))

theorem fw5Ticks_inv (h : State.Inv s) : State.Inv (fw5Ticks s) := by
  unfold fw5Ticks
  split
  · exact h
  · split
    · exact h
    · next heq => exact inv_keep ((timeTo_inv h _).of_some heq)

theorem execPowerFailWarning_inv (h : State.Inv s) : OutInv (execPowerFailWarning s) := by
  unfold execPowerFailWarning
  dsimp only
  split
  · exact h
  · split <;> exact inv_keep h

theorem inv_withCores (h : State.Inv s) (cores : List (Agent × Core)) : State.Inv { s with cores := cores } := h

theorem execDrainExpiry_inv (h : State.Inv s) : OutInv (execDrainExpiry s) := by
  unfold execDrainExpiry
  dsimp only
  split
  · exact h
  · refine outInv_event.mpr (inv_of_keeps (modPower_keepsMem ..) (inv_withCores ?_ _))
    exact inv_fold _ (fun _ _ ht => inv_of_keeps (killAct_keepsMem ..) ht) _ h

/-! ### Reels -/

theorem execReelWrite_inv (h : State.Inv s) : OutInv (execReelWrite s) := by
  unfold execReelWrite
  dsimp only
  repeat' split
  all_goals exact inv_keep h

theorem restoreRegion_inv (h : State.Inv s) (x : Nat × Nat × Region × List Host.Cell) : State.Inv (restoreRegion s x) :=
  inv_mem (wf_foldl_writeByte _ _ _ (inv_modRegion _ _ _ h).1) (inv_modRegion _ _ _ h)

theorem restoreReel_inv (h : State.Inv s) (r : ReelImage) : State.Inv (restoreReel s r) := by
  refine inv_fold _ (fun _ _ ht => restoreRegion_inv ht _) _ (inv_fold _ (fun _ _ ht => inv_of_keeps (restoreTask_keepsMem ..) ht) _ ?_)
  exact inv_modDev (inv_mem (wf_moveBytes _ _ _ (wf_foldl_writeByte _ _ _ h.1)) h) _

theorem execReelRestart_inv (h : State.Inv s) : OutInv (execReelRestart s) := by
  have hc := coldReset_inv h
  have ht (c : Bool) (f : Device → Device) : State.Inv (if c then modDev (Machine.coldReset s) f else Machine.coldReset s) :=
    inv_ite (inv_modDev hc _) hc
  unfold execReelRestart
  dsimp only
  split
  · exact h
  · split
    · exact restoreReel_inv (ht ..) _
    · exact ht ..

end Sys2Proof.Proofs
end

section
/-! The canonical form of memory through the host's commands and the link ports. -/

namespace Sys2Proof.Proofs

open Sys2Proof.Machine Sys2Proof.Laws

-- The declarations are checked one after another: checked side by side, their threads exhaust the memory.
set_option Elab.async false

variable {s : State}

/-! ### Commands -/

/-- A function of the state that keeps the canonical form. -/
def KeepsInv (f : State → State) : Prop := ∀ s, State.Inv s → State.Inv (f s)

theorem command_inv {f : State → State} (hf : KeepsInv f) (h : State.Inv s) (tag : BitVec 32) : State.Inv (command s tag f) :=
  inv_ite (hf s h) (inv_ite (inv_hostDone _ _ h) h)

theorem commandBy_inv {f : State → State} (hf : KeepsInv f) (h : State.Inv s) (k : Nat) (tag : BitVec 32) :
    State.Inv (commandBy s k tag f) := inv_ite (command_inv hf h tag) h

/-- A command that is refused with a status, or done after a change of the device. -/
theorem done_or_inv (h : State.Inv s) {c : Prop} [Decidable c] {t : State} (ht : State.Inv t) (tag : BitVec 32) (m n : Nat) :
    State.Inv (if c then hostDone t tag m else hostDone s tag n) := inv_ite (inv_hostDone _ _ ht) (inv_hostDone _ _ h)

theorem execHostDoorbell_inv (h : State.Inv s) (q : Fin 16) : OutInv (execHostDoorbell q s) := by
  unfold execHostDoorbell
  dsimp only
  split <;> exact inv_keep h

theorem execLaunch_inv (h : State.Inv s) (tag : BitVec 32) (addr : Word) : OutInv (execLaunch tag addr s) :=
  commandBy_inv (fun _ ht => launchImage_inv ht ..) h ..

theorem execActiveMessage_inv (h : State.Inv s) (tag : BitVec 32) (la ty : BitVec 16) (role : Fin 4) (data : Word)
    (payload : List Word) : OutInv (execActiveMessage tag la ty role data payload s) := by
  refine command_inv (fun t ht => inv_ite (inv_hostDone _ _ ht) ?_) h _
  split
  · next heq => exact inv_hostDone _ _ ((postActive_inv ht ..).of_some heq)
  · exact inv_hostDone _ _ ht

theorem execLoadCallSheet_inv (h : State.Inv s) (tag : BitVec 32) (addr : Word) (count : Nat) (sheet : BitVec 16) :
    OutInv (execLoadCallSheet tag addr count sheet s) :=
  commandBy_inv (fun _ ht => inv_ite (inv_hostDone _ _ ht) (done_or_inv ht (inv_modDev ht _) ..)) h ..

theorem execReleaseQueue_inv (h : State.Inv s) (tag : BitVec 32) (core : Nat) (q : Fin 64) :
    OutInv (execReleaseQueue tag core q s) :=
  command_inv (fun _ ht => inv_ite (inv_hostDone _ _ ht) (inv_hostDone _ _ (inv_of_keeps (modQueue_keepsMem ..) ht))) h _

theorem execEndLaunch_inv (h : State.Inv s) (tag : BitVec 32) (la : BitVec 16) : OutInv (execEndLaunch tag la s) := by
  refine command_inv (fun t ht => ?_) h _
  split
  · exact inv_ite (inv_hostDone _ _ ht) (beginEnd_inv ht ..)
  · exact inv_hostDone _ _ ht

theorem inv_withFresh (h : State.Inv s) (n : Nat) : State.Inv { s with fresh := n } := h

theorem execLoadImageMaps_inv (h : State.Inv s) (tag : BitVec 32) (inAddr outAddr : Word) :
    OutInv (execLoadImageMaps tag inAddr outAddr s) :=
  commandBy_inv (fun _ ht => done_or_inv (inv_withFresh ht _) (inv_modDev (inv_withFresh ht _) _) ..) h ..

theorem execOpenAperture_inv (h : State.Inv s) (tag : BitVec 32) (asid : BitVec 12) (gib : Nat) :
    OutInv (execOpenAperture tag asid gib s) := command_inv (fun _ ht => done_or_inv ht (inv_modDev ht _) ..) h _

theorem apertureWalk_inv (h : State.Inv s) (asid : BitVec 12) (va kind : Nat) :
    DoInv (fun r => State.Inv r.1) ((walk s asid va kind).map fun t => (s, t)) := by
  have hw := walk_inv h asid va kind
  cases he : walk s asid va kind with
  | ok t => exact h
  | error e => exact hw.of_error he

theorem execHostApertureAccess_inv (h : State.Inv s) (a : OutsideAccess) : OutInv (execHostApertureAccess a s) := by
  have ho (asid : BitVec 12) := outsideAccess_inv h a (apertureWalk_inv h asid a.va (b2n a.store.isSome)) false 8 none
  unfold execHostApertureAccess
  split
  · exact h
  · split
    · exact inv_keep h
    · next asid _ _ =>
      have hasid := ho asid
      split
      · exact inv_keep h
      · split
        · exact h
        · exact inv_keep h
        · next heq =>
          rw [heq] at hasid
          exact hasid

/-! ### Security -/

theorem execClaimOwnership_inv (h : State.Inv s) (tag : BitVec 32) (key : List Byte) : OutInv (execClaimOwnership tag key s) := by
  unfold execClaimOwnership
  dsimp only
  refine OutInv.ite h (OutInv.ite (inv_hostDone _ _ h) ?_)
  exact inv_hostDone _ _ (inv_of_keeps (modSec_keepsMem ..) h)

theorem execTransferOwnership_inv (h : State.Inv s) (tag : BitVec 32) (sig : List Byte) : OutInv (execTransferOwnership tag sig s) := by
  refine commandBy_inv (fun t ht => inv_ite ?_ (inv_hostDone _ _ ht)) h ..
  exact coldReset_inv (inv_modDev (inv_of_keeps (modSec_keepsMem ..) (inv_hostDone _ _ ht)) _)

theorem execAdvanceVersion_inv (h : State.Inv s) (tag : BitVec 32) (svn : BitVec 8) (sig : List Byte) :
    OutInv (execAdvanceVersion tag svn sig s) :=
  OutInv.ite h (commandBy_inv (fun _ ht => inv_ite (inv_of_keeps (modSec_keepsMem ..) ht) (inv_hostDone _ _ ht)) h ..)

theorem burnFuse_inv (h : State.Inv s) : State.Inv (burnFuse s) := by
  unfold burnFuse
  split
  · exact h
  · exact inv_ite (inv_of_keeps (modSec_keepsMem ..) h) (inv_hostDone _ _ (inv_of_keeps (modSec_keepsMem ..) h))

theorem execAttestationQuote_inv (h : State.Inv s) (tag : BitVec 32) (nonce : List Byte) (addr : Word) :
    OutInv (execAttestationQuote tag nonce addr s) :=
  commandBy_inv (fun _ ht => inv_hostDone _ _ (inv_storeMem _ _ ht)) h ..

theorem execStoreImage_inv (h : State.Inv s) (tag : BitVec 32) (addr : Word) (size : Nat) :
    OutInv (execStoreImage tag addr size s) :=
  commandBy_inv (fun _ ht => done_or_inv ht (inv_of_keeps (modSec_keepsMem ..) ht) ..) h ..

theorem execSplitDomain_inv (h : State.Inv s) (tag : BitVec 32) (n m : Fin 16) (g : Nat) (slices : Word) :
    OutInv (execSplitDomain tag n m g slices s) :=
  OutInv.ite h (commandBy_inv (fun _ ht => inv_ite (splitNext_inv (inv_modDev ht _)) (inv_hostDone _ _ ht)) h ..)

/-! ### Handlers -/

theorem writeThrough_inv (asid : BitVec 12) (l : List Byte) :
    ∀ {s : State} (va : Nat), State.Inv s → OptInv (writeThrough asid va l s) := by
  induction l with
  | nil => exact fun _ h => h
  | cons b l ih =>
    intro s va h
    unfold writeThrough
    split
    · exact ih _ (inv_homeWrite _ _ _ _ _ _ h)
    · trivial

theorem OptInv.bind {o : Option State} (ho : OptInv o) {f : State → Option State} (hf : ∀ t, State.Inv t → OptInv (f t)) :
    OptInv (o.bind f) := by
  cases o with
  | some t => exact hf t ho
  | none => trivial

theorem makeRoom_inv (h : State.Inv s) (n : Nat) : OptInv (makeRoom s n) := by
  unfold makeRoom
  split
  · trivial
  · cases evictFor n (s.dev.heap.filter fun x => !named s x.addr) s.dev.heap with
    | none => trivial
    | some l => exact inv_modDev h _

theorem keepBody_inv (h : State.Inv s) (key : List Byte) (n addr : Nat) : OptInv (keepBody s key n addr) := by
  unfold keepBody
  split
  · exact h
  · exact (makeRoom_inv h _).map fun _ ht => inv_modDev ht _

theorem publish_inv (h : State.Inv s) (l : Launch) (n addr : Nat) : OptInv (publish s l n addr) := by
  refine ((keepBody_inv h ..).bind fun t ht => ?_).map fun _ hu => inv_of_keeps (dropRequests_keepsMem ..) (writeHandler_inv hu ..)
  split
  · exact ht
  · exact writeThrough_inv _ _ _ ht

theorem execHandlerPublish_inv (h : State.Inv s) (la : BitVec 16) (n : BitVec 9) (addr : Option Word) :
    OutInv (execHandlerPublish la n addr s) := by
  unfold execHandlerPublish
  split
  · exact h
  · next l _ =>
    have hp : OptInv (addr.bind fun a => publish s l n.toNat (a.toNat % 2 ^ 48)) := by
      cases addr with
      | some a => exact publish_inv h ..
      | none => trivial
    split
    · exact h
    · split
      · next heq => exact outInv_event.mpr (hp.of_some heq)
      · exact outInv_event.mpr (inv_of_keeps (dropRequests_keepsMem ..)
          (inv_fold _ (fun _ _ ht => inv_of_keeps (raiseAsync_keepsMem ..) ht) _ h))

theorem keepEager_inv (h : State.Inv s) (key : List Byte) (l : List ModEntry) : OptInv (keepEager s key l) := by
  have hl (xs : List (ModEntry × Nat)) : ∀ o : Option State, OptInv o → OptInv (xs.foldl (fun s x => s.bind fun s =>
      match x.1.eager with
      | some a => keepBody s key x.2 a
      | none => some s) o) := by
    induction xs with
    | nil => exact fun _ ho => ho
    | cons x xs ih =>
      refine fun _ ho => ih _ (ho.bind fun t ht => ?_)
      split
      · exact keepBody_inv ht ..
      · exact ht
  exact hl _ _ h

theorem noRoom_inv (h : State.Inv s) (tag : BitVec 32) :
    State.Inv (let (v, s) := freshWord s; hostDone (raiseDev s 1 0x3C v) tag 4) :=
  inv_hostDone _ _ (inv_keep h)

theorem translated_inv (h : State.Inv s) (tag : BitVec 32) (module_ : List Byte) (table : List ModEntry) (image : Option Word) :
    State.Inv (translated s tag module_ table image) := by
  refine commandBy_inv (fun t ht => inv_ite (inv_hostDone _ _ ht) ?_) h ..
  split
  · exact noRoom_inv ht _
  · refine inv_ite ht ?_
    split
    · next heq => exact launchImage_inv ((keepEager_inv ht ..).of_some heq) ..
    · exact noRoom_inv ht _

/-! ### The command queues -/

theorem after_inv (h : State.Inv s) {o : Out} (ho : OutInv o) : State.Inv (after s o) := by
  cases o with
  | next t => exact ho
  | _ => exact h

/-- A command that keeps the canonical form. -/
def KeepsOut (f : State → Out) : Prop := ∀ s, State.Inv s → OutInv (f s)

theorem fits_inv {f : State → Out} (hf : KeepsOut f) (c : Bool) :
    EngInv KeepsOut (if c then .ok f else .error 2 : Except Nat (State → Out)) := EngInv.ite hf trivial

theorem commandOf_inv (b : List Byte) : EngInv KeepsOut (commandOf b) := by
  unfold commandOf
  dsimp only
  split
  · exact fun _ h => execLaunch_inv h ..
  · exact fits_inv (fun _ h => execActiveMessage_inv h ..) _
  · exact fits_inv (fun _ h => execLoadCallSheet_inv h ..) _
  · exact fits_inv (fun _ h => execReleaseQueue_inv h ..) _
  · exact fits_inv (fun _ h => execEndLaunch_inv h ..) _
  · exact fun _ h => execLoadImageMaps_inv h ..
  · exact fits_inv (fun _ h => execOpenAperture_inv h ..) _
  · exact fun _ h => execClaimOwnership_inv h ..
  · exact fun _ h => execTransferOwnership_inv h ..
  · exact fun _ h => execAdvanceVersion_inv h ..
  · exact fun _ h => execAttestationQuote_inv h ..
  · exact fun _ h => execStoreImage_inv h ..
  · exact fits_inv (fun _ h => execSplitDomain_inv h ..) _
  · trivial

theorem readCommand_inv (h : State.Inv s) (n : Fin 16) : State.Inv (readCommand s n) := by
  unfold readCommand
  dsimp only
  split
  · exact inv_hostDone _ _ (inv_modDev h _)
  · next heq => exact after_inv (inv_modDev h _) ((commandOf_inv _).of_ok heq _ (inv_modDev h _))

theorem hostCommands_inv (h : State.Inv s) (n : Fin 16) (k : Nat) : State.Inv (hostCommands s n k) :=
  after_inv h (execHostDoorbell_inv (inv_modDev h _) _)

/-! ### Link ports -/

theorem effectInv_linkCfgOp (d a : GReg) : EffectInv (linkCfgOp d a) := by
  intro s h
  unfold linkCfgOp
  dsimp only
  exact DoInv.ite (inv_wgSlow h ..) (DoInv.ite (inv_wgSlow h ..) (inv_wgSlow (inv_modCur h _) ..))

end Sys2Proof.Proofs
end

section
/-! The canonical form of memory through the matrix engine, the deprecated forms, the reshape and the trees. -/

namespace Sys2Proof.Proofs

open Sys2Proof.Machine Sys2Proof.Laws

-- The declarations are checked one after another: checked side by side, their threads exhaust the memory.
set_option Elab.async false

variable {s : State}

/-! ### Matrix operations as they issue -/

theorem matRoom_inv (h : State.Inv s) : CheckInv (matRoom s) := DoInv.ite h trivial

theorem matRings_inv (s : State) (kind ha hb g : Nat) (f : MmaField) : CheckInv (matRings s kind ha hb g f) := by
  unfold matRings
  dsimp only
  iterate 8 refine DoInv.ite trivial ?_
  trivial

theorem effectInv_mmaOp (d : AccReg) (a b : Handle) (f : MmaField) : EffectInv (mmaOp d a b f) :=
  fun _ h => (matRings_inv ..).bind fun _ _ => (matRoom_inv h).bind fun _ _ => inv_keep h

theorem effectInv_mmaGOp (d : GReg) (a b : Handle) (f : MmaField) : EffectInv (mmaGOp d a b f) :=
  fun _ h => DoInv.ite trivial ((matRings_inv ..).bind fun _ _ => (ownRange_inv ..).bind fun _ _ =>
    (matRoom_inv h).bind fun _ _ => inv_keep h)

theorem effectInv_mmrotOp (d : AccReg) (a b : Handle) (f : MmaField) : EffectInv (mmrotOp d a b f) :=
  fun _ h => (matRings_inv ..).bind fun _ _ => DoInv.ite trivial (DoInv.ite trivial
    ((matRoom_inv h).bind fun _ _ => inv_keep h))

theorem effectInv_accClrOp (d : AccReg) : EffectInv (accClrOp d) := fun _ h => (matRoom_inv h).bind fun _ _ => inv_keep h

theorem effectInv_accAnchOp (d : AccReg) (a : GReg) : EffectInv (accAnchOp d a) :=
  fun _ h => (matRoom_inv h).bind fun _ _ => inv_keep h

theorem accTarget_inv (s : State) (kind : Nat) (a : GReg) (op : RingOp) (f : AccField) :
    DoInv (fun _ => True) (accTarget s kind a op f) :=
  DoInv.ite ((engRing_inv ..).bind fun _ _ => trivial) (DoInv.ite trivial (ownRange_inv ..))

theorem effectInv_accRdOp (d : AccReg) (a b : GReg) (f : AccField) : EffectInv (accRdOp d a b f) :=
  fun _ h => (accTarget_inv ..).bind fun _ _ => (matRoom_inv h).bind fun _ _ => inv_keep h

theorem effectInv_accWrOp (d : AccReg) (a : GReg) (f : AccField) : EffectInv (accWrOp d a f) :=
  fun _ h => (accTarget_inv ..).bind fun _ _ => (matRoom_inv h).bind fun _ _ => inv_keep h

theorem effectInv_accStatOp (d : GReg) (a : AccReg) : EffectInv (accStatOp d a) :=
  fun _ h => (matRoom_inv h).bind fun _ _ => inv_keep h

/-! ### Matrix operations as they run -/

theorem matSlots_inv (h : State.Inv s) (core : Nat) (o : EngOp) : OptInv (matSlots s core o) := by
  have hf (o' : EngOp) (code reason ring : Nat) : State.Inv (faultOp121 s o' code reason ring) := inv_keep h
  have hj (o' : EngOp) : State.Inv (matAsk s core o') := inv_keep h
  unfold matSlots
  dsimp only
  repeat' split
  all_goals simp [hf, hj]

theorem mmaRun_inv (h : State.Inv s) (core : Nat) (o : EngOp) : State.Inv (mmaRun s core o) := by
  have hf (code reason ring : Nat) : State.Inv (mmaFault s core o code reason ring) := inv_keep h
  unfold mmaRun
  dsimp only
  iterate 7 refine inv_ite (hf ..) ?_
  split
  · exact hf ..
  · exact hf ..
  · refine inv_of_keeps (leaveSlots_keepsMem ..) (inv_of_keeps (leaveSlots_keepsMem ..) (inv_ite (inv_keep h) ?_))
    exact inv_modCore (inv_keep h) ..

theorem accRdRun_inv (h : State.Inv s) (core : Nat) (o : EngOp) : State.Inv (accRdRun s core o) := by
  unfold accRdRun
  dsimp only
  split
  · exact h
  · exact inv_keep h
  · refine inv_ite (inv_keep h) (inv_ite (inv_keep h) ?_)
    exact inv_of_keeps (putOp_keepsMem ..) (inv_of_keeps (putTile_keepsMem ..) (inv_engPut _ _ _ _ h))

theorem matRun_inv (h : State.Inv s) (core : Nat) (o : EngOp) : State.Inv (matRun s core o) := by
  unfold matRun
  dsimp only
  split
  · exact inv_keep h
  · exact inv_keep h
  · exact accRdRun_inv h ..
  · exact inv_keep h
  · exact inv_ite (inv_keep h) (inv_keep h)
  · exact mmaRun_inv h ..

theorem matStep_inv (h : State.Inv s) (core i : Nat) : State.Inv (matStep s core i) := by
  unfold matStep
  dsimp only
  split
  · exact h
  · refine inv_ite h (inv_ite (inv_keep h) (inv_ite h ?_))
    split
    · exact inv_ite (inv_keep h) (inv_keep h)
    · exact (matSlots_inv h ..).getD h
    · exact inv_ite (matRun_inv h ..) h
    · exact h

theorem execMatrixOpStart_inv (h : State.Inv s) (ag : Agent) (i : Nat) : OutInv (execMatrixOpStart ag i s) := by
  cases ag with
  | fw k => exact h
  | tile n => exact matStep_inv h ..

theorem matDone_inv (h : State.Inv s) (core : Nat) (o : EngOp) : State.Inv (matDone s core o) := by
  have hd : State.Inv (dropOp s o) := inv_keep h
  have ha (owner n : Nat) (op : RingOp) : State.Inv (engAdvance (dropOp s o) owner n op 1) := inv_of_keeps (engAdvance_keepsMem ..) hd
  unfold matDone
  dsimp only
  refine inv_ite (inv_of_keeps (landReply_keepsMem ..) hd) (inv_ite ?_ hd)
  refine inv_of_keeps (wrapCause_keepsMem ..) (inv_of_keeps (opFlags_keepsMem ..) (opBar_inv ?_ ..))
  exact inv_ite hd (inv_ite (ha ..) (ha ..))

theorem execMatrixOpComplete_inv (h : State.Inv s) (ag : Agent) (i : Nat) : OutInv (execMatrixOpComplete ag i s) := by
  unfold execMatrixOpComplete
  split
  · exact h
  · split
    · exact OutInv.ite (matDone_inv h ..) h
    · exact h

theorem forwardStep_inv (h : State.Inv s) (ag : Agent) (isB : Bool) : State.Inv (forwardStep s ag isB) := by
  unfold forwardStep
  split
  · exact h
  · dsimp only
    split
    · exact inv_ite h (inv_of_keeps (engAsk_keepsMem ..) (inv_modCore h ..))
    · refine inv_ite (inv_of_keeps (faultOp121_keepsMem ..) (inv_modCore h ..)) ?_
      split
      · exact h
      · next heq =>
        have ht := (overVn2_inv h ..).of_some heq
        exact inv_modCore (inv_of_keeps (engAdvance_keepsMem ..) (inv_engPut _ _ _ _ ht)) ..

theorem bind_takePkt_inv (h : State.Inv s) {o : Option Nat} {r : Packet × State} (e : o.bind (takePkt s) = some r) :
    State.Inv r.2 := by
  obtain ⟨n, _, hn⟩ := Option.bind_eq_some_iff.mp e
  exact inv_takePkt h hn

theorem ringEvent_inv (h : State.Inv s) (owner n : Nat) : State.Inv (ringEvent s owner n) := by
  unfold ringEvent
  dsimp only
  split
  · exact inv_keep h
  · split
    · next heq => exact inv_of_keeps (ringAtOwner_keepsMem ..) (bind_takePkt_inv h heq)
    · exact h

theorem execRingOperationAtOwner_inv (h : State.Inv s) (ag : Agent) (n : Handle) : OutInv (execRingOperationAtOwner ag n s) := by
  cases ag with
  | fw k => exact h
  | tile m => exact ringEvent_inv h ..

/-! ### Deprecated forms -/

theorem issueOld_inv {body : Effect} (hb : EffectInv body) (h : State.Inv s) (f : Form) : OutInv (issueOld f body s) :=
  OutInv.ite (issue_inv hb h f) (inv_keep (t := raisePrecise f s _ _) h)

theorem microSteps_inv {step : Nat → State → Do State} (hstep : ∀ i t, State.Inv t → StateInv (step i t)) (start n : Nat) :
    ∀ {s : State} (i : Nat), State.Inv s → StateInv (microSteps step start n i s) := by
  induction n with
  | zero => exact fun _ h => h
  | succ n ih =>
    intro s i h
    have hs := hstep i s h
    unfold microSteps
    split
    · next heq => exact ih _ (hs.of_ok heq)
    · split
      · trivial
      · exact inv_of_keeps (noteSteps_keepsMem ..) h
    · next heq => exact inv_of_keeps (noteSteps_keepsMem ..) (hs.of_error heq : State.Inv _)
    · next heq => exact hs.of_error heq

theorem effectInv_ldmOp (d a : GReg) (n : Nat) : EffectInv (ldmOp d a n) :=
  fun _ h => (microSteps_inv (fun _ _ ht => load_inv ht ..) _ _ _ h).bind fun _ ht => ht

theorem effectInv_stmOp (r a : GReg) (n : Nat) : EffectInv (stmOp r a n) :=
  fun _ h => (microSteps_inv (fun _ _ ht => store_inv ht ..) _ _ _ h).bind fun _ ht => ht

/-! ### Reshape and trees -/

theorem moveRegions_inv (h : State.Inv s) (a : Agent) (r : Reshape) : State.Inv (moveRegions s a r) :=
  endPins_inv (inv_fold _ (fun _ _ ht => inv_putRegion _ _ _ _ _ ht) _ h) _

theorem finishReshape_inv (h : State.Inv s) (a : Agent) (r : Reshape) : State.Inv (finishReshape s a r) :=
  inv_of_keeps (landReply_keepsMem ..) (inv_modCore (inv_fold _ (fun _ _ ht => inv_clearRange _ _ ht) _ h) ..)

theorem reshapeComplete_inv (h : State.Inv s) (a : Agent) : State.Inv (reshapeComplete s a) := by
  unfold reshapeComplete
  dsimp only
  split
  · exact h
  · split
    · exact inv_keep h
    · refine inv_ite h (inv_ite (moveRegions_inv h ..) ?_)
      split
      · exact inv_keep h
      · exact inv_ite (finishReshape_inv h ..) h

theorem execReshapeComplete_inv (h : State.Inv s) (ag : Agent) : OutInv (execReshapeComplete ag s) := by
  cases ag with
  | tile n => exact reshapeComplete_inv h _
  | fw k => exact h

theorem effectInv_treeOp (kind op : Nat) (d a : FReg) (b : GReg) : EffectInv (treeOp kind op d a b) :=
  fun _ h => (memberOf_inv ..).bind fun _ _ => DoInv.ite h (inv_keep h)

theorem effectInv_treeWaitOp (d a : GReg) : EffectInv (treeWaitOp d a) :=
  fun _ h => (memberOf_inv ..).bind fun _ _ => DoInv.ite h (inv_wgSlow h ..)

theorem execTreeResult_inv (h : State.Inv s) (ag : Agent) (i : Nat) : OutInv (execTreeResult ag i s) := by
  unfold execTreeResult
  repeat' split
  all_goals exact inv_keep h

end Sys2Proof.Proofs
end

section
/-! Every instruction keeps the canonical form of memory: the lemmas of the families, put together over `exec`. -/

namespace Sys2Proof.Proofs

open Sys2Proof.Machine Sys2Proof.Laws

-- The declarations are checked one after another: checked side by side, their threads exhaust the memory.
set_option Elab.async false

variable {s : State}

/-- A vector form that a sequence may hold. -/
theorem issueWith_inv_of_seqEffect {i : Instr} {body : Effect} (e : seqEffect i = some body) (h : State.Inv s) (f : Form) :
    OutInv (issueWith f (some i) body s) := by
  have hb := seqEffect_inv i
  rw [e] at hb
  exact issueWith_inv hb h f _

theorem effectInv_vecLoad (d : FReg) (n : Nat) (parts : State → List (Nat × Word)) : EffectInv fun s => vecLoad s d n (parts s) :=
  fun _ h => vecLoad_inv h ..

theorem effectInv_vecStore (r : FReg) (n : Nat) (parts : State → List (Nat × Word)) : EffectInv fun s => vecStore s r n (parts s) :=
  fun _ h => vecStore_inv h ..

theorem branch_inv (h : State.Inv s) (fm : Form) (a b : GReg) (off : Word) (cond : Word → Word → Bool) :
    OutInv (branch fm a b off cond s) := issue_inv (effectInv_branch a b off cond) h fm

theorem effectInv_dropFetched (sc : Scope) : EffectInv fun s => ok (dropFetched s sc) := fun _ h => inv_keep h

theorem effectInv_slateMin (d a : GReg) :
    EffectInv fun s =>
      let v := oldest s (opCtx s).slate (rg s a)
      ok (wg (setSlate s v) d v) := fun _ h => inv_keep h

theorem effectInv_rand (d a b : GReg) :
    EffectInv fun s =>
      if d = a ∧ d ≠ 0 then trap 0x01 (encTval (wR 0x20 d a b 0) 3 false)
      else ok (wgSlow (wg s a (rg s a + 1#64)) d (w64 (cmix32 (lo32 (rg s a)) (lo32 (rg s b))).toNat)) :=
  effectInv_unless fun _ h => inv_keep h

theorem inv_devRead (h : State.Inv s) (v : Word) : State.Inv { s with devRead := v } := h

theorem execContinuityLinkDown_inv (h : State.Inv s) : OutInv (execContinuityLinkDown s) := by
  unfold execContinuityLinkDown
  rw [outInv_event]
  exact inv_keep h

theorem effectInv_ok : EffectInv ok := fun _ h => h

theorem effectInv_trap (code : Nat) (tval : Word) : EffectInv fun _ => trap code tval := fun _ _ => trivial

/-- An instruction keeps the canonical form of memory and of the full/empty bits. -/
theorem exec_inv (i : Instr) (h : State.Inv s) : OutInv (exec i s) := by
  cases i
  case nop | hint => exact issue_inv effectInv_ok h _
  case anop | vseqStop => exact issueWith_inv effectInv_ok h _ _
  case add | sub | and | or | xor | shl | shr | sra | rotl | min | max | minu | maxu | slt | sltu | clz | ctz | popc | bswap |
      sextb | sexth | sextw | zextb | zexth | zextw | sel | addi | addiLong | andi | andiLong | ori | oriLong | xori | xoriLong |
      slti | sltiLong | sltiu | sltiuLong | shli | shliLong | shri | shriLong | srai | sraiLong | rotli | rotliLong | movhi |
      leaScale1 | leaScale2 | leaScale4 | leaScale8 | slateRd => exact issue_inv (effectInv_wg _ _) h _
  case mul | mulh | mulhu | qstat | grpMem | cpyStat | sstat | linkStat => exact issue_inv (effectInv_wgSlow _ _) h _
  case div | divu | rem | remu => exact issue_inv (effectInv_unless (effectInv_wgSlow _ _)) h _
  case beq | beqLong | bne | bneLong => exact branch_inv h ..
  case blt | bltLong => exact branch_inv h _ _ _ _ fun a b => decide (sInt a < sInt b)
  case bge | bgeLong => exact branch_inv h _ _ _ _ fun a b => decide (sInt b ≤ sInt a)
  case bltu | bltuLong => exact branch_inv h _ _ _ _ fun a b => decide (a.toNat < b.toNat)
  case bgeu | bgeuLong => exact branch_inv h _ _ _ _ fun a b => decide (b.toNat ≤ a.toNat)
  case vdotI8 | maca => exact issueOld_inv (effectInv_wgSlow _ _) h _
  case endAct => exact issue_inv effectInv_endAct h _
  case yield => exact issue_inv effectInv_yield h _
  case fenceRel => exact issue_inv (effectInv_then fun _ ht => release_inv ht _) h _
  case fenceAcq => exact issue_inv (effectInv_then fun _ ht => acquire_inv ht _) h _
  case fenceAr => exact issue_inv (effectInv_then fun _ ht => fenceAr_inv ht _) h _
  case ifence => exact issue_inv (effectInv_dropFetched _) h _
  case slateMin => exact issue_inv (effectInv_slateMin _ _) h _
  case tret => exact issue_inv effectInv_tretOp h _
  case syscall | brk => exact issue_inv (effectInv_trap _ _) h _
  case snap => exact issue_inv (effectInv_snapOp _) h _
  case sysr => exact issue_inv (effectInv_sysrOp _ _) h _
  case sysw => exact issue_inv (effectInv_syswOp _ _) h _
  case gate => exact issue_inv (effectInv_gateOp _ _) h _
  case gret => exact issue_inv effectInv_gretOp h _
  case slateSet => exact issue_inv (effectInv_slateSetOp _ _) h _
  case slateRgn => exact issue_inv (effectInv_slateRgnOp _ _) h _
  case slateFold => exact issue_inv (effectInv_slateFoldOp _ _) h _
  case slchk | slchkTrap => exact issue_inv (effectInv_slchkOp _ _ _) h _
  case kill => exact issue_inv (effectInv_killOp _ _) h _
  case invpg => exact issue_inv (effectInv_invpgOp _ _ _) h _
  case jal | jalLong => exact issue_inv (effectInv_jalTo _ _) h _
  case jalr | jalrLong => exact issue_inv (effectInv_jalrTo _ _ _) h _
  case rand => exact issue_inv (effectInv_rand _ _ _) h _
  case ldb | ldbLong | ldh | ldhLong | ldw | ldwLong | ldd | lddLong | ldbu | ldbuLong | ldhu | ldhuLong | ldwu | ldwuLong | ldq |
      ldqLong => exact issue_inv (effectInv_loadOp _ _ _ _) h _
  case stb | stbLong | sth | sthLong | stw | stwLong | std | stdLong | stq | stqLong =>
    exact issue_inv (effectInv_storeOp _ _ _ _) h _
  case ldf | ldfLong | ldc | ldcLong => exact issue_inv (effectInv_feLoad _ _ _ _) h _
  case stf | stfLong => exact issue_inv (effectInv_feStf _ _ _) h _
  case stfo | stfoLong | empty | emptyLong => exact issue_inv (effectInv_feNow _ _ _) h _
  case feq | feqLong => exact issue_inv (effectInv_feQuery _ _ _) h _
  case vld | vldLong | vlds | vldsLong | vgath | vgathLong => exact issue_inv (effectInv_vecLoad _ _ _) h _
  case vst | vstLong | vsts | vstsLong | vscat | vscatLong => exact issue_inv (effectInv_vecStore _ _ _) h _
  case amoadd | amoand | amoor | amoxor | amomin | amomax | amominu | amomaxu | amoswap | amocas =>
    exact issue_inv (effectInv_amoOp _ _ _ _ _) h _
  case pref | prefLong => exact issue_inv (effectInv_prefOp _ _) h _
  case cwb | cwbLong | cinv | cinvLong | cwbinv | cwbinvLong | cwbL2 | cwbL2Long =>
    exact issue_inv (effectInv_cacheOp (fun _ _ ht => inv_keep ht) _ _ _) h _
  case vadd | vsub | vmul | vmin | vmax | vabs | vneg | vdiv | vsqrt | vfma | vfms | vfnma | vfnms | vaddI | vsubI | vmulI | vmulhI |
      vand | vor | vxor | vshl | vshr | vsra | vminI | vmaxI | vminuI | vmaxuI | vdot4I8 | vcmp | vsel | mand | mor | mxor | mnot |
      mmov | mset | mpopc | vrcp | vrsq | vexp2 | vlog2 | vtanh | vsigm | vcvt | vcvtSr | vrand | vmov | vbcast | vext | vins |
      vperm | vred | vscan => exact issueWith_inv_of_seqEffect rfl h _
  case vseq => exact issue_inv (effectInv_vseqOp _ _) h _
  case vseqS => exact issue_inv (effectInv_vseqSOp _ _) h _
  case send | sendq | cut => exact issue_inv (effectInv_sendOp _ _ _ _ _ _) h _
  case sendr => exact issue_inv (effectInv_sendrOp _ _ _) h _
  case reply | replyQ => exact issue_inv (effectInv_replyOp _ _ _) h _
  case putn => exact issue_inv (effectInv_putnOp _ _ _ _ _) h _
  case getr => exact issue_inv (effectInv_getrOp _ _ _ _) h _
  case getrArm | getrDis => exact issue_inv (effectInv_getrSet _ _ _) h _
  case qpop | qpeek => exact issue_inv (effectInv_qpopOp _ _ _ _) h _
  case qstatClr => exact issue_inv (effectInv_qstatClrOp _ _) h _
  case spawn => exact issue_inv (effectInv_spawnOp _ _ _ _ _) h _
  case forkR => exact issue_inv (effectInv_forkOp _ _ _ _ _) h _
  case join | joinSeal | joinWait => exact issue_inv (effectInv_joinForm _ _ _ _) h _
  case joinOpen => exact issue_inv (effectInv_joinOpenOp _ _ _) h _
  case budgetAct => exact issue_inv (effectInv_budgetActOp _ _) h _
  case budgetTake => exact issue_inv (effectInv_budgetTakeOp _ _) h _
  case barInit => exact issue_inv (effectInv_barInitOp _ _) h _
  case barArr => exact issue_inv (effectInv_barArrOp _ _ _) h _
  case barWait => exact issue_inv (effectInv_barWaitOp _ _ _) h _
  case barArw => exact issue_inv (effectInv_barArwOp _ _ _) h _
  case barTx => exact issue_inv (effectInv_barTxOp _ _) h _
  case barQry => exact issue_inv (effectInv_barQryOp _ _) h _
  case ringWaitf | ringWaite => exact issue_inv (effectInv_ringWaitOp _ _ _ _ _) h _
  case ringAdvp | ringAdvc => exact issue_inv (effectInv_ringAdvOp _ _ _ _) h _
  case ringQry => exact issue_inv (effectInv_ringQryOp _ _) h _
  case red | scan | bcast => exact issue_inv (effectInv_treeOp _ _ _ _ _) h _
  case treeWait => exact issue_inv (effectInv_treeWaitOp _ _) h _
  case poolSet => exact issue_inv (effectInv_poolSetOp _ _) h _
  case poolQry => exact issue_inv (effectInv_poolQryOp _ _ _) h _
  case poolPin => exact issue_inv (effectInv_poolPinOp _ _) h _
  case poolUnpin => exact issue_inv (effectInv_poolUnpinOp _ _) h _
  case cpy => exact issue_inv (effectInv_cpyOp _ _ _) h _
  case cpyCancel => exact issue_inv (effectInv_cpyCancelOp _ _) h _
  case scfg => exact issue_inv (effectInv_scfgOp _ _ _ _ _) h _
  case sclose => exact issue_inv (effectInv_sclose _) h _
  case ldm => exact issueOld_inv (effectInv_ldmOp _ _ _) h _
  case stm => exact issueOld_inv (effectInv_stmOp _ _ _) h _
  case cvtMx | cvtUnmx | rescaleMx | transp => exact issue_inv (effectInv_convIssue _ _ _ _ _) h _
  case mma => exact issue_inv (effectInv_mmaOp _ _ _ _) h _
  case mmaG => exact issue_inv (effectInv_mmaGOp _ _ _ _) h _
  case mmrot => exact issue_inv (effectInv_mmrotOp _ _ _ _) h _
  case accClr => exact issue_inv (effectInv_accClrOp _) h _
  case accAnch => exact issue_inv (effectInv_accAnchOp _ _) h _
  case accRd => exact issue_inv (effectInv_accRdOp _ _ _ _) h _
  case accWr => exact issue_inv (effectInv_accWrOp _ _ _) h _
  case accStat => exact issue_inv (effectInv_accStatOp _ _) h _
  case linkCfg => exact issue_inv (effectInv_linkCfgOp _ _) h _
  case feWaitDone => exact feWaitDone_inv h ..
  case sequencerReplayStep => exact replayStep_inv h _
  case mmrotForward => exact forwardStep_inv h ..
  case streamFetch => exact streamFetch_inv h ..
  case streamDrain => exact streamDrain_inv h ..
  case gateUnwind => exact gateUnwind_inv h ..
  case copyTransferStart => exact copyStart_inv h _
  case copyTransferDone => exact copyDone_inv h _
  case copyTransferFault => exact copyFault_inv h _
  case coldReset => exact coldReset_inv h
  case mbxgo => exact (mailGo_inv h ..).getD h
  case resultQueueAppend => exact (appendResult_inv h ..).getD h
  case linkVectorArrival => exact inv_of_keeps (linkArrival_keepsMem s ..) h
  case asyncCauseDelivery => exact inv_of_keeps (deliver_keepsMem s ..) h
  case activationBudgetExpiry => exact inv_of_keeps (budgetExpiry_keepsMem s ..) h
  case spilledContextReturn => exact inv_of_keeps (spilledReturn_keepsMem s ..) h
  case pairForm => exact inv_of_keeps (pairForm_keepsMem s ..) h
  case guestDrained | guestSaved => exact inv_of_keeps (answerPreempt_keepsMem s ..) h
  case hashmaskWrite => exact OutInv.ite h (inv_of_keeps (hashmaskSet_keepsMem s ..) h)
  case domselWrite => exact OutInv.ite h (inv_of_keeps (domselSet_keepsMem s ..) h)
  case l2ctlWrite => exact OutInv.ite h (inv_of_keeps (l2ctlSet_keepsMem s ..) h)
  case domstatRead => exact inv_devRead (inv_of_keeps (domstatGet_keepsMem s) h) (domstatGet s).1
  case csstatRead => exact inv_devRead (inv_of_keeps (csstatGet_keepsMem s) h) (csstatGet s).1
  case detstatRead => exact inv_devRead (inv_of_keeps (detstatGet_keepsMem s) h) (detstatGet s).1
  case vtakenoRead c => exact inv_devRead (inv_of_keeps (vtakenoGet_keepsMem s c) h) (vtakenoGet s c).1
  case vcauseRead c => exact inv_devRead (inv_of_keeps (vcauseGet_keepsMem s c) h) (vcauseGet s c).1
  case pops c q => exact inv_devRead (inv_of_keeps (popsGet_keepsMem s c q) h) (popsGet s c q).1
  case popv c q => exact inv_devRead (inv_of_keeps (popvGet_keepsMem s c q) h) (popvGet s c q).1
  case messagePortStatusRead c => exact inv_devRead (inv_of_keeps (statusGet_keepsMem s c) h) (statusGet s c).1
  case snapshotTrigger => exact inv_of_keeps (snapshot_keepsMem s ..) h
  case rearm => exact inv_of_keeps (rearmSet_keepsMem s ..) h
  case timectlWrite v => exact inv_of_keeps (timectlSet_keepsMem s v) h
  case takecfgWrite v => exact inv_of_keeps (takecfgSet_keepsMem s v) h
  case servoStep v => exact inv_ite (inv_of_keeps (servoAdd_keepsMem s v) h) h
  case lockedChange v => exact inv_ite (inv_of_keeps (lockedSet_keepsMem s v) h) h
  case timestatErrClear => exact inv_of_keeps (timestatClear_keepsMem s ..) h
  case mapsw => exact inv_of_keeps (mapswSet_keepsMem s ..) h
  case pairstatClear m u => exact inv_of_keeps (pairstatSet_keepsMem s m u) h
  case clrtrip die => exact inv_of_keeps (clrtripSet_keepsMem s die.val) h
  case throttleStepChange => exact inv_congr rfl rfl h
  case pwrctlWrite v => exact inv_of_keeps (pwrctlSet_keepsMem s v) h
  case mbxpop k => exact inv_of_keeps (mailPop_keepsMem s k.val) h
  case kick k => exact inv_of_keeps (mailKick_keepsMem s k.val) h
  case voutdone c => exact inv_of_keeps (signalDone_keepsMem s c) h
  case continuityLinkDown => exact execContinuityLinkDown_inv h
  case guestLinkTraining => exact inv_congr rfl rfl h
  case epochWrite v => exact inv_of_keeps (epochSet_keepsMem s v) h
  case inFlightWriteLands | statusLostaClear => exact inv_congr rfl rfl h
  case time => exact execTime_inv h ..
  case timeSinceClapper => exact execTimeSinceClapper_inv h ..
  case timeToEgress => exact execTimeToEgress_inv h ..
  case gaddr => exact execGaddr_inv h ..
  case cvtfx => exact execCvtfx_inv h ..
  case cvtxf => exact execCvtxf_inv h ..
  case convOpStart => exact execConvOpStart_inv h ..
  case convOpComplete => exact execConvOpComplete_inv h ..
  case matrixOpStart => exact execMatrixOpStart_inv h ..
  case matrixOpComplete => exact execMatrixOpComplete_inv h ..
  case trapEntry => exact execTrapEntry_inv h ..
  case copyCompletionInterrupt => exact execCopyCompletionInterrupt_inv h ..
  case singleStep => exact execSingleStep_inv h ..
  case activationStart => exact execActivationStart_inv h ..
  case contextLoad => exact execContextLoad_inv h ..
  case contextWriteback => exact execContextWriteback_inv h ..
  case budgetGraceExpiry => exact execBudgetGraceExpiry_inv h ..
  case deadlockSuspected => exact execDeadlockSuspected_inv h ..
  case takeBudgetSpent => exact execTakeBudgetSpent_inv h ..
  case slotExhaustion => exact execSlotExhaustion_inv h ..
  case absentContextMessage => exact execAbsentContextMessage_inv h ..
  case quiesceAck => exact execQuiesceAck_inv h ..
  case spawnArrival => exact execSpawnArrival_inv h ..
  case spawnRetry => exact execSpawnRetry_inv h ..
  case joinArrival => exact execJoinArrival_inv h ..
  case depositArrival => exact execDepositArrival_inv h ..
  case depositLanding => exact execDepositLanding_inv h ..
  case parkedReturn => exact execParkedReturn_inv h ..
  case messageArrival => exact execMessageArrival_inv h ..
  case replyArrival => exact execReplyArrival_inv h ..
  case remoteAccessArrival => exact execRemoteAccessArrival_inv h ..
  case accessReplyArrival => exact execAccessReplyArrival_inv h ..
  case storeAckArrival => exact execStoreAckArrival_inv h ..
  case refusalArrival => exact execRefusalArrival_inv h ..
  case journalTimeout => exact execJournalTimeout_inv h ..
  case linkReroute => exact execLinkReroute_inv h ..
  case barrierEvent => exact execBarrierEvent_inv h ..
  case barrierHoldRetry => exact execBarrierHoldRetry_inv h ..
  case ringOperationAtOwner => exact execRingOperationAtOwner_inv h ..
  case treeResult => exact execTreeResult_inv h ..
  case reshapeComplete => exact execReshapeComplete_inv h ..
  case clapper => exact execClapper_inv h ..
  case egressSwap => exact execEgressSwap_inv h ..
  case frameTransmit => exact execFrameTransmit_inv h ..
  case frameIngress => exact execFrameIngress_inv h ..
  case callSheetEntryFire => exact execCallSheetEntryFire_inv h ..
  case oneShotFire => exact execOneShotFire_inv h ..
  case heartbeatSend => exact execHeartbeatSend_inv h ..
  case heartbeatArrival take driving term => exact execHeartbeatArrival_inv h take driving term
  case heartbeatMiss => exact execHeartbeatMiss_inv h ..
  case mirrorWrite => exact execMirrorWrite_inv h ..
  case mirrorMarkerSend => exact execMirrorMarkerSend_inv h ..
  case unreconciledTake => exact execUnreconciledTake_inv h ..
  case takeDigestSend => exact execTakeDigestSend_inv h ..
  case takeDigestArrival => exact execTakeDigestArrival_inv h ..
  case digestTimeout => exact execDigestTimeout_inv h ..
  case guestSubmit => exact execGuestSubmit_inv h ..
  case guestCompletion => exact execGuestCompletion_inv h ..
  case guestFault => exact execGuestFault_inv h ..
  case guestAccess => exact execGuestAccess_inv h ..
  case guestRequestTimeout => exact execGuestRequestTimeout_inv h ..
  case guestPreemptRequest => exact execGuestPreemptRequest_inv h ..
  case guestPreemptTimeout => exact execGuestPreemptTimeout_inv h ..
  case hostDoorbell => exact execHostDoorbell_inv h ..
  case launch => exact execLaunch_inv h ..
  case activeMessage => exact execActiveMessage_inv h ..
  case loadCallSheet => exact execLoadCallSheet_inv h ..
  case releaseQueue => exact execReleaseQueue_inv h ..
  case endLaunch => exact execEndLaunch_inv h ..
  case loadImageMaps => exact execLoadImageMaps_inv h ..
  case openAperture => exact execOpenAperture_inv h ..
  case claimOwnership => exact execClaimOwnership_inv h ..
  case transferOwnership => exact execTransferOwnership_inv h ..
  case advanceVersion => exact execAdvanceVersion_inv h ..
  case attestationQuote => exact execAttestationQuote_inv h ..
  case storeImage => exact execStoreImage_inv h ..
  case splitDomain => exact execSplitDomain_inv h ..
  case hostApertureAccess => exact execHostApertureAccess_inv h ..
  case domainSwitchApply => exact execDomainSwitchApply_inv h ..
  case losingSliceSignal => exact execLosingSliceSignal_inv h ..
  case domainSwitchEnd => exact execDomainSwitchEnd_inv h ..
  case pageMigration => exact execPageMigration_inv h ..
  case invpgAck => exact execInvpgAck_inv h ..
  case uncorrectableError => exact execUncorrectableError_inv h ..
  case tileRetire => exact execTileRetire_inv h ..
  case watchpointTrigger => exact execWatchpointTrigger_inv h ..
  case wpctlWrite => exact execWpctlWrite_inv h ..
  case wpctlRead => exact execWpctlRead_inv h ..
  case snapshotPin => exact execSnapshotPin_inv h ..
  case snaptimeReached => exact execSnaptimeReached_inv h ..
  case dtimeDivergence => exact execDtimeDivergence_inv h ..
  case governorSample => exact execGovernorSample_inv h ..
  case thermalSample => exact execThermalSample_inv h ..
  case powerFailWarning => exact execPowerFailWarning_inv h ..
  case drainExpiry => exact execDrainExpiry_inv h ..
  case reelWrite => exact execReelWrite_inv h ..
  case reelRestart => exact execReelRestart_inv h ..
  case recoveryMode => exact execRecoveryMode_inv h ..
  case firmwareWatchdog => exact execFirmwareWatchdog_inv h ..
  case mailboxEntryArrival => exact execMailboxEntryArrival_inv h ..
  case handlerPublish => exact execHandlerPublish_inv h ..
  case messagePortSend => exact execMessagePortSend_inv h ..
  case slewComplete => exact execSlewComplete_inv h ..
  case mirrorMarkerArrival => exact execMirrorMarkerArrival_inv h ..
  case sendQueueEntryFreed => exact execSendQueueEntryFreed_inv h ..
  case writeBackAck => exact execWriteBackAck_inv h ..
  case killAcceptance => exact execKillAcceptance_inv h ..
  case hostAccessTimeout => exact execHostAccessTimeout_inv h ..
  case recruitmentAnswer => exact execRecruitmentAnswer_inv h ..

end Sys2Proof.Proofs
end

section
/-! The canonical form of memory through the fetch, a bundle's two words, what the world outside does, and a step. -/

namespace Sys2Proof.Proofs

open Sys2Proof.Machine Sys2Proof.Laws

-- The declarations are checked one after another: checked side by side, their threads exhaust the memory.
set_option Elab.async false

variable {s : State}

/-! ### Fetch -/

@[simp] theorem fetchWord_keepsMem (s : State) (pa : Nat) :
    (fetchWord s pa).1.mem = s.mem ∧ (fetchWord s pa).1.full = s.full := by
  unfold fetchWord
  dsimp only
  repeat' split
  all_goals exact ⟨rfl, rfl⟩

theorem fetch_inv (h : State.Inv s) : DoInv (fun r => State.Inv r.1) (fetch s) := by
  unfold fetch
  dsimp only
  split
  · exact h
  · refine DoInv.ite trivial ((resolve_inv h ..).bind fun r hr => ?_)
    split
    · exact DoInv.ite hr ((loadCheck_inv ..).bind fun _ _ => inv_of_keeps (fetchWord_keepsMem ..) hr)
    · trivial

theorem wordTrap_inv (h : State.Inv s) (slot code : Nat) (tval : Word) : State.Inv (wordTrap s slot code tval) :=
  inv_of_keeps (raisePrecise_keepsMem ..) h

theorem fetchStall_inv (h : State.Inv s) {e : Stall} (he : StallInv e) : State.Inv (fetchStall s e) := by
  unfold fetchStall
  split
  · exact inv_ite (inv_of_keeps (stubRequest_keepsMem ..) (wordTrap_inv h ..)) (wordTrap_inv h ..)
  · exact stall_inv h _ he

/-! ### Pairs -/

@[simp] theorem unpop_keepsMem (s t : State) (r : FReg) : (unpop s t r).mem = t.mem ∧ (unpop s t r).full = t.full := by
  unfold unpop
  repeat' split
  all_goals exact ⟨rfl, rfl⟩

theorem afterOther_inv {t : State} (ht : State.Inv t) (s : State) (i other : Instr) : OptInv (afterOther s t i other) := by
  have hpop := inv_fold (unpop s) (fun _ _ hu => inv_of_keeps (unpop_keepsMem ..) hu)
    ((form i).fr.filter (form other).fr.contains).dedup ht
  have hx (u : State) (hu : State.Inv u) : OutInv (exec i { u with latch := some (curCtx s) }) :=
    exec_inv (s := { u with latch := some (curCtx s) }) i hu
  have hv := hx _ hpop
  unfold afterOther
  dsimp only
  split
  · next heq =>
    rw [heq] at hv
    split
    · exact hv
    · trivial
  · trivial

theorem inOrder_inv {t : State} (ht : State.Inv t) (s : State) (c a : Instr) : OptInv (inOrder s t c a) :=
  (afterOther_inv ht ..).map fun _ hu => inv_modCur hu _

theorem leavingLast_inv {t : State} (ht : State.Inv t) (s : State) (c a : Instr) : OptInv (leavingLast s t c a) :=
  (afterOther_inv (inv_modCur ht _) ..).map fun _ hu => inv_ite (inv_modCur hu _) hu

theorem capturePair_inv (h : State.Inv s) (c a : Instr) : OutInv (capturePair s c a) := by
  have hc := exec_inv c h
  unfold capturePair
  split
  · next heq =>
    rw [heq] at hc
    exact OutInv.ite (inv_modCur hc _) hc
  · exact hc

theorem runPair_inv (h : State.Inv s) (c a : Instr) : OutInv (runPair s c a) := by
  have hc := exec_inv c h
  have ha := exec_inv a h
  refine OutInv.ite ha (OutInv.ite hc (OutInv.ite (capturePair_inv h ..) ?_))
  split
  · next t u et eu =>
    rw [et] at hc
    rw [eu] at ha
    refine OutInv.ite hc (OutInv.ite ha (OutInv.ite hc (OutInv.ite ha (OutInv.ite hc ?_))))
    refine OptInv.getD ?_ (inv_congr (s := s) rfl rfl h)
    split
    · exact leavingLast_inv ha ..
    · exact inOrder_inv hc ..
  · exact ha
  · exact hc

theorem runWords_inv (h : State.Inv s) (w0 w1 : Nat) : OutInv (runWords s w0 w1) := by
  unfold runWords
  split
  · exact wordTrap_inv h ..
  · exact exec_inv _ h
  · exact OutInv.ite (refuseCapture_inv h _) (wordTrap_inv h ..)
  · split
    · exact wordTrap_inv h ..
    · refine OutInv.ite (refuseCapture_inv h _) ?_
      split
      · exact wordTrap_inv h ..
      · exact OutInv.ite (wordTrap_inv h ..) (runPair_inv h ..)
      · exact h

theorem runBundle_inv (h : State.Inv s) (k : CtxKey) : OutInv (runBundle s k) := by
  have hs : State.Inv { s with cur := k, latch := none } := h
  have hf := fetch_inv hs
  unfold runBundle
  dsimp only
  split
  · next heq => exact runWords_inv (hf.of_ok heq) ..
  · next heq => exact fetchStall_inv hs (hf.of_error heq)

/-! ### The world outside -/

theorem partnerAccess_inv (h : State.Inv s) (op : AOp) (pa : Nat) : OptInv (partnerAccess s op pa) := by
  unfold partnerAccess
  dsimp only
  split
  · trivial
  · split
    · split
      · exact inv_keep h
      · exact inv_keep h
    · exact inv_of_keeps (returned_keepsMem ..) (inv_homeWrite _ _ _ _ _ _ h)
    · split
      · exact inv_keep h
      · exact inv_of_keeps (returned_keepsMem ..) (inv_homeAmo _ _ _ _ _ _ _ _ _ h)
    · exact h

theorem outerStep_inv (h : State.Inv s) (o : Outer) : OptInv (outerStep s o) := by
  cases o
  case ctrlCompute | ctrlMode | ctrlFloat | ctrlJump => exact inv_of_keeps (modCtrl_keepsMem ..) h
  case ctrlPmp => exact inv_of_keeps (ctrlPmp_keepsMem ..) h
  case ctrlLoad => exact ctrlLoad_inv h ..
  case ctrlStore => exact optInv_unless (ctrlStore_inv h ..)
  case ctrlAmo => exact ctrlAmo_inv h ..
  case ctrlCsrRead => exact ctrlCsrRead_inv h ..
  case ctrlCsrWrite => exact inv_of_keeps (ctrlCsrWrite_keepsMem ..) h
  case ctrlMie => exact inv_of_keeps (ctrlMie_keepsMem ..) h
  case ctrlMret => exact inv_of_keeps (ctrlMret_keepsMem ..) h
  case ctrlInterrupt => exact inv_of_keeps (ctrlInterrupt_keepsMem ..) h
  case ctrlFence c =>
    have hf : OptInv (if ctrlFenceDone s c then some s else none) := by
      split
      · exact h
      · trivial
    exact hf
  case partnerAccess => exact partnerAccess_inv h ..
  case holdQueue => exact inv_of_keeps (holdQueue_keepsMem ..) h
  case endHolds => exact inv_of_keeps (endHolds_keepsMem ..) h
  case portGates => exact inv_of_keeps (setPortGates_keepsMem ..) h
  case streamFilter => exact inv_of_keeps (setStreamFilter_keepsMem ..) h
  case fw7Frame => exact inv_of_keeps (toFw7_keepsMem ..) h
  case inEntry | outEntry | frameDesc => exact inv_ite (inv_of_keeps (configMaps_keepsMem ..) h) h
  case translated => exact translated_inv h ..
  case fwClock => exact inv_of_keeps (fwClock_keepsMem ..) h
  case hostQueue => exact inv_of_keeps (hostQueue_keepsMem ..) h
  case hostCommands => exact hostCommands_inv h ..
  case hostReplace => exact inv_of_keeps (returned_keepsMem ..) h
  case advertise | corrected => exact inv_ite (inv_modDev h _) h
  case guestOther => exact inv_ite h (inv_of_keeps (discardPacket_keepsMem ..) h)
  case guestRelease => exact inv_ite (inv_of_keeps (modGq_keepsMem ..) h) h
  case reelError => exact inv_modDev h _
  case accError => exact inv_of_keeps (accError_keepsMem ..) h
  case resend => exact inv_of_keeps (resendLost_keepsMem ..) h

theorem runOuter_inv (h : State.Inv s) (o : Outer) : State.Inv (runOuter s o) :=
  (outerStep_inv (s := { s with outer := s.outer.tail }) h o).getD h

theorem runChore_inv (h : State.Inv s) (c : Chore) : State.Inv (runChore s c) := by
  cases c with
  | migrate g => exact movePage_inv h g
  | burn => exact burnFuse_inv h
  | command q => exact readCommand_inv h q
  | serve5 => exact inv_of_keeps (fw5Serve_keepsMem s) h
  | tick5 => exact fw5Ticks_inv h

/-! ### A step -/

theorem moveOn_inv {t : State} (ht : State.Inv t) (s : State) (k : CtxKey) : State.Inv (moveOn s t k) :=
  inv_ite (inv_modCore ht ..) ht

theorem issueNext_inv (h : State.Inv s) (k : CtxKey) : OutInv (issueNext s k) := by
  have hb := runBundle_inv h k
  unfold issueNext
  split
  · next heq =>
    rw [heq] at hb
    exact moveOn_inv hb ..
  · exact hb

theorem perform_inv (h : State.Inv s) (c : Choice) : OutInv (perform s c) := by
  cases c with
  | input i =>
    have hs : State.Inv { s with inputs := s.inputs.tail } := h
    exact OutInv.ite (exec_inv i hs) hs
  | own i => exact exec_inv i h
  | issue k => exact issueNext_inv h k
  | outer o => exact runOuter_inv h o
  | chore c => exact runChore_inv h c

theorem chooseStep_inv (h : State.Inv s) : OutInv (chooseStep s) := by
  unfold chooseStep
  dsimp only
  split
  · next c _ => exact perform_inv (s := { s with fresh := s.fresh + 1 }) h c
  · exact h

theorem runTurn_inv (h : State.Inv s) (t : Turn) : OutInv (runTurn s t) := by
  cases t with
  | issue k => exact issueNext_inv h k
  | event i => exact exec_inv i h

theorem step_inv (h : State.Inv s) : OutInv (step s) := by
  unfold step
  split
  · next t _ => exact runTurn_inv (s := { s with turn := none }) h t
  · exact chooseStep_inv h

/-- Settles O52: whatever a step runs (an event, a context's bundle, an outer input or a work of firmware) keeps the canonical form,
because every instruction does. -/
theorem stepKeepsInv : Obligations.StepKeepsInv := by
  unfold Obligations.StepKeepsInv
  intro s t h e
  have ht := step_inv h
  rw [e] at ht
  exact ht

end Sys2Proof.Proofs
end

section
/-! The POOL family (R144 to R146) and the deprecated forms of Cricy-1 (R46, R47). -/

namespace Sys2Proof.Proofs

open Sys2Proof.Machine Sys2Proof.Laws

-- The declarations are checked one after another: checked side by side, their threads exhaust the memory.
set_option Elab.async false

variable {d a b : GReg} {s t : State}

/-! ### POOL.SET -/

theorem firstRefusal_of_sum {k : Nat × Nat × Nat × Nat} (h : k.1 + k.2.1 + k.2.2.1 + k.2.2.2 ≠ 63) : firstRefusal t k = (1, 0) := by
  simp only [firstRefusal, if_pos h]

theorem firstRefusal_of_few {k : Nat × Nat × Nat × Nat} (hsum : k.1 + k.2.1 + k.2.2.1 + k.2.2.2 = 63)
    (h : k.1 < 2 ∨ (curLevel t = 0 ∧ k.2.1 < 24)) : firstRefusal t k = (2, 0) := by
  simp only [firstRefusal, if_neg (not_not.mpr hsum), if_pos h]

theorem firstRefusal_of_reshape {k : Nat × Nat × Nat × Nat} (hsum : k.1 + k.2.1 + k.2.2.1 + k.2.2.2 = 63) (h2 : 2 ≤ k.1)
    (h24 : curLevel t ≠ 0 ∨ 24 ≤ k.2.1) (h : (curCore t).reshape.isSome = true) : firstRefusal t k = (3, 0) := by
  have hfew : ¬(k.1 < 2 ∨ (curLevel t = 0 ∧ k.2.1 < 24)) := by omega
  simp only [firstRefusal, if_neg (not_not.mpr hsum), if_neg hfew, if_pos h]

theorem poolSetOp_refused (h : (firstRefusal t (poolCounts (rg t a).toNat)).1 ≠ 0) :
    poolSetOp d a t = ok (wgSlow t d (w64 ((firstRefusal t (poolCounts (rg t a).toNat)).1 +
      (firstRefusal t (poolCounts (rg t a).toNat)).2 * 256))) := if_pos h

theorem poolSetOp_held (h : (firstRefusal t (poolCounts (rg t a).toNat)).1 = 0)
    (hk : poolCounts (rg t a).toNat = (curCore t).counts) : poolSetOp d a t = ok (wgSlow t d 0) :=
  (if_neg (not_not.mpr h)).trans (if_pos hk)

/-- The reshape to the counts `k`, begun with `d` awaiting its end. -/
def reshapeBegun (t : State) (d : GReg) (k : Nat × Nat × Nat × Nat) : State :=
  modCurCore (awaitReg t d).2 fun co => { co with
    reshape := some ⟨k, curWho (awaitReg t d).2 (awaitReg t d).1, (awaitReg t d).1,
      (newPlaces (curCore t) k).filterMap fun p => p.2.map fun x => (p.1, x)⟩
    regions := ((leavingRegions (curCore t) k).map (·.1)).foldl
      (fun r h => r.set (Fin.ofNat 64 h) { r[Fin.ofNat 64 h] with moving := true }) co.regions }

theorem poolSetOp_begins (h : (firstRefusal t (poolCounts (rg t a).toNat)).1 = 0)
    (hk : poolCounts (rg t a).toNat ≠ (curCore t).counts) :
    poolSetOp d a t = ok (reshapeBegun t d (poolCounts (rg t a).toNat)) := (if_neg (not_not.mpr h)).trans (if_neg hk)

/-- A reshape that begins keeps the counts in force until its end, and the context awaits that end. -/
theorem reshapeBegun_spec (t : State) (d : GReg) (k : Nat × Nat × Nat × Nat) :
    ∃ r, (curCore (reshapeBegun t d k)).reshape = some r ∧ r.counts = k ∧
      (curCore (reshapeBegun t d k)).counts = (curCore t).counts ∧
      (curCtx (reshapeBegun t d k)).awaits = (curCtx t).awaits ++ [⟨r.id, .reg d⟩] := by
  have hco := curCore_modCurCore (awaitReg t d).2
  have hcounts : (curCore (awaitReg t d).2).counts = (curCore t).counts := rfl
  have hctx := curCtx_modCur (newId t).2 (·.await ⟨(newId t).1, .reg d⟩)
  exact ⟨_, congrArg Core.reshape (hco _), rfl, (congrArg Core.counts (hco _)).trans hcounts, congrArg Ctx.awaits hctx⟩

theorem poolSet_reshapes (h : Ready (form (.poolSet d a)) s t) (h0 : (firstRefusal t (poolCounts (rg t a).toNat)).1 = 0)
    (hk : poolCounts (rg t a).toNat ≠ (curCore t).counts) :
    ∃ u r, Commits (.poolSet d a) s (goesOn u) ∧ (curCore u).reshape = some r ∧ r.counts = poolCounts (rg t a).toNat ∧
      (curCore u).counts = (curCore t).counts ∧ (curCtx u).awaits = (curCtx t).awaits ++ [⟨r.id, .reg d⟩] := by
  obtain ⟨r, hr⟩ := reshapeBegun_spec t d (poolCounts (rg t a).toNat)
  exact ⟨_, r, commits_of_effect (exec_poolSet d a s) h (poolSetOp_begins h0 hk), hr⟩

/-! ### POOL.QRY -/

theorem poolQryOp_counts {word : Nat} (h : (rg t a).toNat % 256 = 0) : poolQryOp word d a t = ok (wgSlow t d
    (w64 (poolWord (curCore t).counts + (slotsUnder (curCore t).counts - 1) * 2 ^ 40 + b2n (curCore t).reshape.isSome * 2 ^ 63))) := by
  simp only [poolQryOp, h]

theorem poolQryOp_occupancy {word : Nat} (h : (rg t a).toNat % 256 = 1) : poolQryOp word d a t = ok (wgSlow t d
    (w64 (((List.range 64).countP fun k => (getCtx t ⟨t.cur.agent, k⟩).used) +
      (validRegions (curCore t)).foldl (fun n r => n + r.2.bytes) 0 % 2 ^ 20 * 2 ^ 16 + dirtyWays (curCore t) * 2 ^ 36 +
      (curCore t).rings.toList.countP (·.valid) * 2 ^ 48))) := by
  simp only [poolQryOp, h]

theorem poolQryOp_header {word : Nat} (h : (rg t a).toNat % 256 = 2) :
    poolQryOp word d a t = ok (wgSlow t d (namedRegion t (bits (rg t a).toNat 13 8)).word0) := by
  simp only [poolQryOp, h]

theorem poolQryOp_bank {word : Nat} (h : (rg t a).toNat % 256 = 3) (hb : bits (rg t a).toNat 13 8 ≠ 0) :
    poolQryOp word d a t = ok (wgSlow t d (bankWord (curCore t) (bits (rg t a).toNat 13 8))) := by
  simp only [poolQryOp, h, if_neg hb]

theorem poolQryOp_slate {word : Nat} (h : (rg t a).toNat % 256 = 4) :
    poolQryOp word d a t = ok (wgSlow t d (namedRegion t (bits (rg t a).toNat 13 8)).slate) := by
  simp only [poolQryOp, h]

theorem poolQryOp_bad {word : Nat} (h : 5 ≤ (rg t a).toNat % 256 ∨ ((rg t a).toNat % 256 = 3 ∧ bits (rg t a).toNat 13 8 = 0)) :
    poolQryOp word d a t = trap 0x01 (encTval word 3 false) := by
  unfold poolQryOp
  dsimp only
  split
  · omega
  · omega
  · omega
  · exact if_pos (h.elim (by omega) And.right)
  · omega
  · rfl

/-! ### POOL.PIN and POOL.UNPIN -/

/-- The region that a POOL.PIN or POOL.UNPIN names, with its header. -/
abbrev pinned (t : State) (a : GReg) : Option (Nat × Region) := findRegion (curCore t) (opCtx t).launch ((rg t a).toNat % 64)

/-- POOL.PIN where the region, if any, does not move. -/
theorem poolPinOp_still (h : (pinned t a).any (·.2.moving) = false) :
    poolPinOp d a t = ok (wgSlow (addPin t t.cur (opCtx t).gen (rg t a).toNat
        (pinResult (curCore t) (agentNo t.cur.agent) (opCtx t).launch (opCtx t).pins.length (rg t a).toNat).1) d
      (pinResult (curCore t) (agentNo t.cur.agent) (opCtx t).launch (opCtx t).pins.length (rg t a).toNat).2) :=
  if_neg (Bool.not_eq_true _ ▸ h)

theorem poolPinOp_unknown (h : pinned t a = none) : poolPinOp d a t = ok (wgSlow t d 9) := by
  have hr : pinResult (curCore t) (agentNo t.cur.agent) (opCtx t).launch (opCtx t).pins.length (rg t a).toNat = (none, 9) := by
    simp only [pinResult, h]
  rw [poolPinOp_still (by rw [h]; rfl), hr]
  rfl

section
variable {hd : Nat} {r : Region} (h : pinned t a = some (hd, r))
include h

theorem poolPinOp_moving (hm : r.moving = true) :
    poolPinOp d a t = ok (modCurCore (awaitReg t d).2 fun co =>
      { co with pinWaits := co.pinWaits ++ [((rg t a).toNat, curWho (awaitReg t d).2 (awaitReg t d).1)] }) :=
  if_pos (by simpa [h] using hm)

/-- POOL.PIN of a valid region that does not move. -/
theorem poolPinOp_found {o : Option Nat} {v : Word} (hm : r.moving = false)
    (hr : (if 255 ≤ r.pins then (none, 10)
      else if !bit (rg t a).toNat 8 && decide (16 ≤ (opCtx t).pins.length) then (none, 11)
      else (some hd, r.local (agentNo t.cur.agent))) = (o, v)) :
    poolPinOp d a t = ok (wgSlow (addPin t t.cur (opCtx t).gen (rg t a).toNat o) d v) := by
  have hp : pinResult (curCore t) (agentNo t.cur.agent) (opCtx t).launch (opCtx t).pins.length (rg t a).toNat = (o, v) := by
    simp only [pinResult, h]
    exact hr
  rw [poolPinOp_still (by rw [h]; exact hm), hp]

theorem poolPinOp_full (hm : r.moving = false) (hn : 255 ≤ r.pins) : poolPinOp d a t = ok (wgSlow t d 10) :=
  poolPinOp_found h hm (if_pos hn)

theorem poolPinOp_many (hm : r.moving = false) (hn : r.pins < 255) (hb : bit (rg t a).toNat 8 = false)
    (hl : 16 ≤ (opCtx t).pins.length) : poolPinOp d a t = ok (wgSlow t d 11) :=
  poolPinOp_found h hm ((if_neg (Nat.not_le.mpr hn)).trans (if_pos (by simp [hb, hl])))

/-- POOL.PIN of a region that takes a pin. -/
theorem poolPinOp_pins (hm : r.moving = false) (hn : r.pins < 255)
    (hl : bit (rg t a).toNat 8 = true ∨ (opCtx t).pins.length < 16) :
    poolPinOp d a t = ok (wgSlow (addPin t t.cur (opCtx t).gen (rg t a).toNat (some hd)) d
      (w64 (localAddr (agentNo t.cur.agent) r.base))) :=
  poolPinOp_found h hm ((if_neg (Nat.not_le.mpr hn)).trans (if_neg fun hmany => by
    simp only [Bool.and_eq_true, Bool.not_eq_true', decide_eq_true_eq] at hmany
    exact hl.elim (by simp [hmany.1]) (Nat.not_lt.mpr hmany.2)))

theorem poolPinOp_persistent (hm : r.moving = false) (hn : r.pins < 255) (hb : bit (rg t a).toNat 8 = true) :
    poolPinOp d a t = ok (wgSlow (modRegion t t.cur.agent hd fun r => { r with pins := r.pins + 1, lost := false }) d
      (w64 (localAddr (agentNo t.cur.agent) r.base))) := by
  rw [poolPinOp_pins h hm hn (.inl hb)]
  simp only [addPin, hb, if_pos]

theorem poolPinOp_own (hm : r.moving = false) (hn : r.pins < 255) (hb : bit (rg t a).toNat 8 = false)
    (hl : (opCtx t).pins.length < 16) :
    poolPinOp d a t = ok (wgSlow (modActivation (modRegion t t.cur.agent hd fun r => { r with pins := r.pins + 1, lost := false })
      t.cur (opCtx t).gen fun c => { c with pins := hd :: c.pins }) d (w64 (localAddr (agentNo t.cur.agent) r.base))) := by
  rw [poolPinOp_pins h hm hn (.inr hl)]
  simp only [addPin, hb, if_neg Bool.false_ne_true]

theorem poolUnpinOp_own (hb : bit (rg t a).toNat 8 = false) (hp : hd ∈ (opCtx t).pins) :
    poolUnpinOp d a t = ok (wgSlow (modCur (modRegion t t.cur.agent hd fun r => { r with pins := r.pins - 1 })
      fun c => { c with pins := c.pins.erase hd }) d 0) := by
  simp [poolUnpinOp, h, hb, hp]

theorem poolUnpinOp_persistent (hb : bit (rg t a).toNat 8 = true) (hp : actPins t t.cur.agent hd < r.pins) :
    poolUnpinOp d a t = ok (wgSlow (modRegion t t.cur.agent hd fun r => { r with pins := r.pins - 1 }) d 0) := by
  simp [poolUnpinOp, h, hb, hp]

theorem poolUnpinOp_unheld (hp : if bit (rg t a).toNat 8 then r.pins ≤ actPins t t.cur.agent hd else hd ∉ (opCtx t).pins) :
    poolUnpinOp d a t = ok (wgSlow t d 12) := by
  cases hb : bit (rg t a).toNat 8 with
  | true =>
    rw [hb, if_pos rfl] at hp
    simp [poolUnpinOp, h, hb, hp]
  | false =>
    rw [hb, if_neg Bool.false_ne_true] at hp
    simp [poolUnpinOp, h, hb, hp]

end

theorem poolUnpinOp_unknown (h : pinned t a = none) : poolUnpinOp d a t = ok (wgSlow t d 9) := by
  simp only [poolUnpinOp, h]

/-! ### The deprecated forms -/

/-- A deprecated form raises cause 0x3E where STATUS.COMPAT is 0. -/
theorem raises_of_old {i : Instr} {body : Effect} (hi : exec i s = issueOld (form i) body s) (hc : (opCtx s).st 9 = false) :
    Raises i s 0x3E (encTval (form i).word 0 false) := hi.trans (if_neg (by rw [hc]; exact Bool.false_ne_true))

/-- A deprecated form commits with its effect where STATUS.COMPAT is 1. -/
theorem commits_of_old {i : Instr} {body : Effect} {u : Done} (hi : exec i s = issueOld (form i) body s)
    (h : Ready (form i) s t) (hc : (opCtx s).st 9 = true) (hb : body t = .ok u) : Commits i s u :=
  commits_of_effect (hi.trans (if_pos hc)) h hb

theorem ldmOp_ok {n : Nat} {u : State} (h0 : stepsDone t = 0)
    (h : microSteps (fun i s => load s (rg t a + w64 (8 * i)) 8 (.load (Fin.ofNat 32 (d.val + i)) 3)) 0 n 0 t = .ok u) :
    ldmOp d a n t = ok u := by
  simp only [ldmOp, h0, Nat.sub_zero, h]
  rfl

theorem stmOp_ok {n : Nat} {u : State} (h0 : stepsDone t = 0)
    (h : microSteps (fun i s => store s (rg t a + w64 (8 * i)) (bytesOf (rg s (Fin.ofNat 32 (d.val + i))).toNat 8)) 0 n 0 t = .ok u) :
    stmOp d a n t = ok u := by
  simp only [stmOp, h0, Nat.sub_zero, h]
  rfl

/-! ### The obligation -/

/-- Settles O39: POOL.SET, POOL.QRY, POOL.PIN and POOL.UNPIN by the outcomes of their effects, and the deprecated forms by theirs. -/
theorem poolAndDeprecatedFormsAnswer : Obligations.PoolAndDeprecatedFormsAnswer := by
  unfold Obligations.PoolAndDeprecatedFormsAnswer
  intro d a b
  have hset := exec_poolSet d a
  have hqry := exec_poolQry d a
  have hpin := exec_poolPin d a
  have hunpin := exec_poolUnpin d a
  exact ⟨answersIf_of_effect hset fun _ => poolSetOp_refused, answersIf_of_effect hset fun _ h => poolSetOp_held h.1 h.2,
    fun _ _ => poolSet_reshapes, fun t k => ⟨fun h => congrArg Prod.fst (firstRefusal_of_sum h),
      fun hs h => congrArg Prod.fst (firstRefusal_of_few hs h),
      fun hs h2 h24 h => congrArg Prod.fst (firstRefusal_of_reshape hs h2 h24 h)⟩,
    answersIf_of_effect hqry fun _ => poolQryOp_counts, answersIf_of_effect hqry fun _ => poolQryOp_header,
    answersIf_of_effect hqry fun _ h => poolQryOp_bank h.1 h.2, answersIf_of_effect hqry fun _ => poolQryOp_slate,
    answersIf_of_effect hqry fun _ => poolQryOp_occupancy, raisesIf_of_effect hqry fun _ => poolQryOp_bad,
    answersIf_of_effect hpin fun _ => poolPinOp_unknown, answersIf_of_effect hunpin fun _ => poolUnpinOp_unknown,
    fun _ _ => answersIf_of_effect hpin fun _ ⟨h, hm, hn⟩ => poolPinOp_full h hm hn,
    fun _ _ => answersIf_of_effect hpin fun _ ⟨h, hm, hn, hb, hl⟩ => poolPinOp_many h hm hn hb hl,
    fun _ _ => answersIf_of_effect hpin fun _ ⟨h, hm, hn, hb⟩ => poolPinOp_persistent h hm hn hb,
    fun _ _ => answersIf_of_effect hpin fun _ ⟨h, hm, hn, hb, hl⟩ => poolPinOp_own h hm hn hb hl,
    fun _ _ => answersIf_of_effect hpin fun _ ⟨h, hm⟩ => poolPinOp_moving h hm,
    fun _ _ => answersIf_of_effect hunpin fun _ ⟨h, hb, hp⟩ => poolUnpinOp_own h hb hp,
    fun _ _ => answersIf_of_effect hunpin fun _ ⟨h, hb, hp⟩ => poolUnpinOp_persistent h hb hp,
    fun _ _ => answersIf_of_effect hunpin fun _ ⟨h, hp⟩ => poolUnpinOp_unheld h hp,
    fun n => ⟨fun s hc => ⟨raises_of_old (exec_ldm d a n s) hc, raises_of_old (exec_stm d a n s) hc,
      raises_of_old (exec_vdotI8 d a b s) hc, raises_of_old (exec_maca d a b s) hc⟩,
      fun s _ h hc => commits_of_old (exec_vdotI8 d a b s) h hc rfl, fun s _ h hc => commits_of_old (exec_maca d a b s) h hc rfl,
      fun s _ _ h hc h0 hu => commits_of_old (exec_ldm d a n s) h hc (ldmOp_ok h0 hu),
      fun s _ _ h hc h0 hu => commits_of_old (exec_stm d a n s) h hc (stmOp_ok h0 hu)⟩⟩

end Sys2Proof.Proofs
end

section
/-! From the own effect of a vector instruction to its commit (R29, R65): an instruction that a sequence may hold issues as
every other, and its flags are set before its result. -/

namespace Sys2Proof.Proofs

open Sys2Proof.Machine Sys2Proof.Laws

section
variable {i : Instr} {cap : Option Instr} {body : Effect}

theorem commits_of_issueWith {s t : State} {e : Done} (hi : exec i s = issueWith (form i) cap body s) (h : Ready (form i) s t)
    (hb : body t = .ok e) : Commits i s e := hi.trans (issueWith_commits h hb)

theorem answers_of_issueWith {eff : State → Done} (hi : ∀ s, exec i s = issueWith (form i) cap body s)
    (hb : ∀ t, body t = .ok (eff t)) : Answers i eff := fun s t h => commits_of_issueWith (hi s) h (hb t)

/-- Where no enabled flag arises, the result is written over the state that holds the flags. -/
theorem commits_of_flags {s t u : State} {l : List FpFlags} {result : State → State}
    (hi : exec i s = issueWith (form i) cap body s) (h : Ready (form i) s t)
    (hb : body t = (setFlags t l).bind fun v => ok (result v)) (hu : setFlags t l = .ok u) : Commits i s (goesOn (result u)) :=
  commits_of_issueWith hi h (by rw [hb, hu]; rfl)

theorem fpAnswers_of_fpVec {d : FReg} {r : State → Vec × List FpFlags} (hi : ∀ s, exec i s = issueWith (form i) cap body s)
    (hb : ∀ t, body t = fpVec t d (r t)) : FpAnswers i d r :=
  fun s t _ h hu => commits_of_flags (hi s) h (hb t) hu

/-- A result whose lanes set no flag leaves FPCTL with what it holds. -/
theorem answers_of_fpVec {d : FReg} {v : State → Vec} {l : State → List FpFlags}
    (hi : ∀ s, exec i s = issueWith (form i) cap body s) (hb : ∀ t, body t = fpVec t d (v t, l t))
    (hl : ∀ t, allFlags (l t) = 0) : Answers i fun t => goesOn (wfSlow (modCur t (·.orFlags 0)) d (v t)) := by
  intro s t h
  have harise (bits : Nat) : enabledArising t (l t) bits = 0 := by simp [enabledArising, hl]
  have hset := setFlags_sticky (harise 8) (harise 4) (harise 2) (harise 1)
  rw [hl] at hset
  exact commits_of_flags (hi s) h (hb t) hset

end

end Sys2Proof.Proofs
end

section
/-! PROOF of O18. The VFP, VFMA and VSFU instructions have three shapes, each with its function of the lanes. -/

namespace Sys2Proof.Proofs

open Sys2Proof.Machine Sys2Proof.Laws

section
variable {i : Instr} {cap : Option Instr} {d a b c : FReg}

theorem fpAnswers_vfp2 {l : Lanes} (op : State → Fmt → Machine.Num → Machine.Num → Nat × FpFlags)
    (hi : ∀ s, exec i s = issueWith (form i) cap (fun t => vfp2 l (op t) d a b t) s) :
    FpAnswers i d fun t => vfpLanes l (op t) a b t := fpAnswers_of_fpVec hi fun _ => rfl

theorem fpAnswers_vfma {negP negC : Bool} (hi : ∀ s, exec i s = issueWith (form i) cap (vfmaOp negP negC d a b c) s) :
    FpAnswers i d (fmaLanes negP negC a b c) := fpAnswers_of_fpVec hi fun _ => rfl

theorem fpAnswers_sfu {op : Sfu} (hi : ∀ s, exec i s = issueWith (form i) cap (sfuOp op d a) s) :
    FpAnswers i d (sfuLanes op a) := fpAnswers_of_fpVec hi fun _ => rfl

end

/-- Settles O18: each instruction has one of the shapes, with its function. -/
theorem vectorFloatsAnswer : Obligations.VectorFloatsAnswer := fun l r d a b c => ⟨
  fpAnswers_vfp2 (fun t => rounded t r addNum) (exec_vadd l r d a b),
  fpAnswers_vfp2 (fun t => rounded t r fun m x y => addNum m x y.flip) (exec_vsub l r d a b),
  fpAnswers_vfp2 (fun t => rounded t r fun _ => mulNum) (exec_vmul l r d a b),
  fpAnswers_vfp2 (fun t => rounded t r fun _ => divNum) (exec_vdiv l r d a b),
  fpAnswers_vfp2 (fun t => rounded t r fun _ x _ => sqrtNum x) (exec_vsqrt l r d a),
  fpAnswers_vfp2 (fun _ f => pickNum f false) (exec_vmin l d a b),
  fpAnswers_vfp2 (fun _ f => pickNum f true) (exec_vmax l d a b),
  fpAnswers_vfma (exec_vfma d a b c),
  fpAnswers_vfma (exec_vfms d a b c),
  fpAnswers_vfma (exec_vfnma d a b c),
  fpAnswers_vfma (exec_vfnms d a b c),
  fpAnswers_sfu (exec_vrcp d a),
  fpAnswers_sfu (exec_vrsq d a),
  fpAnswers_sfu (exec_vexp2 d a),
  fpAnswers_sfu (exec_vlog2 d a),
  fpAnswers_sfu (exec_vtanh d a),
  fpAnswers_sfu (exec_vsigm d a)⟩

end Sys2Proof.Proofs
end

section
/-! PROOF of O19. An element of a packed vector is the element that was packed (R147); a lane of VABS or VNEG is its new sign
bit over the other bits. -/

namespace Sys2Proof.Proofs

open Sys2Proof.Machine Sys2Proof.Laws

/-! ### The elements of a vector register -/

theorem elem_lt (w : Nat) (v : Vec) (i : Nat) : elem w v i < 2 ^ w := Nat.mod_lt _ (Nat.two_pow_pos w)

@[simp] theorem length_elems (w : Nat) (v : Vec) : (elems w v).length = 512 / w := by simp [elems]

theorem getElem_elems {w i : Nat} {v : Vec} (h : i < (elems w v).length) : (elems w v)[i] = elem w v i := by simp [elems]

theorem mod_two_pow_lt {w : Nat} (l : List Nat) : ∀ x ∈ l.map (· % 2 ^ w), x < 2 ^ w := by
  simpa using fun a _ => Nat.mod_lt a (Nat.two_pow_pos w)

/-- A packed vector is the number whose digits are the elements. -/
theorem toNat_packElems {w : Nat} {l : List Nat} (hw : 0 < w) (h : w * l.length ≤ 512) :
    (packElems w l).toNat = Nat.ofDigits (2 ^ w) (l.map (· % 2 ^ w)) := by
  have hdigits := Nat.ofDigits_lt_base_pow_length (Nat.one_lt_two_pow (Nat.ne_of_gt hw)) (mod_two_pow_lt l)
  rw [List.length_map, ← Nat.pow_mul] at hdigits
  have hlt := hdigits.trans_le ((Nat.pow_le_pow_iff_right Nat.one_lt_two).mpr h)
  have hfold : l.foldr (fun x a => x % 2 ^ w + 2 ^ w * a) 0 = Nat.ofDigits (2 ^ w) (l.map (· % 2 ^ w)) := by
    simp [Nat.ofDigits_eq_foldr, List.foldr_map]
  rw [packElems, hfold, BitVec.toNat_ofNat, Nat.mod_eq_of_lt hlt]

theorem elem_packElems {w i : Nat} {l : List Nat} (hw : 0 < w) (h : w * l.length ≤ 512) (hi : i < l.length) :
    elem w (packElems w l) i = l[i] % 2 ^ w := by
  have hi' : i < (l.map (· % 2 ^ w)).length := by simpa using hi
  rw [elem, toNat_packElems hw h, Nat.pow_mul, Nat.ofDigits_div_pow_eq_ofDigits_drop i (Nat.two_pow_pos w) _ (mod_two_pow_lt l),
    List.drop_eq_getElem_cons hi', Nat.ofDigits_cons]
  simp

/-- A lane of a function applied lane by lane. -/
theorem elem_packElems_map {w i : Nat} (f : Nat → Nat) (v : Vec) (hw : 0 < w) (hi : i < 512 / w) :
    elem w (packElems w ((elems w v).map f)) i = f (elem w v i) % 2 ^ w := by
  have hlen : ((elems w v).map f).length = 512 / w := by simp
  rw [elem_packElems hw (hlen ▸ Nat.mul_div_le 512 w) (hlen ▸ hi), List.getElem_map, getElem_elems]

/-! ### VABS and VNEG -/

/-- A lane of VFP is a sign bit above the other bits of its format (Table 2.7). -/
theorem lanesFmt_width (l : Lanes) : (lanesFmt l).2 = (lanesFmt l).1.low + 1 := by cases l <;> rfl

/-- The parts of a code with a sign bit and the bits below it. -/
theorem signed_parts {low sign rest : Nat} (hs : sign ≤ 1) (hr : rest < 2 ^ low) :
    (sign * 2 ^ low + rest) % 2 ^ (low + 1) / 2 ^ low = sign ∧ (sign * 2 ^ low + rest) % 2 ^ (low + 1) % 2 ^ low = rest := by
  have hle : sign * 2 ^ low ≤ 1 * 2 ^ low := Nat.mul_le_mul_right _ hs
  have hlt : sign * 2 ^ low + rest < 2 ^ (low + 1) := by rw [Nat.pow_succ]; omega
  rw [Nat.mod_eq_of_lt hlt]
  refine ⟨?_, ?_⟩
  · rw [Nat.mul_comm, Nat.mul_add_div (Nat.two_pow_pos low), Nat.div_eq_of_lt hr, Nat.add_zero]
  · rw [Nat.mul_add_mod', Nat.mod_eq_of_lt hr]

/-- The lanes of a sign operation as `vsign` computes them set no flag. -/
theorem vsign_eq_fpVec {op : Bool → Bool} {sign : Nat → Nat} (hop : ∀ n i : Nat, b2n (op (bit n i)) = sign (n / 2 ^ i % 2))
    (l : Lanes) (d a : FReg) (t : State) :
    vsign l op d a t = fpVec t d (signLanes l sign a t, (elems (lanesFmt l).2 (rf t a)).map fun _ => 0) := by
  simp only [vsign, signLanes, map1, List.map_map, Function.comp_def, hop, Bool.and_eq_true, beq_iff_eq]

theorem allFlags_zeros (l : List Nat) : allFlags (l.map fun _ => 0) = 0 := by
  simp only [allFlags, List.foldl_map, Nat.or_zero, List.foldl_fixed]

theorem answers_vsign {i : Instr} {cap : Option Instr} {l : Lanes} {op : Bool → Bool} {d a : FReg} {sign : Nat → Nat}
    (hop : ∀ n i : Nat, b2n (op (bit n i)) = sign (n / 2 ^ i % 2))
    (hi : ∀ s, exec i s = issueWith (form i) cap (vsign l op d a) s) :
    Answers i fun t => goesOn (wfSlow (modCur t (·.orFlags 0)) d (signLanes l sign a t)) :=
  answers_of_fpVec hi (vsign_eq_fpVec hop l d a) fun _ => allFlags_zeros _

theorem b2n_not_bit (n i : Nat) : b2n (!bit n i) = 1 - n / 2 ^ i % 2 := by
  rw [bit, Nat.testBit_eq_decide_div_mod_eq]
  by_cases h : n / 2 ^ i % 2 = 1
  · simp [b2n, h]
  · simp [b2n, (Nat.mod_two_ne_one).mp h]

/-- A lane has the new sign, and the other bits that it had but for a subnormal under FTZ. -/
theorem signLanes_parts (l : Lanes) {sign : Nat → Nat} (a : FReg) (t : State) {i x : Nat} (hs : ∀ n, sign n ≤ 1)
    (hi : i < 512 / (lanesFmt l).2) (hx : elem (lanesFmt l).2 (rf t a) i = x) :
    elem (lanesFmt l).2 (signLanes l sign a t) i / 2 ^ (lanesFmt l).1.low = sign (x / 2 ^ (lanesFmt l).1.low) ∧
    elem (lanesFmt l).2 (signLanes l sign a t) i % 2 ^ (lanesFmt l).1.low =
      (if fpFtz (opCtx t) = true ∧ x / 2 ^ (lanesFmt l).1.mb % 2 ^ (lanesFmt l).1.eb = 0 then 0 else x % 2 ^ (lanesFmt l).1.low) := by
  have hw := lanesFmt_width l
  have hlt : x < 2 ^ (lanesFmt l).1.low * 2 := by
    rw [← Nat.pow_succ, Nat.succ_eq_add_one, ← hw, ← hx]
    exact elem_lt ..
  have hsign : x / 2 ^ (lanesFmt l).1.low % 2 = x / 2 ^ (lanesFmt l).1.low := Nat.mod_eq_of_lt (Nat.div_lt_of_lt_mul hlt)
  rw [signLanes, elem_packElems_map _ _ (hw ▸ Nat.succ_pos _) hi, hx, hsign, hw]
  refine signed_parts (hs _) ?_
  split
  · exact Nat.two_pow_pos _
  · exact Nat.mod_lt _ (Nat.two_pow_pos _)

/-- Settles O19: both instructions are `vsign` with the function of the sign, and `signLanes_parts` says what its lanes hold. -/
theorem signOperationsAnswer : Obligations.SignOperationsAnswer := fun l d a => ⟨
  answers_vsign (fun _ _ => rfl) (exec_vabs l d a),
  answers_vsign b2n_not_bit (exec_vneg l d a),
  fun t f i hf hi => signLanes_parts l a t hf hi rfl,
  fun c => by simp [Ctx.orFlags, w64]⟩

end Sys2Proof.Proofs
end

section
/-! PROOF of O20 and O21. The model's lists of lanes and of elements are the same, and an instruction of the VINT, VCMP and mask
families is its function over them. -/

namespace Sys2Proof.Proofs

open Sys2Proof.Machine Sys2Proof.Laws

/-! ### Lanes -/

/-- Elements taken in pairs are lanes taken by their number. -/
theorem zipWith_elems {α : Type} (f : Nat → Nat → α) (w : Nat) (u v : Vec) :
    List.zipWith f (elems w u) (elems w v) = (List.range (512 / w)).map fun i => f (elem w u i) (elem w v i) := by
  rw [elems, elems, List.zipWith_map, List.zipWith_self]

theorem vint2_eq (op : BitVec 32 → BitVec 32 → BitVec 32) (d a b : FReg) (t : State) :
    vint2 op d a b t = ok (wfSlow t d (intLanes op a b t)) := by
  rw [vint2, zipWith_elems]
  rfl

/-- Bits [63:32] of a product (Table 7.7): the high half of the 64-bit word that the signed product is. -/
theorem mulh32_eq (x y : BitVec 32) : mulh32 x y = ((x.signExtend 64 * y.signExtend 64) >>> 32).truncate 32 := by
  rw [BitVec.signExtend, BitVec.signExtend, ← BitVec.ofInt_mul]
  apply BitVec.eq_of_toNat_eq
  simp only [mulh32, BitVec.toNat_ofInt, BitVec.truncate_eq_setWidth, BitVec.toNat_setWidth, BitVec.toNat_ushiftRight,
    Nat.shiftRight_eq_div_pow]
  omega

theorem answers_vint2 {i : Instr} {cap : Option Instr} {d a b : FReg} (op : BitVec 32 → BitVec 32 → BitVec 32)
    (hi : ∀ s, exec i s = issueWith (form i) cap (vint2 op d a b) s) :
    Answers i fun t => goesOn (wfSlow t d (intLanes op a b t)) := answers_of_issueWith hi (vint2_eq op d a b)

theorem answers_vmulhI (d a b : FReg) : Answers (.vmulhI d a b) fun t => goesOn (wfSlow t d
    (intLanes (fun x y => ((x.signExtend 64 * y.signExtend 64) >>> 32).truncate 32) a b t)) := by
  have h : (fun x y : BitVec 32 => ((x.signExtend 64 * y.signExtend 64) >>> 32).truncate 32) = mulh32 := by
    funext x y
    exact (mulh32_eq x y).symm
  rw [h]
  exact answers_vint2 mulh32 (exec_vmulhI d a b)

/-- Settles O20: all but VDOT4.I8 are `vint2` with their function, and VMULH.I's is `mulh32_eq`. -/
theorem vectorIntegersAnswer : Obligations.VectorIntegersAnswer := fun d a b => ⟨
  answers_vint2 (· + ·) (exec_vaddI d a b),
  answers_vint2 (· - ·) (exec_vsubI d a b),
  answers_vint2 (· * ·) (exec_vmulI d a b),
  answers_vmulhI d a b,
  answers_vint2 (· &&& ·) (exec_vand d a b),
  answers_vint2 (· ||| ·) (exec_vor d a b),
  answers_vint2 (· ^^^ ·) (exec_vxor d a b),
  answers_vint2 (fun x y => x <<< amount32 y) (exec_vshl d a b),
  answers_vint2 (fun x y => x >>> amount32 y) (exec_vshr d a b),
  answers_vint2 (fun x y => x.sshiftRight (amount32 y)) (exec_vsra d a b),
  answers_vint2 (fun x y => if x.toInt ≤ y.toInt then x else y) (exec_vminI d a b),
  answers_vint2 (fun x y => if x.toInt ≤ y.toInt then y else x) (exec_vmaxI d a b),
  answers_vint2 (fun x y => if x.toNat ≤ y.toNat then x else y) (exec_vminuI d a b),
  answers_vint2 (fun x y => if x.toNat ≤ y.toNat then y else x) (exec_vmaxuI d a b),
  answers_of_issueWith (exec_vdot4I8 d a b) fun _ => rfl⟩

/-! ### Compares, selection and masks -/

theorem answers_wm {i : Instr} {cap : Option Instr} {q : MReg} (v : State → BitVec 16)
    (hi : ∀ s, exec i s = issueWith (form i) cap (fun t => ok (wm t q (v t))) s) : Answers i fun t => goesOn (wm t q (v t)) :=
  answers_of_issueWith hi fun _ => rfl

/-- VSEL takes an element of the one or of the other register (Table 7.8). -/
theorem vselOp_eq (d a : FReg) (w : MReg) (t : State) : vselOp d a w t = ok (wfSlow t d (packElems 32 ((List.range 16).map fun i =>
    if (rm t w).getLsbD i then elem 32 (rf t a) i else elem 32 (rf t d) i))) := by
  have hlane (i : Nat) := apply_ite (elem 32 · i) ((rm t w).getLsbD i = true) (rf t a) (rf t d)
  simp only [vselOp, hlane]

/-- Settles O21: a compare of floating-point lanes sets its flags first, and every other form is its function. -/
theorem comparesAndMasksAnswer : Obligations.ComparesAndMasksAnswer := fun c d a b q x w g => ⟨
  answers_of_issueWith (exec_vsel d a w) (vselOp_eq d a w),
  answers_wm (fun t => rm t x &&& rm t w) (exec_mand q x w),
  answers_wm (fun t => rm t x ||| rm t w) (exec_mor q x w),
  answers_wm (fun t => rm t x ^^^ rm t w) (exec_mxor q x w),
  answers_wm (fun t => ~~~ rm t x) (exec_mnot q x),
  answers_wm (fun t => rm t x) (exec_mmov q x),
  answers_wm (fun t => (rg t g).truncate 16) (exec_mset q g),
  answers_of_issueWith (exec_mpopc g x) fun _ => rfl,
  answers_of_issueWith (exec_vcmp .i32 c q a b) fun _ => rfl,
  answers_of_issueWith (exec_vcmp .u32 c q a b) fun _ => rfl,
  fun s _ _ h hu => commits_of_flags (exec_vcmp .f32 c q a b s) h rfl hu,
  fun s _ _ h hu => commits_of_flags (exec_vcmp .bf16 c q a b s) h rfl hu⟩

end Sys2Proof.Proofs
end

section
/-! PROOF of O22. A conversion is one list of lanes for each of its four kinds (Table 7.10); every other instruction is its
function of the operands. -/

namespace Sys2Proof.Proofs

open Sys2Proof.Machine Sys2Proof.Laws

/-! ### Conversions -/

section
variable {code : Nat} (d a : FReg) (mode : Nat → RMode) (t : State)

theorem convert_toInt : convert 0 d a mode t = fpVec t d (cvtLanes 0 d a mode t) := by
  simp [convert, cvtLanes, Function.comp_def]

theorem convert_ofInt : convert 1 d a mode t = fpVec t d (cvtLanes 1 d a mode t) := by
  simp [convert, cvtLanes]

theorem convert_widens (h : 1 < code) (hw : widens code = true) : convert code d a mode t = fpVec t d (cvtLanes code d a mode t) := by
  have h0 : code ≠ 0 := by omega
  have h1 : code ≠ 1 := by omega
  simp [convert, cvtLanes, h0, h1, hw]

theorem convert_narrows (h : 1 < code) (hw : widens code = false) :
    convert code d a mode t = fpVec t d (cvtLanes code d a mode t) := by
  have h0 : code ≠ 0 := by omega
  have h1 : code ≠ 1 := by omega
  simp [convert, cvtLanes, h0, h1, hw, Nat.not_le.mpr h]

/-- A conversion gives the lanes of its kind. -/
theorem convert_eq (code : Nat) : convert code d a mode t = fpVec t d (cvtLanes code d a mode t) := by
  match code with
  | 0 => exact convert_toInt ..
  | 1 => exact convert_ofInt ..
  | code + 2 =>
    cases hw : widens (code + 2) with
    | true => exact convert_widens _ _ _ _ (by omega) hw
    | false => exact convert_narrows _ _ _ _ (by omega) hw

end

/-! ### Moves, reductions and scans -/

section
variable {i : Instr} {cap : Option Instr} {d : FReg}

theorem answers_wfSlow (v : State → Vec) (hi : ∀ s, exec i s = issueWith (form i) cap (fun t => ok (wfSlow t d (v t))) s) :
    Answers i fun t => goesOn (wfSlow t d (v t)) := answers_of_issueWith hi fun _ => rfl

theorem fpAnswers_convert {code : Nat} {a : FReg} (mode : State → Nat → RMode)
    (hi : ∀ s, exec i s = issueWith (form i) cap (fun t => convert code d a (mode t) t) s) :
    FpAnswers i d fun t => cvtLanes code d a (mode t) t := fpAnswers_of_fpVec hi fun t => convert_eq d a (mode t) t code

end

/-- A reduction is one scalar, whose flags are set first. -/
theorem vredOp_eq (op : RedOp) (g : GReg) (a : FReg) (t : State) :
    vredOp op g a t = (setFlags t [(redLevels (redStep t op) 4 (elems 32 (rf t a)) 0).2]).bind fun u =>
      ok (wgSlow u g (w64 (redLevels (redStep t op) 4 (elems 32 (rf t a)) 0).1)) := rfl

/-- Settles O22: a reduction sets its flags before its scalar, a scan and a conversion before their lanes. -/
theorem vectorMovesAndConversionsAnswer : Obligations.VectorMovesAndConversionsAnswer := fun op k d a b g h n => ⟨
  answers_of_issueWith (exec_vmov d a) fun _ => rfl,
  answers_wfSlow (fun t => packElems 32 (List.replicate 16 ((rg t g).toNat % 2 ^ 32))) (exec_vbcast d g),
  answers_of_issueWith (exec_vext g a n) fun _ => rfl,
  answers_wfSlow (fun t => setLane (rf t d) n ((rg t g).toNat % 2 ^ 32)) (exec_vins d g n),
  answers_wfSlow (fun t => packElems 32 ((elems 32 (rf t b)).map fun x => elem 32 (rf t a) (x % 16))) (exec_vperm d a b),
  answers_of_issueWith (exec_vrand d g h) fun _ => rfl,
  fun s _ _ h hu => commits_of_flags (result := (wgSlow · g _)) (exec_vred op g a s) h (vredOp_eq op g a _) hu,
  fpAnswers_of_fpVec (exec_vscan op d a) fun _ => rfl,
  fpAnswers_convert (fun t _ => fpRm (opCtx t)) (exec_vcvt k d a),
  fpAnswers_convert (fun t i => .sr (elem 32 (rf t b) i)) (exec_vcvtSr k d a b)⟩

end Sys2Proof.Proofs
end

section
/-! PROOF of O24. The sequencer (R158 to R161): the words of VSEQ set it up, and one step of a replay runs the instruction that it
stands at, as long as nothing makes that instruction wait. -/

namespace Sys2Proof.Proofs

open Sys2Proof.Machine Sys2Proof.Laws

/-! ### Capture -/

theorem vseqOp_eq (g : GReg) (n : Nat) (t : State) : vseqOp g n t = ok (modCur t fun c =>
    { c with seqr := some ⟨[], n, (rg t g).toNat % 2 ^ 32, none, 0, false, false⟩ }) := by
  rw [vseqOp, lo32, BitVec.truncate_eq_setWidth, BitVec.toNat_setWidth]

theorem vseqSOp_bound {r : SReg} {t : State} (n : Nat) (h : (streamOf (opCtx t) (Fin.ofNat 32 r.val)).isSome = true) :
    vseqSOp r n t = ok (modCur t fun c => { c with seqr := some ⟨[], n, 0, some r, 0, false, false⟩ }) := by
  obtain ⟨st, hst⟩ := Option.isSome_iff_exists.mp h
  rw [vseqSOp, hst]

theorem vseqSOp_unbound {r : SReg} {t : State} (n : Nat) (h : streamOf (opCtx t) (Fin.ofNat 32 r.val) = none) :
    vseqSOp r n t = trap 0x0C (w64 (5 + r.val * 256)) := by
  rw [vseqSOp, h]
  rfl

/-! ### Replay -/

/-- The own effect of the instruction that a sequencer stands at, behind the checks of its registers. -/
def replayed (i : Instr) (s : State) : Do Done := do
  presence s (form i).gr
  flightCheck (form i) s
  let s ← writeChecks s (form i).fw.dedup
  readChecks s (form i).fr.dedup
  (seqEffect i).getD ok s

theorem replayed_ok {i : Instr} {s u : State} {e : Effect} {d : Done} (hi : seqEffect i = some e)
    (hp : presence s (form i).gr = .ok ()) (hf : flightCheck (form i) s = .ok ())
    (hw : writeChecks s (form i).fw.dedup = .ok u) (hr : readChecks u (form i).fr.dedup = .ok ()) (he : e u = .ok d) :
    replayed i s = .ok d := by
  simp [replayed, hp, hf, hw, hr, hi, he, Bind.bind, Except.bind]

/-- A step of a replay that runs an instruction other than VSEQ.STOP leaves that instruction's effect, and the sequencer past
it. -/
theorem replayStep_runs {s : State} {k : CtxKey} {q : Seqr} {i : Instr} {pc : Nat} {d : Done}
    (hq : (getCtx s k).seqr = some q) (hc : q.capture = 0) (hs : q.stop = false) (hf : q.faulted = false)
    (hk : (getCtx s k).killed = false) (hend : q.streamEnded (getCtx s k) = false) (hi : q.body[q.at_]? = some (i, pc))
    (hstop : ∀ a, i ≠ .vseqStop a) (hrun : replayed i { s with cur := k, latch := none } = .ok d) :
    replayStep s k = (form i).fr.dedup.foldl popVec (modCur d.s fun x =>
      { x with p := x.p &&& ~~~ consumed (form i) (getCtx s k), seqr := some (q.past false) }) := by
  have hctx : getCtx { s with cur := k, latch := none } k = getCtx s k := rfl
  have hlive : ¬(0 < q.capture ∨ (getCtx s k).killed = true ∨ q.faulted = true) := by simp [hc, hk, hf]
  have hgoes : ¬(q.stop = true ∨ q.streamEnded (getCtx s k) = true) := by simp [hs, hend]
  simp only [replayed] at hrun
  -- `hstop` picks the branch in which the instruction stops nothing.
  simp only [replayStep, hctx, hq, if_neg hlive, if_neg hgoes, hi, hrun]

/-- Settles O24: VSEQ by its effects, VSEQ.STOP and ANOP by theirs, and a step of a replay by `replayStep_runs`. -/
theorem sequencerCapturesAndReplays : Obligations.SequencerCapturesAndReplays := fun g r m n => ⟨
  answers_of_effect (exec_vseq g n) (vseqOp_eq g _),
  answersIf_of_effect (exec_vseqS r n) fun _ => vseqSOp_bound _,
  raisesIf_of_effect (exec_vseqS r n) fun _ => vseqSOp_unbound _,
  answers_of_issueWith (exec_vseqStop m) fun _ => rfl,
  answers_of_issueWith exec_anop fun _ => rfl,
  fun _ _ _ _ _ _ _ _ hq hc hs hf hk hend hi he hstop hp hfl hw hr hd =>
    becomes_of_event (congrArg event
      (replayStep_runs hq hc hs hf hk hend hi hstop (replayed_ok he hp hfl hw hr hd)))⟩

end Sys2Proof.Proofs
end

section
/-! PROOF of O7, O8 and O10. A load or a store is its alignment, the resolution of its address, and an access to the target (R193):
a lemma for each target says what the access leaves, and each form names its size and its offset. -/

namespace Sys2Proof.Proofs

open Sys2Proof.Machine Sys2Proof.Laws

/-! ### Checks that pass -/

section
variable {u : State} {ea : Word} {off a n : Nat}

theorem ownCheck_of_admitted (store : Bool) (h : roleAdmit (curCore u) off n = .yes) : ownCheck u ea off n store = .ok () := by
  simp only [ownCheck, h]

theorem loadCheck_of_sound (h : failedIn u a n = none) : loadCheck u a n = .ok () := by
  simp only [loadCheck, h]

theorem sentLoadCheck_of_sound (dst : Node) (h : failedIn u a n = none) : sentLoadCheck u dst a n = .ok () := by
  simp only [sentLoadCheck, h, Option.isSome_none, Bool.false_and, Bool.false_eq_true, if_false, loadCheck_of_sound h]

end

/-! ### Loads -/

section
variable {t u : State} {ea : Word} {n : Nat} (what : Awaited)

/-- An aligned load is its access to the target that its address resolves to. -/
theorem load_of_resolved {p : Target} (ha : ea.toNat % n = 0) (hr : resolveCur t ea 0 .rd = .ok (u, p)) :
    load t ea n what = loadFrom u p ea n what := by
  simp [load, ha, hr, Bind.bind, Except.bind]

theorem loadFrom_own {off : Nat} (hy : roleAdmit (curCore u) off n = .yes) (hf : failedIn u (ownAddr u off) n = none) :
    loadFrom u (.own off) ea n what = .ok (landNow u what (readN u.mem (ownAddr u off) n)) := by
  rw [ownAddr] at hf ⊢
  simp only [loadFrom, ownCheck_of_admitted false hy, loadCheck_of_sound hf, Bind.bind, Except.bind]

/-- A request finds a free slot of the load-return buffer (R234). -/
theorem request_of_room (dst : Node) (acc : Nat → Access) (h : (curCore u).loads.length < 32) :
    request u dst what acc = .ok (requested u dst what (acc (u.ids + 1))) := by
  rw [request, if_neg (Nat.not_le.mpr h)]
  rfl

theorem loadFrom_afar {p : Target} (hp : p.afar u) (hf : failedIn u (p.addr u.cur.agent) n = none)
    (hl : (curCore u).loads.length < 32) :
    loadFrom u p ea n what = .ok (requested u (p.node u u.cur.agent) what
      (mkAccess u (u.ids + 1) (.ld n) (p.addr u.cur.agent) ea.toNat none p.policy)) := by
  cases p with
  | own off => exact hp.elim
  | pool c off =>
    simp only [Target.addr] at hf
    simp only [loadFrom, sentLoadCheck_of_sound _ hf, Bind.bind, Except.bind, request_of_room what _ _ hl]
    rfl
  | phys pa pol lvl =>
    simp only [Target.afar] at hp
    simp only [Target.addr] at hf
    simp only [loadFrom, if_neg hp, sentLoadCheck_of_sound _ hf, Bind.bind, Except.bind, request_of_room what _ _ hl]
    rfl

theorem loadFrom_hit {pa lvl v : Nat} (hs : servesL1 u u.cur.agent pa = true) (hv : l1Read (curCore u) pa n = some v) :
    loadFrom u (.phys pa 0 lvl) ea n what = .ok (landNow (allocLine u u.cur.agent (lineOf pa)).1 what v) := by
  simp only [loadFrom, hs, and_self, if_true, hv]

end

section
variable {i : Instr} {code : Nat} {d a : GReg} {off : Word} (hi : ∀ s, exec i s = issue (form i) (loadOp code d a off) s)
include hi

/-- A load form commits with what its load leaves. -/
theorem commits_of_load {s t u : State} (h : Ready (form i) s t)
    (hl : load t (effAddr t a off) (codeBytes code) (.load d code) = .ok u) : Commits i s (goesOn u) :=
  commits_of_effect (hi s) h (by rw [loadOp, hl]; rfl)

theorem loadsOwn_of_loadOp : LoadsOwn i (effAddr · a off) (codeBytes code) (.load d code) :=
  fun _ _ _ _ h ⟨ha, hr, hy⟩ hf => commits_of_load hi h ((load_of_resolved _ ha hr).trans (loadFrom_own _ hy hf))

theorem loadsAfar_of_loadOp : LoadsAfar i (effAddr · a off) (codeBytes code) (.load d code) :=
  fun _ _ _ _ h ha hr hp hf hl => commits_of_load hi h ((load_of_resolved _ ha hr).trans (loadFrom_afar _ hp hf hl))

theorem loadsHit_of_loadOp : LoadsHit i (effAddr · a off) (codeBytes code) (.load d code) :=
  fun _ _ _ _ _ _ h ha hr hs hv => commits_of_load hi h ((load_of_resolved _ ha hr).trans (loadFrom_hit _ hs hv))

end

/-- Settles O7: each load form is `loadOp` with its size code. -/
theorem loadsOfTheOwnPoolAnswer : Obligations.LoadsOfTheOwnPoolAnswer := fun d a o j => ⟨
  loadsOwn_of_loadOp (exec_ldb d a o), loadsOwn_of_loadOp (exec_ldbLong d a j),
  loadsOwn_of_loadOp (exec_ldh d a o), loadsOwn_of_loadOp (exec_ldhLong d a j),
  loadsOwn_of_loadOp (exec_ldw d a o), loadsOwn_of_loadOp (exec_ldwLong d a j),
  loadsOwn_of_loadOp (exec_ldd d a o), loadsOwn_of_loadOp (exec_lddLong d a j),
  loadsOwn_of_loadOp (exec_ldbu d a o), loadsOwn_of_loadOp (exec_ldbuLong d a j),
  loadsOwn_of_loadOp (exec_ldhu d a o), loadsOwn_of_loadOp (exec_ldhuLong d a j),
  loadsOwn_of_loadOp (exec_ldwu d a o), loadsOwn_of_loadOp (exec_ldwuLong d a j),
  loadsOwn_of_loadOp (exec_ldq d a o), loadsOwn_of_loadOp (exec_ldqLong d a j)⟩

/-- Settles O8: the same forms, where the target is another home or a line of the L1. -/
theorem loadsElsewhereAnswer : Obligations.LoadsElsewhereAnswer := fun d a o j => ⟨
  loadsAfar_of_loadOp (exec_ldb d a o), loadsHit_of_loadOp (exec_ldb d a o),
  loadsAfar_of_loadOp (exec_ldbLong d a j), loadsHit_of_loadOp (exec_ldbLong d a j),
  loadsAfar_of_loadOp (exec_ldh d a o), loadsHit_of_loadOp (exec_ldh d a o),
  loadsAfar_of_loadOp (exec_ldhLong d a j), loadsHit_of_loadOp (exec_ldhLong d a j),
  loadsAfar_of_loadOp (exec_ldw d a o), loadsHit_of_loadOp (exec_ldw d a o),
  loadsAfar_of_loadOp (exec_ldwLong d a j), loadsHit_of_loadOp (exec_ldwLong d a j),
  loadsAfar_of_loadOp (exec_ldd d a o), loadsHit_of_loadOp (exec_ldd d a o),
  loadsAfar_of_loadOp (exec_lddLong d a j), loadsHit_of_loadOp (exec_lddLong d a j),
  loadsAfar_of_loadOp (exec_ldbu d a o), loadsHit_of_loadOp (exec_ldbu d a o),
  loadsAfar_of_loadOp (exec_ldbuLong d a j), loadsHit_of_loadOp (exec_ldbuLong d a j),
  loadsAfar_of_loadOp (exec_ldhu d a o), loadsHit_of_loadOp (exec_ldhu d a o),
  loadsAfar_of_loadOp (exec_ldhuLong d a j), loadsHit_of_loadOp (exec_ldhuLong d a j),
  loadsAfar_of_loadOp (exec_ldwu d a o), loadsHit_of_loadOp (exec_ldwu d a o),
  loadsAfar_of_loadOp (exec_ldwuLong d a j), loadsHit_of_loadOp (exec_ldwuLong d a j),
  loadsAfar_of_loadOp (exec_ldq d a o), loadsHit_of_loadOp (exec_ldq d a o),
  loadsAfar_of_loadOp (exec_ldqLong d a j), loadsHit_of_loadOp (exec_ldqLong d a j)⟩

/-! ### Stores -/

theorem store_of_resolved {t u : State} {ea : Word} {bs : List Byte} {p : Target} (ha : ea.toNat % bs.length = 0)
    (hr : resolveCur t ea 1 .wr = .ok (u, p)) : store t ea bs = storeTo u p ea bs := by
  simp [store, ha, hr, Bind.bind, Except.bind]

section
variable {i : Instr} {code : Nat} {r a : GReg} {off : Word} (hi : ∀ s, exec i s = issue (form i) (storeOp code r a off) s)
include hi

/-- A store form commits with what its store leaves. -/
theorem commits_of_store {s t v : State} (h : Ready (form i) s t)
    (hv : store t (effAddr t a off) (bytesOf (storeValue t code r) (codeBytes code)) = .ok v) : Commits i s (goesOn v) :=
  commits_of_effect (hi s) h (by rw [storeOp, hv]; rfl)

theorem storesOwn_of_storeOp :
    StoresOwn i (effAddr · a off) fun t => bytesOf (storeValue t code r) (codeBytes code) :=
  fun _ _ _ _ h hown => commits_of_store hi h (store_own hown)

theorem storesAfar_of_storeOp :
    StoresAfar i (effAddr · a off) fun t => bytesOf (storeValue t code r) (codeBytes code) :=
  fun _ _ _ _ _ h ha hr hv => commits_of_store hi h ((store_of_resolved ha hr).trans hv)

end

/-- Settles O10: each store form is `storeOp` with its size code. -/
theorem storesAnswer : Obligations.StoresAnswer := fun d a o j => ⟨
  storesOwn_of_storeOp (exec_stb d a o), storesAfar_of_storeOp (exec_stb d a o),
  storesOwn_of_storeOp (exec_stbLong d a j), storesAfar_of_storeOp (exec_stbLong d a j),
  storesOwn_of_storeOp (exec_sth d a o), storesAfar_of_storeOp (exec_sth d a o),
  storesOwn_of_storeOp (exec_sthLong d a j), storesAfar_of_storeOp (exec_sthLong d a j),
  storesOwn_of_storeOp (exec_stw d a o), storesAfar_of_storeOp (exec_stw d a o),
  storesOwn_of_storeOp (exec_stwLong d a j), storesAfar_of_storeOp (exec_stwLong d a j),
  storesOwn_of_storeOp (exec_std d a o), storesAfar_of_storeOp (exec_std d a o),
  storesOwn_of_storeOp (exec_stdLong d a j), storesAfar_of_storeOp (exec_stdLong d a j),
  storesOwn_of_storeOp (exec_stq d a o), storesAfar_of_storeOp (exec_stq d a o),
  storesOwn_of_storeOp (exec_stqLong d a j), storesAfar_of_storeOp (exec_stqLong d a j)⟩

end Sys2Proof.Proofs
end

section
/-! PROOF of O9 and O15. What a returned value leaves in its registers (Table 2.4, R194, R199), and what an atomic leaves at its
location. -/

namespace Sys2Proof.Proofs

open Sys2Proof.Machine Sys2Proof.Laws

/-! ### Values that land -/

/-- The register that is written is present (R104). -/
theorem wg_present_same (c : Ctx) {r : GReg} (v : Word) (h : r ≠ 0) : (c.wg r v).p.getLsbD r.val = true := by
  rw [Ctx.wg, if_neg h, BitVec.getLsbD_or, BitVec.getLsbD_ofNat, Nat.testBit_two_pow_self]
  simp

/-- A presence bit that is set stays set. -/
theorem wg_keeps_present (c : Ctx) (r : GReg) (v : Word) {q : GReg} (h : c.p.getLsbD q.val = true) :
    (c.wg r v).p.getLsbD q.val = true := by
  unfold Ctx.wg
  split
  · exact h
  · simp [h]

/-- Both registers of a pair that is written. -/
theorem wg_pair (c : Ctx) {d : GReg} (v : Nat) (hd : d ≠ 0) (he : d.val % 2 = 0) :
    ((c.wg d (w64 v)).wg (nextReg d) (w64 (v / 2 ^ 64))).g[d] = w64 v ∧
      ((c.wg d (w64 v)).wg (nextReg d) (w64 (v / 2 ^ 64))).g[nextReg d] = w64 (v / 2 ^ 64) :=
  have ⟨hne, hn⟩ := nextReg_of_even he
  ⟨(wg_other _ _ hne.symm).trans (wg_same _ _ hd), wg_same _ _ hn⟩

theorem land_load_pair (c : Ctx) (d : GReg) (v : Nat) :
    c.land (.load d 7) v = (c.wg d (w64 v)).wg (nextReg d) (w64 (v / 2 ^ 64)) := rfl

theorem land_load (c : Ctx) (d : GReg) {code : Nat} (v : Nat) (h : code ≠ 7) :
    c.land (.load d code) v = c.wg d (extend code v) := if_neg h

theorem land_load_g (c : Ctx) {d : GReg} {code : Nat} (v : Nat) (hd : d ≠ 0) (h : code ≠ 7) :
    (c.land (.load d code) v).g[d] = extend code v := by
  rw [land_load c d v h, wg_same c _ hd]

theorem land_load_other (c : Ctx) {d r : GReg} {code : Nat} (v : Nat) (hr : r ≠ d) (hn : code = 7 → r ≠ nextReg d) :
    (c.land (.load d code) v).g[r] = c.g[r] := by
  by_cases h : code = 7
  · subst h
    rw [land_load_pair, wg_other _ _ (hn rfl), wg_other _ _ hr]
  · rw [land_load c d v h, wg_other _ _ hr]

theorem land_load_present (c : Ctx) {d : GReg} (code v : Nat) (hd : d ≠ 0) :
    (c.land (.load d code) v).p.getLsbD d.val = true := by
  by_cases h : code = 7
  · subst h
    rw [land_load_pair]
    exact wg_keeps_present _ _ _ (wg_present_same c _ hd)
  · rw [land_load c d v h]
    exact wg_present_same c _ hd

/-! ### Extension -/

theorem truncate_w64 {n : Nat} (v : Nat) (h : n ≤ 64) : (w64 v).truncate n = BitVec.ofNat n v := by
  simp [w64, BitVec.truncate_eq_setWidth, BitVec.setWidth_ofNat_of_le h]

theorem signExt_w64 {n : Nat} (v : Nat) (h : n ≤ 64) : signExt n (w64 v) = (BitVec.ofNat n v).signExtend 64 := by
  rw [signExt, truncate_w64 v h]

theorem zeroExt_w64 {n : Nat} (v : Nat) (h : n ≤ 64) : zeroExt n (w64 v) = BitVec.ofNat 64 (v % 2 ^ n) := by
  rw [zeroExt, truncate_w64 v h]
  exact BitVec.eq_of_toNat_eq (by simp)

/-- Settles O9: a load's value lands in gd, extended as its size code says, or in the pair. -/
theorem loadedValuesExtend : Obligations.LoadedValuesExtend := by
  intro c d v
  refine ⟨fun hd => ⟨?_, ?_, ?_, ?_, ?_, ?_, ?_, fun he => wg_pair c v hd he⟩, fun code h => ?_,
    fun code r hr hn => land_load_other c v hr hn, fun code hd => land_load_present c code v hd⟩
  · exact (land_load_g c v hd (by decide)).trans (signExt_w64 v (by decide))
  · exact (land_load_g c v hd (by decide)).trans (signExt_w64 v (by decide))
  · exact (land_load_g c v hd (by decide)).trans (signExt_w64 v (by decide))
  · exact land_load_g c v hd (by decide)
  · exact (land_load_g c v hd (by decide)).trans (zeroExt_w64 v (by decide))
  · exact (land_load_g c v hd (by decide)).trans (zeroExt_w64 v (by decide))
  · exact (land_load_g c v hd (by decide)).trans (zeroExt_w64 v (by decide))
  · rw [land_load c 0 v h, wg_zero]

/-! ### What an atomic leaves (R199) -/

/-- The model's signed value of a number of `w` bytes is the library's. -/
theorem amo_signed {w : Nat} (hw : 0 < w) (x : BitVec (8 * w)) :
    (if x.toNat < 2 ^ (8 * w) / 2 then (x.toNat : Int) else (x.toNat : Int) - (2 ^ (8 * w) : Nat)) = x.toInt := by
  have hpow : 2 ^ (8 * w) = 2 * 2 ^ (8 * w - 1)  := (mul_pow_sub_one (by omega) 2).symm
  have hhalf : x.toNat < 2 ^ (8 * w) / 2 ↔ 2 * x.toNat < 2 ^ (8 * w) := by omega
  simp only [BitVec.toInt_eq_toNat_cond, hhalf]

section
variable {w : Nat} (x y e : BitVec (8 * w))

theorem amoNew_add : amoNew .add w x.toNat y.toNat e.toNat = (x + y).toNat := (BitVec.toNat_add x y).symm

theorem amoNew_and : amoNew .and w x.toNat y.toNat e.toNat = (x &&& y).toNat := (BitVec.toNat_and ..).symm

theorem amoNew_or : amoNew .or w x.toNat y.toNat e.toNat = (x ||| y).toNat := (BitVec.toNat_or ..).symm

theorem amoNew_xor : amoNew .xor w x.toNat y.toNat e.toNat = (x ^^^ y).toNat := (BitVec.toNat_xor ..).symm

theorem amoNew_min (hw : 0 < w) : amoNew .min w x.toNat y.toNat e.toNat = (if x.toInt ≤ y.toInt then x else y).toNat := by
  simp only [amoNew, amo_signed hw, apply_ite BitVec.toNat]

theorem amoNew_max (hw : 0 < w) : amoNew .max w x.toNat y.toNat e.toNat = (if x.toInt ≤ y.toInt then y else x).toNat := by
  simp only [amoNew, amo_signed hw, apply_ite BitVec.toNat]

theorem amoNew_minu : amoNew .minu w x.toNat y.toNat e.toNat = (if x.toNat ≤ y.toNat then x else y).toNat := by
  rw [apply_ite BitVec.toNat]
  rfl

theorem amoNew_maxu : amoNew .maxu w x.toNat y.toNat e.toNat = (if x.toNat ≤ y.toNat then y else x).toNat := by
  rw [apply_ite BitVec.toNat]
  rfl

theorem amoNew_cas : amoNew .cas w x.toNat y.toNat e.toNat = (if x = e then y else x).toNat := by
  simp only [amoNew, BitVec.toNat_inj, apply_ite BitVec.toNat]

end

theorem land_amo_word (c : Ctx) {d : GReg} (v : Nat) (hd : d ≠ 0) :
    (c.land (.amo d 4) v).g[d] = (BitVec.ofNat 32 v).signExtend 64 :=
  (wg_same c _ hd).trans (signExt_w64 v (by decide))

theorem land_amo_double (c : Ctx) {d : GReg} (v : Nat) (hd : d ≠ 0) : (c.land (.amo d 8) v).g[d] = w64 v := wg_same c _ hd

theorem land_amo_quad (c : Ctx) {d : GReg} (v : Nat) (hd : d ≠ 0) :
    c.land (.amo d 16) v = (c.wg d (w64 v)).wg (nextReg d) (w64 (v / 2 ^ 64)) := if_neg hd

/-- Settles O15: each operation on numbers is the library's on bit vectors, and the old value lands as a load's does. -/
theorem atomicResults : Obligations.AtomicResults := by
  intro w x y e hw
  have hpos : 0 < w := by omega
  refine ⟨amoNew_add x y e, amoNew_and x y e, amoNew_or x y e, amoNew_xor x y e, amoNew_min x y e hpos, amoNew_max x y e hpos,
    amoNew_minu x y e, amoNew_maxu x y e, rfl, amoNew_cas x y e, fun s r c d v => ⟨⟨rfl, rfl, rfl⟩, fun hd =>
      ⟨land_amo_word c v hd, land_amo_double c v hd, fun he => ?_⟩⟩⟩
  rw [land_amo_quad c v hd]
  exact wg_pair c v hd he

end Sys2Proof.Proofs
end

section
/-! PROOF of O11. Each family checks the alignment of its address before anything else (R193), so a misaligned access is the trap
of that check. -/

namespace Sys2Proof.Proofs

open Sys2Proof.Machine Sys2Proof.Laws

/-! ### The checks of alignment -/

section
variable {t : State} {ea : Word}

theorem load_misaligned {n : Nat} (what : Awaited) (h : ea.toNat % n ≠ 0) : load t ea n what = trap 0x05 ea := if_pos h

theorem store_misaligned {bs : List Byte} (h : ea.toNat % bs.length ≠ 0) : store t ea bs = trap 0x05 ea := if_pos h

theorem feTarget_misaligned (kind : Nat) (need : Need) (h : ea.toNat % 8 ≠ 0) : feTarget t ea kind need = trap 0x05 ea := if_pos h

theorem partTargets_misaligned {n lo : Nat} (store : Bool) (l : List (Nat × Word)) (h : ea.toNat % n ≠ 0) :
    partTargets t n store ((lo, ea) :: l) = trap 0x05 ea := by
  simp only [partTargets, partTarget, if_pos h]
  rfl

end

/-! ### Each family -/

section
variable {i : Instr} {d a b : GReg} {f : FReg} {off : Word} {code : Nat}

theorem raisesIf_of_loadOp (hi : ∀ s, exec i s = issue (form i) (loadOp code d a off) s) :
    RaisesIf i (fun t => (effAddr t a off).toNat % codeBytes code ≠ 0) 0x05 fun t => effAddr t a off :=
  raisesIf_of_effect hi fun t h => by rw [loadOp, load_misaligned _ h]; rfl

theorem raisesIf_of_storeOp (hi : ∀ s, exec i s = issue (form i) (storeOp code d a off) s) :
    RaisesIf i (fun t => (effAddr t a off).toNat % codeBytes code ≠ 0) 0x05 fun t => effAddr t a off :=
  raisesIf_of_effect hi fun t h => by rw [storeOp, store_misaligned (by rwa [length_bytesOf])]; rfl

theorem raisesIf_of_feLoad {op : AOp} (hi : ∀ s, exec i s = issue (form i) (feLoad op d a off) s) :
    RaisesIf i (fun t => (effAddr t a off).toNat % 8 ≠ 0) 0x05 fun t => effAddr t a off :=
  raisesIf_of_effect hi fun t h => by rw [feLoad, feTarget_misaligned _ _ h]; rfl

theorem raisesIf_of_feStf (hi : ∀ s, exec i s = issue (form i) (feStf d a off) s) :
    RaisesIf i (fun t => (effAddr t a off).toNat % 8 ≠ 0) 0x05 fun t => effAddr t a off :=
  raisesIf_of_effect hi fun t h => by rw [feStf, feTarget_misaligned _ _ h]; rfl

theorem raisesIf_of_feNow {op : State → AOp} (hi : ∀ s, exec i s = issue (form i) (feNow a off op) s) :
    RaisesIf i (fun t => (effAddr t a off).toNat % 8 ≠ 0) 0x05 fun t => effAddr t a off :=
  raisesIf_of_effect hi fun t h => by rw [feNow, feTarget_misaligned _ _ h]; rfl

theorem raisesIf_of_feQuery (hi : ∀ s, exec i s = issue (form i) (feQuery d a off) s) :
    RaisesIf i (fun t => (effAddr t a off).toNat % 8 ≠ 0) 0x05 fun t => effAddr t a off :=
  raisesIf_of_effect hi fun t h => by rw [feQuery, feTarget_misaligned _ _ h]; rfl

theorem raisesIf_of_vldOp (hi : ∀ s, exec i s = issue (form i) (vldOp f a off) s) :
    RaisesIf i (fun t => (effAddr t a off).toNat % 64 ≠ 0) 0x05 fun t => effAddr t a off :=
  raisesIf_of_effect hi fun t h => by rw [vldOp, vecLoad, partTargets_misaligned _ _ h]; rfl

theorem raisesIf_of_vstOp (hi : ∀ s, exec i s = issue (form i) (vstOp f a off) s) :
    RaisesIf i (fun t => (effAddr t a off).toNat % 64 ≠ 0) 0x05 fun t => effAddr t a off :=
  raisesIf_of_effect hi fun t h => by rw [vstOp, vecStore, partTargets_misaligned _ _ h]; rfl

theorem raisesIf_of_amoOp {k : AmoK} {p : AmoP} (hi : ∀ s, exec i s = issue (form i) (amoOp k p d a b) s) :
    RaisesIf i (fun t => (rg t a).toNat % amoBytes p.w ≠ 0) 0x05 fun t => rg t a :=
  raisesIf_of_effect hi fun _ h => if_pos h

end

/-- Settles O11: each form by the check of its family. -/
theorem misalignedAccessesTrap : Obligations.MisalignedAccessesTrap := fun d a b f p o j => ⟨
  raisesIf_of_loadOp (exec_ldh d a o), raisesIf_of_loadOp (exec_ldhLong d a j),
  raisesIf_of_loadOp (exec_ldw d a o), raisesIf_of_loadOp (exec_ldwLong d a j),
  raisesIf_of_loadOp (exec_ldd d a o), raisesIf_of_loadOp (exec_lddLong d a j),
  raisesIf_of_loadOp (exec_ldhu d a o), raisesIf_of_loadOp (exec_ldhuLong d a j),
  raisesIf_of_loadOp (exec_ldwu d a o), raisesIf_of_loadOp (exec_ldwuLong d a j),
  raisesIf_of_loadOp (exec_ldq d a o), raisesIf_of_loadOp (exec_ldqLong d a j),
  raisesIf_of_storeOp (exec_sth d a o), raisesIf_of_storeOp (exec_sthLong d a j),
  raisesIf_of_storeOp (exec_stw d a o), raisesIf_of_storeOp (exec_stwLong d a j),
  raisesIf_of_storeOp (exec_std d a o), raisesIf_of_storeOp (exec_stdLong d a j),
  raisesIf_of_storeOp (exec_stq d a o), raisesIf_of_storeOp (exec_stqLong d a j),
  raisesIf_of_feLoad (exec_ldf d a o), raisesIf_of_feLoad (exec_ldfLong d a j),
  raisesIf_of_feLoad (exec_ldc d a o), raisesIf_of_feLoad (exec_ldcLong d a j),
  raisesIf_of_feStf (exec_stf d a o), raisesIf_of_feStf (exec_stfLong d a j),
  raisesIf_of_feNow (exec_stfo d a o), raisesIf_of_feNow (exec_stfoLong d a j),
  raisesIf_of_feQuery (exec_feq d a o), raisesIf_of_feQuery (exec_feqLong d a j),
  raisesIf_of_feNow (exec_empty a o), raisesIf_of_feNow (exec_emptyLong a j),
  raisesIf_of_vldOp (exec_vld f a o), raisesIf_of_vstOp (exec_vst f a o),
  raisesIf_of_vldOp (exec_vldLong f a j), raisesIf_of_vstOp (exec_vstLong f a j),
  raisesIf_of_amoOp (exec_amoadd p d a b), raisesIf_of_amoOp (exec_amoand p d a b),
  raisesIf_of_amoOp (exec_amoor p d a b), raisesIf_of_amoOp (exec_amoxor p d a b),
  raisesIf_of_amoOp (exec_amomin p d a b), raisesIf_of_amoOp (exec_amomax p d a b),
  raisesIf_of_amoOp (exec_amominu p d a b), raisesIf_of_amoOp (exec_amomaxu p d a b),
  raisesIf_of_amoOp (exec_amoswap p d a b), raisesIf_of_amoOp (exec_amocas p d a b)⟩

end Sys2Proof.Proofs
end

section
/-! PROOF of O13 and O14. A full/empty operation whose word has the wrong bit joins the core's wait table and its bundle waits (R196);
an atomic of the own pool is its release, its access and the acquire that it leaves (R199, R212). -/

namespace Sys2Proof.Proofs

open Sys2Proof.Machine Sys2Proof.Laws

/-! ### Full/empty operations of the own pool -/

section
variable {t u : State} {ea : Word} {off : Nat}

theorem feTarget_own {kind : Nat} {need : Need} (h : OwnPool t u ea kind need off 8) : feTarget t ea kind need = .ok (u, .own off) := by
  obtain ⟨ha, hr, hy⟩ := h
  simp [feTarget, ha, hr, ownCheck_of_admitted false hy, Bind.bind, Except.bind]

/-- The state in which an operation of the bundle stands in its core's wait table. -/
def feQueued (u : State) (ea : Word) (addr : Nat) (op : AOp) : State :=
  asks u fun id s => modCurCore s fun co => { co with feWaits := co.feWaits ++ [⟨mkAccess s id op addr ea.toNat none⟩] }

theorem feWaiting_of_not_ready {op : AOp} (fin : State → Nat → State) (hg : grantOf u = none)
    (hf : feReady u (ownAddr u off) op = false) :
    feWaiting u ea (.own off) op fin = .error (.wait (feQueued u ea (ownAddr u off) op) 2 ea.toNat 0x7FF) := by
  rw [ownAddr] at hf ⊢
  simp only [feWaiting, hg, Target.addr, hf, Bool.false_eq_true, false_and, if_false]
  rfl

/-! ### The wait -/

theorem curCtx_beginWait (s : State) (kind obj owner : Nat) : curCtx (beginWait s kind obj owner) = { curCtx s with
    wait := some ⟨kind, obj % 2 ^ 32, if s.cur.agent = .tile owner then 0x7FF else owner,
      ((curCtx s).wait.map (·.since)).getD (s.ids + 1)⟩ } := getCtx_setCtx_same (newId s).2 s.cur _

theorem curCtx_feQueued (u : State) (ea : Word) (addr : Nat) (op : AOp) : curCtx (feQueued u ea addr op) =
    { curCtx u with grants := (curCtx u).grants ++ [⟨(curCtx u).pc, u.ids + 1, none⟩] } := getCtx_setCtx_same (newId u).2 u.cur _

theorem curCore_feQueued (u : State) (ea : Word) (addr : Nat) (op : AOp) : ∃ x : FeWait, x.a.addr = addr ∧ x.a.op = op ∧
    (curCore (feQueued u ea addr op)).feWaits = (curCore u).feWaits ++ [x] :=
  ⟨⟨mkAccess (modCur (newId u).2 fun c => { c with grants := c.grants ++ [⟨c.pc, u.ids + 1, none⟩] }) (u.ids + 1) op addr ea.toNat
    none⟩, rfl, rfl, congrArg Core.feWaits (curCore_modCurCore _ _)⟩

/-- A full/empty operation that joins the wait table: its bundle waits with kind 2 on its address, and its registers are as they
were. -/
theorem waits_of_feQueued {i : Instr} {body : Effect} {s : State} {addr : Nat} {op : AOp} (hi : exec i s = issue (form i) body s)
    (h : Ready (form i) s t) (hb : body t = .error (.wait (feQueued u ea addr op) 2 ea.toNat 0x7FF)) :
    ∃ v, exec i s = .next v ∧ v.last = .waiting ∧ v.mem = u.mem ∧ v.full = u.full ∧
      (∃ w, (curCtx v).wait = some w ∧ w.kind = 2 ∧ w.obj = ea.toNat % 2 ^ 32) ∧
      (curCtx v).g = (curCtx u).g ∧ (curCtx v).pc = (curCtx u).pc ∧
      ∃ x, (curCore v).feWaits = (curCore u).feWaits ++ [x] ∧ x.a.addr = addr ∧ x.a.op = op := by
  obtain ⟨x, hxa, hxo, hx⟩ := curCore_feQueued u ea addr op
  have hctx := curCtx_beginWait (feQueued u ea addr op) 2 ea.toNat 0x7FF
  rw [curCtx_feQueued] at hctx
  refine ⟨_, hi.trans (issue_stalls h hb), rfl, rfl, rfl, ⟨_, congrArg Ctx.wait hctx, rfl, rfl⟩, ?_, ?_, x, hx, hxa, hxo⟩ <;>
    simp only [stall, hctx]

/-- LDF and LDC. -/
theorem feLoad_of_not_ready {op : AOp} (d a : GReg) {o : Word} (h : OwnPool t u (effAddr t a o) 0 .rd off 8) (hg : grantOf u = none)
    (hf : feReady u (ownAddr u off) op = false) :
    feLoad op d a o t = .error (.wait (feQueued u (effAddr t a o) (ownAddr u off) op) 2 (effAddr t a o).toNat 0x7FF) := by
  simp only [feLoad, feTarget_own h, Bind.bind, Except.bind, feWaiting_of_not_ready _ hg hf]

/-- STF. -/
theorem feStf_of_not_ready (r a : GReg) {o : Word} (h : OwnPool t u (effAddr t a o) 1 .wr off 8) (hg : grantOf u = none)
    (hf : feReady u (ownAddr u off) (.stf (rg u r)) = false) : feStf r a o t =
      .error (.wait (feQueued u (effAddr t a o) (ownAddr u off) (.stf (rg u r))) 2 (effAddr t a o).toNat 0x7FF) := by
  simp only [feStf, feTarget_own h, Bind.bind, Except.bind, feWaiting_of_not_ready _ hg hf]

end

/-- Settles O13: each form's effect waits with its operation queued. -/
theorem fullEmptyWaits : Obligations.FullEmptyWaits := by
  intro d a o j s t u off i ea op k n hi h hown hg hf
  simp only [List.mem_cons, List.not_mem_nil, or_false, Prod.mk.injEq] at hi
  rcases hi with ⟨rfl, rfl, rfl, rfl, rfl⟩ | ⟨rfl, rfl, rfl, rfl, rfl⟩ | ⟨rfl, rfl, rfl, rfl, rfl⟩ | ⟨rfl, rfl, rfl, rfl, rfl⟩ |
    ⟨rfl, rfl, rfl, rfl, rfl⟩ | ⟨rfl, rfl, rfl, rfl, rfl⟩
  · exact waits_of_feQueued (exec_ldf d a o s) h (feLoad_of_not_ready d a hown hg hf)
  · exact waits_of_feQueued (exec_ldc d a o s) h (feLoad_of_not_ready d a hown hg hf)
  · exact waits_of_feQueued (exec_stf d a o s) h (feStf_of_not_ready d a hown hg hf)
  · exact waits_of_feQueued (exec_ldfLong d a j s) h (feLoad_of_not_ready d a hown hg hf)
  · exact waits_of_feQueued (exec_ldcLong d a j s) h (feLoad_of_not_ready d a hown hg hf)
  · exact waits_of_feQueued (exec_stfLong d a j s) h (feStf_of_not_ready d a hown hg hf)

/-! ### Atomics of the own pool -/

theorem amoAt_own {v : State} {off w : Nat} (ea : Word) (k : AmoK) (x e : Nat) (d : GReg) (hy : roleAdmit (curCore v) off w = .yes)
    (hf : failedIn v (ownAddr v off) w = none) : amoAt v (.own off) ea k w x e d =
      .ok (landNow (homeWrite v (ownAddr v off) (bytesOf (amoNew k w (readN v.mem (ownAddr v off) w) x e) w) 0
        (writerNo v.cur.agent) (some (curWho v 0))) (.amo d w) (readN v.mem (ownAddr v off) w)) := by
  rw [ownAddr] at hf ⊢
  simp only [amoAt, ownCheck_of_admitted false hy, loadCheck_of_sound hf, Bind.bind, Except.bind]
  rfl

theorem amoOwn_of_amoOp {k : AmoK} {i : Instr} {p : AmoP} {d a b : GReg} (hi : ∀ s, exec i s = issue (form i) (amoOp k p d a b) s) :
    AmoOwn k i p d a b := by
  intro s t u v off h hown hrel hy hf
  obtain ⟨ha, hr, -⟩ := hown
  refine commits_of_effect (hi s) h ?_
  cases hp : p.rel with
  | false =>
    have huv : u = v := by simpa [hp] using hrel
    subst huv
    simp only [amoOp, ha, ne_eq, not_true_eq_false, if_false, hr, hp, Bool.false_eq_true, Bind.bind, Except.bind,
      amoAt_own _ _ _ _ _ hy hf]
    rfl
  | true =>
    have hrel' : release u .package = .ok v := by simpa [hp] using hrel
    simp only [amoOp, ha, ne_eq, not_true_eq_false, if_false, hr, hp, if_true, amoScope, hrel', Bind.bind, Except.bind,
      amoAt_own _ _ _ _ _ hy hf]
    rfl

/-- Settles O14: each atomic is `amoOp` with its operation. -/
theorem atomicsOfTheOwnPoolAnswer : Obligations.AtomicsOfTheOwnPoolAnswer := fun p d a b => ⟨
  amoOwn_of_amoOp (exec_amoadd p d a b), amoOwn_of_amoOp (exec_amoand p d a b), amoOwn_of_amoOp (exec_amoor p d a b),
  amoOwn_of_amoOp (exec_amoxor p d a b), amoOwn_of_amoOp (exec_amomin p d a b), amoOwn_of_amoOp (exec_amomax p d a b),
  amoOwn_of_amoOp (exec_amominu p d a b), amoOwn_of_amoOp (exec_amomaxu p d a b), amoOwn_of_amoOp (exec_amoswap p d a b),
  amoOwn_of_amoOp (exec_amocas p d a b)⟩

end Sys2Proof.Proofs
end

section
/-! PROOF of O16. A part of a vector access in the own pool passes its checks and resolves to an offset without a change of the
state, and performing it changes nothing that the checks of a later part read; so the parts are a fold (R197, R198). -/

namespace Sys2Proof.Proofs

open Sys2Proof.Machine Sys2Proof.Laws

/-! ### The checks of the parts -/

/-- A part that lies in the own pool, as its checks leave it. -/
def ownPart (n : Nat) (p : Nat × Word) : Nat × Word × Target × Nat := (p.1, p.2, .own (localOff p.2), n)

section
variable {t : State} {n : Nat}

theorem partTarget_own {ea : Word} {store : Bool}
    (h : OwnPool t t ea (if store then 1 else 0) (if store then .wr else .rd) (localOff ea) n) :
    partTarget t ea n store = .ok (t, .own (localOff ea)) := by
  obtain ⟨ha, hr, hy⟩ := h
  simp only [partTarget, ha, ne_eq, not_true_eq_false, if_false, hr, ownCheck_of_admitted store hy, Bind.bind, Except.bind]

theorem partTargets_own {store : Bool} {parts : List (Nat × Word)}
    (h : ∀ p ∈ parts, OwnPool t t p.2 (if store then 1 else 0) (if store then .wr else .rd) (localOff p.2) n) :
    partTargets t n store parts = .ok (t, parts.map fun p => (p.1, p.2, .own (localOff p.2))) := by
  induction parts with
  | nil => rfl
  | cons p l ih =>
    have hl := ih fun q hq => h q (List.mem_cons_of_mem _ hq)
    simp only [partTargets, partTarget_own (h p List.mem_cons_self), hl, Bind.bind, Except.bind, List.map_cons]

/-- A part of the own pool is whole. -/
theorem splitSectors_own (parts : List (Nat × Word)) :
    (parts.map fun p => (p.1, p.2, Target.own (localOff p.2))).flatMap (splitSectors t n) = parts.map (ownPart n) := by
  induction parts with
  | nil => rfl
  | cons p l ih => rw [List.map_cons, List.flatMap_cons, ih]; rfl

theorem partLeaves_own (parts : List (Nat × Word)) :
    (parts.map (ownPart n)).countP (fun p => partLeaves t p.2.2.1 p.2.2.2) = 0 := by
  simp [List.countP_map, List.countP_eq_zero, ownPart, partLeaves]

theorem partPosts_own (parts : List (Nat × Word)) : (parts.map (ownPart n)).countP (fun p => partPosts t p.2.2.1) = 0 := by
  simp [List.countP_map, List.countP_eq_zero, ownPart, partPosts]

end

/-! ### Loads -/

/-- What a load of the own pool reads of the state. -/
def SameSource (t u : State) : Prop := u.cur = t.cur ∧ u.cores = t.cores ∧ u.mem = t.mem ∧ u.dev = t.dev

theorem loadParts_own {t : State} {d : FReg} {n : Nat} {parts : List (Nat × Word)} (h : PartsOwn t parts 0 .rd n) :
    ∀ {u : State}, SameSource t u → loadParts u d (parts.map (ownPart n)) = .ok (parts.foldl (fun u p =>
      landNow u (.lane d p.1 n) (readN t.mem (ownAddr t (localOff p.2)) n)) u) := by
  induction parts with
  | nil => intros; rfl
  | cons p l ih =>
    rintro u ⟨hcur, hcores, hmem, hdev⟩
    obtain ⟨⟨-, -, hy⟩, hf⟩ := h p List.mem_cons_self
    have haddr : ownAddr u (localOff p.2) = ownAddr t (localOff p.2) := by rw [ownAddr, ownAddr, hcur]
    have hy' : roleAdmit (curCore u) (localOff p.2) n = .yes := by rwa [curCore, getCore, hcur, hcores]
    have hf' : failedIn u (ownAddr u (localOff p.2)) n = none := by rwa [haddr, failedIn, hdev]
    have hload := loadFrom_own (ea := p.2) (.lane d p.1 n) hy' hf'
    rw [haddr, hmem] at hload
    simp only [List.map_cons, ownPart, loadParts, hload, Bind.bind, Except.bind, List.foldl_cons]
    exact ih (fun q hq => h q (List.mem_cons_of_mem _ hq)) ⟨hcur, hcores, hmem, hdev⟩

theorem vecLoadsOwn_of_vecLoad {i : Instr} {d : FReg} {n : Nat} {parts : State → List (Nat × Word)}
    (hi : ∀ s, exec i s = issue (form i) (fun t => vecLoad t d n (parts t)) s) : VecLoadsOwn i d n parts := by
  intro s t h hown hroom
  refine commits_of_effect (hi s) h ?_
  have hparts := partTargets_own (store := false) fun p hp => (hown p hp).1
  have hload := loadParts_own (d := d) hown ⟨rfl, rfl, rfl, rfl⟩
  simp only [vecLoad, hparts, splitSectors_own, partLeaves_own, Nat.add_zero, if_neg (Nat.not_lt.mpr hroom), hload, Bind.bind,
    Except.bind]
  rfl

/-! ### Stores -/

/-- What a store to the own pool reads of the state, where no sector has failed. -/
def SameWriter (t u : State) : Prop := u.cur = t.cur ∧ u.cores = t.cores ∧ u.ctxs = t.ctxs ∧ u.dev.failed = []

/-- A write at a home changes memory and the marks of the device's blocks. -/
theorem sameWriter_homeWrite {t u : State} (h : SameWriter t u) (a : Nat) (bs : List Byte) (kind writer : Nat) (w : Option Who) :
    SameWriter t (homeWrite u a bs kind writer w) := by
  obtain ⟨hcur, hcores, hctxs, hf⟩ := h
  have hnone : failedIn u a bs.length = none := by rw [failedIn, hf]; rfl
  rw [homeWrite, fixFailed_none w hnone, l2Use]
  split <;> exact ⟨hcur, hcores, hctxs, hf⟩

theorem storeTo_own {u : State} {ea : Word} {off : Nat} {bs : List Byte} (hy : roleAdmit (curCore u) off bs.length = .yes) :
    storeTo u (.own off) ea bs = .ok (homeWrite u (ownAddr u off) bs 0 (writerNo u.cur.agent) (some (curWho u 0))) := by
  simp only [storeTo, ownCheck_of_admitted true hy, Bind.bind, Except.bind]
  rfl

theorem storeParts_own {t : State} {v : Vec} {n : Nat} {parts : List (Nat × Word)} (h : PartsOwn t parts 1 .wr n) :
    ∀ {u : State}, SameWriter t u → storeParts u v (parts.map (ownPart n)) = .ok (parts.foldl (fun u p =>
      homeWrite u (ownAddr t (localOff p.2)) (bytesOf (v.toNat / 256 ^ p.1) n) 0 (writerNo t.cur.agent) (some (curWho t 0))) u) := by
  induction parts with
  | nil => intros; rfl
  | cons p l ih =>
    intro u hu
    obtain ⟨hcur, hcores, hctxs, -⟩ := id hu
    obtain ⟨⟨-, -, hy⟩, -⟩ := h p List.mem_cons_self
    have hy' : roleAdmit (curCore u) (localOff p.2) (bytesOf (v.toNat / 256 ^ p.1) n).length = .yes := by
      rwa [length_bytesOf, curCore, getCore, hcur, hcores]
    have hwho : curWho u 0 = curWho t 0 := by simp only [curWho, curCtx, getCtx, hcur, hctxs]
    have hstore := storeTo_own (ea := p.2) hy'
    rw [hwho, ownAddr, hcur] at hstore
    simp only [List.map_cons, ownPart, storeParts, hstore, Bind.bind, Except.bind, List.foldl_cons]
    exact ih (fun q hq => h q (List.mem_cons_of_mem _ hq)) (sameWriter_homeWrite hu ..)

theorem vecStoresOwn_of_vecStore {i : Instr} {r : FReg} {n : Nat} {parts : State → List (Nat × Word)}
    (hi : ∀ s, exec i s = issue (form i) (fun t => vecStore t r n (parts t)) s) : VecStoresOwn i r n parts := by
  intro s t h hown hfailed hroom
  refine commits_of_effect (hi s) h ?_
  have hparts := partTargets_own (store := true) fun p hp => (hown p hp).1
  have hstore := storeParts_own (v := rf t r) hown ⟨rfl, rfl, rfl, hfailed⟩
  simp only [vecStore, hparts, splitSectors_own, partPosts_own, Nat.add_zero, if_neg (Nat.not_lt.mpr hroom), hstore, Bind.bind,
    Except.bind]
  rfl

/-- Settles O16: each form is `vecLoad` or `vecStore` of its parts. -/
theorem vectorMemoryAnswers : Obligations.VectorMemoryAnswers := fun f g a b o q j => ⟨
  vecLoadsOwn_of_vecLoad (exec_vld f a o), vecLoadsOwn_of_vecLoad (exec_vldLong f a j),
  vecStoresOwn_of_vecStore (exec_vst f a o), vecStoresOwn_of_vecStore (exec_vstLong f a j),
  vecLoadsOwn_of_vecLoad (exec_vlds f a b q), vecLoadsOwn_of_vecLoad (exec_vldsLong f a b j),
  vecStoresOwn_of_vecStore (exec_vsts f a b q), vecStoresOwn_of_vecStore (exec_vstsLong f a b j),
  vecLoadsOwn_of_vecLoad (exec_vgath f a g q), vecLoadsOwn_of_vecLoad (exec_vgathLong f a g j),
  vecStoresOwn_of_vecStore (exec_vscat f a g q), vecStoresOwn_of_vecStore (exec_vscatLong f a g j)⟩

end Sys2Proof.Proofs
end

section
/-! PROOF of O57. A store of the own pool is a write at its home: what comes before it and its commit keep the registers (Keep.lean),
and the write changes its own bytes alone. -/

namespace Sys2Proof.Proofs

open Sys2Proof.Machine Sys2Proof.Laws

theorem commit_last (f : Form) (c0 : Ctx) (d : Done) : (commit f c0 d).last = .committed := by
  unfold commit
  dsimp only
  repeat' split
  all_goals rfl

/-- Where the contexts are the same, so are their registers. -/
theorem keepsRegs_of_ctxs {gw gr fw mw fl} {s t : State} (hcur : t.cur = s.cur) (hctxs : t.ctxs = s.ctxs) :
    KeepsRegs gw gr fw mw fl s t := by
  have hctx (k : CtxKey) : getCtx t k = getCtx s k := by rw [getCtx, getCtx, hctxs]
  refine ⟨?_, hcur, fun k _ => hctx k⟩
  rw [curCtx, curCtx, hcur, hctx]
  exact keepsCtx_refl ..

section
variable {gw : List GReg} {fw : List FReg} {mw : List MReg} {fl : Bool} {s t u : State} {f : Form} {ea : Word} {kind : Nat}
  {need : Need} {p : Target}

/-- What comes before an access of memory keeps the registers, memory and the full/empty bits. -/
theorem keepsRegs_of_resolved (h : Ready f s t) (hr : resolveCur t ea kind need = .ok (u, p)) : KeepsRegs gw f.gr fw mw fl s u :=
  keepsRegs_trans (before_regs h.2.2) (resolve_same hr).keeps

theorem mem_of_resolved (h : Ready f s t) (hr : resolveCur t ea kind need = .ok (u, p)) : u.mem = s.mem ∧ u.full = s.full := by
  obtain ⟨hm, hf⟩ := before_mem h.2.2
  obtain ⟨-, -, hm', hf', -⟩ := resolve_same hr
  exact ⟨hm'.trans hm, hf'.trans hf⟩

end

/-- Bytes that are written into canonical memory: they read back, and every other byte and every full/empty bit is as it was. -/
theorem keepsMemoryBut_of_writeBytes {s t : State} {a : Nat} {bs : List Byte} (hs : State.Inv s)
    (hm : t.mem = writeBytes s.mem a bs) (hf : t.full = s.full) :
    readBytes t.mem a bs.length = bs ∧ KeepsMemoryBut a bs.length s t := by
  rw [hm]
  exact ⟨readBytes_writeBytes bs hs.1, fun x hx => by rw [hm, readByte_writeBytes_other bs hs.1 hx],
    fun x => by rw [isFull, isFull, hf]⟩

theorem storesAlone_of_storesOwn {i : Instr} {ea : State → Word} {bs : State → List Byte} (hi : StoresOwn i ea bs) :
    StoresAlone i ea bs := by
  intro s t u off hs h hown hf
  obtain ⟨hm, hfull⟩ := mem_of_resolved h hown.2.1
  obtain ⟨hwm, hwfull, hwctxs, hwcur, -⟩ := homeWrite_arch 0 (writerNo u.cur.agent) (some (curWho u 0)) hf
  obtain ⟨hcm, hcfull⟩ := commit_mem (f := form i) (c0 := opCtx s)
    (d := goesOn (homeWrite u (ownAddr u off) (bs t) 0 (writerNo u.cur.agent) (some (curWho u 0))))
  obtain ⟨hread, hkeep⟩ := keepsMemoryBut_of_writeBytes hs (hcm.trans (hwm.trans (by rw [hm]))) (hcfull.trans (hwfull.trans hfull))
  exact ⟨_, hi s t u off h hown, commit_last .., hread, hkeep, keepsRegs_trans (keepsRegs_of_resolved h hown.2.1)
    (keepsRegs_trans (keepsRegs_of_ctxs hwcur hwctxs) (commit_keeps (fun _ hr => hr) rfl))⟩

/-- Settles O57: each store form writes its own pool by O10's lemma, and a store of the own pool changes nothing else. -/
theorem storesKeepTheRest : Obligations.StoresKeepTheRest := fun d a o j => ⟨
  storesAlone_of_storesOwn (storesOwn_of_storeOp (exec_stb d a o)),
  storesAlone_of_storesOwn (storesOwn_of_storeOp (exec_stbLong d a j)),
  storesAlone_of_storesOwn (storesOwn_of_storeOp (exec_sth d a o)),
  storesAlone_of_storesOwn (storesOwn_of_storeOp (exec_sthLong d a j)),
  storesAlone_of_storesOwn (storesOwn_of_storeOp (exec_stw d a o)),
  storesAlone_of_storesOwn (storesOwn_of_storeOp (exec_stwLong d a j)),
  storesAlone_of_storesOwn (storesOwn_of_storeOp (exec_std d a o)),
  storesAlone_of_storesOwn (storesOwn_of_storeOp (exec_stdLong d a j)),
  storesAlone_of_storesOwn (storesOwn_of_storeOp (exec_stq d a o)),
  storesAlone_of_storesOwn (storesOwn_of_storeOp (exec_stqLong d a j))⟩

end Sys2Proof.Proofs
end

section
/-! REFUTATION of O12, O17, O49 and O58. Each statement leaves out a condition under which the model answers otherwise; a state that
meets that condition, and every hypothesis that the statement does have, is the counterexample. -/

namespace Sys2Proof.Proofs

open Sys2Proof.Machine Sys2Proof.Laws

/-! ### The machine of the counterexamples -/

/-- Slot 0 of core 0. -/
def firstSlot : CtxKey := ⟨.tile 0, 0⟩

/-- The machine after reset with one live context, whose g5 holds an address. -/
def liveAt (ea : Word) : State :=
  setCtx State.reset firstSlot { Ctx.idle with place := .live 0, gen := 1, g := Ctx.idle.g.set 5 ea }

/-! ### What a bundle that does not commit answers -/

/-- An instruction whose effect stalls does not commit. -/
theorem not_commits_of_stall {i : Instr} {body : Effect} {s t : State} {e : Stall} (d : Done)
    (hi : exec i s = issue (form i) body s) (h : Ready (form i) s t) (hb : body t = .error e) : ¬ Commits i s d := by
  intro hc
  have heq : stall (form i) s e = commit (form i) (opCtx s) d :=
    Host.Outcome.next.inj ((hi.trans (issue_stalls h hb)).symm.trans hc)
  exact stall_last _ _ _ ((congrArg State.last heq).trans (commit_last ..))

/-- A precise cause that nothing holds is taken where no gate has been called. -/
theorem raisePrecise_last_of_free {s : State} (f : Form) (code : Nat) (tval : Word) (hh : trapHeld s = false)
    (hd : (opCtx s).depth = 0) : (raisePrecise f s code tval).last = .trapped := by
  simp [raisePrecise, hh, hd]

/-- An instruction whose effect is held does not raise a cause that could be taken. -/
theorem not_raises_of_hold {i : Instr} {body : Effect} {s t u : State} {code : Nat} {tval : Word}
    (hi : exec i s = issue (form i) body s) (h : Ready (form i) s t) (hb : body t = .error (.hold u)) (hh : trapHeld s = false)
    (hd : (opCtx s).depth = 0) : ¬ Raises i s code tval := by
  intro hr
  have heq : stall (form i) s (.hold u) = raisePrecise (form i) s code tval :=
    Host.Outcome.next.inj ((hi.trans (issue_stalls h hb)).symm.trans hr)
  have hlast := (congrArg State.last heq).trans (raisePrecise_last_of_free (form i) code tval hh hd)
  cases hlast

/-! ### O12: a failed word behind an access of the core to its own node -/

section
variable {t u : State} {off : Nat}

/-- An access of the core to a home that is on its way holds a load of a failed sector of that home (R204; log entry 26). -/
theorem sentLoadCheck_of_under_way {dst : Node} {a n : Nat} (hf : (failedIn u a n).isSome = true)
    (hw : storesUnderWay u u.cur.agent dst = true) : sentLoadCheck u dst a n = .error (.hold u) := by
  simp only [sentLoadCheck, hf, hw, Bool.and_self, if_true]

theorem feLoad_of_under_way (d a : GReg) {o : Word} (hown : OwnPool t u (effAddr t a o) 0 .rd off 8) (hg : grantOf u = none)
    (hfull : isFull u (ownAddr u off) = true) (hno : feWaiters u u.cur.agent (ownAddr u off) = false)
    (hf : (failedIn u (ownAddr u off) 8).isSome = true) (hw : storesUnderWay u u.cur.agent (nodeOf u.cur.agent) = true) :
    feLoad .ldf d a o t = .error (.hold u) := by
  rw [ownAddr] at hfull hno hf
  simp only [feLoad, feTarget_own hown, feWaiting, hg, Target.addr, feReady, hfull, hno, feCheck, sentLoadCheck_of_under_way hf hw,
    Bind.bind, Except.bind, Bool.not_false, and_self, if_true]

end

/-- The first byte of the first scratchpad bank of the own pool (Table 6.1). -/
def poolEa : Word := 0xF0000001C000

/-- A full word of the own pool lies in a failed sector of SRAM, and a packet of the core to its own node is on VN0. -/
def failedBehind : State :=
  { liveAt poolEa with
    full := [localAddr 0 0x1C000]
    net := [⟨.core 0, .core 0, 0, .ack 0, 0, false⟩]
    dev := { Device.reset with failed := [(localAddr 0 0x1C000, true)] } }

theorem failedBehind_calm : Calm failedBehind := by decide +kernel

/-- Refutes O12: an LDF of a full word in a failed sector is held, and takes no cause, while a packet of the core to its own node is
on its way. -/
theorem not_fullEmptyOperationsAnswer : ¬ Obligations.FullEmptyOperationsAnswer := by
  intro h
  obtain ⟨-, -, -, -, -, -, hldf, -⟩ := h 3 5 0 0
  have hready : Ready (form (.ldf 3 5 0)) failedBehind failedBehind := ready_of_calm failedBehind_calm (by decide +kernel)
  have hown : OwnPool failedBehind failedBehind (effAddr failedBehind 5 (imm12 0)) 0 .rd 0x1C000 8 :=
    ⟨by decide +kernel, rfl, by decide +kernel⟩
  have hg : grantOf failedBehind = none := by decide +kernel
  have hfull : isFull failedBehind (ownAddr failedBehind 0x1C000) = true := by decide +kernel
  have hno : feWaiters failedBehind failedBehind.cur.agent (ownAddr failedBehind 0x1C000) = false := by decide +kernel
  have hf : failedIn failedBehind (ownAddr failedBehind 0x1C000) 8 = some true := by decide +kernel
  have hheld := feLoad_of_under_way 3 5 hown hg hfull hno (by rw [hf]; rfl) (by decide +kernel)
  exact not_raises_of_hold (exec_ldf 3 5 0 failedBehind) hready hheld (by decide +kernel) (by decide +kernel)
    (hldf _ _ _ _ hready hown hg hfull hno true hf)

/-! ### An address that the core's translation cache maps -/

theorem resolveCur_of_cached {s : State} {ea : Word} {kind : Nat} {need : Need} {t : Tlb} (hlow : bits ea.toNat 63 48 = 0)
    (hmapped : bits ea.toNat 47 44 ≠ 0xF) (hfind : (curCore s).tlb.find? (·.hits (opCtx s).asid ea.toNat) = some t)
    (hallow : t.allows (curLevel s == 0) need = true) : resolveCur s ea kind need =
      .ok (tlbPut s s.cur.agent t, .phys (t.ppn * 2 ^ t.shift + ea.toNat % 2 ^ t.shift) t.pol t.level) := by
  have htr : translation s s.cur.agent (opCtx s).asid ea.toNat kind = .ok (tlbPut s s.cur.agent t, t) := by
    unfold translation
    rw [show (getCore s s.cur.agent).tlb.find? (·.hits (opCtx s).asid ea.toNat) = some t from hfind]
  simp only [resolveCur, resolve, hlow, ne_eq, not_true_eq_false, if_false, hmapped, Machine.translate, htr, hallow, if_true,
    Bind.bind, Except.bind]

/-- The same machine with one translation in the core's cache, and with as many loads under way as are listed. -/
def mappedAt (t : Tlb) (loads : List Nat) : State :=
  modCore (liveAt 0x1000) (.tile 0) fun co => { co with tlb := [t], loads := loads }

/-! ### O17: a prefetch that finds no room in the load-return buffer -/

/-- A prefetch whose sectors find no room in the load-return buffer is held (R234). -/
theorem prefOp_of_no_room {t u : State} {a : GReg} {o : Word} {pa lvl : Nat} (hl : isLocalEa (effAddr t a o) = false)
    (hr : resolveCur t (effAddr t a o) 3 .any = .ok (u, .phys pa 0 lvl)) (h1 : hasL1 u u.cur.agent = true)
    (hroom : 32 < (curCore u).loads.length + sectorsMissing u pa) : prefOp a o t = .error (.hold u) := by
  simp [prefOp, cacheTarget, hl, hr, Bind.bind, Except.bind, h1, hroom]

/-- Page 1 maps to physical page 3, a CL1 page. -/
def cl1Page : Tlb := ⟨0, false, 1, 12, 3, 0, true, true, true, true⟩

/-- The machine with 32 loads under way and page 1 in its translation cache. -/
def noRoom : State := mappedAt cl1Page (List.replicate 32 0)

/-- Refutes O17: with 32 loads under way, a PREF of a line that the L1 lacks is held and does not commit. -/
theorem not_cacheInstructionsAnswer : ¬ Obligations.CacheInstructionsAnswer := by
  intro h
  obtain ⟨-, -, -, -, -, -, -, -, -, -, -, -, -, -, -, -, -, -, hpref, -⟩ := h 5 0 0
  have hready : Ready (form (.pref 5 0)) noRoom noRoom := ready_of_calm (by decide +kernel) (by decide +kernel)
  have hea : effAddr noRoom 5 (imm12 0) = 0x1000 := by decide +kernel
  have hlocal : isLocalEa (effAddr noRoom 5 (imm12 0)) = false := by decide +kernel
  have hres : resolveCur noRoom (effAddr noRoom 5 (imm12 0)) 3 .any = .ok (tlbPut noRoom noRoom.cur.agent cl1Page, .phys 0x3000 0 3) := by
    rw [hea]
    exact resolveCur_of_cached (by decide +kernel) (by decide +kernel) (by decide +kernel) (by decide +kernel)
  exact not_commits_of_stall _ (exec_pref 5 0 noRoom) hready
    (prefOp_of_no_room hlocal hres (by decide +kernel) (by decide +kernel)) (hpref noRoom noRoom _ _ _ _ hready hlocal hres)

/-! ### O58: a translation that breaks the alignment of an address -/

/-- A cached translation of page size 1, of address 0x1000 to the last byte of a sector. -/
def bytePage : Tlb := ⟨0, false, 0x1000, 0, 0x301F, 0, true, true, true, true⟩

/-- The machine with that page in its translation cache. -/
def oddPage : State := mappedAt bytePage []

/-- Refutes O58: the physical address of an aligned STH is the last byte of its sector where the translation's page is one byte
long, and the mask of the sector has no bit for the second byte. -/
theorem not_storesElsewhereKeepTheRest : ¬ Obligations.StoresElsewhereKeepTheRest := by
  rintro ⟨h, -⟩
  obtain ⟨-, -, -, -, -, hsth, -⟩ := h 6 5 0 0
  have hready : Ready (form (.sth 6 5 0)) oddPage oddPage := ready_of_calm (by decide +kernel) (by decide +kernel)
  have hea : effAddr oddPage 5 (imm12 0) = 0x1000 := by decide +kernel
  have hres : resolveCur oddPage (effAddr oddPage 5 (imm12 0)) 1 .wr = .ok (tlbPut oddPage oddPage.cur.agent bytePage, .phys 0x301F 0 3) := by
    rw [hea]
    exact resolveCur_of_cached (by decide +kernel) (by decide +kernel) (by decide +kernel) (by decide +kernel)
  have halign : (effAddr oddPage 5 (imm12 0)).toNat % (bytesOf (rg oddPage 6).toNat 2).length = 0 := by
    rw [hea, length_bytesOf]
    decide +kernel
  obtain ⟨w, l, -, -, -, -, hbytes, -⟩ := hsth oddPage oddPage _ _ _ hready halign hres (by decide +kernel)
  have hmask := (hbytes 1 (by rw [length_bytesOf]; decide)).1
  rw [BitVec.getLsbD_of_ge _ _ (by decide)] at hmask
  cases hmask

/-! ### O49: a slot that the list of contexts names twice -/

/-- A kill in a slot leaves what stands behind the slot's first entry in the list of contexts. -/
theorem killAct_ctxs {s : State} {k : CtxKey} {c : Ctx} {l : List (CtxKey × Ctx)} (h : s.ctxs = (k, c) :: l) (gen : Gen) :
    ∃ c', (killAct s k gen).ctxs = (k, c') :: l := by
  have hset (c' : Ctx) : (setCtx s k c').ctxs = (k, c') :: l := by
    rw [setCtx, h]
    exact if_pos rfl
  simp only [killAct, killCtx, modActivation]
  split
  · exact ⟨_, hset _⟩
  · exact ⟨c, h⟩

theorem foldl_killAct_ctxs {k : CtxKey} {l : List (CtxKey × Ctx)} (xs : List (CtxKey × Gen)) (hxs : ∀ x ∈ xs, x.1 = k) :
    ∀ {s : State} {c : Ctx}, s.ctxs = (k, c) :: l →
      ∃ c', (xs.foldl (fun s x => killAct s x.1 x.2) s).ctxs = (k, c') :: l := by
  induction xs with
  | nil => exact fun h => ⟨_, h⟩
  | cons x xs ih =>
    intro s c h
    obtain ⟨c', hc'⟩ := killAct_ctxs h x.2
    rw [List.foldl_cons, hxs x List.mem_cons_self]
    exact ih (fun y hy => hxs y (List.mem_cons_of_mem _ hy)) hc'

/-- A live context. -/
def liveCtx : Ctx := { Ctx.idle with place := .live 0, gen := 1 }

/-- The power fails in a machine whose list of contexts names slot 0 of core 0 twice. -/
def namedTwice : State :=
  modPower { State.reset with ctxs := [(firstSlot, liveCtx), (firstSlot, liveCtx)] } fun p => { p with failing := 1 }

/-- Refutes O49: DRAIN_EXPIRY kills the activation of the slot's first entry, and the second entry of the list stays as it was. -/
theorem not_deviceEventsAnswer : ¬ Obligations.DeviceEventsAnswer := by
  rintro ⟨-, -, -, -, -, -, -, -, -, -, -, -, -, -, -, -, -, -, hdrain, -⟩
  obtain ⟨u, hu, -, hkilled⟩ := hdrain namedTwice rfl
  obtain ⟨c', hc'⟩ := foldl_killAct_ctxs (k := firstSlot) (l := [(firstSlot, liveCtx)])
    [(firstSlot, 1), (firstSlot, 1)] (by decide) (s := namedTwice) rfl
  have hctxs : u.ctxs = (firstSlot, c') :: [(firstSlot, liveCtx)] := by
    rw [← hc']
    exact (congrArg State.ctxs (Host.Outcome.next.inj hu)).symm
  have hmem : (firstSlot, liveCtx) ∈ u.ctxs := by rw [hctxs]; exact List.mem_cons_of_mem _ List.mem_cons_self
  exact absurd (hkilled _ hmem rfl rfl) (by decide)

end Sys2Proof.Proofs
end

section
/-! PROOF of O42. A packet that `takePkt` lets arrive is answered by one function of the model, by the place it reaches and its body:
a lemma says what that function leaves in each case, and the statement is the list of these lemmas. -/

namespace Sys2Proof.Proofs

open Sys2Proof.Machine Sys2Proof.Laws

/-! ### The order of arrival (R204, R217, R227) -/

theorem takePkt_of_not_first {s : State} {j : Nat} (h : isFirst s j = false) : takePkt s j = none := by simp [takePkt, h]

/-- A packet that may arrive leaves the network. -/
theorem takePkt_some {s t : State} {i : Nat} {p : Packet} (h : takePkt s i = some (p, t)) :
    s.net[i]? = some p ∧ t = { s with net := s.net.eraseIdx i } := by
  unfold takePkt at h
  split at h
  · simp only [Option.map_eq_some_iff, Prod.mk.injEq] at h
    obtain ⟨q, hq, rfl, rfl⟩ := h
    exact ⟨hq, rfl⟩
  · cases h

section
variable {s : State} {j : Nat} {q : Packet} (hq : s.net[j]? = some q)
include hq

/-- Outside a pair in repair no packet overtakes one of its source, destination and network (R204). -/
theorem takePkt_behind {i : Nat} {p : Packet} (hij : i < j) (hp : s.net[i]? = some p) (hsrc : p.src = q.src) (hdst : p.dst = q.dst)
    (hvn : p.vn = q.vn) (hrep : s.dev.repair.contains (q.src, q.dst) = false) : takePkt s j = none := by
  have hbefore : p ∈ s.net.take j := List.mem_of_getElem? ((List.getElem?_take_of_lt hij).trans hp)
  have hsame : q.sameWay p = true := by simp [Packet.sameWay, hsrc, hdst, hvn]
  have hall : ((s.net.take j).all fun x => !q.sameWay x) = false :=
    List.all_eq_false.mpr ⟨p, hbefore, by simp [hsame]⟩
  refine takePkt_of_not_first ?_
  simp only [isFirst, hq, hrep, hall, Bool.and_false, Bool.false_eq_true, if_false]

/-- In a pair in repair no request overtakes a lost one of a lower number (R217). -/
theorem takePkt_behind_lost {p : Packet} (hnum : numbered q.vn = true) (hfwd : q.fwd = false)
    (hrep : s.dev.repair.contains (q.src, q.dst) = true) (hp : p ∈ s.dev.lost) (hsrc : p.src = q.src) (hdst : p.dst = q.dst)
    (hpnum : numbered p.vn = true) (hpfwd : p.fwd = false) (hseq : seqAfter q.seq p.seq = false) : takePkt s j = none := by
  have hall : ((s.net.eraseIdx j ++ s.dev.lost).all fun x => !q.samePair x || x.fwd || seqAfter q.seq x.seq) = false :=
    List.all_eq_false.mpr ⟨p, List.mem_append_right _ hp, by simp [Packet.samePair, hsrc, hdst, hpnum, hpfwd, hseq]⟩
  refine takePkt_of_not_first ?_
  simp only [isFirst, hq, hnum, hfwd, hrep, hall, Bool.not_false, Bool.and_self, Bool.and_false, if_true]

/-- A core whose overflow store is full has turned its input of VN0 off (R227). -/
theorem takePkt_input_off {c : Nat} (hvn : q.vn = 0) (hdst : q.dst = .core c)
    (hfull : 512 ≤ (getCore s (.tile c)).overflow.length) : takePkt s j = none := by
  have hoff : inputOff s q = true := by simp [inputOff, hvn, hdst, hfull]
  refine takePkt_of_not_first ?_
  simp only [isFirst, hq, hoff, Bool.not_true, Bool.false_and]

end

/-! ### The wait table (R196)

The kernel would compute the verdict of `roleAdmit` or `ownerCheck` to compare two forms of `feWaitDone` or of `accessAtCore`, so the
proofs about these two stand on the definition with the check as a variable. -/

/-- A waiting operation that its bank, its sector and its word allow is performed where no earlier one on its word may be. -/
theorem feWaitDone_of_ready {s : State} {ag : Agent} {i : Nat} {a : Access} (hw : (getCore s ag).feWaits[i]? = some ⟨a⟩)
    (hr : feReady s a.addr a.op = true) (hrole : roleAdmit (getCore s ag) (a.addr - localAddr (agentNo ag) 0) 8 = .yes)
    (hf : a.op = .ldf ∨ a.op = .ldc → failedIn s a.addr 8 = none)
    (hfirst : ∀ w ∈ (getCore s ag).feWaits.take i, feFirst s a.addr w = false) :
    feWaitDone s ag i =
      let u := modCore s ag fun co => { co with feWaits := co.feWaits.eraseIdx i }
      let r := fePerform u a.addr a.op a.kind (writerNo a.src) (some a.who)
      if a.src = ag then answer r.2 a.who (w64 r.1) else sendReply r.2 (nodeOf ag) a r.1 := by
  have hany : ((getCore s ag).feWaits.take i).any (feFirst s a.addr) = false := by simpa using hfirst
  have hsector : (if a.op == .ldf || a.op == .ldc then failedIn s a.addr 8 else none) = none := by simpa using hf
  obtain ⟨done, hdone⟩ : ∃ f, f = feWaitDone := exists_eq
  obtain ⟨allow, hallow⟩ : ∃ v, v = roleAdmit := exists_eq
  rw [← hallow] at hrole
  rw [← hdone]
  delta feWaitDone at hdone
  rw [← hallow] at hdone
  subst hdone
  simp only [hw, hrole, hr, hany, hsector, Bool.not_true, Bool.or_self, Bool.false_eq_true, if_false]

/-! ### Accesses at their homes (R129, R201, R238) -/

/-- What another core's access meets at its owner, by the owner's check: it is refused for its role or by the windows, or is
performed where it is no operation on a full/empty bit. -/
theorem accessAtCore_by_check {t : State} {c m : Nat} {a : Access} {v : Verdict} (hsrc : a.src = .tile m)
    (hv : ownerCheck t c (a.addr - localAddr c 0) a.op.bytes a.op.grants (some m) false a.launch = v) :
    (v = .role → a.op.isFe = false → accessAtCore t c a = some (refuse t (.core c) a 0x0B (w64 a.va))) ∧
    (v = .window → accessAtCore t c a = some (refuse t (.core c) a 0x08 (reason1 a.va))) ∧
    (v = .perform → a.op.isFe = false → accessAtCore t c a = some (performAccess t (.core c) a)) := by
  obtain ⟨access, haccess⟩ : ∃ f, f = accessAtCore := exists_eq
  obtain ⟨check, hcheck⟩ : ∃ f, f = ownerCheck := exists_eq
  rw [← hcheck] at hv
  rw [← haccess]
  delta accessAtCore at haccess
  rw [← hcheck] at haccess
  subst haccess
  refine ⟨?role, ?window, ?perform⟩
  case role =>
    rintro rfl hfe
    simp only [hsrc, isFw, hv, hfe, Bool.false_eq_true, if_false]
  case window =>
    rintro rfl
    simp only [hsrc, isFw, hv]
  case perform =>
    rintro rfl hfe
    simp only [hsrc, isFw, hv]
    cases hop : a.op
    case ldf | ldc | stf => rw [hop] at hfe; cases hfe
    all_goals simp only [Bool.false_and, Bool.false_eq_true, if_false]

theorem performAccess_load {t : State} {node : Node} {a : Access} {k : Nat} (hop : a.op = .ld k) (hf : failedIn t a.addr k = none) :
    performAccess t node a = sendReply (l2Use t a.addr k false (polAllocates a.pol)) node a (readN t.mem a.addr k) := by
  simp only [performAccess, hop, hf]

theorem performAccess_store {t : State} {node : Node} {a : Access} {bs : List Byte} {j : Nat} (hop : a.op = .st bs)
    (hj : a.jn = some j) : performAccess t node a =
      sendPkt (homeWrite t a.addr bs a.kind (writerNo a.src) (some a.who) (polAllocates a.pol)) node (nodeOf a.src) 1 (.ack j) := by
  simp only [performAccess, hop, hj]

/-! ### What a packet that arrives does -/

section
variable {s t : State} {n : Nat} {src dst : Node} {vn : Fin 4} {sq : BitVec 12} {fwd : Bool}

/-- An access that no forwarded one comes before is what its home makes of it (R190, R219). -/
theorem becomes_remoteAccessArrival {u : State} {a : Access} (hp : takePkt s n = some (⟨src, dst, vn, .access a, sq, fwd⟩, t))
    (hb : behindForwarded s n ⟨src, dst, vn, .access a, sq, fwd⟩ a.addr = false) (hu : accessAt t dst a = some u) :
    Becomes (.remoteAccessArrival n) s u :=
  becomes_of_event (by simp only [exec_remoteAccessArrival, execRemoteAccessArrival, hp, hb, hu, Option.getD_some,
    Bool.false_eq_true, if_false])

theorem becomes_hostAccessTimeout {a : Access} (hp : takePkt s n = some (⟨src, .host, vn, .access a, sq, fwd⟩, t)) :
    Becomes (.hostAccessTimeout n) s (refuse t .host a 0x08 (reason1 a.va)) :=
  becomes_of_event (by simp only [exec_hostAccessTimeout, execHostAccessTimeout, hp])

section
variable {ag : Agent} (hag : agentAt dst = some ag)
include hag

theorem becomes_accessReplyArrival {w : Who} {id v : Nat} (hp : takePkt s n = some (⟨src, dst, vn, .reply w id v, sq, fwd⟩, t)) :
    Becomes (.accessReplyArrival n) s (landReply (freeLoad t ag id) w id v) :=
  becomes_of_event (by simp only [exec_accessReplyArrival, execAccessReplyArrival, hp, hag])

theorem becomes_accessReplyArrival_fill {w : Who} {id pa v : Nat}
    (hp : takePkt s n = some (⟨src, dst, vn, .fillReply w id pa v, sq, fwd⟩, t)) :
    Becomes (.accessReplyArrival n) s (landFill (freeLoad t ag id) ag w id pa v) :=
  becomes_of_event (by simp only [exec_accessReplyArrival, execAccessReplyArrival, hp, hag])

theorem becomes_storeAckArrival {j : Nat} (hp : takePkt s n = some (⟨src, dst, vn, .ack j, sq, fwd⟩, t)) :
    Becomes (.storeAckArrival n) s (freeJournal t ag j) :=
  becomes_of_event (by simp only [exec_storeAckArrival, execStoreAckArrival, hp, hag])

/-- An acknowledged write-back is outstanding no longer (R208). -/
theorem becomes_writeBackAck {id : Nat} (hp : takePkt s n = some (⟨src, dst, vn, .wbAck id, sq, fwd⟩, t)) :
    ∃ u, Becomes (.writeBackAck n) s u ∧ (getCore u ag).writeBacks = (getCore t ag).writeBacks.filter (·.id != id) := by
  refine ⟨modCore t ag fun co => { co with
    writeBacks := co.writeBacks.filter (·.id != id)
    spawnOut := co.spawnOut.map fun x => { x with wbFor := x.wbFor.filter (· ≠ id) }
    recruits := co.recruits.map fun x => { x with wbFor := x.wbFor.filter (· ≠ id) } }, becomes_of_event ?_, ?_⟩
  · simp only [exec_writeBackAck, execWriteBackAck, hp, hag]
  · rw [getCore_modCore_same]

/-- The refusal of a posted request removes its journal entry (R216, R237). -/
theorem becomes_refusalArrival_entry {w : Who} {j cause : Nat} {tval : Word}
    (hp : takePkt s n = some (⟨src, dst, vn, .refusal w none (some j) cause tval, sq, fwd⟩, t)) :
    Becomes (.refusalArrival n) s (refuseEntry t ag j cause tval) :=
  becomes_of_event (by simp only [exec_refusalArrival, execRefusalArrival, hp, hag])

/-- The refusal of a request with a result writes 0 before its cause (R237). -/
theorem becomes_refusalArrival_value {w : Who} {id cause : Nat} {tval : Word}
    (hp : takePkt s n = some (⟨src, dst, vn, .refusal w (some id) none cause tval, sq, fwd⟩, t)) (h9 : cause ≠ 0x09)
    (hD : cause ≠ 0x0D) :
    Becomes (.refusalArrival n) s (raiseAsync
      (landReply (modCore (freeLoad t ag id) ag fun co => { co with fills := co.fills.filter (·.id != id) }) w id 0) w cause tval) := by
  have hvalue : ¬(cause = 0x09 ∨ cause = 0x0D) := by simp [h9, hD]
  exact becomes_of_event (by simp only [exec_refusalArrival, execRefusalArrival, hp, hag, hvalue, if_false])

end

/-! ### Messages (R227, R237, R245) -/

theorem becomes_messageArrival {u : State} {c : Nat} {m : Message} {w : Option Who} {jn : Option Nat}
    (hp : takePkt s n = some (⟨src, .core c, vn, .message m w jn, sq, fwd⟩, t)) (hu : messageAt t c src m w jn = some u) :
    Becomes (.messageArrival n) s u :=
  becomes_of_event (by simp only [exec_messageArrival, execMessageArrival, hp, hu, Option.getD_some])

theorem becomes_messageArrival_putn {u : State} {c addr : Nat} {w : Who} {jn : Option Nat} {va : Word} {data : List Word} {m : Message}
    {la : Option Nat} (hp : takePkt s n = some (⟨src, .core c, vn, .putn w jn addr va data m la, sq, fwd⟩, t))
    (hu : putnAt t c src w jn addr data m la = some u) : Becomes (.messageArrival n) s u :=
  becomes_of_event (by simp only [exec_messageArrival, execMessageArrival, hp, hu, Option.getD_some])

/-- A core's message is stored and acknowledged where its queue has room and none is parked before it. -/
theorem messageAt_stored {c m' : Nat} {m : Message} (w : Option Who) (jn : Option Nat) {q : Fin 64}
    (hq : matchQueue t (.tile c) m = some q) (hroom : hasRoom (getCore t (.tile c)) q = true)
    (hnone : parkedOf (getCore t (.tile c)) q = 0) :
    messageAt t c (.core m') m w jn = some (sendAck (appendMsg t (.tile c) q m false) (.core c) (.core m') jn) := by
  simp only [messageAt, placeMsg, hq, storeMsg, hroom, hnone, BEq.rfl, Bool.and_self, if_true]

theorem messageAt_unmatched {c : Nat} {m : Message} (src : Node) (w : Option Who) (jn : Option Nat)
    (hq : matchQueue t (.tile c) m = none) : messageAt t c src m w jn = some (refuseMsg t c src m w jn) := by
  simp only [messageAt, placeMsg, hq]

end

/-- A message goes to the lowest-numbered valid queue that matches its type and admits its sender (R227). -/
theorem matchQueue_some {s : State} {a : Agent} {m : Message} {q : Fin 64} (h : matchQueue s a m = some q) :
    ((getCore s a).queues[q]).valid = true ∧
      (m.route &&& ((getCore s a).queues[q]).tmask) = (((getCore s a).queues[q]).type &&& ((getCore s a).queues[q]).tmask) ∧
      ∀ i : Fin 64, i < q → ((getCore s a).queues[i]).valid = true → queueAdmits s (getCore s a).queues[i] m = true →
        (m.route &&& ((getCore s a).queues[i]).tmask) ≠ (((getCore s a).queues[i]).type &&& ((getCore s a).queues[i]).tmask) := by
  have hmatch := List.find?_some h
  simp only [Queue.matchesType, Bool.and_eq_true, beq_iff_eq] at hmatch
  obtain ⟨⟨hvalid, htype⟩, -⟩ := hmatch
  refine ⟨hvalid, htype, fun i hi hv ha he => ?_⟩
  have hmatches : ((getCore s a).queues[i].valid && (getCore s a).queues[i].matchesType m.route
      && queueAdmits s (getCore s a).queues[i] m) = true := by simp only [Queue.matchesType, hv, ha, he, BEq.rfl, Bool.and_self]
  have hlowest := Fin.eq_false_of_find?_eq_some_of_lt (Fin.find?_eq_find?_finRange.trans h) i hi
  exact Bool.false_ne_true (hlowest.symm.trans hmatches)

/-! ### Journal time-outs (R216, R217) -/

/-- The retransmission of a core's journal entry leaves each core as it was. -/
@[simp] theorem getCore_retransmit (s : State) (ag a : Agent) (j : Nat) : getCore (retransmit s ag j) a = getCore s a := rfl

/-- What is on its way stays so. -/
theorem mem_net_retransmit {s : State} {p : Packet} (ag : Agent) (j : Nat) (hp : p ∈ s.net) : p ∈ (retransmit s ag j).net :=
  List.mem_append_left _ hp

/-- A lost request of the entry is on its way again, and is lost no longer: a packet that is neither an acknowledgement nor a
refusal (`hack` and `hrefusal`, by which the branch of `retransmit` is chosen) is of the core that it comes from. -/
theorem retransmit_lost_request {s : State} {ag : Agent} {j : Nat} {p : Packet} (hp : p ∈ s.dev.lost) (he : p.body.entry = some j)
    (hsrc : p.src = nodeOf ag) (hack : ∀ j, p.body ≠ .ack j) (hrefusal : ∀ w id jn c tv, p.body ≠ .refusal w id jn c tv) :
    p ∈ (retransmit s ag j).net ∧ p ∉ (retransmit s ag j).dev.lost := by
  constructor
  · refine List.mem_append_right _ (List.mem_filter.mpr ⟨hp, ?_⟩)
    simp only [he, BEq.rfl, Bool.true_and, beq_iff_eq]
    exact hsrc.symm
  · intro hlost
    have hkept := (List.mem_filter.mp hlost).2
    simp only [he, BEq.rfl, Bool.true_and, Bool.not_eq_true', beq_eq_false_iff_ne] at hkept
    exact hkept hsrc.symm

section
variable {s : State} {ag : Agent} {e : Fin 64} {x : JEntry} (hx : (getCore s ag).journal.find? (·.idx == e.val) = some x)
include hx

theorem becomes_journalTimeout_retry (ht : x.tries < 3) : Becomes (.journalTimeout ag e) s
    (retransmit (modCore s ag fun co => { co with journal := co.journal.map fun y =>
      if y.idx = x.idx then { y with tries := y.tries + 1 } else y }) ag x.idx) :=
  becomes_of_event (by simp only [exec_journalTimeout, execJournalTimeout, hx, ht, if_true])

theorem becomes_journalTimeout_last (ht : 3 ≤ x.tries) : Becomes (.journalTimeout ag e) s
    (raiseAt (freeJournal (forgetEntry s ag x.idx) ag x.idx) x.who 0x2A (w64 (x.va.toNat % 2 ^ 48 + x.idx % 64 * 2 ^ 48)) [x.home]) :=
  becomes_of_event (by simp only [exec_journalTimeout, execJournalTimeout, hx, Nat.not_lt.mpr ht, if_false, journalTval])

end

/-! ### Links (R217, R232) -/

/-- A link that works again is noted, and no cause is raised. -/
theorem becomes_linkReroute_up (s : State) (a b : Nat) : ∃ u, Becomes (.linkReroute a b true) s u ∧
    u.dev.linksDown = s.dev.linksDown.filter (· ≠ (a, b)) ∧ u.dev.dailies = s.dev.dailies :=
  ⟨_, becomes_of_event rfl, rfl, rfl⟩

/-- A link that fails is noted, with cause 0x2D in the dailies. -/
theorem becomes_linkReroute_down (s : State) (a b : Nat) : ∃ u, Becomes (.linkReroute a b false) s u ∧
    u.dev.linksDown = (a, b) :: s.dev.linksDown.filter (· ≠ (a, b)) ∧ u.dev.dailies = s.dev.dailies ++ [⟨0x2D, a, [b]⟩] :=
  ⟨_, becomes_of_event rfl, rfl, rfl⟩

/-! ### Deposits (R95, R105, R106) -/

/-- A deposit's activation is gone where it has ended or has been killed (R105). -/
theorem depositGone_iff (s : State) (a : Agent) (d : Deposit) : depositGone s a d = true ↔
    (findActivation s ⟨a, d.slot⟩ d.gen = none ∨ ∃ c, findActivation s ⟨a, d.slot⟩ d.gen = some c ∧ c.killed = true) := by
  unfold depositGone
  cases findActivation s ⟨a, d.slot⟩ d.gen <;> simp

theorem depositAt_gone {t : State} {c : Nat} {d : Deposit} (hg : depositGone t (.tile c) d = true) :
    depositAt t c d = some (discardDeposit t c d) := by
  simp only [depositAt, hg, if_true]

theorem depositAt_zero {t : State} {c : Nat} {d : Deposit} (hg : depositGone t (.tile c) d = false) (hr : d.reg = 0) :
    depositAt t c d = some t := by
  simp only [depositAt, hg, hr, Bool.false_eq_true, if_false, if_true]

/-- A deposit waits in the receive queue where it has room and nothing is parked. -/
theorem depositAt_waits {t : State} {c : Nat} {d : Deposit} (hg : depositGone t (.tile c) d = false) (hr : d.reg ≠ 0)
    (hq : (getCore t (.tile c)).recvQ.length < 16) (ho : (getCore t (.tile c)).overflow = []) :
    depositAt t c d = some (modCore t (.tile c) fun co => { co with recvQ := co.recvQ ++ [d] }) := by
  simp [depositAt, hg, hr, hq, ho, modCore]

section
variable {s t : State} {n : Nat} {src : Node} {vn : Fin 4} {sq : BitVec 12} {fwd : Bool} {c : Nat} {d : Deposit} {w : Who}
  {jn : Option Nat} (hp : takePkt s n = some (⟨src, .core c, vn, .deposit d w jn, sq, fwd⟩, t))
include hp

/-- A deposit that no spilled context awaits is acknowledged once it is where it belongs. -/
theorem becomes_depositArrival {u : State} (hd : depositAt t c d = some u)
    (hs : ¬(d.reg ≠ 0 ∧ spilledHas (getCore t (.tile c)) d.slot d.gen = true ∧ depositGone t (.tile c) d = false)) :
    Becomes (.depositArrival n) s (sendAck u (.core c) src jn) := by
  obtain ⟨-, rfl⟩ := takePkt_some hp
  have hs' : ¬(d.reg ≠ 0 ∧ spilledHas (getCore s (.tile c)) d.slot d.gen = true ∧ (!depositGone s (.tile c) d) = true) := by
    rw [Bool.not_eq_true']
    exact hs
  exact becomes_of_event (by simp only [exec_depositArrival, execDepositArrival, hp, hs', hd, if_false])

/-- A deposit for a spilled context is parked, and the context's return is pending (R95). -/
theorem becomes_absentContextMessage (hs : spilledHas (getCore t (.tile c)) d.slot d.gen = true)
    (hg : depositGone t (.tile c) d = false) (hr : d.reg ≠ 0) (ho : (getCore t (.tile c)).overflow.length < overflowSize) :
    Becomes (.absentContextMessage n) s (sendAck (callBack (modCore t (.tile c) fun co => { co with
      overflow := co.overflow ++ [.absent d.slot d] }) (.tile c) d) (.core c) src jn) := by
  have hgo : (!spilledHas (getCore t (.tile c)) d.slot d.gen || depositGone t (.tile c) d || d.reg == 0
      || decide (overflowSize ≤ (getCore t (.tile c)).overflow.length)) = false := by simp [hs, hg, hr, ho]
  exact becomes_of_event (by simp only [exec_absentContextMessage, execAbsentContextMessage, hp, hgo, Bool.false_eq_true, if_false,
    modCore])

end

/-- An acknowledgement leaves each core as it was. -/
@[simp] theorem getCore_sendAck (s : State) (node src : Node) (jn : Option Nat) (a : Agent) :
    getCore (sendAck s node src jn) a = getCore s a := by
  cases jn <;> rfl

/-- A cause for a firmware core's mailbox leaves each core as it was. -/
@[simp] theorem getCore_raiseFw (s : State) (k code : Nat) (tval : Word) (src a : Agent) :
    getCore (raiseFw s k code tval src) a = getCore s a := rfl

/-- The call for a spilled context leaves what is parked. -/
theorem callBack_overflow (s : State) (a : Agent) (d : Deposit) : (getCore (callBack s a d) a).overflow = (getCore s a).overflow := by
  rw [callBack, getCore_raiseFw, getCore_modCore_same]

/-- After it the return of each spilled context that the deposit names is pending. -/
theorem callBack_pending {s : State} {a : Agent} {d : Deposit} {x : Spilled} (hx : x ∈ (getCore (callBack s a d) a).spilled)
    (hslot : x.slot = d.slot) (hgen : x.ctx.gen = d.gen) : x.pending = true := by
  rw [callBack, getCore_raiseFw, getCore_modCore_same] at hx
  obtain ⟨y, -, rfl⟩ := List.mem_map.mp hx
  by_cases h : y.slot = d.slot ∧ y.ctx.gen = d.gen
  · simp only [if_pos h]
  · simp only [if_neg h] at hslot hgen
    exact absurd ⟨hslot, hgen⟩ h

section
variable {s : State} {a : Agent} {i : Nat} {d : Deposit} (hd : (getCore s a).recvQ[i]? = some d)
include hd

theorem landDeposit_gone (hg : depositGone s a d = true) : landDeposit s a i =
    discardDeposit (modCore s a fun co => { co with recvQ := co.recvQ.eraseIdx i }) (agentNo a) d := by
  simp only [landDeposit, hd, hg, if_true]

/-- The oldest deposit that may lands, where no reply may (R106, R240). -/
theorem landDeposit_lands (hg : depositGone s a d = false) (hl : depositLands s a d = true)
    (hfirst : ∀ e ∈ (getCore s a).recvQ.take i, depositLands s a e = false)
    (hsinks : ∀ x ∈ (getCore s a).sinks.toList, sinkLands s x = false) : landDeposit s a i =
      wakeReg (modCtx (modCore s a fun co => { co with recvQ := co.recvQ.eraseIdx i }) ⟨a, d.slot⟩ fun c => c.wg d.reg d.value)
        ⟨a, d.slot⟩ d.reg := by
  have hearlier : ((getCore s a).recvQ.take i).any (depositLands s a) = false := by simpa using hfirst
  have hreplies : (getCore s a).sinks.toList.any (sinkLands s) = false := List.any_eq_false.mpr fun x hx => by simp [hsinks x hx]
  simp only [landDeposit, hd, hg, hl, hearlier, hreplies, Bool.not_false, Bool.and_self, Bool.false_eq_true, if_false, if_true]

end

theorem becomes_depositLanding {s : State} {i : Nat} (a : Agent) (hi : i < 16) : Becomes (.depositLanding a i) s (landDeposit s a i) :=
  becomes_of_event (by simp only [exec_depositLanding, execDepositLanding, hi, if_true])

/-! ### Replies to sinks (R240) -/

theorem becomes_replyArrival {s t : State} {n : Nat} {src : Node} {vn : Fin 4} {sq : BitVec 12} {fwd : Bool} {c i : Nat} {gen : Gen}
    {v : Word} {x : Who × GReg} (hp : takePkt s n = some (⟨src, .core c, vn, .sinkReply i gen v, sq, fwd⟩, t))
    (hb : ((getCore t (.tile c)).sinks[Fin.ofNat 16 i]).bound = some x)
    (hgen : ((getCore t (.tile c)).sinks[Fin.ofNat 16 i]).gen = gen)
    (hv : ((getCore t (.tile c)).sinks[Fin.ofNat 16 i]).value = none) (hu : (getCtx t x.1.ctx).used = true)
    (hg : (getCtx t x.1.ctx).gen = x.1.gen) :
    Becomes (.replyArrival n) s (modCore t (.tile c) fun co => { co with
      sinks := co.sinks.set (Fin.ofNat 16 i) { co.sinks[Fin.ofNat 16 i] with value := some v } }) := by
  have hlive : ((getCtx t x.1.ctx).used && (getCtx t x.1.ctx).gen == x.1.gen) = true := by simp [hu, hg]
  refine becomes_of_event ?_
  simp only [exec_replyArrival, execReplyArrival, hp]
  split
  · next w r hbound =>
    cases hb.symm.trans hbound
    rw [if_pos ⟨hgen, hv⟩]
    simp only [getCtx_modCore, hlive, if_true]
    rfl
  · next hbound => cases hb.symm.trans hbound

/-! ### Send queues (R235) -/

theorem becomes_sendQueueEntryFreed {s : State} (a : Agent) {vn : Fin 4} (h : vn ≠ 3) :
    Becomes (.sendQueueEntryFreed a vn) s (freeSend s a vn) :=
  becomes_of_event (by simp only [exec_sendQueueEntryFreed, execSendQueueEntryFreed, h, if_false])

theorem becomes_sendQueueEntryFreed_spawn {s : State} {a : Agent} {x : SpawnOut} (h : readySpawn s a = some x) :
    Becomes (.sendQueueEntryFreed a 3) s (freeSpawnEntry (launchSpawn s a x) a x.who) :=
  becomes_of_event (by simp only [exec_sendQueueEntryFreed, execSendQueueEntryFreed, h, if_true])

/-! ### The statement -/

/-- Settles O42: each clause is the lemma about its event's function, where the packet that arrives is the one `takePkt` gives. -/
theorem networkEventsAnswer : Obligations.NetworkEventsAnswer := by
  refine ⟨fun s i j p q hij hp hq => takePkt_behind hq hij hp, fun s j p q hq => takePkt_behind_lost hq,
    fun s j c q hq => takePkt_input_off hq, fun s t i p => takePkt_some,
    fun s ag i a hw hr hrole hf hfirst => becomes_of_event (congrArg event (feWaitDone_of_ready hw hr hrole hf hfirst)),
    ?access, fun s t n src vn sq fwd u dst a => becomes_remoteAccessArrival,
    fun s t n src vn sq fwd dst ag w id v hp hag => becomes_accessReplyArrival hag hp,
    fun s t n src vn sq fwd dst ag w id pa v hp hag => becomes_accessReplyArrival_fill hag hp,
    fun s t n src vn sq fwd dst ag j hp hag => becomes_storeAckArrival hag hp,
    fun s t n src vn sq fwd dst ag w j cause tval hp hag => becomes_refusalArrival_entry hag hp,
    fun s t n src vn sq fwd dst ag w id cause tval hp hag => becomes_refusalArrival_value hag hp, ?timeout,
    fun s t n src vn sq fwd dst ag id hp hag => becomes_writeBackAck hag hp,
    fun s t n src vn sq fwd a => becomes_hostAccessTimeout, fun s k r => becomes_of_event rfl, becomes_linkReroute_up,
    becomes_linkReroute_down, ?message,
    fun s t n src vn sq fwd c m w jn hp hq => becomes_messageArrival hp (messageAt_unmatched src w jn hq),
    fun s t n src vn sq fwd u c addr w jn va data m la => becomes_messageArrival_putn, fun s a m q => matchQueue_some, ?deposit,
    ?absent, depositGone_iff, ?landing,
    fun s t n src vn sq fwd c i gen v x => becomes_replyArrival, fun s a => becomes_of_event rfl,
    fun s a vn h => becomes_sendQueueEntryFreed a h, fun s a x => becomes_sendQueueEntryFreed_spawn⟩
  case access =>
    intro s t n src vn sq fwd c m a hp hb hsrc
    obtain ⟨hrole, hwindow, hperform⟩ := accessAtCore_by_check (t := t) hsrc rfl
    refine ⟨fun hv hfe => becomes_remoteAccessArrival hp hb (hrole hv hfe),
      fun hv => becomes_remoteAccessArrival hp hb (hwindow hv), fun k hv hop hf => ?_, fun bs j hv hop hj => ?_⟩
    · rw [← performAccess_load hop hf]
      exact becomes_remoteAccessArrival hp hb (hperform hv (by rw [hop]; rfl))
    · rw [← performAccess_store hop hj]
      exact becomes_remoteAccessArrival hp hb (hperform hv (by rw [hop]; rfl))
  case timeout =>
    intro s ag e x hx
    exact ⟨fun ht => ⟨_, becomes_journalTimeout_retry hx ht, by rw [getCore_retransmit, getCore_modCore_same],
      fun p hp he hsrc hack hrefusal => retransmit_lost_request hp he hsrc hack hrefusal, fun p => mem_net_retransmit ag x.idx⟩,
      becomes_journalTimeout_last hx⟩
  case message =>
    rintro s t n _ vn sq fwd c m' m w jn q rfl hp hq hroom hnone
    exact becomes_messageArrival hp (messageAt_stored w jn hq hroom hnone)
  case deposit =>
    intro s t n src vn sq fwd c d w jn hp
    exact ⟨fun hg => becomes_depositArrival hp (depositAt_gone hg) (by simp [hg]),
      fun hg hr => becomes_depositArrival hp (depositAt_zero hg hr) (by simp [hr]),
      fun hg hr hs hq ho => becomes_depositArrival hp (depositAt_waits hg hr hq ho) (by simp [hs])⟩
  case absent =>
    intro s t n src vn sq fwd c d w jn hp hs hg hr ho
    refine ⟨_, becomes_absentContextMessage hp hs hg hr ho, ?_, fun x hx => ?_⟩
    · rw [getCore_sendAck, callBack_overflow, getCore_modCore_same]
    · rw [getCore_sendAck] at hx
      exact callBack_pending hx
  case landing =>
    intro s a i d hi hd
    exact ⟨fun hg => becomes_of_eq (becomes_depositLanding a hi) (landDeposit_gone hd hg),
      fun hg hl hfirst hsinks => becomes_of_eq (becomes_depositLanding a hi) (landDeposit_lands hd hg hl hfirst hsinks)⟩

end Sys2Proof.Proofs
end

section
/-! PROOF of O33. A sending form checks its destination and its operands, takes an entry of the send queue and then one of the journal
(R235 to R237, R243 to R245, R247): a lemma for each of these, and each form's effect is put together from them. -/

namespace Sys2Proof.Proofs

open Sys2Proof.Machine Sys2Proof.Laws

-- The declarations are checked one after another: checked side by side, their threads exhaust the memory.
set_option Elab.async false

variable {t : State} {core : Nat}

/-! ### The destination (R237) -/

theorem destCheck_inside (h : inLaunch t (opCtx t) core = true) : destCheck t core = .ok () := if_pos h

theorem destCheck_outside (h : inLaunch t (opCtx t) core = false) : destCheck t core = trap 0x08 (reason2 core) :=
  if_neg (Bool.not_eq_true _ ▸ h)

/-! ### The send queue and the journal (R216, R235) -/

theorem takeSend_waits {vn : Fin 4} (h : ¬sendRoom t vn) : takeSend t vn false = .error (.wait t 7 vn.val 0x7FF) :=
  if_pos (Nat.not_lt.mp h)

theorem takeSend_traps {vn : Fin 4} (h : ¬sendRoom t vn) : takeSend t vn true = trap 0x0E (w64 vn.val) :=
  if_pos (Nat.not_lt.mp h)

@[simp] theorem journal_sendSlot (t : State) (vn : Fin 4) : (curCore (sendSlot t vn)).journal = (curCore t).journal := by
  rw [sendSlot, curCore_modCurCore]

/-- A request to a core takes the lowest free entry of the journal. -/
theorem post_of_free {k : Nat} (va : Word) (body : Nat → Body) (h : freeEntry (curCore t).journal = some k) :
    post t (.core core) va body = .ok (posted t k (.core core) va (body k)) := by
  simp only [post, h, posted, reduceCtorEq, if_false]

theorem sendPosted_ok {k : Nat} (traps : Bool) (va : Word) (body : Nat → Body) (hs : sendRoom t 0)
    (hk : freeEntry (curCore t).journal = some k) :
    sendPosted t traps core va body = .ok (holdPkt (posted (sendSlot t 0) k (.core core) va (body k)) 0) := by
  have hpost := post_of_free (core := core) va body ((congrArg freeEntry (journal_sendSlot t 0)).trans hk)
  simp only [sendPosted, takeSend_ok traps hs, hk, hpost, Option.isNone_some, Bool.false_eq_true, if_false, Bind.bind, Except.bind]

theorem sendPosted_waits (va : Word) (body : Nat → Body) (hs : ¬sendRoom t 0) :
    sendPosted t false core va body = .error (.wait t 7 0 0x7FF) := by
  rw [sendPosted, takeSend_waits hs]
  rfl

theorem sendPosted_traps (va : Word) (body : Nat → Body) (hs : ¬sendRoom t 0) : sendPosted t true core va body = trap 0x0E 0 := by
  rw [sendPosted, takeSend_traps hs]
  rfl

/-! ### SEND, SENDQ and CUT (R243) -/

/-- The message of SEND and SENDQ, and the end-of-stream mark of CUT. -/
def sentMsg (t : State) (cut : Bool) (a b : GReg) (n : Nat) : Message :=
  mkMsg t (if cut then 0xFFFE else bits (rg t a).toNat 31 16) (bits (rg t a).toNat 31 16) 0 (payloadOf t b n)

/-- CUT's payload is empty. -/
theorem payloadOk_zero (b : GReg) : payloadOk b 0 := ⟨Nat.zero_le _, fun h => absurd h (Nat.lt_irrefl 0)⟩

section
variable {a b : GReg} (word : Nat) (cut traps : Bool) (n : BitVec 4)

/-- A sending form with an admitted destination, type and payload comes down to its packet. -/
theorem sendOp_admitted (hd : destOk t (rg t a)) (hty : bits (rg t a).toNat 31 16 < 0xFFFE) (hp : payloadOk b n) :
    sendOp word cut traps a b n.toNat t =
      (sendPosted t traps ((rg t a).toNat % 2 ^ 11) 0 fun j => .message (sentMsg t cut a b n.toNat) none (some j)) >>= ok := by
  obtain ⟨hn, hb⟩ := hp
  have hok : ¬(0xFFFE ≤ bits (rg t a).toNat 31 16 ∨ 8 < n.toNat ∨ (0 < n.toNat ∧ 32 < b.val + n.toNat)) := by omega
  simp only [sendOp, destCheck_inside hd, if_neg hok, sentMsg, Bind.bind, Except.bind]

theorem sendOp_posts {k : Nat} (hd : destOk t (rg t a)) (hty : bits (rg t a).toNat 31 16 < 0xFFFE) (hp : payloadOk b n)
    (hs : sendRoom t 0) (hk : freeEntry (curCore t).journal = some k) :
    sendOp word cut traps a b n.toNat t = .ok (goesOn (holdPkt (posted (sendSlot t 0) k (.core ((rg t a).toNat % 2 ^ 11)) 0
      (.message (sentMsg t cut a b n.toNat) none (some k))) 0)) := by
  rw [sendOp_admitted word cut traps n hd hty hp, sendPosted_ok traps _ _ hs hk]
  rfl

theorem sendOp_waits (hd : destOk t (rg t a)) (hty : bits (rg t a).toNat 31 16 < 0xFFFE) (hp : payloadOk b n)
    (hs : ¬sendRoom t 0) : sendOp word cut false a b n.toNat t = .error (.wait t 7 0 0x7FF) := by
  rw [sendOp_admitted word cut false n hd hty hp, sendPosted_waits _ _ hs]
  rfl

theorem sendOp_traps (hd : destOk t (rg t a)) (hty : bits (rg t a).toNat 31 16 < 0xFFFE) (hp : payloadOk b n)
    (hs : ¬sendRoom t 0) : sendOp word cut true a b n.toNat t = trap 0x0E 0 := by
  rw [sendOp_admitted word cut true n hd hty hp, sendPosted_traps _ _ hs]
  rfl

theorem sendOp_outside (n : Nat) (h : inLaunch t (opCtx t) ((rg t a).toNat % 2 ^ 11) = false) :
    sendOp word cut traps a b n t = trap 0x08 (reason2 ((rg t a).toNat % 2 ^ 11)) := by
  rw [sendOp, destCheck_outside h]
  rfl

end

/-! ### SENDR, REPLY and PUTN (R244, R245, R247) -/

section
variable {d a b : GReg} {k : Nat}

theorem sendrOp_posts (r : Fin 32) (hd : destOk t (rg t a)) (hs : sendRoom t 0) (hk : freeEntry (curCore t).journal = some k) :
    sendrOp a b r t = .ok (goesOn (holdPkt (posted (sendSlot t 0) k (.core ((rg t a).toNat % 2 ^ 11)) 0
      (.deposit ⟨bits (rg t a).toNat 21 16, BitVec.ofNat 16 (bits (rg t a).toNat 47 32), r, rg t b, agentNo t.cur.agent⟩
        (curWho (sendSlot t 0) 0) (some k))) 0)) := by
  simp only [sendrOp, destCheck_inside hd, sendPosted_ok false _ _ hs hk, Bind.bind, Except.bind]
  rfl

theorem sendrOp_outside (r : Fin 32) (h : inLaunch t (opCtx t) ((rg t a).toNat % 2 ^ 11) = false) :
    sendrOp a b r t = trap 0x08 (reason2 ((rg t a).toNat % 2 ^ 11)) := by
  rw [sendrOp, destCheck_outside h]
  rfl

/-- A reply through a token that is not valid does nothing. -/
theorem replyOp_invalid (traps : Bool) (h : bit (rg t a).toNat 63 = false) : replyOp traps a b t = .ok (goesOn t) :=
  if_pos (by rw [h]; rfl)

theorem replyOp_sends (traps : Bool) (h : bit (rg t a).toNat 63 = true) (hs : sendRoom t 1) :
    replyOp traps a b t = .ok (goesOn (holdPkt (sendPkt (sendSlot t 1) (nodeOf t.cur.agent) (.core ((rg t a).toNat % 2 ^ 11)) 1
      (.sinkReply (bits (rg t a).toNat 23 20) (BitVec.ofNat 16 (bits (rg t a).toNat 47 32)) (rg t b))) 1)) := by
  simp only [replyOp, h, Bool.not_true, Bool.false_eq_true, if_false, takeSend_ok traps hs, Bind.bind, Except.bind]
  rfl

theorem putnOp_posts (word : Nat) (n : BitVec 4) (h0 : 0 < n.toNat) (hp : payloadOk b n) (h8 : (rg t a).toNat % 8 = 0)
    (hloc : isLocal (rg t a).toNat = true) (hty : bits (rg t d).toNat 31 16 < 0xFFFE)
    (hd : inLaunch t (opCtx t) (bits (rg t a).toNat 43 33) = true) (hs : sendRoom t 0)
    (hk : freeEntry (curCore t).journal = some k) :
    putnOp word d a b n.toNat t = .ok (goesOn (holdPkt (posted (sendSlot t 0) k (.core (bits (rg t a).toNat 43 33)) (rg t a)
      (.putn (curWho t 0) (some k) (rg t a).toNat (rg t a) (payloadOf t b n.toNat)
        (mkMsg t (bits (rg t d).toNat 31 16) (bits (rg t d).toNat 31 16) 0 [rg t a, w64 n.toNat]) (opCtx t).launch)) 0)) := by
  obtain ⟨hn, hb⟩ := hp
  have hok : ¬(n.toNat = 0 ∨ 8 < n.toNat ∨ 32 < b.val + n.toNat ∨ 0xFFFE ≤ bits (rg t d).toNat 31 16) := by
    have := hb h0
    omega
  simp only [putnOp, if_neg hok, h8, ne_eq, not_true_eq_false, if_false, hloc, Bool.not_true, Bool.false_eq_true,
    destCheck_inside hd, sendPosted_ok false _ _ hs hk, Bind.bind, Except.bind]
  rfl

end

/-! ### The statement -/

/-- An own effect that waits is a wait of its bundle. -/
theorem waitsIf_of_effect {i : Instr} {body : Effect} {pre : State → Prop} {kind : Nat} {obj owner : State → Nat}
    (hi : ∀ s, exec i s = issue (form i) body s)
    (hb : ∀ t, pre t → body t = .error (.wait t kind (obj t) (owner t))) : WaitsIf i pre kind obj owner :=
  fun s t h hp => (hi s).trans (issue_stalls h (hb t hp))

/-- Settles O33: each form's clause is the lemma about its effect. -/
theorem sendingAnswers : Obligations.SendingAnswers := fun d a b n r _ => ⟨
  answersIf_of_effect (exec_send a b n) fun _ ⟨hd, hty, hp, hs, hk⟩ => sendOp_posts _ false false n hd hty hp hs hk,
  answersIf_of_effect (exec_sendq a b n) fun _ ⟨hd, hty, hp, hs, hk⟩ => sendOp_posts _ false true n hd hty hp hs hk,
  answersIf_of_effect (exec_cut a) fun _ ⟨hd, hty, hs, hk⟩ => sendOp_posts _ true false 0 hd hty (payloadOk_zero 0) hs hk,
  answersIf_of_effect (exec_sendr a b r) fun _ ⟨hd, hs, hk⟩ => sendrOp_posts r hd hs hk,
  answersIf_of_effect (exec_reply a b) fun _ => replyOp_invalid false,
  answersIf_of_effect (exec_reply a b) fun _ ⟨h, hs⟩ => replyOp_sends false h hs,
  answersIf_of_effect (exec_replyQ a b) fun _ => replyOp_invalid true,
  answersIf_of_effect (exec_replyQ a b) fun _ ⟨h, hs⟩ => replyOp_sends true h hs,
  answersIf_of_effect (exec_putn d a b n) fun _ ⟨h0, hp, h8, hloc, hty, hd, hs, hk⟩ => putnOp_posts _ n h0 hp h8 hloc hty hd hs hk,
  raisesIf_of_effect (exec_send a b n) fun _ => sendOp_outside _ false false _,
  raisesIf_of_effect (exec_sendq a b n) fun _ => sendOp_outside _ false true _,
  raisesIf_of_effect (exec_cut a) fun _ => sendOp_outside _ true false _,
  raisesIf_of_effect (exec_sendr a b r) fun _ => sendrOp_outside r,
  waitsIf_of_effect (exec_send a b n) fun _ ⟨hd, hty, hp, hs⟩ => sendOp_waits _ false n hd hty hp hs,
  raisesIf_of_effect (exec_sendq a b n) fun _ ⟨hd, hty, hp, hs⟩ => sendOp_traps _ false n hd hty hp hs⟩

end Sys2Proof.Proofs
end

section
/-! PROOF of O34. A GETR binds a sink and sends its message (R240, R246); QPOP and QPEEK prepare their queue and store the record of
its head (R248), whose words are read back from its bytes (Table 10.8); QSTAT reads a status (R249). -/

namespace Sys2Proof.Proofs

open Sys2Proof.Machine Sys2Proof.Laws

-- The declarations are checked one after another: checked side by side, their threads exhaust the memory.
set_option Elab.async false

variable {t : State} {d a b : GReg}

/-! ### GETR (R240, R246) -/

section
variable (word : Nat) (hd0 : d ≠ 0) (hd : destOk t (rg t a)) (hty : bits (rg t a).toNat 31 16 < 0xFFFE)
  (hh : getrHold t d = .ok ())
include hd0 hd hty hh

/-- A GETR binds the lowest free sink under a new generation, and its message carries the sink's token. -/
theorem getrOp_sends {x : Fin 16} (hx : freeSink (curCore t) = some x) (hs : sendRoom t 0) :
    getrOp word d a b t =
      let gen := ((curCore t).sinks[x]).gen + 1
      let token : Word := w64 (2 ^ 63 + gen.toNat * 2 ^ 32 + x.val * 2 ^ 20 + agentNo t.cur.agent % 2 ^ 11)
      let u := sendSlot t 0
      let u := modCurCore u fun co => { co with sinks := co.sinks.set x ⟨gen, some (curWho t 0, d), ((rg t a).toNat % 2 ^ 11), none⟩ }
      .ok (goesOn (setBits (holdPkt (sendPkt u (nodeOf t.cur.agent) (.core ((rg t a).toNat % 2 ^ 11)) 0
        (.message (mkMsg t (bits (rg t a).toNat 31 16) (bits (rg t a).toNat 31 16) token [rg t b]) (some (curWho t 0)) none)) 0)
        d false true)) := by
  have hok : ¬(0xFFFE ≤ bits (rg t a).toNat 31 16 ∨ d = 0) := not_or.mpr ⟨Nat.not_le.mpr hty, hd0⟩
  simp only [getrOp, hh, destCheck_inside hd, if_neg hok, hx, takeSend_ok false hs, Bind.bind, Except.bind]
  rfl

theorem getrOp_waits (hx : freeSink (curCore t) = none) :
    getrOp word d a b t = .error (.wait t 6 0 ((rg t a).toNat % 2 ^ 11)) := by
  have hok : ¬(0xFFFE ≤ bits (rg t a).toNat 31 16 ∨ d = 0) := not_or.mpr ⟨Nat.not_le.mpr hty, hd0⟩
  simp only [getrOp, hh, destCheck_inside hd, if_neg hok, hx, Bind.bind, Except.bind]

end

theorem getrSet_ok (p x : Bool) (h : getrHold t d = .ok ()) :
    (do getrHold t d; ok (setBits t d p x) : Do Done) = .ok (goesOn (setBits t d p x)) := by
  rw [h]
  rfl

/-! ### QPOP and QPEEK (R248) -/

/-- The queue that a register names. -/
abbrev queueNo (t : State) (a : GReg) : Fin 64 := Fin.ofNat 64 (rg t a).toNat

section
variable (pop : Bool)

theorem qpopOp_unbound (h : ((curCore t).queues[queueNo t a]).valid = false ∨
    ((curCore t).queues[queueNo t a]).launch ≠ (opCtx t).launch) : qpopOp pop d a b t = .ok (goesOn (wgSlow t d 1)) :=
  if_pos (by simpa using h)

section
variable (hv : ((curCore t).queues[queueNo t a]).valid = true) (hl : ((curCore t).queues[queueNo t a]).launch = (opCtx t).launch)
include hv hl

theorem qpopOp_empty (hm : ((curCore (readyQueue t t.cur.agent (queueNo t a))).queues[queueNo t a]).msgs = []) :
    qpopOp pop d a b t = .ok (goesOn (wgSlow (readyQueue t t.cur.agent (queueNo t a)) d 0)) := by
  simp only [qpopOp, hv, hl, hm, Bool.not_true, bne_self_eq_false, Bool.or_self, Bool.false_eq_true, if_false]
  rfl

/-- The record of the head message is written into the own pool, and QPOP drops the head. -/
theorem qpopOp_head {r u : State} {msg : Message} {l : List Message} {off : Nat} (hr : readyQueue t t.cur.agent (queueNo t a) = r)
    (hm : ((curCore r).queues[queueNo t a]).msgs = msg :: l) (hfresh : staleHead r ((curCore r).queues[queueNo t a]) = false)
    (h8 : (rg t b).toNat % 8 = 0) (hres : resolveCur r (rg t b) 1 .wr = .ok (u, .own off))
    (hown : ownCheck u (rg t b) off 88 true = .ok ()) {w : State}
    (hw : homeWrite u (localAddr (agentNo t.cur.agent) off) (msgRecord (queueNo t a) msg) 0 (writerNo t.cur.agent)
      (some (curWho u 0)) = w) :
    qpopOp pop d a b t = .ok (goesOn (wgSlow (if pop then dropHead w t.cur.agent (queueNo t a) else w) d
      (w64 (2 ^ 63 + (queueNo t a).val * 2 ^ 20 + msg.payload.length % 16 * 2 ^ 16 + msg.ty.toNat)))) := by
  simp only [qpopOp, hv, hl, hr, hm, hfresh, h8, hres, hown, hw, Bool.not_true, bne_self_eq_false, Bool.or_self, Bool.false_eq_true,
    if_false, ne_eq, not_true_eq_false, Bind.bind, Except.bind]
  rfl

end

end

/-! ### QSTAT.CLR (R249) -/

theorem qstatClrOp_bound (hv : ((curCore t).queues[queueNo t a]).valid = true)
    (hl : ((curCore t).queues[queueNo t a]).launch = (opCtx t).launch) :
    qstatClrOp d a t = .ok (goesOn (wgSlow (modQueue t t.cur.agent (queueNo t a) fun x => { x with stalecnt := 0 }) d
      (queueStatus t (queueNo t a)))) := by
  simp only [qstatClrOp, hv, hl, beq_self_eq_true, Bool.and_self, if_true]
  rfl

theorem queueStatus_unbound {q : Fin 64} (h : ((curCore t).queues[q]).valid = false ∨
    ((curCore t).queues[q]).launch ≠ (opCtx t).launch) : queueStatus t q = 0 := if_pos (by simpa using h)

theorem qstatClrOp_unbound (h : ((curCore t).queues[queueNo t a]).valid = false ∨
    ((curCore t).queues[queueNo t a]).launch ≠ (opCtx t).launch) : qstatClrOp d a t = .ok (goesOn (wgSlow t d 0)) := by
  have hc : ¬(((curCore t).queues[queueNo t a]).valid && ((curCore t).queues[queueNo t a]).launch == (opCtx t).launch) = true := by
    rw [Bool.and_eq_true, beq_iff_eq, not_and_or, Bool.not_eq_true]
    exact h
  simp only [qstatClrOp, if_neg hc, queueStatus_unbound h]
  rfl

/-! ### The record of a message (Table 10.8) -/

theorem natOf_bytesOf (n : Nat) : ∀ v : Nat, natOf (bytesOf v n) = v % 256 ^ n := by
  induction n with
  | zero => intro v; simp [bytesOf, natOf, Nat.mod_one]
  | succ n ih => intro v; rw [bytesOf, natOf, ih, Nat.pow_succ', Nat.mod_mul, BitVec.toNat_ofNat]

/-- The `k`-th eight bytes of some words laid out one after another are the bytes of the `k`-th word. -/
theorem take_drop_flatMap_bytesOf : ∀ {l : List Nat} {k v : Nat}, l[k]? = some v →
    ((l.flatMap fun w => bytesOf w 8).drop (8 * k)).take 8 = bytesOf v 8
  | w :: l, 0, v, h => by
    obtain rfl : w = v := by simpa using h
    rw [List.flatMap_cons, Nat.mul_zero, List.drop_zero, List.take_append_of_le_length (length_bytesOf 8 w).ge,
      List.take_of_length_le (length_bytesOf 8 w).le]
  | w :: l, k + 1, v, h => by
    have hdrop : 8 * (k + 1) = (bytesOf w 8).length + 8 * k := by rw [length_bytesOf]; omega
    rw [List.flatMap_cons, hdrop, List.drop_length_add_append, take_drop_flatMap_bytesOf (by simpa using h)]

/-- The words of a message's record. -/
def recordWords (q : Fin 64) (m : Message) : List Nat :=
  [m.ty.toNat + m.payload.length % 16 * 2 ^ 16 + q.val * 2 ^ 20, m.slate.toNat, m.token.toNat] ++
    (List.range 8).map fun i => (m.payload[i]?.getD 0).toNat

theorem msgRecord_eq (q : Fin 64) (m : Message) : msgRecord q m = (recordWords q m).flatMap fun w => bytesOf w 8 := rfl

theorem length_msgRecord (q : Fin 64) (m : Message) : (msgRecord q m).length = 88 := by
  have hwords : (recordWords q m).length = 11 := by simp [recordWords]
  simp only [msgRecord_eq, List.length_flatMap, length_bytesOf, List.map_const', List.sum_replicate, hwords, smul_eq_mul]

/-- A word of the record reads back from its eight bytes. -/
theorem natOf_msgRecord {q : Fin 64} {m : Message} {k v : Nat} (h : (recordWords q m)[k]? = some v) (hv : v < 2 ^ 64) :
    natOf (((msgRecord q m).drop (8 * k)).take 8) = v := by
  rw [msgRecord_eq, take_drop_flatMap_bytesOf h, natOf_bytesOf]
  exact Nat.mod_eq_of_lt hv

theorem recordWords_payload (q : Fin 64) (m : Message) {j : Nat} (hj : j < 8) :
    (recordWords q m)[3 + j]? = some (m.payload[j]?.getD 0).toNat := by
  rw [recordWords, List.getElem?_append_right (Nat.le_add_right 3 j), List.length_cons, List.length_cons, List.length_cons,
    List.length_nil, Nat.add_sub_cancel_left, List.getElem?_map, List.getElem?_range hj, Option.map_some]

theorem msgRecord_words (q : Fin 64) (m : Message) : (msgRecord q m).length = 88 ∧
    natOf ((msgRecord q m).take 8) = m.ty.toNat + m.payload.length % 16 * 2 ^ 16 + q.val * 2 ^ 20 ∧
    natOf (((msgRecord q m).drop 8).take 8) = m.slate.toNat ∧ natOf (((msgRecord q m).drop 16).take 8) = m.token.toNat ∧
    ∀ j < 8, natOf (((msgRecord q m).drop (24 + 8 * j)).take 8) = (m.payload[j]?.getD 0).toNat := by
  have hw0 : m.ty.toNat + m.payload.length % 16 * 2 ^ 16 + q.val * 2 ^ 20 < 2 ^ 64 := by
    have := m.ty.isLt
    have := q.isLt
    omega
  refine ⟨length_msgRecord q m, natOf_msgRecord (k := 0) rfl hw0, natOf_msgRecord (k := 1) rfl m.slate.isLt,
    natOf_msgRecord (k := 2) rfl m.token.isLt, fun j hj => ?_⟩
  rw [show 24 + 8 * j = 8 * (3 + j) by omega]
  exact natOf_msgRecord (recordWords_payload q m hj) (BitVec.isLt _)

/-! ### The statement -/

/-- Settles O34: each form's clause is the lemma about its effect, and the record's is `msgRecord_words`. -/
theorem receivingAnswers : Obligations.ReceivingAnswers := fun d a b => ⟨
  fun _ h0 => answersIf_of_effect (exec_getr d a b) fun _ ⟨hd, hty, hh, hx, hs⟩ => getrOp_sends _ h0 hd hty hh hx hs,
  fun h0 => waitsIf_of_effect (exec_getr d a b) fun _ ⟨hd, hty, hh, hx⟩ => getrOp_waits _ h0 hd hty hh hx,
  answersIf_of_effect (exec_getrArm d) fun _ => getrSet_ok false true,
  answersIf_of_effect (exec_getrDis d) fun _ => getrSet_ok true false,
  answersIf_of_effect (exec_qpop d a b) fun _ => qpopOp_unbound true,
  answersIf_of_effect (exec_qpop d a b) fun _ ⟨hv, hl, hm⟩ => qpopOp_empty true hv hl hm,
  fun s _ _ _ _ _ _ h hq hv hl hm hf h8 hr ho => by
    subst hq
    exact commits_of_effect (exec_qpop d a b s) h (qpopOp_head true hv hl rfl hm hf h8 hr ho rfl),
  answersIf_of_effect (exec_qpeek d a b) fun _ => qpopOp_unbound false,
  answersIf_of_effect (exec_qpeek d a b) fun _ ⟨hv, hl, hm⟩ => qpopOp_empty false hv hl hm,
  fun s _ _ _ _ _ _ h hq hv hl hm hf h8 hr ho => by
    subst hq
    exact commits_of_effect (exec_qpeek d a b s) h (qpopOp_head false hv hl rfl hm hf h8 hr ho rfl),
  answers_of_effect (exec_qstat d a) fun _ => rfl,
  answersIf_of_effect (exec_qstatClr d a) fun _ ⟨hv, hl⟩ => qstatClrOp_bound hv hl,
  answersIf_of_effect (exec_qstatClr d a) fun _ => qstatClrOp_unbound,
  msgRecord_words⟩

end Sys2Proof.Proofs
end

section
/-! PROOF of O31. Oldest compares slates by take, phase and origin, which bit 7 is no part of: `slateKey`. Its result is fixed by the
lower key, so neither the order of its operands nor that of a fold counts (R320). -/

namespace Sys2Proof.Proofs

open Sys2Proof.Machine Sys2Proof.Laws

-- The declarations are checked one after another: checked side by side, their threads exhaust the memory.
set_option Elab.async false

variable {s r : State} {x y z : Word}

/-! ### What Oldest compares -/

/-- Take, phase and origin of a slate as one number (Table 14.9). -/
def slateKey (x : Word) : Nat := x.toNat / 256 * 128 + x.toNat % 128

theorem sameSlate_iff_key : sameSlate x y ↔ slateKey x = slateKey y := by
  have hkey : slateKey x = slateKey y ↔ x.toNat / 2 ^ 8 = y.toNat / 2 ^ 8 ∧ x.toNat % 2 ^ 7 = y.toNat % 2 ^ 7 := by
    unfold slateKey
    omega
  rw [hkey]
  constructor
  · intro h
    have hbit (i : Nat) (hi : i ≠ 7) : x.toNat.testBit i = y.toNat.testBit i := h i hi
    constructor <;> refine Nat.eq_of_testBit_eq fun i => ?_
    · rw [Nat.testBit_div_two_pow, Nat.testBit_div_two_pow, hbit _ (by omega)]
    · rw [Nat.testBit_mod_two_pow, Nat.testBit_mod_two_pow]
      by_cases hi : i < 7
      · rw [hbit i (by omega)]
      · simp [hi]
  · rintro ⟨hhigh, hlow⟩ i hi
    rcases Nat.lt_or_gt_of_ne hi with h | h
    · have := congrArg (·.testBit i) hlow
      simpa [BitVec.getLsbD, Nat.testBit_mod_two_pow, h, -Nat.reducePow] using this
    · have := congrArg (·.testBit (i - 8)) hhigh
      simpa [BitVec.getLsbD, Nat.testBit_div_two_pow, show i - 8 + 8 = i by omega, -Nat.reducePow] using this

theorem getLsbD_bit7 (i : Nat) : (0x80#64).getLsbD i = decide (i = 7) := by
  rw [BitVec.getLsbD_ofNat, show (128 : Nat) = 2 ^ 7 from rfl, Nat.testBit_two_pow]
  by_cases h : i = 7
  · simp [h]
  · simp [h, Ne.symm h]

theorem getLsbD_memberWord (b : Bool) (i : Nat) : (w64 (b2n b * 128)).getLsbD i = (decide (i = 7) && b) := by
  cases b
  · simp [b2n, w64]
  · exact (getLsbD_bit7 i).trans (Bool.and_true _).symm

theorem getLsbD_clear7 (x : Word) (i : Nat) : (x &&& ~~~(0x80#64)).getLsbD i = (x.getLsbD i && !decide (i = 7)) := by
  rw [BitVec.getLsbD_and, BitVec.getLsbD_not, getLsbD_bit7]
  by_cases hi : i < 64
  · simp [hi]
  · simp [BitVec.getLsbD_of_ge _ _ (Nat.le_of_not_lt hi)]

theorem getLsbD_stampMember (s : State) (x : Word) (i : Nat) :
    (stampMember s x).getLsbD i = if i = 7 then memberBit s else x.getLsbD i := by
  rw [stampMember, BitVec.getLsbD_or, getLsbD_clear7, getLsbD_memberWord]
  by_cases h : i = 7 <;> simp [h]

@[simp] theorem slateKey_stampMember (s : State) (x : Word) : slateKey (stampMember s x) = slateKey x :=
  sameSlate_iff_key.mp fun i hi => by rw [getLsbD_stampMember, if_neg hi]

/-- A stamped slate is fixed by its key. -/
theorem stampMember_congr (h : slateKey x = slateKey y) : stampMember s x = stampMember s y := by
  refine BitVec.eq_of_getLsbD_eq fun i _ => ?_
  rw [getLsbD_stampMember, getLsbD_stampMember]
  split
  · rfl
  · exact sameSlate_iff_key.mpr h i ‹_›

@[simp] theorem slateKey_zero : slateKey 0 = 0 := rfl

theorem slateOk_iff : slateOk x ↔ x = 0 ∨ slateKey x ≠ 0 := by
  have : x &&& ~~~(0x80#64) = 0 ↔ slateKey x = slateKey 0 := by
    rw [← sameSlate_iff_key]
    constructor
    · intro h i hi
      have := congrArg (·.getLsbD i) h
      simpa only [getLsbD_clear7, hi, decide_false, Bool.not_false, Bool.and_true] using this
    · intro h
      refine BitVec.eq_of_getLsbD_eq fun i _ => ?_
      rw [getLsbD_clear7]
      by_cases hi : i = 7
      · simp [hi]
      · simp [h i hi]
  rw [slateOk, ne_eq, this, slateKey_zero]

/-! ### Oldest -/

theorem oldest_zero_left (s : State) (y : Word) : oldest s 0 y = y := if_pos rfl

theorem oldest_zero_right (s : State) (x : Word) : oldest s x 0 = x := by
  by_cases h : x = 0
  · rw [h, oldest_zero_left]
  · rw [oldest, if_neg h, if_pos rfl]

/-- Of two slates the one with the lower key, stamped. -/
theorem oldest_of_ne (hx : x ≠ 0) (hy : y ≠ 0) : oldest s x y = stampMember s (if slateKey x ≤ slateKey y then x else y) := by
  have hkey : (if x.toNat / 256 ≠ y.toNat / 256 then (if x.toNat / 256 < y.toNat / 256 then x else y)
      else if x.toNat % 128 ≤ y.toNat % 128 then x else y) = if slateKey x ≤ slateKey y then x else y := by
    unfold slateKey
    split
    · exact if_congr (by omega) rfl rfl
    · exact if_congr (by omega) rfl rfl
  rw [← hkey]
  simp only [oldest, hx, hy, if_false]

theorem oldest_of_le (hx : x ≠ 0) (hy : y ≠ 0) (h : slateKey x ≤ slateKey y) :
    oldest s x y = stampMember s x ∧ oldest s y x = stampMember s x := by
  rw [oldest_of_ne hx hy, oldest_of_ne hy hx, if_pos h]
  refine ⟨rfl, ?_⟩
  split
  · exact stampMember_congr (Nat.le_antisymm ‹_› h)
  · rfl

theorem oldest_comm (s : State) (x y : Word) : oldest s x y = oldest s y x := by
  by_cases hx : x = 0
  · rw [hx, oldest_zero_left, oldest_zero_right]
  by_cases hy : y = 0
  · rw [hy, oldest_zero_left, oldest_zero_right]
  rcases Nat.le_total (slateKey x) (slateKey y) with h | h
  · exact (oldest_of_le hx hy h).1.trans (oldest_of_le hx hy h).2.symm
  · exact (oldest_of_le hy hx h).2.trans (oldest_of_le hy hx h).1.symm

/-- The key of the result is the lower one. -/
theorem slateKey_oldest (hx : x ≠ 0) (hy : y ≠ 0) : slateKey (oldest s x y) = min (slateKey x) (slateKey y) := by
  rw [oldest_of_ne hx hy, slateKey_stampMember]
  split <;> omega

/-- What is neither 0 nor bit 7 alone. -/
theorem ne_zero_of_key (h : slateKey x ≠ 0) : x ≠ 0 := fun e => h (e ▸ slateKey_zero)

theorem oldest_ok (s : State) (hx : slateOk x) (hy : slateOk y) : slateOk (oldest s x y) := by
  rcases slateOk_iff.mp hx with rfl | kx
  · rwa [oldest_zero_left]
  rcases slateOk_iff.mp hy with rfl | ky
  · rwa [oldest_zero_right]
  refine slateOk_iff.mpr (.inr ?_)
  rw [slateKey_oldest (ne_zero_of_key kx) (ne_zero_of_key ky)]
  omega

/-- A result is stamped, so one key fixes it. -/
theorem oldest_eq_stamp (hx : slateKey x ≠ 0) (hy : slateKey y ≠ 0) (h : slateKey z = min (slateKey x) (slateKey y)) :
    oldest s x y = stampMember s z := by
  rw [oldest_of_ne (ne_zero_of_key hx) (ne_zero_of_key hy)]
  refine stampMember_congr ?_
  split <;> omega

/-- Two slates that join a fold may change places. -/
theorem oldest_right_comm (s : State) (hz : slateOk z) (hx : slateOk x) (hy : slateOk y) :
    oldest s (oldest s z x) y = oldest s (oldest s z y) x := by
  rcases slateOk_iff.mp hz with rfl | kz
  · rw [oldest_zero_left, oldest_zero_left, oldest_comm]
  rcases slateOk_iff.mp hx with rfl | kx
  · rw [oldest_zero_right, oldest_zero_right]
  rcases slateOk_iff.mp hy with rfl | ky
  · rw [oldest_zero_right, oldest_zero_right]
  have hzx := slateKey_oldest (s := s) (ne_zero_of_key kz) (ne_zero_of_key kx)
  have hzy := slateKey_oldest (s := s) (ne_zero_of_key kz) (ne_zero_of_key ky)
  have hne : slateKey (oldest s z x) ≠ 0 ∧ slateKey (oldest s z y) ≠ 0 := by omega
  have hlast := slateKey_oldest (s := s) (ne_zero_of_key hne.2) (ne_zero_of_key kx)
  rw [oldest_eq_stamp (z := oldest s (oldest s z y) x) hne.1 ky (by omega), ← oldest_eq_stamp hne.2 kx hlast]

/-! ### Folds -/

theorem foldl_oldest_perm (s : State) {l k : List Word} (h : l.Perm k) :
    ∀ z, slateOk z → (∀ x ∈ l, slateOk x) → l.foldl (oldest s) z = k.foldl (oldest s) z := by
  induction h with
  | nil => intros; rfl
  | cons x _ ih =>
    intro z hz hl
    obtain ⟨hx, hl⟩ := List.forall_mem_cons.mp hl
    exact ih _ (oldest_ok s hz hx) hl
  | swap x y l =>
    intro z hz hl
    obtain ⟨hy, hl⟩ := List.forall_mem_cons.mp hl
    obtain ⟨hx, -⟩ := List.forall_mem_cons.mp hl
    rw [List.foldl_cons, List.foldl_cons, List.foldl_cons, List.foldl_cons, oldest_right_comm s hz hy hx]
  | trans hlk _ ih ih' =>
    intro z hz hl
    rw [ih z hz hl, ih' z hz fun x hx => hl x (hlk.mem_iff.mpr hx)]

/-- Two packages' results agree where what they started from does. -/
theorem oldest_same {x' : Word} (hx : slateOk x) (hx' : slateOk x') (h : slateKey x = slateKey x') (y : Word) :
    slateKey (oldest s x y) = slateKey (oldest r x' y) := by
  have hzero : x = 0 ↔ x' = 0 := by
    rcases slateOk_iff.mp hx with rfl | kx <;> rcases slateOk_iff.mp hx' with rfl | kx'
    · exact Iff.rfl
    · exact absurd h.symm kx'
    · exact absurd h kx
    · exact iff_of_false (ne_zero_of_key kx) (ne_zero_of_key kx')
  by_cases h0 : x = 0
  · rw [h0, hzero.mp h0, oldest_zero_left, oldest_zero_left]
  by_cases hy0 : y = 0
  · rw [hy0, oldest_zero_right, oldest_zero_right, h]
  rw [slateKey_oldest h0 hy0, slateKey_oldest (h0 ∘ hzero.mpr) hy0, h]

theorem foldl_oldest_same (s r : State) (l : List Word) (hl : ∀ x ∈ l, slateOk x) :
    ∀ z z', slateOk z → slateOk z' → slateKey z = slateKey z' →
      slateKey (l.foldl (oldest s) z) = slateKey (l.foldl (oldest r) z') := by
  induction l with
  | nil => exact fun _ _ _ _ h => h
  | cons x l ih =>
    intro z z' hz hz' h
    obtain ⟨hx, hl⟩ := List.forall_mem_cons.mp hl
    exact ih hl _ _ (oldest_ok s hz hx) (oldest_ok r hz' hx) (oldest_same hz hz' h x)

/-! ### The statement -/

/-- Settles O31: the clauses of one application are `oldest_of_le`, those of the folds inductions with any accumulator. -/
theorem oldestSlate : Obligations.OldestSlate := by
  refine fun s x y => ⟨oldest_zero_left s y, oldest_zero_right s x, fun hx hy h => oldest_of_le hx hy ?_,
    fun hx hy h h' => oldest_of_le hx hy ?_, (getLsbD_stampMember ..).trans (if_pos rfl), fun i hi => by rw [getLsbD_stampMember, if_neg hi],
    fun hx hy h h' => (oldest_of_le hx hy ?_).1, oldest_comm s x y,
    fun l k h hl => foldl_oldest_perm s h 0 (.inl rfl) hl, fun r l hl =>
      sameSlate_iff_key.mpr (foldl_oldest_same s r l hl 0 0 (.inl rfl) (.inl rfl) rfl)⟩
  all_goals unfold slateKey; omega

end Sys2Proof.Proofs
end

section
/-! PROOF of O30. A SLATE or SLCHK form that names a region finds it or raises cause 0x18; SLCHK then goes by the age of its slate: a
lemma for each effect on the region found (R228, R323, R324). -/

namespace Sys2Proof.Proofs

open Sys2Proof.Machine Sys2Proof.Laws

-- The declarations are checked one after another: checked side by side, their threads exhaust the memory.
set_option Elab.async false

variable {t : State} {d a : GReg} {h : Nat} {r : Region}

/-! ### SLATE.SET -/

theorem slateSetOp_clears (d : GReg) (ha : rg t a = 0) : slateSetOp d a t = .ok (goesOn (wg (setSlate t 0) d (opCtx t).slate)) := by
  simp only [slateSetOp, ha, ne_eq, not_true_eq_false, false_and, if_false, if_true]
  rfl

theorem slateSetOp_begun (d : GReg) (ha : rg t a ≠ 0) (hb : (rg t a).toNat / 2 ^ 16 ≤ takeNo t) :
    slateSetOp d a t = .ok (goesOn (wg (setSlate t (stampMember t (rg t a))) d (opCtx t).slate)) := by
  simp only [slateSetOp, Nat.not_lt.mpr hb, and_false, if_false, ha]
  rfl

theorem slateSetOp_ahead (d : GReg) (ha : rg t a ≠ 0) (hb : takeNo t < (rg t a).toNat / 2 ^ 16) : slateSetOp d a t = trap 0x18 1 :=
  if_pos ⟨ha, hb⟩

/-! ### The region that a form names -/

theorem slateRegion_found {v : Word} (hr : findRegion (curCore t) (opCtx t).launch (v.toNat % 64) = some (h, r)) :
    slateRegion t v = .ok (h, r) := by
  simp only [slateRegion, hr]

theorem slateRegion_missing {v : Word} (hr : findRegion (curCore t) (opCtx t).launch (v.toNat % 64) = none) :
    slateRegion t v = trap 0x18 (w64 (2 + v.toNat % 64 * 256)) := by
  simp only [slateRegion, hr]

section
variable (d) (hr : findRegion (curCore t) (opCtx t).launch ((rg t a).toNat % 64) = some (h, r))
include hr

theorem slateRgnOp_found : slateRgnOp d a t =
    .ok (goesOn (wgSlow (modRegion t t.cur.agent h fun x => { x with slate := (opCtx t).slate }) d r.slate)) := by
  simp only [slateRgnOp, slateRegion_found hr, Bind.bind, Except.bind]
  rfl

theorem slateFoldOp_found : slateFoldOp d a t =
    .ok (goesOn (wgSlow (setSlate t (oldest t (opCtx t).slate r.slate)) d (oldest t (opCtx t).slate r.slate))) := by
  simp only [slateFoldOp, slateRegion_found hr, Bind.bind, Except.bind]
  rfl

/-! ### SLCHK -/

theorem slchkOp_none (traps : Bool) (h0 : r.slate = 0) : slchkOp traps d a t = .ok (goesOn (wgSlow t d (w64 (2 ^ 62)))) := by
  simp only [slchkOp, slateRegion_found hr, h0, if_true, Bind.bind, Except.bind]
  rfl

theorem slchkOp_fresh (traps : Bool) (h0 : r.slate ≠ 0) (hage : r.maxage = 255 ∨ slateAge t r.slate ≤ r.maxage) :
    slchkOp traps d a t = .ok (goesOn (wgSlow t d (w64 (slateAge t r.slate)))) := by
  have hfresh : (r.maxage != 255 && decide (r.maxage < slateAge t r.slate)) = false := by
    simpa [or_iff_not_imp_left] using hage
  simp only [slchkOp, slateRegion_found hr, h0, if_false, hfresh, Bool.false_and, Bool.false_eq_true, b2n, Nat.zero_mul, Nat.zero_add,
    Bind.bind, Except.bind]
  rfl

variable (h0 : r.slate ≠ 0) (hmax : r.maxage ≠ 255) (hage : r.maxage < slateAge t r.slate)
include h0 hmax hage

/-- TVAL of cause 0x17 (R324). -/
def staleTval (t : State) (a : GReg) (r : Region) : Word :=
  w64 ((rg t a).toNat % 64 + agentNo t.cur.agent % 2 ^ 11 * 2 ^ 6 + r.slate.toNat % 2 ^ 47 * 2 ^ 17)

theorem slchkOp_traps : slchkOp true d a t = trap 0x17 (staleTval t a r) := by
  have hstale : (r.maxage != 255 && decide (r.maxage < slateAge t r.slate)) = true := by simp [hmax, hage]
  simp only [slchkOp, slateRegion_found hr, h0, if_false, hstale, Bool.true_and, if_true, Bind.bind, Except.bind]
  rfl

/-- A stale finding that is performed gives bit 63 and the age. -/
theorem slchkOp_stale {u : State} (hu : staleFound t ((rg t a).toNat % 64) h r (staleTval t a r) = .ok u) :
    slchkOp false d a t = .ok (goesOn (wgSlow u d (w64 (2 ^ 63 + slateAge t r.slate)))) := by
  have hstale : (r.maxage != 255 && decide (r.maxage < slateAge t r.slate)) = true := by simp [hmax, hage]
  rw [staleTval] at hu
  simp only [slchkOp, slateRegion_found hr, h0, if_false, hstale, Bool.and_false, Bool.false_eq_true, if_true, hu, b2n, Nat.one_mul,
    Bind.bind, Except.bind]
  rfl

end

/-! ### The stale finding -/

/-- The finding counted, and raised to FW4 where the region asks for it (R324). -/
def staleNoted (t : State) (h : Nat) (r : Region) (tval : Word) : State :=
  let u := modRegion t t.cur.agent h Region.countStale
  if r.ask then raiseFw (record u 0x17 (agentNo t.cur.agent) [tval.toNat]) (logCore u) 0x17 tval t.cur.agent else u

/-- The notification that the region's control word asks for. -/
def staleMsg (t u : State) (i : Nat) (r : Region) : Message :=
  ⟨r.stype, r.stype, r.slate, 0, [w64 (localAddr (agentNo t.cur.agent) r.base), w64 i], nodeOf t.cur.agent, (opCtx u).launch, none⟩

section
variable {i : Nat} {tval : Word}

theorem staleFound_silent (hs : r.sinken = false) : staleFound t i h r tval = .ok (staleNoted t h r tval) := by
  simp only [staleFound, hs, Bool.false_eq_true, if_false]
  rfl

theorem staleFound_placed {v : State} (hs : r.sinken = true)
    (hm : placeMsg (staleNoted t h r tval) t.cur.agent (staleMsg t (staleNoted t h r tval) i r) = .done v) :
    staleFound t i h r tval = .ok v := by
  rw [staleNoted, staleMsg] at hm
  simp only [staleFound, hs, if_true, Region.local, hm]

theorem staleFound_unmatched (hs : r.sinken = true)
    (hm : placeMsg (staleNoted t h r tval) t.cur.agent (staleMsg t (staleNoted t h r tval) i r) = .unmatched) :
    staleFound t i h r tval = .ok (record (staleNoted t h r tval) 0x17 (agentNo t.cur.agent) [i]) := by
  rw [staleNoted, staleMsg] at hm
  simp only [staleFound, hs, if_true, Region.local, hm]
  rfl

end

/-! ### The statement -/

/-- Settles O30: each form's clause is the lemma about its effect. -/
theorem slateInstructionsAnswer : Obligations.SlateInstructionsAnswer := fun d a => ⟨
  answers_of_effect (exec_slateMin d a) fun _ => rfl,
  answersIf_of_effect (exec_slateSet d a) fun _ => slateSetOp_clears d,
  answersIf_of_effect (exec_slateSet d a) fun _ ⟨ha, hb⟩ => slateSetOp_begun d ha hb,
  raisesIf_of_effect (exec_slateSet d a) fun _ ⟨ha, hb⟩ => slateSetOp_ahead d ha hb,
  answers_of_effect (exec_slateRd d) fun _ => rfl,
  fun _ _ => answersIf_of_effect (exec_slateRgn d a) fun _ => slateRgnOp_found d,
  fun _ _ => answersIf_of_effect (exec_slateFold d a) fun _ => slateFoldOp_found d,
  fun _ _ => answersIf_of_effect (exec_slchk d a) fun _ ⟨hr, h0⟩ => slchkOp_none d hr false h0,
  fun _ _ => answersIf_of_effect (exec_slchk d a) fun _ ⟨hr, h0, hage⟩ => slchkOp_fresh d hr false h0 hage,
  fun _ _ => answersIf_of_effect (exec_slchkTrap d a) fun _ ⟨hr, h0⟩ => slchkOp_none d hr true h0,
  fun _ _ => answersIf_of_effect (exec_slchkTrap d a) fun _ ⟨hr, h0, hage⟩ => slchkOp_fresh d hr true h0 hage,
  fun _ _ s _ hready hr h0 hmax hage =>
    have found {u : State} := commits_of_effect (exec_slchk d a s) hready ∘ slchkOp_stale (u := u) d hr h0 hmax hage
    ⟨fun hs => found (staleFound_silent hs), fun _ hs hm => found (staleFound_placed hs hm),
      fun hs hm => found (staleFound_unmatched hs hm)⟩,
  fun _ _ => raisesIf_of_effect (exec_slchkTrap d a) fun _ ⟨hr, h0, hmax, hage⟩ => slchkOp_traps d hr h0 hmax hage,
  raisesIf_of_effect (exec_slateRgn d a) fun t hr => by
    rw [slateRgnOp, slateRegion_missing hr]
    rfl,
  raisesIf_of_effect (exec_slateFold d a) fun t hr => by
    rw [slateFoldOp, slateRegion_missing hr]
    rfl,
  raisesIf_of_effect (exec_slchk d a) fun t hr => by
    rw [slchkOp, slateRegion_missing hr]
    rfl,
  raisesIf_of_effect (exec_slchkTrap d a) fun t hr => by
    rw [slchkOp, slateRegion_missing hr]
    rfl⟩

end Sys2Proof.Proofs
end

section
/-! PROOF of O26 and O27. A precise cause outside a gate and a handler is taken by trap entry, whose fields and those of the return
from it are read one by one: STATUS by its bits, and the general registers by the lists that are banked and placed (R340, R344). -/

namespace Sys2Proof.Proofs

open Sys2Proof.Machine Sys2Proof.Laws

-- The declarations are checked one after another: checked side by side, their threads exhaust the memory.
set_option Elab.async false

/-! ### STATUS -/

theorem getLsbD_stSet (w : Word) {i : Nat} (hi : i < 64) (b : Bool) (j : Nat) :
    (stSet w i b).getLsbD j = if j = i then b else w.getLsbD j := by
  have hone : (w64 (2 ^ i)).getLsbD j = decide (j = i) := by
    rw [w64, BitVec.getLsbD_ofNat, Nat.testBit_two_pow]
    by_cases h : j = i
    · simp [h, hi]
    · simp [h, Ne.symm h]
  cases b with
  | true =>
    simp only [stSet, if_true, BitVec.getLsbD_or, hone]
    by_cases h : j = i <;> simp [h]
  | false =>
    simp only [stSet, Bool.false_eq_true, if_false, BitVec.getLsbD_and, BitVec.getLsbD_not, hone]
    by_cases h : j = i
    · simp [h]
    · by_cases hj : j < 64
      · simp [h, hj]
      · simp [h, BitVec.getLsbD_of_ge _ _ (Nat.le_of_not_lt hj)]

/-! ### Registers banked and placed again -/

@[simp] theorem length_regsFrom (c : Ctx) (lo n : Nat) : (regsFrom c lo n).length = n := by simp [regsFrom]

theorem getElem?_regsFrom (c : Ctx) {lo n i : Nat} (hi : i < n) : (regsFrom c lo n)[i]? = some c.g[Fin.ofNat 32 (lo + i)] := by
  rw [regsFrom, List.getElem?_map, List.getElem?_range hi, Option.map_some]

/-- The registers from `lo` on read as a list placed there gives them. -/
theorem getElem_placeRegs_all {l : List Word} (g : Vector Word 32) {lo : Nat} (h : lo + l.length = 32) (r : Fin 32) :
    (placeRegs g lo l)[r] = if lo ≤ r.val then l[r.val - lo]?.getD 0 else g[r] := by
  refine (getElem_placeRegs l g lo h.le r.isLt).trans ?_
  split
  · have hlt : r.val - lo < l.length := by have := r.isLt; omega
    rw [List.getElem?_eq_getElem hlt]
    rfl
  · rfl

/-- Banked registers that are placed where they stood are what they were. -/
theorem getElem_placeRegs_regsFrom (c : Ctx) (g : Vector Word 32) {lo n : Nat} (h : lo + n = 32) (r : Fin 32) :
    (placeRegs g lo (regsFrom c lo n))[r] = if lo ≤ r.val then c.g[r] else g[r] := by
  rw [getElem_placeRegs_all g ((length_regsFrom c lo n).symm ▸ h)]
  split
  · have hr := r.isLt
    rw [getElem?_regsFrom c (by omega), Option.getD_some]
    congr 1
    ext
    simp only [Fin.val_ofNat]
    omega
  · rfl

/-- Registers that are cleared from `lo` on read 0 there. -/
theorem getElem_placeRegs_zeros (g : Vector Word 32) {lo n : Nat} (h : lo + n = 32) (r : Fin 32) :
    (placeRegs g lo (List.replicate n 0))[r] = if lo ≤ r.val then 0 else g[r] := by
  rw [getElem_placeRegs_all g (by rwa [List.length_replicate])]
  have hr := r.isLt
  split
  · rw [List.getElem?_replicate, if_pos (by omega), Option.getD_some]
  · rfl

/-! ### Trap entry and the return -/

section
variable (c : Ctx) (code : Nat) (tval : Word) (epc : Nat) (async : Bool)

/-- STATUS in the handler: the level is raised, with the level before it kept, and the handler runs (R340). -/
theorem enterTrap_st (i : Nat) : (c.enterTrap code tval epc async).st i =
    if i = 3 then true else if i = 0 then true else if i = 1 then c.st 0 else c.st i := by
  simp only [Ctx.enterTrap, Ctx.st, getLsbD_stSet _ (by decide : 3 < 64), getLsbD_stSet _ (by decide : 0 < 64),
    getLsbD_stSet _ (by decide : 1 < 64)]

theorem enterTrap_g (r : Fin 32) : (c.enterTrap code tval epc async).g[r] = if 24 ≤ r.val then 0 else c.g[r] :=
  getElem_placeRegs_zeros c.g rfl r

/-- STATUS after the return: the level before the handler, and no handler runs (R344). -/
theorem leaveTrap_st (b : TrapBank) (i : Nat) :
    (c.leaveTrap b).st i = if i = 3 then false else if i = 0 then c.st 1 else c.st i := by
  simp only [Ctx.leaveTrap, Ctx.st, getLsbD_stSet _ (by decide : 3 < 64), getLsbD_stSet _ (by decide : 0 < 64)]

/-- What the return restores beside STATUS and the general registers. -/
theorem leaveTrap_fields (b : TrapBank) : (c.leaveTrap b).p = b.p ∧ (c.leaveTrap b).a = b.a ∧ (c.leaveTrap b).fpctl = b.fpctl ∧
    (c.leaveTrap b).slate = b.slate ∧ (c.leaveTrap b).trap = none ∧ (c.leaveTrap b).pc = c.epc.toNat / 8 * 8 ∧
    (c.leaveTrap b).seqr = b.seqr := ⟨rfl, rfl, rfl, rfl, rfl, rfl, rfl⟩

/-- What trap entry banks. -/
def trapBank : TrapBank :=
  ⟨regsFrom c 24 8, c.p, c.a, c.fpctl, c.slate, if code = 0x26 then Seqr.clear c.seqr else c.seqr⟩

theorem enterTrap_leaveTrap_g (r : Fin 32) :
    ((c.enterTrap code tval epc async).leaveTrap (trapBank c code)).g[r] = c.g[r] := by
  refine (getElem_placeRegs_regsFrom c _ rfl r).trans ?_
  split
  · rfl
  · rw [enterTrap_g, if_neg ‹_›]

end

/-- Settles O27: STATUS by `enterTrap_st` and `leaveTrap_st`, the registers by `enterTrap_g` and `enterTrap_leaveTrap_g`, and every
other field as trap entry writes it. -/
theorem trapEntrySaves : Obligations.TrapEntrySaves := by
  intro c code tval epc async
  obtain ⟨hp, ha, hfpctl, hslate, htrap, hpc, hseqr⟩ := leaveTrap_fields (c.enterTrap code tval epc async) (trapBank c code)
  refine ⟨⟨rfl, rfl, rfl, rfl, rfl, rfl, rfl, rfl, rfl, rfl, ?_, ?_, ?_⟩, fun i h0 h1 h3 => ?_, fun r hr => ?_, fun r hr => ?_,
    ⟨rfl, rfl, rfl, rfl, rfl, rfl, rfl, rfl, rfl, rfl, rfl, rfl⟩, trapBank c code, rfl,
    enterTrap_leaveTrap_g c code tval epc async, hp, ha, hfpctl, hslate, htrap, hpc, ?_, ?_, hseqr, fun q hq hc => ?_⟩
  · rw [enterTrap_st]; rfl
  · rw [enterTrap_st]; rfl
  · rw [enterTrap_st]; rfl
  · rw [enterTrap_st, if_neg h3, if_neg h0, if_neg h1]
  · rw [enterTrap_g, if_pos hr]
  · rw [enterTrap_g, if_neg (Nat.not_le.mpr hr)]
  · rw [leaveTrap_st, enterTrap_st]; rfl
  · rw [leaveTrap_st]; rfl
  · exact hseqr.trans ((if_neg hc).trans hq)

/-! ### SYSCALL, BRK and TRET -/

/-- A precise cause of a context in no gate and no handler enters its handler (R31, R340). -/
theorem raisePrecise_enters {f : Form} {s : State} (code : Nat) (tval : Word) (hq : (opCtx s).quiet = true)
    (hd : (opCtx s).depth = 0) (ht : (getCtx s s.cur).inTrap = false) (hv : (getCtx s s.cur).tvec ≠ 0) :
    raisePrecise f s code tval =
      { setCtx s s.cur ((getCtx s s.cur).enterTrap code tval ((opCtx s).pc + f.slot) false) with last := .trapped } := by
  have hheld : trapHeld s = false := by simp [trapHeld, hq, hd]
  have hdepth : ¬0 < (opCtx s).depth := by omega
  simp only [raisePrecise, hheld, Bool.false_eq_true, if_false, hdepth, takeTrap_enters ht hv]

theorem tretOp_trap {t : State} {b : TrapBank} (hq : (opCtx t).quiet = true) (hi : (opCtx t).inTrap = true)
    (hb : (opCtx t).trap = some b) :
    tretOp t = .ok (jumpsTo (setCtx t t.cur ((opCtx t).leaveTrap b)) ((opCtx t).epc.toNat / 8 * 8)) := by
  simp only [tretOp, hq, Bool.not_true, Bool.false_eq_true, if_false, hi, if_true, hb]
  rfl

theorem tretOp_ui {t : State} {b : UiBank} (hq : (opCtx t).quiet = true) (hi : (opCtx t).inTrap = false)
    (hb : (opCtx t).ui = some b) :
    tretOp t = .ok (jumpsTo (setCtx t t.cur ((opCtx t).leaveUi b)) ((opCtx t).uepc.toNat / 8 * 8)) := by
  simp only [tretOp, hq, Bool.not_true, Bool.false_eq_true, if_false, hi, hb]
  rfl

/-- TRET outside a handler is not allowed (R344). -/
theorem wordFault_tret {s : State} (ha : absent (form .tret) s = false) (ht : (opCtx s).inTrap = false)
    (hu : (opCtx s).inUi = false) : wordFault (form .tret) s = some 0x03 := by
  have hforbidden : forbidden (form .tret) s = (!(opCtx s).inTrap && !(opCtx s).inUi) := rfl
  simp only [wordFault, ha, hforbidden, ht, hu, Bool.false_eq_true, if_false, Bool.not_false, Bool.and_self, if_true]

/-- A C-slot word with a fault raises it, whatever the sequencer captures: capture concerns A-slots (R31, R159). -/
theorem issue_of_wordFault {f : Form} {s : State} {code : Nat} (body : Effect) (hc : f.major < 0x28) (h : wordFault f s = some code) :
    issue f body s = .next (raisePrecise f s code (encTval f.word 0 false)) := by
  have hmajor : decide (0x28 ≤ f.major) = false := decide_eq_false (Nat.not_le.mpr hc)
  simp only [issue, issueWith, hmajor, Bool.and_false, Bool.false_and, Bool.false_eq_true, if_false, h]

/-- Settles O26: the traps are `raisePrecise_enters`, the returns `tretOp_trap` and `tretOp_ui`, and outside a handler the word has the
fault of `wordFault_tret`. -/
theorem trapInstructionsAnswer : Obligations.TrapInstructionsAnswer := ⟨
  fun n s t hq hd ht hv =>
    ⟨fun h => (issue_traps h rfl).trans (congrArg _ (raisePrecise_enters _ _ hq hd ht hv)),
      fun h => (issue_traps h rfl).trans (congrArg _ (raisePrecise_enters _ _ hq hd ht hv))⟩,
  fun _ => answersIf_of_effect exec_tret fun _ ⟨hq, hi, hb⟩ => tretOp_trap hq hi hb,
  fun _ => answersIf_of_effect exec_tret fun _ ⟨hq, hi, hb⟩ => tretOp_ui hq hi hb,
  fun s ha ht hu => issue_of_wordFault tretOp (by decide) (wordFault_tret ha ht hu)⟩

end Sys2Proof.Proofs
end

section
/-! PROOF of O38. RED, SCAN and BCAST issue by one effect, `treeOp`; a member of the group contributes by it, and TREE.WAIT counts or
waits (R263 to R265, R269). -/

namespace Sys2Proof.Proofs

open Sys2Proof.Machine Sys2Proof.Laws

-- The declarations are checked one after another: checked side by side, their threads exhaust the memory.
set_option Elab.async false

variable {s t : State}

/-! ### Membership (R265) -/

/-- No valid group of the index has the issuing core among its members. -/
def NoMember (t : State) (i : Nat) : Prop := ∀ g, findGroup t (opCtx t).launch i = some g → agentNo t.cur.agent ∉ g.members

theorem memberOf_none {i : Nat} (h : NoMember t i) : memberOf t i = trap 0x1B (w64 i) := by
  unfold memberOf
  cases hg : findGroup t (opCtx t).launch i with
  | none => rfl
  | some g => simp [h g hg]

/-! ### A contribution -/

@[simp] theorem pushing_awaits (c : Ctx) (r : FReg) : (c.pushing r).awaits = c.awaits := by
  unfold Ctx.pushing
  repeat' split
  all_goals rfl

/-- The part with which the issuing core joins an operation. -/
def treePart (t : State) (kind op : Nat) (d a : FReg) : TreePart :=
  ⟨agentNo t.cur.agent, kind, op, rf t a, curWho (newId t).2 (newId t).1, d, (newId t).1, false⟩

/-- A core with the count of operations on a group raised from `n` (R263). -/
def raiseTreeCount (la i : Nat) (n : BitVec 16) (co : Core) : Core :=
  { co with treeCounts := (la, i, n + 1) :: co.treeCounts.filter fun x => !(x.1 == la && x.2.1 == i) }

theorem treeCount_raiseTreeCount (la i : Nat) (n : BitVec 16) (co : Core) : treeCount (raiseTreeCount la i n co) la i = n + 1 := by
  rw [treeCount, raiseTreeCount, List.find?_cons_of_pos (by simp)]
  rfl

/-- The state in which a part of the next operation on group `i` has joined it, and its result is awaited. -/
def contributed (t : State) (i root : Nat) (p : TreePart) : State :=
  let la := (opCtx t).launch.getD 0
  let count := treeCount (curCore t) la i
  let u := modCurCore (newId t).2 (raiseTreeCount la i count)
  modCur (modDev u fun x => { x with trees := addPart x.trees la i count p })
    fun c => (c.pushing p.d).await ⟨p.id, .vec p.d i root⟩

theorem treeOp_joins {g : Group} {b : GReg} (kind op : Nat) (d a : FReg) (hg : memberOf t ((rg t b).toNat % 256) = .ok g)
    (hp : treePending t ((opCtx t).launch.getD 0) ((rg t b).toNat % 256) (agentNo t.cur.agent) < 8) :
    treeOp kind op d a b t = .ok (goesOn (contributed t ((rg t b).toNat % 256) g.root (treePart t kind op d a))) := by
  simp only [treeOp, hg, Nat.not_le.mpr hp, if_false, Bind.bind, Except.bind]
  rfl

theorem treeOp_no_member {b : GReg} (kind op : Nat) (d a : FReg) (h : NoMember t ((rg t b).toNat % 256)) :
    treeOp kind op d a b t = trap 0x1B (w64 ((rg t b).toNat % 256)) := by
  rw [treeOp, memberOf_none h]
  rfl

theorem treeCount_contributed (t : State) (i root : Nat) (p : TreePart) :
    treeCount (curCore (contributed t i root p)) ((opCtx t).launch.getD 0) i =
      treeCount (curCore t) ((opCtx t).launch.getD 0) i + 1 :=
  (congrArg (treeCount · _ i) (curCore_modCurCore (newId t).2 _)).trans (treeCount_raiseTreeCount ..)

theorem awaits_contributed (t : State) (i root : Nat) (p : TreePart) :
    (curCtx (contributed t i root p)).awaits = (curCtx t).awaits ++ [⟨p.id, .vec p.d i root⟩] := by
  simp only [contributed, curCtx_modCur, Ctx.await, pushing_awaits]
  rfl

/-- An instruction with the effect of a contribution commits with its part in the operation. -/
theorem contributes_of_effect {i : Instr} {kind op : Nat} {d a : FReg} {b : GReg} {g : Group}
    (hi : exec i s = issue (form i) (treeOp kind op d a b) s) (h : Ready (form i) s t)
    (hg : memberOf t ((rg t b).toNat % 256) = .ok g)
    (hp : treePending t ((opCtx t).launch.getD 0) ((rg t b).toNat % 256) (agentNo t.cur.agent) < 8) :
    ∃ (u : State) (p : TreePart), Commits i s (goesOn u) ∧ p.core = agentNo t.cur.agent ∧ p.op = kind ∧ p.redOp = op ∧
      p.value = rf t a ∧ p.d = d ∧ p.landed = false ∧
      u.dev.trees = addPart t.dev.trees ((opCtx t).launch.getD 0) ((rg t b).toNat % 256)
        (treeCount (curCore t) ((opCtx t).launch.getD 0) ((rg t b).toNat % 256)) p ∧
      treeCount (curCore u) ((opCtx t).launch.getD 0) ((rg t b).toNat % 256) =
        treeCount (curCore t) ((opCtx t).launch.getD 0) ((rg t b).toNat % 256) + 1 ∧
      (curCtx u).awaits = (curCtx t).awaits ++ [⟨p.id, .vec d ((rg t b).toNat % 256) g.root⟩] :=
  ⟨_, treePart t kind op d a, commits_of_effect hi h (treeOp_joins kind op d a hg hp), rfl, rfl, rfl, rfl, rfl, rfl, rfl,
    treeCount_contributed .., awaits_contributed ..⟩

/-! ### TREE.WAIT (R269) -/

section
variable {a : GReg} {g : Group} (d : GReg) (hg : memberOf t ((rg t a).toNat % 256) = .ok g)
include hg

theorem treeWaitOp_counts (hp : treePending t ((opCtx t).launch.getD 0) ((rg t a).toNat % 256) (agentNo t.cur.agent) = 0)
    (hr : rootPending t ((opCtx t).launch.getD 0) g (agentNo t.cur.agent) = false) :
    treeWaitOp d a t =
      .ok (goesOn (wgSlow t d ((treeCount (curCore t) ((opCtx t).launch.getD 0) ((rg t a).toNat % 256)).zeroExtend 64))) := by
  simp only [treeWaitOp, hg, hp, hr, ne_eq, not_true_eq_false, Bool.false_eq_true, or_self, if_false, Bind.bind, Except.bind]
  rfl

theorem treeWaitOp_waits (h : treePending t ((opCtx t).launch.getD 0) ((rg t a).toNat % 256) (agentNo t.cur.agent) ≠ 0 ∨
    rootPending t ((opCtx t).launch.getD 0) g (agentNo t.cur.agent) = true) :
    treeWaitOp d a t = .error (.wait t 10 ((rg t a).toNat % 256) g.root) := by
  simp only [treeWaitOp, hg, h, if_true, Bind.bind, Except.bind]

end

theorem treeWaitOp_no_member (d : GReg) {a : GReg} (h : NoMember t ((rg t a).toNat % 256)) :
    treeWaitOp d a t = trap 0x1B (w64 ((rg t a).toNat % 256)) := by
  rw [treeWaitOp, memberOf_none h]
  rfl

/-! ### The statement -/

/-- A leaf's subtree result is its own vector (R74). -/
theorem treeUp_leaf {g : Group} {n : Nat} (op : Nat) (val : Nat → Vec) (fuel : Nat) (h : g.children n = []) :
    treeUp g op val (fuel + 1) n = (val n, 0) := by
  simp only [treeUp, h, List.map_nil]

/-- Settles O38: the contributions are `contributes_of_effect`, and TREE.WAIT's clauses the lemmas about its effect. -/
theorem treesAnswer : Obligations.TreesAnswer := fun o d a b f a' => ⟨
  fun s _ _ => contributes_of_effect (exec_red o f a' b s), fun s _ _ => contributes_of_effect (exec_scan o f a' b s),
  fun s _ _ => contributes_of_effect (exec_bcast f a' b s),
  fun _ => answersIf_of_effect (exec_treeWait d a) fun _ ⟨hg, hp, hr⟩ => treeWaitOp_counts d hg hp hr,
  fun _ => waitsIf_of_effect (exec_treeWait d a) fun _ ⟨hg, h⟩ => treeWaitOp_waits d hg h,
  raisesIf_of_effect (exec_red o f a' b) fun _ => treeOp_no_member 0 _ f a',
  raisesIf_of_effect (exec_scan o f a' b) fun _ => treeOp_no_member 1 _ f a',
  raisesIf_of_effect (exec_bcast f a' b) fun _ => treeOp_no_member 2 0 f a',
  raisesIf_of_effect (exec_treeWait d a) fun _ => treeWaitOp_no_member d,
  fun _ op val _ fuel => treeUp_leaf op val fuel⟩

end Sys2Proof.Proofs
end

section
/-! PROOF of O37. The RING forms (R261, R262, R268): what the check of a descriptor answers, what a wait and an advance do at the
owner and elsewhere, and how a wait ends once its owner has answered. -/

namespace Sys2Proof.Proofs

open Sys2Proof.Machine Sys2Proof.Laws

-- The declarations are checked one after another: checked side by side, their threads exhaust the memory.
set_option Elab.async false

/-! ### The check of a descriptor -/

/-- A core has the role that a ring operation asks for (R262). -/
def ringRole (r : Ring) (op : RingOp) (me : Nat) : Prop :=
  match op with
  | .waite | .advp => r.prod = me % 4
  | .waitf | .advc => r.cons = me % 4
  | .qry => True

section
variable {t : State} {h : Handle} {op : RingOp} {k : Nat}

theorem ringCheck_ok (hv : RingOk t h) (hr : ringRole (ringNamed t h) op (agentNo t.cur.agent)) (hk : k ≤ (ringNamed t h).slots) :
    ringCheck t (handle t h.val) op k = .ok (ringNamed t h) := by
  obtain ⟨hown, howner⟩ := hv
  unfold ringNamed at *
  have hslots := Nat.not_lt.mpr hk
  cases op
  case qry => simp [ringCheck, hown, howner, hslots]
  all_goals
    simp only [ringRole] at hr
    simp [ringCheck, hown, howner, hslots, hr]

theorem ringCheck_invalid (op : RingOp) (k : Nat) (hv : ¬RingOk t h) :
    ringCheck t (handle t h.val) op k = trap 0x0D (ringTval 1 (handle t h.val) (agentNo t.cur.agent)) := by
  refine if_pos ?_
  simpa [RingOk, ringNamed, Decidable.imp_iff_not_or] using hv

theorem ringCheck_wrongRole (k : Nat) (hv : RingOk t h) (hr : ¬ringRole (ringNamed t h) op (agentNo t.cur.agent)) :
    ringCheck t (handle t h.val) op k = trap 0x0D (ringTval 2 (handle t h.val) (agentNo t.cur.agent)) := by
  obtain ⟨hown, howner⟩ := hv
  unfold ringNamed at *
  cases op
  case qry => exact absurd trivial hr
  all_goals
    simp only [ringRole] at hr
    simp [ringCheck, hown, howner, hr]

theorem ringCheck_tooMany (hv : RingOk t h) (hr : ringRole (ringNamed t h) op (agentNo t.cur.agent))
    (hk : (ringNamed t h).slots < k) :
    ringCheck t (handle t h.val) op k = trap 0x0D (ringTval 4 (handle t h.val) (agentNo t.cur.agent)) := by
  obtain ⟨hown, howner⟩ := hv
  unfold ringNamed at *
  cases op
  case qry => simp [ringCheck, hown, howner, hk]
  all_goals
    simp only [ringRole] at hr
    simp [ringCheck, hown, howner, hk, hr]

end

/-! ### The end of a wait -/

/-- Bit 63 alone is the word with which an owner's refusal stands in for an answer. -/
theorem refusalWord_iff (v : Word) :
    (bit v.toNat 63 && bits v.toNat 62 48 == 0 && bits v.toNat 47 0 == 0) = true ↔ v = w64 (2 ^ 63) := by
  have hlt := v.isLt
  simp only [bit, bits, w64, Nat.shiftRight_eq_div_pow, Nat.testBit_eq_decide_div_mod_eq, Bool.and_eq_true, beq_iff_eq,
    decide_eq_true_eq, ← BitVec.toNat_inj, BitVec.toNat_ofNat]
  omega

theorem ringFinish_goesOn {s : State} {v : Word} (d : GReg) (hv : v ≠ w64 (2 ^ 63)) {u : State} (hu : keepAnswer s v = u)
    (ha : accessesOut (curCtx u) = false) (hs : sinksOut u u.cur = false) :
    ringFinish d s v = .ok (goesOn (wgSlow (acquireNow u .tile) d v)) := by
  have hword := mt (refusalWord_iff v).mp hv
  simp only [ringFinish, hu, acquire_ok ha hs, Bind.bind, Except.bind, hword]
  rfl

/-! ### RING.WAITF and RING.WAITE -/

section
variable {t : State} {h : Handle} {op : RingOp} {k : Nat} (word : Nat) (d : GReg)

theorem ringWaitOp_answered {v : Word} (hv : answered t v) (hne : v ≠ w64 (2 ^ 63)) (ha : accessesOut (curCtx t) = false)
    (hs : sinksOut t t.cur = false) :
    ringWaitOp op word d h k t = .ok (goesOn (wgSlow (acquireNow t .tile) d v)) := by
  have hkeep := keepAnswer_of_answered v hv
  obtain ⟨⟨pc, id, value⟩, hg, rfl⟩ := hv
  simp only [ringWaitOp, hg]
  exact ringFinish_goesOn d hne hkeep ha hs

variable (hg : grantOf t = none) (hk : k ≠ 0)
include hg hk

theorem ringWaitOp_refused {e : Stall} (hc : ringCheck t (handle t h.val) op k = .error e) :
    ringWaitOp op word d h k t = .error e := by
  simp only [ringWaitOp, hg, hk, if_false, hc]
  rfl

variable (hc : ringCheck t (handle t h.val) op k = .ok (ringNamed t h))
include hc

/-- At the owner, with enough slots and no earlier waiter, the first slot's address is given behind the acquire. -/
theorem ringWaitOp_grabs (ho : (ringNamed t h).ownerCore (agentNo t.cur.agent) = agentNo t.cur.agent)
    (hq : (ringNamed t h).queued op = false) {i : Nat} {r : Ring} (hgrab : (ringNamed t h).grab op k = some (i, r)) {v : Word}
    (hv : w64 ((ringNamed t h).slotAddr (agentNo t.cur.agent) i) = v) (hne : v ≠ w64 (2 ^ 63)) {u : State}
    (hu : keepAnswer (putRing t (agentNo t.cur.agent) (handle t h.val) r) v = u) (ha : accessesOut (curCtx u) = false)
    (hs : sinksOut u u.cur = false) :
    ringWaitOp op word d h k t = .ok (goesOn (wgSlow (acquireNow u .tile) d v)) := by
  simp only [ringWaitOp, hg, hk, if_false, hc, Bind.bind, Except.bind, ho, ne_eq, not_true_eq_false, hq, Bool.false_eq_true, hgrab, hv]
  exact ringFinish_goesOn d hne hu ha hs

/-- At the owner, with too few slots or behind an earlier waiter, the context joins the wait list. -/
theorem ringWaitOp_waits (ho : (ringNamed t h).ownerCore (agentNo t.cur.agent) = agentNo t.cur.agent)
    (hq : (ringNamed t h).queued op = true ∨ (ringNamed t h).grab op k = none) :
    ringWaitOp op word d h k t = .error (.wait (asks t fun id v => putRing v (agentNo t.cur.agent) (handle t h.val)
      { ringNamed t h with waiters := (ringNamed t h).waiters ++ [⟨.ctx (curWho v id), op, k⟩] })
      4 (0x1800 + 16 * handle t h.val) (agentNo t.cur.agent)) := by
  have hnone : (if (ringNamed t h).queued op then none else (ringNamed t h).grab op k) = none := by
    rcases hq with hq | hq <;> simp [hq]
  simp only [ringWaitOp, hg, hk, if_false, hc, Bind.bind, Except.bind, ho, ne_eq, not_true_eq_false, hnone]
  rfl

/-- Of another owner's ring, the request leaves for it. -/
theorem ringWaitOp_asks (ho : (ringNamed t h).ownerCore (agentNo t.cur.agent) ≠ agentNo t.cur.agent) :
    ringWaitOp op word d h k t = .error (.wait (asks t fun id v =>
      sendRing v ((ringNamed t h).ownerCore (agentNo t.cur.agent)) (curWho v id) op (handle t h.val) k)
      4 (0x1800 + 16 * handle t h.val) ((ringNamed t h).ownerCore (agentNo t.cur.agent))) := by
  simp only [ringWaitOp, hg, hk, if_false, hc, Bind.bind, Except.bind, ho, ne_eq, not_false_eq_true, if_true]
  rfl

end

/-! ### RING.ADVP, RING.ADVC and RING.QRY -/

section
variable {t : State} {h : Handle} {op : RingOp} {k : Nat} (word : Nat) (hk : k ≠ 0)
include hk

theorem ringAdvOp_refused {e : Stall} (hc : ringCheck t (handle t h.val) op k = .error e) :
    ringAdvOp op word h k t = .error e := by
  simp only [ringAdvOp, hk, if_false, hc]
  rfl

variable (hc : ringCheck t (handle t h.val) op k = .ok (ringNamed t h))
  (hrel : released (startWriteBacks t .tile) .tile = true)
include hc hrel

theorem ringAdvOp_own {r : Ring} (ho : (ringNamed t h).ownerCore (agentNo t.cur.agent) = agentNo t.cur.agent)
    (ha : (ringNamed t h).advance op k = some r) :
    ringAdvOp op word h k t = .ok (goesOn (putRing (startWriteBacks t .tile) (agentNo t.cur.agent) (handle t h.val) r)) := by
  simp only [ringAdvOp, hk, if_false, hc, release_ok hrel, Bind.bind, Except.bind, ho, ne_eq, not_true_eq_false, ha]
  rfl

theorem ringAdvOp_own_short (ho : (ringNamed t h).ownerCore (agentNo t.cur.agent) = agentNo t.cur.agent)
    (ha : (ringNamed t h).advance op k = none) :
    ringAdvOp op word h k t = trap 0x0D (ringTval 3 (handle t h.val) (agentNo t.cur.agent)) := by
  simp only [ringAdvOp, hk, if_false, hc, release_ok hrel, Bind.bind, Except.bind, ho, ne_eq, not_true_eq_false, ha]

variable {o : Nat} (ho : (ringNamed t h).ownerCore (agentNo t.cur.agent) = o) (hne : o ≠ agentNo t.cur.agent)
include ho hne

theorem ringAdvOp_alias {r : Ring} (ha : (ringOf (startWriteBacks t .tile) o (handle t h.val)).advance op
      (advancesOut (startWriteBacks t .tile) o (handle t h.val) op + k) = some r) :
    ringAdvOp op word h k t = .ok (goesOn (sendRing (startWriteBacks t .tile) o (curWho (startWriteBacks t .tile) 0) op
      (handle t h.val) k)) := by
  simp only [ringAdvOp, hk, if_false, hc, release_ok hrel, Bind.bind, Except.bind, ho, ne_eq, hne, not_false_eq_true, if_true, ha,
    Option.isNone_some, Bool.false_eq_true]
  rfl

theorem ringAdvOp_alias_short (ha : (ringOf (startWriteBacks t .tile) o (handle t h.val)).advance op
      (advancesOut (startWriteBacks t .tile) o (handle t h.val) op + k) = none) :
    ringAdvOp op word h k t = trap 0x0D (ringTval 3 (handle t h.val) (agentNo t.cur.agent)) := by
  simp only [ringAdvOp, hk, if_false, hc, release_ok hrel, Bind.bind, Except.bind, ho, ne_eq, hne, not_false_eq_true, if_true, ha,
    Option.isNone_none]

end

section
variable {t : State} {h : Handle} (d : GReg) (hv : RingOk t h)
include hv

theorem ringQryOp_own (ho : (ringNamed t h).ownerCore (agentNo t.cur.agent) = agentNo t.cur.agent) :
    ringQryOp d h t = .ok (goesOn (wgSlow t d (ringNamed t h).word1)) := by
  simp only [ringQryOp, ringCheck_ok hv (op := .qry) trivial (Nat.zero_le _), Bind.bind, Except.bind, ho, if_true]
  rfl

theorem ringQryOp_alias (ho : (ringNamed t h).ownerCore (agentNo t.cur.agent) ≠ agentNo t.cur.agent) :
    ringQryOp d h t = .ok (goesOn (sendRing (awaitReg t d).2 ((ringNamed t h).ownerCore (agentNo t.cur.agent))
      (curWho (awaitReg t d).2 (awaitReg t d).1) .qry (handle t h.val) 0)) := by
  simp only [ringQryOp, ringCheck_ok hv (op := .qry) trivial (Nat.zero_le _), Bind.bind, Except.bind, ho, if_false]
  rfl

end

theorem ringQryOp_invalid {t : State} {h : Handle} (d : GReg) (hv : ¬RingOk t h) :
    ringQryOp d h t = trap 0x0D (ringTval 1 (handle t h.val) (agentNo t.cur.agent)) := by
  simp only [ringQryOp, ringCheck_invalid .qry 0 hv]
  rfl

/-! ### What a form of a role does, for its instruction -/

section
variable {i : Instr} {op : RingOp} {word : Nat} {d : GReg} {h : Handle} {k : Nat}

section
variable (hi : ∀ s, exec i s = issue (form i) (ringWaitOp op word d h k) s)
include hi

theorem ringWait_answeredIf (v : Word) :
    AnswersIf i (fun t => answered t v ∧ v ≠ w64 (2 ^ 63) ∧ accessesOut (curCtx t) = false ∧ sinksOut t t.cur = false)
      (fun t => goesOn (wgSlow (acquireNow t .tile) d v)) :=
  answersIf_of_effect hi fun _ ⟨hv, hne, ha, hs⟩ => ringWaitOp_answered word d hv hne ha hs

theorem ringWait_invalidIf (hk : k ≠ 0) : RaisesIf i (fun t => grantOf t = none ∧ ¬RingOk t h) 0x0D
    (fun t => ringTval 1 (handle t h.val) (agentNo t.cur.agent)) :=
  raisesIf_of_effect hi fun _ ⟨hg, hv⟩ => ringWaitOp_refused word d hg hk (ringCheck_invalid op k hv)

theorem ringWait_wrongRoleIf (hk : k ≠ 0) :
    RaisesIf i (fun t => grantOf t = none ∧ RingOk t h ∧ ¬ringRole (ringNamed t h) op (agentNo t.cur.agent)) 0x0D
      (fun t => ringTval 2 (handle t h.val) (agentNo t.cur.agent)) :=
  raisesIf_of_effect hi fun _ ⟨hg, hv, hr⟩ => ringWaitOp_refused word d hg hk (ringCheck_wrongRole k hv hr)

theorem ringWait_tooManyIf (hk : k ≠ 0) : RaisesIf i (fun t => grantOf t = none ∧ RingOk t h ∧
      ringRole (ringNamed t h) op (agentNo t.cur.agent) ∧ (ringNamed t h).slots < k) 0x0D
      (fun t => ringTval 4 (handle t h.val) (agentNo t.cur.agent)) :=
  raisesIf_of_effect hi fun _ ⟨hg, hv, hr, hn⟩ => ringWaitOp_refused word d hg hk (ringCheck_tooMany hv hr hn)

end

section
variable (hi : ∀ s, exec i s = issue (form i) (ringAdvOp op word h k) s)
include hi

theorem ringAdv_invalidIf (hk : k ≠ 0) : RaisesIf i (fun t => ¬RingOk t h) 0x0D
    (fun t => ringTval 1 (handle t h.val) (agentNo t.cur.agent)) :=
  raisesIf_of_effect hi fun _ hv => ringAdvOp_refused word hk (ringCheck_invalid op k hv)

theorem ringAdv_wrongRoleIf (hk : k ≠ 0) :
    RaisesIf i (fun t => RingOk t h ∧ ¬ringRole (ringNamed t h) op (agentNo t.cur.agent)) 0x0D
      (fun t => ringTval 2 (handle t h.val) (agentNo t.cur.agent)) :=
  raisesIf_of_effect hi fun _ ⟨hv, hr⟩ => ringAdvOp_refused word hk (ringCheck_wrongRole k hv hr)

theorem ringAdv_tooManyIf (hk : k ≠ 0) :
    RaisesIf i (fun t => RingOk t h ∧ ringRole (ringNamed t h) op (agentNo t.cur.agent) ∧ (ringNamed t h).slots < k) 0x0D
      (fun t => ringTval 4 (handle t h.val) (agentNo t.cur.agent)) :=
  raisesIf_of_effect hi fun _ ⟨hv, hr, hn⟩ => ringAdvOp_refused word hk (ringCheck_tooMany hv hr hn)

end
end

/-! ### The counts that a form of each role moves -/

section
variable (r : Ring) {k : Nat}

theorem grab_waitf (hk : k ≤ r.filled) : r.grab .waitf k =
    some (r.cidx, { r with filled := r.filled - k, held := r.held + k, cidx := (r.cidx + k) % Nat.max 1 r.slots }) := if_pos hk

theorem grab_waitf_short (hk : r.filled < k) : r.grab .waitf k = none := if_neg (Nat.not_le.mpr hk)

theorem grab_waite (hk : k ≤ r.nfree) : r.grab .waite k =
    some (r.pidx, { r with nfree := r.nfree - k, claim := r.claim + k, pidx := (r.pidx + k) % Nat.max 1 r.slots }) := if_pos hk

theorem grab_waite_short (hk : r.nfree < k) : r.grab .waite k = none := if_neg (Nat.not_le.mpr hk)

theorem advance_advp (hk : k ≤ r.claim) : r.advance .advp k = some { r with claim := r.claim - k, filled := r.filled + k } :=
  if_pos hk

theorem advance_advp_short (hk : r.claim < k) : r.advance .advp k = none := if_neg (Nat.not_le.mpr hk)

theorem advance_advc (hk : k ≤ r.held) : r.advance .advc k = some { r with held := r.held - k, nfree := r.nfree + k } :=
  if_pos hk

theorem advance_advc_short (hk : r.held < k) : r.advance .advc k = none := if_neg (Nat.not_le.mpr hk)

end

/-! ### The statement -/

/-- Settles O37: each form's clause is the lemma about its effect, with the counts of its role. -/
theorem ringsAnswer : Obligations.RingsAnswer := fun d h k => by
  have hnz (hk : k ≠ 0) : k.val ≠ 0 := fun e => hk (Fin.ext e)
  refine ⟨fun s t hready hg hk hv hr hn => ?waitf, ringWait_answeredIf (exec_ringWaitf d h k),
    fun s t hready hg hk hv hr hn => ?waite, ringWait_answeredIf (exec_ringWaite d h k),
    fun s t hready hk hv hr hn hrel => ?advp, fun s t hready hk hv hr hn hrel => ?advc,
    answersIf_of_effect (exec_ringQry d h) fun _ ⟨hv, ho⟩ => ringQryOp_own d hv ho,
    answersIf_of_effect (exec_ringQry d h) fun _ ⟨hv, ho⟩ => ringQryOp_alias d hv ho,
    raisesIf_of_effect (exec_ringQry d h) fun _ hv => ringQryOp_invalid d hv,
    fun s t hr ⟨hg, hk, hv⟩ => ringWait_invalidIf (exec_ringWaitf d h k) (hnz hk) s t hr ⟨hg, hv⟩,
    fun s t hr ⟨hg, hk, hv⟩ => ringWait_wrongRoleIf (exec_ringWaitf d h k) (hnz hk) s t hr ⟨hg, hv⟩,
    fun s t hr ⟨hg, hk, hv⟩ => ringWait_tooManyIf (exec_ringWaitf d h k) (hnz hk) s t hr ⟨hg, hv⟩,
    fun s t hr ⟨hg, hk, hv⟩ => ringWait_invalidIf (exec_ringWaite d h k) (hnz hk) s t hr ⟨hg, hv⟩,
    fun s t hr ⟨hg, hk, hv⟩ => ringWait_wrongRoleIf (exec_ringWaite d h k) (hnz hk) s t hr ⟨hg, hv⟩,
    fun s t hr ⟨hg, hk, hv⟩ => ringWait_tooManyIf (exec_ringWaite d h k) (hnz hk) s t hr ⟨hg, hv⟩,
    fun s t hr ⟨hk, hv⟩ => ringAdv_invalidIf (exec_ringAdvp h k) (hnz hk) s t hr hv,
    fun s t hr ⟨hk, hv⟩ => ringAdv_wrongRoleIf (exec_ringAdvp h k) (hnz hk) s t hr hv,
    fun s t hr ⟨hk, hv⟩ => ringAdv_tooManyIf (exec_ringAdvp h k) (hnz hk) s t hr hv,
    fun s t hr ⟨hk, hv⟩ => ringAdv_invalidIf (exec_ringAdvc h k) (hnz hk) s t hr hv,
    fun s t hr ⟨hk, hv⟩ => ringAdv_wrongRoleIf (exec_ringAdvc h k) (hnz hk) s t hr hv,
    fun s t hr ⟨hk, hv⟩ => ringAdv_tooManyIf (exec_ringAdvc h k) (hnz hk) s t hr hv⟩
  case waitf =>
    have hc := ringCheck_ok (op := .waitf) hv hr hn
    exact ⟨fun ho hq hf hne ha hs => commits_of_effect (exec_ringWaitf d h k s) hready
        (ringWaitOp_grabs _ d hg (hnz hk) hc ho hq (grab_waitf _ hf) rfl hne rfl ha hs),
      fun ho hq => (exec_ringWaitf d h k s).trans (issue_stalls hready
        (ringWaitOp_waits _ d hg (hnz hk) hc ho (hq.imp_right (grab_waitf_short _)))),
      fun ho => (exec_ringWaitf d h k s).trans (issue_stalls hready (ringWaitOp_asks _ d hg (hnz hk) hc ho))⟩
  case waite =>
    have hc := ringCheck_ok (op := .waite) hv hr hn
    exact ⟨fun ho hq hf hne ha hs => commits_of_effect (exec_ringWaite d h k s) hready
        (ringWaitOp_grabs _ d hg (hnz hk) hc ho hq (grab_waite _ hf) rfl hne rfl ha hs),
      fun ho hq => (exec_ringWaite d h k s).trans (issue_stalls hready
        (ringWaitOp_waits _ d hg (hnz hk) hc ho (hq.imp_right (grab_waite_short _)))),
      fun ho => (exec_ringWaite d h k s).trans (issue_stalls hready (ringWaitOp_asks _ d hg (hnz hk) hc ho))⟩
  case advp =>
    have hc := ringCheck_ok (op := .advp) hv hr hn
    exact ⟨fun ho hm => commits_of_effect (exec_ringAdvp h k s) hready
        (ringAdvOp_own _ (hnz hk) hc hrel ho (advance_advp _ hm)),
      fun ho hm => (exec_ringAdvp h k s).trans (issue_traps hready
        (ringAdvOp_own_short _ (hnz hk) hc hrel ho (advance_advp_short _ hm))),
      fun ho hm => commits_of_effect (exec_ringAdvp h k s) hready
        (ringAdvOp_alias _ (hnz hk) hc hrel rfl ho (advance_advp _ hm)),
      fun ho hm => (exec_ringAdvp h k s).trans (issue_traps hready
        (ringAdvOp_alias_short _ (hnz hk) hc hrel rfl ho (advance_advp_short _ hm)))⟩
  case advc =>
    have hc := ringCheck_ok (op := .advc) hv hr hn
    exact ⟨fun ho hm => commits_of_effect (exec_ringAdvc h k s) hready
        (ringAdvOp_own _ (hnz hk) hc hrel ho (advance_advc _ hm)),
      fun ho hm => (exec_ringAdvc h k s).trans (issue_traps hready
        (ringAdvOp_own_short _ (hnz hk) hc hrel ho (advance_advc_short _ hm))),
      fun ho hm => commits_of_effect (exec_ringAdvc h k s) hready
        (ringAdvOp_alias _ (hnz hk) hc hrel rfl ho (advance_advc _ hm)),
      fun ho hm => (exec_ringAdvc h k s).trans (issue_traps hready
        (ringAdvOp_alias_short _ (hnz hk) hc hrel rfl ho (advance_advc_short _ hm)))⟩

end Sys2Proof.Proofs
end

section
/-! REFUTATION of O29. An entry of the gate table may name more results than g4 to g11 hold: its NRET is a number of any size. With 13
of them the return writes g16, which the statement gives back to the caller whatever NRET is (R351). -/

namespace Sys2Proof.Proofs

open Sys2Proof.Machine Sys2Proof.Laws

-- The declarations are checked one after another: checked side by side, their threads exhaust the memory.
set_option Elab.async false

/-- A caller whose every general register holds 1. -/
def onesCaller : Ctx := { Ctx.idle with g := Vector.replicate 32 1 }

/-- A gate of no arguments and 13 results. -/
def manyResults : Gate := { Gate.off with nret := 13 }

/-- The return through that gate places the callee's g16, which is 0, over the caller's. -/
theorem leaveGate_manyResults : (leaveGate (enterGate onesCaller 1 0 manyResults)
    (gateFrame onesCaller 1 0 manyResults.nret) onesCaller.frames).g[(16 : GReg)] = 0 := by decide +kernel

/-- Refutes O29: after a return with 13 results, g16 of the caller is not what it was. -/
theorem not_gatesAnswer : ¬ Obligations.GatesAnswer := by
  intro h
  obtain ⟨-, -, -, -, -, hctx⟩ := h 1
  obtain ⟨-, -, -, -, -, -, -, -, -, -, -, -, -, -, hreturn⟩ := hctx onesCaller 0 manyResults (by decide)
  obtain ⟨-, -, -, -, -, -, -, -, -, -, -, -, hkept, -⟩ := hreturn
  obtain ⟨hg16, -, -⟩ := hkept 16 (by decide) (by decide)
  rw [leaveGate_manyResults] at hg16
  exact absurd hg16 (by decide)

end Sys2Proof.Proofs
end

section
/-! PROOF of O36. What an arrival and a change of the pending count do to a barrier of CORE scope, by whether the phase completes, and
what each BAR form does at its owner and elsewhere (R255 to R259, R267). -/

namespace Sys2Proof.Proofs

open Sys2Proof.Machine Sys2Proof.Laws

-- The declarations are checked one after another: checked side by side, their threads exhaust the memory.
set_option Elab.async false

/-! ### A barrier replaced -/

@[simp] theorem barOf_putBar (s : State) (o i : Nat) (b : Barrier) : barOf (putBar s o i b) o i = b := by
  simp [barOf, putBar, getBar, setBar]

/-- What leaves the barriers of every core leaves each of them. -/
theorem barOf_of_barriers {s t : State} {o i : Nat} (h : (getCore t (.tile o)).barriers = (getCore s (.tile o)).barriers) :
    barOf t o i = barOf s o i := by
  simp only [barOf, getBar, h]

theorem barOf_modCore (s : State) (o i : Nat) (a : Agent) {f : Core → Core} (hf : ∀ co, (f co).barriers = co.barriers) :
    barOf (modCore s a f) o i = barOf s o i :=
  barOf_of_barriers (getCore_modCore_keeps Core.barriers hf s a (.tile o))

@[simp] theorem barOf_beginWait (s : State) (kind obj owner o i : Nat) : barOf (beginWait s kind obj owner) o i = barOf s o i := rfl

/-- An empty hold list holds nothing back. -/
theorem drainHolds_nil {s : State} {o i : Nat} (h : (barOf s o i).holds = []) (n : Nat) : drainHolds o i n s = s := by
  cases n with
  | zero => rfl
  | succ n =>
    rw [drainHolds]
    split
    · rfl
    · rw [h]

/-! ### The phase of a barrier of CORE scope -/

/-- A phase with an arrival or bytes outstanding goes on (R256). -/
theorem testBar_goesOn {s : State} {o i : Nat} (h : (barOf s o i).arrived ≠ (barOf s o i).expect ∨ (barOf s o i).pend ≠ 0) :
    testBar s o i = s := by
  refine if_pos ?_
  rcases h with h | h <;> simp [h]

/-- A phase with neither completes (R256). -/
theorem testBar_completes {s : State} {o i : Nat} {b : Barrier} (hb : barOf s o i = b) (hl : b.live = true) (hsc : b.scope = false)
    (hr : b.rep = false) (ha : b.arrived = b.expect) (hp : b.pend = 0) : testBar s o i = completeBar s o i := by
  simp [testBar, hb, hl, hsc, hr, ha, hp]

/-- A barrier after its phase has completed (R256). -/
def nextPhase (b : Barrier) : Barrier :=
  { b with phase := !b.phase, arrived := 0, rep := false, children := 0, waiters := [], homes := [], lastHomes := b.homes }

/-- The operations of a core's engine that waited at barrier `i` go on (R281). -/
def enginesPast (i : Nat) (co : Core) : Core :=
  { co with matOps := co.matOps.map fun x => if x.phase = .atBarrier ∧ x.mma.bar.toNat = i then { x with phase := .past } else x }

/-- The waiters of the phase that has ended are answered with it. -/
def answerWaiters (s : State) (o i : Nat) (b : Barrier) : State :=
  b.waiters.foldl (fun u w => ownerReply (barAcquire u o i w.ctx) o w (b2n b.phase)) s

theorem completeBar_core {s : State} {o i : Nat} {b : Barrier} (hb : barOf s o i = b) (hsc : b.scope = false) :
    completeBar s o i = modCore (answerWaiters (putBar s o i (nextPhase b)) o i b) (.tile o) (enginesPast i) := by
  subst hb
  exact if_neg (by simp [hsc])

theorem barOf_completeBar {s : State} {o i : Nat} {b : Barrier} (hb : barOf s o i = b) (hsc : b.scope = false) (hw : b.waiters = []) :
    barOf (completeBar s o i) o i = nextPhase b := by
  rw [completeBar_core hb hsc, barOf_modCore _ _ _ _ fun _ => by rfl, answerWaiters, hw, List.foldl_nil, barOf_putBar]

/-- Without a report or a waiter the next phase says so again. -/
theorem nextPhase_quiet {b : Barrier} (hr : b.rep = false) (hw : b.waiters = []) :
    nextPhase b = { b with phase := !b.phase, arrived := 0, children := 0, homes := [], lastHomes := b.homes } := by
  cases b
  cases hr
  cases hw
  rfl

/-! ### An arrival -/

section
variable {s : State} {o i : Nat} {b : Barrier} (hb : barOf s o i = b)
include hb

theorem countArrival_full (ha : b.arrived = b.expect) : countArrival s o i = (putBar s o i { b with ovr := true }, .bad 2) := by
  simp only [countArrival, hb, ha, if_true]

theorem countArrival_counts (ha : b.arrived ≠ b.expect) :
    (countArrival s o i).2 = .counted b.phase ((barOf (countArrival s o i).1 o i).phase != b.phase) := by
  simp only [countArrival, hb, ha, if_false]

theorem countArrival_goesOn (ha : b.arrived ≠ b.expect) (h : b.arrived + 1 ≠ b.expect ∨ b.pend ≠ 0) :
    countArrival s o i = (putBar s o i { b with arrived := b.arrived + 1 }, .counted b.phase false) := by
  have hgoes : testBar (putBar s o i { b with arrived := b.arrived + 1 }) o i = putBar s o i { b with arrived := b.arrived + 1 } :=
    testBar_goesOn (by simpa using h)
  simp only [countArrival, hb, ha, if_false, hgoes, barOf_putBar, bne_self_eq_false]

/-- The last arrival, with no bytes pending and nobody waiting, completes the phase. -/
theorem countArrival_completes (hl : b.live = true) (hsc : b.scope = false) (hr : b.rep = false) (ha : b.arrived + 1 = b.expect)
    (hp : b.pend = 0) (hw : b.waiters = []) :
    countArrival s o i = (completeBar (putBar s o i { b with arrived := b.arrived + 1 }) o i, .counted b.phase true) ∧
      barOf (completeBar (putBar s o i { b with arrived := b.arrived + 1 }) o i) o i =
        { b with phase := !b.phase, arrived := 0, children := 0, homes := [], lastHomes := b.homes } := by
  have hput : barOf (putBar s o i { b with arrived := b.arrived + 1 }) o i = { b with arrived := b.arrived + 1 } := barOf_putBar ..
  have hnext := (barOf_completeBar hput hsc hw).trans (nextPhase_quiet hr hw)
  have hshort : b.arrived ≠ b.expect := by omega
  refine ⟨?_, hnext⟩
  simp only [countArrival, hb, hshort, if_false, testBar_completes hput hl hsc hr ha hp, hnext]
  cases b.phase <;> rfl

theorem arriveBar_dead (w : Who) (wait : Bool) (hl : b.live = false) : arriveBar s o i w wait = (s, .bad 1) := by
  simp [arriveBar, hb, hl]

/-- Where it has not reported, a live barrier counts or refuses an arrival, and then those it holds. -/
theorem arriveBar_counts (w : Who) (wait : Bool) (hl : b.live = true) (hr : (b.scope && b.rep) = false) :
    arriveBar s o i w wait = (drainHolds o i 8 (countArrival s o i).1, (countArrival s o i).2) := by
  simp [arriveBar, hb, hl, hr]

theorem arriveBar_held (w : Who) (wait : Bool) (hl : b.live = true) (hr : (b.scope && b.rep) = true) (hn : b.holds.length < 8) :
    arriveBar s o i w wait = (putBar s o i { b with holds := b.holds ++ [(w, wait)] }, .held) := by
  simp [arriveBar, hb, hl, hr, hn]

theorem arriveBar_overfull (w : Who) (wait : Bool) (hl : b.live = true) (hr : (b.scope && b.rep) = true) (hn : 8 ≤ b.holds.length) :
    arriveBar s o i w wait = (s, .full) := by
  simp [arriveBar, hb, hl, hr, Nat.not_lt.mpr hn]

/-- With no arrival held, the count is all. -/
theorem arriveBar_alone (w : Who) (wait : Bool) (hl : b.live = true) (hr : (b.scope && b.rep) = false) {u : State} {x : Arrived}
    (hc : countArrival s o i = (u, x)) (hh : (barOf u o i).holds = []) : arriveBar s o i w wait = (u, x) := by
  rw [arriveBar_counts hb w wait hl hr, hc, drainHolds_nil hh]

/-! ### The pending count (R258) -/

theorem addPend_eq (v : Int) :
    let p := max (-(2 ^ 23)) (min (2 ^ 23 - 1) (b.pend + v))
    addPend s o i v = (drainHolds o i 8 (testBar (putBar s o i { b with pend := p, txerr := b.txerr || b.pend + v != p }) o i),
      b.pend + v == p) := by
  simp only [addPend, hb]

theorem addPend_inRange (v : Int) :
    (addPend s o i v).2 = (decide (-(2 ^ 23) ≤ b.pend + v) && decide (b.pend + v < 2 ^ 23)) := by
  rw [addPend_eq hb, ← Bool.decide_and, beq_eq_decide]
  exact decide_eq_decide.mpr (by omega)

theorem addPend_goesOn (v : Int) (hh : b.holds = []) (h : b.arrived ≠ b.expect ∨ b.pend + v ≠ 0) :
    (addPend s o i v).1 = putBar s o i { b with
      pend := max (-(2 ^ 23)) (min (2 ^ 23 - 1) (b.pend + v)), txerr := b.txerr || !(addPend s o i v).2 } := by
  have hgoes (e : Bool) : testBar (putBar s o i { b with pend := max (-(2 ^ 23)) (min (2 ^ 23 - 1) (b.pend + v)), txerr := e }) o i =
      putBar s o i { b with pend := max (-(2 ^ 23)) (min (2 ^ 23 - 1) (b.pend + v)), txerr := e } := by
    refine testBar_goesOn ?_
    rw [barOf_putBar]
    exact h.imp_right fun h => by dsimp only; omega
  rw [addPend_eq hb]
  exact (congrArg (drainHolds o i 8) (hgoes _)).trans
    (drainHolds_nil (by rwa [barOf_putBar]) 8)

theorem addPend_completes (v : Int) (hl : b.live = true) (hsc : b.scope = false) (hr : b.rep = false) (hh : b.holds = [])
    (ha : b.arrived = b.expect) (hp : b.pend + v = 0) (hw : b.waiters = []) :
    barOf (addPend s o i v).1 o i =
      { b with pend := 0, phase := !b.phase, arrived := 0, children := 0, homes := [], lastHomes := b.homes } := by
  have hput : barOf (putBar s o i { b with pend := 0 }) o i = { b with pend := 0 } := barOf_putBar ..
  have hnext := (barOf_completeBar hput hsc hw).trans (nextPhase_quiet (b := { b with pend := 0 }) hr hw)
  have hsame : addPend s o i v = (drainHolds o i 8 (testBar (putBar s o i { b with pend := 0 }) o i), true) := by
    rw [addPend_eq hb, hp]
    simp
  rw [hsame, testBar_completes hput hl hsc hr ha rfl, drainHolds_nil ((congrArg Barrier.holds hnext).trans hh), hnext]

end

/-! ### BAR.INIT -/

section
variable {t : State} {a : GReg}

theorem barInitOp_sets {b : GReg} (ho : t.cur.agent = .tile (barOwner (rg t a)))
    (hm : (rg t b).toNat % 2 ^ 16 = 0 ∨ bit (rg t b).toNat 16 = false ∨ ∃ g, memberOf t (bits (rg t b).toNat 31 24) = .ok g)
    {x : Barrier} (hx : barOf t (barOwner (rg t a)) (barIdx (rg t a)) = x)
    (hf : x.live = false ∨ (x.waiters = [] ∧ engineWaits t (barOwner (rg t a)) (barIdx (rg t a)) = false ∧ x.arrived = 0 ∧ x.pend = 0)) :
    barInitOp a b t = .ok (goesOn (putBar t (barOwner (rg t a)) (barIdx (rg t a)) { Barrier.off with
      live := (rg t b).toNat % 2 ^ 16 != 0, scope := bit (rg t b).toNat 16, expect := (rg t b).toNat % 2 ^ 16,
      tag := bits (rg t b).toNat 31 24, launch := (opCtx t).launch, children := x.children, holds := x.holds })) := by
  have hme : agentNo t.cur.agent = barOwner (rg t a) := by rw [ho]; rfl
  have hfree : (x.live && (!x.waiters.isEmpty || engineWaits t (barOwner (rg t a)) (barIdx (rg t a)) || x.arrived != 0 ||
      x.pend != 0)) = false := by
    rcases hf with hf | ⟨hw, he, harr, hp⟩
    · simp [hf]
    · simp [hw, he, harr, hp]
  simp only [barInitOp, hme, ne_eq, not_true_eq_false, if_false, hx, hfree, Bool.false_eq_true]
  by_cases hg : ¬(rg t b).toNat % 2 ^ 16 = 0 ∧ bit (rg t b).toNat 16 = true
  · obtain ⟨g, hg'⟩ := (hm.resolve_left hg.1).resolve_left (by simp [hg.2])
    simp only [hg, not_false_eq_true, and_self, if_true, hg', Bind.bind, Except.bind]
    rfl
  · simp only [hg, if_false]
    rfl

theorem barInitOp_elsewhere (b : GReg) (ho : barOwner (rg t a) ≠ agentNo t.cur.agent) :
    barInitOp a b t = trap 0x09 (barTval 5 (barIdx (rg t a)) (barOwner (rg t a))) := if_pos ho

end

/-! ### BAR.ARR -/

section
variable {t : State} (sc : Scope) (d : GReg) {a : GReg} (hin : inLaunch t (opCtx t) (barOwner (rg t a)) = true) {u : State}
  (hu : release t sc = .ok u)
include hin hu

theorem barArrOp_leaves (ho : u.cur.agent ≠ .tile (barOwner (rg t a))) :
    barArrOp sc d a t = .ok (goesOn (sendBar (awaitReg u d).2 (barOwner (rg t a)) (barIdx (rg t a))
      (curWho (awaitReg u d).2 (awaitReg u d).1) (.arrive false))) := by
  simp only [barArrOp, destCheck_inside hin, hu, Bind.bind, Except.bind, ne_eq, ho, not_false_eq_true, if_true]
  rfl

variable (ho : u.cur.agent = .tile (barOwner (rg t a))) {v : State × Arrived}
  (hv : arriveBar (awaitReg u d).2 (barOwner (rg t a)) (barIdx (rg t a)) (curWho (awaitReg u d).2 (awaitReg u d).1) false = v)
include ho hv

theorem barArrOp_counted {phase : Bool} (hc : ∃ past, v.2 = .counted phase past) :
    barArrOp sc d a t = .ok (goesOn (landReply v.1 (curWho v.1 (awaitReg u d).1) (awaitReg u d).1 (b2n phase))) := by
  obtain ⟨past, hc⟩ := hc
  simp only [barArrOp, destCheck_inside hin, hu, Bind.bind, Except.bind, ne_eq, ho, not_true_eq_false, if_false, hv, hc]
  rfl

theorem barArrOp_held (hc : v.2 = .held) : barArrOp sc d a t = .ok (goesOn v.1) := by
  simp only [barArrOp, destCheck_inside hin, hu, Bind.bind, Except.bind, ne_eq, ho, not_true_eq_false, if_false, hv, hc]
  rfl

theorem barArrOp_refused {n : Nat} (hc : v.2 = .bad n) : barArrOp sc d a t = .error (.trapAfter
    (putBar u (barOwner (rg t a)) (barIdx (rg t a)) (barOf v.1 (barOwner (rg t a)) (barIdx (rg t a)))) 0x09
    (barTval n (barIdx (rg t a)) (barOwner (rg t a)))) := by
  simp only [barArrOp, destCheck_inside hin, hu, Bind.bind, Except.bind, ne_eq, ho, not_true_eq_false, if_false, hv, hc]

end

/-! ### BAR.WAIT -/

section
variable {t : State} (sc : Scope) {a : GReg}

theorem barWaitOp_answered (b : GReg) {v : Word} (hv : answered t v) (ha : accessesOut (curCtx t) = false)
    (hs : sinksOut t t.cur = false) : barWaitOp sc a b t = .ok (goesOn (acquireNow t sc)) := by
  obtain ⟨⟨pc, id, value⟩, hg, rfl⟩ := hv
  simp only [barWaitOp, hg, acquire_ok ha hs, Bind.bind, Except.bind]
  rfl

variable (hg : grantOf t = none) (ho : barOwner (rg t a) = agentNo t.cur.agent) {x : Barrier}
  (hx : barOf t (agentNo t.cur.agent) (barIdx (rg t a)) = x)
include hg ho hx

theorem barWaitOp_past {b : GReg} (hl : x.live = true) (hp : x.phase ≠ (rg t b).getLsbD 0) {u : State}
    (hu : barAcquire t (agentNo t.cur.agent) (barIdx (rg t a)) t.cur = u) (ha : accessesOut (curCtx u) = false)
    (hs : sinksOut u u.cur = false) : barWaitOp sc a b t = .ok (goesOn (acquireNow u sc)) := by
  simp only [barWaitOp, hg, ho, ne_eq, not_true_eq_false, if_false, hx, hl, Bool.not_true, Bool.false_eq_true, hp, hu,
    acquire_ok ha hs, Bind.bind, Except.bind]
  rfl

theorem barWaitOp_waits {b : GReg} (hl : x.live = true) (hp : x.phase = (rg t b).getLsbD 0) :
    barWaitOp sc a b t = .error (.wait (asks t fun id v =>
      putBar v (agentNo t.cur.agent) (barIdx (rg t a)) { x with waiters := x.waiters ++ [curWho v id] })
      3 (8 * barIdx (rg t a)) (agentNo t.cur.agent)) := by
  simp only [barWaitOp, hg, ho, ne_eq, not_true_eq_false, if_false, hx, hl, Bool.not_true, Bool.false_eq_true, if_pos hp]
  rfl

theorem barWaitOp_dead (b : GReg) (hl : x.live = false) :
    barWaitOp sc a b t = trap 0x09 (barTval 1 (barIdx (rg t a)) (agentNo t.cur.agent)) := by
  simp only [barWaitOp, hg, ho, ne_eq, not_true_eq_false, if_false, hx, hl, Bool.not_false, if_true]

end

/-! ### BAR.ARW -/

theorem barArwFinish_goesOn {s : State} (sc : Scope) (d : GReg) {v : Word} (hb : bit v.toNat 63 = false) {u : State}
    (hu : keepAnswer s v = u) (ha : accessesOut (curCtx u) = false) (hs : sinksOut u u.cur = false) :
    barArwFinish sc d s v = .ok (goesOn (wgSlow (acquireNow u sc) d (v &&& 1))) := by
  simp only [barArwFinish, hu, acquire_ok ha hs, Bind.bind, Except.bind, hb, Bool.false_eq_true, if_false]
  rfl

/-- The word of a phase is the phase. -/
theorem phaseWord (b : Bool) : bit (w64 (b2n b)).toNat 63 = false ∧ w64 (b2n b) &&& 1 = w64 (b2n b) := by
  cases b <;> decide

section
variable {t : State} (sc : Scope) (d : GReg) {a : GReg}

theorem barArwOp_answered {v : Word} (hv : answered t v) (hb : bit v.toNat 63 = false) (ha : accessesOut (curCtx t) = false)
    (hs : sinksOut t t.cur = false) : barArwOp sc d a t = .ok (goesOn (wgSlow (acquireNow t sc) d (v &&& 1))) := by
  have hkeep := keepAnswer_of_answered v hv
  obtain ⟨⟨pc, id, value⟩, hg, rfl⟩ := hv
  simp only [barArwOp, hg]
  exact barArwFinish_goesOn sc d hb hkeep ha hs

variable (hg : grantOf t = none)
include hg

theorem barArwOp_outside (hin : inLaunch t (opCtx t) (barOwner (rg t a)) = false) :
    barArwOp sc d a t = trap 0x08 (reason2 (barOwner (rg t a))) := by
  simp only [barArwOp, hg, destCheck_outside hin]
  rfl

variable (hin : inLaunch t (opCtx t) (barOwner (rg t a)) = true) {u : State} (hu : release t sc = .ok u)
include hin hu

theorem barArwOp_asks (ho : t.cur.agent ≠ .tile (barOwner (rg t a))) :
    barArwOp sc d a t = .error (.wait (asks u fun id v => sendBar v (barOwner (rg t a)) (barIdx (rg t a)) (curWho v id) (.arrive true))
      3 (8 * barIdx (rg t a)) (barOwner (rg t a))) := by
  simp only [barArwOp, hg, destCheck_inside hin, hu, Bind.bind, Except.bind, beq_eq_false_iff_ne.mpr ho, Bool.not_false, if_true]
  rfl

variable (ho : t.cur.agent = .tile (barOwner (rg t a))) {v : State × Arrived}
  (hv : arriveBar (newId u).2 (barOwner (rg t a)) (barIdx (rg t a)) (curWho (newId u).2 (newId u).1) true = v) {phase : Bool}
include ho hv

theorem barArwOp_past (hc : v.2 = .counted phase true) :
    barArwOp sc d a t = barArwFinish sc d (barAcquire v.1 (barOwner (rg t a)) (barIdx (rg t a)) u.cur) (w64 (b2n phase)) := by
  simp only [barArwOp, hg, destCheck_inside hin, hu, Bind.bind, Except.bind, beq_iff_eq.mpr ho, Bool.not_true, Bool.false_eq_true,
    if_false, hv, hc, if_true]
  rfl

theorem barArwOp_waits (hc : v.2 = .counted phase false) :
    barArwOp sc d a t = askAs (putBar v.1 (barOwner (rg t a)) (barIdx (rg t a)) { barOf v.1 (barOwner (rg t a)) (barIdx (rg t a)) with
      waiters := (barOf v.1 (barOwner (rg t a)) (barIdx (rg t a))).waiters ++ [curWho u (newId u).1] }) (newId u).1
      3 (8 * barIdx (rg t a)) (barOwner (rg t a)) := by
  simp only [barArwOp, hg, destCheck_inside hin, hu, Bind.bind, Except.bind, beq_iff_eq.mpr ho, Bool.not_true, Bool.false_eq_true,
    if_false, hv, hc]
  rfl

end

/-! ### BAR.TX and BAR.QRY -/

section
variable {t : State} {a : GReg}

theorem barTxOp_outside (b : GReg) (hin : inLaunch t (opCtx t) (barOwner (rg t a)) = false) :
    barTxOp a b t = trap 0x08 (reason2 (barOwner (rg t a))) := by
  simp only [barTxOp, destCheck_outside hin]
  rfl

theorem barQryOp_outside (d : GReg) (hin : inLaunch t (opCtx t) (barOwner (rg t a)) = false) :
    barQryOp d a t = trap 0x08 (reason2 (barOwner (rg t a))) := by
  simp only [barQryOp, destCheck_outside hin]
  rfl

theorem barArrOp_outside (sc : Scope) (d : GReg) (hin : inLaunch t (opCtx t) (barOwner (rg t a)) = false) :
    barArrOp sc d a t = trap 0x08 (reason2 (barOwner (rg t a))) := by
  simp only [barArrOp, destCheck_outside hin]
  rfl

variable (hin : inLaunch t (opCtx t) (barOwner (rg t a)) = true)
include hin

theorem barTxOp_leaves (b : GReg) (ho : t.cur.agent ≠ .tile (barOwner (rg t a))) :
    barTxOp a b t = .ok (goesOn (sendBar t (barOwner (rg t a)) (barIdx (rg t a)) (curWho t 0) (.tx (rg t b).toInt))) := by
  simp only [barTxOp, destCheck_inside hin, Bind.bind, Except.bind, ne_eq, ho, not_false_eq_true, if_true]
  rfl

section
variable (ho : t.cur.agent = .tile (barOwner (rg t a))) (hl : (barOf t (barOwner (rg t a)) (barIdx (rg t a))).live = true) {b : GReg}
include ho hl

theorem barTxOp_counts (hr : (addPend t (barOwner (rg t a)) (barIdx (rg t a)) (rg t b).toInt).2 = true) :
    barTxOp a b t = .ok (goesOn (addPend t (barOwner (rg t a)) (barIdx (rg t a)) (rg t b).toInt).1) := by
  simp only [barTxOp, destCheck_inside hin, Bind.bind, Except.bind, ne_eq, ho, not_true_eq_false, if_false, hl, Bool.not_true,
    Bool.false_eq_true, hr, if_true]
  rfl

theorem barTxOp_saturates (hr : (addPend t (barOwner (rg t a)) (barIdx (rg t a)) (rg t b).toInt).2 = false) :
    barTxOp a b t = .error (.trapAfter (addPend t (barOwner (rg t a)) (barIdx (rg t a)) (rg t b).toInt).1 0x09
      (barTval 4 (barIdx (rg t a)) (barOwner (rg t a)))) := by
  simp only [barTxOp, destCheck_inside hin, Bind.bind, Except.bind, ne_eq, ho, not_true_eq_false, if_false, hl, Bool.not_true,
    Bool.false_eq_true, hr]

end

theorem barQryOp_own (d : GReg) (ho : t.cur.agent = .tile (barOwner (rg t a))) :
    barQryOp d a t = .ok (goesOn (wgSlow t d (barOf t (barOwner (rg t a)) (barIdx (rg t a))).word)) := by
  simp only [barQryOp, destCheck_inside hin, Bind.bind, Except.bind, ho, if_true]
  rfl

theorem barQryOp_leaves (d : GReg) (ho : t.cur.agent ≠ .tile (barOwner (rg t a))) :
    barQryOp d a t = .ok (goesOn (sendBar (awaitReg t d).2 (barOwner (rg t a)) (barIdx (rg t a))
      (curWho (awaitReg t d).2 (awaitReg t d).1) .query)) := by
  simp only [barQryOp, destCheck_inside hin, Bind.bind, Except.bind, ho, if_false]
  rfl

end

/-! ### The statement -/

/-- The clauses of O36 about an arrival and a change of the pending count. -/
theorem arrivals_phases (s : State) (o i : Nat) (w : Who) (wait : Bool) {b : Barrier} (hb : barOf s o i = b) (hl : b.live = true)
    (hsc : b.scope = false) (hr : b.rep = false) (hh : b.holds = []) :
    (b.arrived = b.expect → arriveBar s o i w wait = (putBar s o i { b with ovr := true }, .bad 2)) ∧
    (b.arrived ≠ b.expect → (b.arrived + 1 ≠ b.expect ∨ b.pend ≠ 0) → arriveBar s o i w wait =
      (putBar s o i { b with arrived := b.arrived + 1 }, .counted b.phase false)) ∧
    (b.arrived + 1 = b.expect → b.pend = 0 → b.waiters = [] →
      (arriveBar s o i w wait) = (completeBar (putBar s o i { b with arrived := b.arrived + 1 }) o i, .counted b.phase true) ∧
      barOf (arriveBar s o i w wait).1 o i = { b with phase := !b.phase, arrived := 0, children := 0, homes := [], lastHomes := b.homes }) := by
  have halone {u : State} {x : Arrived} := arriveBar_alone hb w wait hl (by simp [hsc]) (u := u) (x := x)
  refine ⟨fun ha => halone (countArrival_full hb ha) (by simpa using hh),
    fun ha h => halone (countArrival_goesOn hb ha h) (by simpa using hh), fun ha hp hw => ?_⟩
  obtain ⟨hcount, hnext⟩ := countArrival_completes hb hl hsc hr ha hp hw
  have harrive := halone hcount ((congrArg Barrier.holds hnext).trans hh)
  exact ⟨harrive, harrive ▸ hnext⟩

/-- Settles O36: each form's clause is the lemma about its effect, and the phases are `arrivals_phases`, `completeBar_core` and the
lemmas about `addPend`. -/
theorem barriersAnswer : Obligations.BarriersAnswer := by
  refine ⟨fun sc d a b => ⟨answers_of_effect (exec_grpMem d a) fun _ => rfl,
    answersIf_of_effect (exec_barInit a b) fun t ⟨ho, hm, hf⟩ => barInitOp_sets ho hm rfl hf,
    fun s t h hin hrel => ?arr, fun s t h hg ho => ?wait,
    answersIf_of_effect (exec_barWait sc a b) fun _ ⟨⟨_, hv⟩, ha, hs⟩ => barWaitOp_answered sc b hv ha hs,
    fun _ => answersIf_of_effect (exec_barArw sc d a) fun _ ⟨hv, hb, ha, hs⟩ => barArwOp_answered sc d hv hb ha hs,
    fun s t h hg hin hrel => ?arw,
    answersIf_of_effect (exec_barTx a b) fun _ ⟨hin, ho⟩ => barTxOp_leaves hin b ho,
    answersIf_of_effect (exec_barTx a b) fun _ ⟨hin, ho, hl, hlo, hhi⟩ => barTxOp_counts hin ho hl
      ((addPend_inRange rfl _).trans (by rw [decide_eq_true hlo, decide_eq_true hhi]; rfl)),
    fun s t h hin ho hl hr => (exec_barTx a b s).trans (issue_stalls h (barTxOp_saturates hin ho hl
      ((addPend_inRange rfl _).trans (by rw [← Bool.decide_and, decide_eq_false hr])))),
    answersIf_of_effect (exec_barQry d a) fun _ ⟨hin, ho⟩ => barQryOp_own hin d ho,
    answersIf_of_effect (exec_barQry d a) fun _ ⟨hin, ho⟩ => barQryOp_leaves hin d ho,
    raisesIf_of_effect (exec_barArr sc d a) fun _ => barArrOp_outside sc d,
    raisesIf_of_effect (exec_barArw sc d a) fun _ ⟨hg, hin⟩ => barArwOp_outside sc d hg hin,
    raisesIf_of_effect (exec_barTx a b) fun _ => barTxOp_outside b,
    raisesIf_of_effect (exec_barQry d a) fun _ => barQryOp_outside d,
    raisesIf_of_effect (exec_barInit a b) fun _ => barInitOp_elsewhere b⟩, fun s o i w wait => ?phases⟩
  case arr =>
    have hcur : (startWriteBacks t sc).cur.agent = t.cur.agent := congrArg CtxKey.agent (keepsSpawner_startWriteBacks t sc).cur
    have hu := release_ok hrel
    refine ⟨fun ho => commits_of_effect (exec_barArr sc d a s) h (barArrOp_leaves sc d hin hu (hcur.trans_ne ho)),
      fun ho => ⟨fun hl hr ha => commits_of_effect (exec_barArr sc d a s) h (barArrOp_counted sc d hin hu (hcur.trans ho) rfl ?_),
        fun hl hsc hr hn => commits_of_effect (exec_barArr sc d a s) h (barArrOp_held sc d hin hu (hcur.trans ho) rfl ?_),
        fun n hn => (exec_barArr sc d a s).trans (issue_stalls h (barArrOp_refused sc d hin hu (hcur.trans ho) rfl hn))⟩⟩
    · exact ⟨_, (congrArg Prod.snd (arriveBar_counts rfl _ _ hl hr)).trans (countArrival_counts rfl ha)⟩
    · exact congrArg Prod.snd (arriveBar_held rfl _ _ hl (by simp [hsc, hr]) hn)
  case wait =>
    exact ⟨fun hl hp ha hs => commits_of_effect (exec_barWait sc a b s) h (barWaitOp_past sc hg ho rfl hl hp rfl ha hs),
      fun hl hp => (exec_barWait sc a b s).trans (issue_stalls h (barWaitOp_waits sc hg ho rfl hl hp)),
      fun hl => (exec_barWait sc a b s).trans (issue_traps h (barWaitOp_dead sc hg ho rfl b hl))⟩
  case arw =>
    have hcur := (keepsSpawner_startWriteBacks t sc).cur
    have hu := release_ok hrel
    refine ⟨fun ho => (exec_barArw sc d a s).trans (issue_stalls h (barArwOp_asks sc d hg hin hu ho)),
      fun ho => ⟨fun ph hv ha hs => ?_, fun ph hv => ?_⟩⟩
    · obtain ⟨hbit, hword⟩ := phaseWord ph
      refine commits_of_effect (exec_barArw sc d a s) h ((barArwOp_past sc d hg hin hu ho rfl hv).trans ?_)
      rw [hcur]
      exact (barArwFinish_goesOn sc d hbit rfl ha hs).trans (by rw [hword])
    · refine ⟨_, (exec_barArw sc d a s).trans (issue_stalls h (barArwOp_waits sc d hg hin hu ho rfl hv)), rfl, ?_⟩
      exact (barOf_beginWait ..).trans (barOf_putBar ..)
  case phases =>
    refine ⟨fun hl => arriveBar_dead rfl w wait hl, fun hl hsc hr hh => ?_⟩
    obtain ⟨hfull, hgoes, hlast⟩ := arrivals_phases s o i w wait rfl hl hsc hr hh
    exact ⟨hfull, hgoes, hlast, fun ha hp => ⟨testBar_completes rfl hl hsc hr ha hp, completeBar_core rfl hsc⟩,
      fun v => ⟨addPend_inRange rfl v, addPend_goesOn rfl v hh, addPend_completes rfl v hl hsc hr hh⟩⟩

end Sys2Proof.Proofs
end

section
/-! PROOF of O40. CPY and SCFG read their blocks and then go by what they hold; a lemma for each outcome (R297 to R300, R306, R155 to
R157). -/

namespace Sys2Proof.Proofs

open Sys2Proof.Machine Sys2Proof.Laws

-- The declarations are checked one after another: checked side by side, their threads exhaust the memory.
set_option Elab.async false

/-! ### CPY (R298, R299) -/

/-- The transfer that CPY queues in the state that the reads of its block have left (Table 13.1). -/
def queuedXfer (u : State) (core : Nat) (fw : CpyField) (b : List Word) : Xfer :=
  { id := (curCore u).xferNext, who := curWho (newId u).2 (newId u).1, asid := (opCtx u).asid, user := curLevel u == 0, block := b,
    fw := fw, launch := (opCtx u).launch, state := 1, flags := 0, bytes := 0, reason := 0, faultVa := 0, faultCause := 0,
    dests := (xferCores core fw b).map fun c => ⟨c, false, none, 0, none⟩, cache := [], shadow := [], homes := [] }

/-- A core with a transfer more, and the number after it. -/
def withXfer (x : Xfer) (co : Core) : Core :=
  { co with xfers := co.xfers ++ [x], xferNext := if x.id = 0xFFFF then 1 else x.id + 1 }

/-- The state in which a transfer is queued. -/
def queued (u : State) (x : Xfer) : State :=
  let s := modCurCore (newId u).2 (withXfer x)
  if doneIrq x.fw then modCur s fun c => { c with cpyOpen := c.cpyOpen + 1 } else s

theorem curCore_queued (u : State) (x : Xfer) : curCore (queued u x) = withXfer x (curCore u) := by
  have hcore : curCore (modCurCore (newId u).2 (withXfer x)) = withXfer x (curCore u) := curCore_modCurCore ..
  unfold queued
  split <;> exact hcore

theorem cpyOpen_queued (u : State) (x : Xfer) : (curCtx (queued u x)).cpyOpen = (curCtx u).cpyOpen + if doneIrq x.fw then 1 else 0 := by
  unfold queued
  split
  · exact (congrArg Ctx.cpyOpen (curCtx_modCur ..)).trans rfl
  · rfl

section
variable {t u : State} {b : List Word} (d : GReg) {a : GReg} {fw : CpyField}

theorem cpyOp_misaligned (ha : (rg t a).toNat % 8 ≠ 0) : cpyOp d a fw t = trap 0x05 (rg t a) := if_pos ha

variable (ha : (rg t a).toNat % 8 = 0) (hn : (curCore t).xfers.length < 16) (hb : readBlock t (rg t a) 13 0 = .ok (u, b))
include ha hn hb

theorem cpyOp_refused (hr : cpyReason u (agentNo t.cur.agent) (opCtx u) fw b ≠ 0) :
    cpyOp d a fw t = trap 0x27 (cpyTval 0 (cpyReason u (agentNo t.cur.agent) (opCtx u) fw b)) := by
  simp only [cpyOp, ha, ne_eq, not_true_eq_false, if_false, Nat.not_le.mpr hn, hb, Bind.bind, Except.bind, hr, not_false_eq_true,
    if_true]

variable (hr : cpyReason u (agentNo t.cur.agent) (opCtx u) fw b = 0)
include hr

theorem cpyOp_misalignedHandler (hi : doneIrq fw = true) (hh : blockWord b 11 % 2 ^ 48 % 8 ≠ 0) :
    cpyOp d a fw t = trap 0x05 (w64 (blockWord b 11 % 2 ^ 48)) := by
  simp only [cpyOp, ha, ne_eq, not_true_eq_false, if_false, Nat.not_le.mpr hn, hb, Bind.bind, Except.bind, hr, hi, hh,
    not_false_eq_true, and_self, if_true]

theorem cpyOp_queues (hh : doneIrq fw = true → blockWord b 11 % 2 ^ 48 % 8 = 0) :
    cpyOp d a fw t = .ok (goesOn (wgSlow (queued u (queuedXfer u (agentNo t.cur.agent) fw b)) d (w64 (curCore u).xferNext.toNat))) := by
  have hhandler : ¬(doneIrq fw = true ∧ ¬blockWord b 11 % 2 ^ 48 % 8 = 0) := fun ⟨hi, hne⟩ => hne (hh hi)
  simp only [cpyOp, ha, ne_eq, not_true_eq_false, if_false, Nat.not_le.mpr hn, hb, Bind.bind, Except.bind, hr, hhandler]
  rfl

end

/-! ### CPY.CANCEL (R306) -/

section
variable {t : State} (d : GReg) {a : GReg} {x : Xfer}

theorem cpyCancelOp_running
    (hf : ((curCore t).xfers.find? fun x => x.id == BitVec.ofNat 16 (rg t a).toNat && ownXfer t x) = some x) :
    cpyCancelOp d a t = .ok (goesOn (wgSlow (cancelXfer t t.cur.agent x) d
      (w64 (xferTotal (agentNo t.cur.agent) x.fw x.block - x.bytes)))) := by
  simp only [cpyCancelOp, hf]
  rfl

variable (hf : ((curCore t).xfers.find? fun x => x.id == BitVec.ofNat 16 (rg t a).toNat && ownXfer t x) = none)
include hf

theorem cpyCancelOp_ended
    (hd : ((curCore t).xfersDone.find? fun x => x.id == BitVec.ofNat 16 (rg t a).toNat && ownXfer t x) = some x) :
    cpyCancelOp d a t = .ok (goesOn (wgSlow t d
      (if x.state = 3 then 0 else w64 (xferTotal (agentNo t.cur.agent) x.fw x.block - x.bytes)))) := by
  simp only [cpyCancelOp, hf, hd]
  rfl

theorem cpyCancelOp_unknown
    (hd : ((curCore t).xfersDone.find? fun x => x.id == BitVec.ofNat 16 (rg t a).toNat && ownXfer t x) = none) :
    cpyCancelOp d a t = .ok (goesOn (wgSlow t d 0x8000000000000000#64)) := by
  simp only [cpyCancelOp, hf, hd]
  rfl

end

/-! ### SCFG and SCLOSE (R155, R156) -/

/-- The stream that SCFG binds. -/
def boundStream (u : State) (base : Word) (wr : Bool) (size : StreamSize) (p : List (Nat × Int)) : Stream :=
  { write := wr, size := size, base := base, counts := p.map (·.1), strides := p.map (·.2), next := 0,
    total := p.foldl (fun n x => n * x.1) 1, buf := [], done := 0, fault := none, outq := [], asid := (curCtx u).asid,
    user := curLevel u == 0 }

/-- A context with a stream bound to a register, which reads 0. -/
def withStream (r : SReg) (x : Stream) (c : Ctx) : Ctx :=
  { c with streams := (r, x) :: c.streams, f := c.f.set (Fin.ofNat 32 r.val) 0 }

/-- The vector register of a stream register. -/
theorem val_vectorOf (r : SReg) : (Fin.ofNat 32 r.val : Fin 32).val = r.val := Nat.mod_eq_of_lt (by have := r.isLt; omega)

theorem streamOf_withStream (r : SReg) (x : Stream) (c : Ctx) : streamOf (withStream r x c) (Fin.ofNat 32 r.val) = some x := by
  have hfound : (withStream r x c).streams.find? (fun y => y.1.val == (Fin.ofNat 32 r.val : Fin 32).val) = some (r, x) :=
    List.find?_cons_of_pos (beq_iff_eq.mpr (val_vectorOf r).symm)
  rw [streamOf, hfound]
  rfl

theorem f_withStream (r : SReg) (x : Stream) (c : Ctx) : (withStream r x c).f[(Fin.ofNat 32 r.val : Fin 32)] = 0 :=
  Vector.getElem_set_self _

section
variable {t u : State} {p : List (Nat × Int)} {r : SReg} {a b : GReg} {wr : Bool} {size : StreamSize}

theorem scfgOp_misaligned (hb : (rg t b).toNat % 8 ≠ 0) : scfgOp r a b wr size t = trap 0x05 (rg t b) := if_pos hb

variable (hb : (rg t b).toNat % 8 = 0) (hp : readPattern t (rg t b) 4 0 = .ok (u, p))
include hb hp

theorem scfgOp_unfit (hf : patternFits size (rg t a) p = false) : scfgOp r a b wr size t = trap 0x05 (rg t a) := by
  simp only [scfgOp, hb, ne_eq, not_true_eq_false, if_false, hp, Bind.bind, Except.bind, hf, Bool.not_false, if_true]

variable (hf : patternFits size (rg t a) p = true)
include hf

theorem scfgOp_tooMany (hn : 2 ^ 48 - 1 < p.foldl (fun n x => n * x.1) 1) :
    scfgOp r a b wr size t = trap 0x0C (streamTval 6 r.val) := by
  simp only [scfgOp, hb, ne_eq, not_true_eq_false, if_false, hp, Bind.bind, Except.bind, hf, Bool.not_true, Bool.false_eq_true]
  exact if_pos hn

theorem scfgOp_binds (hn : p.foldl (fun n x => n * x.1) 1 ≤ 2 ^ 48 - 1) (hc : closeCheck u r = .ok ()) :
    scfgOp r a b wr size t = .ok (goesOn (modCur (unbind u u.cur r) (withStream r (boundStream u (rg t a) wr size p)))) := by
  simp only [scfgOp, hb, ne_eq, not_true_eq_false, if_false, hp, Bind.bind, Except.bind, hf, Bool.not_true, Bool.false_eq_true]
  refine (if_neg (Nat.not_lt.mpr hn)).trans ?_
  simp only [hc]
  rfl

end

theorem scloseOp_unbinds {t : State} {r : SReg} (hc : closeCheck t r = .ok ()) :
    (do closeCheck t r; ok (unbind t t.cur r) : Do Done) = .ok (goesOn (unbind t t.cur r)) := by
  rw [hc]
  rfl

/-- A context without a binding of a register (R156). -/
def unbindCtx (r : SReg) (c : Ctx) : Ctx :=
  { c with
    streams := c.streams.filter (·.1 != r)
    pushes := c.pushes.filter (·.val != r.val)
    f := if c.streams.any (·.1 == r) then c.f.set (Fin.ofNat 32 r.val) 0 else c.f }

theorem getCtx_unbind (s : State) (k : CtxKey) (r : SReg) : getCtx (unbind s k r) k = unbindCtx r (getCtx s k) :=
  getCtx_modCtx_same ..

theorem streamOf_unbindCtx (r : SReg) (c : Ctx) : streamOf (unbindCtx r c) (Fin.ofNat 32 r.val) = none := by
  rw [streamOf, Option.map_eq_none_iff, List.find?_eq_none]
  intro x hx
  have hne : (x.1 != r) = true := (List.mem_filter.mp hx).2
  rw [val_vectorOf, beq_iff_eq]
  exact fun e => bne_iff_ne.mp hne (Fin.ext e)

theorem f_unbindCtx {r : SReg} {c : Ctx} (h : c.streams.any (·.1 == r) = true) :
    (unbindCtx r c).f[(Fin.ofNat 32 r.val : Fin 32)] = 0 := by
  simp only [unbindCtx, h, if_true]
  exact Vector.getElem_set_self _

/-! ### The statement -/

/-- Settles O40: each form's clause is the lemma about its effect; what is queued or bound is read off `withXfer` and
`withStream`. -/
theorem copiesAndStreamsAnswer : Obligations.CopiesAndStreamsAnswer := by
  intro d a b r fw sel size
  refine ⟨fun s t u l h ha hn hb => ⟨fun hr => ?refused, fun hr hh => ?queues⟩,
    fun _ => answersIf_of_effect (exec_cpyCancel d a) fun _ => cpyCancelOp_running d,
    fun _ => answersIf_of_effect (exec_cpyCancel d a) fun _ ⟨hf, hd⟩ => cpyCancelOp_ended d hf hd,
    answersIf_of_effect (exec_cpyCancel d a) fun _ ⟨hf, hd⟩ => cpyCancelOp_unknown d hf hd,
    raisesIf_of_effect (exec_cpy d a fw) fun _ => cpyOp_misaligned d,
    fun s t u l h ha hn hb hr hi hh => (exec_cpy d a fw s).trans (issue_traps h (cpyOp_misalignedHandler d ha hn hb hr hi hh)),
    raisesIf_of_effect (exec_scfg r a b sel size) fun _ => scfgOp_misaligned,
    answers_of_effect (exec_cpyStat d a sel) fun _ => rfl,
    fun s t u p h hb hp => ⟨fun hf => (exec_scfg r a b sel size s).trans (issue_traps h (scfgOp_unfit hb hp hf)),
      fun hf hn => (exec_scfg r a b sel size s).trans (issue_traps h (scfgOp_tooMany hb hp hf hn)), fun hf hn hc => ?binds⟩,
    answersIf_of_effect (exec_sclose r) fun _ => scloseOp_unbinds,
    fun s k => ?unbinds,
    answers_of_effect (exec_sstat d r) fun _ => rfl⟩
  case refused => exact (exec_cpy d a fw s).trans (issue_traps h (cpyOp_refused d ha hn hb hr))
  case queues =>
    refine ⟨_, queuedXfer u (agentNo t.cur.agent) fw l, commits_of_effect (exec_cpy d a fw s) h (cpyOp_queues d ha hn hb hr hh), ?_, rfl,
      rfl, rfl, rfl, rfl, rfl, rfl, ?_, cpyOpen_queued ..⟩ <;> rw [curCore_queued] <;> rfl
  case binds =>
    refine ⟨_, boundStream u (rg t a) sel size p, commits_of_effect (exec_scfg r a b sel size s) h (scfgOp_binds hb hp hf hn hc), ?_, rfl,
      rfl, rfl, rfl, rfl, rfl, rfl, rfl, rfl, rfl, ?_⟩ <;> rw [curCtx_modCur]
    · exact streamOf_withStream ..
    · exact f_withStream ..
  case unbinds =>
    rw [getCtx_unbind]
    exact ⟨streamOf_unbindCtx r _, f_unbindCtx⟩

end Sys2Proof.Proofs
end

section
/-! PROOF of O41. Every instruction of an engine that passes its checks ends in `acceptOp`: one lemma says what that leaves, and one for
each form that its checks pass (R271, R273, R308, R310). The LINK forms follow (R314). -/

namespace Sys2Proof.Proofs

open Sys2Proof.Machine Sys2Proof.Laws

-- The declarations are checked one after another: checked side by side, their threads exhaust the memory.
set_option Elab.async false

/-! ### An operation accepted (R273, R274) -/

theorem curCtx_acceptOp (s : State) (o : EngOp) :
    curCtx (acceptOp s o) = { curCtx s with opno := (curCtx s).opno + 1, engineUsed := true } :=
  curCtx_modCur s fun c => { c with opno := c.opno + 1, engineUsed := true }

theorem curCore_acceptOp (s : State) (o : EngOp) : curCore (acceptOp s o) =
    if 8 ≤ o.kind then { curCore s with convOps := (curCore s).convOps ++ [o] }
    else { curCore s with matOps := (curCore s).matOps ++ [o] } := curCore_modCurCore ..

/-- A form that ends in the acceptance of an operation of its activation, in a state whose core and operation number are those that
its checks found. -/
theorem accepts_of_acceptOp {i : Instr} {body : Effect} {s t w : State} {o : EngOp} {p : EngOp → Prop}
    (hi : exec i s = issue (form i) body s) (h : Ready (form i) s t) (hb : body t = ok (acceptOp w o))
    (hcore : curCore w = curCore t) (hopno : (curCtx w).opno = (curCtx t).opno)
    (ho : o.phase = .queued ∧ o.opno = (curCtx t).opno ∧ o.who = curWho t o.id) (hp : p o) : Accepts i s t p := by
  obtain ⟨hphase, hno, hwho⟩ := ho
  refine ⟨_, o, commits_of_effect hi h hb, hp, hphase, hno, hwho, ?_, ?_, ?_⟩
  · rw [curCtx_acceptOp]
    exact congrArg (· + 1) hopno
  · rw [curCtx_acceptOp]
  · rw [curCore_acceptOp, hcore]
    split <;> rfl

/-- The usual case: only the operation's number has been taken. -/
theorem accepts_of_newOp {i : Instr} {body : Effect} {s t : State} {kind : Nat} {o : EngOp} {p : EngOp → Prop}
    (hi : exec i s = issue (form i) body s) (h : Ready (form i) s t) (hb : body t = ok (acceptOp (newOp t kind).2 o))
    (ho : o.phase = .queued ∧ o.opno = (curCtx t).opno ∧ o.who = curWho t o.id) (hp : p o) : Accepts i s t p :=
  accepts_of_acceptOp hi h hb rfl rfl ho hp

/-! ### The conversion unit -/

section
variable {kind : Nat} {d a b : GReg} {fw : ConvField} {t : State}

theorem convAligned_ok {ring : Bool} {ea : Word} (h : ring = true ∨ ea.toNat % 64 = 0) : convAligned ring ea = .ok () :=
  if_neg (by rcases h with h | h <;> simp [h])

/-- The operation of a conversion instruction. -/
def convOp (t : State) (kind : Nat) (b : GReg) (fw : ConvField) (x y : Nat) : EngOp :=
  { (newOp t kind).1 with src := x, dst := y, seed := if fw.sr then rg t b else 0, conv := fw }

variable (hn : (curCore t).convOps.length < 8)
include hn

theorem convIssue_badPair (hp : convPair kind fw.sf.toNat fw.df.toNat = false) :
    convIssue kind d a b fw t = trap 0x1F (engTval 0 1 0 kind (curCtx t).opno.toNat) := by
  simp only [convIssue, Nat.not_le.mpr hn, if_false, hp, Bool.not_false, if_true]
  rfl

theorem convIssue_accepts (hp : convPair kind fw.sf.toNat fw.df.toNat = true) (hsrc : fw.srcr = true ∨ (rg t a).toNat % 64 = 0)
    (hdst : fw.dstr = true ∨ (rg t d).toNat % 64 = 0) {x y : Nat}
    (hx : convOperand t kind fw.srcr a .waitf (convGroups kind fw * groupBytes fw.sf.toNat) 2 = .ok x)
    (hy : convOperand t kind fw.dstr d .waite (convGroups kind fw * groupBytes fw.df.toNat) 3 = .ok y) :
    convIssue kind d a b fw t = ok (acceptOp (newOp t kind).2 (convOp t kind b fw x y)) := by
  simp only [convIssue, Nat.not_le.mpr hn, if_false, hp, Bool.not_true, Bool.false_eq_true, convAligned_ok hsrc, convAligned_ok hdst,
    hx, hy, Bind.bind, Except.bind]
  rfl

end

/-- A conversion instruction that passes its checks is accepted. -/
theorem conv_accepts {i : Instr} {kind : Nat} {d a b : GReg} {fw : ConvField}
    (hi : ∀ s, exec i s = issue (form i) (convIssue kind d a b fw) s) (s t : State) (x y : Nat) (h : Ready (form i) s t)
    (hn : (curCore t).convOps.length < 8) (hp : convPair kind fw.sf.toNat fw.df.toNat = true)
    (hsrc : fw.srcr = true ∨ (rg t a).toNat % 64 = 0) (hdst : fw.dstr = true ∨ (rg t d).toNat % 64 = 0)
    (hx : convOperand t kind fw.srcr a .waitf (convGroups kind fw * groupBytes fw.sf.toNat) 2 = .ok x)
    (hy : convOperand t kind fw.dstr d .waite (convGroups kind fw * groupBytes fw.df.toNat) 3 = .ok y) :
    Accepts i s t fun o => o.kind = kind ∧ o.src = x ∧ o.dst = y ∧ o.conv = fw ∧ o.seed = if fw.sr then rg t b else 0 :=
  accepts_of_newOp (hi s) h (convIssue_accepts hn hp hsrc hdst hx hy) ⟨rfl, rfl, rfl⟩ ⟨rfl, rfl, rfl, rfl, rfl⟩

/-- A format pair that Table 13.11 does not list raises cause 0x1F. -/
theorem conv_raises {i : Instr} {kind : Nat} {d a b : GReg} {fw : ConvField}
    (hi : ∀ s, exec i s = issue (form i) (convIssue kind d a b fw) s) :
    RaisesIf i (fun t => (curCore t).convOps.length < 8 ∧ convPair kind fw.sf.toNat fw.df.toNat = false) 0x1F
      (fun t => engTval 0 1 0 kind (curCtx t).opno.toNat) :=
  raisesIf_of_effect hi fun _ ⟨hn, hp⟩ => convIssue_badPair hn hp

/-! ### The matrix engine -/

section
variable {t : State} (hn : (curCore t).matOps.length < 8)
include hn

theorem matRoom_ok : matRoom t = .ok () := if_neg (Nat.not_le.mpr hn)

theorem mmaOp_accepts {q : AccReg} {h h' : Handle} {f : MmaField}
    (hr : matRings t 0 (handle t h.val) (handle t h'.val) 0 f = .ok ()) : mmaOp q h h' f t = ok (acceptOp (newOp t 0).2
      { (newOp t 0).1 with acc := q.val, ra := handle t h.val, rb := handle t h'.val, mma := f }) := by
  rw [mmaOp, hr, matRoom_ok hn]
  rfl

theorem mmrotOp_accepts {q : AccReg} {h h' : Handle} {f : MmaField}
    (hr : matRings t 2 (handle t h.val) (handle t h'.val) 0 f = .ok ())
    (hw : inLaunch t (opCtx t) (westA (agentNo t.cur.agent)) = true)
    (hno : inLaunch t (opCtx t) (northA (agentNo t.cur.agent)) = true) : mmrotOp q h h' f t = ok (acceptOp (newOp t 2).2
      { (newOp t 2).1 with acc := q.val, ra := handle t h.val, rb := handle t h'.val, mma := f }) := by
  simp only [mmrotOp, hr, hw, hno, Bool.not_true, Bool.false_eq_true, if_false, matRoom_ok hn, Bind.bind, Except.bind]

theorem mmaGOp_accepts {d : GReg} {h h' : Handle} {f : MmaField} {x : Nat} (ha : (rg t d).toNat % 8 = 0)
    (hr : matRings t 1 (handle t h.val) (handle t h'.val) (f.gm1.toNat + 1) f = .ok ()) (hx : ownRange t (rg t d) 8 = .ok x) :
    mmaGOp d h h' f t = ok (acceptOp (newOp t 1).2
      { (newOp t 1).1 with acc := f.acc.toNat, ra := handle t h.val, rb := handle t h'.val, src := x, mma := f }) := by
  simp only [mmaGOp, ha, ne_eq, not_true_eq_false, if_false, mmaGroups, hr, hx, matRoom_ok hn, Bind.bind, Except.bind]

theorem accClrOp_accepts (q : AccReg) : accClrOp q t = ok (acceptOp (newOp t 3).2 { (newOp t 3).1 with acc := q.val }) := by
  rw [accClrOp, matRoom_ok hn]
  rfl

theorem accAnchOp_accepts (q : AccReg) (a : GReg) :
    accAnchOp q a t = ok (acceptOp (newOp t 4).2 { (newOp t 4).1 with acc := q.val, seed := rg t a }) := by
  rw [accAnchOp, matRoom_ok hn]
  rfl

theorem accRdOp_accepts (q : AccReg) {a : GReg} (b : GReg) {f : AccField} {x : Nat} (hx : accTarget t 5 a .waite f = .ok x) :
    accRdOp q a b f t = ok (acceptOp (newOp t 5).2
      { (newOp t 5).1 with acc := q.val, dst := x, seed := if f.sr then rg t b else 0, accF := f }) := by
  rw [accRdOp, hx, matRoom_ok hn]
  rfl

theorem accWrOp_accepts (q : AccReg) {a : GReg} {f : AccField} {x : Nat} (hx : accTarget t 6 a .waitf f = .ok x) :
    accWrOp q a f t = ok (acceptOp (newOp t 6).2 { (newOp t 6).1 with acc := q.val, src := x, accF := f }) := by
  rw [accWrOp, hx, matRoom_ok hn]
  rfl

/-- The operation of ACC.STAT has the number under which its context awaits the value. -/
theorem accStatOp_accepts (d : GReg) (q : AccReg) : accStatOp d q t =
    let r := awaitReg (newOp t 7).2 d
    ok (acceptOp r.2 { (newOp t 7).1 with id := r.1, who := { (newOp t 7).1.who with id := r.1 }, acc := q.val }) := by
  rw [accStatOp, matRoom_ok hn]
  rfl

end

theorem opno_awaitReg (s : State) (d : GReg) : (curCtx (awaitReg s d).2).opno = (curCtx s).opno :=
  (congrArg Ctx.opno (curCtx_modCur (newId s).2 (·.await ⟨(newId s).1, .reg d⟩))).trans rfl

/-! ### LINK.CFG -/

section
variable {t : State} (d : GReg) {a : GReg}

theorem linkCfgOp_owned (ho : (portsOf ((rg t a).toNat % 16)).any (otherPorts t).contains = true) :
    linkCfgOp d a t = .ok (goesOn (wgSlow t d 1)) := if_pos ho

variable (ho : (portsOf ((rg t a).toNat % 16)).any (otherPorts t).contains = false)
include ho

theorem linkCfgOp_outside (hp : ∃ p ∈ portsOf ((rg t a).toNat % 16), inLaunch t (opCtx t) (neighbour (agentNo t.cur.agent) p) = false) :
    linkCfgOp d a t = .ok (goesOn (wgSlow t d 2)) := by
  have hany : (portsOf ((rg t a).toNat % 16)).any (fun p => !inLaunch t (opCtx t) (neighbour (agentNo t.cur.agent) p)) = true := by
    simpa using hp
  simp only [linkCfgOp, ho, Bool.false_eq_true, if_false, hany, if_true]
  rfl

theorem linkCfgOp_takes (hp : ∀ p ∈ portsOf ((rg t a).toNat % 16), inLaunch t (opCtx t) (neighbour (agentNo t.cur.agent) p) = true) :
    linkCfgOp d a t = .ok (goesOn (wgSlow (modCur t fun c =>
      { clearPorts c (c.ports.filter fun p => !(portsOf ((rg t a).toNat % 16)).contains p) with
        ports := portsOf ((rg t a).toNat % 16)
        forwards := (portsOf ((rg t a).toNat / 16 % 16)).filter (portsOf ((rg t a).toNat % 16)).contains }) d 0)) := by
  have hany : (portsOf ((rg t a).toNat % 16)).any (fun p => !inLaunch t (opCtx t) (neighbour (agentNo t.cur.agent) p)) = false := by
    simpa using hp
  simp only [linkCfgOp, ho, Bool.false_eq_true, if_false, hany]
  rfl

end

/-! ### The statement -/

/-- Settles O41: the conversions by `conv_accepts` and `conv_raises`, the matrix forms by `accepts_of_acceptOp` and the lemma about
their effect, and the LINK forms by theirs. -/
theorem enginesAccept : Obligations.EnginesAccept := by
  intro d a b q h h' fw mf af
  exact ⟨conv_accepts (exec_cvtMx d a b fw), conv_raises (exec_cvtMx d a b fw),
    conv_accepts (exec_cvtUnmx d a b fw), conv_raises (exec_cvtUnmx d a b fw),
    conv_accepts (exec_rescaleMx d a b fw), conv_raises (exec_rescaleMx d a b fw),
    conv_accepts (exec_transp d a b fw), conv_raises (exec_transp d a b fw),
    fun s t hr hm hn => accepts_of_newOp (exec_mma q h h' mf s) hr (mmaOp_accepts hn hm) ⟨rfl, rfl, rfl⟩ ⟨rfl, rfl, rfl, rfl, rfl⟩,
    fun s t hr hm hw hno hn => accepts_of_newOp (exec_mmrot q h h' mf s) hr (mmrotOp_accepts hn hm hw hno) ⟨rfl, rfl, rfl⟩
      ⟨rfl, rfl, rfl, rfl, rfl⟩,
    fun s t x hr ha hm hx hn => accepts_of_newOp (exec_mmaG d h h' mf s) hr (mmaGOp_accepts hn ha hm hx) ⟨rfl, rfl, rfl⟩
      ⟨rfl, rfl, rfl, rfl, rfl, rfl⟩,
    fun s t hr hn => accepts_of_newOp (exec_accClr q s) hr (accClrOp_accepts hn q) ⟨rfl, rfl, rfl⟩ ⟨rfl, rfl⟩,
    fun s t hr hn => accepts_of_newOp (exec_accAnch q a s) hr (accAnchOp_accepts hn q a) ⟨rfl, rfl, rfl⟩ ⟨rfl, rfl, rfl⟩,
    fun s t x hr hx hn => accepts_of_newOp (exec_accRd q a b af s) hr (accRdOp_accepts hn q b hx) ⟨rfl, rfl, rfl⟩
      ⟨rfl, rfl, rfl, rfl, rfl⟩,
    fun s t x hr hx hn => accepts_of_newOp (exec_accWr q a af s) hr (accWrOp_accepts hn q hx) ⟨rfl, rfl, rfl⟩ ⟨rfl, rfl, rfl, rfl⟩,
    fun s t hr hn => accepts_of_acceptOp (exec_accStat d q s) hr (accStatOp_accepts hn d q) rfl (opno_awaitReg ..) ⟨rfl, rfl, rfl⟩
      ⟨rfl, rfl⟩,
    answersIf_of_effect (exec_linkCfg d a) fun _ => linkCfgOp_owned d,
    answersIf_of_effect (exec_linkCfg d a) fun _ ⟨ho, hp⟩ => linkCfgOp_outside d ho hp,
    answersIf_of_effect (exec_linkCfg d a) fun _ ⟨ho, hp⟩ => linkCfgOp_takes d ho hp,
    answers_of_effect (exec_linkStat d) fun _ => rfl⟩

end Sys2Proof.Proofs
end

section
/-! PROOF of O45. How a cause is delivered, a single step is taken, a callee unwinds, and a watchpoint and a snapshot count: each
event's function in the case that its clause names (R224, R340 to R345, R351, R354, R355). -/

namespace Sys2Proof.Proofs

open Sys2Proof.Machine Sys2Proof.Laws

-- The declarations are checked one after another: checked side by side, their threads exhaust the memory.
set_option Elab.async false

variable {s : State} {k : CtxKey} {code : BitVec 6} {tval : Word}

/-! ### Trap entry and delivery (R340, R342, R343) -/

theorem becomes_trapEntry (hu : (getCtx s k).used = true) (hk : (getCtx s k).killed = false) (hq : (getCtx s k).quiet = true)
    (hs : (getCtx s k).stepped = none) (hf : (getCtx s k).frames = []) :
    Becomes (.trapEntry k code tval) s (nowReady (takeTrap s k code.toNat tval (getCtx s k).pc false) k) :=
  becomes_of_event ((exec_trapEntry k code tval s).trans (if_pos (by simp [hu, hk, hq, hs, hf])))

section
variable (hc : canDeliver (getCtx s k) = true)
include hc

theorem deliver_budget (hb : budgetDue s k = true) : deliver s k = budgetExpiry s k := by
  simp only [deliver, hc, hb, Bool.not_true, Bool.false_eq_true, if_false, if_true]

variable (hb : budgetDue s k = false)
include hb

theorem deliver_due (hd : (getCtx s k).due12 = true) (ht : (getCtx s k).inTrap = false) : deliver s k =
    nowReady (takeTrap (setCtx s k { (getCtx s k) with due12 := false }) k 0x12 (w64 (getCtx s k).actLoaded) (getCtx s k).pc true) k := by
  simp only [deliver, hc, hb, hd, ht, Bool.not_true, Bool.not_false, Bool.and_self, Bool.false_eq_true, if_false, if_true]

variable (hd : (getCtx s k).due12 = false) {e : CauseEntry} (he : (getCtx s k).nextCause = some e)
include hd he

/-- What is neither a spent budget nor due is the oldest deliverable entry. -/
theorem deliver_entry : deliver s k = if e.code = 0x28#6 then enterInterrupt s k e else takeQueued s k e := by
  simp only [deliver, hc, hb, hd, he, Bool.not_true, Bool.false_and, Bool.false_eq_true, if_false]

theorem becomes_copyCompletionInterrupt (h28 : e.code = 0x28#6) : Becomes (.copyCompletionInterrupt k) s (enterInterrupt s k e) := by
  refine becomes_of_event (show execCopyCompletionInterrupt k s = _ from ?_)
  simp only [execCopyCompletionInterrupt, he, hc, hb, hd, h28, Bool.not_false, beq_self_eq_true, Bool.and_self, if_true]

end

/-- The entry that is delivered is one of the frame's depth, while no handler runs (R342, R343). -/
theorem nextCause_deliverable {c : Ctx} {e : CauseEntry} (h : c.nextCause = some e) :
    c.inTrap = false ∧ e.depth = c.depth ∧ (e.code = 0x28#6 → c.st 8 = true ∧ c.inUi = false) := by
  have hd : c.deliverable e = true := List.find?_some h
  simp only [Ctx.deliverable, Bool.and_eq_true, Bool.not_eq_true', beq_iff_eq, Bool.or_eq_true, bne_iff_ne] at hd
  obtain ⟨⟨htrap, hdepth⟩, hcode⟩ := hd
  exact ⟨htrap, hdepth.symm, fun h28 => hcode.resolve_left fun hne => hne h28⟩

/-! ### Single step and unwinding (R345, R351) -/

theorem becomes_singleStep {b : Nat} (hs : (getCtx s k).stepped = some b) (hu : (getCtx s k).used = true)
    (hk : (getCtx s k).killed = false) (hq : (getCtx s k).quiet = true) (ht : (getCtx s k).inTrap = false) :
    Becomes (.singleStep k) s
      (nowReady (takeTrap (setCtx s k { (getCtx s k) with stepped := none }) k 0x34 (w64 b) (getCtx s k).pc true) k) := by
  refine becomes_of_event (show execSingleStep k s = _ from ?_)
  simp only [execSingleStep, hs, hu, hk, hq, ht, Bool.not_false, Bool.and_self, if_true]

theorem gateUnwind_unwinds (hu : (getCtx s k).used = true) (hk : (getCtx s k).killed = false) (hd : 0 < (getCtx s k).depth)
    (hq : (getCtx s k).quiet = true) (hc : code.toNat ≠ 0x12) (hs : sinksOut s k = false) {u : State}
    (hf : fenceAr { s with cur := k, latch := none } .core = .ok u) : gateUnwind s k code tval =
      nowReady (unwind { u with cur := s.cur, latch := s.latch } k code.toNat tval (getCtx s k).pc) k := by
  simp only [gateUnwind, hu, hk, hd, hq, hc, hs, decide_true, ne_eq, not_false_eq_true, Bool.not_false, Bool.true_or, Bool.and_self,
    if_true, hf, if_false]

/-! ### Watchpoints (R224, R354) -/

/-- The TVAL of a trigger fills its fields (R224). -/
theorem watchTval_fields (kind : Fin 11) (writer : BitVec 11) (addr : BitVec 48) :
    watchTval kind.val writer.toNat addr.toNat = w64 (writer.toNat + kind.val * 2 ^ 11 + addr.toNat * 2 ^ 16) := by
  have hkind : kind.val % 2 ^ 5 = kind.val := Nat.mod_eq_of_lt (by have := kind.isLt; omega)
  rw [watchTval, hkind, Nat.mod_eq_of_lt writer.isLt, Nat.mod_eq_of_lt addr.isLt]

theorem becomes_watchpointTrigger {ag : Agent} {n : Fin 4} {kind : Fin 11} {writer : BitVec 11} {addr : BitVec 48} {t : Trig}
    (ht : (s.dev.trigs.find? fun t => t.ag == ag && t.n == n.val && t.kind == kind.val && t.writer == writer.toNat &&
      t.addr % 2 ^ 48 == addr.toNat) = some t) :
    Becomes (.watchpointTrigger ag n kind writer addr) s (watchHit (modDev s fun d => { d with trigs := d.trigs.erase t }) ag n
      (w64 (writer.toNat + kind.val * 2 ^ 11 + addr.toNat * 2 ^ 16))) := by
  refine becomes_of_event (show execWatchpointTrigger ag n kind writer addr s = _ from ?_)
  simp only [execWatchpointTrigger, ht, watchTval_fields]

section
variable {ag : Agent} {n : Fin 4}

/-- The watchpoint's count with the trigger. -/
def watchCounted (s : State) (ag : Agent) (n : Fin 4) : State :=
  modCore s ag fun co => { co with
    watches := co.watches.set n { (getCore s ag).watches[n] with hits := Nat.min ((getCore s ag).watches[n].hits + 1) 0xFFFF } }

/-- How a trigger that has been counted is delivered, by DELIV and the context that armed the watchpoint (R354). -/
def deliverHit (s : State) (ag : Agent) (n : Fin 4) (tval : Word) (armed : Option Who) (deliv : Nat) : State :=
  let logged := record s 0x32 (agentNo ag) [tval.toNat, n.val]
  match deliv with
  | 0 => match armed with
    | some who => raiseAsync s who 0x32 tval
    | none => logged
  | 2 => if s.dev.snap.watchEn then snapshot logged 4 else logged
  | _ => logged

theorem watchHit_eq : watchHit s ag n tval =
    deliverHit (watchCounted s ag n) ag n tval (getCore s ag).watches[n].who (getCore s ag).watches[n].deliv := rfl

theorem watchHit_raises {who : Who} (hd : (getCore s ag).watches[n].deliv = 0) (hw : (getCore s ag).watches[n].who = some who) :
    watchHit s ag n tval = raiseAsync (watchCounted s ag n) who 0x32 tval := by
  rw [watchHit_eq, hd, hw]
  rfl

theorem watchHit_logs (hd : (getCore s ag).watches[n].deliv = 1) :
    watchHit s ag n tval = record (watchCounted s ag n) 0x32 (agentNo ag) [tval.toNat, n.val] := by
  rw [watchHit_eq, hd]
  rfl

theorem watchHit_snapshots (hd : (getCore s ag).watches[n].deliv = 2) (he : s.dev.snap.watchEn = true) :
    watchHit s ag n tval = snapshot (record (watchCounted s ag n) 0x32 (agentNo ag) [tval.toNat, n.val]) 4 := by
  rw [watchHit_eq, hd]
  exact if_pos he

end

/-! ### Snapshots (R355) -/

theorem snapshot_held (src : BitVec 4) (h : s.dev.snap.held = true) : snapshot s src =
    modDev s fun d => { d with snap := { d.snap with ignored := Nat.min (d.snap.ignored + 1) 0xFFFFFFFF } } := if_pos h

theorem snapshot_taken (src : BitVec 4) (h : s.dev.snap.held = false) : (snapshot s src).dev.snap.held = true ∧
    (snapshot s src).dev.snap.last = src ∧ (snapshot s src).dev.snap.seq = s.dev.snap.seq + 1 := by
  simp only [snapshot, h, Bool.false_eq_true, if_false, raiseDev_dev]
  exact ⟨rfl, rfl, rfl⟩

theorem becomes_snaptimeReached {t : State} {dtime : Word} (ht : timeTo s dtime.toNat = some t) (ha : t.dev.snap.armed = true)
    (he : t.dev.snap.timeEn = true) (hd : t.dev.snap.time.toNat ≤ dtime.toNat) : Becomes (.snaptimeReached dtime) s
      (snapshot (modDev t fun d => { d with snap := { d.snap with armed := false } }) 8) := by
  refine becomes_of_event (show execSnaptimeReached dtime s = _ from ?_)
  simp only [execSnaptimeReached, ht, ha, he, hd, decide_true, Bool.and_self, if_true]

/-! ### The statement -/

/-- Settles O45: each clause is the lemma about its event's function. -/
theorem trapEventsAnswer : Obligations.TrapEventsAnswer := by
  refine ⟨fun s k code tval => becomes_trapEntry, fun s k hc hb => becomes_of_event (congrArg event (deliver_budget hc hb)),
    fun s k hc hb => ⟨fun hd ht => becomes_of_event (congrArg event (deliver_due hc hb hd ht)), fun e hd he h28 =>
      becomes_of_event (congrArg event ((deliver_entry hc hb hd he).trans (if_neg h28)))⟩,
    fun s k e hc hb hd he h28 => ⟨becomes_copyCompletionInterrupt hc hb hd he h28,
      becomes_of_event (congrArg event ((deliver_entry hc hb hd he).trans (if_pos h28)))⟩,
    fun c e => nextCause_deliverable, fun s k b => becomes_singleStep,
    fun s k code tval hu hk hd hq hc hs hrel =>
      becomes_of_event (congrArg event (gateUnwind_unwinds hu hk hd hq hc hs (fenceAr_ok hrel))),
    fun s k => becomes_of_event rfl, fun s ag n kind writer addr t => becomes_watchpointTrigger,
    fun s ag n tval who => ⟨watchHit_raises, watchHit_logs, watchHit_snapshots⟩,
    fun s c slot n v => becomes_of_event rfl, fun s c slot n => becomes_of_event rfl,
    fun s src => ⟨becomes_of_event rfl, snapshot_held src, snapshot_taken src⟩,
    fun s hp => becomes_of_event (if_pos hp), fun s t dtime => becomes_snaptimeReached, fun s => becomes_of_event rfl⟩

end Sys2Proof.Proofs
end

section
/-! PROOF of O44, its first part: what reaches a barrier and a ring, and the trees and reshapes (R139, R256 to R264). -/

namespace Sys2Proof.Proofs

open Sys2Proof.Machine Sys2Proof.Laws

-- The declarations are checked one after another: checked side by side, their threads exhaust the memory.
set_option Elab.async false

/-! ### A packet at a barrier (R256, R257) -/

section
variable {s t : State} {n o i from_ : Nat} {src : Node} {vn : Fin 4} {sq : BitVec 12} {fwd : Bool} {w : Option Who}

theorem becomes_barrierEvent {m : BarMsg}
    (hp : takePkt s n = some (⟨src, .core o, vn, .barrier from_ w i m, sq, fwd⟩, t)) (hm : ∀ wait, m ≠ .refused wait) :
    Becomes (.barrierEvent n) s (barEvent t o i from_ w m) := by
  refine becomes_of_event (show execBarrierEvent n s = _ from ?_)
  cases m with
  | refused wait => exact absurd rfl (hm wait)
  | _ => simp only [execBarrierEvent, hp]

theorem becomes_barrierHoldRetry {owner me : Nat} {wait : Bool}
    (hp : takePkt s n = some (⟨src, .core me, vn, .barrier owner w i (.refused wait), sq, fwd⟩, t)) :
    Becomes (.barrierHoldRetry n) s (sendPkt t (.core me) (.core owner) 3 (.barrier me w i (.arrive wait))) := by
  refine becomes_of_event (show execBarrierHoldRetry n s = _ from ?_)
  simp only [execBarrierHoldRetry, hp]

end

section
variable {s : State} {o i : Nat} {b : Barrier} (hb : barOf s o i = b) (src : Nat) (w : Who) (wait : Bool)
include hb

theorem barEvent_arrive_dead (hl : b.live = false) :
    barEvent s o i src (some w) (.arrive wait) = ownerRefuse s o w 0x09 (barTval 1 i o) := by
  simp only [barEvent, arriveBar_dead hb w wait hl]

theorem barEvent_arrive_held (hl : b.live = true) (hsc : b.scope = true) (hr : b.rep = true) (hn : b.holds.length < 8) :
    barEvent s o i src (some w) (.arrive wait) = putBar s o i { b with holds := b.holds ++ [(w, wait)] } := by
  simp only [barEvent, arriveBar_held hb w wait hl (by simp [hsc, hr]) hn]

theorem barEvent_arrive_overfull (hl : b.live = true) (hsc : b.scope = true) (hr : b.rep = true) (hn : 8 ≤ b.holds.length) :
    barEvent s o i src (some w) (.arrive wait) =
      sendPkt s (.core o) (.core src) 1 (.barrier o (some w) i (.refused wait)) := by
  simp only [barEvent, arriveBar_overfull hb w wait hl (by simp [hsc, hr]) hn]

theorem barEvent_arrive_full (hl : b.live = true) (hr : b.rep = false) (ha : b.arrived = b.expect) :
    barEvent s o i src (some w) (.arrive wait) =
      ownerRefuse (drainHolds o i 8 (putBar s o i { b with ovr := true })) o w 0x09 (barTval 2 i o) := by
  simp only [barEvent, arriveBar_counts hb w wait hl (by simp [hr]), countArrival_full hb ha]

theorem barEvent_tx_dead (v : Int) (hl : b.live = false) :
    barEvent s o i src (some w) (.tx v) = ownerRefuse s o w 0x09 (barTval 1 i o) := by
  simp only [barEvent, hb, hl, Bool.not_false, if_true]

theorem barEvent_tx_counts {v : Int} (hl : b.live = true) (hr : (addPend s o i v).2 = true) :
    barEvent s o i src (some w) (.tx v) = (addPend s o i v).1 := by
  simp only [barEvent, hb, hl, Bool.not_true, Bool.false_eq_true, if_false, hr, if_true]

end

section
variable {s : State} {o i tag : Nat} {b : Barrier} (hb : barOf s o i = b) (src : Nat) (w : Option Who) (hl : b.live = true)
  (hsc : b.scope = true)
include hb hl hsc

theorem barEvent_report_other (child : Nat) (ht : b.tag ≠ tag) : barEvent s o i src w (.report tag child) = wrongTag s o i tag := by
  simp only [barEvent, hb, hl, hsc, bne_iff_ne.mpr ht, Bool.and_self, if_true]

omit hl hsc in
theorem barEvent_report_counts (child : Nat) (ht : b.tag = tag) : barEvent s o i src w (.report tag child) =
    drainHolds o i 8 (testBar (putBar s o i { b with children := b.children ||| BitVec.ofNat 4 (2 ^ child) }) o i) := by
  have hsame : (b.tag != tag) = false := by simp [ht]
  simp only [barEvent, hb, hsame, Bool.and_false, Bool.false_eq_true, if_false]

theorem barEvent_release_other (ht : b.tag ≠ tag) : barEvent s o i src w (.release tag) = wrongTag s o i tag := by
  simp only [barEvent, hb, hl, hsc, bne_iff_ne.mpr ht, Bool.and_self, if_true]

theorem barEvent_release_completes (ht : b.tag = tag) :
    barEvent s o i src w (.release tag) = drainHolds o i 8 (completeBar s o i) := by
  have hsame : (b.tag != tag) = false := by simp [ht]
  simp only [barEvent, hb, hl, hsc, hsame, Bool.and_false, Bool.and_self, Bool.false_eq_true, if_false, if_true]

end

/-! ### Rings at their owner, and trees (R261, R264) -/

section
variable {s t : State} {o h : Nat}

theorem ringEvent_grants {w : RingWaiter} {i : Nat} {r : Ring}
    (hw : readyWaiter (ringOf s o h) [] (ringOf s o h).waiters = some (w, i, r)) :
    ringEvent s o h = grantUser (putRing s o h r) o h i w.k w.user := by
  simp only [ringEvent, hw]

theorem ringEvent_performs {n owner ring k : Nat} {src dst : Node} {vn : Fin 4} {sq : BitVec 12} {fwd : Bool} {w : Who} {op : RingOp}
    (hw : (ringOf s o h).waiters = []) (hr : ringPacket s o h = some n)
    (hp : takePkt s n = some (⟨src, dst, vn, .ring w op owner ring k, sq, fwd⟩, t)) :
    ringEvent s o h = ringAtOwner t o h w op k := by
  simp only [ringEvent, hw, readyWaiter, hr, Option.bind_some, hp]

theorem becomes_treeResult {c i : Nat} {x : Tree} {g : Group} {p : TreePart} (hx : s.dev.trees[i]? = some x)
    (hg : findGroup s (some x.launch) x.group = some g)
    (hp : (x.parts.find? fun p => Agent.tile p.core == .tile c && !p.landed) = some p)
    (hall : (g.members.all fun m => x.parts.any (·.core == m)) = true) : Becomes (.treeResult (.tile c) i) s (landTree s g x p) := by
  refine becomes_of_event (show execTreeResult (.tile c) i s = _ from ?_)
  simp only [execTreeResult, hx, hg, hp, hall, if_true]

end

/-! ### Reshapes (R139, R141) -/

/-- The banks whose earlier engine work the moves of a reshape wait for. -/
def earlyBanks (co : Core) (r : Reshape) : List Nat :=
  leavingBanks co.counts r.counts 2 ++ (leavingBanks co.counts r.counts 4).filter ((movingRegions co).flatMap (newBanks r)).contains

/-- The first line in a leaving cache way. -/
def leavingLine (co : Core) (r : Reshape) : Option Line := co.l1.find? fun l => (leavingBanks co.counts r.counts 3).contains l.way

section
variable {s : State} {c : Nat} {r : Reshape} (hr : (getCore s (.tile c)).reshape = some r)
  (hs : ((leavingSlots (getCore s (.tile c)) r.counts).filter fun i => (getCtx s ⟨.tile c, i⟩).used) = [])
include hr hs

/-- Once the leaving slots are free, the moves wait for earlier work, and the write-backs for the moves. -/
theorem reshapeComplete_of_free : reshapeComplete s (.tile c) =
    if engineBefore s c r.id (earlyBanks (getCore s (.tile c)) r) then s
    else if movingRegions (getCore s (.tile c)) ≠ [] then moveRegions s (.tile c) r
    else match leavingLine (getCore s (.tile c)) r with
      | some l => flushLine s (.tile c) l.line
      | none => if (getCore s (.tile c)).writeBacks.isEmpty &&
          !engineBefore s c r.id (leavingBanks (getCore s (.tile c)).counts r.counts 4) then finishReshape s (.tile c) r else s := by
  simp only [reshapeComplete, hr, hs, List.find?_nil, List.isEmpty_nil, Bool.not_true, Bool.false_or]
  refine if_congr Iff.rfl rfl (if_congr ?_ rfl rfl)
  simp

theorem reshapeComplete_early (he : engineBefore s c r.id (earlyBanks (getCore s (.tile c)) r) = true) :
    reshapeComplete s (.tile c) = s := by
  rw [reshapeComplete_of_free hr hs, if_pos he]

variable (he : engineBefore s c r.id (earlyBanks (getCore s (.tile c)) r) = false)
include he

theorem reshapeComplete_moves (hm : movingRegions (getCore s (.tile c)) ≠ []) :
    reshapeComplete s (.tile c) = moveRegions s (.tile c) r := by
  rw [reshapeComplete_of_free hr hs, if_neg (Bool.eq_false_iff.mp he), if_pos hm]

variable (hm : movingRegions (getCore s (.tile c)) = [])
include hm

theorem reshapeComplete_flushes {l : Line} (hl : leavingLine (getCore s (.tile c)) r = some l) :
    reshapeComplete s (.tile c) = flushLine s (.tile c) l.line := by
  rw [reshapeComplete_of_free hr hs, if_neg (Bool.eq_false_iff.mp he), if_neg (not_not.mpr hm), hl]

variable (hl : leavingLine (getCore s (.tile c)) r = none)
include hl

theorem reshapeComplete_waits (h : (getCore s (.tile c)).writeBacks ≠ [] ∨
    engineBefore s c r.id (leavingBanks (getCore s (.tile c)).counts r.counts 4) = true) : reshapeComplete s (.tile c) = s := by
  rw [reshapeComplete_of_free hr hs, if_neg (Bool.eq_false_iff.mp he), if_neg (not_not.mpr hm), hl]
  refine if_neg ?_
  rcases h with h | h <;> simp [h]

theorem reshapeComplete_finishes (hw : (getCore s (.tile c)).writeBacks = [])
    (hb : engineBefore s c r.id (leavingBanks (getCore s (.tile c)).counts r.counts 4) = false) :
    reshapeComplete s (.tile c) = finishReshape s (.tile c) r := by
  rw [reshapeComplete_of_free hr hs, if_neg (Bool.eq_false_iff.mp he), if_neg (not_not.mpr hm), hl]
  exact if_pos (by simp [hw, hb])

end

end Sys2Proof.Proofs
end

section
/-! PROOF of O44, its second part: copies, streams and conversions by themselves (R151, R304, R310). -/

namespace Sys2Proof.Proofs

open Sys2Proof.Machine Sys2Proof.Laws

-- The declarations are checked one after another: checked side by side, their threads exhaust the memory.
set_option Elab.async false

/-! ### Transfers (R301 to R306) -/

section
variable {s : State} {ag : Agent} {x : Xfer} {l : List Xfer}

theorem copyStart_steps (hx : (getCore s ag).xfers = x :: l) (hk : xferKilled s x = false) (hr : x.reason = 0)
    (hf : x.faultCause = 0) : copyStart s ag =
      ((servedDests x.dests).findSome? (destStep s ag { x with state := 2 })).getD (putXfer s ag { x with state := 2 }) := by
  unfold copyStart
  rw [hx]
  exact if_neg (by simp [hk, hr, hf])

theorem copyDone_cancels (hk : (getCore s ag).xfers.find? (xferKilled s) = some x) : copyDone s ag = cancelXfer s ag x := by
  simp only [copyDone, hk]

theorem copyDone_retires (hk : (getCore s ag).xfers.find? (xferKilled s) = none) (hx : (getCore s ag).xfers = x :: l)
    (hst : x.state = 2) (hd : x.dests = []) (hr : x.reason = 0) (hf : x.faultCause = 0) :
    copyDone s ag = xferIrq (xferBar (retire s ag x 3) ag x) x := by
  unfold copyDone
  rw [hk, hx]
  exact if_pos ⟨hst, hd, hr, hf⟩

theorem copyFault_block (hx : (getCore s ag).xfers = x :: l) (hf : x.faultCause = 0) (hr : x.reason ≠ 0) :
    copyFault s ag = raiseAsync (closeCpy (xferBar (retire s ag x 5) ag x) x) x.who 0x27 (cpyTval x.id.toNat x.reason) := by
  unfold copyFault
  rw [hx]
  exact (if_neg fun h => hr h.1).trans (if_neg (not_not.mpr hf))

theorem copyFault_memory (hx : (getCore s ag).xfers = x :: l) (hf : x.faultCause ≠ 0) :
    copyFault s ag = raiseAsync (closeCpy (xferBar (retire s ag x 5) ag x) x) x.who x.faultCause (w64 x.id.toNat) := by
  unfold copyFault
  rw [hx]
  exact (if_neg fun h => hf h.2).trans (if_pos hf)

end

/-! ### Streams (R151, R152) -/

/-- The numbers of the elements that a read stream fetches next. -/
def nextElems (st : Stream) : List Nat := (List.range (Nat.min st.per (st.total - st.next))).map (st.next + ·)

section
variable {s u : State} {k : CtxKey} {r : SReg} {st : Stream} (hst : streamOf (getCtx s k) (Fin.ofNat 32 r.val) = some st)
include hst

section
variable (hw : st.write = false) (hb : st.buf.length < 8) (hn : st.next < st.total) (hf : st.fault = none)
  (hk : (getCtx s k).killed = false)
include hw hb hn hf hk

/-- A read stream with room and elements left fetches its next vector. -/
theorem streamFetch_fetches : streamFetch s k r =
    match fetchElems { s with cur := k, latch := none } st (nextElems st) with
    | .ok (u, vs) => modCtx u k fun c => c.setStream (Fin.ofNat 32 r.val)
        { st with buf := st.buf ++ [packElems (8 * sizeBytes st.size) vs], next := st.next + Nat.min st.per (st.total - st.next) }
    | .error (.trap code tval) => modCtx { s with cur := k, latch := none } k fun c =>
        c.setStream (Fin.ofNat 32 r.val) { st with fault := some (BitVec.ofNat 6 code, tval) }
    | .error _ => s := by
  have hgoes : ¬((st.write = true) ∨ 8 ≤ st.buf.length ∨ st.total ≤ st.next ∨ st.fault.isSome = true ∨
      (getCtx { s with cur := k, latch := none } k).killed = true) := by
    have hk' : (getCtx { s with cur := k, latch := none } k).killed = false := hk
    simp [hw, hf, hk', hb, hn]
  have hst' : streamOf (getCtx { s with cur := k, latch := none } k) (Fin.ofNat 32 r.val) = some st := hst
  simp only [streamFetch, hst', hgoes, if_false]
  rfl

theorem streamFetch_vector {vs : List Nat} (hv : fetchElems { s with cur := k, latch := none } st (nextElems st) = .ok (u, vs)) :
    streamFetch s k r = modCtx u k fun c => c.setStream (Fin.ofNat 32 r.val)
      { st with buf := st.buf ++ [packElems (8 * sizeBytes st.size) vs], next := st.next + Nat.min st.per (st.total - st.next) } := by
  rw [streamFetch_fetches hst hw hb hn hf hk, hv]

theorem streamFetch_fault {code : Nat} {tval : Word}
    (hv : fetchElems { s with cur := k, latch := none } st (nextElems st) = .error (.trap code tval)) :
    streamFetch s k r = modCtx { s with cur := k, latch := none } k fun c =>
      c.setStream (Fin.ofNat 32 r.val) { st with fault := some (BitVec.ofNat 6 code, tval) } := by
  rw [streamFetch_fetches hst hw hb hn hf hk, hv]

end

theorem streamDrain_whole (hw : st.write = true) (hb : st.buf ≠ []) (hp : (getCtx s k).pushes.head? = some (Fin.ofNat 32 r.val))
    (hd : drainElems { s with cur := k, latch := none } st r (st.done - st.buf.length) st.outq = (u, [])) :
    streamDrain s k r = modCtx u k fun c =>
      { c.setStream (Fin.ofNat 32 r.val) { st with outq := [], buf := st.buf.tail } with pushes := c.pushes.tail } := by
  have hgoes : (!st.write || st.buf == [] ||
      (getCtx { s with cur := k, latch := none } k).pushes.head? != some (Fin.ofNat 32 r.val)) = false := by
    have hp' : (getCtx { s with cur := k, latch := none } k).pushes.head? = some (Fin.ofNat 32 r.val) := hp
    simp [hw, hb, hp']
  have hst' : streamOf (getCtx { s with cur := k, latch := none } k) (Fin.ofNat 32 r.val) = some st := hst
  simp only [streamDrain, hst', hgoes, Bool.false_eq_true, if_false, hd]
  rfl

end

/-! ### Conversions (R310) -/

/-- The unit acts for its oldest operation that can go on. -/
theorem becomes_convOpStart {s u : State} {c : Nat} {o : EngOp} {l : List EngOp} (hl : (getCore s (.tile c)).convOps = o :: l)
    (h : convStep s c (o :: l) o = some u) : Becomes (.convOpStart (.tile c)) s u := by
  refine becomes_of_event (show execConvOpStart (.tile c) s = _ from ?_)
  simp only [execConvOpStart, hl, List.findSome?_cons, h, Option.getD_some]

section
variable {s : State} {c : Nat} {o : EngOp} {l : List EngOp}

section
variable (hn : nextOfAct l o = true) (hk : opKilled s o = false)
include hn hk

theorem convStep_asks (hp : o.phase = .queued) (hsrc : o.conv.srcr = true → ringLost s c o.src o.id = false)
    (hdst : o.conv.dstr = true → ringLost s c o.dst o.id = false) : convStep s c l o = some (convAsk s c o) := by
  have hs : (o.conv.srcr && ringLost s c o.src o.id) = false := by simpa using hsrc
  have hd : (o.conv.dstr && ringLost s c o.dst o.id) = false := by simpa using hdst
  simp only [convStep, hk, hn, hp, hs, hd, Bool.false_and, Bool.not_true, Bool.false_eq_true, if_false]

theorem convStep_lost (hp : o.phase = .queued) (hsrc : o.conv.srcr = true) (hr : ringLost s c o.src o.id = true) :
    convStep s c l o = some (faultOp121 s o 0x27 0 o.src) := by
  simp only [convStep, hk, hn, hp, hsrc, hr, Bool.false_and, Bool.and_self, Bool.not_true, Bool.false_eq_true, if_false, if_true]

theorem convStep_runs (hp : o.phase = .atRings) (hg : convGranted o = true) (hs : l.any (·.started) = false) :
    convStep s c l o = some (convRun s c o) := by
  simp only [convStep, hk, hn, hp, hg, hs, Bool.false_and, Bool.not_true, Bool.not_false, Bool.and_self, Bool.false_eq_true, if_false,
    if_true]

end

/-- A conversion between ranges of its own memory, with nothing wrong in them, writes its output there. -/
theorem convRun_memory (hsrc : o.conv.srcr = false) (hdst : o.conv.dstr = false) {n m : Nat} {blocks : List Nat}
    (hn : convGroups o.kind o.conv * groupBytes o.conv.sf.toNat = n) (hm : convGroups o.kind o.conv * groupBytes o.conv.df.toNat = m)
    (hb : ((List.range (convGroups o.kind o.conv)).map fun g =>
      readN s.mem (localAddr c o.src + g * groupBytes o.conv.sf.toNat) (groupBytes o.conv.sf.toNat)) = blocks)
    (hs : rangeStill s o o.src n = .yes) (hd : rangeStill s o o.dst m = .yes) (hf : failedIn s (localAddr c o.src) n = none)
    (hx : (if 8 ≤ o.conv.sf.toNat then blocks.findSome? (mxCheck (o.conv.sf.toNat - 8)) else none) = none) :
    convRun s c o = putOp (engPut s (opSrc c 3 o 0) (localAddr c o.dst)
      ((convOut o blocks).flatMap fun x => bytesOf x.1 (groupBytes o.conv.df.toNat)))
      { o with phase := .running, bytes := m, flags := allFlags ((convOut o blocks).map (·.2)) } := by
  have hrange : convRange s c o n m = .yes := by simp only [convRange, hsrc, hdst, Bool.false_eq_true, if_false, hs, hd]
  have ha : convSrcAddr s c o = localAddr c o.src := by simp only [convSrcAddr, hsrc, Bool.false_eq_true, if_false]
  have hda : convDstAddr s c o = localAddr c o.dst := by simp only [convDstAddr, hdst, Bool.false_eq_true, if_false]
  simp only [convRun, hn, hm, ha, hda, hrange, hf, Option.isSome_none, hb, hx, hdst, Bool.false_and, Bool.false_eq_true, if_false]

theorem becomes_convOpComplete (ho : (getCore s (.tile c)).convOps.find? (·.started) = some o) (hsrc : o.conv.srcr = false)
    (hdst : o.conv.dstr = false) :
    Becomes (.convOpComplete (.tile c)) s (opFlags (opBar (dropOp s o) c o.conv.ben o.conv.bar.toNat o) o) := by
  refine becomes_of_event (show execConvOpComplete (.tile c) s = _ from ?_)
  simp only [execConvOpComplete, ho, hsrc, hdst, Bool.false_eq_true, if_false]

end

end Sys2Proof.Proofs
end

section
/-! PROOF of O44, its third part: the matrix engine, its forwards and the links (R273, R281, R285, R288, R311), and the statement. -/

namespace Sys2Proof.Proofs

open Sys2Proof.Machine Sys2Proof.Laws

-- The declarations are checked one after another: checked side by side, their threads exhaust the memory.
set_option Elab.async false

/-! ### The matrix engine (R272, R281, R288 to R291) -/

section
variable {s : State} {c i : Nat} {o : EngOp} (ho : (getCore s (.tile c)).matOps[i]? = some o)
include ho

section
variable (hn : nextOfAct (getCore s (.tile c)).matOps o = true) (hk : opKilled s o = false)
include hn hk

/-- What the engine does next goes by the phase of the operation. -/
theorem matStep_of_next (hr : o.started = false) : matStep s c i =
    match o.phase with
    | .queued => if o.multiply then matBarrier s c o else accAsk s c o
    | .past => (matSlots s c o).getD s
    | .atRings => if matReady s c (getCore s (.tile c)).matOps o &&
        !(((getCore s (.tile c)).matOps.take i).any (matReady s c (getCore s (.tile c)).matOps)) then matRun s c o else s
    | _ => s := by
  simp only [matStep, ho, hr, hk, hn, Bool.not_true, Bool.false_eq_true, if_false] <;> rfl

theorem matStep_past_barrier (hp : o.phase = .queued) (hm : o.kind ≤ 2) (hb : o.mma.ben = false) :
    matStep s c i = putOp s { o with phase := .past } := by
  rw [matStep_of_next ho hn hk (by rw [EngOp.started, hp]; rfl), hp]
  refine (if_pos (decide_eq_true hm)).trans ?_
  exact if_pos (by rw [hb]; rfl)

theorem matStep_accAsk (hp : o.phase = .queued) (hm : 2 < o.kind) : matStep s c i = accAsk s c o := by
  rw [matStep_of_next ho hn hk (by rw [EngOp.started, hp]; rfl), hp]
  exact if_neg (by simp [EngOp.multiply, hm])

theorem matStep_slots (hp : o.phase = .past) {u : State} (hu : matSlots s c o = some u) : matStep s c i = u := by
  rw [matStep_of_next ho hn hk (by rw [EngOp.started, hp]; rfl), hp, hu]
  rfl

theorem matStep_runs (hp : o.phase = .atRings) (hr : matReady s c (getCore s (.tile c)).matOps o = true)
    (hf : ((getCore s (.tile c)).matOps.take i).any (matReady s c (getCore s (.tile c)).matOps) = false) :
    matStep s c i = matRun s c o := by
  rw [matStep_of_next ho hn hk (by rw [EngOp.started, hp]; rfl), hp]
  exact if_pos (by rw [hr, hf]; rfl)

end

theorem becomes_matrixOpComplete (hp : o.phase = .running) : Becomes (.matrixOpComplete (.tile c) i) s (matDone s c o) := by
  have hrunning : o.started = true := by rw [EngOp.started, hp]; rfl
  refine becomes_of_event (show execMatrixOpComplete (.tile c) i s = _ from ?_)
  simp only [execMatrixOpComplete, ho, hrunning, if_true]

end

section
variable (s : State) (c : Nat) (o : EngOp)

/-- The start of an operation goes by its kind. -/
theorem matRun_eq (kind : Nat) (hk : o.kind = kind) : matRun s c o =
    match (generalizing := false) kind with
    | 3 => putOp (freshTile s o ⟨[], [], (tileOf s o).anch, false, false⟩) { o with phase := .running }
    | 4 => putOp (freshTile s o ⟨[], [], (BitVec.ofNat 16 o.seed.toNat).toInt, false, false⟩) { o with phase := .running }
    | 5 => accRdRun s c o
    | 6 => accWrRun s c o
    | 7 => if tileBad s o then faultOp121 s o 0x2C 0 0 else putOp s { o with phase := .running, value := accStatus (tileOf s o) }
    | _ => mmaRun s c o := by
  subst hk
  rfl

theorem matRun_stat (hk : o.kind = 7) (hb : tileBad s o = false) :
    matRun s c o = putOp s { o with phase := .running, value := accStatus (tileOf s o) } :=
  (matRun_eq s c o 7 hk).trans (if_neg (Bool.eq_false_iff.mp hb))

theorem matRun_stat_bad (hk : o.kind = 7) (hb : tileBad s o = true) : matRun s c o = faultOp121 s o 0x2C 0 0 :=
  (matRun_eq s c o 7 hk).trans (if_pos hb)

theorem matDone_stat (hk : o.kind = 7) : matDone s c o = landReply (dropOp s o) o.who o.id o.value.toNat := if_pos hk

theorem matDone_plain (hk : o.kind ≤ 4) : matDone s c o = dropOp s o :=
  (if_neg (by omega)).trans (if_neg (by omega))

theorem matDone_memory (hk : o.kind = 5 ∨ o.kind = 6) (hr : o.accF.ring = false) : matDone s c o =
    wrapCause (opFlags (opBar (dropOp s o) c o.accF.ben o.accF.bar.toNat o) o) o (wrapTraps s o) := by
  have hne : o.kind ≠ 7 := by omega
  simp only [matDone, hne, if_false, hk, if_true, hr, Bool.not_false]

theorem wrapTraps_of_active {k : Ctx} (hk : findActivation s o.who.ctx o.who.gen = some k) :
    wrapTraps s o = (o.wrapped && (k.fpctlAt o).getLsbD 20) := by
  simp only [wrapTraps, hk]

end

/-! ### The forwards of MMROT (R285) -/

/-- The forwards of a core but one of its sides. -/
def otherForwards (s : State) (ag : Agent) (b : Bool) : List (Bool × Forward) := (getCore s ag).forwards.filter (·.1 != b)

/-- What admits a forward at its neighbour: a window of it, and banks that a reshape does not take (R141, R237). -/
def forwardAdmitted (s : State) (ag : Agent) (f : Forward) (i : Nat) : Prop :=
  engWindow s (agentNo ag) f.dest ((ringOf s f.dest f.ring).slotOff i) f.data.length f.op.launch true = true ∧
    engRole (getCore s (.tile f.dest)) f.op.id ((ringOf s f.dest f.ring).slotOff i) f.data.length ≠ .no

section
variable {s : State} {ag : Agent} {b : Bool} {f : Forward} (hf : (getCore s ag).forwards.find? (·.1 == b) = some (b, f))
include hf

theorem forwardStep_asks (hs : f.slot = none) (ha : f.asked = false) : forwardStep s ag b =
    engAsk (modCore s ag fun co => { co with forwards := (b, { f with asked := true }) :: otherForwards s ag b }) f.dest f.ring
      (.forward ag b) .waite 1 := by
  unfold forwardStep
  rw [hf]
  dsimp only
  split
  · exact if_neg (Bool.eq_false_iff.mp ha)
  · rename_i i hi
    exact absurd (hs.symm.trans hi) nofun

variable {i : Nat} (hs : f.slot = some i)
include hs

/-- A forward that has its slot is refused, or goes over its route. -/
theorem forwardStep_of_slot : forwardStep s ag b =
    if !engWindow s (agentNo ag) f.dest ((ringOf s f.dest f.ring).slotOff i) f.data.length f.op.launch true ||
        engRole (getCore s (.tile f.dest)) f.op.id ((ringOf s f.dest f.ring).slotOff i) f.data.length == .no then
      faultOp121 (modCore s ag fun co => { co with forwards := otherForwards s ag b }) f.op 0x27 0 f.ring
    else match overVn2 s (nodeOf ag) (.core f.dest) with
      | none => s
      | some t => modCore (engAdvance (engPut t (opSrc (agentNo ag) 2 f.op f.ring)
          (localAddr f.dest ((ringOf s f.dest f.ring).slotOff i)) f.data) f.dest f.ring .advp 1) ag
          fun co => { co with forwards := otherForwards s ag b } := by
  unfold forwardStep
  rw [hf]
  dsimp only
  split
  · rename_i hi
    exact absurd (hs.symm.trans hi) nofun
  · rename_i j hj
    cases hs.symm.trans hj
    rfl

theorem forwardStep_refused (ha : ¬forwardAdmitted s ag f i) : forwardStep s ag b =
    faultOp121 (modCore s ag fun co => { co with forwards := otherForwards s ag b }) f.op 0x27 0 f.ring := by
  rw [forwardStep_of_slot hf hs]
  refine if_pos ?_
  rw [forwardAdmitted, not_and_or, not_not] at ha
  rcases ha with ha | ha <;> simp [ha]

variable (ha : forwardAdmitted s ag f i)
include ha

theorem forwardStep_writes {t : State} (ht : overVn2 s (nodeOf ag) (.core f.dest) = some t) : forwardStep s ag b =
    modCore (engAdvance (engPut t (opSrc (agentNo ag) 2 f.op f.ring) (localAddr f.dest ((ringOf s f.dest f.ring).slotOff i)) f.data)
      f.dest f.ring .advp 1) ag fun co => { co with forwards := otherForwards s ag b } := by
  rw [forwardStep_of_slot hf hs, if_neg (by simp [ha.1, ha.2]), ht]

theorem forwardStep_waits (ht : overVn2 s (nodeOf ag) (.core f.dest) = none) : forwardStep s ag b = s := by
  rw [forwardStep_of_slot hf hs, if_neg (by simp [ha.1, ha.2]), ht]

end

/-! ### The links (R311) -/

theorem linkArrival_enters {s : State} {c p : Nat} {v : Vec} {l : List Vec}
    (hv : (getCore s (.tile c)).linkOut[(Fin.ofNat 4 p : Fin 4)] = v :: l) {u : State}
    (hu : (modCore s (.tile c) fun co => { co with linkOut := co.linkOut.set (Fin.ofNat 4 p) l }) = u)
    (hc : cutOff s (.core c) (.core (neighbour c p)) = false) (hf : forwarding s (neighbour c p) (oppositePort p) = false)
    (hn : ((getCore u (.tile (neighbour c p))).linkIn[(Fin.ofNat 4 (oppositePort p) : Fin 4)]).length < 8) :
    linkArrival s c p = modCore u (.tile (neighbour c p)) fun co => { co with
      linkIn := co.linkIn.set (Fin.ofNat 4 (oppositePort p)) (co.linkIn[(Fin.ofNat 4 (oppositePort p) : Fin 4)] ++ [v]) } := by
  subst hu
  simp only [linkArrival, hv, hc, hf, Bool.false_eq_true, if_false, false_and, or_false]
  exact if_neg (Nat.not_le.mpr hn)

/-! ### The statement -/

/-- Settles O44: each clause is the lemma about its event's function. -/
theorem engineEventsAnswer : Obligations.EngineEventsAnswer := by
  refine ⟨fun s t n src dst vn sq fwd o i from_ w hp => becomes_barrierEvent hp nofun,
    fun s t n src dst vn sq fwd o i from_ w wait hp => ?arrive,
    fun s t n src dst vn sq fwd o i from_ w v hp =>
      ⟨fun hl => becomes_of_eq (becomes_barrierEvent hp nofun) (barEvent_tx_dead rfl from_ w v hl),
        fun hl hr => becomes_of_eq (becomes_barrierEvent hp nofun) (barEvent_tx_counts rfl from_ w hl hr)⟩,
    fun s t n src dst vn sq fwd o i from_ tag child w hp hl hsc =>
      ⟨fun ht => becomes_of_eq (becomes_barrierEvent hp nofun) (barEvent_report_other rfl from_ w hl hsc child ht),
        fun ht => becomes_of_eq (becomes_barrierEvent hp nofun) (barEvent_report_counts rfl from_ w child ht)⟩,
    fun s t n src dst vn sq fwd o i from_ tag w hp hl hsc =>
      ⟨fun ht => becomes_of_eq (becomes_barrierEvent hp nofun) (barEvent_release_other rfl from_ w hl hsc ht),
        fun ht => becomes_of_eq (becomes_barrierEvent hp nofun) (barEvent_release_completes rfl from_ w hl hsc ht)⟩,
    fun s t n me owner i src vn sq fwd w wait => becomes_barrierHoldRetry,
    fun s o h w i r hw => becomes_of_event (congrArg event (ringEvent_grants hw)),
    fun s t o n owner ring k h src dst vn sq fwd w op hw hr hp => becomes_of_event (congrArg event (ringEvent_performs hw hr hp)),
    fun s c i t g p => becomes_treeResult, fun s c r hr hs => ?reshape,
    fun s ag x l hx hk hr hf => becomes_of_event (congrArg event (copyStart_steps hx hk hr hf)),
    fun s ag x hk => becomes_of_event (congrArg event (copyDone_cancels hk)),
    fun s ag x l hk hx hst hd hr hf => becomes_of_event (congrArg event (copyDone_retires hk hx hst hd hr hf)),
    fun s ag x l hx => ⟨fun hf hr => becomes_of_event (congrArg event (copyFault_block hx hf hr)),
      fun hf => becomes_of_event (congrArg event (copyFault_memory hx hf))⟩,
    fun s k r st hst hw hb hn hf hk =>
      ⟨fun u vs hv => becomes_of_event (congrArg event (streamFetch_vector hst hw hb hn hf hk hv)),
        fun code tval hv => becomes_of_event (congrArg event (streamFetch_fault hst hw hb hn hf hk hv))⟩,
    fun s u k r st hst hw hb hp hd => becomes_of_event (congrArg event (streamDrain_whole hst hw hb hp hd)),
    fun s c o l hl hn hk => ⟨fun hp hsrc hdst => becomes_convOpStart hl (convStep_asks hn hk hp hsrc hdst),
      fun hp hsrc hr => becomes_convOpStart hl (convStep_lost hn hk hp hsrc hr),
      fun hp hg hs => becomes_convOpStart hl (convStep_runs hn hk hp hg ?started)⟩,
    fun s c o hsrc hdst => convRun_memory hsrc hdst rfl rfl rfl,
    fun s c o => becomes_convOpComplete,
    fun s c i o ho hn hk => ⟨fun hp hm hb => becomes_of_event (congrArg event (matStep_past_barrier ho hn hk hp hm hb)),
      fun hp hm _ => becomes_of_event (congrArg event (matStep_accAsk ho hn hk hp hm)),
      fun hp u hu => becomes_of_event (congrArg event (matStep_slots ho hn hk hp hu)),
      fun hp hr hf => becomes_of_event (congrArg event (matStep_runs ho hn hk hp hr hf))⟩,
    fun s c o => ⟨matRun_eq s c o 3, matRun_eq s c o 4, matRun_stat s c o, matRun_stat_bad s c o⟩,
    fun s c i o ho hp => ⟨fun hk => becomes_of_eq (becomes_matrixOpComplete ho hp) (matDone_stat s c o hk),
      fun hk => becomes_of_eq (becomes_matrixOpComplete ho hp) (matDone_plain s c o hk),
      fun hk hr => becomes_of_eq (becomes_matrixOpComplete ho hp) (matDone_memory s c o hk hr)⟩,
    fun s o k => wrapTraps_of_active s o,
    fun s ag b f hf => ⟨fun hs ha => becomes_of_event (congrArg event (forwardStep_asks hf hs ha)), fun i hs =>
      ⟨fun ha => becomes_of_event (congrArg event (forwardStep_refused hf hs ha)),
        fun ha t ht => becomes_of_event (congrArg event (forwardStep_writes hf hs ha ht)),
        fun ha ht => becomes_of_event (congrArg event (forwardStep_waits hf hs ha ht))⟩⟩,
    fun s c p v l hc hp hv hcut hf hn => ?link⟩
  case arrive =>
    have hevent := becomes_barrierEvent (m := .arrive wait) hp nofun
    exact ⟨fun hl => becomes_of_eq hevent (barEvent_arrive_dead rfl from_ w wait hl),
      fun hl hsc hr hn => becomes_of_eq hevent (barEvent_arrive_held rfl from_ w wait hl hsc hr hn),
      fun hl hsc hr hn => becomes_of_eq hevent (barEvent_arrive_overfull rfl from_ w wait hl hsc hr hn),
      fun hl hr ha => becomes_of_eq hevent (barEvent_arrive_full rfl from_ w wait hl hr ha)⟩
  case reshape =>
    exact ⟨fun he => becomes_of_event (congrArg event (reshapeComplete_early hr hs he)),
      fun he hm => becomes_of_event (congrArg event (reshapeComplete_moves hr hs he hm)),
      fun l he hm hl => becomes_of_event (congrArg event (reshapeComplete_flushes hr hs he hm hl)),
      fun he hm hl h => becomes_of_event (congrArg event (reshapeComplete_waits hr hs he hm hl h)),
      fun he hm hl hw hb => becomes_of_event (congrArg event (reshapeComplete_finishes hr hs he hm hl hw hb))⟩
  case started =>
    rw [List.any_cons, hs, EngOp.started, hp]
    rfl
  case link =>
    have hcore : (4 * c + p) / 4 % 2048 = c := by omega
    have hport : (4 * c + p) % 4 = p := by omega
    refine becomes_of_event (show execLinkVectorArrival (4 * c + p) s = _ from ?_)
    rw [execLinkVectorArrival, hcore, hport]
    exact congrArg event (linkArrival_enters hv rfl hcut hf hn)

end Sys2Proof.Proofs
end

section
/-! PROOF of O48, its first part: the guest socket (R366 to R373). -/

namespace Sys2Proof.Proofs

open Sys2Proof.Machine Sys2Proof.Laws

-- The declarations are checked one after another: checked side by side, their threads exhaust the memory.
set_option Elab.async false

variable {s t : State} {q : Fin 64}

/-! ### Submits (R366, R367) -/

section
variable {n : Nat} {src : Node} {vn : Fin 4} {a : Access} {bs : List Byte} {e : BitVec 12} {fwd : Bool}
  (hp : takePkt s n = some (⟨src, .guest, vn, .access a, e, fwd⟩, t)) (hop : a.op = .st bs) (ha : submitBase ≤ a.addr)
  (hn : bs.length = 64) (hq : (Fin.ofNat 64 ((a.addr - submitBase) / 64) : Fin 64) = q)
include hp hop ha hn hq

/-- A packet of 64 bytes at a submit address is refused, or stamped and taken. -/
theorem execGuestSubmit_packet : execGuestSubmit n s =
    if !queueTakes t.dev.guest q a.launch || !packetFormed (wordsOf bs) then event (refuse t .guest a 0x29 (w64 a.va))
    else
      let x := t.dev.guest.queues[q]
      let p := stampPacket (wordsOf bs) q x a.slate (agentNo a.src)
      let u := modGuest (modGq t q fun x => { x with seq := x.seq + 1 }) fun g =>
        { g with reqs := g.reqs ++ [⟨q, x.seq, a.who, p⟩], sent := p :: g.sent }
      match a.jn with
      | some j => event (sendPkt u .guest (nodeOf a.src) 1 (.ack j))
      | none => event u := by
  subst hq
  have hfields : ¬(a.addr < submitBase ∨ bs.length ≠ 64) := fun h => h.elim (Nat.not_lt.mpr ha) (· hn)
  simp only [execGuestSubmit, hp, hop, hfields, if_false] <;> rfl

theorem becomes_guestSubmit_taken {j : Nat} (hj : a.jn = some j) (ht : queueTakes t.dev.guest q a.launch = true)
    (hf : packetFormed (wordsOf bs) = true) : Becomes (.guestSubmit n) s
      (sendPkt (modGuest (modGq t q fun x => { x with seq := x.seq + 1 }) fun g =>
        { g with
          reqs := g.reqs ++ [⟨q, (t.dev.guest.queues[q]).seq, a.who,
            stampPacket (wordsOf bs) q t.dev.guest.queues[q] a.slate (agentNo a.src)⟩]
          sent := stampPacket (wordsOf bs) q t.dev.guest.queues[q] a.slate (agentNo a.src) :: g.sent })
        .guest (nodeOf a.src) 1 (.ack j)) := by
  refine becomes_of_event (show execGuestSubmit n s = _ from ?_)
  rw [execGuestSubmit_packet hp hop ha hn hq, if_neg (by simp [ht, hf])]
  dsimp only
  rw [hj]

theorem becomes_guestSubmit_refused (h : queueTakes t.dev.guest q a.launch = false ∨ packetFormed (wordsOf bs) = false) :
    Becomes (.guestSubmit n) s (refuse t .guest a 0x29 (w64 a.va)) :=
  becomes_of_event ((execGuestSubmit_packet hp hop ha hn hq).trans (if_pos (by rcases h with h | h <;> simp [h])))

end

theorem queueTakes_iff (g : GuestPort) (q : Fin 64) (la : Option Nat) : queueTakes g q la = true ↔
    (g.queues[q]).valid = true ∧ la = some (g.queues[q]).launch ∧ (g.queues[q]).held = false ∧
      g.reqs.countP (·.q == q) < (g.queues[q]).depth ∧ g.en = true ∧ g.up = true := by
  simp only [queueTakes, Bool.and_eq_true, beq_iff_eq, Bool.not_eq_true', decide_eq_true_eq, and_assoc]
  rfl

/-! ### Answers (R368, R370) -/

section
variable {n : BitVec 16} (status : Word) {r : GuestReq}

theorem becomes_guestCompletion (hr : findReq s q n = some r) :
    Becomes (.guestCompletion q n status) s ((completeReq s r status).getD s) := by
  refine becomes_of_event (show execGuestCompletion q n status s = _ from ?_)
  simp only [execGuestCompletion, hr]

theorem becomes_guestFault (hr : findReq s q n = some r) : Becomes (.guestFault q n status) s (faultReq s r status) := by
  refine becomes_of_event (show execGuestFault q n status s = _ from ?_)
  simp only [execGuestFault, hr]

theorem becomes_guestRequestTimeout (hr : findReq s q n = some r) :
    Becomes (.guestRequestTimeout q n) s (faultReq s r (BitVec.allOnes 64)) := by
  refine becomes_of_event (show execGuestRequestTimeout q n s = _ from ?_)
  simp only [execGuestRequestTimeout, hr]

theorem becomes_guestCompletion_unasked (hr : findReq s q n = none) :
    Becomes (.guestCompletion q n status) s (record s 0 0 [1, q.val, n.toNat]) := by
  refine becomes_of_event (show execGuestCompletion q n status s = _ from ?_)
  simp only [execGuestCompletion, hr, discardPacket]

theorem becomes_guestFault_unasked (hr : findReq s q n = none) :
    Becomes (.guestFault q n status) s (record s 0 0 [2, q.val, n.toNat]) := by
  refine becomes_of_event (show execGuestFault q n status s = _ from ?_)
  simp only [execGuestFault, hr, discardPacket]

end

section
variable (s : State) (r : GuestReq) (status : Word)

/-- The message of a Completion, where word 0 asks for one (R368). -/
def answeredWith (t : State) : State := if bit (pktWord r.packet 0) 29 then completionMessage t r status else t

theorem completeReq_plain (hw : bit (pktWord r.packet 0) 28 = false) :
    completeReq s r status = some (answeredWith r status (dropReq s r)) := by
  simp only [completeReq, hw, Bool.false_eq_true, if_false, Option.map_some, answeredWith]

theorem completeReq_writes (hw : bit (pktWord r.packet 0) 28 = true) :
    completeReq s r status = (completionWrite (dropReq s r) r status).map (answeredWith r status) := by
  simp only [completeReq, hw, if_true]
  rfl

/-- The completion write goes by what its owner says. -/
theorem completionWrite_eq : completionWrite (dropReq s r) r status =
    match ownerCheck (dropReq s r) (bits (pktWord r.packet 2) 43 33) (bits (pktWord r.packet 2) 19 0) 8 .at_ none false
        (some (s.dev.guest.queues[r.q]).launch) with
    | .later => none
    | .role => some (record (dropReq s r) 0x0A (bits (pktWord r.packet 2) 43 33) [pktWord r.packet 2])
    | .window => some (record (dropReq s r) 0x08 (bits (pktWord r.packet 2) 43 33) [pktWord r.packet 2])
    | .perform =>
      let at_ := localAddr (bits (pktWord r.packet 2) 43 33) (bits (pktWord r.packet 2) 19 0)
      some (modGuest (fePerform (dropReq s r) at_ (.stfo status) 9 0 none).2 fun g => { g with released := addSorted at_ g.released }) := rfl

end

/-! ### Pre-emption, the guest's accesses (R369, R371) -/

/-- A queue that does not answer in time is blocked, and its requests are cancelled. -/
theorem becomes_guestPreemptTimeout (hp : (s.dev.guest.queues[q]).preempting = true) :
    ∃ u, Becomes (.guestPreemptTimeout q) s u ∧ (u.dev.guest.queues[q]).block = true ∧ (u.dev.guest.queues[q]).preempting = false ∧
      ∀ r ∈ u.dev.guest.reqs, r.q ≠ q := by
  refine ⟨_, becomes_of_event (if_pos hp), ?_, ?_, fun r hr => ?_⟩
  · exact congrArg GuestQueue.block (Vector.getElem_set_self _)
  · exact congrArg GuestQueue.preempting (Vector.getElem_set_self _)
  · exact bne_iff_ne.mp (List.mem_filter.mp hr).2

theorem answerPreempt_asked (kind : Nat) (hp : (s.dev.guest.queues[q]).preempting = true) :
    answerPreempt s kind q = modGq s q fun x => { x with preempting := false } := if_pos hp

section
variable {asid : BitVec 12} {a : OutsideAccess} (he : s.dev.guest.en = true) (hu : s.dev.guest.up = true)
  (hf : outsideFormed a = true)
include he hu hf

theorem execGuestAccess_formed : execGuestAccess asid a s =
    match guestLaunch s.dev.guest asid with
    | none => event (refuseGuest s)
    | some la =>
      match outsideAccess s a (guestTranslation s asid a.va (b2n a.store.isSome)) true 9 (some la) with
      | .held => event s
      | .refused => event (refuseGuest s)
      | .done t => event t :=
  if_neg (by simp [he, hu, hf])

theorem becomes_guestAccess_stranger (hl : guestLaunch s.dev.guest asid = none) : Becomes (.guestAccess asid a) s (refuseGuest s) := by
  refine becomes_of_event ((execGuestAccess_formed he hu hf).trans ?_)
  rw [hl]

variable {la : Nat} (hl : guestLaunch s.dev.guest asid = some la)
include hl

theorem becomes_guestAccess {x : Outside} {u : State}
    (hx : outsideAccess s a (guestTranslation s asid a.va (b2n a.store.isSome)) true 9 (some la) = x)
    (hu' : (match x with | .held => s | .refused => refuseGuest s | .done t => t) = u) : Becomes (.guestAccess asid a) s u := by
  refine becomes_of_event ((execGuestAccess_formed he hu hf).trans ?_)
  rw [hl]
  dsimp only
  rw [hx]
  subst hu'
  cases x <;> rfl

end

end Sys2Proof.Proofs
end

section
/-! PROOF of O48, its second part: the host port, its commands and launches (R374, R375, R393 to R401). -/

namespace Sys2Proof.Proofs

open Sys2Proof.Machine Sys2Proof.Laws

-- The declarations are checked one after another: checked side by side, their threads exhaust the memory.
set_option Elab.async false

variable {s : State} {tag : BitVec 32}

/-! ### A command that is served (R374, R393) -/

section
variable (hb : s.dev.sec.booted = true) (hf : (s.fws[1]).failed = false) (hp : s.dev.power.failing ≤ 1)
include hb hf hp

theorem command_serves (tag : BitVec 32) (f : State → State) : command s tag f = f s := if_pos (by simp [hb, hf, hp])

/-- A command of FW1's own is what it does. -/
theorem becomes_of_command {i : Instr} {f : State → State} {u : State} (hi : exec i s = event (command s tag f)) (hu : f s = u) :
    Becomes i s u :=
  becomes_of_event (hi.trans (congrArg event ((command_serves hb hf hp tag f).trans hu)))

/-- So is one of another firmware core that works. -/
theorem becomes_of_commandBy {i : Instr} {k : Nat} {f : State → State} {u : State} (hw : fwWorks s k = true)
    (hi : exec i s = event (commandBy s k tag f)) (hu : f s = u) : Becomes i s u :=
  becomes_of_event (hi.trans (congrArg event ((if_pos hw).trans ((command_serves hb hf hp tag f).trans hu))))

end

/-! ### Completions (R374) -/

theorem fixFailed_host (s : State) (a n : Nat) : (fixFailed s a n none).dev.host = s.dev.host := by
  refine List.foldlRecOn s.dev.failed _ (motive := fun u : State => u.dev.host = s.dev.host) rfl fun u hu f _ => ?_
  refine Eq.trans ?_ hu
  dsimp only
  split
  · split <;> rfl
  · rfl

theorem homeWrite_host (s : State) (a : Nat) (bs : List Byte) (kind writer : Nat) :
    (homeWrite s a bs kind writer none).dev.host = s.dev.host := by
  have hl2 (u : State) (n : Nat) : (l2Use u a n true true).dev.host = u.dev.host := by
    unfold l2Use
    split <;> rfl
  exact (hl2 ..).trans (fixFailed_host s a bs.length)

/-- The completion of a command that FW1 has read from a queue stands at the tail of its completion queue. -/
theorem hostDone_writes {st : Nat} {x : BitVec 32 × Nat} (hx : s.dev.host.open_.find? (·.1 == tag) = some x) {n : Fin 16}
    (hn : (Fin.ofNat 16 x.2 : Fin 16) = n) :
    (hostDone s tag st).mem =
      (homeWrite s ((s.dev.host.queues[n]).done + 16 * (s.dev.host.queues[n]).tail) (doneBytes tag st) 5 0 none).mem ∧
    ((hostDone s tag st).dev.host.queues[n]).tail = ((s.dev.host.queues[n]).tail + 1) % (s.dev.host.queues[n]).size ∧
    (hostDone s tag st).dev.host.open_ = s.dev.host.open_.erase x := by
  subst hn
  have hh := homeWrite_host s ((s.dev.host.queues[(Fin.ofNat 16 x.2 : Fin 16)]).done +
    16 * (s.dev.host.queues[(Fin.ofNat 16 x.2 : Fin 16)]).tail) (doneBytes tag st) 5 0
  unfold hostDone writeDone
  rw [hx]
  dsimp only
  generalize homeWrite s _ (doneBytes tag st) 5 0 none = u at hh
  exact ⟨rfl, congrArg HostQueue.tail (Vector.getElem_set_self _), congrArg (fun h : HostPort => h.open_.erase x) hh⟩

/-! ### The command queues -/

/-- A command of an unknown kind is one that no row of the tables has. -/
theorem commandOf_unknown {b : List Byte} (h : cmdWord b 0 % 256 = 0 ∨ 0x0D < cmdWord b 0 % 256) : commandOf b = .error 1 := by
  unfold commandOf
  dsimp only
  split
  case h_14 => rfl
  all_goals omega

/-- A queue whose next command has been read. -/
def commandRead (s : State) (n : Fin 16) : State :=
  let q := s.dev.host.queues[n]
  modDev s fun d => { d with host := { d.host with
    queues := d.host.queues.set n { q with head := (q.head + 1) % q.size, new := q.new - 1 }
    open_ := d.host.open_ ++ [(BitVec.ofNat 32 (bits (cmdWord (commandAt s q q.head) 0) 63 32), n.val)] } }

theorem readCommand_refused {n : Fin 16} {st : Nat}
    (hc : commandOf (commandAt s s.dev.host.queues[n] (s.dev.host.queues[n]).head) = .error st) (hr : s.dev.sec.recovery = none) :
    readCommand s n = hostDone (commandRead s n)
      (BitVec.ofNat 32 (bits (cmdWord (commandAt s s.dev.host.queues[n] (s.dev.host.queues[n]).head) 0) 63 32)) st := by
  have hr' : ¬(commandRead s n).dev.sec.recovery.isSome = true := fun h => by
    rw [show (commandRead s n).dev.sec.recovery = none from hr] at h
    exact Bool.false_ne_true h
  unfold readCommand
  dsimp only
  rw [hc]
  exact congrArg (hostDone (commandRead s n) _) (if_neg hr')

theorem readCommand_served {n : Fin 16} {f : State → Out} {t : State}
    (hc : commandOf (commandAt s s.dev.host.queues[n] (s.dev.host.queues[n]).head) = .ok f) (hf : f (commandRead s n) = .next t) :
    readCommand s n = t := by
  unfold readCommand
  dsimp only
  rw [hc]
  exact congrArg (after (commandRead s n)) hf

/-! ### Launches (R401) -/

section
variable {addr : Word}

theorem launchImage_refused {x : Nat × Nat × Nat} (hx : checkLaunch s ⟨s.mem, hostAddr addr⟩ = .error x) :
    launchImage s tag addr = hostDone (record s 0 0 [x.2.1, x.2.2]) tag x.1 := by
  unfold launchImage
  dsimp only
  rw [hx]

variable (hx : checkLaunch s ⟨s.mem, hostAddr addr⟩ = .ok ()) {t : State}
  (ht : placeLaunch s ⟨s.mem, hostAddr addr⟩ tag ⟨[], []⟩ = t)
include hx ht

theorem launchImage_placed (hn : 4096 * t.dev.nextPage ≤ dramEnd) : launchImage s tag addr =
    hostDone (Machine.measure t 5 (readBytes s.mem (hostAddr addr) (Img.length ⟨s.mem, hostAddr addr⟩))) tag 0 := by
  subst ht
  unfold launchImage
  dsimp only
  rw [hx]
  exact if_neg (Nat.not_lt.mpr hn)

theorem launchImage_overfull (hn : dramEnd < 4096 * t.dev.nextPage) :
    launchImage s tag addr = hostDone (record s 0 0 [4, 0]) tag 3 := by
  subst ht
  unfold launchImage
  dsimp only
  rw [hx]
  exact if_pos hn

end

/-! ### The other commands -/

theorem becomes_endLaunch {la : BitVec 16} {u : State} (hb : s.dev.sec.booted = true) (hf : (s.fws[1]).failed = false)
    (hp : s.dev.power.failing ≤ 1)
    (hu : (match findLaunch s la.toNat with
      | some l => if l.ending then hostDone s tag 3 else beginEnd s la.toNat (some tag)
      | none => hostDone s tag 3) = u) : Becomes (.endLaunch tag la) s u := becomes_of_command hb hf hp rfl hu

section
variable {a : OutsideAccess} (hf : outsideFormed a = true)
include hf

theorem becomes_hostApertureAccess_closed (hn : s.dev.host.aperture = none) : Becomes (.hostApertureAccess a) s (returned s none) := by
  refine becomes_of_event (show execHostApertureAccess a s = _ from ?_)
  simp only [execHostApertureAccess, hf, Bool.not_true, Bool.false_eq_true, if_false, hn]

variable {asid : BitVec 12} {gib : Nat} (ha : s.dev.host.aperture = some (asid, gib))
include ha

theorem becomes_hostApertureAccess_beyond (hn : gib * 2 ^ 30 < a.va + a.size) :
    Becomes (.hostApertureAccess a) s (returned s none) := by
  refine becomes_of_event (show execHostApertureAccess a s = _ from ?_)
  simp only [execHostApertureAccess, hf, Bool.not_true, Bool.false_eq_true, if_false, ha]
  exact if_pos hn

theorem becomes_hostApertureAccess (hn : a.va + a.size ≤ gib * 2 ^ 30) {x : Outside} {u : State}
    (hx : outsideAccess s a ((walk s asid a.va (b2n a.store.isSome)).map fun t => (s, t)) false 8 none = x)
    (hu : (match x with | .held => s | .refused => returned s none | .done t => t) = u) : Becomes (.hostApertureAccess a) s u := by
  refine becomes_of_event (show execHostApertureAccess a s = _ from ?_)
  simp only [execHostApertureAccess, hf, Bool.not_true, Bool.false_eq_true, if_false, ha]
  refine (if_neg (Nat.not_lt.mpr hn)).trans ?_
  rw [hx]
  subst hu
  cases x <;> rfl

end

section
variable {key : List Byte}
  (hr : (s.dev.sec.booted = true ∧ fwWorks s 0 = true) ∨ (s.dev.sec.booted = false ∧ s.dev.sec.recovery.isSome = true))
include hr

/-- Ownership may be claimed after boot, while FW0 works, and in recovery mode. -/
theorem execClaimOwnership_open : execClaimOwnership tag key s =
    if (liveSlot s.dev.sec).isSome || decide (8 ≤ s.dev.sec.owners.length) then event (hostDone s tag 3)
    else event (hostDone (modSec s fun x => { x with owners := x.owners ++ [(Config.shake256 32 (key.take 57), false)] }) tag 0) := by
  refine if_neg ?_
  rcases hr with ⟨hb, hw⟩ | ⟨hb, hrec⟩
  · simp [hb, hw]
  · simp [hb, Option.isSome_iff_ne_none.mp hrec]

theorem becomes_claimOwnership (hl : liveSlot s.dev.sec = none) (hn : s.dev.sec.owners.length < 8) :
    Becomes (.claimOwnership tag key) s (hostDone (modSec s fun x =>
      { x with owners := x.owners ++ [(Config.shake256 32 (key.take 57), false)] }) tag 0) :=
  becomes_of_event ((execClaimOwnership_open hr).trans (if_neg (by simp [hl, hn])))

theorem becomes_claimOwnership_refused (h : (liveSlot s.dev.sec).isSome = true ∨ 8 ≤ s.dev.sec.owners.length) :
    Becomes (.claimOwnership tag key) s (hostDone s tag 3) :=
  becomes_of_event ((execClaimOwnership_open hr).trans (if_pos (by rcases h with h | h <;> simp [h])))

end

/-- The owners with one slot revoked. -/
def revoked (slot : Nat) (l : List (List Byte × Bool)) : List (List Byte × Bool) :=
  l.zipIdx.map fun o => if o.2 = slot then (o.1.1, true) else o.1

theorem snd_of_revoked {slot : Nat} {l : List (List Byte × Bool)} {o : List Byte × Bool} (h : (revoked slot l)[slot]? = some o) :
    o.2 = true := by
  rw [revoked, List.getElem?_map, List.getElem?_zipIdx] at h
  obtain ⟨x, hx, rfl⟩ := Option.map_eq_some_iff.mp h
  obtain ⟨y, -, rfl⟩ := Option.map_eq_some_iff.mp hx
  simp

/-- The state in which a transferred ownership resets the device: the slot is revoked and both reels are erased (R394). -/
def handedOver (s : State) (tag : BitVec 32) : State :=
  modDev (modSec (hostDone s tag 0) fun x => { x with owners := revoked ((liveSlot s.dev.sec).getD 0) x.owners })
    fun d => { d with reels := { d.reels with slot0 := none, slot1 := none } }

theorem execAdvanceVersion_first {svn : BitVec 8} {sig : List Byte} (ha : s.dev.sec.advance = none) :
    exec (.advanceVersion tag svn sig) s = event (commandBy s 0 tag fun s =>
      if ownerSigned s.dev.sec sig (ownerItem s.dev.sec 10 ++ bytesOf svn.toNat 1) && decide (s.dev.sec.svn < svn.toNat) &&
          decide (svn.toNat ≤ 64) then modSec s fun x => { x with advance := some (tag, svn.toNat) }
      else hostDone s tag 3) :=
  if_neg (by rw [ha]; exact Bool.false_ne_true)

section
variable {n : Nat} (ha : s.dev.sec.advance = some (tag, n))
include ha

theorem burnFuse_goesOn (hn : s.dev.sec.svn + 1 < n) : burnFuse s = modSec s fun x => { x with svn := s.dev.sec.svn + 1 } := by
  simp only [burnFuse, ha]
  exact if_pos hn

theorem burnFuse_ends (hn : n ≤ s.dev.sec.svn + 1) : burnFuse s = hostDone (modSec s fun x => { x with svn := n, advance := none }) tag 0 := by
  simp only [burnFuse, ha]
  exact if_neg (Nat.not_lt.mpr hn)

end

theorem execSplitDomain_alone {n m : Fin 16} {g : Nat} {slices : Word} (hw : s.dev.dom.switch = none) (hs : s.dev.dom.split = none) :
    exec (.splitDomain tag n m g slices) s = event (commandBy s 3 tag fun u =>
      if splitAccepted s.dev.dom n m g slices then
        splitNext (modDev u fun x => { x with dom := { x.dom with split := some (tag, [.mask n (s.dev.dom.mask[n] &&& ~~~slices),
          .mask m slices, .sel (Fin.ofNat 30 (g / 16)) (selWith s.dev.dom g m.val)]) } })
      else hostDone u tag 3) :=
  if_neg (by rw [hw, hs]; exact Bool.false_ne_true)

/-! ### The translator (R404) -/

section
variable {la : BitVec 16} {h : BitVec 9} {l : Launch} (hl : findLaunch s la.toNat = some l) (ht : s.dev.sec.translator = true)
  (hn : l.htable ≠ 0)
include hl ht hn

/-- A handler of a live launch that has a table is published, or the requests for it are dropped. -/
theorem execHandlerPublish_live (addr : Option Word) : execHandlerPublish la h addr s =
    match addr.bind fun a => publish s l h.toNat (a.toNat % 2 ^ 48) with
    | some t => event t
    | none => event (dropRequests (((requesters s l.la h.toNat).filter fun w => (findActivation s w.ctx w.gen).isSome).foldl
        (fun s w => raiseAsync s w 0x3C (w64 h.toNat)) s) l.la h.toNat) := by
  have hlive : (!s.dev.sec.translator || decide (l.htable = 0)) = false := by simp [ht, hn]
  simp only [execHandlerPublish, hl, hlive, Bool.false_eq_true, if_false] <;> rfl

theorem becomes_handlerPublish {a : Word} {t : State} (hp : publish s l h.toNat (a.toNat % 2 ^ 48) = some t) :
    Becomes (.handlerPublish la h (some a)) s t := by
  refine becomes_of_event ((execHandlerPublish_live hl ht hn (some a)).trans ?_)
  rw [Option.bind_some, hp]

theorem becomes_handlerPublish_drops {addr : Option Word}
    (hp : (addr.bind fun a => publish s l h.toNat (a.toNat % 2 ^ 48)) = none) :
    ∃ u, Becomes (.handlerPublish la h addr) s u ∧ ∀ r ∈ u.dev.requests, ¬(r.1 = l.la ∧ r.2.1 = h.toNat) := by
  refine ⟨_, becomes_of_event ((execHandlerPublish_live hl ht hn addr).trans (by rw [hp])), fun r hr => ?_⟩
  exact not_and_or.mpr (by simpa using (List.mem_filter.mp hr).2)

end

/-! ### The statement -/

/-- Settles O48: each clause is the lemma about its event's function, and a command's what it does where it is served. -/
theorem guestAndHostEventsAnswer : Obligations.GuestAndHostEventsAnswer := by
  refine ⟨fun s t n j src vn a bs e fwd hp hop ha hn hj => ⟨becomes_guestSubmit_taken hp hop ha hn rfl hj,
      becomes_guestSubmit_refused hp hop ha hn rfl⟩,
    fun g q la => (queueTakes_iff g q la).mp,
    fun s q n status r hr => ⟨fun u hu => becomes_of_eq (becomes_guestCompletion status hr) (by rw [hu]; rfl),
      fun hu => becomes_of_eq (becomes_guestCompletion status hr) (by rw [hu]; rfl), becomes_guestFault status hr,
      becomes_guestRequestTimeout hr⟩,
    fun s r status => ⟨completeReq_plain s r status,
      fun hw ho => (completeReq_writes s r status hw).trans (by rw [completionWrite_eq, ho]; rfl),
      fun hw ho => (completeReq_writes s r status hw).trans (by rw [completionWrite_eq, ho]; rfl)⟩,
    fun s q n status hr => ⟨becomes_guestCompletion_unasked status hr, becomes_guestFault_unasked status hr⟩,
    fun s q hd => becomes_of_event (if_pos hd),
    fun s q hp => ⟨becomes_of_event (congrArg event (answerPreempt_asked 3 hp)),
      becomes_of_event (congrArg event (answerPreempt_asked 4 hp)), becomes_guestPreemptTimeout hp⟩,
    fun s asid a he hu hf => ⟨becomes_guestAccess_stranger he hu hf, fun la hl =>
      ⟨fun t hx => becomes_guestAccess he hu hf hl hx rfl, fun hx => becomes_guestAccess he hu hf hl hx rfl,
        fun hx => becomes_guestAccess he hu hf hl hx rfl⟩⟩,
    fun s up => becomes_of_event rfl,
    fun s q hb => ⟨_, becomes_of_event (if_pos hb), rfl⟩,
    fun s tag addr hw hb hf hp => becomes_of_commandBy hb hf hp hw rfl rfl,
    fun s tag addr => ⟨fun x => launchImage_refused, fun hx => ⟨launchImage_placed hx rfl, launchImage_overfull hx rfl⟩⟩,
    fun s tag la ty role data payload hb hf hp => ⟨fun hn => becomes_of_command hb hf hp rfl (if_pos hn),
      fun hn u hu => becomes_of_command hb hf hp rfl ((if_neg (Nat.not_lt.mpr hn)).trans (by rw [hu])),
      fun hn hu => becomes_of_command hb hf hp rfl ((if_neg (Nat.not_lt.mpr hn)).trans (by rw [hu]))⟩,
    fun s tag addr count sheet hw hb hf hp => ⟨fun hn => becomes_of_commandBy hb hf hp hw rfl (if_pos hn), fun hn =>
      ⟨fun ha => becomes_of_commandBy hb hf hp hw rfl ((if_neg (Nat.not_lt.mpr hn)).trans (if_pos ha)),
        fun ha => becomes_of_commandBy hb hf hp hw rfl ((if_neg (Nat.not_lt.mpr hn)).trans (if_neg (Bool.eq_false_iff.mp ha)))⟩⟩,
    fun s tag core q hb hf hp => ⟨fun hc hr => becomes_of_command hb hf hp rfl (if_neg (by omega)),
      fun hr => becomes_of_command hb hf hp rfl (if_pos hr)⟩,
    fun s tag la hb hf hp => ⟨fun hl => becomes_endLaunch hb hf hp (by rw [hl]),
      fun l hl he => becomes_endLaunch hb hf hp (by rw [hl]; exact if_pos he),
      fun l hl he => becomes_endLaunch hb hf hp (by rw [hl]; exact if_neg (Bool.eq_false_iff.mp he))⟩,
    fun s tag i o hw hb hf hp => ⟨fun ha => becomes_of_commandBy hb hf hp hw rfl (if_pos ha),
      fun ha => becomes_of_commandBy hb hf hp hw rfl (if_neg (Bool.eq_false_iff.mp ha))⟩,
    fun s tag asid gib hb hf hp => ⟨fun hlo hhi => becomes_of_command hb hf hp rfl (if_pos ⟨hlo, hhi⟩),
      fun hn => becomes_of_command hb hf hp rfl (if_neg (by omega))⟩,
    fun s a hf => ⟨becomes_hostApertureAccess_closed hf, fun asid gib ha => ⟨becomes_hostApertureAccess_beyond hf ha,
      fun hn t hx => becomes_hostApertureAccess hf ha hn hx rfl, fun hn hx => becomes_hostApertureAccess hf ha hn hx rfl,
      fun hn hx => becomes_hostApertureAccess hf ha hn hx rfl⟩⟩,
    fun s tag key hr => ⟨becomes_claimOwnership hr, becomes_claimOwnership_refused hr⟩,
    fun s tag sig hw hb hf hp => ⟨fun hs => becomes_of_commandBy hb hf hp hw rfl (if_neg (Bool.eq_false_iff.mp hs)),
      fun hs => ⟨_, handedOver s tag, becomes_of_commandBy hb hf hp hw rfl (if_pos hs), rfl, rfl, rfl, fun o => snd_of_revoked⟩⟩,
    fun s tag svn sig hw ha hb hf hp => ⟨fun hs hlo hhi => becomes_of_commandBy hb hf hp hw (execAdvanceVersion_first ha)
        (if_pos (by simp [hs, hlo, hhi])),
      fun h => becomes_of_commandBy hb hf hp hw (execAdvanceVersion_first ha) (if_neg ?advance)⟩,
    fun s tag n ha => ⟨burnFuse_goesOn ha, burnFuse_ends ha⟩,
    fun s n => ⟨commandOf_unknown, fun st => readCommand_refused, fun f t => readCommand_served⟩,
    fun s tag st x hx => hostDone_writes hx rfl,
    fun s tag nonce addr hw hb hf hp => becomes_of_commandBy hb hf hp hw rfl rfl,
    fun s tag addr size hw hb hf hp => ⟨fun ha => becomes_of_commandBy hb hf hp hw rfl (if_pos ha),
      fun ha => becomes_of_commandBy hb hf hp hw rfl (if_neg (Bool.eq_false_iff.mp ha))⟩,
    fun s tag n m g slices hw hb hf hp hsw hsp =>
      ⟨fun ha => becomes_of_commandBy hb hf hp hw (execSplitDomain_alone hsw hsp) (if_neg (Bool.eq_false_iff.mp ha)),
        fun ha => becomes_of_commandBy hb hf hp hw (execSplitDomain_alone hsw hsp) (if_pos ha)⟩,
    fun s la h l hl ht hn => ⟨fun a t => becomes_handlerPublish hl ht hn, fun a hp => becomes_handlerPublish_drops hl ht hn hp,
      becomes_handlerPublish_drops hl ht hn rfl⟩⟩
  case advance =>
    rcases h with h | h | h
    · simp [h]
    · simp [Nat.not_lt.mpr h]
    · simp [Nat.not_le.mpr h]

end Sys2Proof.Proofs
end
